-- ==== Sys2Proof/Word.lean ====
section
/-! DEFINITION. The word and byte types of Disia (00 R7): instructions are 32-bit words, memory is bytes, scalar registers are
64-bit dwords, and lane registers are 32-bit words. -/

namespace Sys2Proof

abbrev Byte := BitVec 8
abbrev Half := BitVec 16
abbrev Word := BitVec 32
abbrev Dword := BitVec 64

end Sys2Proof
end

