-- ==== Sys2Proof/Machine/Num.lean ====
section
/-! DEFINITION. Floating-point values, formats, exact arithmetic, rounding, flags, conversions and the special functions
(02 R31-R53). A value is exact: NaN, a signed infinity, or a signed natural times a power of two. -/

namespace Sys2Proof.Machine

/-- The five sticky flags of ACR that an operation raises (02 R40). -/
structure FFlags where
  iv : Bool := false
  dz : Bool := false
  ovf : Bool := false
  uf : Bool := false
  nx : Bool := false
deriving DecidableEq, Repr

/-- No flag. -/
def FFlags.none : FFlags := {}

/-- The flags are an OR over all contributors (02 R40). -/
def FFlags.or (x y : FFlags) : FFlags :=
  ⟨x.iv || y.iv, x.dz || y.dz, x.ovf || y.ovf, x.uf || y.uf, x.nx || y.nx⟩

/-- The flags as ACR bits [4:0] (02 R40). -/
def FFlags.toNat (f : FFlags) : Nat :=
  f.iv.toNat + 2 * f.dz.toNat + 4 * f.ovf.toNat + 8 * f.uf.toNat + 16 * f.nx.toNat

/-- The rounding modes (02 R39, R40). -/
inductive FMode where
  | rne
  | rtz
  | rdn
  | rup
deriving DecidableEq, Repr

/-- ACR.RM codes (02 R40). -/
def modeOfNat (n : Nat) : FMode :=
  match n % 4 with
  | 0 => .rne | 1 => .rtz | 2 => .rdn | _ => .rup

/-- An exact value: `fin neg m e` is (-1)^neg times m times 2^e, with a zero of either sign at m = 0. -/
inductive FVal where
  | nan
  | inf (neg : Bool)
  | fin (neg : Bool) (m : Nat) (e : Int)
deriving DecidableEq, Repr

/-- A floating-point format (02 R32): field widths, bias, the largest finite code, and its specials. -/
structure FFmt where
  ebits : Nat
  mbits : Nat
  bias : Nat
  maxFin : Nat
  hasInf : Bool
  /-- the canonical NaN code, where the format has one (02 R33) -/
  nanCode : Option Nat
  /-- whether R43's flush applies to results in this format -/
  flushes : Bool
deriving DecidableEq, Repr

/-- The width of a format in bits. -/
def FFmt.width (f : FFmt) : Nat := 1 + f.ebits + f.mbits

def fmtFP32 : FFmt := ⟨8, 23, 127, 0x7F7FFFFF, true, some 0x7FC00000, true⟩
def fmtFP16 : FFmt := ⟨5, 10, 15, 0x7BFF, true, some 0x7E00, true⟩
def fmtBF16 : FFmt := ⟨8, 7, 127, 0x7F7F, true, some 0x7FC0, true⟩
def fmtE4M3 : FFmt := ⟨4, 3, 7, 0x7E, false, some 0x7F, false⟩
def fmtE5M2 : FFmt := ⟨5, 2, 15, 0x7B, true, some 0x7E, false⟩
def fmtE3M2 : FFmt := ⟨3, 2, 3, 0x1F, false, none, false⟩
def fmtE2M3 : FFmt := ⟨2, 3, 1, 0x1F, false, none, false⟩
def fmtE2M1 : FFmt := ⟨2, 1, 1, 0x7, false, none, false⟩

/-- The value of a code (02 R32). -/
def FFmt.decode (f : FFmt) (code : Nat) : FVal :=
  let c := code % 2 ^ f.width
  let neg := c / 2 ^ (f.ebits + f.mbits) == 1
  let mag := c % 2 ^ (f.ebits + f.mbits)
  let ef := mag / 2 ^ f.mbits
  let mant := mag % 2 ^ f.mbits
  if mag > f.maxFin then
    if f.hasInf && mag == f.maxFin + 1 then .inf neg
    else if f.nanCode.isSome then .nan else .fin neg mant 0
  else if ef = 0 then .fin neg mant (1 - (f.bias : Int) - f.mbits)
  else .fin neg (2 ^ f.mbits + mant) ((ef : Int) - f.bias - f.mbits)

/-- The sign bit of a format placed over a magnitude code. -/
def FFmt.signed (f : FFmt) (neg : Bool) (mag : Nat) : Nat :=
  if neg then 2 ^ (f.ebits + f.mbits) + mag else mag

/-- The canonical NaN, or code 0 in a format without one (02 R33). -/
def FFmt.nan (f : FFmt) : Nat := f.nanCode.getD 0

/-- m times 2^e rounded to a multiple of 2^q: the multiple, and whether it is inexact. `sticky` says that the exact value
lies strictly between m and m + 1. -/
def roundQuantum (mode : FMode) (neg : Bool) (m : Nat) (e q : Int) (sticky : Bool) : Nat × Bool :=
  if q ≤ e then (m * 2 ^ (e - q).toNat, sticky)
  else
    let sh := (q - e).toNat
    let k := m / 2 ^ sh
    let rem := m % 2 ^ sh
    let half := 2 ^ (sh - 1)
    let inexact := rem != 0 || sticky
    let up :=
      match mode with
      | .rne => decide (half < rem) || (rem == half && (sticky || k % 2 == 1))
      | .rtz => false
      | .rdn => neg && inexact
      | .rup => !neg && inexact
    (if up then k + 1 else k, inexact)

/-- What an overflowing magnitude becomes (02 R39): an infinity or the largest finite value, by the mode's direction; the
largest finite value where the format has no infinity. -/
def overflowMag (f : FFmt) (mode : FMode) (neg : Bool) : Nat :=
  if f.hasInf then
    match mode with
    | .rne => f.maxFin + 1
    | .rtz => f.maxFin
    | .rdn => if neg then f.maxFin + 1 else f.maxFin
    | .rup => if neg then f.maxFin else f.maxFin + 1
  else f.maxFin

/-- Whether a non-zero magnitude is below the smallest normal once rounded with an unbounded exponent (02 R40, UF). -/
def tinyAfter (f : FFmt) (mode : FMode) (neg : Bool) (m : Nat) (e : Int) (sticky : Bool) : Bool :=
  let top : Int := (Nat.log2 m : Int) + e
  let r := roundQuantum mode neg m e (top - f.mbits) sticky
  let top' : Int := if r.1 == 2 ^ (f.mbits + 1) then top + 1 else top
  decide (top' < 1 - (f.bias : Int))

/-- Round a magnitude into a format, without R43's flush (02 R39, R40). -/
def roundMag (f : FFmt) (mode : FMode) (neg : Bool) (m : Nat) (e : Int) (sticky : Bool) : Nat × FFlags :=
  if m = 0 then (f.signed neg 0, {})
  else
    let emin : Int := 1 - (f.bias : Int)
    let q : Int := max ((Nat.log2 m : Int) + e - f.mbits) (emin - f.mbits)
    let r := roundQuantum mode neg m e q sticky
    let mag := (q - (emin - f.mbits)).toNat * 2 ^ f.mbits + r.1
    if mag > f.maxFin then (f.signed neg (overflowMag f mode neg), { ovf := true, nx := true })
    else (f.signed neg mag, { uf := r.2 && tinyAfter f mode neg m e sticky, nx := r.2 })

/-- R43 on a result code: under FZ a non-zero subnormal becomes a zero of its sign, with UF and NX. -/
def flushResult (f : FFmt) (fz : Bool) (r : Nat × FFlags) : Nat × FFlags :=
  let mag := r.1 % 2 ^ (f.ebits + f.mbits)
  if fz && f.flushes && mag != 0 && decide (mag < 2 ^ f.mbits) then
    (r.1 - mag, r.2.or { uf := true, nx := true })
  else r

/-- `round(x, T, mode)` of 02 R39, R43 included. -/
def fround (f : FFmt) (mode : FMode) (fz : Bool) (x : FVal) : Nat × FFlags :=
  match x with
  | .nan => (f.nan, {})
  | .inf neg => (f.signed neg (if f.hasInf then f.maxFin + 1 else f.maxFin), {})
  | .fin neg m e => flushResult f fz (roundMag f mode neg m e false)

/-- R43 on a source: a subnormal of its own format reads as a zero of its sign under FZ. -/
def fsource (f : FFmt) (fz : Bool) (code : Nat) : FVal :=
  let mag := code % 2 ^ (f.ebits + f.mbits)
  if fz && f.flushes && decide (mag < 2 ^ f.mbits) then f.decode (code % 2 ^ f.width - mag) else f.decode code

/-- R43 on a value widened into FP32: under FZ an FP32 subnormal becomes a zero of its sign. -/
def fwiden (fz : Bool) (x : FVal) : FVal :=
  match x with
  | .fin neg m e =>
    if fz && m != 0 && decide ((Nat.log2 m : Int) + e < -126) then .fin neg 0 0 else x
  | _ => x

/-! ### Exact arithmetic -/

def FVal.isNan : FVal → Bool
  | .nan => true
  | _ => false

def FVal.neg : FVal → FVal
  | .nan => .nan
  | .inf s => .inf (!s)
  | .fin s m e => .fin (!s) m e

def FVal.abs : FVal → FVal
  | .nan => .nan
  | .inf _ => .inf false
  | .fin _ m e => .fin false m e

/-- The signed significand of a finite value at exponent `q`, where q is at most its own. -/
def scaledInt (neg : Bool) (m : Nat) (e q : Int) : Int :=
  let v : Int := ((m * 2 ^ (e - q).toNat : Nat) : Int)
  if neg then -v else v

/-- The exact sum (IEEE 754-2019: an exact zero of opposite signs is +0, or -0 toward minus infinity), and whether it is
an invalid Inf - Inf. -/
def FVal.add (mode : FMode) (x y : FVal) : FVal × Bool :=
  match x, y with
  | .nan, _ => (.nan, false)
  | _, .nan => (.nan, false)
  | .inf s, .inf t => if s == t then (.inf s, false) else (.nan, true)
  | .inf s, _ => (.inf s, false)
  | _, .inf t => (.inf t, false)
  | .fin s m e, .fin t n h =>
    let q := min e h
    let v := scaledInt s m e q + scaledInt t n h q
    if v = 0 then
      (.fin (if m == 0 && n == 0 && s == t then s else mode == .rdn) 0 0, false)
    else (.fin (decide (v < 0)) v.natAbs q, false)

/-- The exact product, and whether it is an invalid 0 times Inf. -/
def FVal.mul (x y : FVal) : FVal × Bool :=
  match x, y with
  | .nan, _ => (.nan, false)
  | _, .nan => (.nan, false)
  | .inf s, .inf t => (.inf (s != t), false)
  | .inf s, .fin t m _ => if m = 0 then (.nan, true) else (.inf (s != t), false)
  | .fin s m _, .inf t => if m = 0 then (.nan, true) else (.inf (s != t), false)
  | .fin s m e, .fin t n h => (.fin (s != t) (m * n) (e + h), false)

/-- a times b plus c, exact; 0 times Inf is invalid whatever c is (DEDUCED from 02 R40's list, log 21). -/
def FVal.fma (mode : FMode) (a b c : FVal) : FVal × Bool :=
  let p := a.mul b
  let r := p.1.add mode c
  (r.1, p.2 || r.2)

/-- Round an operation's exact result, raising IV where it was invalid. -/
def fresult (f : FFmt) (mode : FMode) (fz : Bool) (r : FVal × Bool) : Nat × FFlags :=
  let x := fround f mode fz r.1
  (x.1, { x.2 with iv := x.2.iv || r.2 })

/-- The order of two values; none when either is NaN. -/
def FVal.cmp (x y : FVal) : Option Ordering :=
  match x, y with
  | .nan, _ => none
  | _, .nan => none
  | .inf s, .inf t => some (if s == t then .eq else if s then .lt else .gt)
  | .inf s, _ => some (if s then .lt else .gt)
  | _, .inf t => some (if t then .gt else .lt)
  | .fin s m e, .fin t n h =>
    let q := min e h
    some (compare (scaledInt s m e q) (scaledInt t n h q))

/-- Whether a value is a zero. -/
def FVal.isZero : FVal → Bool
  | .fin _ m _ => m == 0
  | _ => false

/-- Whether a value carries a minus sign. -/
def FVal.isNeg : FVal → Bool
  | .nan => false
  | .inf s => s
  | .fin s _ _ => s

/-- x is below y, with -0 below +0 (04 R97, 16 R276); false for NaN. -/
def FVal.below (x y : FVal) : Bool :=
  match x.cmp y with
  | some .lt => true
  | some .eq => x.isZero && y.isZero && x.isNeg && !y.isNeg
  | _ => false

/-- Minimum or maximum of two codes of a format; one NaN gives the other source, unless `nanWins`. No flag. -/
def fminmax (f : FFmt) (isMax nanWins : Bool) (fz : Bool) (a b : Nat) : Nat :=
  let x := fsource f fz a
  let y := fsource f fz b
  let pick (v : FVal) : Nat := (fround f .rne false v).1
  match x.isNan, y.isNan with
  | true, true => f.nan
  | true, false => if nanWins then f.nan else pick y
  | false, true => if nanWins then f.nan else pick x
  | false, false =>
    if isMax then (if x.below y then pick y else pick x) else (if y.below x then pick y else pick x)

/-! ### Integers -/

/-- A value rounded to an integer in a mode, for finite values: the integer and whether it is inexact. -/
def roundInt (mode : FMode) (neg : Bool) (m : Nat) (e : Int) : Int × Bool :=
  let r := roundQuantum mode neg m e 0 false
  (if neg then -(r.1 : Int) else r.1, r.2)

/-- floor, for a finite value. -/
def FVal.floorInt (neg : Bool) (m : Nat) (e : Int) : Int := (roundInt .rdn neg m e).1

/-- An integer as an exact value. -/
def FVal.ofInt (i : Int) : FVal := .fin (decide (i < 0)) i.natAbs 0

/-- Clamp to a range. -/
def clampInt (lo hi x : Int) : Int := max lo (min hi x)

/-- The range of an integer type of w bits. -/
def intLo (isSigned : Bool) (w : Nat) : Int := if isSigned then -(2 ^ (w - 1) : Nat) else 0
def intHi (isSigned : Bool) (w : Nat) : Int := if isSigned then (2 ^ (w - 1) : Nat) - 1 else (2 ^ w : Nat) - 1

/-- The w-bit code of an integer. -/
def intCode (w : Nat) (x : Int) : Nat := (x % ((2 ^ w : Nat) : Int)).toNat

/-- The integer a w-bit code stands for. -/
def intVal (isSigned : Bool) (w : Nat) (c : Nat) : Int :=
  let v := c % 2 ^ w
  if isSigned && decide (2 ^ (w - 1) ≤ v) then (v : Int) - (2 ^ w : Nat) else v

/-- A float to an integer of a type: rounded by the mode, then clamped; NaN gives 0; NaN and an out-of-range value raise
IV, an inexact in-range one NX (04 R99, 16 R285). -/
def floatToInt (mode : FMode) (isSigned : Bool) (w : Nat) (x : FVal) : Int × FFlags :=
  match x with
  | .nan => (0, { iv := true })
  | .inf s => (if s then intLo isSigned w else intHi isSigned w, { iv := true })
  | .fin s m e =>
    let r := roundInt mode s m e
    let c := clampInt (intLo isSigned w) (intHi isSigned w) r.1
    if c != r.1 then (c, { iv := true }) else (c, { nx := r.2 })

/-- An integral value of the format (04 R97, FRND): the sign of a zero is kept and NX is not set. -/
def froundIntegral (f : FFmt) (mode : FMode) (fz : Bool) (x : FVal) : Nat × FFlags :=
  match x with
  | .fin s m e =>
    let r := roundInt mode s m e
    (((fround f .rne fz (.fin s r.1.natAbs 0))).1, {})
  | v => ((fround f .rne fz v).1, {})

/-! ### Narrow conversions (02 R42) -/

/-- Conversion of a value to E4M3, E5M2, FP6 or FP4; `ofs` is ACR.OFS. -/
def fnarrow (f : FFmt) (ofs : Bool) (x : FVal) : Nat × FFlags :=
  match x with
  | .nan => if f.nanCode.isSome then (f.nan, {}) else (0, { iv := true })
  | .inf s => (f.signed s (if f.hasInf && !ofs then f.maxFin + 1 else f.maxFin), {})
  | .fin s m e =>
    let r := roundMag f .rne s m e false
    if r.2.ovf then
      (f.signed s (if f.hasInf && !ofs then f.maxFin + 1 else f.maxFin), { ovf := true, nx := true })
    else r

/-! ### Codebooks (02 R36, R37, R42) -/

/-- The fixed E2M1 book, entry 0 first (02 R37). -/
def bookE2M1 : List Nat :=
  [0x0000, 0x3F00, 0x3F80, 0x3FC0, 0x4000, 0x4040, 0x4080, 0x40C0,
   0x8000, 0xBF00, 0xBF80, 0xBFC0, 0xC000, 0xC040, 0xC080, 0xC0C0]

/-- The entry of a book for a code. -/
def bookEntry (book : List Nat) (c : Nat) : FVal := fmtBF16.decode (book.getD (c % 16) 0)

/-- |x - y| of two values that are not NaN: none for an infinite distance. -/
def bookDist (x q : FVal) : Option (Nat × Int) :=
  match x, q with
  | .fin s m e, .fin t n h =>
    let g := min e h
    some ((scaledInt s m e g - scaledInt t n h g).natAbs, g)
  | _, _ => none

/-- Whether a distance is strictly below another. -/
def distLt (x y : Option (Nat × Int)) : Bool :=
  match x, y with
  | none, _ => false
  | some _, none => true
  | some (m, e), some (n, h) => FVal.cmp (.fin false m e) (.fin false n h) == some .lt

/-- The nearest entry to a finite quotient, ties to the lowest code, over entries from code `i` on. -/
def nearestFrom (q : FVal) (i : Nat) (es : List FVal) (best : Option (Nat × FVal)) : Option (Nat × FVal) :=
  match es with
  | [] => best
  | x :: xs =>
    let best' :=
      if x.isNan then best
      else match best with
        | none => some (i, x)
        | some (j, y) => if distLt (bookDist x q) (bookDist y q) then some (i, x) else some (j, y)
    nearestFrom q (i + 1) xs best'

/-- The greatest (or least) non-NaN entry, lowest code among equals. -/
def extremeFrom (least : Bool) (i : Nat) (es : List FVal) (best : Option (Nat × FVal)) : Option (Nat × FVal) :=
  match es with
  | [] => best
  | x :: xs =>
    let best' :=
      if x.isNan then best
      else match best with
        | none => some (i, x)
        | some (j, y) =>
          let better := if least then x.cmp y == some .lt else y.cmp x == some .lt
          if better then some (i, x) else some (j, y)
    extremeFrom least (i + 1) xs best'

/-- The first code whose entry is NaN. -/
def firstNan (i : Nat) (es : List FVal) : Option Nat :=
  match es with
  | [] => none
  | x :: xs => if x.isNan then some i else firstNan (i + 1) xs

/-- The CB4 code of a quotient (02 R42). -/
def cb4Encode (book : List Nat) (q : FVal) : Nat × FFlags :=
  let es := (List.range 16).map (bookEntry book)
  match q with
  | .nan =>
    match firstNan 0 es with
    | some c => (c, {})
    | none => (0, { iv := true })
  | .inf s =>
    match extremeFrom s 0 es none with
    | some (c, x) => (c, { nx := x.cmp q != some .eq })
    | none => (0, { iv := true })
  | .fin _ _ _ =>
    match nearestFrom q 0 es none with
    | some (c, x) => (c, { nx := x.cmp q != some .eq })
    | none => (0, { iv := true })

/-! ### Block formats (02 R31, R34-R36) -/

/-- The element width in bits of a format code (02 R31); 8 for raw bytes. -/
def codeWidth (code : Nat) : Nat :=
  match code with
  | 0x01 => 32 | 0x02 => 16 | 0x03 => 16 | 0x04 => 8 | 0x05 => 8 | 0x06 => 8 | 0x07 => 8 | 0x08 => 6 | 0x09 => 6
  | 0x0A => 4 | 0x0B => 8 | 0x0C => 4 | 0x10 => 8 | 0x11 => 16 | 0x12 => 32 | 0x13 => 64 | 0x14 => 8 | 0x15 => 16
  | 0x16 => 32 | 0x17 => 64 | 0x18 => 4 | 0x19 => 4 | _ => 8

/-- Whether a format code is one of R31's. -/
def codeValid (code : Nat) : Bool := decide (code ≤ 0x0C) || (decide (0x10 ≤ code) && decide (code ≤ 0x19))

/-- Whether a format carries E8M0 block scales (02 R31). -/
def codeScaled (code : Nat) : Bool := decide (0x06 ≤ code) && decide (code ≤ 0x0C)

/-- Whether a format code is an integer type, and whether that type is signed (02 R31). -/
def codeIsInt (code : Nat) : Bool := decide (0x10 ≤ code) && decide (code ≤ 0x19)
def codeSigned (code : Nat) : Bool := (decide (0x10 ≤ code) && decide (code ≤ 0x13)) || code == 0x18

/-- The floating format of an unscaled or scaled element code, where R32 gives it one. -/
def codeFmt (code : Nat) : Option FFmt :=
  match code with
  | 0x01 => some fmtFP32 | 0x02 => some fmtFP16 | 0x03 => some fmtBF16
  | 0x04 => some fmtE4M3 | 0x05 => some fmtE5M2 | 0x06 => some fmtE4M3 | 0x07 => some fmtE5M2
  | 0x08 => some fmtE3M2 | 0x09 => some fmtE2M3 | 0x0A => some fmtE2M1
  | _ => none

/-- decode(c) of R36 for an element code, before its scale. -/
def elemDecode (code : Nat) (book : List Nat) (c : Nat) : FVal :=
  match code with
  | 0x0A => bookEntry bookE2M1 c
  | 0x0B =>
    let i := intVal true 8 c
    .fin (decide (i < 0)) i.natAbs (-6)
  | 0x0C => bookEntry book c
  | _ =>
    match codeFmt code with
    | some f => f.decode c
    | none => FVal.ofInt (intVal (codeSigned code) (codeWidth code) c)

/-- A value times 2^k, exactly. -/
def FVal.scale (x : FVal) (k : Int) : FVal :=
  match x with
  | .fin s m e => .fin s m (e + k)
  | v => v

/-- decode(c) times 2^(x-127) (02 R36); scale 0xFF makes every element NaN (02 R34). -/
def scaledDecode (code : Nat) (book : List Nat) (x : Nat) (c : Nat) : FVal :=
  if x = 0xFF then .nan else (elemDecode code book c).scale ((x : Int) - 127)

/-- emax of 16 R283; for CB4 that of the book, none when it has no finite non-zero entry. -/
def codeEmax (code : Nat) (book : List Nat) : Option Int :=
  match code with
  | 0x06 => some 8 | 0x07 => some 15 | 0x08 => some 4 | 0x09 => some 2 | 0x0A => some 2 | 0x0B => some 0
  | 0x0C =>
    ((List.range 16).map (bookEntry book)).foldl (fun acc x =>
      match x with
      | .fin _ m e =>
        if m = 0 then acc
        else
          let l := (Nat.log2 m : Int) + e
          match acc with
          | none => some l
          | some b => some (max b l)
      | _ => acc) none
  | _ => none

/-- The code of a quotient in a scaled format, every overflow giving the largest finite code (16 R283, 04 R107). -/
def blockEncode (code : Nat) (book : List Nat) (q : FVal) : Nat × FFlags :=
  match code with
  | 0x0C => cb4Encode book q
  | 0x0A => fnarrow fmtE2M1 true q
  | 0x0B =>
    match q with
    | .nan => (0, { iv := true })
    | .inf s => (intCode 8 (if s then -128 else 127), {})
    | .fin s m e =>
      let r := roundInt .rne s m (e + 6)
      let c := clampInt (-128) 127 r.1
      (intCode 8 c, { nx := r.2 || c != r.1, ovf := c != r.1 })
  | _ =>
    match codeFmt code with
    | some f => fnarrow f true q
    | none => (0, {})

/-! ### Roots -/

/-- The integer square root of n, bit by bit from bit `k` down. -/
def isqrtFrom (n : Nat) : Nat → Nat → Nat
  | 0, acc => acc
  | k + 1, acc =>
    let t := acc + 2 ^ k
    isqrtFrom n k (if t * t ≤ n then t else acc)

/-- floor of the square root. -/
def isqrt (n : Nat) : Nat := isqrtFrom n (Nat.log2 n / 2 + 1) 0

/-! ### Special functions (02 R44-R48), on FP32 codes -/

/-- Round a magnitude with a sticky bit to FP32 with RNE and R43. -/
def rneSticky (fz neg : Bool) (m : Nat) (e : Int) (sticky : Bool) : Nat × FFlags :=
  flushResult fmtFP32 fz (roundMag fmtFP32 .rne neg m e sticky)

/-- FRCP (02 R44). -/
def fRcp (fz : Bool) (a : Nat) : Nat × FFlags :=
  match fsource fmtFP32 fz a with
  | .nan => (fmtFP32.nan, {})
  | .inf s => (fmtFP32.signed s 0, {})
  | .fin s m e =>
    if m = 0 then (fmtFP32.signed s 0x7F800000, { dz := true })
    else
      let k := Nat.log2 m + 40
      rneSticky fz s (2 ^ k / m) (-(k : Int) - e) (2 ^ k % m != 0)

/-- FRSQ (02 R44). -/
def fRsq (fz : Bool) (a : Nat) : Nat × FFlags :=
  match fsource fmtFP32 fz a with
  | .nan => (fmtFP32.nan, {})
  | .inf s => if s then (fmtFP32.nan, { iv := true }) else (0, {})
  | .fin s m e =>
    if m = 0 then (fmtFP32.signed s 0x7F800000, { dz := true })
    else if s then (fmtFP32.nan, { iv := true })
    else
      let odd := e % 2 != 0
      let m' := if odd then 2 * m else m
      let e' := if odd then e - 1 else e
      let k := Nat.log2 m' + 40
      let q := isqrt (2 ^ (2 * k) / m')
      rneSticky fz false q (-(k : Int) - e' / 2) (q * q * m' != 2 ^ (2 * k))

/-- FSQRT (02 R44). -/
def fSqrt (fz : Bool) (a : Nat) : Nat × FFlags :=
  match fsource fmtFP32 fz a with
  | .nan => (fmtFP32.nan, {})
  | .inf s => if s then (fmtFP32.nan, { iv := true }) else (0x7F800000, {})
  | .fin s m e =>
    if m = 0 then (fmtFP32.signed s 0, {})
    else if s then (fmtFP32.nan, { iv := true })
    else
      let odd := e % 2 != 0
      let m' := if odd then 2 * m else m
      let e' := if odd then e - 1 else e
      let q := isqrt (m' * 2 ^ 60)
      rneSticky fz false q (e' / 2 - 30) (q * q != m' * 2 ^ 60)

/-- fma in FP32 with RNE and R43, the step of a reference algorithm (02 R44): the code alone. -/
def refFma (fz : Bool) (a b c : Nat) : Nat :=
  (fround fmtFP32 .rne fz (FVal.fma .rne (fsource fmtFP32 fz a) (fsource fmtFP32 fz b) (fsource fmtFP32 fz c)).1).1

/-- multiply in FP32 with RNE and R43, as a step of a reference. -/
def refMul (fz : Bool) (a b : Nat) : Nat :=
  (fround fmtFP32 .rne fz (FVal.mul (fsource fmtFP32 fz a) (fsource fmtFP32 fz b)).1).1

/-- Horner's rule over the coefficients of a reference. -/
def refPoly (fz : Bool) (x : Nat) (c0 : Nat) (cs : List Nat) : Nat :=
  cs.foldl (fun p c => refFma fz p x c) c0

/-- The FP32 code of a value that FP32 holds exactly. -/
def exact32 (x : FVal) : Nat := (fround fmtFP32 .rne false x).1

/-- FEXP2 (02 R45). -/
def fExp2 (fz : Bool) (a : Nat) : Nat × FFlags :=
  let x := fsource fmtFP32 fz a
  match x with
  | .nan => (fmtFP32.nan, {})
  | .inf s => if s then (0, {}) else (0x7F800000, {})
  | .fin s m e =>
    if x.cmp (.fin false 128 0) != some .lt then (0x7F800000, { ovf := true })
    else if x.cmp (.fin true 150 0) == some .lt then (0, { uf := true, nx := true })
    else
      let n := (roundInt .rne s m e).1
      let f := exact32 (FVal.add .rne x (FVal.ofInt (-n))).1
      let p := refPoly fz f 0x377FE5FF
        [0x3921848A, 0x3AAEC3FF, 0x3C1D955B, 0x3D635847, 0x3E75FDF0, 0x3F317218, 0x3F800000]
      fround fmtFP32 .rne fz ((fsource fmtFP32 fz p).scale n)

/-- FLOG2 (02 R46). -/
def fLog2 (fz : Bool) (a : Nat) : Nat × FFlags :=
  match fsource fmtFP32 fz a with
  | .nan => (fmtFP32.nan, {})
  | .inf s => if s then (fmtFP32.nan, { iv := true }) else (0x7F800000, {})
  | .fin s m e =>
    if m = 0 then (0xFF800000, { dz := true })
    else if s then (fmtFP32.nan, { iv := true })
    else
      let l := Nat.log2 m
      let big := FVal.cmp (.fin false m (-(l : Int))) (fmtFP32.decode 0x3FB504F3) == some .gt
      let ex : Int := (l : Int) + e + (if big then 1 else 0)
      -- the significand m / 2^l, halved when big, as the integer m over 2^d
      let d := if big then l + 1 else l
      let num : Int := (m : Int) - (2 ^ d : Nat)
      let den : Nat := m + 2 ^ d
      let k := Nat.log2 den + 60
      let t := (rneSticky fz (decide (num < 0)) (num.natAbs * 2 ^ k / den) (-(k : Int))
        (num.natAbs * 2 ^ k % den != 0)).1
      let z := refMul fz t t
      let q := refPoly fz z 0x3EA4258A [0x3ED30BB1, 0x3F13BB63, 0x3F76384F, 0x4038AA3B]
      fresult fmtFP32 .rne fz
        (FVal.fma .rne (fsource fmtFP32 fz t) (fsource fmtFP32 fz q) (FVal.ofInt ex))

/-- FSIN and FCOS (02 R47): `cos` selects the latter. -/
def fSinCos (cos fz : Bool) (a : Nat) : Nat × FFlags :=
  let x := fsource fmtFP32 fz a
  match x with
  | .nan => (fmtFP32.nan, {})
  | .inf _ => (fmtFP32.nan, { iv := true })
  | .fin sg m e =>
    let n := (roundInt .rne sg m (e + 1)).1
    let rv := (FVal.add .rne x ((FVal.ofInt (-n)).scale (-1))).1
    -- an exact zero difference keeps the sign of x when n = 0 (FSIN of -0 is -0)
    let r := if n = 0 then exact32 x else exact32 rv
    let z := refMul fz r r
    let sp := refPoly fz z 0x3DA83C1A [0xBF196967, 0x402335E3, 0xC0A55DE7, 0x40490FDB]
    let sr := fresult fmtFP32 .rne fz (FVal.mul (fsource fmtFP32 fz sp) (fsource fmtFP32 fz r))
    let cp := refPoly fz z 0xBCD368F9 [0x3E70FA83, 0xBFAAE9E4, 0x4081E0F8, 0xC09DE9E6]
    let cr := fresult fmtFP32 .rne fz
      (FVal.fma .rne (fsource fmtFP32 fz cp) (fsource fmtFP32 fz z) (fmtFP32.decode 0x3F800000))
    let flip (c : Nat × FFlags) : Nat × FFlags := (if c.1 < 2 ^ 31 then c.1 + 2 ^ 31 else c.1 - 2 ^ 31, c.2)
    match cos, (n % 4).toNat with
    | false, 0 => sr
    | false, 1 => cr
    | false, 2 => flip sr
    | false, _ => flip cr
    | true, 0 => cr
    | true, 1 => flip sr
    | true, 2 => flip cr
    | true, _ => sr

/-! ### Order of sums (02 R49, R50, R52, R53) -/

/-- The exact sum of the products of a rounding group. A product that is `none` is a skipped position of a sparse step: +0
whatever B holds (02 R53). The result: the sum, whether every product was -0, and whether an invalid or NaN case arose. -/
structure GroupSum where
  sum : FVal
  allNegZero : Bool
  bad : Bool
  posInf : Bool
  negInf : Bool
deriving DecidableEq, Repr

/-- Add one product to a group's sum. -/
def GroupSum.push (g : GroupSum) (a b : FVal) : GroupSum :=
  let p := a.mul b
  let bad := g.bad || a.isNan || b.isNan || p.2
  match p.1 with
  | .nan => { g with bad := true, allNegZero := false }
  | .inf s =>
    { g with bad := bad, allNegZero := false, posInf := g.posInf || !s, negInf := g.negInf || s }
  | .fin s m e =>
    { g with sum := (g.sum.add .rne (.fin s m e)).1, allNegZero := g.allNegZero && s && m == 0, bad := bad }

/-- A skipped product is +0 (02 R53). -/
def GroupSum.skip (g : GroupSum) : GroupSum := { g with allNegZero := false }

def GroupSum.start : GroupSum := ⟨.fin false 0 0, true, false, false, false⟩

/-- C plus S of one rounding group (02 R49): NaN with IV in the invalid cases, else one rounding and R43. -/
def groupFinish (fz : Bool) (c : Nat) (g : GroupSum) : Nat × FFlags :=
  let cv := fsource fmtFP32 fz c
  let pos := g.posInf || cv == .inf false
  let neg := g.negInf || cv == .inf true
  if g.bad || (pos && neg) then (fmtFP32.nan, { iv := true })
  else
    let s : FVal :=
      if g.posInf then .inf false else if g.negInf then .inf true
      else match g.sum with
        | .fin _ 0 _ => .fin g.allNegZero 0 0
        | v => v
    fresult fmtFP32 .rne fz (cv.add .rne s)

/-- One level of the summing tree of 02 R52: neighbours added in FP32 with RNE and R43, an absent partner passing the
value up. -/
def treeLevel (fz : Bool) : List (Option Nat) → List (Option Nat) × FFlags
  | [] => ([], {})
  | [x] => ([x], {})
  | x :: y :: rest =>
    let r := treeLevel fz rest
    match x, y with
    | some a, some b =>
      let s := fresult fmtFP32 .rne fz ((fsource fmtFP32 fz a).add .rne (fsource fmtFP32 fz b))
      (some s.1 :: r.1, s.2.or r.2)
    | some a, none => (some a :: r.1, r.2)
    | none, b => (b :: r.1, r.2)

/-- The tree summed to its root in at most `k` levels. -/
def treeSumFrom (fz : Bool) : Nat → List (Option Nat) → FFlags → Nat × FFlags
  | 0, xs, fl => (((xs.head?.getD none).getD 0), fl)
  | k + 1, xs, fl =>
    match xs with
    | [] => (0, fl)
    | [x] => (x.getD 0, fl)
    | _ =>
      let r := treeLevel fz xs
      treeSumFrom fz k r.1 (fl.or r.2)

/-- treesum (02 R52) over FP32 codes, absent where an element does not take part. -/
def treeSum (fz : Bool) (xs : List (Option Nat)) : Nat × FFlags := treeSumFrom fz 8 xs {}

end Sys2Proof.Machine
end

