-- ==== Sys2Proof/Config.lean ====
section
/-! DEFINITION. What an implementation fixes and the spec leaves open. The opaque constants have no body: nothing can be
proved of their values, so a statement that mentions one holds for every value. -/

namespace Sys2Proof.Config

/-- A free value: what the spec leaves open, numbered by the model's counter State.freeCtr (log 5). -/
opaque freeValue : Nat → BitVec 64

/-- Device time that passes before the n-th read of it, in nanoseconds (25 R386, 23 R360; log 16). -/
opaque elapsed : Nat → Nat

/-- Component k of a pixel's perspective interpolation where its weights are unstated, by the operands (11 R206, R216; log 41), and the
face that a cube coordinate with a NaN picks (11 R211, R216; log 44). -/
opaque openComponent : List Int → Nat → BitVec 32
opaque cubeFace : List Nat → Nat

/-- How many meshes a front end's input queue holds beside its first (09 R189 gives no depth; log 40). -/
opaque meshQueue : Nat

/-- The hash of a line address in the lease filter, below 512 (07 R152; log 22). -/
opaque lineHash : Nat → BitVec 9

/-- A test pattern's outcome is the unit's own; the digest, signature and certificate functions of 26 R388-R393 (log 23). -/
opaque digest : List (BitVec 8) → List (BitVec 8)
opaque signature : List (BitVec 8) → List (BitVec 8) → List (BitVec 8)
opaque certificate : List (BitVec 8)
opaque idcode : BitVec 32
opaque productGrade : BitVec 32
opaque boundaryCells : Nat → BitVec 64

/-- 00 R8: three raster dies of 48 cores, three tensor dies of 96 tiles. -/
def coresPerDie : Nat := 48
def cores : Nat := 144
def tilesPerDie : Nat := 96
def tiles : Nat := 288
/-- Tiles of one row of a die's mesh of 8 rows and 12 columns. -/
def meshCols : Nat := 12
def meshRows : Nat := 8
/-- 25 R374: 576 GiB of device memory. -/
def deviceBytes : Nat := 576 * 2 ^ 30
/-- 07 R146. -/
def contexts : Nat := 512
/-- 07 R153: a core's cache and scratchpad share 524,288 bytes. -/
def coreSram : Nat := 524288
/-- 00: the largest scratchpad of a core (06, 07 R145). -/
def scratchMax : Nat := 393216

end Sys2Proof.Config
end

