-- ==== Sys2Proof/Machine/Table.lean ====
section
/-! DEFINITION. Sparse tables: lists of (key, value) pairs with strictly rising keys. A table with a default lists no pair
that holds the default, so that equal tables are equal lists. -/

namespace Sys2Proof.Machine

/-- A table keyed by naturals. -/
abbrev Tbl (α : Type) := List (Nat × α)

variable {α : Type}

/-- The entry at a key. -/
def Tbl.find? (t : Tbl α) (k : Nat) : Option α :=
  match t with
  | [] => none
  | (j, v) :: rest => if j = k then some v else Tbl.find? rest k

/-- The entry at a key, or the default. -/
def Tbl.getD (t : Tbl α) (k : Nat) (d : α) : α := (Tbl.find? t k).getD d

/-- Insert or replace an entry, keys rising. -/
def Tbl.insert (t : Tbl α) (k : Nat) (v : α) : Tbl α :=
  match t with
  | [] => [(k, v)]
  | (j, w) :: rest =>
    if j = k then (k, v) :: rest
    else if k < j then (k, v) :: (j, w) :: rest
    else (j, w) :: Tbl.insert rest k v

/-- Remove an entry. -/
def Tbl.erase (t : Tbl α) (k : Nat) : Tbl α :=
  match t with
  | [] => []
  | (j, w) :: rest =>
    if j = k then Tbl.erase rest k else (j, w) :: Tbl.erase rest k

/-- Write a table with a default: writing the default removes the entry. -/
def Tbl.put [DecidableEq α] (d : α) (t : Tbl α) (k : Nat) (v : α) : Tbl α :=
  if v = d then Tbl.erase t k else Tbl.insert t k v

/-- Apply a function to the entry at a key, if there is one. -/
def Tbl.modify (t : Tbl α) (k : Nat) (f : α → α) : Tbl α :=
  match Tbl.find? t k with
  | some v => Tbl.insert t k (f v)
  | none => t

/-- Apply a function to every value. -/
def Tbl.mapVals {β : Type} (f : α → β) (t : Tbl α) : Tbl β :=
  match t with
  | [] => []
  | (k, v) :: rest => (k, f v) :: Tbl.mapVals f rest

/-- The keys of a table. -/
def Tbl.keys (t : Tbl α) : List Nat := t.map Prod.fst

/-- The lowest key above every key of the table. -/
def Tbl.nextKey (t : Tbl α) : Nat :=
  match t.getLast? with
  | some (k, _) => k + 1
  | none => 0

/-- Keys strictly rising from a bound on. -/
def Tbl.risingFrom (lo : Nat) (t : Tbl α) : Bool :=
  match t with
  | [] => true
  | (k, _) :: rest => decide (lo ≤ k) && Tbl.risingFrom (k + 1) rest

/-- The canonical form of a table with a default: keys strictly rising and no entry that holds the default. -/
def Tbl.canonical [DecidableEq α] (d : α) (t : Tbl α) : Bool :=
  Tbl.risingFrom 0 t && t.all (fun e => !decide (e.2 = d))

end Sys2Proof.Machine
end

