-- ==== Sys2Proof/Syntax.lean ====
section
/-! DEFINITION. The instructions of Disia: one constructor per row of the opcode table, with the operands the row's format
gives it (01 R16, R24), and one per event row, which carries no word and is placed in the machine by its surroundings. -/

namespace Sys2Proof

/-- The two execution profiles: a raster core and a tensor tile (01 R13, R24). -/
inductive Profile where
  | raster
  | tile
deriving DecidableEq, Repr

/-- The guard of a lane-class instruction (01 R15): predicate `pg`, inverted by `neg`. Predicate 0 plain is no guard. -/
structure Guard where
  pg : BitVec 3
  neg : Bool
deriving DecidableEq, Repr

/-- The trailing operands of a matrix instruction (01 R16, 19 R309): token on completion, wait mask. -/
structure MatTail where
  te : Bool
  tok : BitVec 3
  wm : BitVec 8
deriving DecidableEq, Repr

/-- The trailing operands of a copy instruction (01 R16, 19 R317): bead, token on completion, wait mask. -/
structure CopyTail where
  bead : BitVec 6
  bs : Bool
  te : Bool
  tok : BitVec 3
  wm : BitVec 8
deriving DecidableEq, Repr

/-- What a request to the frame governor asks (23 R367, R368): a query with the register that receives the answer, or the
start or end of a step. -/
inductive GovKind where
  | query (owner : Nat) (d : BitVec 6)
  | start
  | finish
deriving DecidableEq, Repr

/-- A request that reaches the hub, with what R369 orders it by and what R367 names its reporter by. -/
structure GovRequest where
  ctx : Nat
  stream : Nat
  launchSeq : Nat
  die : Nat
  core : Nat
  unit : Nat
  kind : GovKind
deriving DecidableEq, Repr

/-- Where a soft error strikes (26 R394, R395). -/
inductive SoftErrorAt where
  | corrected (die core : Nat) (addr : Nat)
  | memoryUnit (unit : Nat)
  | rasterScratch (crew ofs : Nat)
  | tileScratch (tile ofs : Nat)
  | tileStore (tile ofs : Nat)
  | scalarReg (owner : Nat) (r : BitVec 6)
  | laneReg (strand : Nat) (r : BitVec 6)
  | vectorReg (tile : Nat) (r : BitVec 5)
  | inFlight (tile : Nat)
  | instructionWord (pa : Nat) (again : Bool)
  | machineState (owner : Nat)
  | beadCounter (bead : BitVec 16)
  | channelCount (die : Nat)
deriving DecidableEq, Repr

/-- An image or record written to flash (26 R389, R390, R392): which, where, whether its signature verifies, its security
version, and what a record sets. -/
structure FlashImage where
  isRecord : Bool
  slotB : Bool
  verifies : Bool
  version : Nat
  plim : Nat
  fenced : List (Nat × BitVec 4)
  wiring : List (Nat × Nat)
  ptpRoles : List (Nat × Nat)
  ethertype : BitVec 16
  testUnlock : Bool
  /-- the limits of the raster and of the tensor islands' clocks, in MHz (14 R250, 26 R390) -/
  rasterLimit : Nat
  tensorLimit : Nat
  /-- the product grade it names, and the raster cores and tiles it does not enable (00 R2) -/
  grade : BitVec 32
  offCores : List Nat
  offTiles : List Nat
  body : List (BitVec 8)
deriving DecidableEq, Repr

/-- A Siled link frame after its kind byte (25 R383); `good` says that the FCS, the CRC and VER are as they must be. -/
structure LinkFrame where
  stream : Nat
  sq : Nat
  ridx : Nat
  ofs : Nat
  last : Bool
  cred : Bool
  good : Bool
  payload : List (BitVec 8)
deriving DecidableEq, Repr

/-- The rails of 27 R399. -/
inductive Rail where
  | vcore (island : Nat)
  | vaon (die : Nat)
  | vddq (stack : Nat)
  | vpp (stack : Nat)
  | vio (upper : Bool)
deriving DecidableEq, Repr

/-- The instructions and events of the opcode table. -/
inductive Instr where
  -- class 0, control (01 R24)
  | nop  -- NOP
  | bra (off : BitVec 32)  -- BRA
  | brac (kind : Bool) (c : BitVec 6) (n : Bool) (off : BitVec 32)  -- BRAC
  | brx (a : BitVec 6) (m : Bool)  -- BRX
  | call (off : BitVec 32)  -- CALL
  | ret (a : BitVec 6)  -- RET
  | loop (a : BitVec 6) (imm : BitVec 32)  -- LOOP
  | loopi (cnt : BitVec 12) (imm : BitVec 32)  -- LOOPI
  | voteAny (d : BitVec 6) (a : BitVec 3) (m : Bool)  -- VOTE_ANY
  | voteAll (d : BitVec 6) (a : BitVec 3)  -- VOTE_ALL
  | barCrew (imm : BitVec 32)  -- BAR_CREW
  | barGrove (imm : BitVec 32)  -- BAR_GROVE
  | barArrive (d a : BitVec 6) (imm : BitVec 32)  -- BAR_ARRIVE
  | barWait (d a : BitVec 6) (imm : BitVec 32)  -- BAR_WAIT
  | wait (imm : BitVec 32)  -- WAIT
  | waitt (a : BitVec 6) (m : Bool)  -- WAITT
  | fence (imm : BitVec 32)  -- FENCE
  | fencePromote (imm : BitVec 32)  -- FENCE_PROMOTE
  | fenceI  -- FENCE_I
  | trap (imm : BitVec 32)  -- TRAP
  | chk (d a : BitVec 6)  -- CHK
  | region (off : BitVec 32)  -- REGION
  | exit  -- EXIT
  | yield  -- YIELD
  | lease (d a : BitVec 6) (imm : BitVec 32)  -- LEASE
  | split (d : BitVec 6) (imm : BitVec 32)  -- SPLIT
  | launch (d a : BitVec 6)  -- LAUNCH
  | reca (d a : BitVec 6)  -- RECA
  | remit (a : BitVec 6)  -- REMIT
  | rdone (a : BitVec 6)  -- RDONE
  | millCfg (d a : BitVec 6)  -- MILL_CFG
  | millEnter  -- MILL_ENTER
  | millExit (d : BitVec 6)  -- MILL_EXIT
  | fsend (d : BitVec 4) (a : BitVec 6)  -- FSEND
  | fsendNb (d : BitVec 4) (a : BitVec 6) (b : BitVec 3)  -- FSEND_NB
  | ftake (d : BitVec 6) (a : BitVec 4)  -- FTAKE
  | sread (reg : BitVec 12) (s : BitVec 6)  -- SREAD
  | swrite (reg : BitVec 12) (s : BitVec 6)  -- SWRITE
  | govq (d a : BitVec 6)  -- GOVQ
  | govr (a : BitVec 6) (m : Bool)  -- GOVR
  | bkpt (imm : BitVec 32)  -- BKPT
  -- class 1, scalar (01 R24)
  | add (d a b : BitVec 6)  -- ADD
  | addi (d a : BitVec 6) (imm : BitVec 32)  -- ADDI
  | sub (d a b : BitVec 6)  -- SUB
  | mul (d a b : BitVec 6)  -- MUL
  | mulhI (d a b : BitVec 6)  -- MULH_I
  | mulhN (d a b : BitVec 6)  -- MULH_N
  | divI (d a b : BitVec 6)  -- DIV_I
  | divN (d a b : BitVec 6)  -- DIV_N
  | remI (d a b : BitVec 6)  -- REM_I
  | remN (d a b : BitVec 6)  -- REM_N
  | and (d a b : BitVec 6)  -- AND
  | or (d a b : BitVec 6)  -- OR
  | xor (d a b : BitVec 6)  -- XOR
  | andi (d a : BitVec 6) (imm : BitVec 32)  -- ANDI
  | ori (d a : BitVec 6) (imm : BitVec 32)  -- ORI
  | xori (d a : BitVec 6) (imm : BitVec 32)  -- XORI
  | shl (d a b : BitVec 6)  -- SHL
  | shrI (d a b : BitVec 6)  -- SHR_I
  | shrN (d a b : BitVec 6)  -- SHR_N
  | rot (d a b : BitVec 6)  -- ROT
  | minI (d a b : BitVec 6)  -- MIN_I
  | minN (d a b : BitVec 6)  -- MIN_N
  | maxI (d a b : BitVec 6)  -- MAX_I
  | maxN (d a b : BitVec 6)  -- MAX_N
  | abs (d a : BitVec 6)  -- ABS
  | neg (d a : BitVec 6)  -- NEG
  | cmp (d a b : BitVec 6) (m : Bool)  -- CMP
  | cmpp (cc tg : BitVec 3) (a b : BitVec 6)  -- CMPP
  | sel (d a b : BitVec 6)  -- SEL
  | mov (d a : BitVec 6)  -- MOV
  | movi (d : BitVec 6) (imm : BitVec 32)  -- MOVI
  | movh (d a : BitVec 6) (imm : BitVec 32)  -- MOVH
  | lea (d a b : BitVec 6) (m : Bool)  -- LEA
  | popc (d a : BitVec 6)  -- POPC
  | clz (d a : BitVec 6)  -- CLZ
  | ctz (d a : BitVec 6)  -- CTZ
  | bfxI (d a b : BitVec 6)  -- BFX_I
  | bfxN (d a b : BitVec 6)  -- BFX_N
  | bfi (d a b : BitVec 6)  -- BFI
  | brev (d a : BitVec 6)  -- BREV
  | mad (d a b : BitVec 6)  -- MAD
  | addsI (d a b : BitVec 6)  -- ADDS_I
  | addsN (d a b : BitVec 6)  -- ADDS_N
  | subsI (d a b : BitVec 6)  -- SUBS_I
  | subsN (d a b : BitVec 6)  -- SUBS_N
  | mbx (d a : BitVec 6) (imm : BitVec 32)  -- MBX
  | time (d : BitVec 6)  -- TIME
  | wid (d : BitVec 6) (imm : BitVec 32)  -- WID
  -- class 2, lane (01 R24)
  | iadd (g : Guard) (d a b : BitVec 6) (m : Bool)  -- IADD
  | iaddi (g : Guard) (d a : BitVec 6) (imm : BitVec 32)  -- IADDI
  | isub (g : Guard) (d a b : BitVec 6) (m : Bool)  -- ISUB
  | imul (g : Guard) (d a b : BitVec 6)  -- IMUL
  | imad (g : Guard) (d a b : BitVec 6)  -- IMAD
  | imulhI (g : Guard) (d a b : BitVec 6)  -- IMULH_I
  | imulhN (g : Guard) (d a b : BitVec 6)  -- IMULH_N
  | iminI (g : Guard) (d a b : BitVec 6)  -- IMIN_I
  | iminN (g : Guard) (d a b : BitVec 6)  -- IMIN_N
  | imaxI (g : Guard) (d a b : BitVec 6)  -- IMAX_I
  | imaxN (g : Guard) (d a b : BitVec 6)  -- IMAX_N
  | iand (g : Guard) (d a b : BitVec 6)  -- IAND
  | ior (g : Guard) (d a b : BitVec 6)  -- IOR
  | ixor (g : Guard) (d a b : BitVec 6)  -- IXOR
  | ishl (g : Guard) (d a b : BitVec 6)  -- ISHL
  | ishrI (g : Guard) (d a b : BitVec 6)  -- ISHR_I
  | ishrN (g : Guard) (d a b : BitVec 6)  -- ISHR_N
  | ibfxI (g : Guard) (d a b : BitVec 6)  -- IBFX_I
  | ibfxN (g : Guard) (d a b : BitVec 6)  -- IBFX_N
  | ibfi (g : Guard) (d a b : BitVec 6)  -- IBFI
  | ipopc (g : Guard) (d a : BitVec 6)  -- IPOPC
  | iclz (g : Guard) (d a : BitVec 6)  -- ICLZ
  | icmp (g : Guard) (cc tg : BitVec 3) (a b : BitVec 6)  -- ICMP
  | isel (g : Guard) (d a b : BitVec 6)  -- ISEL
  | imov (g : Guard) (d a : BitVec 6)  -- IMOV
  | imovi (g : Guard) (d : BitVec 6) (imm : BitVec 32)  -- IMOVI
  | idot4I8 (g : Guard) (d a b : BitVec 6) (m : Bool)  -- IDOT4_I8
  | idot4N8 (g : Guard) (d a b : BitVec 6) (m : Bool)  -- IDOT4_N8
  | faddF32 (g : Guard) (d a b : BitVec 6)  -- FADD_F32
  | fmulF32 (g : Guard) (d a b : BitVec 6)  -- FMUL_F32
  | ffmaF32 (g : Guard) (d a b : BitVec 6)  -- FFMA_F32
  | fminF32 (g : Guard) (d a b : BitVec 6) (m : Bool)  -- FMIN_F32
  | fmaxF32 (g : Guard) (d a b : BitVec 6) (m : Bool)  -- FMAX_F32
  | fcmpF32 (g : Guard) (cc tg : BitVec 3) (a b : BitVec 6)  -- FCMP_F32
  | frndF32 (g : Guard) (d a : BitVec 6) (b : BitVec 3)  -- FRND_F32
  | frcp (g : Guard) (d a : BitVec 6)  -- FRCP
  | frsq (g : Guard) (d a : BitVec 6)  -- FRSQ
  | fsqrt (g : Guard) (d a : BitVec 6)  -- FSQRT
  | fexp2 (g : Guard) (d a : BitVec 6)  -- FEXP2
  | flog2 (g : Guard) (d a : BitVec 6)  -- FLOG2
  | fsin (g : Guard) (d a : BitVec 6)  -- FSIN
  | fcos (g : Guard) (d a : BitVec 6)  -- FCOS
  | faddH2 (g : Guard) (d a b : BitVec 6)  -- FADD_H2
  | fmulH2 (g : Guard) (d a b : BitVec 6)  -- FMUL_H2
  | ffmaH2 (g : Guard) (d a b : BitVec 6)  -- FFMA_H2
  | faddB2 (g : Guard) (d a b : BitVec 6)  -- FADD_B2
  | fmulB2 (g : Guard) (d a b : BitVec 6)  -- FMUL_B2
  | ffmaB2 (g : Guard) (d a b : BitVec 6)  -- FFMA_B2
  | cvtF32I32 (g : Guard) (d a : BitVec 6)  -- CVT_F32_I32
  | cvtF32N32 (g : Guard) (d a : BitVec 6)  -- CVT_F32_N32
  | cvtI32F32 (g : Guard) (d a : BitVec 6) (b : BitVec 3)  -- CVT_I32_F32
  | cvtN32F32 (g : Guard) (d a : BitVec 6) (b : BitVec 3)  -- CVT_N32_F32
  | cvtF32H2 (g : Guard) (d a : BitVec 6) (m : Bool)  -- CVT_F32_H2
  | cvtH2F32 (g : Guard) (d a b : BitVec 6)  -- CVT_H2_F32
  | cvtF32B2 (g : Guard) (d a : BitVec 6) (m : Bool)  -- CVT_F32_B2
  | cvtB2F32 (g : Guard) (d a b : BitVec 6)  -- CVT_B2_F32
  | cvtF32E4m3 (g : Guard) (d a : BitVec 6) (b : BitVec 2)  -- CVT_F32_E4M3
  | cvtE4m3F32 (g : Guard) (d a : BitVec 6) (b : BitVec 2)  -- CVT_E4M3_F32
  | cvtF32E5m2 (g : Guard) (d a : BitVec 6) (b : BitVec 2)  -- CVT_F32_E5M2
  | cvtE5m2F32 (g : Guard) (d a : BitVec 6) (b : BitVec 2)  -- CVT_E5M2_F32
  | shflIdx (g : Guard) (d a b : BitVec 6)  -- SHFL_IDX
  | shflXor (g : Guard) (d a b : BitVec 6)  -- SHFL_XOR
  | s2v (g : Guard) (d a : BitVec 6) (m : Bool)  -- S2V
  | v2s (g : Guard) (d a b : BitVec 6) (m : Bool)  -- V2S
  -- class 5, memory (01 R24)
  | ld8 (g : Guard) (d a : BitVec 6) (lb : Bool) (off : BitVec 31)  -- LD_8
  | ld16 (g : Guard) (d a : BitVec 6) (lb : Bool) (off : BitVec 31)  -- LD_16
  | ld32 (g : Guard) (d a : BitVec 6) (lb : Bool) (off : BitVec 31)  -- LD_32
  | ld64 (g : Guard) (d a : BitVec 6) (lb : Bool) (off : BitVec 31)  -- LD_64
  | ld128 (g : Guard) (d a : BitVec 6) (lb : Bool) (off : BitVec 31)  -- LD_128
  | ldx (g : Guard) (d a : BitVec 6) (lb : Bool) (off : BitVec 31)  -- LDX
  | ldro (g : Guard) (d a : BitVec 6) (lb : Bool) (off : BitVec 31)  -- LDRO
  | st8 (g : Guard) (d a : BitVec 6) (lb : Bool) (off : BitVec 31)  -- ST_8
  | st16 (g : Guard) (d a : BitVec 6) (lb : Bool) (off : BitVec 31)  -- ST_16
  | st32 (g : Guard) (d a : BitVec 6) (lb : Bool) (off : BitVec 31)  -- ST_32
  | st64 (g : Guard) (d a : BitVec 6) (lb : Bool) (off : BitVec 31)  -- ST_64
  | st128 (g : Guard) (d a : BitVec 6) (lb : Bool) (off : BitVec 31)  -- ST_128
  | stx (g : Guard) (d a : BitVec 6) (lb : Bool) (off : BitVec 31)  -- STX
  | lds (g : Guard) (d a : BitVec 6) (lb : Bool) (off : BitVec 31)  -- LDS
  | sts (g : Guard) (d a : BitVec 6) (lb : Bool) (off : BitVec 31)  -- STS
  | atomAdd (g : Guard) (d a b : BitVec 6) (lb : Bool) (sc : BitVec 3) (ord : BitVec 2) (un : Bool) (off : BitVec 19)  -- ATOM_ADD
  | atomMin (g : Guard) (d a b : BitVec 6) (lb : Bool) (sc : BitVec 3) (ord : BitVec 2) (un : Bool) (off : BitVec 19)  -- ATOM_MIN
  | atomMax (g : Guard) (d a b : BitVec 6) (lb : Bool) (sc : BitVec 3) (ord : BitVec 2) (un : Bool) (off : BitVec 19)  -- ATOM_MAX
  | atomAnd (g : Guard) (d a b : BitVec 6) (lb : Bool) (sc : BitVec 3) (ord : BitVec 2) (un : Bool) (off : BitVec 19)  -- ATOM_AND
  | atomOr (g : Guard) (d a b : BitVec 6) (lb : Bool) (sc : BitVec 3) (ord : BitVec 2) (un : Bool) (off : BitVec 19)  -- ATOM_OR
  | atomXor (g : Guard) (d a b : BitVec 6) (lb : Bool) (sc : BitVec 3) (ord : BitVec 2) (un : Bool) (off : BitVec 19)  -- ATOM_XOR
  | atomXchg (g : Guard) (d a b : BitVec 6) (lb : Bool) (sc : BitVec 3) (ord : BitVec 2) (un : Bool) (off : BitVec 19)  -- ATOM_XCHG
  | atomCas (g : Guard) (d a b : BitVec 6) (lb : Bool) (sc : BitVec 3) (ord : BitVec 2) (un : Bool) (off : BitVec 19)  -- ATOM_CAS
  | atomFadd (g : Guard) (d a b : BitVec 6) (lb : Bool) (sc : BitVec 3) (ord : BitVec 2) (un : Bool) (off : BitVec 19)  -- ATOM_FADD
  | atomsAdd (g : Guard) (d a b : BitVec 6) (lb : Bool) (sc : BitVec 3) (ord : BitVec 2) (un : Bool) (off : BitVec 19)  -- ATOMS_ADD
  | atomsCas (g : Guard) (d a b : BitVec 6) (lb : Bool) (sc : BitVec 3) (ord : BitVec 2) (un : Bool) (off : BitVec 19)  -- ATOMS_CAS
  | probe (g : Guard) (a b : BitVec 6) (m : Bool)  -- PROBE
  | ldq (g : Guard) (d a : BitVec 6) (lb : Bool) (off : BitVec 31)  -- LDQ
  | stq (g : Guard) (d a : BitVec 6) (lb : Bool) (off : BitVec 31)  -- STQ
  | lda (g : Guard) (d a : BitVec 6) (lb : Bool) (off : BitVec 31)  -- LDA
  | sta (g : Guard) (d a : BitVec 6) (lb : Bool) (off : BitVec 31)  -- STA
  | cwb (g : Guard) (a b : BitVec 6) (m : Bool)  -- CWB
  | cinv (g : Guard) (a b : BitVec 6) (m : Bool)  -- CINV
  | icinv (g : Guard) (a b : BitVec 6) (m : Bool)  -- ICINV
  | invRo (g : Guard)  -- INV_RO
  | tagset (g : Guard) (a : BitVec 6) (lb : Bool) (off : BitVec 31)  -- TAGSET
  | tagget (g : Guard) (d a : BitVec 6) (lb : Bool) (off : BitVec 31)  -- TAGGET
  | pres (g : Guard) (d a : BitVec 6) (lb : Bool) (off : BitVec 31)  -- PRES
  | ldS (g : Guard) (d a : BitVec 6) (lb : Bool) (off : BitVec 31)  -- LD_S
  | atomInc (g : Guard) (d a b : BitVec 6) (lb : Bool) (sc : BitVec 3) (ord : BitVec 2) (un : Bool) (off : BitVec 19)  -- ATOM_INC
  -- class 4, matrix (01 R24)
  | mldb (row2 : BitVec 9) (col2 : BitVec 5) (pr wide : Bool) (t : MatTail)  -- MLDB
  | mmaBf16 (row1 row2 : BitVec 9) (col2 : BitVec 5) (pr : Bool) (t : MatTail)  -- MMA_BF16
  | mmaF16 (row1 row2 : BitVec 9) (col2 : BitVec 5) (pr : Bool) (t : MatTail)  -- MMA_F16
  | mmaE4m3 (row1 row2 : BitVec 9) (col2 : BitVec 5) (pr : Bool) (t : MatTail)  -- MMA_E4M3
  | mmaE5m2 (row1 row2 : BitVec 9) (col2 : BitVec 5) (pr : Bool) (t : MatTail)  -- MMA_E5M2
  | mmaMx8 (row1 row2 : BitVec 9) (col2 : BitVec 5) (pr : Bool) (el : BitVec 2) (t : MatTail)  -- MMA_MX8
  | mmaMx6 (row1 row2 : BitVec 9) (col2 : BitVec 5) (pr : Bool) (el : BitVec 1) (t : MatTail)  -- MMA_MX6
  | mmaMx4 (row1 row2 : BitVec 9) (col2 : BitVec 5) (pr : Bool) (el : BitVec 1) (t : MatTail)  -- MMA_MX4
  | mmaI8 (row1 row2 : BitVec 9) (col2 : BitVec 5) (pr sat sa sb : Bool) (t : MatTail)  -- MMA_I8
  | mmaI4 (row1 row2 : BitVec 9) (col2 : BitVec 5) (pr sat sa sb : Bool) (t : MatTail)  -- MMA_I4
  | mmasMx4 (row1 row2 : BitVec 9) (col2 : BitVec 5) (pr : Bool) (el : BitVec 1) (t : MatTail)  -- MMAS_MX4
  | mmasMx8 (row1 row2 : BitVec 9) (col2 : BitVec 5) (pr : Bool) (el : BitVec 2) (t : MatTail)  -- MMAS_MX8
  | mmvMx4 (row1 : BitVec 9) (col1 : BitVec 5) (row2 : BitVec 9) (col2 : BitVec 5) (pr : Bool) (sl : BitVec 4) (ec : BitVec 2) (t : MatTail)  -- MMV_MX4
  | mmvMx8 (row1 : BitVec 9) (col1 : BitVec 5) (row2 : BitVec 9) (col2 : BitVec 5) (pr : Bool) (sl : BitVec 4) (ec : BitVec 2) (t : MatTail)  -- MMV_MX8
  | mmvBf16 (row1 : BitVec 9) (col1 : BitVec 5) (row2 : BitVec 9) (col2 : BitVec 5) (pr : Bool) (sl : BitVec 4) (t : MatTail)  -- MMV_BF16
  | mzero (row1 : BitVec 9) (col1 : BitVec 5) (pr mv : Bool) (t : MatTail)  -- MZERO
  | mscale (row1 row2 : BitVec 9) (pr : Bool) (t : MatTail)  -- MSCALE
  | mcvt (row1 : BitVec 9) (col1 : BitVec 5) (row2 : BitVec 9) (pr : Bool) (code : BitVec 5) (isInt : Bool) (t : MatTail)  -- MCVT
  | mtest (row1 : BitVec 9) (col1 : BitVec 5) (t : MatTail)  -- MTEST
  | mfence (t : MatTail)  -- MFENCE
  | mcbk (row2 : BitVec 9) (col2 : BitVec 5) (pr : Bool) (el : BitVec 1) (t : MatTail)  -- MCBK
  | mtrn (row1 : BitVec 9) (col1 : BitVec 5) (row2 : BitVec 9) (col2 : BitVec 5) (wd : BitVec 2) (t : MatTail)  -- MTRN
  | mpair (el : BitVec 1) (t : MatTail)  -- MPAIR
  | mfree (t : MatTail)  -- MFREE
  -- class 7, graphics and ray (01 R24)
  | meshOut (g : Guard) (d a b : BitVec 6)  -- MESH_OUT
  | meshPrim (g : Guard) (d a : BitVec 6)  -- MESH_PRIM
  | meshDone (g : Guard) (a b : BitVec 6)  -- MESH_DONE
  | rastBind (g : Guard) (a : BitVec 6) (imm : BitVec 32)  -- RAST_BIND
  | pixIn (g : Guard) (d : BitVec 6) (imm : BitVec 32)  -- PIX_IN
  | pixBary (g : Guard) (d b : BitVec 6) (m : Bool)  -- PIX_BARY
  | pixDiscard (g : Guard)  -- PIX_DISCARD
  | omWrite (g : Guard) (a : BitVec 6) (imm : BitVec 32)  -- OM_WRITE
  | omDepth (g : Guard) (a : BitVec 6)  -- OM_DEPTH
  | guideOut (g : Guard) (a : BitVec 6)  -- GUIDE_OUT
  | texSample (g : Guard) (d a b : BitVec 6)  -- TEX_SAMPLE
  | texLod (g : Guard) (d a b : BitVec 6)  -- TEX_LOD
  | texGrad (g : Guard) (d a b : BitVec 6)  -- TEX_GRAD
  | texFetch (g : Guard) (d a b : BitVec 6)  -- TEX_FETCH
  | texGather4 (g : Guard) (d a b : BitVec 6)  -- TEX_GATHER4
  | texQuery (g : Guard) (d a : BitVec 6) (imm : BitVec 32)  -- TEX_QUERY
  | rayBox (g : Guard) (d a b : BitVec 6)  -- RAY_BOX
  | rayTri (g : Guard) (d a b : BitVec 6)  -- RAY_TRI
  | rayInit (g : Guard) (d a : BitVec 6)  -- RAY_INIT
  | rayXform (g : Guard) (d a b : BitVec 6) (m : Bool)  -- RAY_XFORM
  | rayStkPush (g : Guard) (d a : BitVec 6)  -- RAY_STK_PUSH
  | rayStkPop (g : Guard) (d a : BitVec 6)  -- RAY_STK_POP
  | rayHit (g : Guard) (d a : BitVec 6)  -- RAY_HIT
  | imgLd (g : Guard) (d a : BitVec 6) (lb : Bool) (off : BitVec 31)  -- IMG_LD
  | imgSt (g : Guard) (d a : BitVec 6) (lb : Bool) (off : BitVec 31)  -- IMG_ST
  | quadSwz (g : Guard) (d a : BitVec 6) (imm : BitVec 32)  -- QUAD_SWZ
  | quadDeriv (g : Guard) (d a : BitVec 6) (imm : BitVec 32)  -- QUAD_DERIV
  -- class 6, copy (01 R24)
  | cpyLin (a b c : BitVec 6) (m : Bool) (t : CopyTail)  -- CPY_LIN
  | cpyTen (a b c : BitVec 6) (m : Bool) (slot : BitVec 3) (t : CopyTail)  -- CPY_TEN
  | cpyMc (a b c : BitVec 6) (m : Bool) (t : CopyTail)  -- CPY_MC
  | cpyCol (a b c : BitVec 6) (t : CopyTail)  -- CPY_COL
  | cpyFill (a c : BitVec 6) (t : CopyTail)  -- CPY_FILL
  | cpyWb (ent : BitVec 4) (t : CopyTail)  -- CPY_WB
  | cpyTs (a b c : BitVec 6) (m : Bool) (row : BitVec 9) (col : BitVec 4) (t : CopyTail)  -- CPY_TS
  | cpyFeed (a b c : BitVec 6) (row : BitVec 9) (col : BitVec 4) (t : CopyTail)  -- CPY_FEED
  | publish (a : BitVec 6) (t : CopyTail)  -- PUBLISH
  | shadow (a b : BitVec 6) (t : CopyTail)  -- SHADOW
  | semSig (a b : BitVec 6) (m : Bool) (t : CopyTail)  -- SEM_SIG
  | semWait (a b : BitVec 6) (m : Bool) (t : CopyTail)  -- SEM_WAIT
  | semTry (a b c : BitVec 6) (m : Bool) (t : CopyTail)  -- SEM_TRY
  | semSet (a b : BitVec 6) (m : Bool) (t : CopyTail)  -- SEM_SET
  | semRead (a c : BitVec 6) (m : Bool) (t : CopyTail)  -- SEM_READ
  | push (a b c : BitVec 6) (m : Bool) (dir : BitVec 2) (t : CopyTail)  -- PUSH
  | shape (a : BitVec 6) (slot : BitVec 3) (t : CopyTail)  -- SHAPE
  | tokq (t : CopyTail)  -- TOKQ
  | mapSet (a b : BitVec 6) (ent : BitVec 4) (t : CopyTail)  -- MAP_SET
  | mapClr (ent : BitVec 4) (t : CopyTail)  -- MAP_CLR
  | cpyRed (a b c : BitVec 6) (ty : BitVec 5) (rop : BitVec 2) (t : CopyTail)  -- CPY_RED
  | cpyGath (a b c : BitVec 6) (rl : BitVec 8) (t : CopyTail)  -- CPY_GATH
  | cpyScat (a b c : BitVec 6) (rl : BitVec 8) (t : CopyTail)  -- CPY_SCAT
  | guideBind (a b c : BitVec 6) (t : CopyTail)  -- GUIDE_BIND
  | linkSend (a b c : BitVec 6) (t : CopyTail)  -- LINK_SEND
  | linkRecv (a b c : BitVec 6) (t : CopyTail)  -- LINK_RECV
  | cpyAbort (t : CopyTail)  -- CPY_ABORT
  | cpyHost (a b c : BitVec 6) (m : Bool) (t : CopyTail)  -- CPY_HOST
  -- class 3, vector (01 R24)
  | vadd (d a b : BitVec 5) (k : BitVec 3) (m : Bool)  -- VADD
  | vsub (d a b : BitVec 5) (k : BitVec 3) (m : Bool)  -- VSUB
  | vmul (d a b : BitVec 5) (k : BitVec 3) (m : Bool)  -- VMUL
  | vfma (d a b : BitVec 5) (k : BitVec 3) (m : Bool)  -- VFMA
  | vmin (d a b : BitVec 5) (k : BitVec 3) (m : Bool)  -- VMIN
  | vmax (d a b : BitVec 5) (k : BitVec 3) (m : Bool)  -- VMAX
  | vabs (d a : BitVec 5) (k : BitVec 3) (m : Bool)  -- VABS
  | vneg (d a : BitVec 5) (k : BitVec 3) (m : Bool)  -- VNEG
  | vcmp (d a b : BitVec 5) (k : BitVec 3)  -- VCMP
  | vsel (d a b : BitVec 5) (k : BitVec 3) (m : Bool)  -- VSEL
  | vand (d a b : BitVec 5) (k : BitVec 3) (m : Bool)  -- VAND
  | vor (d a b : BitVec 5) (k : BitVec 3) (m : Bool)  -- VOR
  | vxor (d a b : BitVec 5) (k : BitVec 3) (m : Bool)  -- VXOR
  | vshl (d a b : BitVec 5) (k : BitVec 3) (m : Bool)  -- VSHL
  | vshrI (d a b : BitVec 5) (k : BitVec 3) (m : Bool)  -- VSHR_I
  | vshrN (d a b : BitVec 5) (k : BitVec 3) (m : Bool)  -- VSHR_N
  | vmov (d a : BitVec 5) (k : BitVec 3) (m : Bool)  -- VMOV
  | vbcast (d a b : BitVec 5) (k : BitVec 3) (m : Bool)  -- VBCAST
  | vrcp (d a : BitVec 5) (k : BitVec 3) (m : Bool)  -- VRCP
  | vrsq (d a : BitVec 5) (k : BitVec 3) (m : Bool)  -- VRSQ
  | vexp2 (d a : BitVec 5) (k : BitVec 3) (m : Bool)  -- VEXP2
  | vlog2 (d a : BitVec 5) (k : BitVec 3) (m : Bool)  -- VLOG2
  | vtbli (d a b : BitVec 5) (k : BitVec 3) (m : Bool)  -- VTBLI
  | vtbll (a : BitVec 5) (b : BitVec 3)  -- VTBLL
  | vrmax (d a : BitVec 5) (k : BitVec 3)  -- VRMAX
  | vradd (d a : BitVec 5) (k : BitVec 3)  -- VRADD
  | vamax (d a : BitVec 5) (k : BitVec 3)  -- VAMAX
  | vqnt (d a b : BitVec 5) (k : BitVec 3) (m : Bool)  -- VQNT
  | vdqnt (d a b : BitVec 5) (k : BitVec 3) (m : Bool)  -- VDQNT
  | vcvt (d a b : BitVec 5) (k : BitVec 3) (m : Bool)  -- VCVT
  | vperm (d a b : BitVec 5) (k : BitVec 3) (m : Bool)  -- VPERM
  | vslide (d a b : BitVec 5) (k : BitVec 3) (m : Bool)  -- VSLIDE
  | vpop (d : BitVec 5) (a : BitVec 2)  -- VPOP
  | vpush (d a : BitVec 5)  -- VPUSH
  | vpopk (d : BitVec 3) (a : BitVec 2)  -- VPOPK
  | vpushs (d a : BitVec 5) (k : BitVec 3)  -- VPUSHS
  | vshape (d a b : BitVec 5) (k : BitVec 3) (m : Bool)  -- VSHAPE
  | vrot (d a b : BitVec 5) (k : BitVec 3) (m : Bool)  -- VROT
  | vscale (d a b : BitVec 5) (k : BitVec 3) (m : Bool)  -- VSCALE
  | vrnd (d a b : BitVec 5) (k : BitVec 3) (m : Bool)  -- VRND
  | vsqrt (d a : BitVec 5) (k : BitVec 3) (m : Bool)  -- VSQRT
  | vmadI (d a b : BitVec 5) (k : BitVec 3) (m : Bool)  -- VMAD_I
  | vsat (d a b : BitVec 5) (k : BitVec 3) (m : Bool)  -- VSAT
  | vpsum (d a : BitVec 5) (k : BitVec 3) (m : Bool)  -- VPSUM
  | vclamp (d a b : BitVec 5) (k : BitVec 3) (m : Bool)  -- VCLAMP
  | vfrac (d a : BitVec 5) (k : BitVec 3) (m : Bool)  -- VFRAC
  | vcbk (a : BitVec 5)  -- VCBK
  | vkmov (op : BitVec 2) (t a b : BitVec 3)  -- VKMOV
  -- the events, which have no encoding
  | launchDispatch (ctx q : Nat)  -- LAUNCH_DISPATCH
  | crewPlacement  -- CREW_PLACEMENT
  | crewStart (crew : Nat)  -- CREW_START
  | bundleEnd (b : Nat)  -- BUNDLE_END
  | launchCompletion (l : Nat)  -- LAUNCH_COMPLETION
  | activeSetRecompute (core : Nat)  -- ACTIVE_SET_RECOMPUTE
  | leaseWindowEnd (b : Nat)  -- LEASE_WINDOW_END
  | runArbitration (core : Nat)  -- RUN_ARBITRATION
  | yieldHoldExpiry (core : Nat)  -- YIELD_HOLD_EXPIRY
  | batchTimeout (ctx node : Nat)  -- BATCH_TIMEOUT
  | groveBarrierDoneMessage (grove bar : Nat) (second : Bool)  -- GROVE_BARRIER_DONE_MESSAGE
  | pageBacking (ctx : Nat) (va : BitVec 64)  -- PAGE_BACKING
  | pageMigration (ctx : Nat) (va : BitVec 64)  -- PAGE_MIGRATION
  | copyUnitTransfer (copy unit : Nat)  -- COPY_UNIT_TRANSFER
  | copyCompletion (copy : Nat)  -- COPY_COMPLETION
  | multicastShareWritten (copy share : Nat)  -- MULTICAST_SHARE_WRITTEN
  | feedBlockWrite (tile : Nat)  -- FEED_BLOCK_WRITE
  | regionFillCompletion (tile line : Nat)  -- REGION_FILL_COMPLETION
  | publishSwap (ctx : Nat) (va : BitVec 64)  -- PUBLISH_SWAP
  | remoteAtomicErrorResponse (b st : Nat) (d : BitVec 6) (addr : BitVec 64)  -- REMOTE_ATOMIC_ERROR_RESPONSE
  | matRetire (tile : Nat)  -- MAT_RETIRE
  | matrixSelfTest (tile : Nat) (failing : BitVec 4)  -- MATRIX_SELF_TEST
  | mpairSlave (tile : Nat)  -- MPAIR_SLAVE
  | executeResultLanding (tile : Nat)  -- EXECUTE_RESULT_LANDING
  | scaleLatchDelivery (tile : Nat)  -- SCALE_LATCH_DELIVERY
  | taskSequencerPartStart (tile : Nat)  -- TASK_SEQUENCER_PART_START
  | loopRecordDoneSignal (tile : Nat)  -- LOOP_RECORD_DONE_SIGNAL
  | tilePreemptionSave (tile : Nat)  -- TILE_PREEMPTION_SAVE
  | tileSetPlacement  -- TILE_SET_PLACEMENT
  | meshRasterise (die : Nat)  -- MESH_RASTERISE
  | pixelBundleStart (die : Nat)  -- PIXEL_BUNDLE_START
  | fragmentMerge (l : Nat)  -- FRAGMENT_MERGE
  | guideTileSend (die : Nat)  -- GUIDE_TILE_SEND
  | millStep (core : Nat)  -- MILL_STEP
  | millDrainTimeLimit (core : Nat)  -- MILL_DRAIN_TIME_LIMIT
  | millReload (core b : Nat)  -- MILL_RELOAD
  | flumeStep (crew f : Nat)  -- FLUME_STEP
  | preemptionRequest (core : Nat) (crews : List Nat)  -- PREEMPTION_REQUEST
  | saveCommit (crew : Nat)  -- SAVE_COMMIT
  | saveSlotDrain (core : Nat)  -- SAVE_SLOT_DRAIN
  | crewRestore (crew : Nat)  -- CREW_RESTORE
  | splitDrainComplete (core : Nat)  -- SPLIT_DRAIN_COMPLETE
  | governorRequestArrival (reqs : List GovRequest)  -- GOVERNOR_REQUEST_ARRIVAL
  | waittDeadline (o st : Nat)  -- WAITT_DEADLINE
  | softError (e : SoftErrorAt)  -- SOFT_ERROR
  | patrolScrub (die line : Nat)  -- PATROL_SCRUB
  | powerManagerWindow (total tensor raster : Nat)  -- POWER_MANAGER_WINDOW
  | dieResetTimeLimit (die : Nat)  -- DIE_RESET_TIME_LIMIT
  | hostMemoryAccess (write : Bool) (pa : Nat) (bytes : List (BitVec 8))  -- HOST_MEMORY_ACCESS
  | qtailWrite (ctx q : Nat) (v : BitVec 64)  -- QTAIL_WRITE
  | qctlWrite (ctx q : Nat) (v : BitVec 64)  -- QCTL_WRITE
  | mbxHostWrite (ctx n : Nat) (v : BitVec 64)  -- MBX_HOST_WRITE
  | govdeadWrite (ctx n : Nat) (v : BitVec 64)  -- GOVDEAD_WRITE
  | evheadWrite (ctx : Nat) (v : BitVec 64)  -- EVHEAD_WRITE
  | tsetWrite (v : BitVec 64)  -- TSET_WRITE
  | hostRegisterWrite (ofs : Nat) (v : BitVec 64)  -- HOST_REGISTER_WRITE
  | createContext (ctx : Nat) (root : BitVec 64)  -- CREATE_CONTEXT
  | endContext (ctx : Nat)  -- END_CONTEXT
  | shootDown (ctx : Nat) (va len : BitVec 64)  -- SHOOT_DOWN
  | shootDownAcknowledge (unit : Nat)  -- SHOOT_DOWN_ACKNOWLEDGE
  | addPoolFrames (large : Bool) (frames : List Nat) (threshold : Nat)  -- ADD_POOL_FRAMES
  | dieBeadAllocate (ctx bead : Nat)  -- DIE_BEAD_ALLOCATE
  | dieBeadFree (ctx bead : Nat)  -- DIE_BEAD_FREE
  | linkStreamAllocate (ctx port stream : Nat)  -- LINK_STREAM_ALLOCATE
  | linkStreamFree (ctx port stream : Nat)  -- LINK_STREAM_FREE
  | debugRetry (o st : Nat)  -- DEBUG_RETRY
  | debugSkip (o st : Nat)  -- DEBUG_SKIP
  | debugAbort (o : Nat)  -- DEBUG_ABORT
  | computeReset (die limit : Nat)  -- COMPUTE_RESET
  | powerOff (die : Nat)  -- POWER_OFF
  | writeMtcfg (tile : Nat) (v : BitVec 64)  -- WRITE_MTCFG
  | hostCopyToDevice (ctx host : Nat) (dst : BitVec 64) (len : Nat) (bead : Option Nat)  -- HOST_COPY_TO_DEVICE
  | hostCopyToHost (ctx host : Nat) (src : BitVec 64) (len : Nat) (bead : Option Nat)  -- HOST_COPY_TO_HOST
  | installNodeTable (ctx : Nat) (table : BitVec 64) (n : Nat)  -- INSTALL_NODE_TABLE
  | installRecordPool (ctx : Nat) (base : BitVec 64) (size count : Nat)  -- INSTALL_RECORD_POOL
  | attestationRequest (nonce : List (BitVec 8))  -- ATTESTATION_REQUEST
  | identityCertificateRequest  -- IDENTITY_CERTIFICATE_REQUEST
  | fenceAddendum (tile : Nat) (mask : BitVec 4)  -- FENCE_ADDENDUM
  | errorLogRead (ofs count : Nat)  -- ERROR_LOG_READ
  | captureOn (ctx : Nat) (base : BitVec 64) (size : Nat)  -- CAPTURE_ON
  | captureOff (ctx : Nat)  -- CAPTURE_OFF
  | imageWrite (img : FlashImage)  -- IMAGE_WRITE
  | powerGood  -- POWER_GOOD
  | ptpMessage (port : Nat) (slew : Int) (offset : Int) (lock : Bool)  -- PTP_MESSAGE
  | linkDataFrame (port : Nat) (f : LinkFrame)  -- LINK_DATA_FRAME
  | linkAckFrame (port : Nat) (f : LinkFrame)  -- LINK_ACK_FRAME
  | linkCreditFrame (port : Nat) (f : LinkFrame)  -- LINK_CREDIT_FRAME
  | linkRetransmitTimeout (port stream : Nat)  -- LINK_RETRANSMIT_TIMEOUT
  | foreignFrame (port : Nat)  -- FOREIGN_FRAME
  | railOutOfRange (rail : Rail)  -- RAIL_OUT_OF_RANGE
  | bypass  -- BYPASS
  | idcode  -- IDCODE
  | samplePreload  -- SAMPLE_PRELOAD
  | extest  -- EXTEST
  | portUp (port : Nat)  -- PORT_UP
  | railInRange (rail : Rail)  -- RAIL_IN_RANGE
  | powerLoss (writing : Bool)  -- POWER_LOSS
  | timeLockLost  -- TIME_LOCK_LOST
deriving DecidableEq, Repr

/-- An instruction as it stands in code: its stop bit S, run-end bit E and length bit L beside its meaning (01 R11). -/
structure Item where
  instr : Instr
  stop : Bool
  runEnd : Bool
  long : Bool
deriving DecidableEq, Repr

end Sys2Proof
end

