-- ==== Sys2Proof/Machine/State.lean ====
section
/-! DEFINITION. The state of the package, as plain data, the reasons a step can stop, and the state after reset. Each field
names the rule that gives it. A register file is a table that lists the registers that do not hold zero. -/

namespace Sys2Proof.Machine

/-! ### Registers and what an owner holds -/

/-- A register: its value bits and, when poisoned, the index of its origin record (14 R240). Poison holds value zero
(02 R39). -/
structure Tagged (n : Nat) where
  val : BitVec n
  poison : Option (BitVec 3)
deriving DecidableEq, Repr

/-- The value of a register nothing has written (06 R122, 18 R289). -/
def Tagged.zero (n : Nat) : Tagged n := ⟨0, none⟩

/-- A poison origin (14 R240). -/
structure Origin where
  cause : BitVec 8
  addr : Dword
  omill : Bool
  ostage : BitVec 7
  ostrand : BitVec 8
deriving DecidableEq, Repr

/-- A shape slot (19 R321): SH0's fields, then extent and signed stride of each dimension. -/
structure Shape where
  fmt : Nat
  permit : Bool
  dims : List (Nat × Int)
deriving DecidableEq, Repr

/-- What a bundle or a tile stream owns (03, 14 R237, R240, R255, 19 R321). -/
structure Owner where
  /-- s1-s63; s0 reads zero (03 R56) -/
  s : Tbl (Tagged 64)
  /-- ACR (02 R40), and the value a SWRITE of the running group leaves for the next group (01 R20) -/
  acr : Dword
  acrNext : Option Dword
  tcause : Dword
  taddr : Dword
  tpc : Dword
  dbgstat : Dword
  /-- the eight poison origins (14 R240) -/
  origins : Tbl Origin
  /-- the eight shape slots; a slot not listed was never loaded (19 R321) -/
  shapes : Tbl Shape
  /-- the generation last joined on each core barrier, 8-15 (03 R72) -/
  joined : Tbl Nat
deriving DecidableEq, Repr

/-- Every register of an owner at creation (06 R122, 18 R289). -/
def Owner.fresh : Owner := ⟨[], 0, none, 0, 0, 0, 0, [], [], []⟩

/-- One level of a loop: its first word, its last instruction and the iterations left (03 R67). -/
structure Loop where
  start : Dword
  last : Dword
  count : Nat
deriving DecidableEq, Repr

/-! ### Strands, bundles, crews and groves -/

/-- Why a cohort is parked and what it has already done (01 R23, 03 R92). -/
inductive Wait where
  /-- evaluated again from the state: an absent line, a channel, a full front end, a page without a frame -/
  | again
  /-- evaluated again from the state, the strand being dormant: tokens, an incomplete bundle, a barrier's generation, a dry
  record pool (07 R153) -/
  | rest
  /-- has arrived on a strand barrier, or a grove barrier, in generation gen (03 R71) -/
  | barrier (grove : Bool) (n gen : Nat)
  /-- parked until device time reaches the deadline (03 R74) -/
  | deadline (t : Nat)
  /-- queued at a bead; `served` once the subtraction has been made (22 R352) -/
  | bead (served : Bool)
  /-- arrived at SPLIT for phase k (03 R84); `done` once the drain has ended -/
  | split (done : Bool)
  /-- presented to a flume; `done` once its step has completed (12 R229) -/
  | flume (done : Bool)
deriving DecidableEq, Repr

/-- What a strand is doing (06 R130, 14 R238, 12 R222). -/
inductive StrandStat where
  | ready
  | parked (w : Wait)
  /-- trap-halted (14 R238) -/
  | halted
  /-- stopped by all-stop (06 R142): what it was doing stays -/
  | stopped (was : Option Wait)
  /-- a token of the mill, or not yet admitted to it (12 R222) -/
  | milled
  | dead
deriving DecidableEq, Repr

/-- A pixel strand's inputs (09 R190): its place, coverage, primitive, facing, depth, 1/w, the components of the
attributes and weights as exact results already rounded, and its merge key (11 R207). -/
structure PixelIn where
  x : Nat
  y : Nat
  coverage : Nat
  prim : Nat
  front : Bool
  depth : Word
  invW : Word
  /-- PIX.BARY components 0-17 with perspective, then linear (11 R206) -/
  persp : List Word
  linear : List Word
  sampleDepths : List Word
  /-- the launch that issued the mesh, its raster state record, and the fragment's key -/
  launch : Nat
  record : List Dword
  key : List Nat
  /-- a guide channel was bound at its MESH.DONE (20 R331) -/
  guide : Bool
  /-- the raster die of its MESH.DONE, whose guide channel takes its records (20 R331) -/
  die : Nat
deriving DecidableEq, Repr

/-- Pending outputs of a pixel strand (09 R191). -/
structure PixelOut where
  targets : Tbl (List Word)
  depth : Option Word
  guide : Option (List Word)
  discarded : Bool
deriving DecidableEq, Repr

/-- One strand (03, 06). -/
structure Strand where
  /-- v0-v63 (04 R94) -/
  v : Tbl (Tagged 32)
  /-- p0-p7; p0 reads true (04) -/
  p : BitVec 8
  pc : Dword
  loops : List Loop
  stat : StrandStat
  /-- set while a group runs: the group has transferred control, so the pc stands (03 R65, R66) -/
  moved : Bool
  /-- the 8-bit wait count and promotion stamp of its cohort (07 R159) -/
  waitCount : Nat
  stamp : Option Nat
  /-- when its cohort became ready, by the machine's own count (07 R160) -/
  since : Nat
  /-- YIELD's hold (03 R82) -/
  held : Bool
  /-- the breakpoint it trapped at last, which is not tested again until the group that holds it is done (06 R143) -/
  bpSkip : Option Dword
  /-- the cause it is trap-halted for (14 R239), and a stop by all-stop that waits for the end of its run (06 R142) -/
  trapCause : BitVec 8
  stopDue : Bool
  /-- the invalidations that a FENCE.I of this strand has let its fetch observe, and the epoch it began in (03 R77, 08 R182; log 11) -/
  fetchEpoch : Nat
  born : Nat
  /-- registers that hold old values of atomics with a home on another die, and the addresses: a response with an error may still come
  (04 R120) -/
  remote : List (Nat × Dword)
  pixel : Option PixelIn
  out : PixelOut
deriving DecidableEq, Repr

/-- A strand at creation, with its pc and its d0 still to be written (06 R122). -/
def Strand.fresh (pc : Dword) : Strand :=
  { v := [], p := 1, pc := pc, loops := [], stat := .ready, moved := false, waitCount := 0, stamp := none, since := 0,
    held := false, bpSkip := none, trapCause := 0, stopDue := false, fetchEpoch := 0, born := 0, remote := [], pixel := none, out := ⟨[], none, none, false⟩ }

/-- A bundle (06 R127, R128; 07 R152; 09 R188, R189). -/
structure Bundle where
  crew : Nat
  /-- its bundle index in the launch (06 R127) -/
  index : Nat
  f1 : Nat
  slot : Nat
  /-- 6 bits (06 R128) -/
  rot : Nat
  /-- declared lease, none while measured; the measured estimate; lines touched in the window (07 R152) -/
  declared : Option Nat
  est : Nat
  touched : List Nat
  /-- CPY.COL and MESH.DONE ordinals (19 R320, 11 R207) -/
  copyOrd : Nat
  meshOrd : Nat
  /-- the mesh output area: word 20v + 4q + c of vertex v, quad q; then 512 primitives from 5,120 on (09 R189) -/
  mesh : Tbl Word
  /-- RAST.BIND's address, and the record once the first MESH.DONE has read it -/
  raster : Option Dword
  rasterRec : Option (List Dword)
  /-- every strand has exited; it ends once its copies have (03 R81) -/
  exited : Bool
deriving DecidableEq, Repr

/-- A strand or core barrier: arrivals, target (none while unset), 32-bit generation (03 R70). -/
structure Barrier where
  count : Nat
  target : Option Nat
  gen : Nat
deriving DecidableEq, Repr

def Barrier.zero : Barrier := ⟨0, none, 0⟩

/-- A grove barrier's copy on one die (06 R140). -/
structure GroveBar where
  arrivals : Nat
  done : Bool
  /-- DONE(gen) has arrived from the other die -/
  heard : Bool
  gen : Nat
deriving DecidableEq, Repr

def GroveBar.zero : GroveBar := ⟨0, false, false, 0⟩

/-- An operation presented to a flume: the bundle, whether it pushes, whether it is FSEND.NB, and a push's entry. -/
structure FlumeOp where
  bundle : Nat
  push : Bool
  nonBlocking : Bool
  entry : Tbl Word
deriving DecidableEq, Repr

/-- A flume bound to a crew (12 R220, R229). -/
structure Flume where
  depth : Nat
  prod : Nat
  cons : Nat
  entries : List (Tbl Word)
  presented : List FlumeOp
  /-- operations that have completed and whose bundle has yet to go on, by bundle: success, and the entry a pop took -/
  results : Tbl (Bool × Tbl Word)
deriving DecidableEq, Repr

/-! ### The mill -/

/-- A token of the mill (12 R222): strand, slots x0-x15, predicates y0-y3, and its origin when poisoned. -/
structure Token where
  strand : Nat
  x : Tbl (Tagged 32)
  y : BitVec 8
  origin : Option Origin
  /-- origins of its poisoned slots, by the slots' indices -/
  slotOrigins : Tbl Origin
  /-- the stage it stands at has acted on it: a held stage does not repeat (12 R223) -/
  acted : Bool
deriving DecidableEq, Repr

/-- A mill loaded on a core, or saved with its crew (12 R217-R228). -/
structure Mill where
  /-- the bundle that holds it, by uid -/
  holder : Nat
  image : Dword
  /-- M0-M7, and the words of the stages -/
  m : List Dword
  stages : List (Word × Word)
  /-- s registers of the holder at MILL.ENTER, and their poison origins (12 R219) -/
  base : Tbl (Tagged 64)
  baseOrigins : Tbl Origin
  /-- the group of the MILL.ENTER under way (13 R231) -/
  enterPc : Dword
  running : Bool
  /-- strands still to enter; tokens by stage; tokens in the reorder buffer by strand; tokens set aside -/
  toAdmit : List Nat
  inFlight : Tbl Token
  reorder : Tbl Token
  aside : List Token
  /-- tokens finished since the last arrival -/
  grain : Nat
  draining : Bool
  npois : Nat
  /-- strand and origin that MILL.EXIT reports -/
  first : Option (Nat × Origin)
deriving DecidableEq, Repr

/-- A mesh in the front end's input queue (09 R189, 11 R203-R207). -/
structure Mesh where
  launch : Nat
  /-- the issuing bundle by uid, its bundle index, and the ordinal of the MESH.DONE -/
  bundle : Nat
  index : Nat
  ordinal : Nat
  vertices : Nat
  prims : Nat
  area : Tbl Word
  record : List Dword
  fz : Bool
  guide : Bool
  /-- the raster die it was handed over on, and the pixel bundles that have been packed from it -/
  die : Nat
  packed : Nat
deriving DecidableEq, Repr

/-- A crew: where it stands, its scratchpad, barriers, flumes and records (06, 07, 14 R247). -/
structure Crew where
  launch : Nat
  index : Nat
  grove : Option Nat
  /-- the core it is resident on; none before placement and while saved -/
  core : Option Nat
  saved : Bool
  started : Bool
  ended : Bool
  /-- start sequence (07 R158) -/
  seq : Nat
  /-- bundles of the crew that have not ended, by uid -/
  bundles : List Nat
  scratch : Tbl Byte
  /-- scratchpad lines whose presence bit is clear, and marked 16-byte units (04 R109, 26 R395) -/
  absent : List Nat
  marked : List Nat
  /-- bead signals that reached it while it was saved (14 R248, R249) -/
  heldSignals : List Nat
  bars : Tbl Barrier
  flumes : Tbl Flume
  /-- a mill saved with it and still to be reloaded (12 R228) -/
  mill : Option Mill
  /-- records of its batch not yet returned (07 R161) -/
  records : List Dword
  /-- meshes saved with it, which go back to a front end with it (20 R331; log 133) -/
  meshes : List Mesh
  /-- evicted by a request and still to stop (14 R246) -/
  stopping : Bool
deriving DecidableEq, Repr

/-- A grove and its barriers, one copy on each of its two dies (06 R137, R140). -/
structure Grove where
  launch : Nat
  index : Nat
  first : Tbl GroveBar
  second : Tbl GroveBar
deriving DecidableEq, Repr

/-! ### Launches and what they hold on a core -/

/-- Where a launch came from (25 R376, 07 R161). -/
inductive LaunchFrom where
  | hostRing (q slot : Nat)
  | deviceRing (q : Nat)
  | node (n : Nat)
  | pixels (parent : Nat)
deriving DecidableEq, Repr

/-- How far a launch has come (07 R147, R148, 25 R377). -/
inductive LaunchPhase where
  /-- waits on its wait bead (07 R147) -/
  | waiting
  | running
  | completed
  | aborted
deriving DecidableEq, Repr

/-- A fragment held by the output merger (11 R207, R208). -/
structure Fragment where
  key : List Nat
  pixel : PixelIn
  out : PixelOut
  /-- FZ of the bundle it left -/
  fz : Bool
deriving DecidableEq, Repr

/-- A launch (07 R144-R148, 18 R304). -/
structure Launch where
  ctx : Nat
  seq : Nat
  hdr : List Dword
  origin : LaunchFrom
  phase : LaunchPhase
  /-- crews placed so far, of how many; crews ended -/
  nextCrew : Nat
  crewCount : Nat
  endedCrews : Nat
  /-- the phases of its plan and its load-path codebook (07 R162) -/
  plan : List Nat
  book : List Nat
  /-- tile set of a tile launch, in order (18 R304); streams that have ended -/
  tiles : List Nat
  endedTiles : List Nat
  frags : List Fragment
  /-- meshes handed to the front end and not yet rasterised -/
  meshes : Nat
  /-- values delivered so far to each reporter, by 64 times its bundle or tile index plus its strand index; and the capture
  buffer a replay reads: its base and the bytes it held at dispatch (08 R185, 26 R396) -/
  ordinals : Tbl Nat
  replay : Option (Dword × Nat)
  /-- for a batch of records (07 R161) -/
  batch : List Dword
  /-- event number of its last trap record (25 R377) -/
  trapSeq : Nat
  /-- how many stores the package had made when its first crew started (08 R181) -/
  begun : Option Nat
deriving DecidableEq, Repr

/-- Who waits at a bead (22 R352). -/
inductive Waiter where
  | owner (o : Nat)
  | launch (l : Nat)
  | channel (die : Nat)
deriving DecidableEq, Repr

/-- A bead (22 R352): count, marks, and the waits queued at it with the counts they await. -/
structure Bead where
  count : Nat
  ovf : Bool
  brk : Bool
  /-- its parity is wrong, which the next operation on it finds (22 R353) -/
  bad : Bool
  queue : List (Waiter × Nat)
deriving DecidableEq, Repr

def Bead.zero : Bead := ⟨0, false, false, false, []⟩

/-- What a launch holds on a core: core barriers 8-15, 64 beads, and the phase of SPLIT (03 R70, R84, 22 R351). -/
structure Stay where
  launch : Nat
  core : Option Nat
  bars : Tbl Barrier
  beads : Tbl Bead
  /-- the phase awaited by bundles standing at a SPLIT -/
  splitTo : Option Nat
deriving DecidableEq, Repr

/-! ### Cores -/

/-- The run in the issue slot (01 R21, 06 R134): its strands, pc and the instructions it has held so far. -/
structure Run where
  members : List Nat
  pc : Dword
  count : Nat
deriving DecidableEq, Repr

/-- A raster core (06, 07, 12, 14 R250). -/
structure CoreState where
  run : Option Run
  arb : Nat
  nextSeq : Nat
  /-- scratchpad size in 32 KiB granules; SPLITSTAT DRAIN and PHASE (03 R90) -/
  granules : Nat
  drain : Nat
  phase : Nat
  splitting : Option (Nat × Nat)
  active : List Nat
  /-- lines whose victim tags are held, oldest first (07 R154) -/
  victims : List Nat
  mill : Option Mill
  /-- the crews a pre-emption names, while it is under way (14 R246) -/
  evict : List Nat
  /-- the save slot has not drained (14 R250) -/
  slotBusy : Bool
  /-- the PC tags of the 64 table entries, entry h tagged with a pc (06 R131) -/
  pcTags : Tbl Dword
  /-- how many stores the package had made at its last INV.RO (08 R181) -/
  ro : Nat
deriving DecidableEq, Repr

def CoreState.idle : CoreState :=
  ⟨none, 0, 0, 0, 0, 0, none, [], [], none, [], false, [], 0⟩

/-! ### Tiles -/

/-- A group of the path that one processor has taken and the other has not (18 R292): its address, the words of its
instructions, the rotation steps that precede it, and the ACR it uses once a later SWRITE has changed it (18 R293). -/
structure PathGroup where
  pc : Dword
  words : List Word
  rot : Nat
  acr : Option Dword
  /-- the address after its last word -/
  nextPc : Dword
  /-- entries that the processor which has taken it pushed, by queue; the number of the next copy when the access processor took
  it, or the execute cycle in which the execute processor did (01 R20) -/
  pushed : Tbl Nat
  mark : Nat
deriving DecidableEq, Repr

/-- A write in flight to a physical register or mask (16 R273). -/
inductive Landing where
  | reg (r : Nat) (v : Nat) (poison : Option (BitVec 3)) (bits : Nat)
  | mask (k : Nat) (v : Nat)
  | latch (vals : List Nat)
deriving DecidableEq, Repr

/-- A result in flight: the execute cycle it lands at; `bits` of the destination it writes, byte-wise masked. -/
structure InFlight where
  cycle : Nat
  what : Landing
deriving DecidableEq, Repr

/-- What a MAT instruction reads of a tile: the tile store, the B registers and the codebooks of the decoders (19 R307-R310). -/
structure MatView where
  store : Tbl Byte
  b : Tbl Byte
  bookA : List Nat
  bookB : List Nat
deriving DecidableEq, Repr

/-- A MAT instruction in the matrix queue (19 R308): its token, ACR at its place in the stream, and, for an MMV with feed, the
block it takes. -/
structure MatEntry where
  instr : Instr
  te : Bool
  tok : BitVec 3
  acr : Dword
  block : Option Nat
  /-- the execute cycle it issued in (18 R295) -/
  cycle : Nat
  /-- what it read at its start, on its own tile and on the follower's; none before it starts (19 R308) -/
  start : Option (MatView × MatView)
deriving DecidableEq, Repr

/-- The feed of a tile (19 R324). -/
structure Feed where
  src : Dword
  count : Nat
  stride : Nat
  row : Nat
  col : Nat
  /-- blocks written into slots, taken by issued MMVs, and retired -/
  written : Nat
  taken : Nat
  retired : Nat
  /-- the copy that carries its token and bead, until it completes -/
  copy : Option Nat
  ended : Bool
deriving DecidableEq, Repr

/-- Where the task sequencer stands (18 R302). -/
inductive SeqPos where
  /-- a stream started without a record -/
  | plain
  /-- record r, its dwords once read, the part that runs next: 0 prologue, 1 kernel iteration n, 2 epilogue, 3 done signal -/
  | chain (r : Dword) (rec : List Dword) (part : Nat) (n : Nat)
deriving DecidableEq, Repr

/-- A region checkpoint (14 R242). -/
structure Checkpoint where
  pc : Dword
  loops : List Loop
  shape : Dword
  acr : Dword
  /-- an MPAIR stands earlier in the stream with no MFREE between (19 R314) -/
  pairIssued : Bool
  /-- the part it belongs to -/
  pos : SeqPos
deriving DecidableEq, Repr

/-- The stream of a tile (18, 16). -/
structure Stream where
  launch : Nat
  index : Nat
  /-- the linear index of the tile it started on, by which the governor and replay know it (23 R367, 26 R396) -/
  reporter : Nat
  pos : SeqPos
  /-- a part is running -/
  running : Bool
  halted : Bool
  saved : Bool
  /-- where the next group of the path is fetched; none while no part runs -/
  head : Option Dword
  /-- set while a group's access half runs: where a control transfer of it goes -/
  target : Option Dword
  /-- groups the execute processor has yet to take; groups the access processor has yet to take -/
  exq : List PathGroup
  acq : List PathGroup
  loops : List Loop
  rotDue : Nat
  /-- instructions of the run at the head so far (01 R21) -/
  runCount : Nat
  fetchEpoch : Nat
  born : Nat
  /-- the breakpoint it trapped at last (06 R143) -/
  bpSkip : Option Dword
  /-- w0-w31 by physical number, k1-k7, the shape register (16 R270, R271) -/
  w : Tbl (Tagged 2048)
  k : Tbl (BitVec 256)
  shape : Dword
  /-- what a VSHAPE of the running group leaves for the next group (16 R288) -/
  shapeNext : Option Dword
  flying : List InFlight
  cycle : Nat
  /-- q0-q5 entries are 2,048 bits, q6 64 bits, bq one bit; the key 7 is bq (16 R287) -/
  queues : Tbl (List Nat)
  check : Checkpoint
  restarts : Nat
  paired : Option Nat
  /-- MPAIR precedes with no MFREE between, in stream order (19 R314) -/
  pairIssued : Bool
  /-- awaiting execution of a deadline or a bead: the wait state of the access processor (03 R92) -/
  wait : Option Wait
  /-- conditions of its group that have begun to hold the access processor back, by the instruction's offset in the group (01 R20) -/
  parked : Tbl Wait
  /-- a MAT step has retired since the last test (21 R340) -/
  matSince : Bool
  /-- the stream has restarted and issued no group since (14 R244) -/
  anew : Bool
  /-- while a half of a group runs: entries at the tail of each queue, and copies from a number on, that belong to the group or to
  later ones (01 R20) -/
  hidden : Tbl Nat
  mark : Option Nat
deriving DecidableEq, Repr

/-- A tile: what stays with it between streams, and its stream (15, 18, 19, 21). -/
structure Tile where
  owner : Option Nat
  scratch : Tbl Byte
  /-- what the context's copies last wrote into each scratchpad byte (17 R289) -/
  copied : Tbl Byte
  absent : List Nat
  /-- 8-byte units written while their line was absent, dirty 8-byte units, marked 16-byte units -/
  written : List Nat
  dirty : List Nat
  marked : List Nat
  /-- RM0 and RM1 of 16 entries (15 R264) -/
  map : Tbl (Dword × Dword)
  store : Tbl Byte
  /-- marked 16-byte units of the tile store, 32 to a row (26 R395) -/
  storeMarked : List Nat
  /-- the B registers: byte 80j + i of column j (19 R310) -/
  b : Tbl Byte
  /-- codebooks of the A decoders, the B decoders and the vector engine (02 R37) -/
  bookA : List Nat
  bookB : List Nat
  bookV : List Nat
  /-- T(0)-T(511) and the scale latch (16 R280, R281) -/
  table : Tbl Word
  latch : List Nat
  mtcfg : Dword
  sinceTest : Nat
  /-- a test that a paired step of its leader waits for (21 R345) -/
  owed : Bool
  failed : BitVec 4
  fenced : BitVec 4
  /-- a fence that takes effect at the next pre-emption point (26 R392) -/
  fenceDue : BitVec 4
  mats : List MatEntry
  slavedTo : Option Nat
  feed : Option Feed
  stream : Option Stream
  /-- a pre-emption waits for the next point (18 R303) -/
  preempt : Bool
deriving DecidableEq, Repr

/-- The E2M1 book (02 R37). -/
def resetBook : List Nat :=
  [0x0000, 0x3F00, 0x3F80, 0x3FC0, 0x4000, 0x4040, 0x4080, 0x40C0,
   0x8000, 0xBF00, 0xBF80, 0xBFC0, 0xC000, 0xC040, 0xC080, 0xC0C0]

/-- A tile after reset (02 R37, 15 R264, 16 R280, 21 R340). -/
def Tile.reset : Tile :=
  { owner := none, scratch := [], copied := [], absent := [], written := [], dirty := [], marked := [], map := [], store := [], storeMarked := [], b := [],
    bookA := resetBook, bookB := resetBook, bookV := resetBook, table := [], latch := [], mtcfg := 0x10100,
    sinceTest := 0, owed := false, failed := 0, fenced := 0, fenceDue := 0, mats := [], slavedTo := none, feed := none, stream := none,
    preempt := false }

/-- The image of a saved stream whose tile another launch has been given: the tile and its launch, what the tile held, its scalar
registers and its beads (14 R253, 22 R351). -/
structure SavedTile where
  tile : Nat
  launch : Nat
  image : Tile
  regs : Owner
  beads : Tbl Bead
deriving DecidableEq, Repr

/-! ### Copies -/

/-- A space a copy reads or writes (19 R317). -/
inductive Place where
  | global (ctx : Nat)
  | crew (c : Nat)
  | tile (t : Nat)
  | store (t : Nat)
  /-- the scratchpad and the tile store of a saved stream whose tile another launch has been given: its launch and tile (14 R248) -/
  | image (l t : Nat)
  | imageStore (l t : Nat)
  /-- host memory, from an address of it -/
  | window (base : Nat)
deriving DecidableEq, Repr

/-- One stretch of a copy: where it goes and where it comes from, with an address in each space. -/
structure CopyPart where
  dstAt : Place
  dst : Dword
  srcAt : Place
  src : Dword
  len : Nat
deriving DecidableEq, Repr

/-- How a copy moves its parts (19 R318-R329). -/
inductive CopyKind where
  /-- the parts, 16-byte unit by unit: CPY.LIN, PUSH, CPY.HOST and host copies -/
  | plain
  /-- one part for each receiver: CPY.MC; the shares whose write has been announced (22 R349) -/
  | shares (told : List Nat)
  /-- the k-th CPY.COL of a crew's bundles: those that have supplied a slice, and the fields the first slice fixes (19 R320) -/
  | collective (crew k : Nat) (members : List Nat) (tail : CopyTail)
  /-- a tensor box and its dense side, element by element of n bytes; `out` writes the tensor (19 R321) -/
  | tensor (out : Bool) (shape : Shape) (origin : List Int) (box : List Nat) (n : Nat)
  /-- rows by an index list (19 R322) -/
  | gather (row : Nat) (list : Place) (first : Dword)
  | scatter (row : Nat) (list : Place) (first : Dword)
  /-- element type, operation and ACR.FZ of CPY.RED -/
  | reduce (ty op : Nat) (fz : Bool)
  /-- rows between scratchpad and tile store: row, byte column, pitch, width (19 R323) -/
  | rowsIn (row col pitch width : Nat)
  | rowsOut (row col pitch width : Nat)
  /-- operand rows: row, column, pitch in elements, first element, region entry (19 R323) -/
  | operands (row col pitch e0 entry : Nat)
  | feed
  /-- fill of the listed lines (19 R325) -/
  | fills (lines : List Nat)
  /-- write-back of the listed dirty units of a region entry; `clear` invalidates it after (15 R266) -/
  | writeBack (entry : Nat) (list : List Nat) (clear : Bool)
  /-- the null copy of TOKQ: the copies it follows (19 R328) -/
  | null (after : List Nat)
  /-- the k-th send or receive on a port and stream (19 R329, 25 R384): the bytes a credited send transmits; `finished` once its
  last frame has been settled -/
  | linkSend (port stream k : Nat) (sent : Nat) (finished : Bool)
  | linkRecv (port stream k : Nat) (finished : Bool)
deriving DecidableEq, Repr

/-- A copy in flight on a skidder channel (19 R317, R318; 22 R347). -/
structure Copy where
  /-- the bundle or tile that issued it; none for a host copy -/
  issuer : Option Nat
  ctx : Nat
  launch : Option Nat
  kind : CopyKind
  parts : List CopyPart
  /-- units it moves in all, and those done -/
  units : Nat
  done : List Nat
  /-- (owner, token) pairs that complete with it -/
  tokens : List (Nat × BitVec 3)
  /-- the bead signalled: where it is held, and its number there; a host copy's is a whole number -/
  bead : Option (Place × Nat)
  hostBead : Option Nat
  /-- scratchpad lines whose presence bit it cleared -/
  cleared : List (Place × Nat)
  skidder : Nat
  /-- sets the destination entry's attribute to its source's (19 R320) -/
  carry : Bool
deriving DecidableEq, Repr

/-! ### Contexts -/

/-- A published queue entry that the hub has not taken (25 R376). -/
structure Published where
  fromHost : Bool
  slot : Nat
  seq : Nat
deriving DecidableEq, Repr

/-- One launch queue of a context (25 R375, R376). -/
structure LaunchQueue where
  qbase : Dword
  qctl : Dword
  qtail : Nat
  qhead : Nat
  devTail : Nat
  devHead : Nat
  entries : List Published
deriving DecidableEq, Repr

def LaunchQueue.reset : LaunchQueue := ⟨0, 0, 0, 0, 0, 0, []⟩

/-- A node of the work graph (07 R161, 25 R381). -/
structure Node where
  hdr : List Dword
  /-- pending records, oldest first, with the time of their REMIT -/
  pending : List (Dword × Nat)
  aborted : Bool
  /-- a record has been committed since the node last completed -/
  active : Bool
deriving DecidableEq, Repr

/-- The state of a record slot (03 R86). -/
inductive RecordStat where
  | committable (node : Nat)
  | pending (node : Nat)
  /-- of the batch of a crew: taken by the hub, or the crew runs -/
  | held (launch : Nat)
deriving DecidableEq, Repr

/-- A governor stream (23 R366, R367). -/
structure GovStream where
  deadline : Dword
  max : Nat
  min : Nat
  last : Nat
  samples : Nat
  avg : Nat
  /-- open starts, oldest first: (launch sequence, unit) and the time -/
  opens : List ((Nat × Nat) × Nat)
deriving DecidableEq, Repr

def GovStream.reset : GovStream := ⟨0, 1, 1, 0, 0, 0, []⟩

/-- An event ring (25 R379): events held by the hub while the ring is full, each with its dwords. -/
structure EventRing where
  base : Dword
  ctl : Dword
  head : Nat
  tail : Nat
  seq : Nat
  held : List (List Dword)
deriving DecidableEq, Repr

/-- An open shadow buffer (19 R326): its range and the shadow frames of the pages copied into so far. -/
structure Shadow where
  base : Nat
  len : Nat
  /-- physical base of the shadow of a page, by virtual address; 32 MiB pages among them -/
  frames : Tbl Nat
  large : List Nat
  /-- owners whose PUBLISH awaits the swap -/
  pending : List Nat
deriving DecidableEq, Repr

/-- Replay capture (26 R396). -/
structure Capture where
  base : Dword
  size : Nat
  used : Nat
  on : Bool
deriving DecidableEq, Repr

/-- A context (25 R375, 07 R146). -/
structure Context where
  live : Bool
  root : Dword
  queues : Tbl LaunchQueue
  mbx : Tbl Dword
  ring : EventRing
  hwbase : Dword
  hwsize : Dword
  leasemax : Dword
  gov : Tbl GovStream
  dbgctl : Dword
  dbgbpa : Tbl Dword
  nextSeq : Nat
  nodes : Tbl Node
  nodeCount : Nat
  /-- record pool: base, slot size, count; the state of the slots in use -/
  poolBase : Dword
  poolSize : Nat
  poolCount : Nat
  records : Tbl RecordStat
  shadows : List Shadow
  /-- the capture buffer named last, and whether capture is on (26 R396) -/
  capture : Option Capture
  /-- bytes of its save area (14 R252; log 120) -/
  saveArea : Nat
deriving DecidableEq, Repr

/-- A context register page after reset (25 R375). -/
def Context.reset : Context :=
  { live := false, root := 0, queues := [], mbx := [], ring := ⟨0, 0, 0, 0, 0, []⟩, hwbase := 0, hwsize := 0,
    leasemax := 0x0F00, gov := [], dbgctl := 0, dbgbpa := [], nextSeq := 1, nodes := [], nodeCount := 0, poolBase := 0,
    poolSize := 0, poolCount := 0, records := [], shadows := [], capture := none,
    saveArea := 144 * 950272 }

/-! ### Raster dies: front end, merger and guide channel -/

/-- Pixel strands the rasteriser has started and the hub has yet to gather into a bundle (20 R331). -/
structure FrontEnd where
  meshes : List Mesh
  /-- the mesh rasterised last, its pixels still to start, and the bundles packed from it -/
  current : Option Mesh
  pixels : List PixelIn
  packed : Nat
deriving DecidableEq, Repr

/-- The guide channel of a raster die (22 R354-R356). -/
structure GuideChannel where
  launch : Nat
  ctx : Nat
  endpoint : Dword
  slots : Nat
  fill : Nat
  free : Nat
  issued : Tbl Nat
  observed : Tbl Nat
  /-- the next guide tile to send, and the records merged so far by 65536 y + x -/
  next : Nat
  records : Tbl (List Word)
  width : Nat
  height : Nat
  /-- the wait at a free bead for the next guide tile has been served -/
  served : Bool
  done : Bool
deriving DecidableEq, Repr

/-! ### Links, boot and the rest of the hub -/

/-- A frame sent and not acknowledged: whether it is a credit frame, the copy it serves, how often it has been sent again. -/
structure Unacked where
  frame : LinkFrame
  copy : Nat
  resent : Nat
deriving DecidableEq, Repr

/-- One port and stream (25 R383-R385). -/
structure LinkStream where
  ctx : Nat
  sends : Nat
  recvs : Nat
  /-- receives posted, by index: the copy -/
  posted : Tbl Nat
  /-- credits arrived, by index: the capacity -/
  credits : Tbl Nat
  dataSeq : Nat
  creditSeq : Nat
  recvData : Nat
  recvCredit : Nat
  unacked : List Unacked
deriving DecidableEq, Repr

def LinkStream.fresh (ctx : Nat) : LinkStream := ⟨ctx, 0, 0, [], [], 0, 0, 0, 0, []⟩

/-- A port (25 R382). -/
structure Port where
  up : Bool
  foreign : Nat
  streams : Tbl LinkStream
  /-- frames sent, newest last: kind and frame -/
  sent : List (Nat × LinkFrame)
deriving DecidableEq, Repr

def Port.reset : Port := ⟨true, 0, [], []⟩

/-- The frame allocator's pool (15 R260, 25 R380). -/
structure FramePool where
  frames : List Nat
  threshold : Nat
deriving DecidableEq, Repr

/-- What a die is doing (23 R363, R364). -/
inductive DieStat where
  | running
  | resetting (deadline : Option Nat)
  | inReset
  | off
deriving DecidableEq, Repr

/-- The boot processor (26 R389-R391). -/
inductive BootPhase where
  | off
  | recovery
  | running
deriving DecidableEq, Repr

/-- The flash (26 R389, R390, R395). -/
structure Flash where
  recordA : FlashImage
  recordB : FlashImage
  slotA : FlashImage
  slotB : FlashImage
  fwsvn : Nat
  cfgsvn : Nat
  counterOk : Bool
  addendum : List (Nat × BitVec 4)
deriving DecidableEq, Repr

/-- What an entry of the error log reports (26 R395): TIME, ADDR, KIND, DIE, UNIT and the context of SYN. A happening the spec
calls logged without giving it a KIND has KIND 0 (DESIGN CHOICE, log 45). -/
structure LogEvent where
  time : Nat
  addr : Nat
  kind : Nat
  die : Nat
  unit : Nat
  ctx : Nat
deriving DecidableEq, Repr

/-- An entry of the error log, with its COUNT and its syndrome. -/
structure LogEntry where
  event : LogEvent
  count : Nat
  syndrome : Word
deriving DecidableEq, Repr

/-- The steps the power manager can take and undo (27 R398): a clock step of a half, or an idle share. -/
inductive PowerStep where
  | clock (tensor : Bool)
  | idle
deriving DecidableEq, Repr

/-- The power manager (27 R398, R399). -/
structure Power where
  plim : Nat
  /-- clocks of the raster and the tensor islands in MHz; idle sixteenths -/
  rasterClock : Nat
  tensorClock : Nat
  idle : Nat
  steps : List PowerStep
  badRails : List Rail
deriving DecidableEq, Repr

/-- Public instructions of the test access port (27 R400). -/
inductive TapInstr where
  | bypass
  | idcode
  | sample
  | extest
deriving DecidableEq, Repr

/-- The host command under way (25 R380): commands finish one before the next begins. -/
inductive CommandState where
  | idle
  | shootDown
  | hostCopy (copy : Nat)
  | dieReset (die : Nat) (off : Bool)
deriving DecidableEq, Repr

/-- A word that a store has replaced, and that the read-only path or fetch may still see (08 R181, R182; logs 11, 29). -/
structure OldWord where
  word : Word
  /-- the number of the store that replaced it; 0 where no read may see it -/
  gone : Nat
  /-- how far that store has come toward fetch: 0 dirty in a core's cache part, 1 in memory, 2 invalidated at an epoch -/
  stage : Nat
  epoch : Nat
  core : Nat
  /-- the host stored -/
  host : Bool
deriving DecidableEq, Repr

/-- An older form of a table entry that translation caches may hold, with the invalidations that have dropped it: unit, context, first
byte and length (15 R263; log 12). -/
structure OldMap where
  e0 : Dword
  e1 : Dword
  dropped : List (Nat × Nat × Nat × Nat)
deriving DecidableEq, Repr

/-! ### What is being issued -/

/-- Which agent issues next when no event is pending (log 3). -/
inductive Agent where
  | none
  | raster (core : Nat)
  | access (tile : Nat)
  | execute (tile : Nat)
deriving DecidableEq, Repr

/-- What the machine is issuing: the instruction's place, and who takes it (log 3). -/
structure Issue where
  profile : Profile
  ctx : Nat
  /-- address of the instruction, of its group, and its length in bytes -/
  pc : Dword
  gpc : Dword
  long : Bool
  /-- the complete bundles of the group by rising bundle index, or the tile -/
  owners : List Nat
  /-- the strands of the group, lowest bundle first, then lowest strand -/
  strands : List Nat
  /-- the conditions that can hold the group back have been found to hold already, in the state the group found (01 R20) -/
  cleared : Bool
  /-- the ACR an execute half uses, where a later SWRITE has already changed the stream's (18 R293) -/
  acr : Option Dword
deriving DecidableEq, Repr

def Issue.idle : Issue := ⟨.raster, 0, 0, 0, false, [], [], false, none⟩

/-- What has stopped a group (14 R235). -/
inductive Stopped where
  | trap (cause : BitVec 8) (addr : Dword) (origin : Option Origin)
  | fatal (cause : BitVec 8) (addr : Dword)
  | wait (w : Wait)
deriving DecidableEq, Repr

/-! ### The state -/

/-- The package. -/
structure State where
  /-- bytes by physical address; bit 51 names host memory (25 R374) -/
  mem : Tbl Byte
  /-- 4-bit tags of 32-byte granules by granule number (15 R257) -/
  tags : Tbl (BitVec 4)
  /-- 16-byte units marked uncorrectable (26 R395) -/
  marked : List Nat
  /-- the words that stores have replaced, by word address and oldest first; the invalidations of instruction caches so far; the
  stores so far; and the oldest store that a strand's reads of a word through the read-only path may still lack, by strand and word
  (08 R181, R182) -/
  stale : Tbl (List OldWord)
  epoch : Nat
  writes : Nat
  roSeen : Tbl Nat
  /-- older forms of table entries that a translation cache may still hold, by the entry's address (15 R263) -/
  oldMaps : Tbl (List OldMap)
  /-- device time in nanoseconds, and whether it is locked (25 R386) -/
  time : Nat
  tstatLock : Bool
  tstatOffset : Word
  freeCtr : Nat
  owners : Tbl Owner
  strands : Tbl Strand
  bundles : Tbl Bundle
  crews : Tbl Crew
  groves : Tbl Grove
  launches : Tbl Launch
  stays : Tbl Stay
  nextBundle : Nat
  cores : Tbl CoreState
  tiles : Tbl Tile
  savedTiles : List SavedTile
  ctxs : Tbl Context
  copies : Tbl Copy
  nextCopy : Nat
  /-- requests for a channel that wait, oldest first: skidder, owner, and the address of its group (22 R347) -/
  requests : List (Nat × Nat × Dword)
  beads : Tbl Bead
  dieBeadOwner : Tbl Nat
  frontEnds : Tbl FrontEnd
  channels : Tbl GuideChannel
  ports : Tbl Port
  smallPool : FramePool
  largePool : FramePool
  globalRing : EventRing
  /-- the command ring's progress and doorbell, the command under way, and the result in dword 7 of the last command to finish
  (25 R380; log 13) -/
  chead : Nat
  ctail : Nat
  command : CommandState
  cresult : Nat
  /-- what the last load of the host delivered, and the last response of the DOE mailbox (25 R374, 26 R392) -/
  hostData : List Byte
  doe : List Byte
  /-- an invalidation under way: context, range, and the units yet to acknowledge (15 R263) -/
  shoot : Option (Nat × Nat × Nat × List Nat)
  dies : Tbl DieStat
  boot : BootPhase
  flash : Flash
  errLog : List LogEntry
  persistLog : List LogEntry
  /-- corrected errors of each unit, by 65536 times its die code plus its index, saturating (26 R395) -/
  corrected : Tbl Nat
  power : Power
  /-- the record and the firmware boot has taken (26 R390); none before boot and in recovery -/
  usedRecord : Option FlashImage
  usedFirmware : Option FlashImage
  /-- the test port's instruction, and what its data register has captured (27 R400) -/
  tap : TapInstr
  tapData : Dword
  lastContext : Nat
  inbox : List Instr
  focus : Agent
  cur : Issue
  last : Option Stopped
deriving DecidableEq, Repr

/-- Faults: the machine stops. -/
inductive Fault where
  /-- An access to a physical address that no memory stands at (25 R374: device memory is 576 GiB). Raised by the operations
  that read and write physical memory. Safe: the model stops where the spec gives nothing. -/
  | noMemory (pa : Nat)
deriving DecidableEq, Repr

/-- Refusals: the model gives no meaning. -/
inductive Refusal where
  /-- An instruction whose meaning is not written. Raised by the arms of exec. Safe. -/
  | notModelled (mnemonic : String)
deriving DecidableEq, Repr

/-- A firmware image or a record that verifies, of version 0 (26 R390; DESIGN CHOICE, log 14). -/
def resetImage (isRecord slotB : Bool) : FlashImage :=
  ⟨isRecord, slotB, true, 0, 3600, [], [], [], 0x88B6, false, 2400, 2400, 0, [], [], []⟩

/-- The package at power good, before boot (26 R390): every compute island held in reset, every SRAM zero, flash with two
valid copies of each image (log 14), time 0 (25 R386), memory with nothing listed (log 1). -/
def State.reset : State :=
  { mem := [], tags := [], marked := [], stale := [], epoch := 0, writes := 0, roSeen := [], oldMaps := [], time := 0, tstatLock := false, tstatOffset := 0,
    freeCtr := 0, owners := [], strands := [], bundles := [], crews := [], groves := [], launches := [], stays := [],
    nextBundle := 288, cores := [], tiles := [], savedTiles := [], ctxs := [], copies := [], nextCopy := 0, requests := [], beads := [], dieBeadOwner := [],
    frontEnds := [], channels := [], ports := [], smallPool := ⟨[], 0⟩, largePool := ⟨[], 0⟩,
    globalRing := ⟨0, 0, 0, 0, 0, []⟩, chead := 0, ctail := 0, command := .idle, cresult := 0, hostData := [], doe := [], shoot := none,
    dies := [(0, .inReset), (1, .inReset), (2, .inReset), (3, .inReset), (4, .inReset), (5, .inReset)],
    boot := .off,
    flash := ⟨resetImage true false, resetImage true true, resetImage false false, resetImage false true, 0, 0, true, []⟩,
    errLog := [], persistLog := [], corrected := [], power := ⟨3600, 2400, 2400, 0, [], []⟩, usedRecord := none, usedFirmware := none,
    tap := .bypass, tapData := 0, lastContext := 0,
    inbox := [], focus := .none, cur := .idle, last := none }

end Sys2Proof.Machine
end

