-- ==== Sys2Proof/Machine/Ops.lean ====
section
/-! DEFINITION. The named operations over registers, owners, strands and physical memory, the posting of events, taking a
precise trap, ending a context on a fatal error, and parking: what every instruction's meaning is built from. -/

namespace Sys2Proof.Machine

open Host (Outcome)

/-- Why an effect does not complete: the group stops, or the machine does. -/
inductive Stop where
  | stopped (x : Stopped)
  | fault (f : Fault)
deriving DecidableEq, Repr

/-- An effect: a state, or why it stops. -/
abbrev Eff (α : Type) := Except Stop α

/-- `trap(cause)` of 02 R39 with TADDR. -/
def trapWith {α : Type} (cause : Nat) (addr : Dword) : Eff α :=
  .error (.stopped (.trap (BitVec.ofNat 8 cause) addr none))

/-- A fatal context error (14 R245). -/
def fatalWith {α : Type} (cause : Nat) (addr : Dword) : Eff α :=
  .error (.stopped (.fatal (BitVec.ofNat 8 cause) addr))

/-- The group waits (01 R23). -/
def waitWith {α : Type} (w : Wait) : Eff α := .error (.stopped (.wait w))

/-! ### Cause codes (14 R236) -/

def causeIllegalOpcode : Nat := 0x01
def causeOpcodeAbsent : Nat := 0x02
def causeIllegalLength : Nat := 0x03
def causeIllegalField : Nat := 0x04
def causeIllegalEncoding : Nat := 0x05
def causePoisonUse : Nat := 0x08
def causePoison : Nat := 0x09
def causeBadTarget : Nat := 0x0A
def causeLoopCount : Nat := 0x0B
def causeLoopDepth : Nat := 0x0C
def causeBarrierState : Nat := 0x0D
def causeNoGrove : Nat := 0x0E
def causeSoftware : Nat := 0x0F
def causeBreakpoint : Nat := 0x10
def causeSplitDenied : Nat := 0x11
def causeBadNode : Nat := 0x12
def causeBadRecord : Nat := 0x13
def causeMillImage : Nat := 0x14
def causeMillState : Nat := 0x15
def causeFlumeUnbound : Nat := 0x16
def causeBadStream : Nat := 0x17
def causeBadAddress : Nat := 0x18
def causeMisaligned : Nat := 0x19
def causeScratchRange : Nat := 0x1A
def causeFormatRange : Nat := 0x1B
def causeBadFormat : Nat := 0x1C
def causeTagMismatch : Nat := 0x1D
def causeProbeFault : Nat := 0x1E
def causeGfxState : Nat := 0x20
def causeMeshRange : Nat := 0x21
def causeBadDescriptor : Nat := 0x22
def causeRayStack : Nat := 0x23
def causeNonUniform : Nat := 0x28
def causeCopyBounds : Nat := 0x29
def causeMatrixState : Nat := 0x2A
def causeCopyState : Nat := 0x2B
def causeRestartLimit : Nat := 0x2C
def causeSoftError : Nat := 0x38
def causeRemoteAtomic : Nat := 0x39
def causeNotResident : Nat := 0x40
def causePermission : Nat := 0x41
def causeSplitFetch : Nat := 0x42
def causeFetchFault : Nat := 0x43
def causeStateLost : Nat := 0x44
def causeHostEnd : Nat := 0x45

/-! ### Parts of the state by key -/

/-- The owner with a key: a tile's number below 288, a bundle's uid from 288 on. -/
def State.owner (s : State) (o : Nat) : Owner := Tbl.getD s.owners o Owner.fresh
/-- Replace an owner. -/
def State.setOwner (s : State) (o : Nat) (w : Owner) : State := { s with owners := Tbl.insert s.owners o w }
/-- The strand with a key: 64 times the bundle's uid plus the strand index. -/
def State.strand (s : State) (i : Nat) : Strand := Tbl.getD s.strands i (Strand.fresh 0)
def State.setStrand (s : State) (i : Nat) (x : Strand) : State := { s with strands := Tbl.insert s.strands i x }
def State.core (s : State) (c : Nat) : CoreState := Tbl.getD s.cores c CoreState.idle
def State.setCore (s : State) (c : Nat) (x : CoreState) : State := { s with cores := Tbl.insert s.cores c x }
def State.tile (s : State) (t : Nat) : Tile := Tbl.getD s.tiles t Tile.reset
def State.setTile (s : State) (t : Nat) (x : Tile) : State := { s with tiles := Tbl.insert s.tiles t x }
def State.ctx (s : State) (c : Nat) : Context := Tbl.getD s.ctxs c Context.reset
def State.setCtx (s : State) (c : Nat) (x : Context) : State := { s with ctxs := Tbl.insert s.ctxs c x }
def State.setBundle (s : State) (b : Nat) (x : Bundle) : State := { s with bundles := Tbl.insert s.bundles b x }
def State.setCrew (s : State) (c : Nat) (x : Crew) : State := { s with crews := Tbl.insert s.crews c x }
def State.setLaunch (s : State) (l : Nat) (x : Launch) : State := { s with launches := Tbl.insert s.launches l x }
def State.die (s : State) (d : Nat) : DieStat := Tbl.getD s.dies d .running

/-- The bundle of a strand, and its index in it. -/
def strandBundle (i : Nat) : Nat := i / 64
def strandIndex (i : Nat) : Nat := i % 64
/-- The owner is a tile stream. -/
def ownerIsTile (o : Nat) : Bool := decide (o < 288)

/-- The crew of a bundle. -/
def State.crewOf (s : State) (b : Nat) : Option (Nat × Crew) :=
  match Tbl.find? s.bundles b with
  | none => none
  | some x => (Tbl.find? s.crews x.crew).map (fun c => (x.crew, c))

/-- The launch of an owner. -/
def State.launchOf (s : State) (o : Nat) : Option Nat :=
  if ownerIsTile o then (s.tile o).stream.map (fun st => st.launch)
  else (s.crewOf o).map (fun c => c.2.launch)

/-- The context of a launch, and of an owner. -/
def State.launchCtx (s : State) (l : Nat) : Nat := ((Tbl.find? s.launches l).map (fun (x : Launch) => x.ctx)).getD 0
def State.ownerCtx (s : State) (o : Nat) : Nat := ((s.launchOf o).map s.launchCtx).getD 0

/-- The die whose stacks hold an address: twelve stacks, two on each of six dies (PRESUMED, log 53). -/
def dieOfAddr (pa : Nat) : Nat := pa / (96 * 2 ^ 30)

/-- The core an owner's crew is resident on. -/
def State.coreOf (s : State) (o : Nat) : Option Nat :=
  match s.crewOf o with
  | some (_, c) => c.core
  | none => none

/-- The die of an owner: 0-2 for G0-G2, 3-5 for T0-T2 (03 R76). -/
def State.dieOf (s : State) (o : Nat) : Nat :=
  if ownerIsTile o then 3 + o / 96
  else match s.coreOf o with
    | some c => c / 48
    | none => 0

/-- The key of a strand. -/
def strandKey (b i : Nat) : Nat := 64 * b + i

/-- Whether a strand is live: created and not ended (03). -/
def Strand.live (x : Strand) : Bool := x.stat != .dead

/-- The live strands of a bundle, by rising index (06 R127). -/
def State.liveStrands (s : State) (b : Nat) : List Nat :=
  ((List.range 64).map (strandKey b)).filter (fun i =>
    match Tbl.find? s.strands i with
    | some x => x.live
    | none => false)

/-- The owners a group's stop concerns: its complete bundles and the bundles of its strands, once each. -/
def Issue.allOwners (c : Issue) : List Nat := (c.owners ++ c.strands.map strandBundle).eraseDups

/-! ### Registers -/

/-- s(r) of an owner; s0 reads zero (03 R56). -/
def State.getS (s : State) (o : Nat) (r : BitVec 6) : Tagged 64 :=
  if r = 0 then .zero 64 else Tbl.getD (s.owner o).s r.toNat (.zero 64)

/-- Write s(r) of an owner; a write to s0 is discarded (01 R20, 03 R56). -/
def State.setS (s : State) (o : Nat) (r : BitVec 6) (x : Tagged 64) : State :=
  if r = 0 then s
  else s.setOwner o { s.owner o with s := Tbl.put (.zero 64) (s.owner o).s r.toNat x }

/-- Write a plain value to s(r). -/
def State.putS (s : State) (o : Nat) (r : BitVec 6) (x : Dword) : State := s.setS o r ⟨x, none⟩

/-- v(n) of a strand. -/
def State.getV (s : State) (i : Nat) (n : Nat) : Tagged 32 := Tbl.getD (s.strand i).v n (.zero 32)

/-- Write v(n) of a strand. -/
def State.setV (s : State) (i : Nat) (n : Nat) (x : Tagged 32) : State :=
  s.setStrand i { s.strand i with v := Tbl.put (.zero 32) (s.strand i).v n x }

/-- Write a plain value to v(n). -/
def State.putV (s : State) (i : Nat) (n : Nat) (x : Word) : State := s.setV i n ⟨x, none⟩

/-- The pair d(n): v(2n) low, v(2n+1) high; poisoned when either half is, the low half's origin first (04 R94). -/
def State.getD2 (s : State) (i : Nat) (n : Nat) : Tagged 64 :=
  let lo := s.getV i (2 * n)
  let hi := s.getV i (2 * n + 1)
  match lo.poison.or hi.poison with
  | some k => ⟨0, some k⟩
  | none => ⟨hi.val ++ lo.val, none⟩

/-- Write the pair d(n). -/
def State.setD2 (s : State) (i : Nat) (n : Nat) (x : Tagged 64) : State :=
  (s.setV i (2 * n) ⟨x.val.extractLsb' 0 32, x.poison⟩).setV i (2 * n + 1) ⟨x.val.extractLsb' 32 32, x.poison⟩

/-- p(n) of a strand; p0 reads true (00 R9). -/
def State.getP (s : State) (i : Nat) (n : Nat) : Bool := n == 0 || (s.strand i).p.getLsbD n

/-- Write p(n); a write to p0 is discarded (01 R20). -/
def State.setP (s : State) (i : Nat) (n : Nat) (v : Bool) : State :=
  if n = 0 then s
  else
    let x := s.strand i
    let bit : BitVec 8 := 1#8 <<< n
    s.setStrand i { x with p := if v then x.p ||| bit else x.p &&& ~~~bit }

/-- Whether a guard lets a strand act (01 R15). -/
def State.guardOn (s : State) (g : Guard) (i : Nat) : Bool := s.getP i g.pg.toNat != g.neg

/-! ### ACR (02 R40) -/

def State.acr (s : State) (o : Nat) : Dword := (s.owner o).acr
def acrMode (a : Dword) : FMode := modeOfNat (a.toNat / 32)
def acrFz (a : Dword) : Bool := a.getLsbD 7
def acrOfs (a : Dword) : Bool := a.getLsbD 8

/-- Raise sticky flags in an owner's ACR, and in the value a SWRITE of the same group has left (02 R40, 01 R20). -/
def State.raise (s : State) (o : Nat) (f : FFlags) : State :=
  if f = FFlags.none then s
  else
    let w := s.owner o
    let bits : Dword := BitVec.ofNat 64 f.toNat
    s.setOwner o { w with acr := w.acr ||| bits, acrNext := w.acrNext.map (fun x => x ||| bits) }

/-! ### Poison (14 R240, R241) -/

/-- The origin indices in use by a tile or bundle: those some register of it holds. -/
def State.originsInUse (s : State) (o : Nat) : List (BitVec 3) :=
  (s.owner o).s.filterMap (fun e => e.2.poison) ++
    (if ownerIsTile o then
      match (s.tile o).stream with
      | some st => st.w.filterMap (fun e => e.2.poison)
      | none => []
    else
      ((List.range 64).map (fun i => (s.strand (strandKey o i)).v.filterMap (fun e => e.2.poison))).flatten)

/-- The lowest index not in use, or 7 (14 R240). -/
def lowestFree (used : List (BitVec 3)) : BitVec 3 :=
  match (List.range 8).find? (fun k => !used.contains (BitVec.ofNat 3 k)) with
  | some k => BitVec.ofNat 3 k
  | none => 7

/-- Enter a new poison event in an owner's origin table: the index it takes (14 R240). -/
def State.newOrigin (s : State) (o : Nat) (x : Origin) : BitVec 3 × State :=
  let k := lowestFree (s.originsInUse o)
  (k, s.setOwner o { s.owner o with origins := Tbl.insert (s.owner o).origins k.toNat x })

/-- The origin record an index names. -/
def State.originAt (s : State) (o : Nat) (k : BitVec 3) : Origin :=
  Tbl.getD (s.owner o).origins k.toNat ⟨0, 0, false, 0, 0⟩

/-- A use of poison: the precise trap with the register's origin (14 R237). -/
def poisonTrap {α : Type} (s : State) (cause : Nat) (o : Nat) (k : BitVec 3) : Eff α :=
  let x := s.originAt o k
  .error (.stopped (.trap (BitVec.ofNat 8 cause) x.addr (some x)))

/-- A scalar register that must not be poisoned (03 R55). -/
def State.useS (s : State) (o : Nat) (r : BitVec 6) : Eff Dword :=
  match (s.getS o r).poison with
  | some k => poisonTrap s causePoisonUse o k
  | none => .ok (s.getS o r).val

/-! ### Free values and device time -/

/-- The next free value (log 5). -/
def State.free (s : State) : Dword × State := (Config.freeValue s.freeCtr, { s with freeCtr := s.freeCtr + 1 })

/-- A read of device time: it never goes back, and what passes between reads is open (23 R360; log 16). -/
def State.readTime (s : State) : Nat × State :=
  let t := s.time + Config.elapsed s.freeCtr
  (t, { s with time := t, freeCtr := s.freeCtr + 1 })

/-! ### Physical memory -/

/-- Bit 51 of a device physical address names host memory (25 R374). -/
def isHostAddr (pa : Nat) : Bool := pa.testBit 51

/-- Whether memory stands at a physical address (25 R374). -/
def paExists (pa : Nat) : Bool :=
  decide (pa < Config.deviceBytes) || (isHostAddr pa && decide (pa < 2 ^ 52))

/-- A byte of memory; an unlisted byte reads as 0 (DESIGN CHOICE, log 1). -/
def State.byte (s : State) (pa : Nat) : Byte := Tbl.getD s.mem pa 0

/-- Write a byte. -/
def State.setByte (s : State) (pa : Nat) (v : Byte) : State := { s with mem := Tbl.put 0 s.mem pa v }

/-- n bytes from an address as a little-endian natural (00 R6). -/
def State.readLE (s : State) (pa : Nat) : Nat → Nat
  | 0 => 0
  | n + 1 => (s.byte pa).toNat + 256 * s.readLE (pa + 1) n

/-- Write n bytes little-endian. -/
def State.writeLE (s : State) (pa : Nat) : Nat → Nat → State
  | 0, _ => s
  | n + 1, v => (s.setByte pa (BitVec.ofNat 8 v)).writeLE (pa + 1) n (v / 256)

/-- Write a list of bytes. -/
def State.writeBytes (s : State) (pa : Nat) (bs : List Byte) : State :=
  match bs with
  | [] => s
  | b :: rest => (s.setByte pa b).writeBytes (pa + 1) rest

/-- n bytes from an address. -/
def State.readBytes (s : State) (pa n : Nat) : List Byte := (List.range n).map (fun i => s.byte (pa + i))

/-- Keep the word that stands at an aligned address beside the one a store puts there: `x` says what the store is (08 R181, R182). -/
def State.noteWord (s : State) (x : OldWord) (w : Nat) : State :=
  { s with stale := Tbl.insert s.stale w (Tbl.getD s.stale w [] ++ [{ x with word := BitVec.ofNat 32 (s.readLE w 4) }]) }

/-- What the next store leaves beside each word it replaces, which a later fetch may still see (08 R182; log 11); `stage` is how far the
writing path has brought it: 0 held dirty in a core's cache part, 1 in memory. -/
def State.oldWord (s : State) (stage : Nat) : OldWord :=
  ⟨0, s.writes + 1, stage, 0, (s.coreOf (s.cur.allOwners.headD 0)).getD 0, false⟩

/-- The dword at a physical address. -/
def State.readDword (s : State) (pa : Nat) : Dword := BitVec.ofNat 64 (s.readLE pa 8)

/-- Remember the form of a table entry that a store is about to replace: a translation cache holds entries with V = 1 (15 R263; log
12). -/
def State.noteEntry (s : State) (e : Nat) : State :=
  let x := (s.readDword e, s.readDword (e + 8))
  let olds := (Tbl.getD s.oldMaps e []).filter (fun (m : OldMap) => !(m.e0 == x.1 && m.e1 == x.2))
  if x.1.getLsbD 0 then { s with oldMaps := Tbl.insert s.oldMaps e (olds ++ [⟨x.1, x.2, []⟩]) } else s

/-- Remember the forms of every table entry that n bytes from an address touch. -/
def State.noteEntries (s : State) (pa n : Nat) : State :=
  if n = 0 then s
  else (List.range ((pa + n - 1) / 16 - pa / 16 + 1)).foldl (fun t i => t.noteEntry (16 * (pa / 16 + i))) s

/-- Keep every word that n bytes from an address touch: a store of them is the next. -/
def State.noteStore (s : State) (x : OldWord) (pa n : Nat) : State :=
  if n = 0 then s
  else { (List.range ((pa + n - 1) / 4 - pa / 4 + 1)).foldl (fun (t : State) i => t.noteWord x (4 * (pa / 4 + i))) s with
         writes := s.writes + 1 }

/-- Keep every word, and every table entry, that a store of n bytes to an address replaces. -/
def State.noteWords (s : State) (pa n stage : Nat) : State := (s.noteStore (s.oldWord stage) pa n).noteEntries pa n

/-- Whether any 16-byte unit under n bytes is marked uncorrectable (26 R395). -/
def State.isMarked (s : State) (pa n : Nat) : Bool :=
  s.marked.any (fun u => decide (pa / 16 ≤ u) && decide (u ≤ (pa + n - 1) / 16))

/-- Hub writes reach memory where memory stands; elsewhere nothing is written (log 24). -/
def State.hubWrite (s : State) (pa n v : Nat) : State :=
  if paExists pa then s.writeLE pa n v else s


/-! ### Events (25 R379) -/

/-- Entries of an event ring, 0 where EVCTL names no size (25 R375). -/
def EventRing.size (r : EventRing) : Nat :=
  let k := r.ctl.toNat % 16
  if 4 ≤ k ∧ k ≤ 12 then 2 ^ k else 0

def EventRing.isFull (r : EventRing) : Bool := r.size == 0 || (r.tail + 1) % r.size == r.head % r.size

/-- Write an entry of eight dwords at the ring's production index, in host memory. -/
def State.ringWrite (s : State) (r : EventRing) (ds : List Dword) : State :=
  let at0 := 2 ^ 51 + r.base.toNat % 2 ^ 51 + 64 * r.tail
  (List.range 8).foldl (fun t i => t.hubWrite (at0 + 8 * i) 8 (ds.getD i 0).toNat) s

/-- The kind of a held entry (25 R379). -/
def eventKind (ds : List Dword) : Nat := (ds.getD 0 0).toNat / 2 ^ 56

/-- Drop the oldest held event that is neither a trap nor a fatal record. -/
def dropOldest (held : List (List Dword)) : List (List Dword) :=
  match held with
  | [] => []
  | e :: rest => if eventKind e == 1 || eventKind e == 2 then e :: dropOldest rest else rest

/-- The launch words of the trap records that cannot be held: those past the 64 events that the hub holds for a ring (25 R379). -/
def EventRing.unheld (r : EventRing) : List Dword :=
  (r.held.drop 64).filterMap (fun e => if eventKind e == 1 then some (e.getD 1 0) else none)

/-- Put an entry in a ring, or hold it while the ring is full (25 R379): the ring and the memory after. -/
def State.ringPost (s : State) (r : EventRing) (kind : Nat) (ops : List Dword) : EventRing × State :=
  let e := BitVec.ofNat 64 (kind * 2 ^ 56 + r.seq % 2 ^ 56) :: ops
  let r1 := { r with seq := r.seq + 1 }
  if r.isFull then
    let h := r.held ++ [e]
    if decide (64 < h.length) then
      let left := dropOldest h
      ({ r1 with held := left, ctl := if left.length < h.length then r.ctl ||| 0x100 else r.ctl }, s)
    else ({ r1 with held := h }, s)
  else ({ r1 with tail := (r.tail + 1) % r.size }, s.ringWrite r e)

/-- Post an event to a context's ring. -/
def State.post (s : State) (ctx kind : Nat) (ops : List Dword) : State :=
  let r := s.ringPost (s.ctx ctx).ring kind ops
  r.2.setCtx ctx { r.2.ctx ctx with ring := r.1 }

/-- Post an event that belongs to no context. -/
def State.postGlobal (s : State) (kind : Nat) (ops : List Dword) : State :=
  let r := s.ringPost s.globalRing kind ops
  { r.2 with globalRing := r.1 }

/-! ### Commands of the host (25 R380) -/

/-- A command finishes: dword 7 of its entry receives the result, and the progress index advances (log 13). -/
def State.finishCommand (s : State) (r : Nat) : State :=
  { s with command := .idle, cresult := r, chead := s.chead + 1 }

/-! ### The error log (26 R395) -/

/-- Add a corrected error to a unit's 32-bit count. -/
def State.countCorrected (s : State) (die unit : Nat) : State :=
  let k := 65536 * die + unit
  { s with corrected := Tbl.insert s.corrected k (min (2 ^ 32 - 1) (Tbl.getD s.corrected k 0 + 1)) }

/-- Drop an entry of a full log: the oldest corrected one, else the oldest. -/
def dropEntry (l : List LogEntry) : List LogEntry :=
  if l.any (fun x => x.event.kind == 1) then l.eraseP (fun x => x.event.kind == 1) else l.drop 1

/-- Append to the error log of 1,024 entries. Uncorrectable entries also go to the persistent log. The syndrome is free. -/
def State.log (s : State) (e : LogEvent) : State :=
  let x : LogEntry := ⟨e, Tbl.getD s.corrected (65536 * e.die + e.unit) 0, (s.free.1.extractLsb' 0 16).setWidth 32⟩
  let base := if 1024 ≤ s.errLog.length then dropEntry s.errLog else s.errLog
  { s.free.2 with errLog := base ++ [x], persistLog := if e.kind = 2 then s.persistLog ++ [x] else s.persistLog }

/-! ### Replay and capture (08 R185, 26 R396) -/

/-- The reporter index of an owner: its bundle index, or its tile linear index (23 R367). -/
def State.reporterIndex (s : State) (o : Nat) : Nat :=
  if ownerIsTile o then (match (s.tile o).stream with | some st => st.reporter | none => o % 96)
  else match Tbl.find? s.bundles o with
    | some x => x.index
    | none => o

/-- The REPLAY flag of a header: H3[49] (07 R144). -/
def hdrReplay (h : List Dword) : Bool := (h.getD 3 0).getLsbD 49

/-- The value of the entry of a capture buffer of `n` bytes for a reporter, strand and ordinal (26 R396; log 26). -/
def State.replayEntry (s : State) (base : Nat) (idx st ord : Nat) : Nat → Option Dword
  | 0 => none
  | k + 1 =>
    let d1 := s.readLE (base + 32 * k + 8) 8
    if d1 / 2 ^ 32 = idx ∧ d1 % 256 = st ∧ s.readLE (base + 32 * k + 24) 8 = ord then
      some (BitVec.ofNat 64 (s.readLE (base + 32 * k + 16) 8))
    else s.replayEntry base idx st ord k

/-- Append an entry to the context's capture buffer; a full buffer stops capture and logs KIND 6. -/
def State.captureValue (s : State) (c seq idx st ord kind : Nat) (v : Dword) : State :=
  let x := s.ctx c
  match x.capture with
  | none => s
  | some b =>
    if !b.on then s
    else if b.size < b.used + 32 then
      (s.setCtx c { x with capture := some { b with on := false } }).log ⟨s.time, b.base.toNat, 6, 6, 0, c⟩
    else
      let at0 := b.base.toNat + b.used
      let s1 := (((s.hubWrite at0 8 (kind * 2 ^ 56 + seq % 2 ^ 56)).hubWrite (at0 + 8) 8 (idx % 2 ^ 32 * 2 ^ 32 + st)).hubWrite
        (at0 + 16) 8 v.toNat).hubWrite (at0 + 24) 8 ord
      s1.setCtx c { x with capture := some { b with used := b.used + 32 } }

/-- Deliver a value of the first seven rows of R184 to strand `st` of an owner: the live value, or in a launch with REPLAY set
the recorded one, and what capture records; an entry's kind is the value's row in R184's table, from 1 (DESIGN CHOICE, log 128). None
says that the replay found no entry. -/
def State.deliverWith (s : State) (o st kind : Nat) (live : Dword) : Option Dword × State :=
  match s.launchOf o with
  | none => (some live, s)
  | some l =>
    match Tbl.find? s.launches l with
    | none => (some live, s)
    | some x =>
      let idx := s.reporterIndex o
      let key := 64 * idx + st
      let ord := Tbl.getD x.ordinals key 0
      let s1 := s.setLaunch l { x with ordinals := Tbl.insert x.ordinals key (ord + 1) }
      if hdrReplay x.hdr then
        (match x.replay with
         | none => none
         | some (b, n) => s1.replayEntry b.toNat idx st ord (n / 32), s1)
      else (some live, s1.captureValue x.ctx x.seq idx st ord kind live)

/-- Deliver a value, live with a KIND 7 entry where a replay has none (26 R396). -/
def State.deliver (s : State) (o st kind : Nat) (live : Dword) : Dword × State :=
  match s.deliverWith o st kind live with
  | (some v, t) => (v, t)
  | (none, t) => (live, t.log ⟨t.time, 0, 7, t.dieOf o, 0, t.cur.ctx⟩)

/-! ### Completion slots (25 R376, R377) -/

/-- Write the completion slot of a launch taken from a host ring; a node or a device-ring launch has none. -/
def State.writeSlot (s : State) (ctx : Nat) (from_ : LaunchFrom) (status : Nat) (seq evseq : Nat) : State :=
  match from_ with
  | .hostRing q slot =>
    let qq := Tbl.getD (s.ctx ctx).queues q LaunchQueue.reset
    let n := 2 ^ (qq.qctl.toNat % 16)
    let at0 := qq.qbase.toNat + 64 * n + 16 * slot
    (s.hubWrite at0 8 (status * 2 ^ 56 + seq % 2 ^ 56)).hubWrite (at0 + 8) 8 evseq
  | _ => s

/-! ### Ending work -/

/-- A strand ends. -/
def State.killStrand (s : State) (i : Nat) : State :=
  s.setStrand i { s.strand i with stat := .dead, loops := [] }

/-- Change a tile's stream. -/
def State.setStream (s : State) (t : Nat) (f : Stream → Stream) : State :=
  let k := s.tile t
  s.setTile t { k with stream := k.stream.map f }

/-- The wait state of an owner that waits at a bead becomes served. -/
def State.markServed (s : State) (o : Nat) : State :=
  if ownerIsTile o then s.setStream o (fun (st : Stream) =>
    { st with wait := some (.bead true), parked := Tbl.mapVals (fun w => if w = .bead false then .bead true else w) st.parked })
  else (s.liveStrands o).foldl (fun t i => match (t.strand i).stat with
    | .parked (.bead _) => t.setStrand i { t.strand i with stat := .parked (.bead true) }
    | .stopped (some (.bead _)) => t.setStrand i { t.strand i with stat := .stopped (some (.bead true)) }
    | _ => t) s

/-- A wait at the head of a bead's queue is served: the waiter learns of it (22 R352). -/
def State.serveWaiter (s : State) (w : Waiter) : State :=
  match w with
  | .owner o => s.markServed o
  | .launch l => match Tbl.find? s.launches l with
    | some x => if x.phase = .waiting then s.setLaunch l { x with phase := .running } else s
    | none => s
  | .channel d => match Tbl.find? s.channels d with
    | some x => { s with channels := Tbl.insert s.channels d { x with served := true } }
    | none => s

/-- The waits that a count serves from the head of a queue: what is left of both, and who was served. -/
def serveQueue (count : Nat) : List (Waiter × Nat) → Nat × List (Waiter × Nat) × List Waiter
  | [] => (count, [], [])
  | (w, k) :: rest =>
    if k ≤ count then
      let r := serveQueue (count - k) rest
      (r.1, r.2.1, w :: r.2.2)
    else (count, (w, k) :: rest, [])

/-- A bead without the waits of work that is gone, and those behind them that it now serves. -/
def Bead.leave (gone : Waiter → Bool) (b : Bead) : Bead × List Waiter :=
  let q := b.queue.filter (fun e => !gone e.1)
  if b.brk || q.length == b.queue.length then ({ b with queue := q }, [])
  else
    let r := serveQueue b.count q
    ({ b with count := r.1, queue := r.2.1 }, r.2.2)

def beadsLeave (gone : Waiter → Bool) (bs : Tbl Bead) : Tbl Bead := Tbl.mapVals (fun b => (b.leave gone).1) bs
def beadsServe (gone : Waiter → Bool) (bs : Tbl Bead) : List Waiter := (bs.map (fun e => (e.2.leave gone).2)).flatten

/-- Waits of work that is gone leave every bead's queue, and what they held back is served (22 R352). -/
def State.leaveBeads (s : State) (gone : Waiter → Bool) : State :=
  let served := beadsServe gone s.beads ++ (s.stays.map (fun e => beadsServe gone e.2.beads)).flatten
  let t := { s with beads := beadsLeave gone s.beads,
                    stays := Tbl.mapVals (fun (x : Stay) => { x with beads := beadsLeave gone x.beads }) s.stays }
  served.foldl State.serveWaiter t

/-- An owner's waits leave every bead. -/
def State.forgetWaits (s : State) (o : Nat) : State := s.leaveBeads (fun w => w == .owner o)

/-- Take strands out of a run; an empty run leaves the issue slot. -/
def runWithout (gone : Nat → Bool) (r : Option Run) : Option Run :=
  match r with
  | none => none
  | some x =>
    let ms := x.members.filter (fun i => !gone (strandBundle i))
    if ms.isEmpty then none else some { x with members := ms }

/-- A follower's queue is freed with its leader. -/
def Tile.unslave (leader : Nat) (x : Tile) : Tile :=
  if x.slavedTo = some leader then { x with slavedTo := none } else x

/-- The crew a bundle belongs to, a bundle that has ended among them. -/
def State.crewIs (s : State) (b c : Nat) : Bool := ((Tbl.find? s.bundles b).map (fun (x : Bundle) => x.crew)) == some c

/-- What a crew has left in the front ends goes with it: its meshes, and its pixels that have still to start (14 R238). -/
def State.dropMeshes (s : State) (c : Nat) : State :=
  let cut (f : FrontEnd) : FrontEnd :=
    let f1 := { f with meshes := f.meshes.filter (fun m => !s.crewIs m.bundle c) }
    if f.current.any (fun m => s.crewIs m.bundle c) then { f1 with current := none, pixels := [] } else f1
  { s with frontEnds := Tbl.mapVals cut s.frontEnds }

/-- Stop a crew and free what it holds: its strands end, its mill is freed, its waits and its meshes are gone (14 R238, R245). -/
def State.stopCrew (s : State) (c : Nat) : State :=
  match Tbl.find? s.crews c with
  | none => s
  | some x =>
    let s1 := x.bundles.foldl (fun t b => (s.liveStrands b).foldl State.killStrand t) (s.dropMeshes c)
    let s2 := x.bundles.foldl State.forgetWaits s1
    let s3 := match x.core with
      | none => s2
      | some k =>
        let cs := s2.core k
        let gone (b : Nat) : Bool := x.bundles.contains b
        let run := runWithout gone cs.run
        let mill := match cs.mill with
          | some m => if gone m.holder then none else some m
          | none => none
        s2.setCore k { cs with run := run, mill := mill, active := cs.active.filter (fun y => y != c),
                               evict := cs.evict.filter (fun y => y != c) }
    s3.setCrew c { x with ended := true, core := none, saved := false, scratch := [], flumes := [], records := [], meshes := [] }

/-- Return records to the free list of a context's pool (07 R161). -/
def State.freeRecords (s : State) (ctx : Nat) (rs : List Dword) : State :=
  let x := s.ctx ctx
  s.setCtx ctx { x with records := rs.foldl (fun t r => Tbl.erase t r.toNat) x.records }

/-- Take a tile's stream away: the tile stays its context's (18 R305), and a fence that waited for the stream takes effect on
the idle tile (26 R392). -/
def State.dropStream (s : State) (t : Nat) : State :=
  let x := s.tile t
  let s1 := s.forgetWaits t
  let s2 := s1.setTile t { x with stream := none, mats := [], feed := none, preempt := false,
                                  fenced := x.fenced ||| x.fenceDue, fenceDue := 0 }
  -- a pair is released with its leader
  { s2 with tiles := Tbl.mapVals (Tile.unslave t) s2.tiles }

/-- Abort a launch (14 R238): every crew stops and is freed; its slot receives the abort and the event number. An aborted
node also loses its pending records, and later ones return to the pool. -/
def State.abortLaunch (s : State) (l : Nat) (evseq : Nat) : State :=
  match Tbl.find? s.launches l with
  | none => s
  | some x =>
    let same (y : Launch) : Bool :=
      match x.origin, y.origin with
      | .node n, .node m => y.ctx == x.ctx && n == m
      | _, _ => false
    let ids := l :: (s.launches.filter (fun e => e.1 != l && same e.2 && (e.2.phase == .running || e.2.phase == .waiting))).map Prod.fst
    let crews := s.crews.filter (fun e => ids.contains e.2.launch && !e.2.ended)
    -- a crew of a node that has not been placed holds its batch in its launch
    let unplaced := ids.filterMap (fun k => match Tbl.find? s.launches k with
      | some y => if y.nextCrew < y.crewCount then some y.batch else none
      | none => none)
    let held := (crews.map (fun e => e.2.records)).flatten ++ unplaced.flatten
    let s1 := (crews.map Prod.fst).foldl State.stopCrew (s.leaveBeads (fun w => ids.any (fun k => w == .launch k)))
    let s2 := x.tiles.foldl (fun t k => if (t.tile k).stream.any (fun st => st.launch == l) then t.dropStream k else t)
      { s1 with savedTiles := s1.savedTiles.filter (fun y => y.launch != l) }
    let s3 := ids.foldl (fun t k => match Tbl.find? t.launches k with
      | some y => t.setLaunch k { y with phase := .aborted, frags := [] }
      | none => t) s2
    match x.origin with
    | .node n =>
      let c := s3.ctx x.ctx
      let nd := Tbl.getD c.nodes n ⟨[], [], false, false⟩
      (s3.setCtx x.ctx { c with nodes := Tbl.insert c.nodes n { nd with pending := [], aborted := true } }).freeRecords x.ctx
        (held ++ nd.pending.map Prod.fst)
    | o => s3.writeSlot x.ctx o 0x90 x.seq evseq

/-! ### Taking a precise trap (14 R235-R238) -/

/-- TCAUSE (14 R237). -/
def tcauseWord (cause : BitVec 8) (x : Option Origin) : Dword :=
  match x with
  | none => cause.setWidth 64
  | some y =>
    (0 : BitVec 24) ++ y.cause ++ BitVec.ofBool y.omill ++ y.ostage ++ y.ostrand ++ (0 : BitVec 8) ++ cause

/-- The mask of a bundle's strands among those of a group. -/
def strandMask (b : Nat) (is : List Nat) : Dword :=
  is.foldl (fun m i => if strandBundle i = b then m ||| (1#64 <<< strandIndex i) else m) 0

/-- DBGSTAT with a new STATE field (14 R255). -/
def dbgState (d : Dword) (st : Dword) : Dword := (d &&& ~~~7#64) ||| st

/-- Write an owner's trap registers and halt state (14 R237, R255). -/
def State.trapOwner (s : State) (cause : BitVec 8) (addr : Dword) (x : Option Origin) (pc : Dword) (o : Nat) : State :=
  let w := s.owner o
  s.setOwner o { w with tcause := tcauseWord cause x, taddr := addr, tpc := pc, dbgstat := dbgState w.dbgstat 1,
                        acrNext := none }

/-- A strand of a trapping group becomes trap-halted at the group's pc (14 R238), which at a breakpoint remembers where it stands
(06 R143). -/
def State.haltStrand (s : State) (pc : Dword) (cause : BitVec 8) (i : Nat) : State :=
  let x := s.strand i
  s.setStrand i { x with stat := .halted, pc := pc, moved := false, trapCause := cause, stopDue := false,
                         bpSkip := if cause.toNat = causeBreakpoint then some s.cur.pc else x.bpSkip }

/-- A tile's stream becomes trap-halted: what is in flight on the execute side is discarded (14 R243, 18 R298). -/
def Tile.halt (x : Tile) (cause : BitVec 8) (pc : Dword) : Tile :=
  { x with mats := [], stream := x.stream.map (fun (st : Stream) =>
      { st with halted := true, flying := [], hidden := [], mark := none,
                bpSkip := if cause.toNat = causeBreakpoint then some pc else st.bpSkip }) }

/-- Whether a strand is in the run of its core's issue slot. -/
def State.inRun (s : State) (i : Nat) : Bool :=
  match s.coreOf (strandBundle i) with
  | some k => (match (s.core k).run with
    | some r => r.members.contains i
    | none => false)
  | none => false

/-- DBGSTAT of a bundle that all-stop stops: STATE 2, unless it holds a trap-halted strand (14 R255). -/
def State.markStopped (s : State) (b : Nat) : State :=
  if (s.liveStrands b).any (fun i => (s.strand i).stat == .halted) then s
  else s.setOwner b { s.owner b with dbgstat := dbgState (s.owner b).dbgstat 2 }

/-- All-stop stops a strand: at once where it is parked or awaits issue, keeping its wait state; at the end of its run, or of its
mill, otherwise (06 R142). -/
def State.stopStrand (s : State) (i : Nat) : State :=
  let x := s.strand i
  match x.stat with
  | .ready => if s.inRun i then s.setStrand i { x with stopDue := true }
    else (s.setStrand i { x with stat := .stopped none }).markStopped (strandBundle i)
  | .parked w => (s.setStrand i { x with stat := .stopped (some w) }).markStopped (strandBundle i)
  | .milled => s.setStrand i { x with stopDue := true }
  | _ => s

/-- A stop that waited for the end of a strand's run or mill takes place. -/
def State.stopNow (s : State) (i : Nat) : State :=
  let x := s.strand i
  let stop (w : Option Wait) : State :=
    (s.setStrand i { x with stat := .stopped w, stopDue := false }).markStopped (strandBundle i)
  if x.stopDue then
    match x.stat with
    | .ready => stop none
    | .parked w => stop (some w)
    | _ => s
  else s

/-- The trap record of one crew (14 R238, 25 R379 kind 0x01). -/
def trapRecord (s : State) (seq : Dword) (crew : Nat) (bundles : List Nat) (is : List Nat) : List Dword :=
  let b := bundles.headD 0
  let w := s.owner b
  let idx := match Tbl.find? s.bundles b with
    | some x => x.index % 2 ^ 32
    | none => b
  [seq, BitVec.ofNat 64 (crew * 2 ^ 32 + idx), w.tcause, w.taddr, w.tpc, strandMask b is]

/-- The launch word of a trap record: the sequence number, or the node index with bit 63 (14 R238). -/
def launchWord (x : Launch) : Dword :=
  match x.origin with
  | .node n => BitVec.ofNat 64 (2 ^ 63 + n % 256)
  | _ => BitVec.ofNat 64 x.seq

/-- Post the trap record of one crew, or tile stream: an entry of the ring for each of its bundles in the group, in rising order
(14 R238, 25 R379; log 25). -/
def State.postRecord (s : State) (ctx crew l : Nat) (os : List Nat) (is : List Nat) : State :=
  match Tbl.find? s.launches l with
  | none => s
  | some x => os.foldl (fun t o => t.post ctx 1 (trapRecord t (launchWord x) crew [o] is)) s

/-- Post the trap records of a group: one for each crew that has strands in it (14 R238). -/
def State.postTraps (s : State) (ctx : Nat) (os : List Nat) (is : List Nat) : State :=
  let crew (o : Nat) : Nat := match s.crewOf o with
    | some (_, c) => c.index
    | none => 0
  let keys := (os.filterMap (fun o => (s.launchOf o).map (fun l => (l, crew o)))).eraseDups
  keys.foldl (fun t k => t.postRecord ctx k.2 k.1 (os.filter (fun o => s.launchOf o == some k.1 && crew o == k.2)) is) s

/-- A trap record of a launch cannot be held yet: its crew stays trap-halted until it can be posted (25 R379). -/
def State.recordWaits (s : State) (l : Nat) : Bool :=
  match Tbl.find? s.launches l with
  | none => false
  | some x => (s.ctx x.ctx).ring.unheld.contains (launchWord x)

/-- Take a precise trap for the group being issued (14 R235-R238): write TCAUSE, TADDR and TPC of every owner, each with the
address and the origin that `detail` gives it, halt its strands at the group's first word, post the records; then abort the launch
when no debugger is attached (ATT = 0), as soon as the records can be held, or stop the other strands of its crews in all-stop mode. -/
def State.takeTrapWith (s : State) (cause : BitVec 8) (addr : Dword) (x : Option Origin) (detail : Nat → Dword × Option Origin) :
    State :=
  let c := s.cur
  let os := c.allOwners
  let s1 := os.foldl (fun t o => t.trapOwner cause (detail o).1 (detail o).2 c.gpc o) s
  let s2 := c.strands.foldl (fun t i => t.haltStrand c.gpc cause i) s1
  let s3 := os.foldl (fun t o => if ownerIsTile o then t.setTile o ((t.tile o).halt cause c.pc) else t) s2
  let ev := (s.ctx c.ctx).ring.seq
  let ls := (os.filterMap (fun o => s.launchOf o)).eraseDups
  let s4 := s3.postTraps c.ctx os c.strands
  let s4 := { s4 with launches := ls.foldl (fun t l => Tbl.modify t l (fun (y : Launch) => { y with trapSeq := ev })) s4.launches }
  let ctl := (s.ctx c.ctx).dbgctl
  let s5 :=
    if ctl.getLsbD 3 then
      if ctl.getLsbD 2 then s4
      else
        let crews := (os.filterMap (fun o => (s.crewOf o).map Prod.fst)).eraseDups
        let others := ((s.bundles.filter (fun e => crews.contains e.2.crew)).map (fun e => s.liveStrands e.1)).flatten
        let rest := others.filter (fun i => !c.strands.contains i)
        rest.foldl State.stopStrand s4
    else
      ls.foldl (fun t l => if s4.recordWaits l then t else t.abortLaunch l ev) s4
  { s5 with last := some (.trap cause addr x) }

/-- A precise trap whose address and origin are every owner's. -/
def State.takeTrap (s : State) (cause : BitVec 8) (addr : Dword) (x : Option Origin) : State :=
  s.takeTrapWith cause addr x (fun _ => (addr, x))

/-! ### Fatal context errors (14 R245) -/

/-- Return a tile to no context: everything it holds is zeroed (18 R305); failure marks and fences stay (21 R344). -/
def Tile.cleared (x : Tile) : Tile :=
  { Tile.reset with mtcfg := x.mtcfg, failed := x.failed, fenced := x.fenced, fenceDue := x.fenceDue,
                    sinceTest := x.sinceTest, owed := false }

/-- End a context on a cause (14 R245): its work stops, its copies are aborted, the fatal record is posted, every launch not
yet final receives status 0x91, and its cores, tiles, records and images are freed. -/
def State.endContext (s : State) (c : Nat) (cause : BitVec 8) (addr : Dword) : State :=
  let ids := (s.launches.filter (fun e => e.2.ctx == c && (e.2.phase == .running || e.2.phase == .waiting))).map Prod.fst
  let crews := (s.crews.filter (fun e => ids.contains e.2.launch && !e.2.ended)).map Prod.fst
  let s1 := crews.foldl State.stopCrew (s.leaveBeads (fun w => ids.any (fun k => w == .launch k)))
  let tiles := (s1.tiles.filter (fun e => e.2.owner == some c)).map Prod.fst
  let s2 := tiles.foldl (fun t k => let d := t.dropStream k; d.setTile k (d.tile k).cleared) s1
  let s2 := { s2 with beads := s2.beads.filter (fun e => !(tiles.any (fun k =>
      e.1 / 8192 == 3 + k / 96 && decide (0x400 + 64 * (k % 96) ≤ e.1 % 8192) &&
        decide (e.1 % 8192 < 0x400 + 64 * (k % 96) + 64)))) }
  let s3 := { s2 with copies := s2.copies.filter (fun e => e.2.ctx != c) }
  let ev := (s3.ctx c).ring.seq
  let s4 := s3.post c 2 [cause.setWidth 64, addr]
  let s5 := ids.foldl (fun t l => match Tbl.find? t.launches l with
    | some x => (t.writeSlot c x.origin 0x91 x.seq ev).setLaunch l { x with phase := .aborted, frags := [] }
    | none => t) s4
  -- published entries the hub has not taken
  let s6 := (s5.ctx c).queues.foldl (fun t e => e.2.entries.foldl (fun u p =>
    if p.fromHost then u.writeSlot c (.hostRing e.1 p.slot) 0x91 p.seq ev else u) t) s5
  let x := s6.ctx c
  let s7 := s6.setCtx c { x with live := false, records := [], shadows := [], nodes := [], nodeCount := 0,
                                 queues := x.queues.map (fun e => (e.1, { e.2 with entries := [] })) }
  let s8 := { s7 with channels := s7.channels.filter (fun e => e.2.ctx != c),
                      savedTiles := s7.savedTiles.filter (fun y => !ids.contains y.launch) }
  match s8.command with
  | .hostCopy id => if (Tbl.find? s8.copies id).isNone then s8.finishCommand 1 else s8
  | _ => s8

/-- A split fetch leaves the address of the first word in TPC and the base of the second page in TADDR (01 R27). -/
def State.splitFetched (s : State) (addr : Dword) (o : Nat) : State :=
  s.setOwner o { s.owner o with tpc := addr - 4, taddr := addr }

/-- A fatal context error met by the group being issued. -/
def State.fatalError (s : State) (cause : BitVec 8) (addr : Dword) : State :=
  let t := s.endContext s.cur.ctx cause addr
  let u := if cause.toNat = causeSplitFetch then s.cur.allOwners.foldl (fun (v : State) o => v.splitFetched addr o) t else t
  { u with last := some (.fatal cause addr) }

/-! ### Parking (01 R23, 06 R135) -/

/-- What a wait becomes that begins while an older one at the same instruction has had its effects already: a plain wait
does not undo them. -/
def Wait.over (new : Wait) (old : Option Wait) : Wait :=
  match old with
  | none => new
  | some w => if (new = .again ∨ new = .rest) ∧ w ≠ .again ∧ w ≠ .rest then w else new

/-- The wait a strand stands at. -/
def Strand.wait (x : Strand) : Option Wait :=
  match x.stat with
  | .parked w => some w
  | _ => none

/-- Park a strand at the group's first word. -/
def State.parkStrand (s : State) (pc : Dword) (w : Wait) (i : Nat) : State :=
  s.setStrand i { s.strand i with stat := .parked (w.over (s.strand i).wait), pc := pc, moved := false }

/-- Park the group being issued: its strands, or the stream's access processor. -/
def State.parkGroup (s : State) (w : Wait) : State :=
  let s1 := s.cur.strands.foldl (fun t i => t.parkStrand s.cur.gpc w i) s
  let s2 := match s.cur.profile with
    | .raster => s1
    | .tile => s.cur.owners.foldl (fun t o =>
        let k := t.tile o
        t.setTile o { k with stream := k.stream.map (fun (st : Stream) => { st with wait := some (w.over st.wait) }) }) s1
  { s2 with last := some (.wait w) }

/-- What an effect makes of the machine: its state, or the stop taken from the state the instruction found. -/
def conclude (s : State) (r : Eff State) : Outcome State Fault Refusal :=
  match r with
  | .ok t => .next t
  | .error (.stopped (.trap c a x)) => .next (s.takeTrap c a x)
  | .error (.stopped (.fatal c a)) => .next (s.fatalError c a)
  | .error (.stopped (.wait w)) => .next (s.parkGroup w)
  | .error (.fault f) => .fault f

/-! ### Who executes (03 R54, 04 R94) -/

/-- Once for each complete bundle of the group, in rising bundle index, or once for the tile stream (03 R54). -/
def forOwners (s : State) (f : Nat → State → Eff State) : Eff State :=
  s.cur.owners.foldlM (fun t o => f o t) s

/-- For each strand of the group whose guard is true, lowest bundle and then lowest strand first (01 R15, 04 R104). The
guards are read before any strand acts. -/
def forStrands (g : Guard) (s : State) (f : Nat → State → Eff State) : Eff State :=
  (s.cur.strands.filter (fun i => s.guardOn g i)).foldlM (fun t i => f i t) s

/-- The address the instruction itself stands at (03 R65). -/
def State.nextPc (s : State) : Dword := s.cur.pc + (if s.cur.long then 8 else 4)

end Sys2Proof.Machine
end

