-- ==== Sys2Proof/Machine/Memory.lean ====
section
/-! DEFINITION. Translation, backing and migration (15 R257-R263), the checks of a global access (04 R102, R103), the raster
scratchpad and the grove window (04 R109, 06 R138), the tile scratchpad with its region map (15 R264-R266), and instruction
fetch (15 R262, 08 R182). -/

namespace Sys2Proof.Machine

/-! ### Page tables (15 R257-R259) -/

/-- A resident page: its physical base, size, format attribute, companion frame, tag enable and permissions. -/
structure PageInfo where
  base : Nat
  size : Nat
  fmt : Nat
  geo : Nat
  csc : Bool
  cfn : Nat
  tagged : Bool
  canExec : Bool
  canWrite : Bool
  canRead : Bool
deriving DecidableEq, Repr

/-- Bytes of block data: g elements of width w. -/
def blockBytes (fmt geo : Nat) : Nat := geo * codeWidth fmt / 8

/-- Blocks that a page of P bytes holds, with inline or companion scales (02 R35). -/
def pageBlocks (p fmt geo : Nat) (csc : Bool) : Nat :=
  if csc then p * 8 / (geo * codeWidth fmt) else p / (blockBytes fmt geo + 1)

/-- Bytes of a page that can be written: with inline scales the bytes above the last scale are unused and read as zero (02 R35). -/
def PageInfo.used (p : PageInfo) : Nat :=
  if codeScaled p.fmt && !p.csc then pageBlocks p.size p.fmt p.geo false * (blockBytes p.fmt p.geo + 1) else p.size

/-- How many of n bytes at a physical address of a page are not unused ones above its scales. -/
def PageInfo.room (p : PageInfo) (pa n : Nat) : Nat := min n (p.used - (pa - p.base))

/-- What a walk finds (15 R258-R261). -/
inductive Walk where
  | page (p : PageInfo)
  /-- reserved: the address of the governing entry, its dwords, and whether it is a 32 MiB page -/
  | reserved (entry : Nat) (e0 e1 : Dword) (large : Bool)
  /-- held in host memory -/
  | inHost (entry : Nat) (e0 e1 : Dword) (large : Bool)
  | absent
deriving DecidableEq, Repr

/-- Reserved bits of a leaf entry are clear, and its V, RSV, HM, GEO, LEAF and TAG fields agree (15 R258, R259). -/
def leafSound (e0 e1 : Dword) : Bool :=
  e0.extractLsb' 52 4 == 0 && e0.extractLsb' 9 7 == 0 && e1.extractLsb' 36 28 == 0
    && e0.extractLsb' 57 2 != 3 && e0.getLsbD 1
    && !(e0.getLsbD 0 && (e0.getLsbD 5 || e0.getLsbD 6)) && !(e0.getLsbD 5 && e0.getLsbD 6)
    && !(e0.getLsbD 0 && e0.getLsbD 7 && e0.getLsbD 51)

/-- The physical frame number of a leaf (15 R258). -/
def leafFrame (e0 : Dword) : Nat := (e0.extractLsb' 16 36).toNat

/-- What a sound leaf says (15 R258). -/
def leafWalk (entry : Nat) (e0 e1 : Dword) (large : Bool) : Walk :=
  if e0.getLsbD 0 then
    .page { base := leafFrame e0 * 65536, size := if large then 2 ^ 25 else 65536,
            fmt := (e0.extractLsb' 59 5).toNat, geo := (match (e0.extractLsb' 57 2).toNat with | 0 => 32 | 1 => 16 | _ => 64),
            csc := e0.getLsbD 56, cfn := (e1.extractLsb' 0 36).toNat, tagged := e0.getLsbD 7,
            canExec := e0.getLsbD 4, canWrite := e0.getLsbD 3, canRead := e0.getLsbD 2 }
  else if e0.getLsbD 5 then .reserved entry e0 e1 large
  else if e0.getLsbD 6 then .inHost entry e0 e1 large
  else .absent

/-- The L0 table at a physical address: a 32 MiB page's first entry governs it (15 R259). An uncorrectable entry is malformed
(26 R395). -/
def State.walkL0 (s : State) (table : Nat) (va : Nat) : Walk :=
  let i := va / 65536 % 1024
  let big := table + 16 * (i / 512 * 512)
  let own := table + 16 * i
  let b0 := s.readDword big
  let b1 := s.readDword (big + 8)
  if b0.getLsbD 8 && !s.isMarked big 16 then
    if leafSound b0 b1 && leafFrame b0 % 512 == 0 then leafWalk big b0 b1 true else .absent
  else
    let e0 := s.readDword own
    let e1 := s.readDword (own + 8)
    if leafSound e0 e1 && !e0.getLsbD 8 && !s.isMarked own 16 then leafWalk own e0 e1 false else .absent

/-- Follow `n` levels of tables above L0 (15 R257, R258). -/
def State.walkFrom (s : State) (va : Nat) : Nat → Nat → Walk
  | 0, table => s.walkL0 table va
  | n + 1, table =>
    let at0 := table + 16 * (va / 2 ^ (16 + 10 * (n + 1)) % 1024)
    let e0 := s.readDword at0
    let e1 := s.readDword (at0 + 8)
    -- V set, every bit but V and TABLE clear
    if e0.getLsbD 0 && e0.extractLsb' 1 13 == 0 && e0.extractLsb' 52 12 == 0 && e1 == 0 && !s.isMarked at0 16 then
      s.walkFrom va n ((e0.extractLsb' 14 38).toNat * 2 ^ 14)
    else .absent

/-- Translate a virtual address of a context to what governs its page. -/
def State.walk (s : State) (ctx : Nat) (va : Nat) : Walk :=
  s.walkFrom (va % 2 ^ 56) 3 (s.ctx ctx).root.toNat

/-! ### Translation caches (15 R263) -/

/-- The units that hold translations: the cores, the tiles, the skidders and each die's walkers; and the number that stands for all of
them. -/
def shootUnits : List Nat := List.range (Config.cores + Config.tiles + 32 + 6)
def shootAll : Nat := Config.cores + Config.tiles + 32 + 6

/-- The unit through whose translation cache the group being issued accesses memory; that of a copy is not told apart (log 12). -/
def State.accessUnit (s : State) : Nat :=
  match s.cur.profile, s.cur.owners with
  | .raster, o :: _ => (s.coreOf o).getD shootAll
  | .tile, o :: _ => Config.cores + o
  | _, [] => shootAll

/-- Whether an invalidation has dropped an older form of an entry that translates `size` bytes about an address, for a unit. -/
def OldMap.gone (m : OldMap) (unit ctx va size : Nat) : Bool :=
  m.dropped.any (fun d => (d.1 == unit || d.1 == shootAll) && d.2.1 == ctx && decide (d.2.2.1 < va / size * size + size)
    && decide (va / size * size < d.2.2.1 + d.2.2.2))

/-- The forms in which an entry may be used for an address: those a translation cache may still hold, and the one that stands there. An
L0 entry of a 32 MiB page translates all of it. -/
def State.entryForms (s : State) (ctx va size e : Nat) : List (Dword × Dword) :=
  ((Tbl.getD s.oldMaps e []).filter (fun (m : OldMap) =>
    !m.gone s.accessUnit ctx va (if size = 65536 ∧ m.e0.getLsbD 8 then 2 ^ 25 else size))).map (fun m => (m.e0, m.e1))
    ++ [(s.readDword e, s.readDword (e + 8))]

/-- What the forms of the L0 entries give. -/
def State.formsL0 (s : State) (ctx table va : Nat) : List Walk :=
  let i := va / 65536 % 1024
  let big := table + 16 * (i / 512 * 512)
  let own := table + 16 * i
  ((s.entryForms ctx va 65536 big).map (fun b =>
    if b.1.getLsbD 8 && !s.isMarked big 16 then
      [if leafSound b.1 b.2 && leafFrame b.1 % 512 == 0 then leafWalk big b.1 b.2 true else .absent]
    else (s.entryForms ctx va 65536 own).map (fun e =>
      if leafSound e.1 e.2 && !e.1.getLsbD 8 && !s.isMarked own 16 then leafWalk own e.1 e.2 false else .absent))).flatten

/-- What the forms of n levels of entries give. -/
def State.formsFrom (s : State) (ctx va : Nat) : Nat → Nat → List Walk
  | 0, table => s.formsL0 ctx table va
  | n + 1, table =>
    let at0 := table + 16 * (va / 2 ^ (16 + 10 * (n + 1)) % 1024)
    ((s.entryForms ctx va (2 ^ (16 + 10 * (n + 1))) at0).map (fun e =>
      if e.1.getLsbD 0 && e.1.extractLsb' 1 13 == 0 && e.1.extractLsb' 52 12 == 0 && e.2 == 0 && !s.isMarked at0 16 then
        s.formsFrom ctx va n ((e.1.extractLsb' 14 38).toNat * 2 ^ 14)
      else [.absent])).flatten

/-- The older translations that an access may still use, where an entry on the way was changed and no shoot-down has ended since. -/
def State.oldWalks (s : State) (ctx va : Nat) : List Walk :=
  if s.oldMaps.isEmpty then []
  else ((s.formsFrom ctx (va % 2 ^ 56) 3 (s.ctx ctx).root.toNat).filter (fun w => decide (w ≠ s.walk ctx va))).eraseDups

/-- The one translation an access uses: the present one, or an older one by a free choice (15 R263; log 12). -/
def State.translate (s : State) (ctx va : Nat) : Walk × State :=
  match s.oldWalks ctx va with
  | [] => (s.walk ctx va, s)
  | ws =>
    let f := s.free
    (ws.getD (f.1.toNat % (ws.length + 1)) (s.walk ctx va), f.2)

/-- What the translation caches may hold once a unit has acknowledged an invalidation, or all of them have (15 R263). -/
def State.droppedMaps (s : State) (unit ctx va len : Nat) : Tbl (List OldMap) :=
  let r := (ctx, va % 2 ^ 56, len)
  Tbl.mapVals (fun (ms : List OldMap) => ms.map (fun m =>
    { m with dropped := (unit, r) :: (if unit = shootAll then m.dropped.filter (fun d => !(d.2 == r)) else m.dropped) })) s.oldMaps

/-- The physical address of the L0 table of a virtual address. -/
def State.l0Table (s : State) (va : Nat) : Nat → Nat → Nat
  | 0, table => table
  | n + 1, table =>
    let e0 := s.readDword (table + 16 * (va / 2 ^ (16 + 10 * (n + 1)) % 1024))
    s.l0Table va n ((e0.extractLsb' 14 38).toNat * 2 ^ 14)

/-- The physical address of the leaf that governs a page: the first of 512 for a 32 MiB page (15 R259). -/
def State.leafAddr (s : State) (ctx va : Nat) (large : Bool) : Nat :=
  let table := s.l0Table (va % 2 ^ 56) 3 (s.ctx ctx).root.toNat
  let i := va / 65536 % 1024
  if large then table + 16 * (i / 512 * 512) else table + 16 * i

/-! ### Backing and migration (15 R260, R261) -/

/-- Remove the entries of a table from key `lo` to below `hi`. -/
def Tbl.eraseRange {α : Type} (t : Tbl α) (lo hi : Nat) : Tbl α :=
  match t with
  | [] => []
  | (k, v) :: rest => if lo ≤ k ∧ k < hi then Tbl.eraseRange rest lo hi else (k, v) :: Tbl.eraseRange rest lo hi

/-- The addresses of the words that some bytes lie in, once each where the bytes rise. -/
def wordsOf : List (Nat × Byte) → List Nat
  | [] => []
  | e :: rest => match wordsOf rest with
    | [] => [e.1 / 4 * 4]
    | w :: ws => if e.1 / 4 * 4 = w then w :: ws else e.1 / 4 * 4 :: w :: ws

/-- Keep words of a frame whose contents change for fetch alone: no access through a mapping of the frame sees them (08 R178, 15
R262). -/
def State.noteFrame (s : State) (ws : List Nat) : State := ws.foldl (State.noteWord · { s.oldWord 1 with gone := 0 }) s

/-- The words of n bytes that have been replaced so far are seen by no read (08 R178). -/
def State.hideOlds (s : State) (pa n : Nat) : State :=
  { s with stale := s.stale.map (fun e =>
      if pa ≤ e.1 ∧ e.1 < pa + n then (e.1, e.2.map (fun (x : OldWord) => { x with gone := 0 })) else e) }

/-- Zero n bytes of memory and their granule tags (15 R260). -/
def State.zeroMem (s : State) (pa n : Nat) : State :=
  let t := (s.hideOlds pa n).noteFrame (wordsOf (s.mem.filter (fun e => decide (pa ≤ e.1) && decide (e.1 < pa + n))))
  { t with mem := Tbl.eraseRange s.mem pa (pa + n), tags := Tbl.eraseRange s.tags (pa / 32) ((pa + n) / 32),
           marked := s.marked.filter (fun u => !(decide (pa / 16 ≤ u) && decide (u < (pa + n) / 16))) }

/-- Take a frame of a size from its pool: its number, or none while the pool is empty. Falling below the threshold posts a
pool-low event (15 R260, 25 R379 kind 0x03). -/
def State.takeFrame (s : State) (large : Bool) : Option (Nat × State) :=
  let pool := if large then s.largePool else s.smallPool
  match pool.frames with
  | [] => none
  | f :: rest =>
    let p : FramePool := { pool with frames := rest }
    let s1 := if large then { s with largePool := p } else { s with smallPool := p }
    let low := decide (rest.length < pool.threshold) && !decide (pool.frames.length < pool.threshold)
    some (f, if low then
        s1.postGlobal 3 [if large then (2 : Dword) ^ 25 else 65536, BitVec.ofNat 64 rest.length]
      else s1)

/-- E0 of a backed page: V set, RSV and HM clear, the new FRAME (15 R260, R261). -/
def backedE0 (e0 : Dword) (frame : Nat) : Dword :=
  let keep := e0 &&& ~~~((((1#64 <<< 36) - 1) <<< 16) ||| 0x61)
  keep ||| (BitVec.ofNat 64 frame <<< 16) ||| 1

/-- Back a reserved page (15 R260): frames taken and zeroed, then CFN, then E0. None while a pool is empty. -/
def State.backPage (s : State) (entry : Nat) (e0 e1 : Dword) (large : Bool) : Option State :=
  match s.takeFrame large with
  | none => none
  | some (f, s1) =>
    let s2 := s1.zeroMem (f * 65536) (if large then 2 ^ 25 else 65536)
    if e0.getLsbD 56 then
      match s2.takeFrame false with
      | none => none
      | some (g, s3) =>
        let s4 := s3.zeroMem (g * 65536) 65536
        let e1' : Dword := (e1 &&& ~~~((1#64 <<< 36) - 1)) ||| BitVec.ofNat 64 g
        some ((s4.writeLE (entry + 8) 8 e1'.toNat).writeLE entry 8 (backedE0 e0 f).toNat)
    else some (s2.writeLE entry 8 (backedE0 e0 f).toNat)

/-- Copy n bytes of memory into a frame that has been zeroed. -/
def State.copyMem (s : State) (dst src n : Nat) : State :=
  let moved := s.mem.filter (fun (e : Nat × Byte) => decide (src ≤ e.1) && decide (e.1 < src + n))
  let there := moved.map (fun (e : Nat × Byte) => (dst + (e.1 - src), e.2))
  there.foldl (fun (t : State) (e : Nat × Byte) => t.setByte e.1 e.2)
    { s.noteFrame (wordsOf there) with mem := Tbl.eraseRange s.mem dst (dst + n) }

/-- Where the host holds a page with V = 0 and HM = 1: at FRAME, in host memory whatever FRAME's bit 51 is (15 R258, 25 R374;
log 109). -/
def heldAt (e0 : Dword) : Nat := 2 ^ 51 + leafFrame e0 * 65536 % 2 ^ 51

/-- Migrate a page held in host memory (15 R261): none while a pool is empty. -/
def State.migratePage (s : State) (entry : Nat) (e0 e1 : Dword) (large : Bool) : Option State :=
  match s.takeFrame large with
  | none => none
  | some (f, s1) =>
    let n := if large then 2 ^ 25 else 65536
    let s2 := (s1.zeroMem (f * 65536) n).copyMem (f * 65536) (heldAt e0) n
    if e0.getLsbD 56 then
      match s2.takeFrame false with
      | none => none
      | some (g, s3) =>
        let s4 := (s3.zeroMem (g * 65536) 65536).copyMem (g * 65536) ((e1.extractLsb' 0 36).toNat * 65536) 65536
        let e1' : Dword := (e1 &&& ~~~((1#64 <<< 36) - 1)) ||| BitVec.ofNat 64 g
        some ((s4.writeLE (entry + 8) 8 e1'.toNat).writeLE entry 8 (backedE0 e0 f).toNat)
    else some (s2.writeLE entry 8 (backedE0 e0 f).toNat)

/-! ### Global accesses (04 R102, R103) -/

/-- The page of an access, backed if it is reserved (04 R103): a wait while a pool is empty, a fatal error with no page or
no permission. -/
def State.pageFor (s : State) (ctx : Nat) (addr : Dword) (write : Bool) : Eff (PageInfo × State) :=
  let allow (p : PageInfo) (t : State) : Eff (PageInfo × State) :=
    if if write then p.canWrite else p.canRead then .ok (p, t) else fatalWith causePermission addr
  let r := s.translate ctx addr.toNat
  match r.1 with
  | .page p => allow p r.2
  | .reserved e a b l =>
    match r.2.backPage e a b l with
    | none => waitWith .again
    | some t =>
      match t.walk ctx addr.toNat with
      | .page p => allow p t
      | _ => fatalWith causeNotResident addr
  | .inHost .. => fatalWith causeNotResident addr
  | .absent => fatalWith causeNotResident addr

/-- The physical address of a virtual address inside its page. -/
def PageInfo.pa (p : PageInfo) (va : Nat) : Nat := p.base + va % p.size

/-- Whether every granule under n bytes carries the address's tag (04 R103). -/
def State.tagsMatch (s : State) (pa n : Nat) (tag : BitVec 4) : Bool :=
  (List.range ((pa + n - 1) / 32 - pa / 32 + 1)).all (fun i => Tbl.getD s.tags (pa / 32 + i) 0 == tag)

/-- The tag an address carries (15 R257). -/
def addrTag (a : Dword) : BitVec 4 := a.extractLsb' 56 4

/-- Check a global access of n bytes aligned to `align`, in R102's order after the poison check, and translate it: the
physical address, its page, and the state after any backing. -/
def State.globalAccess (s : State) (ctx : Nat) (addr : Dword) (n align : Nat) (write tagCheck : Bool) :
    Eff (Nat × PageInfo × State) :=
  if addr.extractLsb' 60 4 != 0 then trapWith causeBadAddress addr
  else if addr.toNat % align != 0 then trapWith causeMisaligned addr
  else
    match s.pageFor ctx addr write with
    | .error e => .error e
    | .ok (p, t) =>
      let pa := p.pa addr.toNat
      if p.tagged && tagCheck && !t.tagsMatch pa n (addrTag addr) then trapWith causeTagMismatch addr
      else if paExists pa then .ok (pa, p, t)
      else .error (.fault (.noMemory pa))

/-- n bytes of a page as an access reads them, little-endian and as bytes: zero above its last scale (02 R35). -/
def State.pageLE (s : State) (p : PageInfo) (pa n : Nat) : Nat := s.readLE pa (p.room pa n)
def State.pageBytes (s : State) (p : PageInfo) (pa n : Nat) : List Byte :=
  (List.range n).map (fun i => if i < p.room pa n then s.byte (pa + i) else 0)

/-- Back the page of an address where it is reserved and frames suffice. -/
def State.backIfReserved (s : State) (ctx : Nat) (addr : Dword) : State :=
  match s.walk ctx addr.toNat with
  | .reserved e a b l => (s.backPage e a b l).getD s
  | _ => s

/-- The address whose page an access that stopped had translated: a reserved page that it met stays backed (15 R260; log 119). An
access to an element checks its alignment after the translation (04 R102). -/
def Stopped.translated (elem : Bool) : Stopped → Option Dword
  | .trap c a _ =>
    if c.toNat = causeTagMismatch ∨ c.toNat = causeBadFormat ∨ c.toNat = causeFormatRange ∨ elem = true ∧ c.toNat = causeMisaligned then some a
    else none
  | .fatal c a => if c.toNat = causePermission then some a else none
  | .wait _ => none

/-- Keep the backing of an access that stopped. -/
def State.keepBacking (s : State) (elem : Bool) (x : Stopped) : State :=
  match x.translated elem with
  | some a => s.backIfReserved s.cur.ctx a
  | none => s

/-- What accesses of global memory make of the machine: their state, or the stop, after the backing of the page it met. -/
def concludeAccess (elem : Bool) (s : State) (r : Eff State) : Host.Outcome State Fault Refusal :=
  match r with
  | .error (.stopped x) => conclude (s.keepBacking elem x) r
  | _ => conclude s r

/-- A bundle's global access enters its line in the lease filter of 512 bits, and a miss that a victim tag answers clears the
tag and raises a measured lease (07 R152, R154; log 22). -/
def State.touch (s : State) (b pa : Nat) : State :=
  match Tbl.find? s.bundles b with
  | none => s
  | some x =>
    let bit := (Config.lineHash (pa / 128)).toNat
    let x1 := { x with touched := if x.touched.contains bit then x.touched else bit :: x.touched }
    match s.coreOf b with
    | none => s.setBundle b x1
    | some k =>
      let c := s.core k
      if c.victims.contains (pa / 128) then
        (s.setCore k { c with victims := c.victims.filter (fun l => l != pa / 128) }).setBundle b
          (if x.declared.isNone then { x1 with est := min (x.est + 4) ((s.ctx s.cur.ctx).leasemax.toNat % 8192) } else x1)
      else s.setBundle b x1

/-- A global access of a strand: R102's checks, then the line enters its bundle's lease filter. -/
def State.laneGlobal (s : State) (i : Nat) (addr : Dword) (n align : Nat) (write tagCheck : Bool) :
    Eff (Nat × PageInfo × State) :=
  (s.globalAccess s.cur.ctx addr n align write tagCheck).map (fun (x : Nat × PageInfo × State) =>
    (x.1, x.2.1, x.2.2.touch (strandBundle i) x.1))

/-- Store n bytes of data at a physical address through a core's data path: fetch may still see the old words (log 11). -/
def State.storeData (s : State) (pa n v : Nat) : State := (s.noteWords pa n 0).writeLE pa n v

/-- Write n bytes in memory by an engine or the hub: no cache part holds them dirty (08 R182). -/
def State.storeEngine (s : State) (pa n v : Nat) : State := (s.noteWords pa n 1).writeLE pa n v

/-- Index of an owner's unit on its die, for the error log (26 R395). -/
def State.unitOf (s : State) (o : Nat) : Nat := if ownerIsTile o then o % 96 else ((s.coreOf o).getD 0) % 48

/-- A value loaded into a register of strand `st` of an owner: poison with origin soft-error where its bytes are marked uncorrectable; `addr` is the
access's address and `pa` the address logged (26 R395). -/
def State.loaded {w : Nat} (s : State) (o st : Nat) (addr : Dword) (pa : Nat) (bad : Bool) (v : BitVec w) : Tagged w × State :=
  if bad then
    let r := s.newOrigin o ⟨BitVec.ofNat 8 causeSoftError, addr, false, 0, BitVec.ofNat 8 st⟩
    (⟨0, some r.1⟩, r.2.log ⟨s.time, pa, 2, s.dieOf o, s.unitOf o, s.cur.ctx⟩)
  else (⟨v, none⟩, s)

/-- Mark or unmark the 16-byte units of a range of memory: a unit written whole loses its mark. -/
def markUnits (us : List Nat) (pa n : Nat) (bad : Bool) : List Nat :=
  let kept := us.filter (fun u => !(decide (pa / 16 ≤ u) && decide (u ≤ (pa + n - 1) / 16)))
  if bad then kept ++ [pa / 16] else if n < 16 then us else kept

/-! ### The raster scratchpad (04 R109, 06 R138) -/

/-- Field widths and extents of a launch header (06 R126, 07 R144). -/
def hdrWidth (h : List Dword) (i : Nat) : Nat := (h.getD 3 0).toNat / 2 ^ (7 * i) % 128
def hdrOffset (h : List Dword) (i : Nat) : Nat := ((List.range i).map (hdrWidth h)).sum
def hdrExtent (h : List Dword) (i : Nat) : Nat := (h.getD 2 0).toNat / 2 ^ hdrOffset h i % 2 ^ hdrWidth h i + 1
def hdrScratch (h : List Dword) : Nat := (h.getD 4 0).toNat % 2 ^ 19
def hdrGrove (h : List Dword) : Bool := (h.getD 3 0).getLsbD 48
def hdrExcl (h : List Dword) : Bool := (h.getD 3 0).getLsbD 47
def hdrPrio (h : List Dword) : Nat := (h.getD 3 0).toNat / 2 ^ 44 % 8
def hdrKind (h : List Dword) : Nat := (h.getD 3 0).toNat / 2 ^ 42 % 4
def hdrRegs (h : List Dword) : Nat := 2 ^ (3 + (h.getD 3 0).toNat / 2 ^ 56 % 4)
def hdrLease (h : List Dword) : Nat := (h.getD 4 0).toNat / 2 ^ 32 % 2 ^ 13

/-- Round up to a multiple. -/
def roundUp (n m : Nat) : Nat := (n + m - 1) / m * m

/-- The header of a launch. -/
def State.header (s : State) (l : Nat) : List Dword :=
  match Tbl.find? s.launches l with
  | some x => x.hdr
  | none => []

/-- Where a crew's allocation begins on its core: after the older crews' allocations, each rounded up to 128 bytes (07 R151). -/
def State.scratchBase (s : State) (k : Nat) (x : Crew) : Nat :=
  ((s.crews.filter (fun e => e.2.core == some k && !e.2.ended && decide (e.2.seq < x.seq))).map
    (fun e => roundUp (hdrScratch (s.header e.2.launch)) 128)).sum

/-- The bytes of its allocation a crew can reach: all, but what a SPLIT of an exclusive launch has taken from the core's
scratchpad (03 R84; log 35). -/
def State.scratchLimit (s : State) (x : Crew) : Nat :=
  let h := s.header x.launch
  match x.core with
  | none => hdrScratch h
  | some k => if hdrExcl h then min (hdrScratch h) ((s.core k).granules * 32768 - s.scratchBase k x) else hdrScratch h

/-- The crew and byte offset a scratchpad address names for a crew: its own allocation, or its grove's window. The Bool says
that the byte lies above the header's size, where a window reads as zero (06 R138). None is out of range. -/
def State.scratchAt (s : State) (c : Nat) (addr : Dword) : Option (Nat × Nat × Bool) :=
  match Tbl.find? s.crews c with
  | none => none
  | some x =>
    let h := s.header x.launch
    let size := hdrScratch h
    let a := addr.toNat
    match x.grove with
    | none => if a < s.scratchLimit x then some (c, a, false) else none
    | some g =>
      let span := roundUp size 32768
      if a < 2 ^ 24 ∧ span ≠ 0 then
        let half := a / 2 ^ 23
        let ofs := a % 2 ^ 23
        let k := ofs / span
        let e2 := hdrExtent h 2
        let hh := (e2 + 1) / 2
        let n := if half = 0 then hh else e2 - hh
        if k < n then
          let want := (if half = 0 then k else hh + k)
          match List.find? (fun (e : Nat × Crew) =>
              e.2.grove == some g && e.2.index % 2 ^ hdrWidth h 2 == want && e.2.launch == x.launch) s.crews with
          | some e => if s.scratchLimit e.2 ≤ ofs % span ∧ ofs % span < size then none
              else some (e.1, ofs % span, decide (size ≤ ofs % span))
          | none => none
        else none
      else none

/-- A byte of a crew's scratchpad. -/
def State.scratchByte (s : State) (c a : Nat) : Byte :=
  match Tbl.find? s.crews c with
  | some x => Tbl.getD x.scratch a 0
  | none => 0

/-- n bytes of a crew's scratchpad, little-endian. -/
def State.scratchLE (s : State) (c a : Nat) : Nat → Nat
  | 0 => 0
  | n + 1 => (s.scratchByte c a).toNat + 256 * s.scratchLE c (a + 1) n

/-- Write a byte of a crew's scratchpad. -/
def State.setScratchByte (s : State) (c a : Nat) (v : Byte) : State :=
  match Tbl.find? s.crews c with
  | some x => s.setCrew c { x with scratch := Tbl.put 0 x.scratch a v }
  | none => s

def State.writeScratch (s : State) (c a : Nat) : Nat → Nat → State
  | 0, _ => s
  | n + 1, v => (s.setScratchByte c a (BitVec.ofNat 8 v)).writeScratch c (a + 1) n (v / 256)

/-- Whether the line that holds an offset of a crew's scratchpad is absent (04 R109). -/
def State.crewLineAbsent (s : State) (c a : Nat) : Bool :=
  match Tbl.find? s.crews c with
  | some x => x.absent.contains (a / 128)
  | none => false

def State.crewMarked (s : State) (c a n : Nat) : Bool :=
  match Tbl.find? s.crews c with
  | some x => x.marked.any (fun u => decide (a / 16 ≤ u) && decide (u ≤ (a + n - 1) / 16))
  | none => false

/-- Check a raster scratchpad access of n bytes: misaligned, then scratch-range (04 R102, R109). -/
def State.scratchAccess (s : State) (crew : Nat) (addr : Dword) (n : Nat) : Eff (Nat × Nat × Bool) :=
  if addr.toNat % n != 0 then trapWith causeMisaligned addr
  else match s.scratchAt crew addr with
    | some x => .ok x
    | none => trapWith causeScratchRange addr

/-! ### The tile scratchpad (04 R109, 15 R264-R266) -/

/-- A region-map entry (15 R264). -/
structure Region where
  va : Dword
  fmt : Nat
  geo : Nat
  csc : Bool
  valid : Bool
  wb : Bool
  sline : Nat
  lines : Nat
deriving DecidableEq, Repr

/-- RM0 and RM1 read as an entry. -/
def regionOf (r : Dword × Dword) : Region :=
  { va := r.1, fmt := (r.2.extractLsb' 59 5).toNat,
    geo := (match (r.2.extractLsb' 57 2).toNat with | 0 => 32 | 1 => 16 | _ => 64), csc := r.2.getLsbD 56,
    valid := r.2.getLsbD 33, wb := r.2.getLsbD 32, sline := (r.2.extractLsb' 0 12).toNat,
    lines := (r.2.extractLsb' 16 12).toNat + 1 }

def Tile.region (x : Tile) (e : Nat) : Region := regionOf (Tbl.getD x.map e (0, 0))

def Region.holds (r : Region) (line : Nat) : Bool :=
  r.valid && decide (r.sline ≤ line) && decide (line < r.sline + r.lines)

/-- The valid entry a scratchpad line lies in. -/
def Tile.regionAt (x : Tile) (line : Nat) : Option Nat := (List.range 16).find? (fun e => (x.region e).holds line)

def Tile.byte (x : Tile) (a : Nat) : Byte := Tbl.getD x.scratch a 0

def Tile.readLE (x : Tile) (a : Nat) : Nat → Nat
  | 0 => 0
  | n + 1 => (x.byte a).toNat + 256 * x.readLE (a + 1) n

/-- A stream's or an engine's write of one byte: in a region it marks its unit dirty, and written while its line is absent
(15 R265, R266). -/
def Tile.setByte (x : Tile) (a : Nat) (v : Byte) : Tile :=
  let x1 := { x with scratch := Tbl.put 0 x.scratch a v }
  match x.regionAt (a / 128) with
  | none => x1
  | some _ =>
    { x1 with dirty := if x.dirty.contains (a / 8) then x.dirty else a / 8 :: x.dirty,
              written := if x.absent.contains (a / 128) && !x.written.contains (a / 8) then a / 8 :: x.written
                         else x.written }

/-- A copy writes a byte of a tile's scratchpad (16 R289). -/
def Tile.copyByte (x : Tile) (a : Nat) (v : Byte) : Tile := { x.setByte a v with copied := Tbl.put 0 x.copied a v }

def Tile.writeLE (x : Tile) (a : Nat) : Nat → Nat → Tile
  | 0, _ => x
  | n + 1, v => (x.setByte a (BitVec.ofNat 8 v)).writeLE (a + 1) n (v / 256)

def Tile.isMarked (x : Tile) (a n : Nat) : Bool :=
  x.marked.any (fun u => decide (a / 16 ≤ u) && decide (u ≤ (a + n - 1) / 16))

/-- Whether a copy in flight is to write a scratchpad line (19 R318). -/
def State.lineInFlight (s : State) (p : Place) (line : Nat) : Bool :=
  s.copies.any (fun e => e.2.cleared.contains (p, line))

/-- The context a tile belongs to. -/
def State.tileCtx (s : State) (t : Nat) : Nat := ((s.tile t).owner).getD 0

/-- Fill an absent region line from global memory (15 R265): the page is translated with read permission and every granule
is checked; units the stream has written are kept. Errors are those of a load. -/
def State.fillLine (s : State) (t line : Nat) (r : Region) : Eff State :=
  let va := r.va + BitVec.ofNat 64 (128 * (line - r.sline))
  match s.globalAccess (s.tileCtx t) va 128 128 false true with
  | .error e => .error e
  | .ok (pa, p, s1) =>
    let x := s1.tile t
    let x1 := (List.range 128).foldl (fun (y : Tile) i =>
      if x.written.contains (16 * line + i / 8) then y
      else { y with scratch := Tbl.put 0 y.scratch (128 * line + i) (if i < p.room pa 128 then s1.byte (pa + i) else 0) }) x
    let bad := (List.range 8).filter (fun u => s1.isMarked (pa + 16 * u) 16)
    .ok (s1.setTile t { x1 with absent := x1.absent.filter (fun l => l != line),
                                written := x1.written.filter (fun u => u / 16 != line),
                                marked := bad.map (fun u => 8 * line + u) ++
                                  x1.marked.filter (fun u => u / 8 != line) })

/-- Make a line readable: present, filled on first touch, or a stall while it is absent (04 R109, 15 R265). -/
def State.needLine (s : State) (t line : Nat) : Eff State :=
  let x := s.tile t
  if !x.absent.contains line then .ok s
  else match x.regionAt line with
    | none => waitWith .again
    | some e => if s.lineInFlight (.tile t) line then waitWith .again else s.fillLine t line (x.region e)

/-- The scratchpad lines under n bytes. -/
def linesOf (a n : Nat) : List Nat :=
  if n = 0 then [] else (List.range ((a + n - 1) / 128 - a / 128 + 1)).map (fun i => a / 128 + i)

/-- Check a tile scratchpad access of n bytes: misaligned, then scratch-range (04 R102, R109). -/
def tileAccess (addr : Dword) (n align : Nat) : Eff Nat :=
  if addr.toNat % align != 0 then trapWith causeMisaligned addr
  else if addr.toNat + n ≤ 524288 then .ok addr.toNat
  else trapWith causeScratchRange addr

/-! ### Instruction fetch (15 R262, 01 R27, 08 R182) -/

/-- What an agent's fetch has observed: the invalidations up to its last FENCE.I, and the epoch the agent began in. -/
abbrev Seen := Nat × Nat

/-- Whether the store that replaced a word has come through the sequence of R182 for an agent; a store of the host has, for the agents
that begin after it (log 11). -/
def OldWord.through (x : OldWord) (seen : Seen) : Bool := x.stage == 2 && (if x.host then decide (x.epoch ≤ seen.2) else decide (x.epoch ≤ seen.1))

/-- The words that fetch may still see beside the one that stands there: those after the last store that has come through. -/
def fetchable (seen : Seen) (ws : List OldWord) : List OldWord := (ws.reverse.takeWhile (fun x => !x.through seen)).reverse

/-- A word as fetch may see it: where a store has not come through the sequence of R182 for this agent, a word from before it or a
later one, by a free choice (log 11). -/
def State.fetchMem (s : State) (pa : Nat) (seen : Seen) : Word × State :=
  let now : Word := BitVec.ofNat 32 (s.readLE pa 4)
  match fetchable seen (Tbl.getD s.stale pa []) with
  | [] => (now, s)
  | ws =>
    let f := s.free
    (((ws.map OldWord.word)).getD (f.1.toNat % (ws.length + 1)) now, f.2)

/-- Fetch the word at an address: the page must be resident and executable (15 R262); a marked word is refetched once and is
then state-lost (26 R395). `cause` is fetch-fault for a first word, split-fetch for an extension. -/
def State.fetchWord (s : State) (ctx : Nat) (a : Dword) (seen : Seen) (cause : Nat) (tag : Dword) : Eff (Word × State) :=
  let r := s.translate ctx a.toNat
  match r.1 with
  | .page p =>
    if p.canExec then
      let pa := p.pa a.toNat
      if !paExists pa then .error (.fault (.noMemory pa))
      else if r.2.isMarked pa 4 then fatalWith causeStateLost a
      else .ok (r.2.fetchMem pa seen)
    else fatalWith cause tag
  | _ => fatalWith cause tag

end Sys2Proof.Machine
end

