-- ==== Sys2Proof/Machine/Flags.lean ====
section
/-! DEFINITION. The flag computations: conditions of compares (03 R59, 04 R96) and the sticky flags an instruction raises in
the ACR of a strand's bundle (02 R40). -/

namespace Sys2Proof.Machine

/-- The condition cc of CMPP, ICMP and VCMP's integers on two values (03 R59): 0 eq, 1 ne, 2 lt, 3 ge, 4 ltn, 5 gen. -/
def condHolds {w : Nat} (cc : BitVec 3) (a b : BitVec w) : Bool :=
  match cc.toNat with
  | 0 => a == b
  | 1 => a != b
  | 2 => a.slt b
  | 3 => !a.slt b
  | 4 => a.ult b
  | _ => !a.ult b

/-- The condition cc of FCMP.F32 on two values, and whether it sets IV (04 R96): 0 eq, 1 ne, 2 lt, 3 ge, 4 le, 5 uo. -/
def fcondHolds (cc : BitVec 3) (x y : FVal) : Bool × FFlags :=
  match FVal.cmp x y with
  | none => (decide (cc = 1) || decide (cc = 5), { iv := decide (2 ≤ cc.toNat) && decide (cc.toNat ≤ 4) })
  | some r =>
    (match cc.toNat with
     | 0 => r == .eq
     | 1 => r != .eq
     | 2 => r == .lt
     | 3 => r != .lt
     | 4 => r != .gt
     | _ => false, FFlags.none)

/-- Raise flags in the ACR of a strand's bundle (02 R40). -/
def State.raiseOf (s : State) (i : Nat) (f : FFlags) : State := s.raise (strandBundle i) f

/-- The rounding mode and flush bit a strand computes with: those of its bundle (02 R40). -/
def State.modeOf (s : State) (i : Nat) : FMode := acrMode (s.acr (strandBundle i))
def State.fzOf (s : State) (i : Nat) : Bool := acrFz (s.acr (strandBundle i))

/-- A mode operand: 0-3 the four modes, 4 ACR.RM (04 R97, R99). -/
def modeOperand (b : Nat) (acrRm : FMode) : FMode := if b = 4 then acrRm else modeOfNat b

end Sys2Proof.Machine
end

