-- ==== Sys2Proof/Machine/Operands.lean ====
section
/-! DEFINITION. The operand forms: scalar sources and destinations of a bundle or stream (03 R54, R55), lane sources and
destinations of guarded strands (04 R94), and the address forms of memory instructions (04 R101). -/

namespace Sys2Proof.Machine

/-! ### Poison through a computation (03 R55, 14 R241) -/

/-- A one-source result: poison passes on with its origin index. -/
def Tagged.map1 {n m : Nat} (f : BitVec n → BitVec m) (x : Tagged n) : Tagged m :=
  match x.poison with
  | some k => ⟨0, some k⟩
  | none => ⟨f x.val, none⟩

/-- A two-source result: the first poisoned source in the order a, b gives the origin. -/
def Tagged.map2 {n m w : Nat} (f : BitVec n → BitVec m → BitVec w) (x : Tagged n) (y : Tagged m) : Tagged w :=
  match x.poison.or y.poison with
  | some k => ⟨0, some k⟩
  | none => ⟨f x.val y.val, none⟩

/-- A result of sources a, b and the implicit d. -/
def Tagged.map3 {n m : Nat} (f : BitVec n → BitVec n → BitVec n → BitVec m) (x y z : Tagged n) : Tagged m :=
  match (x.poison.or y.poison).or z.poison with
  | some k => ⟨0, some k⟩
  | none => ⟨f x.val y.val z.val, none⟩

/-! ### Scalar forms -/

/-- Act once for each complete bundle of the group by rising bundle index, or once for the stream (03 R54), where nothing
can stop. -/
def eachOwner (s : State) (f : Nat → State → State) : State := s.cur.owners.foldl (fun t o => f o t) s

/-- s(d) := f, with no register source. -/
def scalar0 (s : State) (d : BitVec 6) (v : Dword) : State := eachOwner s (fun o t => t.putS o d v)
/-- s(d) := f(s(a)). -/
def scalar1 (s : State) (d a : BitVec 6) (f : Dword → Dword) : State :=
  eachOwner s (fun o t => t.setS o d ((t.getS o a).map1 f))
/-- s(d) := f(s(a), s(b)). -/
def scalar2 (s : State) (d a b : BitVec 6) (f : Dword → Dword → Dword) : State :=
  eachOwner s (fun o t => t.setS o d (Tagged.map2 f (t.getS o a) (t.getS o b)))
/-- s(d) := f(s(a), s(b), s(d)). -/
def scalar3 (s : State) (d a b : BitVec 6) (f : Dword → Dword → Dword → Dword) : State :=
  eachOwner s (fun o t => t.setS o d (Tagged.map3 f (t.getS o a) (t.getS o b) (t.getS o d)))

/-- The immediate of a scalar instruction, sign-extended to 64 bits (03 R57). -/
def simm (imm : BitVec 32) : Dword := imm.signExtend 64

/-! ### Lane forms -/

/-- The strands of the group whose guard is true: the guards are read before any strand acts (01 R15, R20). -/
def actingStrands (s : State) (g : Guard) : List Nat := s.cur.strands.filter (fun i => s.guardOn g i)

/-- Act for each guarded strand, lowest bundle and then lowest strand first, where nothing can stop. -/
def eachStrand (g : Guard) (s : State) (f : Nat → State → State) : State :=
  (actingStrands s g).foldl (fun t i => f i t) s

/-- The lane register a six-bit field names. -/
def State.laneV (s : State) (i : Nat) (r : BitVec 6) : Tagged 32 := s.getV i r.toNat

/-- v(d) := v. -/
def lane0 (g : Guard) (s : State) (d : BitVec 6) (v : Word) : State := eachStrand g s (fun i t => t.putV i d.toNat v)
/-- v(d) := f(v(a)). -/
def lane1 (g : Guard) (s : State) (d a : BitVec 6) (f : Word → Word) : State :=
  eachStrand g s (fun i t => t.setV i d.toNat ((t.laneV i a).map1 f))
/-- v(d) := f(v(a), v(b)). -/
def lane2 (g : Guard) (s : State) (d a b : BitVec 6) (f : Word → Word → Word) : State :=
  eachStrand g s (fun i t => t.setV i d.toNat (Tagged.map2 f (t.laneV i a) (t.laneV i b)))
/-- v(d) := f(v(a), v(b), v(d)). -/
def lane3 (g : Guard) (s : State) (d a b : BitVec 6) (f : Word → Word → Word → Word) : State :=
  eachStrand g s (fun i t => t.setV i d.toNat (Tagged.map3 f (t.laneV i a) (t.laneV i b) (t.laneV i d)))

/-- Write a floating result and raise its flags; a poisoned source raises none (04 R94). -/
def State.setFloat (s : State) (i : Nat) (d : BitVec 6) (p : Option (BitVec 3)) (r : Nat × FFlags) : State :=
  match p with
  | some k => s.setV i d.toNat ⟨0, some k⟩
  | none => (s.putV i d.toNat (BitVec.ofNat 32 r.1)).raiseOf i r.2

/-- v(d) := f(mode, flush, v(a)), with flags. -/
def laneF1 (g : Guard) (s : State) (d a : BitVec 6) (f : FMode → Bool → Nat → Nat × FFlags) : State :=
  eachStrand g s (fun i t =>
    t.setFloat i d (t.laneV i a).poison (f (t.modeOf i) (t.fzOf i) (t.laneV i a).val.toNat))
/-- v(d) := f(mode, flush, v(a), v(b)), with flags. -/
def laneF2 (g : Guard) (s : State) (d a b : BitVec 6) (f : FMode → Bool → Nat → Nat → Nat × FFlags) : State :=
  eachStrand g s (fun i t =>
    t.setFloat i d ((t.laneV i a).poison.or (t.laneV i b).poison)
      (f (t.modeOf i) (t.fzOf i) (t.laneV i a).val.toNat (t.laneV i b).val.toNat))
/-- v(d) := f(mode, flush, v(a), v(b), v(d)), with flags. -/
def laneF3 (g : Guard) (s : State) (d a b : BitVec 6) (f : FMode → Bool → Nat → Nat → Nat → Nat × FFlags) : State :=
  eachStrand g s (fun i t =>
    t.setFloat i d (((t.laneV i a).poison.or (t.laneV i b).poison).or (t.laneV i d).poison)
      (f (t.modeOf i) (t.fzOf i) (t.laneV i a).val.toNat (t.laneV i b).val.toNat (t.laneV i d).val.toNat))

/-! ### Uses that may not be poisoned -/

/-- A lane register used where poison is not passed on (03 R55, 04 R94). -/
def State.useV (s : State) (i : Nat) (r : Nat) : Eff Word :=
  match (s.getV i r).poison with
  | some k => poisonTrap s causePoisonUse (strandBundle i) k
  | none => .ok (s.getV i r).val

/-- A lane pair used where poison is not passed on. -/
def State.useD (s : State) (i : Nat) (n : Nat) : Eff Dword :=
  match (s.getD2 i n).poison with
  | some k => poisonTrap s causePoisonUse (strandBundle i) k
  | none => .ok (s.getD2 i n).val

/-! ### Address forms (04 R101) -/

/-- The base of a Format D or T access of strand i: s(a) of its bundle, or its own d(a). -/
def State.laneBase (s : State) (i : Nat) (a : BitVec 6) (lb : Bool) : Eff Dword :=
  if lb then s.useD i a.toNat else s.useS (strandBundle i) a

/-- The address base + offset, the offset in bytes (04 R101). -/
def State.laneAddr (s : State) (i : Nat) (a : BitVec 6) (lb : Bool) {w : Nat} (off : BitVec w) : Eff Dword :=
  match s.laneBase i a lb with
  | .ok b => .ok (b + off.signExtend 64)
  | .error e => .error e

/-- A range of PROBE and the maintenance instructions: s(a), s(b) of an owner, or d(a) and v(b) of a strand. -/
def State.scalarRange (s : State) (o : Nat) (a b : BitVec 6) : Eff (Dword × Dword) :=
  match s.useS o a with
  | .ok x =>
    match s.useS o b with
    | .ok y => .ok (x, y)
    | .error e => .error e
  | .error e => .error e

def State.laneRange (s : State) (i : Nat) (a b : BitVec 6) : Eff (Dword × Dword) :=
  match s.useD i a.toNat with
  | .ok x =>
    match s.useV i b.toNat with
    | .ok y => .ok (x, y.setWidth 64)
    | .error e => .error e
  | .error e => .error e

/-- The owner a strand's or the stream's registers belong to in the group being issued: the first owner. -/
def State.firstOwner (s : State) : Nat := s.cur.allOwners.headD 0

end Sys2Proof.Machine
end

