-- ==== Sys2Proof/Machine/Scalar.lean ====
section
/-! DEFINITION. The scalar instructions, class SCL (03 R57-R63). Results wrap modulo 2^64; none raises a flag or traps, but
for the poison uses of R55. -/

namespace Sys2Proof.Machine

open Host (Outcome)
open Sys2Proof (Guard)

/-! ### The computations -/

/-- Bits [127:64] of the signed and of the unsigned product (03 R57). -/
def mulHigh (isSigned : Bool) (a b : Dword) : Dword :=
  if isSigned then ((a.signExtend 128) * (b.signExtend 128)).extractLsb' 64 64
  else ((a.setWidth 128) * (b.setWidth 128)).extractLsb' 64 64

/-- Division (03 R58): truncating; a zero divisor gives all ones. -/
def divS (a b : Dword) : Dword := if b = 0 then -1 else a.sdiv b
def divU (a b : Dword) : Dword := if b = 0 then -1 else a / b
/-- Remainder with the sign of the dividend; a zero divisor gives the dividend. -/
def remS (a b : Dword) : Dword := if b = 0 then a else a.srem b
def remU (a b : Dword) : Dword := if b = 0 then a else a % b

/-- The shift distance b[5:0]. -/
def shiftOf (b : Dword) : Nat := (b.extractLsb' 0 6).toNat

/-- Minimum and maximum of a width, signed or unsigned. -/
def pickMin {w : Nat} (isSigned : Bool) (a b : BitVec w) : BitVec w :=
  if (if isSigned then a.slt b else a.ult b) then a else b
def pickMax {w : Nat} (isSigned : Bool) (a b : BitVec w) : BitVec w :=
  if (if isSigned then a.slt b else a.ult b) then b else a

/-- CMP: -1, 0 or 1 (03 R59). -/
def cmpVal (un : Bool) (a b : Dword) : Dword :=
  if a = b then 0 else if (if un then a.ult b else a.slt b) then -1 else 1

/-- LEA: the address wraps in 56 bits under a's tag and top bits (03 R60). -/
def leaVal (sub : Bool) (a b : Dword) : Dword :=
  let lo := a.extractLsb' 0 56
  let hi := b.extractLsb' 0 56
  a.extractLsb' 56 8 ++ (if sub then lo - hi else lo + hi)

/-- Leading zeros of a word. -/
def clzVal {w : Nat} (a : BitVec w) : Nat := if a = 0 then w else w - 1 - Nat.log2 a.toNat
/-- Trailing zeros: the first set bit from position i on, with k positions left. -/
def ctzFrom {w : Nat} (a : BitVec w) (i : Nat) : Nat → Nat
  | 0 => i
  | k + 1 => if a.getLsbD i then i else ctzFrom a (i + 1) k
def ctzVal {w : Nat} (a : BitVec w) : Nat := ctzFrom a 0 w
/-- One bits of a word. -/
def popVal {w : Nat} (a : BitVec w) : Nat := ((List.range w).filter (fun i => a.getLsbD i)).length

/-- The bits [lo + width - 1 : lo] of a, positions above the word reading as zero (03 R60, 04 R95). -/
def bitField {w : Nat} (isSigned : Bool) (a : BitVec w) (lo width : Nat) : BitVec w :=
  let f := (a.toNat / 2 ^ lo) % 2 ^ width
  if isSigned && f.testBit (width - 1) then BitVec.ofInt w ((f : Int) - (2 ^ width : Nat)) else BitVec.ofNat w f

/-- Insert a at lo under a mask of width ones (03 R60). -/
def bitInsert {w : Nat} (d a : BitVec w) (lo width : Nat) : BitVec w :=
  let mask := BitVec.ofNat w ((2 ^ width - 1) * 2 ^ lo)
  (d &&& ~~~mask) ||| ((a <<< lo) &&& mask)

/-- lo and width of the scalar bit-field instructions (03 R60). -/
def fieldLo (b : Dword) : Nat := (b.extractLsb' 0 6).toNat
def fieldWidth (b : Dword) : Nat := (b.extractLsb' 6 6).toNat + 1

/-- Bit i of the result is bit 63 - i (03 R57). -/
def bitReverse (a : Dword) : Dword := a.reverse

/-- The exact integer clamped to a type of w bits. -/
def clampBits (isSigned : Bool) (w : Nat) (x : Int) : BitVec w :=
  BitVec.ofInt w (clampInt (intLo isSigned w) (intHi isSigned w) x)

/-! ### Meanings -/

def execAdd (d a b : BitVec 6) (s : State) : Outcome State Fault Refusal := .next (scalar2 s d a b (fun x y => x + y))
def execAddi (d a : BitVec 6) (imm : BitVec 32) (s : State) : Outcome State Fault Refusal :=
  .next (scalar1 s d a (fun x => x + simm imm))
def execSub (d a b : BitVec 6) (s : State) : Outcome State Fault Refusal := .next (scalar2 s d a b (fun x y => x - y))
def execMul (d a b : BitVec 6) (s : State) : Outcome State Fault Refusal := .next (scalar2 s d a b (fun x y => x * y))
def execMulhI (d a b : BitVec 6) (s : State) : Outcome State Fault Refusal := .next (scalar2 s d a b (mulHigh true))
def execMulhN (d a b : BitVec 6) (s : State) : Outcome State Fault Refusal := .next (scalar2 s d a b (mulHigh false))
def execDivI (d a b : BitVec 6) (s : State) : Outcome State Fault Refusal := .next (scalar2 s d a b divS)
def execDivN (d a b : BitVec 6) (s : State) : Outcome State Fault Refusal := .next (scalar2 s d a b divU)
def execRemI (d a b : BitVec 6) (s : State) : Outcome State Fault Refusal := .next (scalar2 s d a b remS)
def execRemN (d a b : BitVec 6) (s : State) : Outcome State Fault Refusal := .next (scalar2 s d a b remU)
def execAnd (d a b : BitVec 6) (s : State) : Outcome State Fault Refusal := .next (scalar2 s d a b (fun x y => x &&& y))
def execOr (d a b : BitVec 6) (s : State) : Outcome State Fault Refusal := .next (scalar2 s d a b (fun x y => x ||| y))
def execXor (d a b : BitVec 6) (s : State) : Outcome State Fault Refusal := .next (scalar2 s d a b (fun x y => x ^^^ y))
def execAndi (d a : BitVec 6) (imm : BitVec 32) (s : State) : Outcome State Fault Refusal :=
  .next (scalar1 s d a (fun x => x &&& simm imm))
def execOri (d a : BitVec 6) (imm : BitVec 32) (s : State) : Outcome State Fault Refusal :=
  .next (scalar1 s d a (fun x => x ||| simm imm))
def execXori (d a : BitVec 6) (imm : BitVec 32) (s : State) : Outcome State Fault Refusal :=
  .next (scalar1 s d a (fun x => x ^^^ simm imm))
def execShl (d a b : BitVec 6) (s : State) : Outcome State Fault Refusal :=
  .next (scalar2 s d a b (fun x y => x <<< shiftOf y))
def execShrI (d a b : BitVec 6) (s : State) : Outcome State Fault Refusal :=
  .next (scalar2 s d a b (fun x y => x.sshiftRight (shiftOf y)))
def execShrN (d a b : BitVec 6) (s : State) : Outcome State Fault Refusal :=
  .next (scalar2 s d a b (fun x y => x >>> shiftOf y))
def execRot (d a b : BitVec 6) (s : State) : Outcome State Fault Refusal :=
  .next (scalar2 s d a b (fun x y => x.rotateRight (shiftOf y)))
def execMinI (d a b : BitVec 6) (s : State) : Outcome State Fault Refusal := .next (scalar2 s d a b (pickMin true))
def execMinN (d a b : BitVec 6) (s : State) : Outcome State Fault Refusal := .next (scalar2 s d a b (pickMin false))
def execMaxI (d a b : BitVec 6) (s : State) : Outcome State Fault Refusal := .next (scalar2 s d a b (pickMax true))
def execMaxN (d a b : BitVec 6) (s : State) : Outcome State Fault Refusal := .next (scalar2 s d a b (pickMax false))
def execAbs (d a : BitVec 6) (s : State) : Outcome State Fault Refusal :=
  .next (scalar1 s d a (fun x => if x.msb then 0 - x else x))
def execNeg (d a : BitVec 6) (s : State) : Outcome State Fault Refusal := .next (scalar1 s d a (fun x => 0 - x))
def execCmp (d a b : BitVec 6) (m : Bool) (s : State) : Outcome State Fault Refusal := .next (scalar2 s d a b (cmpVal m))

/-- CMPP's write of an outcome: p(tg) in every live strand of a bundle, or s(tg) of a stream (03 R59). -/
def State.setCond (s : State) (o : Nat) (tg : BitVec 3) (v : Bool) : State :=
  if ownerIsTile o then s.putS o (tg.setWidth 6) (if v then 1 else 0)
  else (s.liveStrands o).foldl (fun t i => t.setP i tg.toNat v) s

/-- CMPP of one owner: a poisoned source raises poison-use (03 R55). -/
def cmppOwner (cc tg : BitVec 3) (a b : BitVec 6) (o : Nat) (s : State) : Eff State :=
  match s.scalarRange o a b with
  | .ok (x, y) => .ok (s.setCond o tg (condHolds cc x y))
  | .error e => .error e

def execCmpp (cc tg : BitVec 3) (a b : BitVec 6) (s : State) : Outcome State Fault Refusal :=
  conclude s (forOwners s (cmppOwner cc tg a b))
def execSel (d a b : BitVec 6) (s : State) : Outcome State Fault Refusal :=
  .next (scalar3 s d a b (fun x y z => if z = 0 then y else x))
def execMov (d a : BitVec 6) (s : State) : Outcome State Fault Refusal := .next (scalar1 s d a (fun x => x))
def execMovi (d : BitVec 6) (imm : BitVec 32) (s : State) : Outcome State Fault Refusal := .next (scalar0 s d (simm imm))
def execMovh (d a : BitVec 6) (imm : BitVec 32) (s : State) : Outcome State Fault Refusal :=
  .next (scalar1 s d a (fun x => imm ++ x.extractLsb' 0 32))
def execLea (d a b : BitVec 6) (m : Bool) (s : State) : Outcome State Fault Refusal := .next (scalar2 s d a b (leaVal m))
def execPopc (d a : BitVec 6) (s : State) : Outcome State Fault Refusal :=
  .next (scalar1 s d a (fun x => BitVec.ofNat 64 (popVal x)))
def execClz (d a : BitVec 6) (s : State) : Outcome State Fault Refusal :=
  .next (scalar1 s d a (fun x => BitVec.ofNat 64 (clzVal x)))
def execCtz (d a : BitVec 6) (s : State) : Outcome State Fault Refusal :=
  .next (scalar1 s d a (fun x => BitVec.ofNat 64 (ctzVal x)))
def execBfxI (d a b : BitVec 6) (s : State) : Outcome State Fault Refusal :=
  .next (scalar2 s d a b (fun x y => bitField true x (fieldLo y) (fieldWidth y)))
def execBfxN (d a b : BitVec 6) (s : State) : Outcome State Fault Refusal :=
  .next (scalar2 s d a b (fun x y => bitField false x (fieldLo y) (fieldWidth y)))
def execBfi (d a b : BitVec 6) (s : State) : Outcome State Fault Refusal :=
  .next (scalar3 s d a b (fun x y z => bitInsert z x (fieldLo y) (fieldWidth y)))
def execBrev (d a : BitVec 6) (s : State) : Outcome State Fault Refusal := .next (scalar1 s d a bitReverse)
def execMad (d a b : BitVec 6) (s : State) : Outcome State Fault Refusal :=
  .next (scalar3 s d a b (fun x y z => z + x * y))
def execAddsI (d a b : BitVec 6) (s : State) : Outcome State Fault Refusal :=
  .next (scalar2 s d a b (fun x y => clampBits true 64 (x.toInt + y.toInt)))
def execAddsN (d a b : BitVec 6) (s : State) : Outcome State Fault Refusal :=
  .next (scalar2 s d a b (fun x y => clampBits false 64 ((x.toNat : Int) + y.toNat)))
def execSubsI (d a b : BitVec 6) (s : State) : Outcome State Fault Refusal :=
  .next (scalar2 s d a b (fun x y => clampBits true 64 (x.toInt - y.toInt)))
def execSubsN (d a b : BitVec 6) (s : State) : Outcome State Fault Refusal :=
  .next (scalar2 s d a b (fun x y => clampBits false 64 ((x.toNat : Int) - y.toNat)))

/-! ### Mailboxes, time and work identifiers -/

/-- MBX n of a context (03 R61, 25 R375). -/
def State.mbx (s : State) (c n : Nat) : Dword := Tbl.getD (s.ctx c).mbx n 0
def State.setMbx (s : State) (c n : Nat) (v : Dword) : State :=
  s.setCtx c { s.ctx c with mbx := Tbl.put 0 (s.ctx c).mbx n v }

/-- MBX: the a field, not its value, decides whether the mailbox is written; a poisoned write raises poison-use (03 R61). -/
def mbxOwner (d a : BitVec 6) (n : Nat) (o : Nat) (s : State) : Eff State :=
  let old := s.mbx s.cur.ctx n
  if a = 0 then .ok (s.putS o d old)
  else
    match s.useS o a with
    | .ok v => .ok ((s.setMbx s.cur.ctx n v).putS o d old)
    | .error e => .error e

def execMbx (d a : BitVec 6) (imm : BitVec 32) (s : State) : Outcome State Fault Refusal :=
  conclude s (forOwners s (mbxOwner d a imm.toNat))

/-- TIME of one owner: device time, delivered or replayed (03 R62, 08 R185). -/
def timeOwner (d : BitVec 6) (o : Nat) (s : State) : State :=
  let r := s.readTime
  let v := r.2.deliver o 0 1 (BitVec.ofNat 64 r.1)
  v.2.putS o d v.1

def execTime (d : BitVec 6) (s : State) : Outcome State Fault Refusal := .next (eachOwner s (timeOwner d))

/-- The header of an owner's launch. -/
def State.ownerHeader (s : State) (o : Nat) : List Dword :=
  match s.launchOf o with
  | some l => s.header l
  | none => []

/-- Field n of the work identifier of strand 0 of a bundle: the identifier is the bundle index above f0 (06 R126, R127). -/
def State.workField (s : State) (o n : Nat) : Nat :=
  match Tbl.find? s.bundles o with
  | none => 0
  | some b =>
    let h := s.ownerHeader o
    b.index * 2 ^ hdrWidth h 0 / 2 ^ hdrOffset h n % 2 ^ hdrWidth h n

/-- WID's value (03 R63): the field, its width or its extent. -/
def State.widVal (s : State) (o n : Nat) : Dword :=
  let h := s.ownerHeader o
  if n < 8 then BitVec.ofNat 64 (s.workField o n)
  else if n < 16 then BitVec.ofNat 64 (hdrWidth h (n - 8))
  else BitVec.ofNat 64 (hdrExtent h (n - 16))

def execWid (d : BitVec 6) (imm : BitVec 32) (s : State) : Outcome State Fault Refusal :=
  .next (eachOwner s (fun o t => t.putS o d (t.widVal o imm.toNat)))

end Sys2Proof.Machine
end

