-- ==== Sys2Proof/Machine/Control.lean ====
section
/-! DEFINITION. The control instructions that steer the program counter, vote, meet at barriers, wait, order memory, trap and
end strands (03 R64-R82), and the system registers (03 R89, R90). -/

namespace Sys2Proof.Machine

open Host (Outcome)

/-! ### Who takes a control transfer (03 R54) -/

/-- A strand of the group, or the stream of a tile. -/
inductive Who where
  | strand (i : Nat)
  | stream (t : Nat)
deriving DecidableEq, Repr

/-- Each strand of a raster group takes a G instruction for itself; a tile stream takes it once (03 R54). -/
def State.actors (s : State) : List Who :=
  match s.cur.profile with
  | .raster => s.cur.strands.map .strand
  | .tile => s.cur.owners.map .stream

/-- The owner whose scalar registers an actor reads. -/
def Who.owner : Who → Nat
  | .strand i => strandBundle i
  | .stream t => t

/-- Act for each actor in order. -/
def forActors (s : State) (f : Who → State → Eff State) : Eff State := s.actors.foldlM (fun t w => f w t) s

/-- Loop levels, innermost first (03 R67). -/
def State.loopsOf (s : State) : Who → List Loop
  | .strand i => (s.strand i).loops
  | .stream t => match (s.tile t).stream with
    | some st => st.loops
    | none => []

def State.setLoops (s : State) (w : Who) (ls : List Loop) : State :=
  match w with
  | .strand i => s.setStrand i { s.strand i with loops := ls }
  | .stream t => s.setStream t (fun (st : Stream) => { st with loops := ls })

/-- A target with bits [1:0] or [63:56] set is bad (03 R66). -/
def targetOk (a : Dword) : Bool := a.extractLsb' 0 2 == 0 && a.extractLsb' 56 8 == 0

/-- Transfer control of an actor to an address, or raise bad-target (03 R66). -/
def State.jump (s : State) (w : Who) (a : Dword) : Eff State :=
  if targetOk a then
    .ok (match w with
      | .strand i => s.setStrand i { s.strand i with pc := a, moved := true }
      | .stream t => s.setStream t (fun (st : Stream) => { st with target := some a }))
  else trapWith causeBadTarget 0

/-- Whether an address lies in a level's body. -/
def Loop.holds (l : Loop) (a : Dword) : Bool := decide (l.start.toNat ≤ a.toNat) && decide (a.toNat ≤ l.last.toNat)

/-- A taken BRA, BRAC or BRX out of the innermost level pops it and every outer level that excludes the target (03 R68). -/
def popLoops (ls : List Loop) (a : Dword) : List Loop :=
  match ls with
  | [] => []
  | l :: rest => if l.holds a then l :: rest else rest.filter (fun x => x.holds a)

/-- A branch: pop the levels it leaves, then transfer. -/
def State.branch (s : State) (w : Who) (a : Dword) : Eff State :=
  (s.setLoops w (popLoops (s.loopsOf w) a)).jump w a

/-- A direct target: the instruction's own address and a word offset (03 R65). -/
def State.branchTarget (s : State) (off : BitVec 32) : Dword := s.cur.pc + (off.signExtend 64 <<< 2)

/-! ### Transfers (03 R65, R66) -/

def execNop (s : State) : Outcome State Fault Refusal := .next s

def execBra (off : BitVec 32) (s : State) : Outcome State Fault Refusal :=
  conclude s (forActors s (fun w t => t.branch w (s.branchTarget off)))

/-- The branch queue is key 7 of a stream's queues (16 R287). -/
def State.queue (s : State) (t q : Nat) : List Nat :=
  match (s.tile t).stream with
  | some st => Tbl.getD st.queues q []
  | none => []

def State.setQueue (s : State) (t q : Nat) (es : List Nat) : State :=
  s.setStream t (fun (st : Stream) => { st with queues := Tbl.put [] st.queues q es })

/-- Entries at the tail of a queue that the group being issued, or a later one, has pushed (01 R20). -/
def State.hiddenIn (s : State) (t q : Nat) : Nat :=
  match (s.tile t).stream with
  | some st => Tbl.getD st.hidden q 0
  | none => 0

/-- Pop a queue; the processor stalls while it holds no entry of an earlier group (01 R20, 18 R292). -/
def State.popQueue (s : State) (t q : Nat) : Eff (Nat × State) :=
  match s.queue t q with
  | [] => waitWith .again
  | e :: rest => if rest.length < s.hiddenIn t q then waitWith .again else .ok (e, s.setQueue t q rest)

/-- The test of BRAC before n, and the state after it: a predicate, an entry of bq, or a scalar register (03 R65). -/
def State.bracTest (s : State) (w : Who) (kind : Bool) (c : BitVec 6) : Eff (Bool × State) :=
  if kind then
    match s.useS w.owner c with
    | .ok v => .ok (v != 0, s)
    | .error e => .error e
  else
    match w with
    | .strand i => .ok (s.getP i c.toNat, s)
    | .stream t =>
      match s.popQueue t 7 with
      | .ok (v, s1) => .ok (v != 0, s1)
      | .error e => .error e

/-- BRAC of one actor: taken when the test, inverted by n, is true. -/
def bracActor (kind : Bool) (c : BitVec 6) (n : Bool) (a : Dword) (w : Who) (s : State) : Eff State :=
  match s.bracTest w kind c with
  | .ok (v, s1) => if v != n then s1.branch w a else .ok s1
  | .error e => .error e

def execBrac (kind : Bool) (c : BitVec 6) (n : Bool) (off : BitVec 32) (s : State) : Outcome State Fault Refusal :=
  conclude s (forActors s (bracActor kind c n (s.branchTarget off)))

/-- BRX of one actor: the target from s(a), or with m from the strand's own d(a) (03 R66). -/
def brxActor (a : BitVec 6) (m : Bool) (w : Who) (s : State) : Eff State :=
  let target : Eff Dword := match m, w with
    | true, .strand i => s.useD i a.toNat
    | _, _ => s.useS w.owner a
  match target with
  | .ok v => s.branch w v
  | .error e => .error e

def execBrx (a : BitVec 6) (m : Bool) (s : State) : Outcome State Fault Refusal :=
  conclude s (forActors s (brxActor a m))

/-- The link of CALL: d31 of a strand, s63 of a stream (03 R66). -/
def State.setLink (s : State) (w : Who) (a : Dword) : State :=
  match w with
  | .strand i => s.setD2 i 31 ⟨a, none⟩
  | .stream t => s.putS t 63 a

def execCall (off : BitVec 32) (s : State) : Outcome State Fault Refusal :=
  conclude s (forActors s (fun w t => (t.setLink w s.nextPc).jump w (s.branchTarget off)))

/-- RET of one actor: the target from d(a) of a strand or s(a) of a stream; no level is popped (03 R66, R68). -/
def retActor (a : BitVec 6) (w : Who) (s : State) : Eff State :=
  let target : Eff Dword := match w with
    | .strand i => s.useD i a.toNat
    | .stream t => s.useS t a
  match target with
  | .ok v => s.jump w v
  | .error e => .error e

def execRet (a : BitVec 6) (s : State) : Outcome State Fault Refusal := conclude s (forActors s (retActor a))

/-! ### Loops (03 R67) -/

/-- What an actor's fetch has observed. -/
def Stream.seen (st : Stream) : Seen := (st.fetchEpoch, st.born)
def State.epochOf (s : State) : Who → Seen
  | .strand i => ((s.strand i).fetchEpoch, (s.strand i).born)
  | .stream t => match (s.tile t).stream with
    | some st => st.seen
    | none => (0, 0)

/-- The address after the instruction at an address, read for its L bit. -/
def State.afterWord (s : State) (w : Who) (a : Dword) : Eff (Dword × State) :=
  match s.fetchWord s.cur.ctx a (s.epochOf w) causeFetchFault a with
  | .ok (x, t) => .ok (a + (if x.getLsbD 26 then 8 else 4), t)
  | .error e => .error e

/-- Start a loop of `n` iterations whose last instruction stands `imm` words on: a count of zero skips the body, a third
level raises loop-depth. -/
def loopActor (n : Nat) (imm : BitVec 32) (w : Who) (s : State) : Eff State :=
  let last := s.branchTarget imm
  if n = 0 then
    match s.afterWord w last with
    | .ok (a, t) => t.jump w a
    | .error e => .error e
  else if 2 ≤ (s.loopsOf w).length then trapWith causeLoopDepth 0
  else .ok (s.setLoops w (⟨s.nextPc, last, n⟩ :: s.loopsOf w))

/-- LOOP of one actor: the count is s(a), and above 2^32 - 1 raises loop-count. -/
def loopRegActor (a : BitVec 6) (imm : BitVec 32) (w : Who) (s : State) : Eff State :=
  match s.useS w.owner a with
  | .ok v => if 2 ^ 32 ≤ v.toNat then trapWith causeLoopCount 0 else loopActor v.toNat imm w s
  | .error e => .error e

def execLoop (a : BitVec 6) (imm : BitVec 32) (s : State) : Outcome State Fault Refusal :=
  conclude s (forActors s (loopRegActor a imm))
def execLoopi (cnt : BitVec 12) (imm : BitVec 32) (s : State) : Outcome State Fault Refusal :=
  conclude s (forActors s (loopActor cnt.toNat imm))

/-- The back-edge: what the levels become when the instruction at `a` completes without transferring control, where control
goes, and whether the innermost level turned (03 R67). -/
def backEdge (ls : List Loop) (a : Dword) : List Loop × Option Dword :=
  match ls with
  | [] => ([], none)
  | l :: rest =>
    if l.last = a then
      if 1 < l.count then ({ l with count := l.count - 1 } :: rest, some l.start)
      else backEdge rest a
    else (l :: rest, none)

/-! ### Votes (03 R69) -/

/-- The live strands of a bundle in which p(a) is true. -/
def State.votes (s : State) (o : Nat) (a : BitVec 3) : List Nat := (s.liveStrands o).filter (fun i => s.getP i a.toNat)

/-- VOTE.ANY: whether any live strand holds p(a), or the mask of those that do. -/
def voteAnyVal (s : State) (o : Nat) (a : BitVec 3) (m : Bool) : Dword :=
  if m then (s.votes o a).foldl (fun x i => x ||| (1#64 <<< strandIndex i)) 0
  else if (s.votes o a).isEmpty then 0 else 1

def execVoteAny (d : BitVec 6) (a : BitVec 3) (m : Bool) (s : State) : Outcome State Fault Refusal :=
  .next (eachOwner s (fun o t => t.putS o d (voteAnyVal t o a m)))
def execVoteAll (d : BitVec 6) (a : BitVec 3) (s : State) : Outcome State Fault Refusal :=
  .next (eachOwner s (fun o t => t.putS o d (if (t.votes o a).length = (t.liveStrands o).length then 1 else 0)))

/-! ### Park points (01 R23, 06 R135) -/

/-- Strands of the group that must wait leave it, parked at the group's first word; a bundle stays while strands of it do. -/
def State.parkOut (s : State) (w : Nat → Option Wait) : State :=
  let s1 := s.cur.strands.foldl (fun t i => match w i with
    | some x => t.parkStrand s.cur.gpc x i
    | none => t) s
  let stay := s.cur.strands.filter (fun i => (w i).isNone)
  { s1 with cur := { s.cur with strands := stay,
                                owners := s.cur.owners.filter (fun o => ownerIsTile o || stay.any (fun i => strandBundle i == o)) } }

/-- Where the instruction being carried out stands in its group. -/
def State.groupOffset (s : State) : Nat := (s.cur.pc - s.cur.gpc).toNat

/-- A tile's access processor stalls on a wait: its stream takes no part in the group (18 R292). -/
def State.stall (s : State) (w : Wait) : State :=
  let s1 := s.cur.owners.foldl (fun t o => t.setStream o (fun (st : Stream) => 
    { st with wait := some (w.over st.wait), parked := Tbl.insert st.parked s.groupOffset (w.over (Tbl.find? st.parked s.groupOffset)) })) s
  { s1 with cur := { s.cur with owners := [] } }

/-- A condition of each owner: its strands leave a raster group, and a tile's access processor stalls. -/
def State.ownerPoint (s : State) (w : Nat → Option Wait) : State :=
  match s.cur.profile with
  | .raster => s.parkOut (fun i => w (strandBundle i))
  | .tile =>
    match s.cur.owners.filterMap w with
    | [] => s
    | x :: _ => s.stall x

/-- What an owner is already waiting on at this instruction. -/
def State.ownerWait (s : State) (o : Nat) : Option Wait :=
  if ownerIsTile o then (match (s.tile o).stream with
    | some st => Tbl.find? st.parked s.groupOffset
    | none => none)
  else (s.cur.strands.filter (fun i => strandBundle i == o)).findSome? (fun i => match (s.strand i).stat with
    | .parked w => some w
    | _ => none)

/-! ### Barriers (03 R70-R72, 06 R140) -/

/-- An arrival at a strand or core barrier: at the target the generation rises, the count returns to zero and the target is
unset (03 R70). -/
def Barrier.settle (b : Barrier) (target : Nat) : Barrier :=
  if b.count = target then ⟨0, none, (b.gen + 1) % 2 ^ 32⟩ else b

/-- A pixel bundle: it is none of its crew's bundles for barriers, collectives and f1 (20 R331). -/
def State.isPixelBundle (s : State) (b : Nat) : Bool :=
  (Tbl.find? s.bundles b).any (fun (x : Bundle) => decide (2 ^ 160 ≤ x.index))

/-- Live strands of a crew, as the targets of its barriers count them: those of pixel bundles are left out (20 R331). -/
def State.crewLive (s : State) (c : Nat) : Nat :=
  match Tbl.find? s.crews c with
  | some x => (((x.bundles.filter (fun b => !s.isPixelBundle b)).map (fun b => (s.liveStrands b).length))).sum
  | none => 0

/-- Evaluate a crew barrier that strands wait at (03 R71). -/
def State.settleCrewBar (s : State) (c n : Nat) : State :=
  match Tbl.find? s.crews c with
  | some x =>
    let b := Tbl.getD x.bars n Barrier.zero
    if b.count = 0 then s
    else s.setCrew c { x with bars := Tbl.insert x.bars n (b.settle (s.crewLive c)) }
  | none => s

/-- Which die of its grove a crew runs on: false the first (06 R137). -/
def State.groveSecond (s : State) (x : Crew) : Bool :=
  let h := s.header x.launch
  let e2 := hdrExtent h 2
  decide ((e2 + 1) / 2 ≤ x.index % 2 ^ hdrWidth h 2)

/-- Live strands of a grove on one of its dies. -/
def State.groveLive (s : State) (g : Nat) (second : Bool) : Nat :=
  ((s.crews.filter (fun e => e.2.grove == some g && s.groveSecond e.2 == second)).map (fun e => s.crewLive e.1)).sum

def Grove.bar (g : Grove) (second : Bool) (n : Nat) : GroveBar :=
  Tbl.getD (if second then g.second else g.first) n GroveBar.zero
def Grove.setBar (g : Grove) (second : Bool) (n : Nat) (b : GroveBar) : Grove :=
  if second then { g with second := Tbl.insert g.second n b } else { g with first := Tbl.insert g.first n b }

/-- The local and the remote phase of a grove barrier on one die (06 R140): a die with no live strand counts as done. -/
def State.settleGroveBar (s : State) (g n : Nat) (second : Bool) : State :=
  match Tbl.find? s.groves g with
  | none => s
  | some x =>
    let b := x.bar second n
    let live := s.groveLive g second
    let b1 := if b.arrivals = live ∧ (b.arrivals ≠ 0 ∨ b.heard) then { b with done := true } else b
    let b2 : GroveBar := if b1.done ∧ b1.heard then ⟨0, false, false, (b1.gen + 1) % 2 ^ 32⟩ else b1
    { s with groves := Tbl.insert s.groves g (x.setBar second n b2) }

/-- The generation a strand's wait is held to, where it has arrived already. -/
def arrivedGen (x : Strand) (grove : Bool) (n : Nat) : Option Nat :=
  match x.stat with
  | .parked (.barrier g m k) => if g = grove ∧ m = n then some k else none
  | _ => none

/-- One strand arrives at a barrier of its crew, or of its grove, unless it has (03 R71). -/
def State.arrive (s : State) (grove : Bool) (n i : Nat) : State :=
  match s.crewOf (strandBundle i) with
  | none => s
  | some (c, x) =>
    if (arrivedGen (s.strand i) grove n).isSome then s
    else if grove then
      match x.grove with
      | none => s
      | some g =>
        match Tbl.find? s.groves g with
        | none => s
        | some y =>
          let second := s.groveSecond x
          let b := y.bar second n
          let s1 := { s with groves := Tbl.insert s.groves g (y.setBar second n { b with arrivals := b.arrivals + 1 }) }
          (s1.setStrand i { s1.strand i with stat := .parked (.barrier true n b.gen) }).settleGroveBar g n second
    else
      let b := Tbl.getD x.bars n Barrier.zero
      let s1 := s.setCrew c { x with bars := Tbl.insert x.bars n { b with count := b.count + 1 } }
      (s1.setStrand i { s1.strand i with stat := .parked (.barrier false n b.gen) }).settleCrewBar c n

/-- The generation of the barrier a strand stands at. -/
def State.barGen (s : State) (grove : Bool) (n i : Nat) : Nat :=
  match s.crewOf (strandBundle i) with
  | none => 0
  | some (_, x) =>
    if grove then
      match x.grove with
      | none => 0
      | some g => match Tbl.find? s.groves g with
        | some y => (y.bar (s.groveSecond x) n).gen
        | none => 0
    else (Tbl.getD x.bars n Barrier.zero).gen

/-- BAR.CREW and BAR.GROVE as park points: each strand arrives once, and those whose phase has not completed leave. -/
def State.barPoint (s : State) (grove : Bool) (n : Nat) : State :=
  let s1 := s.cur.strands.foldl (fun t i => t.arrive grove n i) s
  let s2 := s1.parkOut (fun i => match arrivedGen (s1.strand i) grove n with
    | some k => if s1.barGen grove n i = k then some (.barrier grove n k) else none
    | none => none)
  s2.cur.strands.foldl (fun t i => t.setStrand i { t.strand i with stat := .ready }) s2

/-- Once the group has been found free to go on, its strands have arrived already. -/
def execBarCrew (imm : BitVec 32) (s : State) : Outcome State Fault Refusal :=
  .next (if s.cur.cleared then s else s.barPoint false imm.toNat)

/-- BAR.GROVE needs a grove launch (03 R71). -/
def groveCheck (s : State) : Eff State :=
  if s.cur.strands.all (fun i => match s.crewOf (strandBundle i) with
      | some (_, x) => x.grove.isSome
      | none => false) then .ok s
  else trapWith causeNoGrove 0

def execBarGrove (imm : BitVec 32) (s : State) : Outcome State Fault Refusal :=
  conclude s (if s.cur.cleared then .ok s else (groveCheck s).map (fun t => t.barPoint true imm.toNat))

/-- What an owner's launch holds on the owner's core (03 R70). -/
def State.stayOf (s : State) (o : Nat) : Option (Nat × Stay) :=
  match s.launchOf o, s.coreOf o with
  | some l, some k => List.find? (fun (e : Nat × Stay) => e.2.launch == l && e.2.core == some k) s.stays
  | _, _ => none

/-- Live bundles of a launch on a core. -/
def State.liveBundles (s : State) (l k : Nat) : Nat :=
  (s.bundles.filter (fun e => !e.2.exited && (match Tbl.find? s.crews e.2.crew with
    | some x => x.launch == l && x.core == some k && !x.ended
    | none => false))).length

/-- One arrival at a core barrier of a stay; `target` is the target it finds or sets (03 R72, 12 R224). -/
def State.coreArrive (s : State) (k n target : Nat) : State :=
  match Tbl.find? s.stays k with
  | none => s
  | some x =>
    let b := Tbl.getD x.bars n Barrier.zero
    let b1 : Barrier := { b with count := b.count + 1, target := some target }
    { s with stays := Tbl.insert s.stays k { x with bars := Tbl.insert x.bars n (b1.settle target) } }

/-- BAR.ARRIVE of a bundle (03 R72). -/
def barArriveOwner (d a : BitVec 6) (n : Nat) (o : Nat) (s : State) : Eff State :=
  match s.stayOf o with
  | none => .ok s
  | some (k, x) =>
    let b := Tbl.getD x.bars n Barrier.zero
    let w := s.owner o
    let done (t : Nat) : State :=
      ((s.setOwner o { w with joined := Tbl.insert w.joined n b.gen }).coreArrive k n t).putS o d (BitVec.ofNat 64 b.gen)
    if a = 0 then
      .ok (done (b.target.getD (s.liveBundles x.launch (x.core.getD 0))))
    else
      match s.useS o a with
      | .error e => .error e
      | .ok v =>
        if v = 0 ∨ (b.target.getD v.toNat) ≠ v.toNat then trapWith causeBarrierState 0
        else .ok (done v.toNat)

def execBarArrive (d a : BitVec 6) (imm : BitVec 32) (s : State) : Outcome State Fault Refusal :=
  conclude s (forOwners s (barArriveOwner d a imm.toNat))

/-- The generation of a core barrier for an owner. -/
def State.coreGen (s : State) (o n : Nat) : Nat :=
  match s.stayOf o with
  | some (_, x) => (Tbl.getD x.bars n Barrier.zero).gen
  | none => 0

/-- The generation BAR.WAIT waits to be passed: s(a)[31:0], or the one last joined (03 R72). -/
def State.awaited (s : State) (o : Nat) (a : BitVec 6) (n : Nat) : Eff Nat :=
  if a = 0 then
    match Tbl.find? (s.owner o).joined n with
    | some g => .ok g
    | none => trapWith causeBarrierState 0
  else (s.useS o a).map (fun v => v.toNat % 2 ^ 32)

/-- Whether a generation has passed another: the difference modulo 2^32 lies in 1 to 2^31 (03 R72). -/
def genPassed (g want : Nat) : Bool :=
  let d := (g + 2 ^ 32 - want) % 2 ^ 32
  decide (1 ≤ d) && decide (d ≤ 2 ^ 31)

/-- BAR.WAIT as a park point. -/
def State.barWaitPoint (s : State) (a : BitVec 6) (n : Nat) : Eff State :=
  match s.cur.owners.mapM (fun o => (s.awaited o a n).map (fun g => (o, genPassed (s.coreGen o n) g))) with
  | .error e => .error e
  | .ok l => .ok (s.ownerPoint (fun o => if l.contains (o, false) then some .rest else none))

def execBarWait (d a : BitVec 6) (imm : BitVec 32) (s : State) : Outcome State Fault Refusal :=
  conclude s ((if s.cur.cleared then .ok s else s.barWaitPoint a imm.toNat).map (fun (t : State) =>
    eachOwner t (fun o u => u.putS o d (BitVec.ofNat 64 (u.coreGen o imm.toNat)))))

/-! ### Waiting (03 R73, R74) -/

/-- Tokens that a copy in flight is still to complete, among the copies a condition looks at (03 R73, 19 R318). -/
def State.copyToken (s : State) (p : Nat → Bool) (o : Nat) (k : BitVec 3) : Bool :=
  s.copies.any (fun e => p e.1 && e.2.tokens.contains (o, k))

/-- Tokens that a matrix instruction in the queue is still to complete, among those a condition looks at. -/
def State.matToken (s : State) (p : MatEntry → Bool) (o : Nat) (k : BitVec 3) : Bool :=
  ownerIsTile o && (s.tile o).mats.any (fun (m : MatEntry) => p m && m.te && m.tok == k)

/-- A matrix instruction of a group earlier on the path than the one the access processor issues (01 R20, 18 R292). -/
def Stream.earlierMat (st : Stream) (m : MatEntry) : Bool :=
  match st.acq with
  | [] => true
  | g :: _ => decide (m.cycle < g.mark)

/-- A copy of a group earlier on the path than the one the execute processor issues (01 R20). -/
def Stream.earlierCopy (st : Stream) (id : Nat) : Bool :=
  match st.mark with
  | none => true
  | some n => decide (id < n)

/-- Tokens that a copy or a matrix instruction in flight is still to complete, as a bundle or an access processor finds them. -/
def State.tokenFlying (s : State) (o : Nat) (k : BitVec 3) : Bool :=
  s.copyToken (fun _ => true) o k || s.matToken (fun m => match (s.tile o).stream with
    | some st => st.earlierMat m
    | none => true) o k

/-- Tokens named by the instructions of a class, MAT or CPY, among the words of a group: both are two-word formats with te and
tok in the second word (01 R16). -/
def namedTokens (cls : BitVec 3) : List Word → List (BitVec 3)
  | [] => []
  | [_] => []
  | w :: x :: rest =>
    if w.getLsbD 26 then
      (if w.extractLsb' 27 3 = cls ∧ x.getLsbD 11 = true then [x.extractLsb' 8 3] else []) ++ namedTokens cls rest
    else namedTokens cls (x :: rest)

/-- A token that a MAT instruction earlier on the path names, which the execute processor has yet to take (19 R308, R330; log
108). -/
def State.tokenComing (s : State) (o : Nat) (k : BitVec 3) : Bool :=
  match (s.tile o).stream with
  | some st => ownerIsTile o && st.exq.any (fun (g : PathGroup) => (namedTokens 4 g.words).contains k)
  | none => false

/-- A token that a copy earlier on the path names, which the access processor has yet to issue; the group the execute processor
has just taken stands last in its queue (19 R308, R330; log 108). -/
def State.tokenBehind (s : State) (o : Nat) (k : BitVec 3) : Bool :=
  match (s.tile o).stream with
  | some st => st.acq.dropLast.any (fun (g : PathGroup) => (namedTokens 6 g.words).contains k)
  | none => false

/-- Tokens of an owner that an earlier instruction is still to complete, as a wait of a bundle or of an access processor finds
them (03 R73). -/
def State.tokenBusy (s : State) (o : Nat) (k : BitVec 3) : Bool := s.tokenFlying o k || s.tokenComing o k

/-- Whether the wait mask of a MAT instruction names a token of its tile that an instruction of an earlier group has yet to
complete (01 R20, 19 R308). -/
def State.matMaskBusy (s : State) (t : Nat) (mask : BitVec 8) : Bool :=
  let copy (id : Nat) : Bool := match (s.tile t).stream with
    | some st => st.earlierCopy id
    | none => true
  (List.range 8).any (fun j => let k := BitVec.ofNat 3 j
    mask.getLsbD j && (s.copyToken copy t k || s.matToken (fun _ => true) t k || s.tokenBehind t k))

/-- Whether a mask names an unfinished token of an owner. -/
def State.maskBusy (s : State) (o : Nat) (mask : BitVec 8) : Bool :=
  (List.range 8).any (fun j => mask.getLsbD j && s.tokenBusy o (BitVec.ofNat 3 j))

/-- A wait on tokens as a park point. -/
def State.tokenPoint (s : State) (mask : BitVec 8) : State :=
  s.ownerPoint (fun o => if s.maskBusy o mask then some .rest else none)

def execWait (imm : BitVec 32) (s : State) : Outcome State Fault Refusal :=
  .next (if s.cur.cleared then s else s.tokenPoint (imm.extractLsb' 0 8))

/-- The deadline an actor waits for: the one it parked with, or s(a), from the time at issue with m (03 R74). -/
def deadlineOf (s : State) (o : Nat) (stat : Option Wait) (a : BitVec 6) (m : Bool) (now : Nat) : Eff Nat :=
  match stat with
  | some (.deadline t) => .ok t
  | _ => (s.useS o a).map (fun v => if m then now + v.toNat else v.toNat)

/-- WAITT as a park point: each strand, or the stream, waits for its own deadline. -/
def State.waittPoint (s : State) (a : BitVec 6) (m : Bool) : Eff State :=
  let r := s.readTime
  match s.cur.profile with
  | .tile =>
    match s.cur.owners.mapM (fun o => deadlineOf s o (s.ownerWait o) a m r.1) with
    | .error e => .error e
    | .ok ds => match ds.find? (fun d => decide (r.1 < d)) with
      | some d => .ok (r.2.stall (.deadline d))
      | none => .ok r.2
  | .raster =>
    match s.cur.strands.mapM (fun i => (deadlineOf s (strandBundle i) (match (s.strand i).stat with
        | .parked w => some w
        | _ => none) a m r.1).map (fun d => (i, d))) with
    | .error e => .error e
    | .ok ds => .ok (r.2.parkOut (fun i => match List.find? (fun (e : Nat × Nat) => e.1 == i && decide (r.1 < e.2)) ds with
      | some e => some (.deadline e.2)
      | none => none))

/-- The wake-up point of those that go on from WAITT: a timing-dependent value, recorded and replayed as device time is (08 R184,
R185; log 26). -/
def State.wakePoint (s : State) : State :=
  match s.cur.profile with
  | .tile => s.cur.owners.foldl (fun (t : State) o => (t.deliver o 0 1 (BitVec.ofNat 64 t.time)).2) s
  | .raster => s.cur.strands.foldl (fun (t : State) i =>
      (t.deliver (strandBundle i) (strandIndex i) 1 (BitVec.ofNat 64 t.time)).2) s

def execWaitt (a : BitVec 6) (m : Bool) (s : State) : Outcome State Fault Refusal :=
  conclude s ((if s.cur.cleared then .ok s else s.waittPoint a m).map State.wakePoint)

/-! ### Fences (03 R75-R77) -/

/-- One order of all accesses is modelled, so a fence has nothing left to order (log 2). -/
def execFence (_imm : BitVec 32) (s : State) : Outcome State Fault Refusal := .next s
def execFencePromote (_imm : BitVec 32) (s : State) : Outcome State Fault Refusal := .next s

/-- FENCE.I: later fetches of these agents observe every invalidation completed so far (03 R77, 08 R182). -/
def State.fenceFetch (s : State) (w : Who) : State :=
  match w with
  | .strand i => s.setStrand i { s.strand i with fetchEpoch := s.epoch }
  | .stream t => s.setStream t (fun (st : Stream) => { st with fetchEpoch := s.epoch })

def execFenceI (s : State) : Outcome State Fault Refusal := .next (s.actors.foldl State.fenceFetch s)

/-! ### Traps, breakpoints and checks (03 R78-R80) -/

def execTrap (imm : BitVec 32) (s : State) : Outcome State Fault Refusal :=
  conclude s (trapWith causeSoftware (simm imm))

/-- DBGSTAT at a breakpoint: CODE of a BKPT, BPN the matching entry or 0xF (14 R255). -/
def dbgBreak (d : Dword) (code : Option (BitVec 32)) (bpn : Nat) : Dword :=
  let d1 := (d &&& ~~~0xF00#64) ||| BitVec.ofNat 64 (bpn % 16 * 256)
  match code with
  | some c => (c ++ d1.extractLsb' 0 32)
  | none => d1

/-- Take the breakpoint trap for the group, at the instruction that is the breakpoint (06 R141). -/
def State.breakTrap (s : State) (code : Option (BitVec 32)) (bpn : Nat) : State :=
  let s1 := s.cur.allOwners.foldl (fun t o => t.setOwner o { t.owner o with dbgstat := dbgBreak (t.owner o).dbgstat code bpn }) s
  s1.takeTrap (BitVec.ofNat 8 causeBreakpoint) 0 none

/-- The breakpoint an actor trapped at last, which it does not test again (06 R143). -/
def State.skipOf (s : State) : Who → Option Dword
  | .strand i => (s.strand i).bpSkip
  | .stream t => match (s.tile t).stream with
    | some st => st.bpSkip
    | none => none

/-- Whether an instruction at `pc` of a group from `first` on is tested, after a trap at a breakpoint: in the group that holds it,
what stands up to it has been tested (06 R143). -/
def testedAfter (skip : Option Dword) (first pc : Dword) : Bool :=
  match skip with
  | some a => !(decide (first.toNat ≤ a.toNat) && decide (pc.toNat ≤ a.toNat))
  | none => true

/-- Whether an actor tests breakpoints at the instruction being carried out. -/
def State.testsBreak (s : State) (w : Who) : Bool := testedAfter (s.skipOf w) s.cur.gpc s.cur.pc

def execBkpt (imm : BitVec 32) (s : State) : Outcome State Fault Refusal :=
  if (s.ctx s.cur.ctx).dbgctl.getLsbD 1 && s.actors.any s.testsBreak then .next (s.breakTrap (some imm) 15) else .next s

/-- RRB of the shape register: the rotation base of w16-w31 (16 R270, R274). -/
def shapeBase (sh : Dword) : Nat := (sh.extractLsb' 16 4).toNat

/-- The physical register a w field names now. -/
def Stream.phys (st : Stream) (r : Nat) : Nat := if r < 16 then r else 16 + (r - 16 + shapeBase st.shape) % 16

/-- ROT of the shape register, and one rotation step (16 R274). -/
def shapeRot (sh : Dword) : Bool := sh.getLsbD 15
def rotateShape (sh : Dword) : Dword :=
  if shapeRot sh then (sh &&& ~~~0xF0000#64) ||| BitVec.ofNat 64 ((shapeBase sh + 15) % 16 * 2 ^ 16) else sh

/-- A register CHK names that is poisoned: its owner and origin index (03 R79). -/
def State.checked (s : State) (d a : BitVec 6) : Option (Nat × BitVec 3) :=
  match d.toNat with
  | 0 => s.cur.owners.findSome? (fun o => ((s.getS o a).poison).map (fun k => (o, k)))
  | 1 => s.cur.strands.findSome? (fun i => ((s.getV i a.toNat).poison).map (fun k => (strandBundle i, k)))
  | 2 => s.cur.strands.findSome? (fun i => ((s.getD2 i a.toNat).poison).map (fun k => (strandBundle i, k)))
  | _ => s.cur.owners.findSome? (fun o => match (s.tile o).stream with
    | some st => ((Tbl.getD st.w (st.phys a.toNat) (.zero 2048)).poison).map (fun k => (o, k))
    | none => none)

/-- Every earlier result of the execute processor has landed; with `mats`, every earlier matrix step has retired (18 R293). -/
def State.drained (s : State) (t : Nat) (mats : Bool) : Bool :=
  match (s.tile t).stream with
  | some st => st.exq.isEmpty && st.flying.isEmpty && (!mats || (s.tile t).mats.isEmpty)
  | none => true

/-- An access-side instruction that waits for the execute processor (18 R293). -/
def State.drainPoint (s : State) (mats : Bool) : Eff State :=
  if s.cur.owners.all (fun o => !ownerIsTile o || s.drained o mats) then .ok s else waitWith .again

/-- Fenced quarters; two disable the engine (21 R342). -/
def Tile.fences (x : Tile) : Nat := ((List.range 4).filter (fun q => x.fenced.getLsbD q)).length

/-- A test is due before a region commit: CMT is set and a MAT step has retired since the last test (21 R340). -/
def State.commitTestDue (s : State) (t : Nat) : Bool :=
  let x := s.tile t
  x.mtcfg.getLsbD 16 && decide (x.fences < 2) && (match x.stream with
    | some st => st.matSince
    | none => false)

/-- What a region commit waits for: the drain, and the test it calls for (18 R293, 21 R340). -/
def State.commitPoint (s : State) : Eff State :=
  match s.drainPoint true with
  | .error e => .error e
  | .ok t => if t.cur.owners.any (fun o => ownerIsTile o && t.commitTestDue o) then waitWith .again else .ok t

def execChk (d a : BitVec 6) (s : State) : Outcome State Fault Refusal :=
  conclude s (
    match (if d = 3 ∧ !s.cur.cleared then s.drainPoint false else .ok s) with
    | .error e => .error e
    | .ok t => match t.checked d a with
      | some (o, k) => poisonTrap t causePoison o k
      | none => .ok t)

/-- REGION: the checkpoint of the stream (14 R242): restart address, loops, shape with the rotation steps due before the REGION's
group, and ACR's modes; the region before it is committed. A REGION that the restart of its own region carries out again commits
nothing (14 R244; log 110). -/
def State.checkpoint (s : State) (t : Nat) (a : Dword) : State :=
  s.setStream t (fun (st : Stream) =>
    { st with check := ⟨a, st.loops, st.rotDue.repeat rotateShape st.shape, s.acr t, st.pairIssued, st.pos⟩,
              restarts := if st.anew then st.restarts else 0 })

def execRegion (off : BitVec 32) (s : State) : Outcome State Fault Refusal :=
  conclude s (((if s.cur.cleared then .ok s else s.commitPoint)).map (fun (t : State) =>
    eachOwner t (fun o u => u.checkpoint o (s.branchTarget off))))

/-! ### EXIT and YIELD (03 R81, R82) -/

/-- The pending outputs of a pixel strand become a fragment of the launch that issued its mesh (09 R191, 11 R207). -/
def State.retirePixel (s : State) (i : Nat) : State :=
  let x := s.strand i
  match x.pixel with
  | none => s
  | some p =>
    match Tbl.find? s.launches p.launch with
    | none => s
    | some l => s.setLaunch p.launch { l with frags := l.frags ++ [⟨p.key, p, x.out, s.fzOf i⟩] }

/-- A strand stands at a SPLIT whose drain has still to start. -/
def Strand.atSplit (x : Strand) : Bool := x.stat == .parked (.split false) || x.stat == .stopped (some (.split false))

/-- Whether every live bundle of a launch on a core stands at a SPLIT. -/
def State.allAtSplit (s : State) (l c : Nat) : Bool :=
  s.bundles.all (fun e =>
    match Tbl.find? s.crews e.2.crew with
    | none => true
    | some x => x.launch != l || x.core != some c || x.ended || (s.liveStrands e.1).all (fun i => (s.strand i).atSplit))

/-- SPLIT's drain starts once every live bundle has arrived (03 R84): 256 cycles and one for each dirty line, whose number is the
cache's own (log 36). -/
def State.startSplit (s : State) (o : Nat) : State :=
  match s.launchOf o, s.coreOf o, s.stayOf o with
  | some l, some c, some (_, x) =>
    let y := s.core c
    match x.splitTo, y.splitting with
    | some k, none =>
      if s.allAtSplit l c then
        let f := s.free
        let lines := (Config.coreSram - y.granules * 32768) / 128
        f.2.setCore c { y with splitting := some (k, 256 + f.1.toNat % (lines + 1)) }
      else s
    | _, _ => s
  | _, _, _ => s

/-- Nothing of a crew is still to come from the front end: no mesh of its bundles waits, and no pixel of one is still to start. -/
def State.meshesPending (s : State) (c : Nat) : Bool :=
  s.frontEnds.any (fun e => e.2.meshes.any (fun m => s.crewIs m.bundle c) ||
    (!e.2.pixels.isEmpty && e.2.current.any (fun m => s.crewIs m.bundle c)))

/-- The end of a crew's last strand returns the records of its batch that have not been returned (07 R161). -/
def State.endRecords (s : State) (c : Nat) : State :=
  match Tbl.find? s.crews c with
  | none => s
  | some x =>
    if x.bundles.all (fun b => (s.liveStrands b).isEmpty) && !s.meshesPending c then
      (s.freeRecords (s.launchCtx x.launch) x.records).setCrew c { x with records := [] }
    else s

/-- A strand ends: its loops are cleared, its bundle ends with its last strand, and barriers of its crew and grove, and a SPLIT that
its crew's other bundles stand at, are evaluated again (03 R71, R81, R84). -/
def State.exitStrand (s : State) (i : Nat) : State :=
  let b := strandBundle i
  let s1 := (s.retirePixel i).setStrand i { s.strand i with stat := .dead, loops := [], moved := true }
  let s2 := if (s1.liveStrands b).isEmpty then
      { s1 with bundles := Tbl.modify s1.bundles b (fun (x : Bundle) => { x with exited := true }) }
    else s1
  match s2.crewOf b with
  | none => s2
  | some (c, x) =>
    let s3 := (List.range 8).foldl (fun t n => t.settleCrewBar c n) (s2.endRecords c)
    let s4 := match x.grove with
      | none => s3
      | some g => (List.range 4).foldl (fun t n => t.settleGroveBar g n (s3.groveSecond x)) s3
    s4.startSplit b

/-- Release the pair a tile leads: the follower's queue is its own again (19 R314). -/
def State.releasePair (s : State) (t : Nat) : State :=
  let s1 := s.setStream t (fun (st : Stream) => { st with paired := none, pairIssued := false })
  { s1 with tiles := Tbl.mapVals (Tile.unslave t) s1.tiles }

/-- The end of a part of a tile stream: EXIT clears loop levels, releases the pair and returns to the task sequencer; a stream
outside a loop record ends (03 R81, 18 R302, 19 R314). -/
def State.exitPart (s : State) (t : Nat) : State :=
  (s.releasePair t).setStream t (fun (st : Stream) =>
    { st with running := false, head := none, loops := [], target := none,
              pos := match st.pos with
                | .plain => .plain
                | .chain r rec p n =>
                  if p = 0 then .chain r rec 1 0
                  else if p = 1 then .chain r rec 1 (n + 1)
                  else .chain r rec 3 0 })

def execExit (s : State) : Outcome State Fault Refusal :=
  match s.cur.profile with
  | .raster => .next (s.cur.strands.foldl State.exitStrand s)
  | .tile => conclude s (((if s.cur.cleared then .ok s else s.commitPoint)).map (fun (t : State) => eachOwner t (fun o u => u.exitPart o)))

/-- YIELD: the group takes no slot until another has, or until its hold expires (03 R82). On a tile it does nothing more. -/
def execYield (s : State) : Outcome State Fault Refusal :=
  .next (s.cur.strands.foldl (fun t i => t.setStrand i { t.strand i with held := true }) s)

/-! ### System registers (03 R89, R90) -/

/-- GOVSTEPn (23 R366). -/
def GovStream.step (g : GovStream) : Dword :=
  BitVec.ofNat 8 g.max ++ BitVec.ofNat 8 g.min ++ BitVec.ofNat 8 g.last ++ BitVec.ofNat 8 g.samples ++ BitVec.ofNat 32 g.avg

/-- SPLITSTAT of a core (03 R90). -/
def State.splitStat (s : State) (k : Nat) : Dword :=
  let c := s.core k
  let excl := s.crews.any (fun e => e.2.core == some k && !e.2.ended && hdrExcl (s.header e.2.launch))
  BitVec.ofNat 64 (min c.drain 65535 * 2 ^ 24 + c.phase % 256 * 2 ^ 16 + (if excl then 16 else 0) + c.granules % 16)

/-- The value SREAD delivers to an owner, and the state after it. -/
def State.sysRead (s : State) (o n : Nat) : Eff (Dword × State) :=
  let w := s.owner o
  let c := s.ctx s.cur.ctx
  if n = 0x000 then
    (if ownerIsTile o && !s.cur.cleared then s.drainPoint false else .ok s).map (fun t => (w.acr, t))
  else if n = 0x001 then .ok (w.tcause, s)
  else if n = 0x002 then .ok (w.taddr, s)
  else if n = 0x003 then .ok (w.tpc, s)
  else if 0x008 ≤ n ∧ n ≤ 0x00F then .ok (s.mbx s.cur.ctx (n - 8), s)
  else if n = 0x010 then
    let r := s.readTime
    .ok (r.2.deliver o 0 1 (BitVec.ofNat 64 r.1))
  else if n = 0x011 then .ok (c.leasemax &&& 0x1FFF, s)
  else if n = 0x012 then .ok (s.deliver o 0 6 (match s.coreOf o with
    | some k => s.splitStat k
    | none => 0))
  else if 0x020 ≤ n ∧ n ≤ 0x02F then .ok ((Tbl.getD c.gov (n - 0x20) GovStream.reset).deadline, s)
  else if 0x030 ≤ n ∧ n ≤ 0x03F then .ok (s.deliver o 0 2 (Tbl.getD c.gov (n - 0x30) GovStream.reset).step)
  else if n = 0x040 then .ok (c.dbgctl, s)
  else if n = 0x041 then .ok (s.deliver o 0 6 w.dbgstat)
  else if 0x048 ≤ n ∧ n ≤ 0x04F then .ok (Tbl.getD c.dbgbpa (n - 0x48) 0, s)
  else
    match s.popQueue o 6 with
    | .ok (v, t) => .ok (BitVec.ofNat 64 v, t)
    | .error e => .error e

/-- SREAD of one owner. -/
def sreadOwner (n : Nat) (d : BitVec 6) (o : Nat) (s : State) : Eff State :=
  match s.sysRead o n with
  | .ok (v, t) => .ok (t.putS o d v)
  | .error e => .error e

def execSread (reg : BitVec 12) (sr : BitVec 6) (s : State) : Outcome State Fault Refusal :=
  conclude s (forOwners s (sreadOwner reg.toNat sr))

/-- The defined bits of ACR (02 R40). -/
def acrBits : Dword := 0x1FF

/-- SWRITE of one owner: ACR from the next group, or a mailbox as MBX (03 R89). -/
def swriteOwner (n : Nat) (a : BitVec 6) (o : Nat) (s : State) : Eff State :=
  match s.useS o a with
  | .error e => .error e
  | .ok v =>
    if n = 0 then .ok (s.setOwner o { s.owner o with acrNext := some (v &&& acrBits) })
    else .ok (s.setMbx s.cur.ctx (n - 8) v)

def execSwrite (reg : BitVec 12) (sr : BitVec 6) (s : State) : Outcome State Fault Refusal :=
  conclude s (forOwners s (swriteOwner reg.toNat sr))

end Sys2Proof.Machine
end

