-- ==== Sys2Proof/Machine/Beads.lean ====
section
/-! DEFINITION. Beads (22 R351-R353) and the SEM instructions (19 R327). -/

namespace Sys2Proof.Machine

open Host (Outcome)

/-! ### Endpoints (19 R317) -/

/-- A well-formed endpoint. -/
inductive Endpoint where
  | global (a : Dword)
  | own (ofs : Nat)
  | tile (t ofs : Nat)
  | rect (die row col rows cols ofs : Nat)
deriving DecidableEq, Repr

/-- Read an endpoint; none where it is not well formed. -/
def endpointOf (v : Dword) : Option Endpoint :=
  let n := v.toNat
  let code := n / 2 ^ 52 % 8
  match n / 2 ^ 60 with
  | 0x0 => some (.global v)
  | 0x8 => if n % 2 ^ 60 < 2 ^ 24 then some (.own (n % 2 ^ 24)) else none
  | 0x9 =>
    let t := n / 2 ^ 40 % 128
    if n / 2 ^ 55 % 32 = 0 ∧ n / 2 ^ 47 % 32 = 0 ∧ n / 2 ^ 19 % 2 ^ 21 = 0 ∧ 3 ≤ code ∧ code ≤ 5 ∧ t < 96 then
      some (.tile ((code - 3) * 96 + t) (n % 2 ^ 19))
    else none
  | 0xA =>
    let row := n / 2 ^ 48 % 16
    let col := n / 2 ^ 44 % 16
    let rows := n / 2 ^ 40 % 16 + 1
    let cols := n / 2 ^ 36 % 16 + 1
    if n / 2 ^ 55 % 32 = 0 ∧ n / 2 ^ 19 % 2 ^ 17 = 0 ∧ 3 ≤ code ∧ code ≤ 5 ∧ row + rows ≤ 8 ∧ col + cols ≤ 12 then
      some (.rect (code - 3) row col rows cols (n % 2 ^ 19))
    else none
  | _ => none

/-- The tiles of a rectangle, in row order. -/
def rectTiles (die row col rows cols : Nat) : List Nat :=
  (List.range (rows * cols)).map (fun i => die * 96 + (row + i / cols) * 12 + (col + i % cols))

/-! ### Naming a bead (22 R351) -/

/-- Where a bead stands: a die or tile bead by its number, a core bead in the set a launch holds there, or in a save image. -/
inductive BeadAt where
  | shared (num : Nat)
  | stay (k b : Nat)
  /-- a bead of a tile that has passed on, kept with the image of a saved stream: its launch, the tile, the bead (22 R351, R357) -/
  | kept (l t b : Nat)
deriving DecidableEq, Repr

/-- The set of core beads a launch holds on a core. -/
def State.findStay (s : State) (l k : Nat) : Option Nat :=
  (List.find? (fun (e : Nat × Stay) => e.2.launch == l && e.2.core == some k) s.stays).map Prod.fst

/-- The bead a number names for an issuer of a context and launch; none where it may not be used. -/
def State.beadAt (s : State) (ctx : Nat) (launch : Option Nat) (num : Nat) : Option BeadAt :=
  let die := num / 8192
  let idx := num % 8192
  if 7 ≤ die then none
  else if idx < 0x400 then
    if Tbl.find? s.dieBeadOwner num = some ctx then some (.shared num) else none
  else
    let n := (idx - 0x400) / 64
    let b := (idx - 0x400) % 64
    if die < 3 then
      if n < 48 then
        match launch with
        | some l => (s.findStay l (die * 48 + n)).map (fun k => .stay k b)
        | none => none
      else none
    else if die < 6 then
      if n < 96 ∧ (s.tile ((die - 3) * 96 + n)).owner = some ctx then some (.shared num) else none
    else none

/-- Bead b of the issuer's own core or tile. -/
def State.ownBead (s : State) (o b : Nat) : Option BeadAt :=
  if ownerIsTile o then some (.shared ((3 + o / 96) * 8192 + 0x400 + 64 * (o % 96) + b))
  else (s.stayOf o).map (fun x => .stay x.1 b)

/-- The number of a bead (22 R351). -/
def State.beadNumber (s : State) : BeadAt → Nat
  | .shared n => n
  | .stay k b => match Tbl.find? s.stays k with
    | some x => match x.core with
      | some c => c / 48 * 8192 + 0x400 + 64 * (c % 48) + b
      | none => b
    | none => b
  | .kept _ t b => (3 + t / 96) * 8192 + 0x400 + 64 * (t % 96) + b

/-- The image of a saved stream that has been set aside, by its launch and tile. -/
def State.imageAt (s : State) (l t : Nat) : Option SavedTile := s.savedTiles.find? (fun y => y.launch == l && y.tile == t)

/-- Change the image of a saved stream. -/
def State.setImage (s : State) (l t : Nat) (f : SavedTile → SavedTile) : State :=
  { s with savedTiles := s.savedTiles.map (fun y => if y.launch = l ∧ y.tile = t then f y else y) }

def State.bead (s : State) : BeadAt → Bead
  | .shared n => Tbl.getD s.beads n Bead.zero
  | .stay k b => match Tbl.find? s.stays k with
    | some x => Tbl.getD x.beads b Bead.zero
    | none => Bead.zero
  | .kept l t b => match s.imageAt l t with
    | some x => Tbl.getD x.beads b Bead.zero
    | none => Bead.zero

def State.setBead (s : State) (a : BeadAt) (x : Bead) : State :=
  match a with
  | .shared n => { s with beads := Tbl.put Bead.zero s.beads n x }
  | .stay k b => match Tbl.find? s.stays k with
    | some y => { s with stays := Tbl.insert s.stays k { y with beads := Tbl.put Bead.zero y.beads b x } }
    | none => s
  | .kept l t b => s.setImage l t (fun y => { y with beads := Tbl.put Bead.zero y.beads b x })

/-- The context a bead belongs to. -/
def State.beadCtx (s : State) (a : BeadAt) : Option Nat :=
  let of (l : Nat) : Option Nat := (Tbl.find? s.launches l).map (fun (x : Launch) => x.ctx)
  match a with
  | .shared n =>
    if n % 8192 < 0x400 then Tbl.find? s.dieBeadOwner n else (s.tile ((n / 8192 - 3) * 96 + (n % 8192 - 0x400) / 64)).owner
  | .stay k _ => (Tbl.find? s.stays k).bind (fun x => of x.launch)
  | .kept l _ _ => of l

/-! ### The beads of a guide channel (22 R354-R357) -/

/-- The tiles of the rectangle a channel's endpoint names. -/
def GuideChannel.tiles (c : GuideChannel) : List Nat :=
  match endpointOf c.endpoint with
  | some (.rect die row col rows cols _) => rectTiles die row col rows cols
  | _ => []

/-- Bead b of a tile. -/
def tileBead (t b : Nat) : BeadAt := .shared ((3 + t / 96) * 8192 + 0x400 + 64 * (t % 96) + b)

/-- The save image in which a context's stream has left a tile last, if its tile has been given to another launch. -/
def State.lastImage (s : State) (ctx t : Nat) : Option SavedTile :=
  s.savedTiles.reverse.find? (fun y => y.tile == t && (match Tbl.find? s.launches y.launch with
    | some x => x.ctx == ctx
    | none => false))

/-- Bead b of a tile as a channel of a context finds it: in the tile, or in the save image of a stream whose tile has passed to
another context (22 R357; log 61). -/
def State.guideBead (s : State) (ctx t b : Nat) : BeadAt :=
  if (s.tile t).owner = some ctx then tileBead t b
  else match s.lastImage ctx t with
    | some y => .kept y.launch t b
    | none => tileBead t b

def State.setChannel (s : State) (d : Nat) (c : GuideChannel) : State := { s with channels := Tbl.insert s.channels d c }

/-- Whether the audit of a binding passes. -/
def State.auditOk (s : State) (c : GuideChannel) : Bool :=
  c.tiles.all (fun t =>
    let fill := s.bead (s.guideBead c.ctx t c.fill)
    let free := s.bead (s.guideBead c.ctx t c.free)
    Tbl.getD c.issued t 0 == Tbl.getD c.observed t 0 && decide (fill.count ≤ c.slots) && decide (free.count ≤ c.slots)
      && !fill.brk && !free.brk && !fill.bad && !free.bad)

/-- Break a bead: the hub posts its number, to the ring of the context it belongs to or, where it belongs to none, to the global
ring (22 R353). -/
def State.breakBead (s : State) (a : BeadAt) : State :=
  let x := s.bead a
  let s1 := s.setBead a { x with brk := true, bad := false }
  if x.brk then s1
  else
    let n : Dword := BitVec.ofNat 64 (s.beadNumber a)
    match s.beadCtx a with
    | some c => s1.post c 5 [n]
    | none => s1.postGlobal 5 [n]

/-- Remove a die's channel from the queue of a bead. -/
def beadDropChannel (d : Nat) (b : Bead) : Bead := { b with queue := b.queue.filter (fun e => e.1 != .channel d) }
def imageDropChannel (d : Nat) (y : SavedTile) : SavedTile := { y with beads := Tbl.mapVals (beadDropChannel d) y.beads }

/-- The channel stops: unsent guide tiles are dropped, it becomes unbound, the beads of its rectangle break, and the hub posts
ISSUED and OBSERVED of each tile, one dword a tile, seven tiles an event (22 R356; log 46). -/
def State.desync (s : State) (d : Nat) (c : GuideChannel) : State :=
  let s1 := { s with channels := Tbl.erase s.channels d, beads := Tbl.mapVals (beadDropChannel d) s.beads,
                     savedTiles := s.savedTiles.map (imageDropChannel d) }
  let s2 := c.tiles.foldl (fun t k => (t.breakBead (t.guideBead c.ctx k c.fill)).breakBead (t.guideBead c.ctx k c.free)) s1
  let word (k : Nat) : Dword := BitVec.ofNat 64 (Tbl.getD c.issued k 0 % 2 ^ 32 * 2 ^ 32 + Tbl.getD c.observed k 0 % 2 ^ 32)
  let ws := c.tiles.map word
  (List.range ((ws.length + 6) / 7)).foldl (fun t i => t.post c.ctx 6 ((ws.drop (7 * i)).take 7)) s2

/-- Parity is checked at every operation on a bead: one that fails breaks it, and stops the guide channel it is a bead of (22 R353,
R355). -/
def State.checkBead (s : State) (a : BeadAt) : State :=
  if (s.bead a).bad then
    let s1 := s.breakBead a
    match List.find? (fun (e : Nat × GuideChannel) => e.2.tiles.any (fun t =>
        s1.guideBead e.2.ctx t e.2.fill == a || s1.guideBead e.2.ctx t e.2.free == a)) s1.channels with
    | some e => s1.desync e.1 e.2
    | none => s1
  else s

/-! ### Operations (22 R352, R353) -/

/-- Serve the head of a bead's queue while its count suffices; `n` bounds the services. A broken bead serves none. -/
def State.serveBead (s : State) (a : BeadAt) : Nat → State
  | 0 => s
  | n + 1 =>
    let x := s.bead a
    match x.queue with
    | [] => s
    | (w, k) :: rest =>
      if !x.brk && decide (k ≤ x.count) then
        ((s.setBead a { x with count := x.count - k, queue := rest }).serveWaiter w).serveBead a n
      else s

/-- Add n to a bead, saturating; a broken bead drops it and logs (22 R352, R353). Overflow posts an event of kind 0x04. -/
def State.signal (s0 : State) (ctx : Nat) (a : BeadAt) (n : Nat) : State :=
  let s := s0.checkBead a
  let x := s.bead a
  if x.brk then s.log ⟨s.time, s.beadNumber a, 0, s.beadNumber a / 8192, 0, ctx⟩
  else
    let sum := x.count + n
    let full := decide (2 ^ 32 ≤ sum)
    let s1 := s.setBead a { x with count := min sum (2 ^ 32 - 1), ovf := x.ovf || full }
    let s2 := if full then s1.post ctx 4 [BitVec.ofNat 64 (s.beadNumber a)] else s1
    s2.serveBead a x.queue.length

/-- Set a bead's count: OVF and BRK are cleared, the parity is fresh, and waits are served (22 R352, R353). -/
def State.setCount (s0 : State) (a : BeadAt) (n : Nat) : State :=
  let s := s0.checkBead a
  let x := s.bead a
  (s.setBead a { x with count := n, ovf := false, brk := false }).serveBead a x.queue.length

/-! ### The SEM instructions (19 R327) -/

/-- The bead a SEM instruction names, or copy-state. -/
def State.semBead (s : State) (o : Nat) (a : BitVec 6) (m : Bool) (b : BitVec 6) : Eff BeadAt :=
  let found : Eff (Option BeadAt) :=
    if m then (s.useS o a).map (fun v => s.beadAt s.cur.ctx (s.launchOf o) (v.toNat % 2 ^ 16))
    else .ok (s.ownBead o b.toNat)
  match found with
  | .error e => .error e
  | .ok (some x) => .ok x
  | .ok none => trapWith causeCopyState 0

/-- The bead and the count operand s(b)[31:0]. -/
def State.semArgs (s : State) (o : Nat) (a b : BitVec 6) (m : Bool) (bead : BitVec 6) : Eff (BeadAt × Nat) :=
  match s.semBead o a m bead with
  | .error e => .error e
  | .ok x => (s.useS o b).map (fun v => (x, v.toNat % 2 ^ 32))

/-- The wait mask of a copy instruction, as a park point (19 R317). -/
def State.maskPoint (s : State) (t : CopyTail) : State := if s.cur.cleared then s else s.tokenPoint t.wm

/-- Act for each owner once the wait mask is satisfied. -/
def afterMask (s : State) (t : CopyTail) (f : Nat → State → Eff State) : Outcome State Fault Refusal :=
  conclude s (forOwners (s.maskPoint t) f)

def semSigOwner (a b : BitVec 6) (m : Bool) (bead : BitVec 6) (o : Nat) (s : State) : Eff State :=
  (s.semArgs o a b m bead).map (fun x => s.signal s.cur.ctx x.1 x.2)

def execSemSig (a b : BitVec 6) (m : Bool) (t : CopyTail) (s : State) : Outcome State Fault Refusal :=
  afterMask s t (semSigOwner a b m t.bead)

def semSetOwner (a b : BitVec 6) (m : Bool) (bead : BitVec 6) (o : Nat) (s : State) : Eff State :=
  (s.semArgs o a b m bead).map (fun x => s.setCount x.1 x.2)

def execSemSet (a b : BitVec 6) (m : Bool) (t : CopyTail) (s : State) : Outcome State Fault Refusal :=
  afterMask s t (semSetOwner a b m t.bead)

/-- Poison with origin soft-error and the bead number as address (22 R353). -/
def State.beadPoison (s : State) (o : Nat) (c : BitVec 6) (a : BeadAt) : State :=
  let r := s.newOrigin o ⟨BitVec.ofNat 8 causeSoftError, BitVec.ofNat 64 (s.beadNumber a), false, 0, 0⟩
  r.2.setS o c ⟨0, some r.1⟩

/-- SEM.TRY: fails whenever a wait is queued (22 R352). -/
def semTryOwner (a b c : BitVec 6) (m : Bool) (bead : BitVec 6) (o : Nat) (s : State) : Eff State :=
  (s.semArgs o a b m bead).map (fun x =>
    let s := s.checkBead x.1
    let y := s.bead x.1
    if y.brk then s.beadPoison o c x.1
    else
      let ok := y.queue.isEmpty && decide (x.2 ≤ y.count)
      let s1 := if ok then s.setBead x.1 { y with count := y.count - x.2 } else s
      let v := s1.deliver o 0 3 (if ok then 1 else 0)
      v.2.putS o c v.1)

def execSemTry (a b c : BitVec 6) (m : Bool) (t : CopyTail) (s : State) : Outcome State Fault Refusal :=
  afterMask s t (semTryOwner a b c m t.bead)

def semReadOwner (a c : BitVec 6) (m : Bool) (bead : BitVec 6) (o : Nat) (s : State) : Eff State :=
  (s.semBead o a m bead).map (fun x =>
    let s := s.checkBead x
    let y := s.bead x
    if y.brk then s.beadPoison o c x
    else
      let v := s.deliver o 0 3 (BitVec.ofNat 64 y.count)
      v.2.putS o c v.1)

def execSemRead (a c : BitVec 6) (m : Bool) (t : CopyTail) (s : State) : Outcome State Fault Refusal :=
  afterMask s t (semReadOwner a c m t.bead)

/-- Whether a SEM.WAIT of an owner can go on: it has been served, or the bead serves it at once; otherwise it queues. `taken` is
what waits of the same group are to take of the bead before it. -/
def semWaitReady (s : State) (o : Nat) (x : BeadAt × Nat) (taken : Nat) : Bool :=
  match s.ownerWait o with
  | some (.bead v) => v
  | _ => !(s.bead x.1).brk && (s.bead x.1).queue.isEmpty && decide (taken + x.2 ≤ (s.bead x.1).count)

/-- Whether a stream stands queued for another instruction of its group: it queues at one bead at a time. -/
def State.queuedElsewhere (s : State) (o : Nat) : Bool :=
  ownerIsTile o && (match (s.tile o).stream with
    | some st => st.parked.any (fun e => e.1 != s.groupOffset && e.2 == .bead false)
    | none => false)

/-- Queue an owner at a bead unless it stands there already. -/
def State.enqueue (s : State) (o : Nat) (x : BeadAt × Nat) : State :=
  match s.ownerWait o with
  | some (.bead _) => s
  | _ =>
    let y := s.bead x.1
    s.setBead x.1 { y with queue := y.queue ++ [(.owner o, x.2)] }

/-- SEM.WAIT as a park point: owners in rising order queue at their bead, or go on. `taken` lists what those that go on are to take
of a bead. -/
def State.semWaitEach (s : State) (a b : BitVec 6) (m : Bool) (bead : BitVec 6) (taken : List (BeadAt × Nat)) :
    List Nat → Eff (State × List (Nat × Wait))
  | [] => .ok (s, [])
  | o :: rest =>
    match s.semArgs o a b m bead with
    | .error e => .error e
    | .ok x =>
      let s := s.checkBead x.1
      let before := ((taken.filter (fun e => e.1 == x.1)).map Prod.snd).sum
      if semWaitReady s o x before then
        let more := match s.ownerWait o with
          | some (.bead _) => taken
          | _ => x :: taken
        s.semWaitEach a b m bead more rest
      else if s.queuedElsewhere o then (s.semWaitEach a b m bead taken rest).map (fun r => (r.1, (o, .again) :: r.2))
      else ((s.enqueue o x).semWaitEach a b m bead taken rest).map (fun r => (r.1, (o, .bead false) :: r.2))

def State.semWaitPoint (s : State) (a b : BitVec 6) (m : Bool) (bead : BitVec 6) : Eff State :=
  (s.semWaitEach a b m bead [] s.cur.owners).map (fun r =>
    r.1.ownerPoint (fun o => (r.2.find? (fun e => e.1 == o)).map Prod.snd))

/-- The subtraction of a SEM.WAIT that its bead has not served already. Two waits of one tile group at one bead are each tested on
the count the group finds; where they take more than it holds, the count stops at 0 (DESIGN CHOICE, log 115). -/
def semWaitOwner (a b : BitVec 6) (m : Bool) (bead : BitVec 6) (o : Nat) (s : State) : Eff State :=
  (s.semArgs o a b m bead).map (fun x =>
    match s.ownerWait o with
    | some (.bead _) => s
    | _ => s.setBead x.1 { s.bead x.1 with count := (s.bead x.1).count - x.2 })

def execSemWait (a b : BitVec 6) (m : Bool) (t : CopyTail) (s : State) : Outcome State Fault Refusal :=
  conclude s (
    match (if s.cur.cleared then .ok s else (s.maskPoint t).semWaitPoint a b m t.bead) with
    | .error e => .error e
    | .ok u => forOwners u (semWaitOwner a b m t.bead))

end Sys2Proof.Machine
end

