-- ==== Sys2Proof/Machine/Sched.lean ====
section
/-! DEFINITION. Leases, SPLIT, LAUNCH, work-graph records and the frame governor: the instructions of 03 R83-R86 and R91, and
the governor's arithmetic (23 R366-R370). -/

namespace Sys2Proof.Machine

open Host (Outcome)

/-! ### LEASE (03 R83, 07 R152) -/

/-- LEASEMAX of a context (03 R90). -/
def State.leaseMax (s : State) (ctx : Nat) : Nat := (s.ctx ctx).leasemax.toNat % 8192

/-- A bundle's lease: the declared one, or the measured estimate. -/
def Bundle.lease (x : Bundle) : Nat := x.declared.getD x.est

/-- LEASE of one bundle: the previous lease is delivered, a measured one as a timing-dependent value (08 R184). -/
def leaseOwner (d a : BitVec 6) (imm : BitVec 32) (o : Nat) (s : State) : Eff State :=
  match s.useS o a with
  | .error e => .error e
  | .ok x =>
    match Tbl.find? s.bundles o with
    | none => .ok s
    | some b =>
      let v := (x + simm imm).toNat
      let old := BitVec.ofNat 64 b.lease
      let r := if b.declared.isSome then (old, s) else s.deliver o 0 6 old
      let b1 := if v = 0 then { b with declared := none, est := 64 }
                else { b with declared := some (min v (s.leaseMax s.cur.ctx)) }
      .ok ((r.2.setBundle o b1).putS o d r.1)

def execLease (d a : BitVec 6) (imm : BitVec 32) (s : State) : Outcome State Fault Refusal :=
  conclude s (forOwners s (leaseOwner d a imm))

/-! ### SPLIT (03 R84) -/

/-- The plan entry SPLIT may take, none where it is denied: the core hosts one launch, marked exclusive, whose plan has a
phase k of at most 12 granules. -/
def State.splitPlan (s : State) (o k : Nat) : Option Nat :=
  match s.launchOf o, s.coreOf o with
  | some l, some c =>
    match Tbl.find? s.launches l with
    | none => none
    | some x =>
      let alone := s.crews.all (fun e => e.2.core != some c || e.2.ended || e.2.launch == l)
      let g := x.plan.getD k 0xFF
      if alone && hdrExcl x.hdr && decide (g ≤ 12) then some g else none
  | _, _ => none

/-- A bundle arrives at SPLIT #k: the first fixes k. -/
def State.splitArrive (s : State) (k o : Nat) : Eff State :=
  match s.ownerWait o with
  | some (.split _) => .ok s
  | _ =>
    match s.splitPlan o k, s.stayOf o with
    | some _, some (i, x) =>
      if x.splitTo.getD k = k then .ok { s with stays := Tbl.insert s.stays i { x with splitTo := some k } }
      else trapWith causeSplitDenied 0
    | _, _ => trapWith causeSplitDenied 0

/-- SPLIT as a park point: bundles arrive, and those whose drain has ended go on. -/
def State.splitPoint (s : State) (k : Nat) : Eff State :=
  (s.cur.owners.foldlM (fun t o => State.splitArrive t k o) s).map (fun (t : State) =>
    let os := t.cur.owners
    os.foldl State.startSplit (t.ownerPoint (fun o => if t.ownerWait o = some (.split true) then none else some (.split false))))

def execSplit (d : BitVec 6) (imm : BitVec 32) (s : State) : Outcome State Fault Refusal :=
  conclude s ((if s.cur.cleared then .ok s else s.splitPoint imm.toNat).map (fun (t : State) =>
    eachOwner t (fun o u =>
      let v := u.deliver o 0 6 (BitVec.ofNat 64 (u.core ((u.coreOf o).getD 0)).drain)
      v.2.putS o d v.1)))

/-- The end of SPLIT's drain (03 R84): the scratchpad takes its new size, bytes taken away are lost, and the bundles go on. -/
def State.splitDone (s : State) (c : Nat) : State :=
  let y := s.core c
  match y.splitting with
  | none => s
  | some (k, n) =>
    let here := s.crews.filter (fun e => e.2.core == some c && !e.2.ended)
    let g := (here.findSome? (fun e => (Tbl.find? s.launches e.2.launch).map (fun (x : Launch) => x.plan.getD k 0))).getD y.granules
    let s1 := s.setCore c { y with splitting := none, granules := g, phase := k, drain := n, victims := [] }
    let s2 := here.foldl (fun (t : State) e =>
      let lim := t.scratchLimit e.2
      t.setCrew e.1 { e.2 with scratch := e.2.scratch.filter (fun b => decide (b.1 < lim)),
                               absent := e.2.absent.filter (fun l => decide (128 * l < lim)),
                               marked := e.2.marked.filter (fun u => decide (16 * u < lim)) }) s1
    let wake (t : State) (i : Nat) : State :=
      match (t.strand i).stat with
      | .parked (.split false) => t.setStrand i { t.strand i with stat := .parked (.split true) }
      | .stopped (some (.split false)) => t.setStrand i { t.strand i with stat := .stopped (some (.split true)) }
      | _ => t
    let s3 := here.foldl (fun (t : State) e => e.2.bundles.foldl (fun u b => (u.liveStrands b).foldl wake u) t) s2
    { s3 with stays := Tbl.mapVals (fun (x : Stay) => if x.core = some c then { x with splitTo := none } else x) s3.stays }

def execSplitDrainComplete (core : Nat) (s : State) : Outcome State Fault Refusal := .next (s.splitDone core)

/-! ### LAUNCH (03 R85, 25 R376) -/

/-- Entries of a launch queue; 0 while it is disabled. -/
def LaunchQueue.size (q : LaunchQueue) : Nat :=
  let k := q.qctl.toNat % 16
  if 1 ≤ k ∧ k ≤ 12 then 2 ^ k else 0

def State.launchQueue (s : State) (ctx q : Nat) : LaunchQueue := Tbl.getD (s.ctx ctx).queues q LaunchQueue.reset
def State.setLaunchQueue (s : State) (ctx q : Nat) (x : LaunchQueue) : State :=
  s.setCtx ctx { s.ctx ctx with queues := Tbl.insert (s.ctx ctx).queues q x }

/-- Publish a header from the device: the sequence number, or 0 where the device ring is full, the queue is disabled or the
context has ended. -/
def State.submit (s : State) (ctx : Nat) (h : List Dword) : Nat × State :=
  let q := hdrPrio h
  let x := s.launchQueue ctx q
  let n := x.size
  if n = 0 ∨ (s.ctx ctx).live = false ∨ (x.devTail + 1) % n = x.devHead then (0, s)
  else
    let at0 := x.qbase.toNat + 80 * n + 64 * x.devTail
    let s1 := (List.range 8).foldl (fun (t : State) i => t.hubWrite (at0 + 8 * i) 8 (h.getD i 0).toNat) s
    let seq := (s1.ctx ctx).nextSeq
    let s2 := s1.setLaunchQueue ctx q
      { x with devTail := (x.devTail + 1) % n, entries := x.entries ++ [⟨false, x.devTail, seq⟩] }
    (seq, s2.setCtx ctx { s2.ctx ctx with nextSeq := seq + 1 })

/-- The eight dwords of a header in memory. -/
def State.headerAt (s : State) (pa : Nat) : List Dword := (List.range 8).map (fun i => s.readDword (pa + 8 * i))

def launchOwner (d a : BitVec 6) (o : Nat) (s : State) : Eff State :=
  match s.useS o a with
  | .error e => .error e
  | .ok v =>
    if v.toNat % 64 ≠ 0 then trapWith causeBadTarget 0
    else
      match s.globalAccess s.cur.ctx v 64 64 false true with
      | .error e => .error e
      | .ok (pa, _, t) =>
        let r := t.submit s.cur.ctx (t.headerAt pa)
        let w := r.2.deliver o 0 4 (BitVec.ofNat 64 r.1)
        .ok (w.2.putS o d w.1)

def execLaunch (d a : BitVec 6) (s : State) : Outcome State Fault Refusal := conclude s (forOwners s (launchOwner d a))

/-! ### Records (03 R86, 07 R161) -/

/-- The slots of a context's pool that are free. -/
def Context.freeSlots (c : Context) : List Dword :=
  ((List.range c.poolCount).map (fun j => c.poolBase + BitVec.ofNat 64 (c.poolSize * j))).filter
    (fun r => (Tbl.find? c.records r.toNat).isNone)

/-- Whether the context's node table holds a node at an index (25 R381). -/
def State.isNode (s : State) (ctx n : Nat) : Bool :=
  decide (n < (s.ctx ctx).nodeCount) && (Tbl.find? (s.ctx ctx).nodes n).isSome

/-- The node an owner names, or bad-node. -/
def State.nodeFor (s : State) (o : Nat) (a : BitVec 6) : Eff Nat :=
  match s.useS o a with
  | .error e => .error e
  | .ok v => if s.isNode s.cur.ctx v.toNat then .ok v.toNat else trapWith causeBadNode 0

def State.setRecord (s : State) (ctx : Nat) (r : Dword) (x : RecordStat) : State :=
  s.setCtx ctx { s.ctx ctx with records := Tbl.insert (s.ctx ctx).records r.toNat x }

/-- RECA of one owner: which free slot is taken is open (07 R161; log 37). -/
def recaOwner (d a : BitVec 6) (o : Nat) (s : State) : Eff State :=
  match s.nodeFor o a with
  | .error e => .error e
  | .ok n =>
    match (s.ctx s.cur.ctx).freeSlots with
    | [] => waitWith .rest
    | r :: rest =>
      let f := s.free
      let all := r :: rest
      let x := all.getD (f.1.toNat % all.length) r
      .ok ((f.2.setRecord s.cur.ctx x (.committable n)).putS o d x)

/-- RECA as a park point: owners in rising order take the slots there are, and the others park. -/
def State.recaPoint (s : State) (a : BitVec 6) : Eff State :=
  match s.cur.owners.mapM (fun o => s.nodeFor o a) with
  | .error e => .error e
  | .ok _ =>
    let fits := s.cur.owners.take (s.ctx s.cur.ctx).freeSlots.length
    .ok (s.ownerPoint (fun o => if fits.contains o then none else some .rest))

def execReca (d a : BitVec 6) (s : State) : Outcome State Fault Refusal :=
  conclude s (
    match (if s.cur.cleared then .ok s else s.recaPoint a) with
    | .error e => .error e
    | .ok t => forOwners t (recaOwner d a))

/-- Fields of H6 and H7 (07 R144). -/
def hdrWaitBead (h : List Dword) : Nat := (h.getD 6 0).toNat % 2 ^ 16
def hdrWaitCount (h : List Dword) : Nat := (h.getD 6 0).toNat / 2 ^ 16 % 2 ^ 16
def hdrDoneBead (h : List Dword) : Nat := (h.getD 6 0).toNat / 2 ^ 32 % 2 ^ 16
def hdrDoneCount (h : List Dword) : Nat := (h.getD 6 0).toNat / 2 ^ 48
def hdrTmo (h : List Dword) : Nat := (h.getD 7 0).toNat / 2 ^ 32
def hdrBatch (h : List Dword) : Nat := (h.getD 7 0).toNat / 2 ^ 16 % 2 ^ 11
def hdrRecSize (h : List Dword) : Nat := (h.getD 7 0).toNat % 2 ^ 16
def hdrPlan (h : List Dword) : Dword := h.getD 5 0

/-- The 64 bytes of a header's plan, none where it has no plan or a misaligned one (07 R162): the read waits for a frame, fails, or
backs its page as another read does. -/
def State.planBytes (s : State) (ctx : Nat) (h : List Dword) : Eff (List Nat × State) :=
  if hdrPlan h = 0 ∨ (hdrPlan h).toNat % 64 ≠ 0 then .ok ([], s)
  else
    match s.pageFor ctx (hdrPlan h) false with
    | .error e => .error e
    | .ok (p, t) =>
      let pa := p.pa (hdrPlan h).toNat
      if paExists pa then .ok ((t.readBytes pa 64).map BitVec.toNat, t) else fatalWith causeNotResident (hdrPlan h)

/-- A plan's page has no frame yet and its pool none to give: the hub waits for one (15 R260). -/
def State.planWaits (s : State) (ctx : Nat) (h : List Dword) : Bool :=
  match s.planBytes ctx h with
  | .error (.stopped (.wait _)) => true
  | _ => false

/-- The phases and the codebook of a launch's plan, and the state after the read: the E2M1 book where the plan gives none (07
R162). -/
def State.readPlan (s : State) (ctx : Nat) (h : List Dword) : (List Nat × List Nat) × State :=
  match s.planBytes ctx h with
  | .error _ => (([], []), s)
  | .ok (bs, t) =>
    ((bs.take 16, if bs.getD 16 0 % 2 = 1 then (List.range 16).map (fun c => bs.getD (32 + 2 * c) 0 + 256 * bs.getD (33 + 2 * c) 0) else []), t)

/-- A launch waits on its bead before it is dispatched (07 R147). A wait bead that cannot be used any more holds nothing back. -/
def State.awaitLaunch (s : State) (l : Nat) : State :=
  match Tbl.find? s.launches l with
  | none => s
  | some x =>
    if hdrWaitBead x.hdr = 0xFFFF then s
    else
      match s.beadAt x.ctx none (hdrWaitBead x.hdr) with
      | none => s
      | some a =>
        let b := s.bead a
        ((s.setLaunch l { x with phase := .waiting }).setBead a { b with queue := b.queue ++ [(.launch l, hdrWaitCount x.hdr)] }).serveBead a
          (b.queue.length + 1)

/-- Enter a launch that the hub has taken. -/
def State.addLaunch (s0 : State) (ctx seq : Nat) (h : List Dword) (origin : LaunchFrom) (crews : Nat) (batch : List Dword) : State :=
  let l := Tbl.nextKey s0.launches
  let r := s0.readPlan ctx h
  let plan := r.1
  let s := r.2
  let replay : Option (Dword × Nat) := if hdrReplay h then ((s.ctx ctx).capture).map (fun (b : Capture) => (b.base, b.used)) else none
  let x : Launch :=
    { ctx := ctx, seq := seq, hdr := h, origin := origin, phase := .running, nextCrew := 0, crewCount := crews, endedCrews := 0,
      plan := plan.1, book := plan.2, tiles := [], endedTiles := [], frags := [], meshes := 0, ordinals := [], replay := replay,
      batch := batch, trapSeq := 0, begun := none }
  (s.setLaunch l x).awaitLaunch l

/-- The hub takes the k oldest pending records of a node as the batch of one crew (07 R161), once the plan of its header can be read.
Each batch is entered as a launch of its own (log 126). -/
def State.takeBatch (s : State) (ctx n k : Nat) : State :=
  let nd := Tbl.getD (s.ctx ctx).nodes n ⟨[], [], false, false⟩
  let rs := (nd.pending.take k).map Prod.fst
  if rs.isEmpty || s.planWaits ctx nd.hdr then s
  else
    let s1 := s.setCtx ctx { s.ctx ctx with nodes := Tbl.insert (s.ctx ctx).nodes n { nd with pending := nd.pending.drop k } }
    let l := Tbl.nextKey s1.launches
    let s2 := rs.foldl (fun (t : State) r => t.setRecord ctx r (.held l)) s1
    s2.addLaunch ctx 0 nd.hdr (.node n) 1 rs

/-- REMIT: the record joins its node's pending records, and the hub takes a batch once it is full (07 R161); an aborted node's returns to the pool at once (14 R238). -/
def remitOwner (a : BitVec 6) (o : Nat) (s : State) : Eff State :=
  match s.useS o a with
  | .error e => .error e
  | .ok r =>
    let ctx := s.cur.ctx
    match Tbl.find? (s.ctx ctx).records r.toNat with
    | some (.committable n) =>
      let nd := Tbl.getD (s.ctx ctx).nodes n ⟨[], [], false, false⟩
      if nd.aborted then .ok (s.freeRecords ctx [r])
      else
        let t := s.readTime
        let s1 := t.2.setRecord ctx r (.pending n)
        let nd1 := { nd with pending := nd.pending ++ [(r, t.1)], active := true }
        let s2 := s1.setCtx ctx { s1.ctx ctx with nodes := Tbl.insert (s1.ctx ctx).nodes n nd1 }
        .ok (if hdrBatch nd.hdr ≤ nd1.pending.length then s2.takeBatch ctx n (hdrBatch nd.hdr) else s2)
    | _ => trapWith causeBadRecord 0

def execRemit (a : BitVec 6) (s : State) : Outcome State Fault Refusal := conclude s (forOwners s (remitOwner a))

/-- Whether a record may be returned: committable, or of the batch of a running crew (03 R86). -/
def State.returnable (s : State) (ctx : Nat) (r : Dword) : Bool :=
  match Tbl.find? (s.ctx ctx).records r.toNat with
  | some (.committable _) => true
  | some (.held l) => s.crews.any (fun e => e.2.launch == l && e.2.started && !e.2.ended)
  | _ => false

/-- Return a record to its context's pool: its bytes stay. -/
def State.returnRecord (s : State) (ctx : Nat) (r : Dword) : State :=
  let s1 := s.freeRecords ctx [r]
  let drop (x : Crew) : Crew := if s.launchCtx x.launch = ctx then { x with records := x.records.filter (fun y => y != r) } else x
  { s1 with crews := Tbl.mapVals drop s1.crews }

def rdoneOwner (a : BitVec 6) (o : Nat) (s : State) : Eff State :=
  match s.useS o a with
  | .error e => .error e
  | .ok r => if s.returnable s.cur.ctx r then .ok (s.returnRecord s.cur.ctx r) else trapWith causeBadRecord 0

def execRdone (a : BitVec 6) (s : State) : Outcome State Fault Refusal := conclude s (forOwners s (rdoneOwner a))

/-! ### The frame governor (23 R366-R370) -/

/-- GOVQ's answer at a time (23 R368). -/
def GovStream.answer (g : GovStream) (now : Nat) : Nat :=
  let dl := g.deadline.toNat
  let a := if dl = 0 then g.max
    else if g.samples = 0 then g.min
    else if g.avg = 0 then (if now < dl then g.max else 0)
    else (dl - now) / g.avg
  if g.max < g.min then g.max else Nat.min (Nat.max a g.min) g.max

/-- A start: it replaces the reporter's open start, and a 17th reporter evicts the oldest entry (23 R367). -/
def GovStream.start (g : GovStream) (who : Nat × Nat) (now : Nat) : GovStream :=
  let others := g.opens.filter (fun e => e.1 != who)
  { g with opens := (if 16 ≤ others.length then others.drop 1 else others) ++ [(who, now)] }

/-- An end: the average takes an eighth of the difference, floored (23 R367). -/
def GovStream.finish (g : GovStream) (who : Nat × Nat) (now : Nat) : GovStream :=
  match List.find? (fun (e : (Nat × Nat) × Nat) => e.1 == who) g.opens with
  | none => g
  | some e =>
    let d := Nat.min (now - e.2) (2 ^ 32 - 1)
    let avg : Nat := if g.samples = 0 then d else ((g.avg : Int) + (((d : Int) - g.avg) / 8)).toNat
    { g with avg := avg, samples := Nat.min (g.samples + 1) 255, opens := g.opens.filter (fun x => x.1 != who) }

def State.govStream (s : State) (ctx n : Nat) : GovStream := Tbl.getD (s.ctx ctx).gov n GovStream.reset
def State.setGov (s : State) (ctx n : Nat) (g : GovStream) : State :=
  s.setCtx ctx { s.ctx ctx with gov := Tbl.insert (s.ctx ctx).gov n g }

/-- The launch sequence number a reporter is known by; a node's crews by their node (23 R367, 14 R238). -/
def State.reporterLaunch (s : State) (o : Nat) : Nat :=
  match s.launchOf o with
  | none => 0
  | some l => match Tbl.find? s.launches l with
    | some x => (launchWord x).toNat
    | none => 0

/-- Whether an owner's launch runs in replay (07 R144). -/
def State.replays (s : State) (o : Nat) : Bool := hdrReplay (s.ownerHeader o)

/-- The stream a governor instruction names, or bad-stream (03 R91). -/
def State.streamFor (s : State) (o : Nat) (a : BitVec 6) : Eff Nat :=
  match s.useS o a with
  | .error e => .error e
  | .ok v => if v.toNat ≤ 15 then .ok v.toNat else trapWith causeBadStream 0

/-- GOVQ as the hub applies it for an owner: in replay the recorded answer, or MIN and an event where the record is
exhausted; LAST is then unchanged (23 R370). -/
def State.govQuery (s : State) (ctx n o : Nat) (d : BitVec 6) : State :=
  let t := s.readTime
  let g := t.2.govStream ctx n
  if t.2.replays o then
    match t.2.deliverWith o 0 2 0 with
    | (some v, u) => u.putS o d v
    | (none, u) => (u.post ctx 7 [BitVec.ofNat 64 n]).putS o d (BitVec.ofNat 64 g.min)
  else
    let a := g.answer t.1
    let u := (t.2.setGov ctx n { g with last := a }).deliver o 0 2 (BitVec.ofNat 64 a)
    u.2.putS o d u.1

def govqOwner (d a : BitVec 6) (o : Nat) (s : State) : Eff State :=
  (s.streamFor o a).map (fun n => s.govQuery s.cur.ctx n o d)

def execGovq (d a : BitVec 6) (s : State) : Outcome State Fault Refusal := conclude s (forOwners s (govqOwner d a))

/-- A report as the hub applies it: stamped with device time on arrival. -/
def State.govReport (s : State) (ctx n : Nat) (who : Nat × Nat) (fin : Bool) : State :=
  let t := s.readTime
  let g := t.2.govStream ctx n
  t.2.setGov ctx n (if fin then g.finish who t.1 else g.start who t.1)

/-- GOVR: in replay the report is discarded (23 R370). -/
def govrOwner (a : BitVec 6) (m : Bool) (o : Nat) (s : State) : Eff State :=
  (s.streamFor o a).map (fun n =>
    if s.replays o then s else s.govReport s.cur.ctx n (s.reporterLaunch o, s.reporterIndex o) m)

def execGovr (a : BitVec 6) (m : Bool) (s : State) : Outcome State Fault Refusal := conclude s (forOwners s (govrOwner a m))

/-- The order of requests that reach the hub in one cycle (23 R369): reports before queries, then die, core, unit. -/
def govBefore (x y : GovRequest) : Bool :=
  let rank (r : GovRequest) : Nat := match r.kind with
    | .query .. => 1
    | _ => 0
  decide (rank x < rank y) || (rank x == rank y && (decide (x.die < y.die) || (x.die == y.die &&
    (decide (x.core < y.core) || (x.core == y.core && decide (x.unit ≤ y.unit))))))

def govInsert (x : GovRequest) : List GovRequest → List GovRequest
  | [] => [x]
  | y :: rest => if govBefore x y then x :: y :: rest else y :: govInsert x rest

def govSort : List GovRequest → List GovRequest
  | [] => []
  | x :: rest => govInsert x (govSort rest)

/-- Whether a launch of a context runs in replay. -/
def State.replayLaunch (s : State) (ctx seq : Nat) : Bool :=
  s.launches.any (fun e => e.2.ctx == ctx && (launchWord e.2).toNat == seq && hdrReplay e.2.hdr)

/-- Apply one request. -/
def State.govApply (s : State) (r : GovRequest) : State :=
  match r.kind with
  | .query o d => s.govQuery r.ctx r.stream o d
  | .start => if s.replayLaunch r.ctx r.launchSeq then s else s.govReport r.ctx r.stream (r.launchSeq, r.unit) false
  | .finish => if s.replayLaunch r.ctx r.launchSeq then s else s.govReport r.ctx r.stream (r.launchSeq, r.unit) true

/-- GOVERNOR_REQUEST_ARRIVAL: requests that arrive together, applied one at a time (23 R369). -/
def execGovernorRequestArrival (reqs : List GovRequest) (s : State) : Outcome State Fault Refusal :=
  .next ((govSort reqs).foldl State.govApply s)

end Sys2Proof.Machine
end

