-- ==== Sys2Proof/WellFormed.lean ====
section
/-! DEFINITION. Which operand values an instruction may carry (01 R15, R17, R25 and the field limits of the instruction
chapters). Every check here is one the decoder reports as illegal-field. -/

namespace Sys2Proof

/-- A guard of (!p0) is a reserved value, and a tile has no guard at all (01 R15). -/
def Guard.ok (p : Profile) (g : Guard) : Bool :=
  !(g.pg == 0 && g.neg) && (p == .raster || g.pg == 0)

/-- `lb` takes the base from a lane pair d0-d31; it must be 0 on a tile (01 R16, R25). -/
def baseOk (p : Profile) (a : BitVec 6) (lb : Bool) : Bool :=
  !lb || (p == .raster && decide (a.toNat ≤ 31))

/-- CHK names a register file of the executing profile (03 R79). -/
def chkOk (p : Profile) (d a : BitVec 6) : Bool :=
  match d.toNat with
  | 0 => true
  | 1 => p == .raster
  | 2 => p == .raster && decide (a.toNat ≤ 31)
  | 3 => p == .tile && decide (a.toNat ≤ 31)
  | _ => false

/-- The system registers assigned on a profile (03 R89). SPLITSTAT is held per raster core and Q6POP per tile stream;
DEDUCED (log 20): each is unassigned on the other profile. -/
def sysReadable (p : Profile) (n : Nat) : Bool :=
  decide (n ≤ 3) || (decide (8 ≤ n) && decide (n ≤ 0x11)) || (n == 0x12 && p == .raster)
    || (decide (0x20 ≤ n) && decide (n ≤ 0x41)) || (decide (0x48 ≤ n) && decide (n ≤ 0x4F))
    || (n == 0x50 && p == .tile)

/-- The system registers a program may write: ACR and the mailboxes (03 R89). -/
def sysWritable (_p : Profile) (n : Nat) : Bool :=
  n == 0 || (decide (8 ≤ n) && decide (n ≤ 0xF))

/-- The element types of the shape register (16 R272). -/
def vecTypeOk (t : BitVec 5) : Bool :=
  (decide (1 ≤ t.toNat) && decide (t.toNat ≤ 5)) || (decide (0x10 ≤ t.toNat) && decide (t.toNat ≤ 0x12))
    || (decide (0x14 ≤ t.toNat) && decide (t.toNat ≤ 0x16))

/-- The format codes that are not reserved; a reserved code in an instruction field raises illegal-field (02 R31). -/
def formatOk (t : BitVec 5) : Bool :=
  decide (t.toNat ≤ 0xC) || (decide (0x10 ≤ t.toNat) && decide (t.toNat ≤ 0x19))

/-- The width in bits of an element type of the shape register (16 R271, R272). -/
def vecTypeWidth (t : BitVec 5) : Nat :=
  match t.toNat with
  | 1 => 32 | 2 => 16 | 3 => 16 | 4 => 8 | 5 => 8
  | 0x10 => 8 | 0x11 => 16 | 0x12 => 32 | 0x14 => 8 | 0x15 => 16 | 0x16 => 32
  | _ => 32

/-- VSHAPE's fields (16 R288): a type, ROT of 0 or 1, and an immediate count of at most N(TYPE), or a register count. -/
def vshapeOk (d a b : BitVec 5) (k : BitVec 3) (m : Bool) : Bool :=
  vecTypeOk d && decide (k.toNat ≤ 1)
    && (if m then b == 0 else decide (32 * a.toNat + b.toNat ≤ 2048 / vecTypeWidth d))

/-- Two boxes of the tile store, each (row, byte column, rows, bytes), that share a byte. -/
def boxesOverlap (r1 c1 n1 w1 r2 c2 n2 w2 : Nat) : Bool :=
  decide (r1 < r2 + n2) && decide (r2 < r1 + n1) && decide (c1 < c2 + w2) && decide (c2 < c1 + w1)

/-- The width in bits of an MCVT target code, 0 for a code outside R315 (19 R315). -/
def mcvtWidth (code : BitVec 5) : Nat :=
  match code.toNat with
  | 0x01 => 32 | 0x02 => 16 | 0x03 => 16 | 0x04 => 8 | 0x05 => 8 | 0x10 => 8 | 0x12 => 32 | 0x14 => 8
  | _ => 0

/-- MCVT's operands (19 R307, R315): a code of the table, both footprints inside the tile store, and no overlap but the
same rows from byte column 0. -/
def mcvtOk (row1 : BitVec 9) (col1 : BitVec 5) (row2 : BitVec 9) (code : BitVec 5) : Bool :=
  let w := mcvtWidth code
  w != 0 && decide (row1.toNat ≤ 384) && decide (16 * col1.toNat + 16 * w ≤ 512) && decide (row2.toNat ≤ 384)
    && (!boxesOverlap row1.toNat (16 * col1.toNat) 128 (16 * w) row2.toNat 0 128 512 || (row1 == row2 && col1 == 0))

/-- The element width MTRN's aux selects (19 R309). -/
def mtrnWidth (wd : BitVec 2) : Nat :=
  match wd.toNat with
  | 0 => 8 | 1 => 16 | 2 => 32 | _ => 4

/-- MTRN's operands (19 R307, R315): both footprints inside the tile store, with no overlap. -/
def mtrnOk (row1 : BitVec 9) (col1 : BitVec 5) (row2 : BitVec 9) (col2 : BitVec 5) (wd : BitVec 2) : Bool :=
  let w := 16 * mtrnWidth wd
  decide (row1.toNat ≤ 384) && decide (16 * col1.toNat + w ≤ 512) && decide (row2.toNat ≤ 384)
    && decide (16 * col2.toNat + w ≤ 512)
    && !boxesOverlap row1.toNat (16 * col1.toNat) 128 w row2.toNat (16 * col2.toNat) 128 w

/-- SEM instructions name a bead by `bead` (m = 0) or by s(a) (m = 1), the other field being unused, and carry neither a
token nor a signal (19 R327). -/
def semOk (t : CopyTail) (a : BitVec 6) (m : Bool) : Bool :=
  !t.bs && !t.te && t.tok == 0 && (if m then t.bead == 0 else a == 0)

/-- The element types CPY.RED combines (19 R322). -/
def redTypeOk (ty : BitVec 5) : Bool :=
  ty == 0x01 || ty == 0x03 || ty == 0x12 || ty == 0x16

/-- The operand values an instruction admits on a profile, beside the zero fields of R17. An event is never code. -/
def WellFormed (p : Profile) (i : Instr) : Bool :=
  match i with
  | .nop => true
  | .bra _ => true
  | .brac kind c _ _ => (kind || (match p with | .raster => decide (c.toNat ≤ 7) | .tile => c == 0))
  | .brx a m => (!m || (p == .raster && decide (a.toNat ≤ 31)))
  | .call _ => true
  | .ret a => (p == .tile || decide (a.toNat ≤ 31))
  | .loop _ _ => true
  | .loopi _ _ => true
  | .voteAny _ _ _ => p == .raster
  | .voteAll _ _ => p == .raster
  | .barCrew imm => p == .raster && (decide (imm.toNat ≤ 7))
  | .barGrove imm => p == .raster && (decide (imm.toNat ≤ 3))
  | .barArrive _ _ imm => p == .raster && (decide (8 ≤ imm.toNat) && decide (imm.toNat ≤ 15))
  | .barWait _ _ imm => p == .raster && (decide (8 ≤ imm.toNat) && decide (imm.toNat ≤ 15))
  | .wait _ => true
  | .waitt _ _ => true
  | .fence imm => (decide (imm.toNat < 32) && decide (imm.toNat % 8 ≠ 7))
  | .fencePromote imm => (decide (imm.toNat ≤ 6))
  | .fenceI => true
  | .trap _ => true
  | .chk d a => chkOk p d a
  | .region _ => p == .tile
  | .exit => true
  | .yield => true
  | .lease _ _ _ => p == .raster
  | .split _ imm => p == .raster && (decide (imm.toNat ≤ 15))
  | .launch _ _ => true
  | .reca _ _ => true
  | .remit _ => true
  | .rdone _ => true
  | .millCfg _ _ => p == .raster
  | .millEnter => p == .raster
  | .millExit _ => p == .raster
  | .fsend _ _ => p == .raster
  | .fsendNb _ _ _ => p == .raster
  | .ftake _ _ => p == .raster
  | .sread reg _ => (sysReadable p reg.toNat)
  | .swrite reg _ => (sysWritable p reg.toNat)
  | .govq _ _ => true
  | .govr _ _ => true
  | .bkpt _ => true
  | .add _ _ _ => true
  | .addi _ _ _ => true
  | .sub _ _ _ => true
  | .mul _ _ _ => true
  | .mulhI _ _ _ => true
  | .mulhN _ _ _ => true
  | .divI _ _ _ => true
  | .divN _ _ _ => true
  | .remI _ _ _ => true
  | .remN _ _ _ => true
  | .and _ _ _ => true
  | .or _ _ _ => true
  | .xor _ _ _ => true
  | .andi _ _ _ => true
  | .ori _ _ _ => true
  | .xori _ _ _ => true
  | .shl _ _ _ => true
  | .shrI _ _ _ => true
  | .shrN _ _ _ => true
  | .rot _ _ _ => true
  | .minI _ _ _ => true
  | .minN _ _ _ => true
  | .maxI _ _ _ => true
  | .maxN _ _ _ => true
  | .abs _ _ => true
  | .neg _ _ => true
  | .cmp _ _ _ _ => true
  | .cmpp cc _ _ _ => (decide (cc.toNat ≤ 5))
  | .sel _ _ _ => true
  | .mov _ _ => true
  | .movi _ _ => true
  | .movh _ _ _ => true
  | .lea _ _ _ _ => true
  | .popc _ _ => true
  | .clz _ _ => true
  | .ctz _ _ => true
  | .bfxI _ _ _ => true
  | .bfxN _ _ _ => true
  | .bfi _ _ _ => true
  | .brev _ _ => true
  | .mad _ _ _ => true
  | .addsI _ _ _ => true
  | .addsN _ _ _ => true
  | .subsI _ _ _ => true
  | .subsN _ _ _ => true
  | .mbx _ _ imm => (decide (imm.toNat ≤ 7))
  | .time _ => true
  | .wid _ imm => p == .raster && (decide (imm.toNat ≤ 21) && decide (imm.toNat % 8 ≤ 5))
  | .iadd g _ _ _ _ => p == .raster && g.ok p
  | .iaddi g _ _ _ => p == .raster && g.ok p
  | .isub g _ _ _ _ => p == .raster && g.ok p
  | .imul g _ _ _ => p == .raster && g.ok p
  | .imad g _ _ _ => p == .raster && g.ok p
  | .imulhI g _ _ _ => p == .raster && g.ok p
  | .imulhN g _ _ _ => p == .raster && g.ok p
  | .iminI g _ _ _ => p == .raster && g.ok p
  | .iminN g _ _ _ => p == .raster && g.ok p
  | .imaxI g _ _ _ => p == .raster && g.ok p
  | .imaxN g _ _ _ => p == .raster && g.ok p
  | .iand g _ _ _ => p == .raster && g.ok p
  | .ior g _ _ _ => p == .raster && g.ok p
  | .ixor g _ _ _ => p == .raster && g.ok p
  | .ishl g _ _ _ => p == .raster && g.ok p
  | .ishrI g _ _ _ => p == .raster && g.ok p
  | .ishrN g _ _ _ => p == .raster && g.ok p
  | .ibfxI g _ _ _ => p == .raster && g.ok p
  | .ibfxN g _ _ _ => p == .raster && g.ok p
  | .ibfi g _ _ _ => p == .raster && g.ok p
  | .ipopc g _ _ => p == .raster && g.ok p
  | .iclz g _ _ => p == .raster && g.ok p
  | .icmp g cc _ _ _ => p == .raster && g.ok p && (decide (cc.toNat ≤ 5))
  | .isel g _ _ _ => p == .raster && g.ok p
  | .imov g _ _ => p == .raster && g.ok p
  | .imovi g _ _ => p == .raster && g.ok p
  | .idot4I8 g _ _ _ _ => p == .raster && g.ok p
  | .idot4N8 g _ _ _ _ => p == .raster && g.ok p
  | .faddF32 g _ _ _ => p == .raster && g.ok p
  | .fmulF32 g _ _ _ => p == .raster && g.ok p
  | .ffmaF32 g _ _ _ => p == .raster && g.ok p
  | .fminF32 g _ _ _ _ => p == .raster && g.ok p
  | .fmaxF32 g _ _ _ _ => p == .raster && g.ok p
  | .fcmpF32 g cc _ _ _ => p == .raster && g.ok p && (decide (cc.toNat ≤ 5))
  | .frndF32 g _ _ b => p == .raster && g.ok p && (decide (b.toNat ≤ 4))
  | .frcp g _ _ => p == .raster && g.ok p
  | .frsq g _ _ => p == .raster && g.ok p
  | .fsqrt g _ _ => p == .raster && g.ok p
  | .fexp2 g _ _ => p == .raster && g.ok p
  | .flog2 g _ _ => p == .raster && g.ok p
  | .fsin g _ _ => p == .raster && g.ok p
  | .fcos g _ _ => p == .raster && g.ok p
  | .faddH2 g _ _ _ => p == .raster && g.ok p
  | .fmulH2 g _ _ _ => p == .raster && g.ok p
  | .ffmaH2 g _ _ _ => p == .raster && g.ok p
  | .faddB2 g _ _ _ => p == .raster && g.ok p
  | .fmulB2 g _ _ _ => p == .raster && g.ok p
  | .ffmaB2 g _ _ _ => p == .raster && g.ok p
  | .cvtF32I32 g _ _ => p == .raster && g.ok p
  | .cvtF32N32 g _ _ => p == .raster && g.ok p
  | .cvtI32F32 g _ _ b => p == .raster && g.ok p && (decide (b.toNat ≤ 4))
  | .cvtN32F32 g _ _ b => p == .raster && g.ok p && (decide (b.toNat ≤ 4))
  | .cvtF32H2 g _ _ _ => p == .raster && g.ok p
  | .cvtH2F32 g _ _ _ => p == .raster && g.ok p
  | .cvtF32B2 g _ _ _ => p == .raster && g.ok p
  | .cvtB2F32 g _ _ _ => p == .raster && g.ok p
  | .cvtF32E4m3 g _ _ _ => p == .raster && g.ok p
  | .cvtE4m3F32 g _ _ _ => p == .raster && g.ok p
  | .cvtF32E5m2 g _ _ _ => p == .raster && g.ok p
  | .cvtE5m2F32 g _ _ _ => p == .raster && g.ok p
  | .shflIdx g _ _ _ => p == .raster && g.ok p
  | .shflXor g _ _ _ => p == .raster && g.ok p
  | .s2v g _ _ _ => p == .raster && g.ok p
  | .v2s g _ a _ m => p == .raster && g.ok p && (!m || decide (a.toNat ≤ 31))
  | .vadd _ _ _ _ _ => p == .tile
  | .vsub _ _ _ _ _ => p == .tile
  | .vmul _ _ _ _ _ => p == .tile
  | .vfma _ _ _ _ _ => p == .tile
  | .vmin _ _ _ _ _ => p == .tile
  | .vmax _ _ _ _ _ => p == .tile
  | .vabs _ _ _ _ => p == .tile
  | .vneg _ _ _ _ => p == .tile
  | .vcmp d _ _ _ => p == .tile && (decide (d.toNat ≤ 5))
  | .vsel _ _ _ _ _ => p == .tile
  | .vand _ _ _ _ _ => p == .tile
  | .vor _ _ _ _ _ => p == .tile
  | .vxor _ _ _ _ _ => p == .tile
  | .vshl _ _ _ _ _ => p == .tile
  | .vshrI _ _ _ _ _ => p == .tile
  | .vshrN _ _ _ _ _ => p == .tile
  | .vmov _ _ _ _ => p == .tile
  | .vbcast _ _ _ _ _ => p == .tile
  | .vrcp _ _ _ _ => p == .tile
  | .vrsq _ _ _ _ => p == .tile
  | .vexp2 _ _ _ _ => p == .tile
  | .vlog2 _ _ _ _ => p == .tile
  | .vtbli _ _ _ _ _ => p == .tile
  | .vtbll _ _ => p == .tile
  | .vrmax _ _ _ => p == .tile
  | .vradd _ _ _ => p == .tile
  | .vamax _ _ _ => p == .tile
  | .vqnt _ _ b _ _ => p == .tile && (decide (6 ≤ b.toNat) && decide (b.toNat ≤ 12))
  | .vdqnt _ _ b _ _ => p == .tile && (decide (6 ≤ b.toNat) && decide (b.toNat ≤ 12))
  | .vcvt _ _ b _ _ => p == .tile && (vecTypeOk b)
  | .vperm _ _ _ _ _ => p == .tile
  | .vslide _ _ _ _ _ => p == .tile
  | .vpop _ _ => p == .tile
  | .vpush d _ => p == .tile && (d.toNat == 4 || d.toNat == 5)
  | .vpopk _ _ => p == .tile
  | .vpushs d a k => p == .tile && ((d.toNat == 6 && k == 0) || (d.toNat == 7 && a == 0))
  | .vshape d a b k m => p == .tile && (vshapeOk d a b k m)
  | .vrot _ _ _ _ _ => p == .tile
  | .vscale _ _ _ _ _ => p == .tile
  | .vrnd _ _ b _ _ => p == .tile && (decide (b.toNat ≤ 4))
  | .vsqrt _ _ _ _ => p == .tile
  | .vmadI _ _ _ _ _ => p == .tile
  | .vsat _ _ b _ _ => p == .tile && (formatOk b)
  | .vpsum _ _ _ _ => p == .tile
  | .vclamp _ _ _ _ _ => p == .tile
  | .vfrac _ _ _ _ => p == .tile
  | .vcbk _ => p == .tile
  | .vkmov _ _ _ _ => p == .tile
  | .mldb row2 col2 _ wide _ => p == .tile && (decide (row2.toNat ≤ 384) && decide (16 * col2.toNat + (if wide then 80 else 48) ≤ 512))
  | .mmaBf16 row1 row2 col2 _ _ => p == .tile && (decide (row1.toNat ≤ 384)) && (decide (row2.toNat ≤ 384) && decide (16 * col2.toNat + 48 ≤ 512))
  | .mmaF16 row1 row2 col2 _ _ => p == .tile && (decide (row1.toNat ≤ 384)) && (decide (row2.toNat ≤ 384) && decide (16 * col2.toNat + 48 ≤ 512))
  | .mmaE4m3 row1 row2 col2 _ _ => p == .tile && (decide (row1.toNat ≤ 384)) && (decide (row2.toNat ≤ 384) && decide (16 * col2.toNat + 48 ≤ 512))
  | .mmaE5m2 row1 row2 col2 _ _ => p == .tile && (decide (row1.toNat ≤ 384)) && (decide (row2.toNat ≤ 384) && decide (16 * col2.toNat + 48 ≤ 512))
  | .mmaMx8 row1 row2 col2 _ el _ => p == .tile && (decide (row1.toNat ≤ 384)) && (decide (row2.toNat ≤ 384) && decide (16 * col2.toNat + 48 ≤ 512)) && (decide (el.toNat ≤ 2))
  | .mmaMx6 row1 row2 col2 _ _ _ => p == .tile && (decide (row1.toNat ≤ 384)) && (decide (row2.toNat ≤ 384) && decide (16 * col2.toNat + 48 ≤ 512))
  | .mmaMx4 row1 row2 col2 _ _ _ => p == .tile && (decide (row1.toNat ≤ 384)) && (decide (row2.toNat ≤ 384) && decide (16 * col2.toNat + 48 ≤ 512))
  | .mmaI8 row1 row2 col2 _ _ _ _ _ => p == .tile && (decide (row1.toNat ≤ 384)) && (decide (row2.toNat ≤ 384) && decide (16 * col2.toNat + 48 ≤ 512))
  | .mmaI4 row1 row2 col2 _ _ _ _ _ => p == .tile && (decide (row1.toNat ≤ 384)) && (decide (row2.toNat ≤ 384) && decide (16 * col2.toNat + 48 ≤ 512))
  | .mmasMx4 row1 row2 col2 _ _ _ => p == .tile && (decide (row1.toNat ≤ 384)) && (decide (row2.toNat ≤ 384) && decide (16 * col2.toNat + 64 ≤ 512))
  | .mmasMx8 row1 row2 col2 _ el _ => p == .tile && (decide (row1.toNat ≤ 384)) && (decide (row2.toNat ≤ 384) && decide (16 * col2.toNat + 64 ≤ 512)) && (decide (el.toNat ≤ 2))
  | .mmvMx4 row1 col1 row2 col2 pr _ ec _ => p == .tile && (decide (row1.toNat ≤ 384) && decide (16 * col1.toNat + 32 ≤ 512)) && (if pr then row2 == 0 && col2 == 0 else decide (row2.toNat ≤ 384) && decide (16 * col2.toNat + 48 ≤ 512)) && (decide (ec.toNat ≤ 1))
  | .mmvMx8 row1 col1 row2 col2 pr _ ec _ => p == .tile && (decide (row1.toNat ≤ 384) && decide (16 * col1.toNat + 32 ≤ 512)) && (if pr then row2 == 0 && col2 == 0 else decide (row2.toNat ≤ 384) && decide (16 * col2.toNat + 48 ≤ 512)) && (decide (ec.toNat ≤ 2))
  | .mmvBf16 row1 col1 row2 col2 pr _ _ => p == .tile && (decide (row1.toNat ≤ 384) && decide (16 * col1.toNat + 32 ≤ 512)) && (if pr then row2 == 0 && col2 == 0 else decide (row2.toNat ≤ 384) && decide (16 * col2.toNat + 48 ≤ 512))
  | .mzero row1 col1 _ mv _ => p == .tile && (decide (row1.toNat ≤ 384)) && (if mv then decide (16 * col1.toNat + 32 ≤ 512) else col1 == 0)
  | .mscale row1 _ _ _ => p == .tile && (decide (row1.toNat ≤ 384))
  | .mcvt row1 col1 row2 _ code _ _ => p == .tile && mcvtOk row1 col1 row2 code
  | .mtest _ _ _ => p == .tile
  | .mfence _ => p == .tile
  | .mcbk _ col2 _ _ _ => p == .tile && (decide (16 * col2.toNat + 32 ≤ 512))
  | .mtrn row1 col1 row2 col2 wd _ => p == .tile && mtrnOk row1 col1 row2 col2 wd
  | .mpair _ _ => p == .tile
  | .mfree _ => p == .tile
  | .ld8 g _ a lb _ => p == .raster && g.ok p && baseOk p a lb
  | .ld16 g _ a lb _ => p == .raster && g.ok p && baseOk p a lb
  | .ld32 g _ a lb _ => p == .raster && g.ok p && baseOk p a lb
  | .ld64 g d a lb _ => p == .raster && g.ok p && baseOk p a lb && (decide (d.toNat ≤ 31))
  | .ld128 g d a lb _ => p == .raster && g.ok p && baseOk p a lb && (decide (d.toNat ≤ 30) && d.toNat % 2 == 0)
  | .ldx g _ a lb _ => p == .raster && g.ok p && baseOk p a lb
  | .ldro g _ a lb _ => p == .raster && g.ok p && baseOk p a lb
  | .st8 g _ a lb _ => p == .raster && g.ok p && baseOk p a lb
  | .st16 g _ a lb _ => p == .raster && g.ok p && baseOk p a lb
  | .st32 g _ a lb _ => p == .raster && g.ok p && baseOk p a lb
  | .st64 g d a lb _ => p == .raster && g.ok p && baseOk p a lb && (decide (d.toNat ≤ 31))
  | .st128 g d a lb _ => p == .raster && g.ok p && baseOk p a lb && (decide (d.toNat ≤ 30) && d.toNat % 2 == 0)
  | .stx g _ a lb _ => p == .raster && g.ok p && baseOk p a lb
  | .lds g _ a lb _ => g.ok p && baseOk p a lb
  | .sts g _ a lb _ => g.ok p && baseOk p a lb
  | .atomAdd g _ a _ lb sc _ un _ => p == .raster && g.ok p && baseOk p a lb && (decide (sc.toNat ≤ 6)) && !un
  | .atomMin g _ a _ lb sc _ _ _ => p == .raster && g.ok p && baseOk p a lb && (decide (sc.toNat ≤ 6))
  | .atomMax g _ a _ lb sc _ _ _ => p == .raster && g.ok p && baseOk p a lb && (decide (sc.toNat ≤ 6))
  | .atomAnd g _ a _ lb sc _ un _ => p == .raster && g.ok p && baseOk p a lb && (decide (sc.toNat ≤ 6)) && !un
  | .atomOr g _ a _ lb sc _ un _ => p == .raster && g.ok p && baseOk p a lb && (decide (sc.toNat ≤ 6)) && !un
  | .atomXor g _ a _ lb sc _ un _ => p == .raster && g.ok p && baseOk p a lb && (decide (sc.toNat ≤ 6)) && !un
  | .atomXchg g _ a _ lb sc _ un _ => p == .raster && g.ok p && baseOk p a lb && (decide (sc.toNat ≤ 6)) && !un
  | .atomCas g _ a _ lb sc _ un _ => p == .raster && g.ok p && baseOk p a lb && (decide (sc.toNat ≤ 6)) && !un
  | .atomFadd g _ a _ lb sc _ un _ => p == .raster && g.ok p && baseOk p a lb && (decide (sc.toNat ≤ 6)) && !un
  | .atomsAdd g _ a _ lb sc _ un _ => g.ok p && baseOk p a lb && (decide (sc.toNat ≤ 6)) && !un
  | .atomsCas g _ a _ lb sc _ un _ => g.ok p && baseOk p a lb && (decide (sc.toNat ≤ 6)) && !un
  | .probe g a _ m => g.ok p && (!m || (p == .raster && decide (a.toNat ≤ 31)))
  | .ldq g d a lb _ => p == .tile && g.ok p && baseOk p a lb && (decide (d.toNat ≤ 3))
  | .stq g d a lb _ => p == .tile && g.ok p && baseOk p a lb && (d.toNat == 4 || d.toNat == 5)
  | .lda g _ a lb _ => g.ok p && baseOk p a lb
  | .sta g _ a lb _ => g.ok p && baseOk p a lb
  | .cwb g a _ m => p == .raster && g.ok p && (!m || decide (a.toNat ≤ 31))
  | .cinv g a _ m => p == .raster && g.ok p && (!m || decide (a.toNat ≤ 31))
  | .icinv g a _ m => g.ok p && (!m || (p == .raster && decide (a.toNat ≤ 31)))
  | .invRo g => p == .raster && g.ok p
  | .tagset g a lb _ => p == .raster && g.ok p && baseOk p a lb
  | .tagget g _ a lb _ => p == .raster && g.ok p && baseOk p a lb
  | .pres g d a lb _ => g.ok p && baseOk p a lb && (p == .tile || decide (d.toNat ≤ 7))
  | .ldS g d a lb _ => g.ok p && baseOk p a lb && (p == .tile || decide (d.toNat ≤ 31))
  | .atomInc g _ a _ lb sc _ un _ => p == .raster && g.ok p && baseOk p a lb && (decide (sc.toNat ≤ 6)) && !un
  | .cpyLin _ _ _ _ _ => true
  | .cpyTen _ _ c _ _ _ => (decide (c.toNat ≤ 60))
  | .cpyMc _ _ _ _ _ => true
  | .cpyCol _ _ _ _ => p == .raster
  | .cpyFill _ _ _ => p == .tile
  | .cpyWb _ _ => p == .tile
  | .cpyTs _ _ _ _ _ col _ => p == .tile && (decide (col.toNat ≤ 15))
  | .cpyFeed _ _ _ row col _ => p == .tile && (decide (row.toNat ≤ 384) && decide (col.toNat ≤ 8))
  | .publish _ _ => true
  | .shadow _ _ _ => true
  | .semSig a _ m t => semOk t a m
  | .semWait a _ m t => semOk t a m
  | .semTry a _ _ m t => semOk t a m
  | .semSet a _ m t => semOk t a m
  | .semRead a _ m t => semOk t a m
  | .push _ _ _ _ _ _ => p == .tile
  | .shape _ _ _ => true
  | .tokq _ => true
  | .mapSet _ _ _ _ => p == .tile
  | .mapClr _ _ => p == .tile
  | .cpyRed _ _ _ ty rop _ => (redTypeOk ty && decide (rop.toNat ≤ 2))
  | .cpyGath _ _ c _ _ => (decide (c.toNat ≤ 62))
  | .cpyScat _ _ c _ _ => (decide (c.toNat ≤ 62))
  | .guideBind _ _ _ _ => p == .raster
  | .linkSend _ _ _ _ => true
  | .linkRecv _ _ _ _ => true
  | .cpyAbort t => (!t.te && t.tok == 0)
  | .cpyHost _ _ _ _ _ => true
  | .meshOut g _ a _ => p == .raster && g.ok p && (decide (a.toNat ≤ 60))
  | .meshPrim g _ _ => p == .raster && g.ok p
  | .meshDone g _ _ => p == .raster && g.ok p
  | .rastBind g _ _ => p == .raster && g.ok p
  | .pixIn g _ imm => p == .raster && g.ok p && (decide (imm.toNat ≤ 5))
  | .pixBary g _ b _ => p == .raster && g.ok p && (decide (b.toNat ≤ 17))
  | .pixDiscard g => p == .raster && g.ok p
  | .omWrite g a imm => p == .raster && g.ok p && (decide (a.toNat ≤ 60) && decide (imm.toNat ≤ 7))
  | .omDepth g _ => p == .raster && g.ok p
  | .guideOut g a => p == .raster && g.ok p && (decide (a.toNat ≤ 60))
  | .texSample g d _ _ => p == .raster && g.ok p && (decide (d.toNat ≤ 60))
  | .texLod g d _ _ => p == .raster && g.ok p && (decide (d.toNat ≤ 60))
  | .texGrad g d _ _ => p == .raster && g.ok p && (decide (d.toNat ≤ 60))
  | .texFetch g d _ _ => p == .raster && g.ok p && (decide (d.toNat ≤ 60))
  | .texGather4 g d _ _ => p == .raster && g.ok p && (decide (d.toNat ≤ 60))
  | .texQuery g _ _ imm => p == .raster && g.ok p && (decide (imm.toNat ≤ 4))
  | .rayBox g d a b => p == .raster && g.ok p && (decide (d.toNat ≤ 59) && decide (a.toNat ≤ 52) && decide (b.toNat ≤ 31))
  | .rayTri g d a b => p == .raster && g.ok p && (decide (d.toNat ≤ 60) && decide (a.toNat ≤ 52) && decide (b.toNat ≤ 31))
  | .rayInit g d a => p == .raster && g.ok p && (decide (d.toNat ≤ 52) && decide (a.toNat ≤ 56))
  | .rayXform g d a b m => p == .raster && g.ok p && (decide (d.toNat ≤ 52) && decide (a.toNat ≤ 52) && (!m || decide (b.toNat ≤ 31)))
  | .rayStkPush g d _ => p == .raster && g.ok p && (decide (d.toNat ≤ 58))
  | .rayStkPop g _ a => p == .raster && g.ok p && (decide (a.toNat ≤ 58))
  | .rayHit g d a => p == .raster && g.ok p && (decide (d.toNat ≤ 52) && decide (a.toNat ≤ 60))
  | .imgLd g d a lb _ => p == .raster && g.ok p && baseOk p a lb && (decide (d.toNat ≤ 60))
  | .imgSt g d a lb _ => p == .raster && g.ok p && baseOk p a lb && (decide (d.toNat ≤ 60))
  | .quadSwz g _ _ _ => p == .raster && g.ok p
  | .quadDeriv g _ _ imm => p == .raster && g.ok p && (decide (imm.toNat ≤ 3))
  | .launchDispatch _ _ => false
  | .crewPlacement => false
  | .crewStart _ => false
  | .bundleEnd _ => false
  | .launchCompletion _ => false
  | .activeSetRecompute _ => false
  | .leaseWindowEnd _ => false
  | .runArbitration _ => false
  | .yieldHoldExpiry _ => false
  | .batchTimeout _ _ => false
  | .groveBarrierDoneMessage _ _ _ => false
  | .pageBacking _ _ => false
  | .pageMigration _ _ => false
  | .copyUnitTransfer _ _ => false
  | .copyCompletion _ => false
  | .multicastShareWritten _ _ => false
  | .feedBlockWrite _ => false
  | .regionFillCompletion _ _ => false
  | .publishSwap _ _ => false
  | .remoteAtomicErrorResponse _ _ _ _ => false
  | .matRetire _ => false
  | .matrixSelfTest _ _ => false
  | .mpairSlave _ => false
  | .executeResultLanding _ => false
  | .scaleLatchDelivery _ => false
  | .taskSequencerPartStart _ => false
  | .loopRecordDoneSignal _ => false
  | .tilePreemptionSave _ => false
  | .tileSetPlacement => false
  | .meshRasterise _ => false
  | .pixelBundleStart _ => false
  | .fragmentMerge _ => false
  | .guideTileSend _ => false
  | .millStep _ => false
  | .millDrainTimeLimit _ => false
  | .millReload _ _ => false
  | .flumeStep _ _ => false
  | .preemptionRequest _ _ => false
  | .saveCommit _ => false
  | .saveSlotDrain _ => false
  | .crewRestore _ => false
  | .splitDrainComplete _ => false
  | .governorRequestArrival _ => false
  | .waittDeadline _ _ => false
  | .softError _ => false
  | .patrolScrub _ _ => false
  | .powerManagerWindow _ _ _ => false
  | .dieResetTimeLimit _ => false
  | .hostMemoryAccess _ _ _ => false
  | .qtailWrite _ _ _ => false
  | .qctlWrite _ _ _ => false
  | .mbxHostWrite _ _ _ => false
  | .govdeadWrite _ _ _ => false
  | .evheadWrite _ _ => false
  | .tsetWrite _ => false
  | .hostRegisterWrite _ _ => false
  | .createContext _ _ => false
  | .endContext _ => false
  | .shootDown _ _ _ => false
  | .shootDownAcknowledge _ => false
  | .addPoolFrames _ _ _ => false
  | .dieBeadAllocate _ _ => false
  | .dieBeadFree _ _ => false
  | .linkStreamAllocate _ _ _ => false
  | .linkStreamFree _ _ _ => false
  | .debugRetry _ _ => false
  | .debugSkip _ _ => false
  | .debugAbort _ => false
  | .computeReset _ _ => false
  | .powerOff _ => false
  | .writeMtcfg _ _ => false
  | .hostCopyToDevice _ _ _ _ _ => false
  | .hostCopyToHost _ _ _ _ _ => false
  | .installNodeTable _ _ _ => false
  | .installRecordPool _ _ _ _ => false
  | .attestationRequest _ => false
  | .identityCertificateRequest => false
  | .fenceAddendum _ _ => false
  | .errorLogRead _ _ => false
  | .captureOn _ _ _ => false
  | .captureOff _ => false
  | .imageWrite _ => false
  | .powerGood => false
  | .ptpMessage _ _ _ _ => false
  | .linkDataFrame _ _ => false
  | .linkAckFrame _ _ => false
  | .linkCreditFrame _ _ => false
  | .linkRetransmitTimeout _ _ => false
  | .foreignFrame _ => false
  | .railOutOfRange _ => false
  | .bypass => false
  | .idcode => false
  | .samplePreload => false
  | .extest => false
  | .portUp _ => false
  | .railInRange _ => false
  | .powerLoss _ => false
  | .timeLockLost => false

end Sys2Proof
end

