-- ==== Sys2Proof/Decode.lean ====
section
/-! DEFINITION. The words of an instruction: the opcode map, the decoder (total, rejecting by the trap the spec names) and the
encoder written from the same tables (01 R11-R26). -/

namespace Sys2Proof

/-- Which profiles an opcode is present on (01 R24). -/
inductive Presence where
  | both
  | rasterOnly
  | tileOnly
deriving DecidableEq, Repr

/-- The operand formats of 01 R16. -/
inductive Format where
  | fmtA | fmtI | fmtB | fmtC | fmtD | fmtT | fmtE | fmtV | fmtM | fmtY
deriving DecidableEq, Repr

/-- One cell of the opcode map: presence, format, and the operand bits of the first word and of the extension that the
instruction does not use and that must therefore be zero (01 R17, R24). -/
structure OpRow where
  presence : Presence
  format : Format
  zero : BitVec 19
  zeroExt : BitVec 32
deriving DecidableEq, Repr

/-- What decode reports (01 R25); `truncated` is an extension word that is not there to read. -/
inductive DecodeError where
  | illegalOpcode
  | opcodeAbsent
  | illegalLength
  | truncated
  | illegalField
deriving DecidableEq, Repr

/-- Class 0, control, in opcode order (01 R24). -/
def rowsCtl : List OpRow :=
  [⟨.both, .fmtA, 0x7FFFF, 0xFFFFFFFF⟩,
   ⟨.both, .fmtB, 0x0, 0x0⟩,
   ⟨.both, .fmtC, 0x0, 0x0⟩,
   ⟨.both, .fmtA, 0x7E07E, 0xFFFFFFFF⟩,
   ⟨.both, .fmtB, 0x0, 0x0⟩,
   ⟨.both, .fmtA, 0x7E07F, 0xFFFFFFFF⟩,
   ⟨.both, .fmtI, 0x7E000, 0x0⟩,
   ⟨.both, .fmtI, 0x0, 0x0⟩,
   ⟨.rasterOnly, .fmtA, 0x1C7E, 0xFFFFFFFF⟩,
   ⟨.rasterOnly, .fmtA, 0x1C7F, 0xFFFFFFFF⟩,
   ⟨.rasterOnly, .fmtI, 0x7FF80, 0x0⟩,
   ⟨.rasterOnly, .fmtI, 0x7FF80, 0x0⟩,
   ⟨.rasterOnly, .fmtI, 0x0, 0x0⟩,
   ⟨.rasterOnly, .fmtI, 0x0, 0x0⟩,
   ⟨.both, .fmtI, 0x7FF80, 0x0⟩,
   ⟨.both, .fmtA, 0x7E07E, 0xFFFFFFFF⟩] ++
  [⟨.both, .fmtI, 0x7FF80, 0x0⟩,
   ⟨.both, .fmtI, 0x7FF80, 0x0⟩,
   ⟨.both, .fmtA, 0x7FFFF, 0xFFFFFFFF⟩,
   ⟨.both, .fmtI, 0x7FF80, 0x0⟩,
   ⟨.both, .fmtA, 0x7F, 0xFFFFFFFF⟩,
   ⟨.tileOnly, .fmtB, 0x0, 0x0⟩,
   ⟨.both, .fmtA, 0x7FFFF, 0xFFFFFFFF⟩,
   ⟨.both, .fmtA, 0x7FFFF, 0xFFFFFFFF⟩,
   ⟨.rasterOnly, .fmtI, 0x0, 0x0⟩,
   ⟨.rasterOnly, .fmtI, 0x1F80, 0x0⟩,
   ⟨.both, .fmtA, 0x7F, 0xFFFFFFFF⟩,
   ⟨.both, .fmtA, 0x7F, 0xFFFFFFFF⟩,
   ⟨.both, .fmtA, 0x7E07F, 0xFFFFFFFF⟩,
   ⟨.both, .fmtA, 0x7E07F, 0xFFFFFFFF⟩,
   ⟨.rasterOnly, .fmtA, 0x7F, 0xFFFFFFFF⟩,
   ⟨.rasterOnly, .fmtA, 0x7FFFF, 0xFFFFFFFF⟩] ++
  [⟨.rasterOnly, .fmtA, 0x1FFF, 0xFFFFFFFF⟩,
   ⟨.rasterOnly, .fmtA, 0x6007F, 0xFFFFFFFF⟩,
   ⟨.rasterOnly, .fmtA, 0x60071, 0xFFFFFFFF⟩,
   ⟨.rasterOnly, .fmtA, 0x187F, 0xFFFFFFFF⟩,
   ⟨.both, .fmtE, 0x1, 0xFFFFFFFF⟩,
   ⟨.both, .fmtE, 0x1, 0xFFFFFFFF⟩,
   ⟨.both, .fmtA, 0x7F, 0xFFFFFFFF⟩,
   ⟨.both, .fmtA, 0x7E07E, 0xFFFFFFFF⟩,
   ⟨.both, .fmtI, 0x7FF80, 0x0⟩]

/-- Class 1, scalar, in opcode order (01 R24). -/
def rowsScl : List OpRow :=
  [⟨.both, .fmtA, 0x1, 0xFFFFFFFF⟩,
   ⟨.both, .fmtI, 0x0, 0x0⟩,
   ⟨.both, .fmtA, 0x1, 0xFFFFFFFF⟩,
   ⟨.both, .fmtA, 0x1, 0xFFFFFFFF⟩,
   ⟨.both, .fmtA, 0x1, 0xFFFFFFFF⟩,
   ⟨.both, .fmtA, 0x1, 0xFFFFFFFF⟩,
   ⟨.both, .fmtA, 0x1, 0xFFFFFFFF⟩,
   ⟨.both, .fmtA, 0x1, 0xFFFFFFFF⟩,
   ⟨.both, .fmtA, 0x1, 0xFFFFFFFF⟩,
   ⟨.both, .fmtA, 0x1, 0xFFFFFFFF⟩,
   ⟨.both, .fmtA, 0x1, 0xFFFFFFFF⟩,
   ⟨.both, .fmtA, 0x1, 0xFFFFFFFF⟩,
   ⟨.both, .fmtA, 0x1, 0xFFFFFFFF⟩,
   ⟨.both, .fmtI, 0x0, 0x0⟩,
   ⟨.both, .fmtI, 0x0, 0x0⟩,
   ⟨.both, .fmtI, 0x0, 0x0⟩] ++
  [⟨.both, .fmtA, 0x1, 0xFFFFFFFF⟩,
   ⟨.both, .fmtA, 0x1, 0xFFFFFFFF⟩,
   ⟨.both, .fmtA, 0x1, 0xFFFFFFFF⟩,
   ⟨.both, .fmtA, 0x1, 0xFFFFFFFF⟩,
   ⟨.both, .fmtA, 0x1, 0xFFFFFFFF⟩,
   ⟨.both, .fmtA, 0x1, 0xFFFFFFFF⟩,
   ⟨.both, .fmtA, 0x1, 0xFFFFFFFF⟩,
   ⟨.both, .fmtA, 0x1, 0xFFFFFFFF⟩,
   ⟨.both, .fmtA, 0x7F, 0xFFFFFFFF⟩,
   ⟨.both, .fmtA, 0x7F, 0xFFFFFFFF⟩,
   ⟨.both, .fmtA, 0x0, 0xFFFFFFFF⟩,
   ⟨.both, .fmtA, 0x1, 0xFFFFFFFF⟩,
   ⟨.both, .fmtA, 0x1, 0xFFFFFFFF⟩,
   ⟨.both, .fmtA, 0x7F, 0xFFFFFFFF⟩,
   ⟨.both, .fmtI, 0x1F80, 0x0⟩,
   ⟨.both, .fmtI, 0x0, 0x0⟩] ++
  [⟨.both, .fmtA, 0x0, 0xFFFFFFFF⟩,
   ⟨.both, .fmtA, 0x7F, 0xFFFFFFFF⟩,
   ⟨.both, .fmtA, 0x7F, 0xFFFFFFFF⟩,
   ⟨.both, .fmtA, 0x7F, 0xFFFFFFFF⟩,
   ⟨.both, .fmtA, 0x1, 0xFFFFFFFF⟩,
   ⟨.both, .fmtA, 0x1, 0xFFFFFFFF⟩,
   ⟨.both, .fmtA, 0x1, 0xFFFFFFFF⟩,
   ⟨.both, .fmtA, 0x7F, 0xFFFFFFFF⟩,
   ⟨.both, .fmtA, 0x1, 0xFFFFFFFF⟩,
   ⟨.both, .fmtA, 0x1, 0xFFFFFFFF⟩,
   ⟨.both, .fmtA, 0x1, 0xFFFFFFFF⟩,
   ⟨.both, .fmtA, 0x1, 0xFFFFFFFF⟩,
   ⟨.both, .fmtA, 0x1, 0xFFFFFFFF⟩,
   ⟨.both, .fmtI, 0x0, 0x0⟩,
   ⟨.both, .fmtA, 0x1FFF, 0xFFFFFFFF⟩,
   ⟨.rasterOnly, .fmtI, 0x1F80, 0x0⟩]

/-- Class 2, lane, in opcode order (01 R24). -/
def rowsLan : List OpRow :=
  [⟨.rasterOnly, .fmtA, 0x0, 0xFFFFFFF⟩,
   ⟨.rasterOnly, .fmtI, 0x0, 0xE000000⟩,
   ⟨.rasterOnly, .fmtA, 0x0, 0xFFFFFFF⟩,
   ⟨.rasterOnly, .fmtA, 0x1, 0xFFFFFFF⟩,
   ⟨.rasterOnly, .fmtA, 0x1, 0xFFFFFFF⟩,
   ⟨.rasterOnly, .fmtA, 0x1, 0xFFFFFFF⟩,
   ⟨.rasterOnly, .fmtA, 0x1, 0xFFFFFFF⟩,
   ⟨.rasterOnly, .fmtA, 0x1, 0xFFFFFFF⟩,
   ⟨.rasterOnly, .fmtA, 0x1, 0xFFFFFFF⟩,
   ⟨.rasterOnly, .fmtA, 0x1, 0xFFFFFFF⟩,
   ⟨.rasterOnly, .fmtA, 0x1, 0xFFFFFFF⟩,
   ⟨.rasterOnly, .fmtA, 0x1, 0xFFFFFFF⟩,
   ⟨.rasterOnly, .fmtA, 0x1, 0xFFFFFFF⟩,
   ⟨.rasterOnly, .fmtA, 0x1, 0xFFFFFFF⟩,
   ⟨.rasterOnly, .fmtA, 0x1, 0xFFFFFFF⟩,
   ⟨.rasterOnly, .fmtA, 0x1, 0xFFFFFFF⟩] ++
  [⟨.rasterOnly, .fmtA, 0x1, 0xFFFFFFF⟩,
   ⟨.rasterOnly, .fmtA, 0x1, 0xFFFFFFF⟩,
   ⟨.rasterOnly, .fmtA, 0x1, 0xFFFFFFF⟩,
   ⟨.rasterOnly, .fmtA, 0x1, 0xFFFFFFF⟩,
   ⟨.rasterOnly, .fmtA, 0x7F, 0xFFFFFFF⟩,
   ⟨.rasterOnly, .fmtA, 0x7F, 0xFFFFFFF⟩,
   ⟨.rasterOnly, .fmtA, 0x1, 0xFFFFFFF⟩,
   ⟨.rasterOnly, .fmtA, 0x1, 0xFFFFFFF⟩,
   ⟨.rasterOnly, .fmtA, 0x7F, 0xFFFFFFF⟩,
   ⟨.rasterOnly, .fmtI, 0x1F80, 0xE000000⟩,
   ⟨.rasterOnly, .fmtA, 0x0, 0xFFFFFFF⟩,
   ⟨.rasterOnly, .fmtA, 0x0, 0xFFFFFFF⟩,
   ⟨.rasterOnly, .fmtA, 0x1, 0xFFFFFFF⟩,
   ⟨.rasterOnly, .fmtA, 0x1, 0xFFFFFFF⟩,
   ⟨.rasterOnly, .fmtA, 0x1, 0xFFFFFFF⟩,
   ⟨.rasterOnly, .fmtA, 0x0, 0xFFFFFFF⟩] ++
  [⟨.rasterOnly, .fmtA, 0x0, 0xFFFFFFF⟩,
   ⟨.rasterOnly, .fmtA, 0x1, 0xFFFFFFF⟩,
   ⟨.rasterOnly, .fmtA, 0x71, 0xFFFFFFF⟩,
   ⟨.rasterOnly, .fmtA, 0x7F, 0xFFFFFFF⟩,
   ⟨.rasterOnly, .fmtA, 0x7F, 0xFFFFFFF⟩,
   ⟨.rasterOnly, .fmtA, 0x7F, 0xFFFFFFF⟩,
   ⟨.rasterOnly, .fmtA, 0x7F, 0xFFFFFFF⟩,
   ⟨.rasterOnly, .fmtA, 0x7F, 0xFFFFFFF⟩,
   ⟨.rasterOnly, .fmtA, 0x7F, 0xFFFFFFF⟩,
   ⟨.rasterOnly, .fmtA, 0x7F, 0xFFFFFFF⟩,
   ⟨.rasterOnly, .fmtA, 0x1, 0xFFFFFFF⟩,
   ⟨.rasterOnly, .fmtA, 0x1, 0xFFFFFFF⟩,
   ⟨.rasterOnly, .fmtA, 0x1, 0xFFFFFFF⟩,
   ⟨.rasterOnly, .fmtA, 0x1, 0xFFFFFFF⟩,
   ⟨.rasterOnly, .fmtA, 0x1, 0xFFFFFFF⟩,
   ⟨.rasterOnly, .fmtA, 0x1, 0xFFFFFFF⟩] ++
  [⟨.rasterOnly, .fmtA, 0x7F, 0xFFFFFFF⟩,
   ⟨.rasterOnly, .fmtA, 0x7F, 0xFFFFFFF⟩,
   ⟨.rasterOnly, .fmtA, 0x71, 0xFFFFFFF⟩,
   ⟨.rasterOnly, .fmtA, 0x71, 0xFFFFFFF⟩,
   ⟨.rasterOnly, .fmtA, 0x7E, 0xFFFFFFF⟩,
   ⟨.rasterOnly, .fmtA, 0x1, 0xFFFFFFF⟩,
   ⟨.rasterOnly, .fmtA, 0x7E, 0xFFFFFFF⟩,
   ⟨.rasterOnly, .fmtA, 0x1, 0xFFFFFFF⟩,
   ⟨.rasterOnly, .fmtA, 0x79, 0xFFFFFFF⟩,
   ⟨.rasterOnly, .fmtA, 0x79, 0xFFFFFFF⟩,
   ⟨.rasterOnly, .fmtA, 0x79, 0xFFFFFFF⟩,
   ⟨.rasterOnly, .fmtA, 0x79, 0xFFFFFFF⟩,
   ⟨.rasterOnly, .fmtA, 0x1, 0xFFFFFFF⟩,
   ⟨.rasterOnly, .fmtA, 0x1, 0xFFFFFFF⟩,
   ⟨.rasterOnly, .fmtA, 0x7E, 0xFFFFFFF⟩,
   ⟨.rasterOnly, .fmtA, 0x0, 0xFFFFFFF⟩]

/-- Class 3, vector, in opcode order (01 R24). -/
def rowsVec : List OpRow :=
  [⟨.tileOnly, .fmtV, 0x0, 0xFFFFFFFF⟩,
   ⟨.tileOnly, .fmtV, 0x0, 0xFFFFFFFF⟩,
   ⟨.tileOnly, .fmtV, 0x0, 0xFFFFFFFF⟩,
   ⟨.tileOnly, .fmtV, 0x0, 0xFFFFFFFF⟩,
   ⟨.tileOnly, .fmtV, 0x0, 0xFFFFFFFF⟩,
   ⟨.tileOnly, .fmtV, 0x0, 0xFFFFFFFF⟩,
   ⟨.tileOnly, .fmtV, 0x1F0, 0xFFFFFFFF⟩,
   ⟨.tileOnly, .fmtV, 0x1F0, 0xFFFFFFFF⟩,
   ⟨.tileOnly, .fmtV, 0x1, 0xFFFFFFFF⟩,
   ⟨.tileOnly, .fmtV, 0x0, 0xFFFFFFFF⟩,
   ⟨.tileOnly, .fmtV, 0x0, 0xFFFFFFFF⟩,
   ⟨.tileOnly, .fmtV, 0x0, 0xFFFFFFFF⟩,
   ⟨.tileOnly, .fmtV, 0x0, 0xFFFFFFFF⟩,
   ⟨.tileOnly, .fmtV, 0x0, 0xFFFFFFFF⟩,
   ⟨.tileOnly, .fmtV, 0x0, 0xFFFFFFFF⟩,
   ⟨.tileOnly, .fmtV, 0x0, 0xFFFFFFFF⟩] ++
  [⟨.tileOnly, .fmtV, 0x1F0, 0xFFFFFFFF⟩,
   ⟨.tileOnly, .fmtV, 0x0, 0xFFFFFFFF⟩,
   ⟨.tileOnly, .fmtV, 0x1F0, 0xFFFFFFFF⟩,
   ⟨.tileOnly, .fmtV, 0x1F0, 0xFFFFFFFF⟩,
   ⟨.tileOnly, .fmtV, 0x1F0, 0xFFFFFFFF⟩,
   ⟨.tileOnly, .fmtV, 0x1F0, 0xFFFFFFFF⟩,
   ⟨.tileOnly, .fmtV, 0x0, 0xFFFFFFFF⟩,
   ⟨.tileOnly, .fmtV, 0x7C18F, 0xFFFFFFFF⟩,
   ⟨.tileOnly, .fmtV, 0x1F1, 0xFFFFFFFF⟩,
   ⟨.tileOnly, .fmtV, 0x1F1, 0xFFFFFFFF⟩,
   ⟨.tileOnly, .fmtV, 0x1F1, 0xFFFFFFFF⟩,
   ⟨.tileOnly, .fmtV, 0x0, 0xFFFFFFFF⟩,
   ⟨.tileOnly, .fmtV, 0x0, 0xFFFFFFFF⟩,
   ⟨.tileOnly, .fmtV, 0x0, 0xFFFFFFFF⟩,
   ⟨.tileOnly, .fmtV, 0x0, 0xFFFFFFFF⟩,
   ⟨.tileOnly, .fmtV, 0x0, 0xFFFFFFFF⟩] ++
  [⟨.tileOnly, .fmtV, 0x39FF, 0xFFFFFFFF⟩,
   ⟨.tileOnly, .fmtV, 0x1FF, 0xFFFFFFFF⟩,
   ⟨.tileOnly, .fmtV, 0x639FF, 0xFFFFFFFF⟩,
   ⟨.tileOnly, .fmtV, 0x1F1, 0xFFFFFFFF⟩,
   ⟨.tileOnly, .fmtV, 0x0, 0xFFFFFFFF⟩,
   ⟨.tileOnly, .fmtV, 0x0, 0xFFFFFFFF⟩,
   ⟨.tileOnly, .fmtV, 0x0, 0xFFFFFFFF⟩,
   ⟨.tileOnly, .fmtV, 0x0, 0xFFFFFFFF⟩,
   ⟨.tileOnly, .fmtV, 0x1F0, 0xFFFFFFFF⟩,
   ⟨.tileOnly, .fmtV, 0x0, 0xFFFFFFFF⟩,
   ⟨.tileOnly, .fmtV, 0x0, 0xFFFFFFFF⟩,
   ⟨.tileOnly, .fmtV, 0x1F0, 0xFFFFFFFF⟩,
   ⟨.tileOnly, .fmtV, 0x0, 0xFFFFFFFF⟩,
   ⟨.tileOnly, .fmtV, 0x1F0, 0xFFFFFFFF⟩,
   ⟨.tileOnly, .fmtV, 0x7C1FF, 0xFFFFFFFF⟩,
   ⟨.tileOnly, .fmtV, 0x318F, 0xFFFFFFFF⟩]

/-- Class 4, matrix, in opcode order (01 R24). -/
def rowsMat : List OpRow :=
  [⟨.tileOnly, .fmtM, 0x7FFEF, 0x3E000⟩,
   ⟨.tileOnly, .fmtM, 0x3EF, 0x3F000⟩,
   ⟨.tileOnly, .fmtM, 0x3EF, 0x3F000⟩,
   ⟨.tileOnly, .fmtM, 0x3EF, 0x3F000⟩,
   ⟨.tileOnly, .fmtM, 0x3EF, 0x3F000⟩,
   ⟨.tileOnly, .fmtM, 0x3EF, 0x3C000⟩,
   ⟨.tileOnly, .fmtM, 0x3EF, 0x3E000⟩,
   ⟨.tileOnly, .fmtM, 0x3EF, 0x3E000⟩,
   ⟨.tileOnly, .fmtM, 0x3E1, 0x3F000⟩,
   ⟨.tileOnly, .fmtM, 0x3E1, 0x3F000⟩,
   ⟨.tileOnly, .fmtM, 0x3EF, 0x3E000⟩,
   ⟨.tileOnly, .fmtM, 0x3EF, 0x3C000⟩,
   ⟨.tileOnly, .fmtM, 0xF, 0x0⟩,
   ⟨.tileOnly, .fmtM, 0xF, 0x0⟩,
   ⟨.tileOnly, .fmtM, 0xF, 0x30000⟩,
   ⟨.tileOnly, .fmtM, 0xF, 0xFFFFE000⟩] ++
  [⟨.tileOnly, .fmtM, 0x3EF, 0x7FF000⟩,
   ⟨.tileOnly, .fmtM, 0xF, 0x7C0000⟩,
   ⟨.tileOnly, .fmtM, 0x1F, 0xFFFFF000⟩,
   ⟨.tileOnly, .fmtM, 0x7FFFF, 0xFFFFF000⟩,
   ⟨.tileOnly, .fmtM, 0x7FFEF, 0x3E000⟩,
   ⟨.tileOnly, .fmtM, 0x1F, 0x3C000⟩,
   ⟨.tileOnly, .fmtM, 0x7FFFF, 0xFFFFE000⟩,
   ⟨.tileOnly, .fmtM, 0x7FFFF, 0xFFFFF000⟩]

/-- Class 5, memory, in opcode order (01 R24). -/
def rowsMem : List OpRow :=
  [⟨.rasterOnly, .fmtD, 0x0, 0xE000000⟩,
   ⟨.rasterOnly, .fmtD, 0x0, 0xE000000⟩,
   ⟨.rasterOnly, .fmtD, 0x0, 0xE000000⟩,
   ⟨.rasterOnly, .fmtD, 0x0, 0xE000000⟩,
   ⟨.rasterOnly, .fmtD, 0x0, 0xE000000⟩,
   ⟨.rasterOnly, .fmtD, 0x0, 0xE000000⟩,
   ⟨.rasterOnly, .fmtD, 0x0, 0xE000000⟩,
   ⟨.rasterOnly, .fmtD, 0x0, 0xE000000⟩,
   ⟨.rasterOnly, .fmtD, 0x0, 0xE000000⟩,
   ⟨.rasterOnly, .fmtD, 0x0, 0xE000000⟩,
   ⟨.rasterOnly, .fmtD, 0x0, 0xE000000⟩,
   ⟨.rasterOnly, .fmtD, 0x0, 0xE000000⟩,
   ⟨.rasterOnly, .fmtD, 0x0, 0xE000000⟩,
   ⟨.both, .fmtD, 0x0, 0xE000000⟩,
   ⟨.both, .fmtD, 0x0, 0xE000000⟩,
   ⟨.rasterOnly, .fmtT, 0x0, 0xE000000⟩] ++
  [⟨.rasterOnly, .fmtT, 0x0, 0xE000000⟩,
   ⟨.rasterOnly, .fmtT, 0x0, 0xE000000⟩,
   ⟨.rasterOnly, .fmtT, 0x0, 0xE000000⟩,
   ⟨.rasterOnly, .fmtT, 0x0, 0xE000000⟩,
   ⟨.rasterOnly, .fmtT, 0x0, 0xE000000⟩,
   ⟨.rasterOnly, .fmtT, 0x0, 0xE000000⟩,
   ⟨.rasterOnly, .fmtT, 0x0, 0xE000000⟩,
   ⟨.rasterOnly, .fmtT, 0x0, 0xE000000⟩,
   ⟨.both, .fmtT, 0x0, 0xE000000⟩,
   ⟨.both, .fmtT, 0x0, 0xE000000⟩,
   ⟨.both, .fmtA, 0x7E000, 0xFFFFFFF⟩,
   ⟨.tileOnly, .fmtD, 0x0, 0xE000000⟩,
   ⟨.tileOnly, .fmtD, 0x0, 0xE000000⟩,
   ⟨.both, .fmtD, 0x0, 0xE000000⟩,
   ⟨.both, .fmtD, 0x0, 0xE000000⟩,
   ⟨.rasterOnly, .fmtA, 0x7E000, 0xFFFFFFF⟩] ++
  [⟨.rasterOnly, .fmtA, 0x7E000, 0xFFFFFFF⟩,
   ⟨.both, .fmtA, 0x7E000, 0xFFFFFFF⟩,
   ⟨.rasterOnly, .fmtA, 0x7FFFF, 0xFFFFFFF⟩,
   ⟨.rasterOnly, .fmtD, 0x7E000, 0xE000000⟩,
   ⟨.rasterOnly, .fmtD, 0x0, 0xE000000⟩,
   ⟨.both, .fmtD, 0x0, 0xE000000⟩,
   ⟨.both, .fmtD, 0x0, 0xE000000⟩,
   ⟨.rasterOnly, .fmtT, 0x0, 0xE000000⟩]

/-- Class 6, copy, in opcode order (01 R24). -/
def rowsCpy : List OpRow :=
  [⟨.both, .fmtY, 0x0, 0x1FFF000⟩,
   ⟨.both, .fmtY, 0x0, 0x1FF8000⟩,
   ⟨.both, .fmtY, 0x0, 0x1FFF000⟩,
   ⟨.rasterOnly, .fmtY, 0x1, 0x1FFF000⟩,
   ⟨.tileOnly, .fmtY, 0x1F81, 0x1FFF000⟩,
   ⟨.tileOnly, .fmtY, 0x7FFFF, 0x1FF0000⟩,
   ⟨.tileOnly, .fmtY, 0x0, 0x0⟩,
   ⟨.tileOnly, .fmtY, 0x1, 0x0⟩,
   ⟨.both, .fmtY, 0x1FFF, 0x1FFF000⟩,
   ⟨.both, .fmtY, 0x7F, 0x1FFF000⟩,
   ⟨.both, .fmtY, 0x7E, 0x1FFF000⟩,
   ⟨.both, .fmtY, 0x7E, 0x1FFF000⟩,
   ⟨.both, .fmtY, 0x0, 0x1FFF000⟩,
   ⟨.both, .fmtY, 0x7E, 0x1FFF000⟩,
   ⟨.both, .fmtY, 0x1F80, 0x1FFF000⟩,
   ⟨.tileOnly, .fmtY, 0x0, 0x1FFC000⟩] ++
  [⟨.both, .fmtY, 0x1FFF, 0x1FF8000⟩,
   ⟨.both, .fmtY, 0x7FFFF, 0x1FFF000⟩,
   ⟨.tileOnly, .fmtY, 0x7F, 0x1FF0000⟩,
   ⟨.tileOnly, .fmtY, 0x7FFFF, 0x1FF0000⟩,
   ⟨.both, .fmtY, 0x1, 0x1F80000⟩,
   ⟨.both, .fmtY, 0x1, 0x1F00000⟩,
   ⟨.both, .fmtY, 0x1, 0x1F00000⟩,
   ⟨.rasterOnly, .fmtY, 0x1, 0x1FFF000⟩,
   ⟨.both, .fmtY, 0x1, 0x1FFF000⟩,
   ⟨.both, .fmtY, 0x1, 0x1FFF000⟩,
   ⟨.both, .fmtY, 0x7FFFF, 0x1FFF000⟩,
   ⟨.both, .fmtY, 0x0, 0x1FFF000⟩]

/-- Class 7, graphics and ray, in opcode order (01 R24). -/
def rowsGfx : List OpRow :=
  [⟨.rasterOnly, .fmtA, 0x1, 0xFFFFFFF⟩,
   ⟨.rasterOnly, .fmtA, 0x7F, 0xFFFFFFF⟩,
   ⟨.rasterOnly, .fmtA, 0x7E001, 0xFFFFFFF⟩,
   ⟨.rasterOnly, .fmtI, 0x7E000, 0xE000000⟩,
   ⟨.rasterOnly, .fmtI, 0x1F80, 0xE000000⟩,
   ⟨.rasterOnly, .fmtA, 0x1F80, 0xFFFFFFF⟩,
   ⟨.rasterOnly, .fmtA, 0x7FFFF, 0xFFFFFFF⟩,
   ⟨.rasterOnly, .fmtI, 0x7E000, 0xE000000⟩,
   ⟨.rasterOnly, .fmtA, 0x7E07F, 0xFFFFFFF⟩,
   ⟨.rasterOnly, .fmtA, 0x7E07F, 0xFFFFFFF⟩,
   ⟨.rasterOnly, .fmtA, 0x1, 0xFFFFFFF⟩,
   ⟨.rasterOnly, .fmtA, 0x1, 0xFFFFFFF⟩,
   ⟨.rasterOnly, .fmtA, 0x1, 0xFFFFFFF⟩,
   ⟨.rasterOnly, .fmtA, 0x1, 0xFFFFFFF⟩,
   ⟨.rasterOnly, .fmtA, 0x1, 0xFFFFFFF⟩,
   ⟨.rasterOnly, .fmtI, 0x0, 0xE000000⟩] ++
  [⟨.rasterOnly, .fmtA, 0x1, 0xFFFFFFF⟩,
   ⟨.rasterOnly, .fmtA, 0x1, 0xFFFFFFF⟩,
   ⟨.rasterOnly, .fmtA, 0x7F, 0xFFFFFFF⟩,
   ⟨.rasterOnly, .fmtA, 0x0, 0xFFFFFFF⟩,
   ⟨.rasterOnly, .fmtA, 0x7F, 0xFFFFFFF⟩,
   ⟨.rasterOnly, .fmtA, 0x7F, 0xFFFFFFF⟩,
   ⟨.rasterOnly, .fmtA, 0x7F, 0xFFFFFFF⟩,
   ⟨.rasterOnly, .fmtD, 0x0, 0xE000000⟩,
   ⟨.rasterOnly, .fmtD, 0x0, 0xE000000⟩,
   ⟨.rasterOnly, .fmtI, 0x0, 0xE000000⟩,
   ⟨.rasterOnly, .fmtI, 0x0, 0xE000000⟩]

/-- The opcode map by class (01 R13, R24). -/
def opRow (c : BitVec 3) (op : BitVec 7) : Option OpRow :=
  (match c.toNat with
   | 0 => rowsCtl | 1 => rowsScl | 2 => rowsLan | 3 => rowsVec
   | 4 => rowsMat | 5 => rowsMem | 6 => rowsCpy | _ => rowsGfx)[op.toNat]?

/-- Presence on a profile (01 R24). -/
def Presence.on (x : Presence) (p : Profile) : Bool :=
  match x, p with
  | .both, _ => true
  | .rasterOnly, .raster => true
  | .tileOnly, .tile => true
  | _, _ => false

/-- Whether a class takes the guarded extension (01 R15). -/
def classGuarded (c : BitVec 3) : Bool := c == 2 || c == 5 || c == 7

/-- R14: MAT and CPY opcodes are always long; Formats I, B and C and the classes LAN, GFX and MEM have a long form; nothing
else has one. -/
def lengthOk (c : BitVec 3) (f : Format) (long : Bool) : Bool :=
  if c == 4 || c == 6 then long
  else !long || classGuarded c || f == .fmtI || f == .fmtB || f == .fmtC

/-! ### Fields of the words (01 R11, R16) -/

def wordStop (w : Word) : Bool := w.getLsbD 31
def wordRunEnd (w : Word) : Bool := w.getLsbD 30
def wordClass (w : Word) : BitVec 3 := w.extractLsb' 27 3
def wordLong (w : Word) : Bool := w.getLsbD 26
def wordOp (w : Word) : BitVec 7 := w.extractLsb' 19 7
def wordOperands (w : Word) : BitVec 19 := w.extractLsb' 0 19

/-- The guard of a guarded extension; the short form is unguarded (01 R15). -/
def guardOf (long : Bool) (x : Word) : Guard :=
  if long then ⟨x.extractLsb' 29 3, x.getLsbD 28⟩ else ⟨0, false⟩

/-- The immediate of Format I under a plain extension (01 R15; 03 R57: imm7 is sign-extended). -/
def immPlain (long : Bool) (w x : Word) : BitVec 32 :=
  if long then x else (w.extractLsb' 0 7).signExtend 32

/-- The immediate of Format I under a guarded extension, hi:imm7 (01 R16, 04 R95). Without an extension imm7 is sign-extended in class
GFX too, as 03 R57 and 04 R95 have it for SCL and LAN (DEDUCED, log 129). -/
def immGuarded (long : Bool) (w x : Word) : BitVec 32 :=
  if long then x.extractLsb' 0 25 ++ w.extractLsb' 0 7 else (w.extractLsb' 0 7).signExtend 32

/-- The word offset of Format B (01 R16). -/
def offB (long : Bool) (w x : Word) : BitVec 32 :=
  if long then x else (w.extractLsb' 0 19).signExtend 32

/-- The word offset of Format C (01 R16). -/
def offC (long : Bool) (w x : Word) : BitVec 32 :=
  if long then x else (w.extractLsb' 0 11).signExtend 32

/-- The 31-bit byte offset of Format D (01 R16). -/
def offD (long : Bool) (w x : Word) : BitVec 31 :=
  if long then x.extractLsb' 0 25 ++ w.extractLsb' 0 6 else (w.extractLsb' 0 6).signExtend 31

/-- The scope of Format T: die in the short form (01 R16). -/
def scopeOf (long : Bool) (x : Word) : BitVec 3 := if long then x.extractLsb' 22 3 else 4
/-- The order of Format T: relaxed in the short form (01 R16). -/
def orderOf (long : Bool) (x : Word) : BitVec 2 := if long then x.extractLsb' 20 2 else 0
/-- The unsigned bit of Format T (01 R16). -/
def unOf (long : Bool) (x : Word) : Bool := if long then x.getLsbD 19 else false
/-- The byte offset of Format T, 0 in the short form (01 R16). -/
def offT (long : Bool) (x : Word) : BitVec 19 := if long then x.extractLsb' 0 19 else 0

/-- The tail of a matrix instruction (01 R16). -/
def matTailOf (x : Word) : MatTail := ⟨x.getLsbD 11, x.extractLsb' 8 3, x.extractLsb' 0 8⟩
/-- The tail of a copy instruction (01 R16). -/
def copyTailOf (x : Word) : CopyTail :=
  ⟨x.extractLsb' 26 6, x.getLsbD 25, x.getLsbD 11, x.extractLsb' 8 3, x.extractLsb' 0 8⟩

/-! ### Building an instruction from its words, class by class -/

/-- The instruction of class 0 an opcode names, with its operands read from the words. -/
def buildCtl (op : Nat) (l : Bool) (w x : Word) : Option Instr :=
  match op with
  | 0 => some (.nop)
  | 1 => some (.bra (offB l w x))
  | 2 => some (.brac (w.getLsbD 18) (w.extractLsb' 12 6) (w.getLsbD 11) (offC l w x))
  | 3 => some (.brx (w.extractLsb' 7 6) (w.getLsbD 0))
  | 4 => some (.call (offB l w x))
  | 5 => some (.ret (w.extractLsb' 7 6))
  | 6 => some (.loop (w.extractLsb' 7 6) (immPlain l w x))
  | 7 => some (.loopi (w.extractLsb' 7 12) (immPlain l w x))
  | 8 => some (.voteAny (w.extractLsb' 13 6) (w.extractLsb' 7 3) (w.getLsbD 0))
  | 9 => some (.voteAll (w.extractLsb' 13 6) (w.extractLsb' 7 3))
  | 10 => some (.barCrew (immPlain l w x))
  | 11 => some (.barGrove (immPlain l w x))
  | 12 => some (.barArrive (w.extractLsb' 13 6) (w.extractLsb' 7 6) (immPlain l w x))
  | 13 => some (.barWait (w.extractLsb' 13 6) (w.extractLsb' 7 6) (immPlain l w x))
  | 14 => some (.wait (immPlain l w x))
  | 15 => some (.waitt (w.extractLsb' 7 6) (w.getLsbD 0))
  | 16 => some (.fence (immPlain l w x))
  | 17 => some (.fencePromote (immPlain l w x))
  | 18 => some (.fenceI)
  | 19 => some (.trap (immPlain l w x))
  | 20 => some (.chk (w.extractLsb' 13 6) (w.extractLsb' 7 6))
  | 21 => some (.region (offB l w x))
  | 22 => some (.exit)
  | 23 => some (.yield)
  | 24 => some (.lease (w.extractLsb' 13 6) (w.extractLsb' 7 6) (immPlain l w x))
  | 25 => some (.split (w.extractLsb' 13 6) (immPlain l w x))
  | 26 => some (.launch (w.extractLsb' 13 6) (w.extractLsb' 7 6))
  | 27 => some (.reca (w.extractLsb' 13 6) (w.extractLsb' 7 6))
  | 28 => some (.remit (w.extractLsb' 7 6))
  | 29 => some (.rdone (w.extractLsb' 7 6))
  | 30 => some (.millCfg (w.extractLsb' 13 6) (w.extractLsb' 7 6))
  | 31 => some (.millEnter)
  | 32 => some (.millExit (w.extractLsb' 13 6))
  | 33 => some (.fsend (w.extractLsb' 13 4) (w.extractLsb' 7 6))
  | 34 => some (.fsendNb (w.extractLsb' 13 4) (w.extractLsb' 7 6) (w.extractLsb' 1 3))
  | 35 => some (.ftake (w.extractLsb' 13 6) (w.extractLsb' 7 4))
  | 36 => some (.sread (w.extractLsb' 7 12) (w.extractLsb' 1 6))
  | 37 => some (.swrite (w.extractLsb' 7 12) (w.extractLsb' 1 6))
  | 38 => some (.govq (w.extractLsb' 13 6) (w.extractLsb' 7 6))
  | 39 => some (.govr (w.extractLsb' 7 6) (w.getLsbD 0))
  | 40 => some (.bkpt (immPlain l w x))
  | _ => none

/-- The instruction of class 1 an opcode names, with its operands read from the words. -/
def buildScl (op : Nat) (l : Bool) (w x : Word) : Option Instr :=
  match op with
  | 0 => some (.add (w.extractLsb' 13 6) (w.extractLsb' 7 6) (w.extractLsb' 1 6))
  | 1 => some (.addi (w.extractLsb' 13 6) (w.extractLsb' 7 6) (immPlain l w x))
  | 2 => some (.sub (w.extractLsb' 13 6) (w.extractLsb' 7 6) (w.extractLsb' 1 6))
  | 3 => some (.mul (w.extractLsb' 13 6) (w.extractLsb' 7 6) (w.extractLsb' 1 6))
  | 4 => some (.mulhI (w.extractLsb' 13 6) (w.extractLsb' 7 6) (w.extractLsb' 1 6))
  | 5 => some (.mulhN (w.extractLsb' 13 6) (w.extractLsb' 7 6) (w.extractLsb' 1 6))
  | 6 => some (.divI (w.extractLsb' 13 6) (w.extractLsb' 7 6) (w.extractLsb' 1 6))
  | 7 => some (.divN (w.extractLsb' 13 6) (w.extractLsb' 7 6) (w.extractLsb' 1 6))
  | 8 => some (.remI (w.extractLsb' 13 6) (w.extractLsb' 7 6) (w.extractLsb' 1 6))
  | 9 => some (.remN (w.extractLsb' 13 6) (w.extractLsb' 7 6) (w.extractLsb' 1 6))
  | 10 => some (.and (w.extractLsb' 13 6) (w.extractLsb' 7 6) (w.extractLsb' 1 6))
  | 11 => some (.or (w.extractLsb' 13 6) (w.extractLsb' 7 6) (w.extractLsb' 1 6))
  | 12 => some (.xor (w.extractLsb' 13 6) (w.extractLsb' 7 6) (w.extractLsb' 1 6))
  | 13 => some (.andi (w.extractLsb' 13 6) (w.extractLsb' 7 6) (immPlain l w x))
  | 14 => some (.ori (w.extractLsb' 13 6) (w.extractLsb' 7 6) (immPlain l w x))
  | 15 => some (.xori (w.extractLsb' 13 6) (w.extractLsb' 7 6) (immPlain l w x))
  | 16 => some (.shl (w.extractLsb' 13 6) (w.extractLsb' 7 6) (w.extractLsb' 1 6))
  | 17 => some (.shrI (w.extractLsb' 13 6) (w.extractLsb' 7 6) (w.extractLsb' 1 6))
  | 18 => some (.shrN (w.extractLsb' 13 6) (w.extractLsb' 7 6) (w.extractLsb' 1 6))
  | 19 => some (.rot (w.extractLsb' 13 6) (w.extractLsb' 7 6) (w.extractLsb' 1 6))
  | 20 => some (.minI (w.extractLsb' 13 6) (w.extractLsb' 7 6) (w.extractLsb' 1 6))
  | 21 => some (.minN (w.extractLsb' 13 6) (w.extractLsb' 7 6) (w.extractLsb' 1 6))
  | 22 => some (.maxI (w.extractLsb' 13 6) (w.extractLsb' 7 6) (w.extractLsb' 1 6))
  | 23 => some (.maxN (w.extractLsb' 13 6) (w.extractLsb' 7 6) (w.extractLsb' 1 6))
  | 24 => some (.abs (w.extractLsb' 13 6) (w.extractLsb' 7 6))
  | 25 => some (.neg (w.extractLsb' 13 6) (w.extractLsb' 7 6))
  | 26 => some (.cmp (w.extractLsb' 13 6) (w.extractLsb' 7 6) (w.extractLsb' 1 6) (w.getLsbD 0))
  | 27 => some (.cmpp (w.extractLsb' 16 3) (w.extractLsb' 13 3) (w.extractLsb' 7 6) (w.extractLsb' 1 6))
  | 28 => some (.sel (w.extractLsb' 13 6) (w.extractLsb' 7 6) (w.extractLsb' 1 6))
  | 29 => some (.mov (w.extractLsb' 13 6) (w.extractLsb' 7 6))
  | 30 => some (.movi (w.extractLsb' 13 6) (immPlain l w x))
  | 31 => some (.movh (w.extractLsb' 13 6) (w.extractLsb' 7 6) (immPlain l w x))
  | 32 => some (.lea (w.extractLsb' 13 6) (w.extractLsb' 7 6) (w.extractLsb' 1 6) (w.getLsbD 0))
  | 33 => some (.popc (w.extractLsb' 13 6) (w.extractLsb' 7 6))
  | 34 => some (.clz (w.extractLsb' 13 6) (w.extractLsb' 7 6))
  | 35 => some (.ctz (w.extractLsb' 13 6) (w.extractLsb' 7 6))
  | 36 => some (.bfxI (w.extractLsb' 13 6) (w.extractLsb' 7 6) (w.extractLsb' 1 6))
  | 37 => some (.bfxN (w.extractLsb' 13 6) (w.extractLsb' 7 6) (w.extractLsb' 1 6))
  | 38 => some (.bfi (w.extractLsb' 13 6) (w.extractLsb' 7 6) (w.extractLsb' 1 6))
  | 39 => some (.brev (w.extractLsb' 13 6) (w.extractLsb' 7 6))
  | 40 => some (.mad (w.extractLsb' 13 6) (w.extractLsb' 7 6) (w.extractLsb' 1 6))
  | 41 => some (.addsI (w.extractLsb' 13 6) (w.extractLsb' 7 6) (w.extractLsb' 1 6))
  | 42 => some (.addsN (w.extractLsb' 13 6) (w.extractLsb' 7 6) (w.extractLsb' 1 6))
  | 43 => some (.subsI (w.extractLsb' 13 6) (w.extractLsb' 7 6) (w.extractLsb' 1 6))
  | 44 => some (.subsN (w.extractLsb' 13 6) (w.extractLsb' 7 6) (w.extractLsb' 1 6))
  | 45 => some (.mbx (w.extractLsb' 13 6) (w.extractLsb' 7 6) (immPlain l w x))
  | 46 => some (.time (w.extractLsb' 13 6))
  | 47 => some (.wid (w.extractLsb' 13 6) (immPlain l w x))
  | _ => none

/-- The instruction of class 2 an opcode names, with its operands read from the words. -/
def buildLan (op : Nat) (l : Bool) (w x : Word) : Option Instr :=
  match op with
  | 0 => some (.iadd (guardOf l x) (w.extractLsb' 13 6) (w.extractLsb' 7 6) (w.extractLsb' 1 6) (w.getLsbD 0))
  | 1 => some (.iaddi (guardOf l x) (w.extractLsb' 13 6) (w.extractLsb' 7 6) (immGuarded l w x))
  | 2 => some (.isub (guardOf l x) (w.extractLsb' 13 6) (w.extractLsb' 7 6) (w.extractLsb' 1 6) (w.getLsbD 0))
  | 3 => some (.imul (guardOf l x) (w.extractLsb' 13 6) (w.extractLsb' 7 6) (w.extractLsb' 1 6))
  | 4 => some (.imad (guardOf l x) (w.extractLsb' 13 6) (w.extractLsb' 7 6) (w.extractLsb' 1 6))
  | 5 => some (.imulhI (guardOf l x) (w.extractLsb' 13 6) (w.extractLsb' 7 6) (w.extractLsb' 1 6))
  | 6 => some (.imulhN (guardOf l x) (w.extractLsb' 13 6) (w.extractLsb' 7 6) (w.extractLsb' 1 6))
  | 7 => some (.iminI (guardOf l x) (w.extractLsb' 13 6) (w.extractLsb' 7 6) (w.extractLsb' 1 6))
  | 8 => some (.iminN (guardOf l x) (w.extractLsb' 13 6) (w.extractLsb' 7 6) (w.extractLsb' 1 6))
  | 9 => some (.imaxI (guardOf l x) (w.extractLsb' 13 6) (w.extractLsb' 7 6) (w.extractLsb' 1 6))
  | 10 => some (.imaxN (guardOf l x) (w.extractLsb' 13 6) (w.extractLsb' 7 6) (w.extractLsb' 1 6))
  | 11 => some (.iand (guardOf l x) (w.extractLsb' 13 6) (w.extractLsb' 7 6) (w.extractLsb' 1 6))
  | 12 => some (.ior (guardOf l x) (w.extractLsb' 13 6) (w.extractLsb' 7 6) (w.extractLsb' 1 6))
  | 13 => some (.ixor (guardOf l x) (w.extractLsb' 13 6) (w.extractLsb' 7 6) (w.extractLsb' 1 6))
  | 14 => some (.ishl (guardOf l x) (w.extractLsb' 13 6) (w.extractLsb' 7 6) (w.extractLsb' 1 6))
  | 15 => some (.ishrI (guardOf l x) (w.extractLsb' 13 6) (w.extractLsb' 7 6) (w.extractLsb' 1 6))
  | 16 => some (.ishrN (guardOf l x) (w.extractLsb' 13 6) (w.extractLsb' 7 6) (w.extractLsb' 1 6))
  | 17 => some (.ibfxI (guardOf l x) (w.extractLsb' 13 6) (w.extractLsb' 7 6) (w.extractLsb' 1 6))
  | 18 => some (.ibfxN (guardOf l x) (w.extractLsb' 13 6) (w.extractLsb' 7 6) (w.extractLsb' 1 6))
  | 19 => some (.ibfi (guardOf l x) (w.extractLsb' 13 6) (w.extractLsb' 7 6) (w.extractLsb' 1 6))
  | 20 => some (.ipopc (guardOf l x) (w.extractLsb' 13 6) (w.extractLsb' 7 6))
  | 21 => some (.iclz (guardOf l x) (w.extractLsb' 13 6) (w.extractLsb' 7 6))
  | 22 => some (.icmp (guardOf l x) (w.extractLsb' 16 3) (w.extractLsb' 13 3) (w.extractLsb' 7 6) (w.extractLsb' 1 6))
  | 23 => some (.isel (guardOf l x) (w.extractLsb' 13 6) (w.extractLsb' 7 6) (w.extractLsb' 1 6))
  | 24 => some (.imov (guardOf l x) (w.extractLsb' 13 6) (w.extractLsb' 7 6))
  | 25 => some (.imovi (guardOf l x) (w.extractLsb' 13 6) (immGuarded l w x))
  | 26 => some (.idot4I8 (guardOf l x) (w.extractLsb' 13 6) (w.extractLsb' 7 6) (w.extractLsb' 1 6) (w.getLsbD 0))
  | 27 => some (.idot4N8 (guardOf l x) (w.extractLsb' 13 6) (w.extractLsb' 7 6) (w.extractLsb' 1 6) (w.getLsbD 0))
  | 28 => some (.faddF32 (guardOf l x) (w.extractLsb' 13 6) (w.extractLsb' 7 6) (w.extractLsb' 1 6))
  | 29 => some (.fmulF32 (guardOf l x) (w.extractLsb' 13 6) (w.extractLsb' 7 6) (w.extractLsb' 1 6))
  | 30 => some (.ffmaF32 (guardOf l x) (w.extractLsb' 13 6) (w.extractLsb' 7 6) (w.extractLsb' 1 6))
  | 31 => some (.fminF32 (guardOf l x) (w.extractLsb' 13 6) (w.extractLsb' 7 6) (w.extractLsb' 1 6) (w.getLsbD 0))
  | 32 => some (.fmaxF32 (guardOf l x) (w.extractLsb' 13 6) (w.extractLsb' 7 6) (w.extractLsb' 1 6) (w.getLsbD 0))
  | 33 => some (.fcmpF32 (guardOf l x) (w.extractLsb' 16 3) (w.extractLsb' 13 3) (w.extractLsb' 7 6) (w.extractLsb' 1 6))
  | 34 => some (.frndF32 (guardOf l x) (w.extractLsb' 13 6) (w.extractLsb' 7 6) (w.extractLsb' 1 3))
  | 35 => some (.frcp (guardOf l x) (w.extractLsb' 13 6) (w.extractLsb' 7 6))
  | 36 => some (.frsq (guardOf l x) (w.extractLsb' 13 6) (w.extractLsb' 7 6))
  | 37 => some (.fsqrt (guardOf l x) (w.extractLsb' 13 6) (w.extractLsb' 7 6))
  | 38 => some (.fexp2 (guardOf l x) (w.extractLsb' 13 6) (w.extractLsb' 7 6))
  | 39 => some (.flog2 (guardOf l x) (w.extractLsb' 13 6) (w.extractLsb' 7 6))
  | 40 => some (.fsin (guardOf l x) (w.extractLsb' 13 6) (w.extractLsb' 7 6))
  | 41 => some (.fcos (guardOf l x) (w.extractLsb' 13 6) (w.extractLsb' 7 6))
  | 42 => some (.faddH2 (guardOf l x) (w.extractLsb' 13 6) (w.extractLsb' 7 6) (w.extractLsb' 1 6))
  | 43 => some (.fmulH2 (guardOf l x) (w.extractLsb' 13 6) (w.extractLsb' 7 6) (w.extractLsb' 1 6))
  | 44 => some (.ffmaH2 (guardOf l x) (w.extractLsb' 13 6) (w.extractLsb' 7 6) (w.extractLsb' 1 6))
  | 45 => some (.faddB2 (guardOf l x) (w.extractLsb' 13 6) (w.extractLsb' 7 6) (w.extractLsb' 1 6))
  | 46 => some (.fmulB2 (guardOf l x) (w.extractLsb' 13 6) (w.extractLsb' 7 6) (w.extractLsb' 1 6))
  | 47 => some (.ffmaB2 (guardOf l x) (w.extractLsb' 13 6) (w.extractLsb' 7 6) (w.extractLsb' 1 6))
  | 48 => some (.cvtF32I32 (guardOf l x) (w.extractLsb' 13 6) (w.extractLsb' 7 6))
  | 49 => some (.cvtF32N32 (guardOf l x) (w.extractLsb' 13 6) (w.extractLsb' 7 6))
  | 50 => some (.cvtI32F32 (guardOf l x) (w.extractLsb' 13 6) (w.extractLsb' 7 6) (w.extractLsb' 1 3))
  | 51 => some (.cvtN32F32 (guardOf l x) (w.extractLsb' 13 6) (w.extractLsb' 7 6) (w.extractLsb' 1 3))
  | 52 => some (.cvtF32H2 (guardOf l x) (w.extractLsb' 13 6) (w.extractLsb' 7 6) (w.getLsbD 0))
  | 53 => some (.cvtH2F32 (guardOf l x) (w.extractLsb' 13 6) (w.extractLsb' 7 6) (w.extractLsb' 1 6))
  | 54 => some (.cvtF32B2 (guardOf l x) (w.extractLsb' 13 6) (w.extractLsb' 7 6) (w.getLsbD 0))
  | 55 => some (.cvtB2F32 (guardOf l x) (w.extractLsb' 13 6) (w.extractLsb' 7 6) (w.extractLsb' 1 6))
  | 56 => some (.cvtF32E4m3 (guardOf l x) (w.extractLsb' 13 6) (w.extractLsb' 7 6) (w.extractLsb' 1 2))
  | 57 => some (.cvtE4m3F32 (guardOf l x) (w.extractLsb' 13 6) (w.extractLsb' 7 6) (w.extractLsb' 1 2))
  | 58 => some (.cvtF32E5m2 (guardOf l x) (w.extractLsb' 13 6) (w.extractLsb' 7 6) (w.extractLsb' 1 2))
  | 59 => some (.cvtE5m2F32 (guardOf l x) (w.extractLsb' 13 6) (w.extractLsb' 7 6) (w.extractLsb' 1 2))
  | 60 => some (.shflIdx (guardOf l x) (w.extractLsb' 13 6) (w.extractLsb' 7 6) (w.extractLsb' 1 6))
  | 61 => some (.shflXor (guardOf l x) (w.extractLsb' 13 6) (w.extractLsb' 7 6) (w.extractLsb' 1 6))
  | 62 => some (.s2v (guardOf l x) (w.extractLsb' 13 6) (w.extractLsb' 7 6) (w.getLsbD 0))
  | 63 => some (.v2s (guardOf l x) (w.extractLsb' 13 6) (w.extractLsb' 7 6) (w.extractLsb' 1 6) (w.getLsbD 0))
  | _ => none

/-- The instruction of class 3 an opcode names, with its operands read from the words. -/
noncomputable def buildVec (op : Nat) (_l : Bool) (w _x : Word) : Option Instr :=
  match op with
  | 0 => some (.vadd (w.extractLsb' 14 5) (w.extractLsb' 9 5) (w.extractLsb' 4 5) (w.extractLsb' 1 3) (w.getLsbD 0))
  | 1 => some (.vsub (w.extractLsb' 14 5) (w.extractLsb' 9 5) (w.extractLsb' 4 5) (w.extractLsb' 1 3) (w.getLsbD 0))
  | 2 => some (.vmul (w.extractLsb' 14 5) (w.extractLsb' 9 5) (w.extractLsb' 4 5) (w.extractLsb' 1 3) (w.getLsbD 0))
  | 3 => some (.vfma (w.extractLsb' 14 5) (w.extractLsb' 9 5) (w.extractLsb' 4 5) (w.extractLsb' 1 3) (w.getLsbD 0))
  | 4 => some (.vmin (w.extractLsb' 14 5) (w.extractLsb' 9 5) (w.extractLsb' 4 5) (w.extractLsb' 1 3) (w.getLsbD 0))
  | 5 => some (.vmax (w.extractLsb' 14 5) (w.extractLsb' 9 5) (w.extractLsb' 4 5) (w.extractLsb' 1 3) (w.getLsbD 0))
  | 6 => some (.vabs (w.extractLsb' 14 5) (w.extractLsb' 9 5) (w.extractLsb' 1 3) (w.getLsbD 0))
  | 7 => some (.vneg (w.extractLsb' 14 5) (w.extractLsb' 9 5) (w.extractLsb' 1 3) (w.getLsbD 0))
  | 8 => some (.vcmp (w.extractLsb' 14 5) (w.extractLsb' 9 5) (w.extractLsb' 4 5) (w.extractLsb' 1 3))
  | 9 => some (.vsel (w.extractLsb' 14 5) (w.extractLsb' 9 5) (w.extractLsb' 4 5) (w.extractLsb' 1 3) (w.getLsbD 0))
  | 10 => some (.vand (w.extractLsb' 14 5) (w.extractLsb' 9 5) (w.extractLsb' 4 5) (w.extractLsb' 1 3) (w.getLsbD 0))
  | 11 => some (.vor (w.extractLsb' 14 5) (w.extractLsb' 9 5) (w.extractLsb' 4 5) (w.extractLsb' 1 3) (w.getLsbD 0))
  | 12 => some (.vxor (w.extractLsb' 14 5) (w.extractLsb' 9 5) (w.extractLsb' 4 5) (w.extractLsb' 1 3) (w.getLsbD 0))
  | 13 => some (.vshl (w.extractLsb' 14 5) (w.extractLsb' 9 5) (w.extractLsb' 4 5) (w.extractLsb' 1 3) (w.getLsbD 0))
  | 14 => some (.vshrI (w.extractLsb' 14 5) (w.extractLsb' 9 5) (w.extractLsb' 4 5) (w.extractLsb' 1 3) (w.getLsbD 0))
  | 15 => some (.vshrN (w.extractLsb' 14 5) (w.extractLsb' 9 5) (w.extractLsb' 4 5) (w.extractLsb' 1 3) (w.getLsbD 0))
  | 16 => some (.vmov (w.extractLsb' 14 5) (w.extractLsb' 9 5) (w.extractLsb' 1 3) (w.getLsbD 0))
  | 17 => some (.vbcast (w.extractLsb' 14 5) (w.extractLsb' 9 5) (w.extractLsb' 4 5) (w.extractLsb' 1 3) (w.getLsbD 0))
  | 18 => some (.vrcp (w.extractLsb' 14 5) (w.extractLsb' 9 5) (w.extractLsb' 1 3) (w.getLsbD 0))
  | 19 => some (.vrsq (w.extractLsb' 14 5) (w.extractLsb' 9 5) (w.extractLsb' 1 3) (w.getLsbD 0))
  | 20 => some (.vexp2 (w.extractLsb' 14 5) (w.extractLsb' 9 5) (w.extractLsb' 1 3) (w.getLsbD 0))
  | 21 => some (.vlog2 (w.extractLsb' 14 5) (w.extractLsb' 9 5) (w.extractLsb' 1 3) (w.getLsbD 0))
  | 22 => some (.vtbli (w.extractLsb' 14 5) (w.extractLsb' 9 5) (w.extractLsb' 4 5) (w.extractLsb' 1 3) (w.getLsbD 0))
  | 23 => some (.vtbll (w.extractLsb' 9 5) (w.extractLsb' 4 3))
  | 24 => some (.vrmax (w.extractLsb' 14 5) (w.extractLsb' 9 5) (w.extractLsb' 1 3))
  | 25 => some (.vradd (w.extractLsb' 14 5) (w.extractLsb' 9 5) (w.extractLsb' 1 3))
  | 26 => some (.vamax (w.extractLsb' 14 5) (w.extractLsb' 9 5) (w.extractLsb' 1 3))
  | 27 => some (.vqnt (w.extractLsb' 14 5) (w.extractLsb' 9 5) (w.extractLsb' 4 5) (w.extractLsb' 1 3) (w.getLsbD 0))
  | 28 => some (.vdqnt (w.extractLsb' 14 5) (w.extractLsb' 9 5) (w.extractLsb' 4 5) (w.extractLsb' 1 3) (w.getLsbD 0))
  | 29 => some (.vcvt (w.extractLsb' 14 5) (w.extractLsb' 9 5) (w.extractLsb' 4 5) (w.extractLsb' 1 3) (w.getLsbD 0))
  | 30 => some (.vperm (w.extractLsb' 14 5) (w.extractLsb' 9 5) (w.extractLsb' 4 5) (w.extractLsb' 1 3) (w.getLsbD 0))
  | 31 => some (.vslide (w.extractLsb' 14 5) (w.extractLsb' 9 5) (w.extractLsb' 4 5) (w.extractLsb' 1 3) (w.getLsbD 0))
  | 32 => some (.vpop (w.extractLsb' 14 5) (w.extractLsb' 9 2))
  | 33 => some (.vpush (w.extractLsb' 14 5) (w.extractLsb' 9 5))
  | 34 => some (.vpopk (w.extractLsb' 14 3) (w.extractLsb' 9 2))
  | 35 => some (.vpushs (w.extractLsb' 14 5) (w.extractLsb' 9 5) (w.extractLsb' 1 3))
  | 36 => some (.vshape (w.extractLsb' 14 5) (w.extractLsb' 9 5) (w.extractLsb' 4 5) (w.extractLsb' 1 3) (w.getLsbD 0))
  | 37 => some (.vrot (w.extractLsb' 14 5) (w.extractLsb' 9 5) (w.extractLsb' 4 5) (w.extractLsb' 1 3) (w.getLsbD 0))
  | 38 => some (.vscale (w.extractLsb' 14 5) (w.extractLsb' 9 5) (w.extractLsb' 4 5) (w.extractLsb' 1 3) (w.getLsbD 0))
  | 39 => some (.vrnd (w.extractLsb' 14 5) (w.extractLsb' 9 5) (w.extractLsb' 4 5) (w.extractLsb' 1 3) (w.getLsbD 0))
  | 40 => some (.vsqrt (w.extractLsb' 14 5) (w.extractLsb' 9 5) (w.extractLsb' 1 3) (w.getLsbD 0))
  | 41 => some (.vmadI (w.extractLsb' 14 5) (w.extractLsb' 9 5) (w.extractLsb' 4 5) (w.extractLsb' 1 3) (w.getLsbD 0))
  | 42 => some (.vsat (w.extractLsb' 14 5) (w.extractLsb' 9 5) (w.extractLsb' 4 5) (w.extractLsb' 1 3) (w.getLsbD 0))
  | 43 => some (.vpsum (w.extractLsb' 14 5) (w.extractLsb' 9 5) (w.extractLsb' 1 3) (w.getLsbD 0))
  | 44 => some (.vclamp (w.extractLsb' 14 5) (w.extractLsb' 9 5) (w.extractLsb' 4 5) (w.extractLsb' 1 3) (w.getLsbD 0))
  | 45 => some (.vfrac (w.extractLsb' 14 5) (w.extractLsb' 9 5) (w.extractLsb' 1 3) (w.getLsbD 0))
  | 46 => some (.vcbk (w.extractLsb' 9 5))
  | 47 => some (.vkmov (w.extractLsb' 17 2) (w.extractLsb' 14 3) (w.extractLsb' 9 3) (w.extractLsb' 4 3))
  | _ => none

/-- The instruction of class 4 an opcode names, with its operands read from the words. -/
noncomputable def buildMat (op : Nat) (_l : Bool) (w x : Word) : Option Instr :=
  match op with
  | 0 => some (.mldb (x.extractLsb' 23 9) (x.extractLsb' 18 5) (w.getLsbD 4) (x.getLsbD 12) (matTailOf x))
  | 1 => some (.mmaBf16 (w.extractLsb' 10 9) (x.extractLsb' 23 9) (x.extractLsb' 18 5) (w.getLsbD 4) (matTailOf x))
  | 2 => some (.mmaF16 (w.extractLsb' 10 9) (x.extractLsb' 23 9) (x.extractLsb' 18 5) (w.getLsbD 4) (matTailOf x))
  | 3 => some (.mmaE4m3 (w.extractLsb' 10 9) (x.extractLsb' 23 9) (x.extractLsb' 18 5) (w.getLsbD 4) (matTailOf x))
  | 4 => some (.mmaE5m2 (w.extractLsb' 10 9) (x.extractLsb' 23 9) (x.extractLsb' 18 5) (w.getLsbD 4) (matTailOf x))
  | 5 => some (.mmaMx8 (w.extractLsb' 10 9) (x.extractLsb' 23 9) (x.extractLsb' 18 5) (w.getLsbD 4) (x.extractLsb' 12 2) (matTailOf x))
  | 6 => some (.mmaMx6 (w.extractLsb' 10 9) (x.extractLsb' 23 9) (x.extractLsb' 18 5) (w.getLsbD 4) (x.extractLsb' 12 1) (matTailOf x))
  | 7 => some (.mmaMx4 (w.extractLsb' 10 9) (x.extractLsb' 23 9) (x.extractLsb' 18 5) (w.getLsbD 4) (x.extractLsb' 12 1) (matTailOf x))
  | 8 => some (.mmaI8 (w.extractLsb' 10 9) (x.extractLsb' 23 9) (x.extractLsb' 18 5) (w.getLsbD 4) (w.getLsbD 3) (w.getLsbD 2) (w.getLsbD 1) (matTailOf x))
  | 9 => some (.mmaI4 (w.extractLsb' 10 9) (x.extractLsb' 23 9) (x.extractLsb' 18 5) (w.getLsbD 4) (w.getLsbD 3) (w.getLsbD 2) (w.getLsbD 1) (matTailOf x))
  | 10 => some (.mmasMx4 (w.extractLsb' 10 9) (x.extractLsb' 23 9) (x.extractLsb' 18 5) (w.getLsbD 4) (x.extractLsb' 12 1) (matTailOf x))
  | 11 => some (.mmasMx8 (w.extractLsb' 10 9) (x.extractLsb' 23 9) (x.extractLsb' 18 5) (w.getLsbD 4) (x.extractLsb' 12 2) (matTailOf x))
  | 12 => some (.mmvMx4 (w.extractLsb' 10 9) (w.extractLsb' 5 5) (x.extractLsb' 23 9) (x.extractLsb' 18 5) (w.getLsbD 4) (x.extractLsb' 12 4) (x.extractLsb' 16 2) (matTailOf x))
  | 13 => some (.mmvMx8 (w.extractLsb' 10 9) (w.extractLsb' 5 5) (x.extractLsb' 23 9) (x.extractLsb' 18 5) (w.getLsbD 4) (x.extractLsb' 12 4) (x.extractLsb' 16 2) (matTailOf x))
  | 14 => some (.mmvBf16 (w.extractLsb' 10 9) (w.extractLsb' 5 5) (x.extractLsb' 23 9) (x.extractLsb' 18 5) (w.getLsbD 4) (x.extractLsb' 12 4) (matTailOf x))
  | 15 => some (.mzero (w.extractLsb' 10 9) (w.extractLsb' 5 5) (w.getLsbD 4) (x.getLsbD 12) (matTailOf x))
  | 16 => some (.mscale (w.extractLsb' 10 9) (x.extractLsb' 23 9) (w.getLsbD 4) (matTailOf x))
  | 17 => some (.mcvt (w.extractLsb' 10 9) (w.extractLsb' 5 5) (x.extractLsb' 23 9) (w.getLsbD 4) (x.extractLsb' 12 5) (x.getLsbD 17) (matTailOf x))
  | 18 => some (.mtest (w.extractLsb' 10 9) (w.extractLsb' 5 5) (matTailOf x))
  | 19 => some (.mfence (matTailOf x))
  | 20 => some (.mcbk (x.extractLsb' 23 9) (x.extractLsb' 18 5) (w.getLsbD 4) (x.extractLsb' 12 1) (matTailOf x))
  | 21 => some (.mtrn (w.extractLsb' 10 9) (w.extractLsb' 5 5) (x.extractLsb' 23 9) (x.extractLsb' 18 5) (x.extractLsb' 12 2) (matTailOf x))
  | 22 => some (.mpair (x.extractLsb' 12 1) (matTailOf x))
  | 23 => some (.mfree (matTailOf x))
  | _ => none

/-- The instruction of class 5 an opcode names, with its operands read from the words. -/
def buildMem (op : Nat) (l : Bool) (w x : Word) : Option Instr :=
  match op with
  | 0 => some (.ld8 (guardOf l x) (w.extractLsb' 13 6) (w.extractLsb' 7 6) (w.getLsbD 6) (offD l w x))
  | 1 => some (.ld16 (guardOf l x) (w.extractLsb' 13 6) (w.extractLsb' 7 6) (w.getLsbD 6) (offD l w x))
  | 2 => some (.ld32 (guardOf l x) (w.extractLsb' 13 6) (w.extractLsb' 7 6) (w.getLsbD 6) (offD l w x))
  | 3 => some (.ld64 (guardOf l x) (w.extractLsb' 13 6) (w.extractLsb' 7 6) (w.getLsbD 6) (offD l w x))
  | 4 => some (.ld128 (guardOf l x) (w.extractLsb' 13 6) (w.extractLsb' 7 6) (w.getLsbD 6) (offD l w x))
  | 5 => some (.ldx (guardOf l x) (w.extractLsb' 13 6) (w.extractLsb' 7 6) (w.getLsbD 6) (offD l w x))
  | 6 => some (.ldro (guardOf l x) (w.extractLsb' 13 6) (w.extractLsb' 7 6) (w.getLsbD 6) (offD l w x))
  | 7 => some (.st8 (guardOf l x) (w.extractLsb' 13 6) (w.extractLsb' 7 6) (w.getLsbD 6) (offD l w x))
  | 8 => some (.st16 (guardOf l x) (w.extractLsb' 13 6) (w.extractLsb' 7 6) (w.getLsbD 6) (offD l w x))
  | 9 => some (.st32 (guardOf l x) (w.extractLsb' 13 6) (w.extractLsb' 7 6) (w.getLsbD 6) (offD l w x))
  | 10 => some (.st64 (guardOf l x) (w.extractLsb' 13 6) (w.extractLsb' 7 6) (w.getLsbD 6) (offD l w x))
  | 11 => some (.st128 (guardOf l x) (w.extractLsb' 13 6) (w.extractLsb' 7 6) (w.getLsbD 6) (offD l w x))
  | 12 => some (.stx (guardOf l x) (w.extractLsb' 13 6) (w.extractLsb' 7 6) (w.getLsbD 6) (offD l w x))
  | 13 => some (.lds (guardOf l x) (w.extractLsb' 13 6) (w.extractLsb' 7 6) (w.getLsbD 6) (offD l w x))
  | 14 => some (.sts (guardOf l x) (w.extractLsb' 13 6) (w.extractLsb' 7 6) (w.getLsbD 6) (offD l w x))
  | 15 => some (.atomAdd (guardOf l x) (w.extractLsb' 13 6) (w.extractLsb' 7 6) (w.extractLsb' 1 6) (w.getLsbD 0) (scopeOf l x) (orderOf l x) (unOf l x) (offT l x))
  | 16 => some (.atomMin (guardOf l x) (w.extractLsb' 13 6) (w.extractLsb' 7 6) (w.extractLsb' 1 6) (w.getLsbD 0) (scopeOf l x) (orderOf l x) (unOf l x) (offT l x))
  | 17 => some (.atomMax (guardOf l x) (w.extractLsb' 13 6) (w.extractLsb' 7 6) (w.extractLsb' 1 6) (w.getLsbD 0) (scopeOf l x) (orderOf l x) (unOf l x) (offT l x))
  | 18 => some (.atomAnd (guardOf l x) (w.extractLsb' 13 6) (w.extractLsb' 7 6) (w.extractLsb' 1 6) (w.getLsbD 0) (scopeOf l x) (orderOf l x) (unOf l x) (offT l x))
  | 19 => some (.atomOr (guardOf l x) (w.extractLsb' 13 6) (w.extractLsb' 7 6) (w.extractLsb' 1 6) (w.getLsbD 0) (scopeOf l x) (orderOf l x) (unOf l x) (offT l x))
  | 20 => some (.atomXor (guardOf l x) (w.extractLsb' 13 6) (w.extractLsb' 7 6) (w.extractLsb' 1 6) (w.getLsbD 0) (scopeOf l x) (orderOf l x) (unOf l x) (offT l x))
  | 21 => some (.atomXchg (guardOf l x) (w.extractLsb' 13 6) (w.extractLsb' 7 6) (w.extractLsb' 1 6) (w.getLsbD 0) (scopeOf l x) (orderOf l x) (unOf l x) (offT l x))
  | 22 => some (.atomCas (guardOf l x) (w.extractLsb' 13 6) (w.extractLsb' 7 6) (w.extractLsb' 1 6) (w.getLsbD 0) (scopeOf l x) (orderOf l x) (unOf l x) (offT l x))
  | 23 => some (.atomFadd (guardOf l x) (w.extractLsb' 13 6) (w.extractLsb' 7 6) (w.extractLsb' 1 6) (w.getLsbD 0) (scopeOf l x) (orderOf l x) (unOf l x) (offT l x))
  | 24 => some (.atomsAdd (guardOf l x) (w.extractLsb' 13 6) (w.extractLsb' 7 6) (w.extractLsb' 1 6) (w.getLsbD 0) (scopeOf l x) (orderOf l x) (unOf l x) (offT l x))
  | 25 => some (.atomsCas (guardOf l x) (w.extractLsb' 13 6) (w.extractLsb' 7 6) (w.extractLsb' 1 6) (w.getLsbD 0) (scopeOf l x) (orderOf l x) (unOf l x) (offT l x))
  | 26 => some (.probe (guardOf l x) (w.extractLsb' 7 6) (w.extractLsb' 1 6) (w.getLsbD 0))
  | 27 => some (.ldq (guardOf l x) (w.extractLsb' 13 6) (w.extractLsb' 7 6) (w.getLsbD 6) (offD l w x))
  | 28 => some (.stq (guardOf l x) (w.extractLsb' 13 6) (w.extractLsb' 7 6) (w.getLsbD 6) (offD l w x))
  | 29 => some (.lda (guardOf l x) (w.extractLsb' 13 6) (w.extractLsb' 7 6) (w.getLsbD 6) (offD l w x))
  | 30 => some (.sta (guardOf l x) (w.extractLsb' 13 6) (w.extractLsb' 7 6) (w.getLsbD 6) (offD l w x))
  | 31 => some (.cwb (guardOf l x) (w.extractLsb' 7 6) (w.extractLsb' 1 6) (w.getLsbD 0))
  | 32 => some (.cinv (guardOf l x) (w.extractLsb' 7 6) (w.extractLsb' 1 6) (w.getLsbD 0))
  | 33 => some (.icinv (guardOf l x) (w.extractLsb' 7 6) (w.extractLsb' 1 6) (w.getLsbD 0))
  | 34 => some (.invRo (guardOf l x))
  | 35 => some (.tagset (guardOf l x) (w.extractLsb' 7 6) (w.getLsbD 6) (offD l w x))
  | 36 => some (.tagget (guardOf l x) (w.extractLsb' 13 6) (w.extractLsb' 7 6) (w.getLsbD 6) (offD l w x))
  | 37 => some (.pres (guardOf l x) (w.extractLsb' 13 6) (w.extractLsb' 7 6) (w.getLsbD 6) (offD l w x))
  | 38 => some (.ldS (guardOf l x) (w.extractLsb' 13 6) (w.extractLsb' 7 6) (w.getLsbD 6) (offD l w x))
  | 39 => some (.atomInc (guardOf l x) (w.extractLsb' 13 6) (w.extractLsb' 7 6) (w.extractLsb' 1 6) (w.getLsbD 0) (scopeOf l x) (orderOf l x) (unOf l x) (offT l x))
  | _ => none

/-- The instruction of class 6 an opcode names, with its operands read from the words. -/
noncomputable def buildCpy (op : Nat) (_l : Bool) (w x : Word) : Option Instr :=
  match op with
  | 0 => some (.cpyLin (w.extractLsb' 13 6) (w.extractLsb' 7 6) (w.extractLsb' 1 6) (w.getLsbD 0) (copyTailOf x))
  | 1 => some (.cpyTen (w.extractLsb' 13 6) (w.extractLsb' 7 6) (w.extractLsb' 1 6) (w.getLsbD 0) (x.extractLsb' 12 3) (copyTailOf x))
  | 2 => some (.cpyMc (w.extractLsb' 13 6) (w.extractLsb' 7 6) (w.extractLsb' 1 6) (w.getLsbD 0) (copyTailOf x))
  | 3 => some (.cpyCol (w.extractLsb' 13 6) (w.extractLsb' 7 6) (w.extractLsb' 1 6) (copyTailOf x))
  | 4 => some (.cpyFill (w.extractLsb' 13 6) (w.extractLsb' 1 6) (copyTailOf x))
  | 5 => some (.cpyWb (x.extractLsb' 12 4) (copyTailOf x))
  | 6 => some (.cpyTs (w.extractLsb' 13 6) (w.extractLsb' 7 6) (w.extractLsb' 1 6) (w.getLsbD 0) (x.extractLsb' 16 9) (x.extractLsb' 12 4) (copyTailOf x))
  | 7 => some (.cpyFeed (w.extractLsb' 13 6) (w.extractLsb' 7 6) (w.extractLsb' 1 6) (x.extractLsb' 16 9) (x.extractLsb' 12 4) (copyTailOf x))
  | 8 => some (.publish (w.extractLsb' 13 6) (copyTailOf x))
  | 9 => some (.shadow (w.extractLsb' 13 6) (w.extractLsb' 7 6) (copyTailOf x))
  | 10 => some (.semSig (w.extractLsb' 13 6) (w.extractLsb' 7 6) (w.getLsbD 0) (copyTailOf x))
  | 11 => some (.semWait (w.extractLsb' 13 6) (w.extractLsb' 7 6) (w.getLsbD 0) (copyTailOf x))
  | 12 => some (.semTry (w.extractLsb' 13 6) (w.extractLsb' 7 6) (w.extractLsb' 1 6) (w.getLsbD 0) (copyTailOf x))
  | 13 => some (.semSet (w.extractLsb' 13 6) (w.extractLsb' 7 6) (w.getLsbD 0) (copyTailOf x))
  | 14 => some (.semRead (w.extractLsb' 13 6) (w.extractLsb' 1 6) (w.getLsbD 0) (copyTailOf x))
  | 15 => some (.push (w.extractLsb' 13 6) (w.extractLsb' 7 6) (w.extractLsb' 1 6) (w.getLsbD 0) (x.extractLsb' 12 2) (copyTailOf x))
  | 16 => some (.shape (w.extractLsb' 13 6) (x.extractLsb' 12 3) (copyTailOf x))
  | 17 => some (.tokq (copyTailOf x))
  | 18 => some (.mapSet (w.extractLsb' 13 6) (w.extractLsb' 7 6) (x.extractLsb' 12 4) (copyTailOf x))
  | 19 => some (.mapClr (x.extractLsb' 12 4) (copyTailOf x))
  | 20 => some (.cpyRed (w.extractLsb' 13 6) (w.extractLsb' 7 6) (w.extractLsb' 1 6) (x.extractLsb' 12 5) (x.extractLsb' 17 2) (copyTailOf x))
  | 21 => some (.cpyGath (w.extractLsb' 13 6) (w.extractLsb' 7 6) (w.extractLsb' 1 6) (x.extractLsb' 12 8) (copyTailOf x))
  | 22 => some (.cpyScat (w.extractLsb' 13 6) (w.extractLsb' 7 6) (w.extractLsb' 1 6) (x.extractLsb' 12 8) (copyTailOf x))
  | 23 => some (.guideBind (w.extractLsb' 13 6) (w.extractLsb' 7 6) (w.extractLsb' 1 6) (copyTailOf x))
  | 24 => some (.linkSend (w.extractLsb' 13 6) (w.extractLsb' 7 6) (w.extractLsb' 1 6) (copyTailOf x))
  | 25 => some (.linkRecv (w.extractLsb' 13 6) (w.extractLsb' 7 6) (w.extractLsb' 1 6) (copyTailOf x))
  | 26 => some (.cpyAbort (copyTailOf x))
  | 27 => some (.cpyHost (w.extractLsb' 13 6) (w.extractLsb' 7 6) (w.extractLsb' 1 6) (w.getLsbD 0) (copyTailOf x))
  | _ => none

/-- The instruction of class 7 an opcode names, with its operands read from the words. -/
def buildGfx (op : Nat) (l : Bool) (w x : Word) : Option Instr :=
  match op with
  | 0 => some (.meshOut (guardOf l x) (w.extractLsb' 13 6) (w.extractLsb' 7 6) (w.extractLsb' 1 6))
  | 1 => some (.meshPrim (guardOf l x) (w.extractLsb' 13 6) (w.extractLsb' 7 6))
  | 2 => some (.meshDone (guardOf l x) (w.extractLsb' 7 6) (w.extractLsb' 1 6))
  | 3 => some (.rastBind (guardOf l x) (w.extractLsb' 7 6) (immGuarded l w x))
  | 4 => some (.pixIn (guardOf l x) (w.extractLsb' 13 6) (immGuarded l w x))
  | 5 => some (.pixBary (guardOf l x) (w.extractLsb' 13 6) (w.extractLsb' 1 6) (w.getLsbD 0))
  | 6 => some (.pixDiscard (guardOf l x))
  | 7 => some (.omWrite (guardOf l x) (w.extractLsb' 7 6) (immGuarded l w x))
  | 8 => some (.omDepth (guardOf l x) (w.extractLsb' 7 6))
  | 9 => some (.guideOut (guardOf l x) (w.extractLsb' 7 6))
  | 10 => some (.texSample (guardOf l x) (w.extractLsb' 13 6) (w.extractLsb' 7 6) (w.extractLsb' 1 6))
  | 11 => some (.texLod (guardOf l x) (w.extractLsb' 13 6) (w.extractLsb' 7 6) (w.extractLsb' 1 6))
  | 12 => some (.texGrad (guardOf l x) (w.extractLsb' 13 6) (w.extractLsb' 7 6) (w.extractLsb' 1 6))
  | 13 => some (.texFetch (guardOf l x) (w.extractLsb' 13 6) (w.extractLsb' 7 6) (w.extractLsb' 1 6))
  | 14 => some (.texGather4 (guardOf l x) (w.extractLsb' 13 6) (w.extractLsb' 7 6) (w.extractLsb' 1 6))
  | 15 => some (.texQuery (guardOf l x) (w.extractLsb' 13 6) (w.extractLsb' 7 6) (immGuarded l w x))
  | 16 => some (.rayBox (guardOf l x) (w.extractLsb' 13 6) (w.extractLsb' 7 6) (w.extractLsb' 1 6))
  | 17 => some (.rayTri (guardOf l x) (w.extractLsb' 13 6) (w.extractLsb' 7 6) (w.extractLsb' 1 6))
  | 18 => some (.rayInit (guardOf l x) (w.extractLsb' 13 6) (w.extractLsb' 7 6))
  | 19 => some (.rayXform (guardOf l x) (w.extractLsb' 13 6) (w.extractLsb' 7 6) (w.extractLsb' 1 6) (w.getLsbD 0))
  | 20 => some (.rayStkPush (guardOf l x) (w.extractLsb' 13 6) (w.extractLsb' 7 6))
  | 21 => some (.rayStkPop (guardOf l x) (w.extractLsb' 13 6) (w.extractLsb' 7 6))
  | 22 => some (.rayHit (guardOf l x) (w.extractLsb' 13 6) (w.extractLsb' 7 6))
  | 23 => some (.imgLd (guardOf l x) (w.extractLsb' 13 6) (w.extractLsb' 7 6) (w.getLsbD 6) (offD l w x))
  | 24 => some (.imgSt (guardOf l x) (w.extractLsb' 13 6) (w.extractLsb' 7 6) (w.getLsbD 6) (offD l w x))
  | 25 => some (.quadSwz (guardOf l x) (w.extractLsb' 13 6) (w.extractLsb' 7 6) (immGuarded l w x))
  | 26 => some (.quadDeriv (guardOf l x) (w.extractLsb' 13 6) (w.extractLsb' 7 6) (immGuarded l w x))
  | _ => none

/-- The instruction the words name, before any check of its fields. (Not compiled: Lean's runtime numbers at most 244
constructors with fields. The kernel evaluates it.) -/
noncomputable def buildInstr (c : BitVec 3) (op : BitVec 7) (l : Bool) (w x : Word) : Option Instr :=
  match c.toNat with
  | 0 => buildCtl op.toNat l w x
  | 1 => buildScl op.toNat l w x
  | 2 => buildLan op.toNat l w x
  | 3 => buildVec op.toNat l w x
  | 4 => buildMat op.toNat l w x
  | 5 => buildMem op.toNat l w x
  | 6 => buildCpy op.toNat l w x
  | _ => buildGfx op.toNat l w x

/-! ### Which forms an instruction may be written in -/

/-- The class and opcode of an instruction; an event has none. -/
def Instr.code (i : Instr) : Option (BitVec 3 × BitVec 7) :=
  match i with
  | .nop => some (0, 0x0)
  | .bra .. => some (0, 0x1)
  | .brac .. => some (0, 0x2)
  | .brx .. => some (0, 0x3)
  | .call .. => some (0, 0x4)
  | .ret .. => some (0, 0x5)
  | .loop .. => some (0, 0x6)
  | .loopi .. => some (0, 0x7)
  | .voteAny .. => some (0, 0x8)
  | .voteAll .. => some (0, 0x9)
  | .barCrew .. => some (0, 0xA)
  | .barGrove .. => some (0, 0xB)
  | .barArrive .. => some (0, 0xC)
  | .barWait .. => some (0, 0xD)
  | .wait .. => some (0, 0xE)
  | .waitt .. => some (0, 0xF)
  | .fence .. => some (0, 0x10)
  | .fencePromote .. => some (0, 0x11)
  | .fenceI => some (0, 0x12)
  | .trap .. => some (0, 0x13)
  | .chk .. => some (0, 0x14)
  | .region .. => some (0, 0x15)
  | .exit => some (0, 0x16)
  | .yield => some (0, 0x17)
  | .lease .. => some (0, 0x18)
  | .split .. => some (0, 0x19)
  | .launch .. => some (0, 0x1A)
  | .reca .. => some (0, 0x1B)
  | .remit .. => some (0, 0x1C)
  | .rdone .. => some (0, 0x1D)
  | .millCfg .. => some (0, 0x1E)
  | .millEnter => some (0, 0x1F)
  | .millExit .. => some (0, 0x20)
  | .fsend .. => some (0, 0x21)
  | .fsendNb .. => some (0, 0x22)
  | .ftake .. => some (0, 0x23)
  | .sread .. => some (0, 0x24)
  | .swrite .. => some (0, 0x25)
  | .govq .. => some (0, 0x26)
  | .govr .. => some (0, 0x27)
  | .bkpt .. => some (0, 0x28)
  | .add .. => some (1, 0x0)
  | .addi .. => some (1, 0x1)
  | .sub .. => some (1, 0x2)
  | .mul .. => some (1, 0x3)
  | .mulhI .. => some (1, 0x4)
  | .mulhN .. => some (1, 0x5)
  | .divI .. => some (1, 0x6)
  | .divN .. => some (1, 0x7)
  | .remI .. => some (1, 0x8)
  | .remN .. => some (1, 0x9)
  | .and .. => some (1, 0xA)
  | .or .. => some (1, 0xB)
  | .xor .. => some (1, 0xC)
  | .andi .. => some (1, 0xD)
  | .ori .. => some (1, 0xE)
  | .xori .. => some (1, 0xF)
  | .shl .. => some (1, 0x10)
  | .shrI .. => some (1, 0x11)
  | .shrN .. => some (1, 0x12)
  | .rot .. => some (1, 0x13)
  | .minI .. => some (1, 0x14)
  | .minN .. => some (1, 0x15)
  | .maxI .. => some (1, 0x16)
  | .maxN .. => some (1, 0x17)
  | .abs .. => some (1, 0x18)
  | .neg .. => some (1, 0x19)
  | .cmp .. => some (1, 0x1A)
  | .cmpp .. => some (1, 0x1B)
  | .sel .. => some (1, 0x1C)
  | .mov .. => some (1, 0x1D)
  | .movi .. => some (1, 0x1E)
  | .movh .. => some (1, 0x1F)
  | .lea .. => some (1, 0x20)
  | .popc .. => some (1, 0x21)
  | .clz .. => some (1, 0x22)
  | .ctz .. => some (1, 0x23)
  | .bfxI .. => some (1, 0x24)
  | .bfxN .. => some (1, 0x25)
  | .bfi .. => some (1, 0x26)
  | .brev .. => some (1, 0x27)
  | .mad .. => some (1, 0x28)
  | .addsI .. => some (1, 0x29)
  | .addsN .. => some (1, 0x2A)
  | .subsI .. => some (1, 0x2B)
  | .subsN .. => some (1, 0x2C)
  | .mbx .. => some (1, 0x2D)
  | .time .. => some (1, 0x2E)
  | .wid .. => some (1, 0x2F)
  | .iadd .. => some (2, 0x0)
  | .iaddi .. => some (2, 0x1)
  | .isub .. => some (2, 0x2)
  | .imul .. => some (2, 0x3)
  | .imad .. => some (2, 0x4)
  | .imulhI .. => some (2, 0x5)
  | .imulhN .. => some (2, 0x6)
  | .iminI .. => some (2, 0x7)
  | .iminN .. => some (2, 0x8)
  | .imaxI .. => some (2, 0x9)
  | .imaxN .. => some (2, 0xA)
  | .iand .. => some (2, 0xB)
  | .ior .. => some (2, 0xC)
  | .ixor .. => some (2, 0xD)
  | .ishl .. => some (2, 0xE)
  | .ishrI .. => some (2, 0xF)
  | .ishrN .. => some (2, 0x10)
  | .ibfxI .. => some (2, 0x11)
  | .ibfxN .. => some (2, 0x12)
  | .ibfi .. => some (2, 0x13)
  | .ipopc .. => some (2, 0x14)
  | .iclz .. => some (2, 0x15)
  | .icmp .. => some (2, 0x16)
  | .isel .. => some (2, 0x17)
  | .imov .. => some (2, 0x18)
  | .imovi .. => some (2, 0x19)
  | .idot4I8 .. => some (2, 0x1A)
  | .idot4N8 .. => some (2, 0x1B)
  | .faddF32 .. => some (2, 0x1C)
  | .fmulF32 .. => some (2, 0x1D)
  | .ffmaF32 .. => some (2, 0x1E)
  | .fminF32 .. => some (2, 0x1F)
  | .fmaxF32 .. => some (2, 0x20)
  | .fcmpF32 .. => some (2, 0x21)
  | .frndF32 .. => some (2, 0x22)
  | .frcp .. => some (2, 0x23)
  | .frsq .. => some (2, 0x24)
  | .fsqrt .. => some (2, 0x25)
  | .fexp2 .. => some (2, 0x26)
  | .flog2 .. => some (2, 0x27)
  | .fsin .. => some (2, 0x28)
  | .fcos .. => some (2, 0x29)
  | .faddH2 .. => some (2, 0x2A)
  | .fmulH2 .. => some (2, 0x2B)
  | .ffmaH2 .. => some (2, 0x2C)
  | .faddB2 .. => some (2, 0x2D)
  | .fmulB2 .. => some (2, 0x2E)
  | .ffmaB2 .. => some (2, 0x2F)
  | .cvtF32I32 .. => some (2, 0x30)
  | .cvtF32N32 .. => some (2, 0x31)
  | .cvtI32F32 .. => some (2, 0x32)
  | .cvtN32F32 .. => some (2, 0x33)
  | .cvtF32H2 .. => some (2, 0x34)
  | .cvtH2F32 .. => some (2, 0x35)
  | .cvtF32B2 .. => some (2, 0x36)
  | .cvtB2F32 .. => some (2, 0x37)
  | .cvtF32E4m3 .. => some (2, 0x38)
  | .cvtE4m3F32 .. => some (2, 0x39)
  | .cvtF32E5m2 .. => some (2, 0x3A)
  | .cvtE5m2F32 .. => some (2, 0x3B)
  | .shflIdx .. => some (2, 0x3C)
  | .shflXor .. => some (2, 0x3D)
  | .s2v .. => some (2, 0x3E)
  | .v2s .. => some (2, 0x3F)
  | .vadd .. => some (3, 0x0)
  | .vsub .. => some (3, 0x1)
  | .vmul .. => some (3, 0x2)
  | .vfma .. => some (3, 0x3)
  | .vmin .. => some (3, 0x4)
  | .vmax .. => some (3, 0x5)
  | .vabs .. => some (3, 0x6)
  | .vneg .. => some (3, 0x7)
  | .vcmp .. => some (3, 0x8)
  | .vsel .. => some (3, 0x9)
  | .vand .. => some (3, 0xA)
  | .vor .. => some (3, 0xB)
  | .vxor .. => some (3, 0xC)
  | .vshl .. => some (3, 0xD)
  | .vshrI .. => some (3, 0xE)
  | .vshrN .. => some (3, 0xF)
  | .vmov .. => some (3, 0x10)
  | .vbcast .. => some (3, 0x11)
  | .vrcp .. => some (3, 0x12)
  | .vrsq .. => some (3, 0x13)
  | .vexp2 .. => some (3, 0x14)
  | .vlog2 .. => some (3, 0x15)
  | .vtbli .. => some (3, 0x16)
  | .vtbll .. => some (3, 0x17)
  | .vrmax .. => some (3, 0x18)
  | .vradd .. => some (3, 0x19)
  | .vamax .. => some (3, 0x1A)
  | .vqnt .. => some (3, 0x1B)
  | .vdqnt .. => some (3, 0x1C)
  | .vcvt .. => some (3, 0x1D)
  | .vperm .. => some (3, 0x1E)
  | .vslide .. => some (3, 0x1F)
  | .vpop .. => some (3, 0x20)
  | .vpush .. => some (3, 0x21)
  | .vpopk .. => some (3, 0x22)
  | .vpushs .. => some (3, 0x23)
  | .vshape .. => some (3, 0x24)
  | .vrot .. => some (3, 0x25)
  | .vscale .. => some (3, 0x26)
  | .vrnd .. => some (3, 0x27)
  | .vsqrt .. => some (3, 0x28)
  | .vmadI .. => some (3, 0x29)
  | .vsat .. => some (3, 0x2A)
  | .vpsum .. => some (3, 0x2B)
  | .vclamp .. => some (3, 0x2C)
  | .vfrac .. => some (3, 0x2D)
  | .vcbk .. => some (3, 0x2E)
  | .vkmov .. => some (3, 0x2F)
  | .mldb .. => some (4, 0x0)
  | .mmaBf16 .. => some (4, 0x1)
  | .mmaF16 .. => some (4, 0x2)
  | .mmaE4m3 .. => some (4, 0x3)
  | .mmaE5m2 .. => some (4, 0x4)
  | .mmaMx8 .. => some (4, 0x5)
  | .mmaMx6 .. => some (4, 0x6)
  | .mmaMx4 .. => some (4, 0x7)
  | .mmaI8 .. => some (4, 0x8)
  | .mmaI4 .. => some (4, 0x9)
  | .mmasMx4 .. => some (4, 0xA)
  | .mmasMx8 .. => some (4, 0xB)
  | .mmvMx4 .. => some (4, 0xC)
  | .mmvMx8 .. => some (4, 0xD)
  | .mmvBf16 .. => some (4, 0xE)
  | .mzero .. => some (4, 0xF)
  | .mscale .. => some (4, 0x10)
  | .mcvt .. => some (4, 0x11)
  | .mtest .. => some (4, 0x12)
  | .mfence .. => some (4, 0x13)
  | .mcbk .. => some (4, 0x14)
  | .mtrn .. => some (4, 0x15)
  | .mpair .. => some (4, 0x16)
  | .mfree .. => some (4, 0x17)
  | .ld8 .. => some (5, 0x0)
  | .ld16 .. => some (5, 0x1)
  | .ld32 .. => some (5, 0x2)
  | .ld64 .. => some (5, 0x3)
  | .ld128 .. => some (5, 0x4)
  | .ldx .. => some (5, 0x5)
  | .ldro .. => some (5, 0x6)
  | .st8 .. => some (5, 0x7)
  | .st16 .. => some (5, 0x8)
  | .st32 .. => some (5, 0x9)
  | .st64 .. => some (5, 0xA)
  | .st128 .. => some (5, 0xB)
  | .stx .. => some (5, 0xC)
  | .lds .. => some (5, 0xD)
  | .sts .. => some (5, 0xE)
  | .atomAdd .. => some (5, 0xF)
  | .atomMin .. => some (5, 0x10)
  | .atomMax .. => some (5, 0x11)
  | .atomAnd .. => some (5, 0x12)
  | .atomOr .. => some (5, 0x13)
  | .atomXor .. => some (5, 0x14)
  | .atomXchg .. => some (5, 0x15)
  | .atomCas .. => some (5, 0x16)
  | .atomFadd .. => some (5, 0x17)
  | .atomsAdd .. => some (5, 0x18)
  | .atomsCas .. => some (5, 0x19)
  | .probe .. => some (5, 0x1A)
  | .ldq .. => some (5, 0x1B)
  | .stq .. => some (5, 0x1C)
  | .lda .. => some (5, 0x1D)
  | .sta .. => some (5, 0x1E)
  | .cwb .. => some (5, 0x1F)
  | .cinv .. => some (5, 0x20)
  | .icinv .. => some (5, 0x21)
  | .invRo .. => some (5, 0x22)
  | .tagset .. => some (5, 0x23)
  | .tagget .. => some (5, 0x24)
  | .pres .. => some (5, 0x25)
  | .ldS .. => some (5, 0x26)
  | .atomInc .. => some (5, 0x27)
  | .cpyLin .. => some (6, 0x0)
  | .cpyTen .. => some (6, 0x1)
  | .cpyMc .. => some (6, 0x2)
  | .cpyCol .. => some (6, 0x3)
  | .cpyFill .. => some (6, 0x4)
  | .cpyWb .. => some (6, 0x5)
  | .cpyTs .. => some (6, 0x6)
  | .cpyFeed .. => some (6, 0x7)
  | .publish .. => some (6, 0x8)
  | .shadow .. => some (6, 0x9)
  | .semSig .. => some (6, 0xA)
  | .semWait .. => some (6, 0xB)
  | .semTry .. => some (6, 0xC)
  | .semSet .. => some (6, 0xD)
  | .semRead .. => some (6, 0xE)
  | .push .. => some (6, 0xF)
  | .shape .. => some (6, 0x10)
  | .tokq .. => some (6, 0x11)
  | .mapSet .. => some (6, 0x12)
  | .mapClr .. => some (6, 0x13)
  | .cpyRed .. => some (6, 0x14)
  | .cpyGath .. => some (6, 0x15)
  | .cpyScat .. => some (6, 0x16)
  | .guideBind .. => some (6, 0x17)
  | .linkSend .. => some (6, 0x18)
  | .linkRecv .. => some (6, 0x19)
  | .cpyAbort .. => some (6, 0x1A)
  | .cpyHost .. => some (6, 0x1B)
  | .meshOut .. => some (7, 0x0)
  | .meshPrim .. => some (7, 0x1)
  | .meshDone .. => some (7, 0x2)
  | .rastBind .. => some (7, 0x3)
  | .pixIn .. => some (7, 0x4)
  | .pixBary .. => some (7, 0x5)
  | .pixDiscard .. => some (7, 0x6)
  | .omWrite .. => some (7, 0x7)
  | .omDepth .. => some (7, 0x8)
  | .guideOut .. => some (7, 0x9)
  | .texSample .. => some (7, 0xA)
  | .texLod .. => some (7, 0xB)
  | .texGrad .. => some (7, 0xC)
  | .texFetch .. => some (7, 0xD)
  | .texGather4 .. => some (7, 0xE)
  | .texQuery .. => some (7, 0xF)
  | .rayBox .. => some (7, 0x10)
  | .rayTri .. => some (7, 0x11)
  | .rayInit .. => some (7, 0x12)
  | .rayXform .. => some (7, 0x13)
  | .rayStkPush .. => some (7, 0x14)
  | .rayStkPop .. => some (7, 0x15)
  | .rayHit .. => some (7, 0x16)
  | .imgLd .. => some (7, 0x17)
  | .imgSt .. => some (7, 0x18)
  | .quadSwz .. => some (7, 0x19)
  | .quadDeriv .. => some (7, 0x1A)
  | .launchDispatch .. => none
  | .crewPlacement => none
  | .crewStart .. => none
  | .bundleEnd .. => none
  | .launchCompletion .. => none
  | .activeSetRecompute .. => none
  | .leaseWindowEnd .. => none
  | .runArbitration .. => none
  | .yieldHoldExpiry .. => none
  | .batchTimeout .. => none
  | .groveBarrierDoneMessage .. => none
  | .pageBacking .. => none
  | .pageMigration .. => none
  | .copyUnitTransfer .. => none
  | .copyCompletion .. => none
  | .multicastShareWritten .. => none
  | .feedBlockWrite .. => none
  | .regionFillCompletion .. => none
  | .publishSwap .. => none
  | .remoteAtomicErrorResponse .. => none
  | .matRetire .. => none
  | .matrixSelfTest .. => none
  | .mpairSlave .. => none
  | .executeResultLanding .. => none
  | .scaleLatchDelivery .. => none
  | .taskSequencerPartStart .. => none
  | .loopRecordDoneSignal .. => none
  | .tilePreemptionSave .. => none
  | .tileSetPlacement => none
  | .meshRasterise .. => none
  | .pixelBundleStart .. => none
  | .fragmentMerge .. => none
  | .guideTileSend .. => none
  | .millStep .. => none
  | .millDrainTimeLimit .. => none
  | .millReload .. => none
  | .flumeStep .. => none
  | .preemptionRequest .. => none
  | .saveCommit .. => none
  | .saveSlotDrain .. => none
  | .crewRestore .. => none
  | .splitDrainComplete .. => none
  | .governorRequestArrival .. => none
  | .waittDeadline .. => none
  | .softError .. => none
  | .patrolScrub .. => none
  | .powerManagerWindow .. => none
  | .dieResetTimeLimit .. => none
  | .hostMemoryAccess .. => none
  | .qtailWrite .. => none
  | .qctlWrite .. => none
  | .mbxHostWrite .. => none
  | .govdeadWrite .. => none
  | .evheadWrite .. => none
  | .tsetWrite .. => none
  | .hostRegisterWrite .. => none
  | .createContext .. => none
  | .endContext .. => none
  | .shootDown .. => none
  | .shootDownAcknowledge .. => none
  | .addPoolFrames .. => none
  | .dieBeadAllocate .. => none
  | .dieBeadFree .. => none
  | .linkStreamAllocate .. => none
  | .linkStreamFree .. => none
  | .debugRetry .. => none
  | .debugSkip .. => none
  | .debugAbort .. => none
  | .computeReset .. => none
  | .powerOff .. => none
  | .writeMtcfg .. => none
  | .hostCopyToDevice .. => none
  | .hostCopyToHost .. => none
  | .installNodeTable .. => none
  | .installRecordPool .. => none
  | .attestationRequest .. => none
  | .identityCertificateRequest => none
  | .fenceAddendum .. => none
  | .errorLogRead .. => none
  | .captureOn .. => none
  | .captureOff .. => none
  | .imageWrite .. => none
  | .powerGood => none
  | .ptpMessage .. => none
  | .linkDataFrame .. => none
  | .linkAckFrame .. => none
  | .linkCreditFrame .. => none
  | .linkRetransmitTimeout .. => none
  | .foreignFrame .. => none
  | .railOutOfRange .. => none
  | .bypass => none
  | .idcode => none
  | .samplePreload => none
  | .extest => none
  | .portUp .. => none
  | .railInRange .. => none
  | .powerLoss .. => none
  | .timeLockLost => none

/-! Packing the operand fields of each format (01 R16). -/

def packA (d a b : BitVec 6) (m : Bool) : BitVec 19 := d ++ a ++ b ++ BitVec.ofBool m
def packI (d a : BitVec 6) (imm7 : BitVec 7) : BitVec 19 := d ++ a ++ imm7
def packC (kind : Bool) (c : BitVec 6) (n : Bool) (off : BitVec 11) : BitVec 19 :=
  BitVec.ofBool kind ++ c ++ BitVec.ofBool n ++ off
def packD (d a : BitVec 6) (lb : Bool) (off : BitVec 6) : BitVec 19 := d ++ a ++ BitVec.ofBool lb ++ off
def packE (reg : BitVec 12) (s : BitVec 6) : BitVec 19 := reg ++ s ++ (0 : BitVec 1)
def packV (d a b : BitVec 5) (k : BitVec 3) (m : Bool) : BitVec 19 := d ++ a ++ b ++ k ++ BitVec.ofBool m
def packM (row1 : BitVec 9) (col1 : BitVec 5) (pr sat sa sb : Bool) : BitVec 19 :=
  row1 ++ col1 ++ BitVec.ofBool pr ++ BitVec.ofBool sat ++ BitVec.ofBool sa ++ BitVec.ofBool sb ++ (0 : BitVec 1)

/-- The guarded extension (01 R15). -/
def packGuard (g : Guard) (hi : BitVec 25) : Word := g.pg ++ BitVec.ofBool g.neg ++ (0 : BitVec 3) ++ hi
/-- The extension of Format T (01 R16). -/
def packT (sc : BitVec 3) (ord : BitVec 2) (un : Bool) (off : BitVec 19) : BitVec 25 :=
  sc ++ ord ++ BitVec.ofBool un ++ off
/-- The extension of Format M (01 R16). -/
def packMX (row2 : BitVec 9) (col2 : BitVec 5) (aux : BitVec 6) (t : MatTail) : Word :=
  row2 ++ col2 ++ aux ++ BitVec.ofBool t.te ++ t.tok ++ t.wm
/-- The extension of Format Y (01 R16). -/
def packYX (t : CopyTail) (aux : BitVec 13) : Word :=
  t.bead ++ BitVec.ofBool t.bs ++ aux ++ BitVec.ofBool t.te ++ t.tok ++ t.wm

/-- The first word from its fields (01 R11). -/
def packWord (stop runEnd : Bool) (c : BitVec 3) (long : Bool) (op : BitVec 7) (ops : BitVec 19) : Word :=
  BitVec.ofBool stop ++ BitVec.ofBool runEnd ++ c ++ BitVec.ofBool long ++ op ++ ops

/-- The short field of an immediate or an offset: zero under a plain extension (01 R15). -/
def shortPlain (n : Nat) (long : Bool) (v : BitVec 32) : BitVec n := if long then 0 else v.setWidth n

/-- The operand field of the first word (01 R16). -/
def Instr.operands (i : Instr) (l : Bool) : BitVec 19 :=
  match i with
  | .nop => packA 0 0 0 false
  | .bra off => shortPlain 19 l off
  | .brac kind c n off => packC kind c n (shortPlain 11 l off)
  | .brx a m => packA 0 a 0 m
  | .call off => shortPlain 19 l off
  | .ret a => packA 0 a 0 false
  | .loop a imm => packI 0 a (shortPlain 7 l imm)
  | .loopi cnt imm => packI (cnt.extractLsb' 6 6) (cnt.extractLsb' 0 6) (shortPlain 7 l imm)
  | .voteAny d a m => packA d ((0 : BitVec 3) ++ a) 0 m
  | .voteAll d a => packA d ((0 : BitVec 3) ++ a) 0 false
  | .barCrew imm => packI 0 0 (shortPlain 7 l imm)
  | .barGrove imm => packI 0 0 (shortPlain 7 l imm)
  | .barArrive d a imm => packI d a (shortPlain 7 l imm)
  | .barWait d a imm => packI d a (shortPlain 7 l imm)
  | .wait imm => packI 0 0 (shortPlain 7 l imm)
  | .waitt a m => packA 0 a 0 m
  | .fence imm => packI 0 0 (shortPlain 7 l imm)
  | .fencePromote imm => packI 0 0 (shortPlain 7 l imm)
  | .fenceI => packA 0 0 0 false
  | .trap imm => packI 0 0 (shortPlain 7 l imm)
  | .chk d a => packA d a 0 false
  | .region off => shortPlain 19 l off
  | .exit => packA 0 0 0 false
  | .yield => packA 0 0 0 false
  | .lease d a imm => packI d a (shortPlain 7 l imm)
  | .split d imm => packI d 0 (shortPlain 7 l imm)
  | .launch d a => packA d a 0 false
  | .reca d a => packA d a 0 false
  | .remit a => packA 0 a 0 false
  | .rdone a => packA 0 a 0 false
  | .millCfg d a => packA d a 0 false
  | .millEnter => packA 0 0 0 false
  | .millExit d => packA d 0 0 false
  | .fsend d a => packA ((0 : BitVec 2) ++ d) a 0 false
  | .fsendNb d a b => packA ((0 : BitVec 2) ++ d) a ((0 : BitVec 3) ++ b) false
  | .ftake d a => packA d ((0 : BitVec 2) ++ a) 0 false
  | .sread reg s => packE reg s
  | .swrite reg s => packE reg s
  | .govq d a => packA d a 0 false
  | .govr a m => packA 0 a 0 m
  | .bkpt imm => packI 0 0 (shortPlain 7 l imm)
  | .add d a b => packA d a b false
  | .addi d a imm => packI d a (shortPlain 7 l imm)
  | .sub d a b => packA d a b false
  | .mul d a b => packA d a b false
  | .mulhI d a b => packA d a b false
  | .mulhN d a b => packA d a b false
  | .divI d a b => packA d a b false
  | .divN d a b => packA d a b false
  | .remI d a b => packA d a b false
  | .remN d a b => packA d a b false
  | .and d a b => packA d a b false
  | .or d a b => packA d a b false
  | .xor d a b => packA d a b false
  | .andi d a imm => packI d a (shortPlain 7 l imm)
  | .ori d a imm => packI d a (shortPlain 7 l imm)
  | .xori d a imm => packI d a (shortPlain 7 l imm)
  | .shl d a b => packA d a b false
  | .shrI d a b => packA d a b false
  | .shrN d a b => packA d a b false
  | .rot d a b => packA d a b false
  | .minI d a b => packA d a b false
  | .minN d a b => packA d a b false
  | .maxI d a b => packA d a b false
  | .maxN d a b => packA d a b false
  | .abs d a => packA d a 0 false
  | .neg d a => packA d a 0 false
  | .cmp d a b m => packA d a b m
  | .cmpp cc tg a b => packA (cc ++ tg) a b false
  | .sel d a b => packA d a b false
  | .mov d a => packA d a 0 false
  | .movi d imm => packI d 0 (shortPlain 7 l imm)
  | .movh d a imm => packI d a (shortPlain 7 l imm)
  | .lea d a b m => packA d a b m
  | .popc d a => packA d a 0 false
  | .clz d a => packA d a 0 false
  | .ctz d a => packA d a 0 false
  | .bfxI d a b => packA d a b false
  | .bfxN d a b => packA d a b false
  | .bfi d a b => packA d a b false
  | .brev d a => packA d a 0 false
  | .mad d a b => packA d a b false
  | .addsI d a b => packA d a b false
  | .addsN d a b => packA d a b false
  | .subsI d a b => packA d a b false
  | .subsN d a b => packA d a b false
  | .mbx d a imm => packI d a (shortPlain 7 l imm)
  | .time d => packA d 0 0 false
  | .wid d imm => packI d 0 (shortPlain 7 l imm)
  | .iadd _ d a b m => packA d a b m
  | .iaddi _ d a imm => packI d a (imm.extractLsb' 0 7)
  | .isub _ d a b m => packA d a b m
  | .imul _ d a b => packA d a b false
  | .imad _ d a b => packA d a b false
  | .imulhI _ d a b => packA d a b false
  | .imulhN _ d a b => packA d a b false
  | .iminI _ d a b => packA d a b false
  | .iminN _ d a b => packA d a b false
  | .imaxI _ d a b => packA d a b false
  | .imaxN _ d a b => packA d a b false
  | .iand _ d a b => packA d a b false
  | .ior _ d a b => packA d a b false
  | .ixor _ d a b => packA d a b false
  | .ishl _ d a b => packA d a b false
  | .ishrI _ d a b => packA d a b false
  | .ishrN _ d a b => packA d a b false
  | .ibfxI _ d a b => packA d a b false
  | .ibfxN _ d a b => packA d a b false
  | .ibfi _ d a b => packA d a b false
  | .ipopc _ d a => packA d a 0 false
  | .iclz _ d a => packA d a 0 false
  | .icmp _ cc tg a b => packA (cc ++ tg) a b false
  | .isel _ d a b => packA d a b false
  | .imov _ d a => packA d a 0 false
  | .imovi _ d imm => packI d 0 (imm.extractLsb' 0 7)
  | .idot4I8 _ d a b m => packA d a b m
  | .idot4N8 _ d a b m => packA d a b m
  | .faddF32 _ d a b => packA d a b false
  | .fmulF32 _ d a b => packA d a b false
  | .ffmaF32 _ d a b => packA d a b false
  | .fminF32 _ d a b m => packA d a b m
  | .fmaxF32 _ d a b m => packA d a b m
  | .fcmpF32 _ cc tg a b => packA (cc ++ tg) a b false
  | .frndF32 _ d a b => packA d a ((0 : BitVec 3) ++ b) false
  | .frcp _ d a => packA d a 0 false
  | .frsq _ d a => packA d a 0 false
  | .fsqrt _ d a => packA d a 0 false
  | .fexp2 _ d a => packA d a 0 false
  | .flog2 _ d a => packA d a 0 false
  | .fsin _ d a => packA d a 0 false
  | .fcos _ d a => packA d a 0 false
  | .faddH2 _ d a b => packA d a b false
  | .fmulH2 _ d a b => packA d a b false
  | .ffmaH2 _ d a b => packA d a b false
  | .faddB2 _ d a b => packA d a b false
  | .fmulB2 _ d a b => packA d a b false
  | .ffmaB2 _ d a b => packA d a b false
  | .cvtF32I32 _ d a => packA d a 0 false
  | .cvtF32N32 _ d a => packA d a 0 false
  | .cvtI32F32 _ d a b => packA d a ((0 : BitVec 3) ++ b) false
  | .cvtN32F32 _ d a b => packA d a ((0 : BitVec 3) ++ b) false
  | .cvtF32H2 _ d a m => packA d a 0 m
  | .cvtH2F32 _ d a b => packA d a b false
  | .cvtF32B2 _ d a m => packA d a 0 m
  | .cvtB2F32 _ d a b => packA d a b false
  | .cvtF32E4m3 _ d a b => packA d a ((0 : BitVec 4) ++ b) false
  | .cvtE4m3F32 _ d a b => packA d a ((0 : BitVec 4) ++ b) false
  | .cvtF32E5m2 _ d a b => packA d a ((0 : BitVec 4) ++ b) false
  | .cvtE5m2F32 _ d a b => packA d a ((0 : BitVec 4) ++ b) false
  | .shflIdx _ d a b => packA d a b false
  | .shflXor _ d a b => packA d a b false
  | .s2v _ d a m => packA d a 0 m
  | .v2s _ d a b m => packA d a b m
  | .vadd d a b k m => packV d a b k m
  | .vsub d a b k m => packV d a b k m
  | .vmul d a b k m => packV d a b k m
  | .vfma d a b k m => packV d a b k m
  | .vmin d a b k m => packV d a b k m
  | .vmax d a b k m => packV d a b k m
  | .vabs d a k m => packV d a 0 k m
  | .vneg d a k m => packV d a 0 k m
  | .vcmp d a b k => packV d a b k false
  | .vsel d a b k m => packV d a b k m
  | .vand d a b k m => packV d a b k m
  | .vor d a b k m => packV d a b k m
  | .vxor d a b k m => packV d a b k m
  | .vshl d a b k m => packV d a b k m
  | .vshrI d a b k m => packV d a b k m
  | .vshrN d a b k m => packV d a b k m
  | .vmov d a k m => packV d a 0 k m
  | .vbcast d a b k m => packV d a b k m
  | .vrcp d a k m => packV d a 0 k m
  | .vrsq d a k m => packV d a 0 k m
  | .vexp2 d a k m => packV d a 0 k m
  | .vlog2 d a k m => packV d a 0 k m
  | .vtbli d a b k m => packV d a b k m
  | .vtbll a b => packV 0 a ((0 : BitVec 2) ++ b) 0 false
  | .vrmax d a k => packV d a 0 k false
  | .vradd d a k => packV d a 0 k false
  | .vamax d a k => packV d a 0 k false
  | .vqnt d a b k m => packV d a b k m
  | .vdqnt d a b k m => packV d a b k m
  | .vcvt d a b k m => packV d a b k m
  | .vperm d a b k m => packV d a b k m
  | .vslide d a b k m => packV d a b k m
  | .vpop d a => packV d ((0 : BitVec 3) ++ a) 0 0 false
  | .vpush d a => packV d a 0 0 false
  | .vpopk d a => packV ((0 : BitVec 2) ++ d) ((0 : BitVec 3) ++ a) 0 0 false
  | .vpushs d a k => packV d a 0 k false
  | .vshape d a b k m => packV d a b k m
  | .vrot d a b k m => packV d a b k m
  | .vscale d a b k m => packV d a b k m
  | .vrnd d a b k m => packV d a b k m
  | .vsqrt d a k m => packV d a 0 k m
  | .vmadI d a b k m => packV d a b k m
  | .vsat d a b k m => packV d a b k m
  | .vpsum d a k m => packV d a 0 k m
  | .vclamp d a b k m => packV d a b k m
  | .vfrac d a k m => packV d a 0 k m
  | .vcbk a => packV 0 a 0 0 false
  | .vkmov op t a b => packV (op ++ t) ((0 : BitVec 2) ++ a) ((0 : BitVec 2) ++ b) 0 false
  | .mldb _ _ pr _ _ => packM 0 0 pr false false false
  | .mmaBf16 row1 _ _ pr _ => packM row1 0 pr false false false
  | .mmaF16 row1 _ _ pr _ => packM row1 0 pr false false false
  | .mmaE4m3 row1 _ _ pr _ => packM row1 0 pr false false false
  | .mmaE5m2 row1 _ _ pr _ => packM row1 0 pr false false false
  | .mmaMx8 row1 _ _ pr _ _ => packM row1 0 pr false false false
  | .mmaMx6 row1 _ _ pr _ _ => packM row1 0 pr false false false
  | .mmaMx4 row1 _ _ pr _ _ => packM row1 0 pr false false false
  | .mmaI8 row1 _ _ pr sat sa sb _ => packM row1 0 pr sat sa sb
  | .mmaI4 row1 _ _ pr sat sa sb _ => packM row1 0 pr sat sa sb
  | .mmasMx4 row1 _ _ pr _ _ => packM row1 0 pr false false false
  | .mmasMx8 row1 _ _ pr _ _ => packM row1 0 pr false false false
  | .mmvMx4 row1 col1 _ _ pr _ _ _ => packM row1 col1 pr false false false
  | .mmvMx8 row1 col1 _ _ pr _ _ _ => packM row1 col1 pr false false false
  | .mmvBf16 row1 col1 _ _ pr _ _ => packM row1 col1 pr false false false
  | .mzero row1 col1 pr _ _ => packM row1 col1 pr false false false
  | .mscale row1 _ pr _ => packM row1 0 pr false false false
  | .mcvt row1 col1 _ pr _ _ _ => packM row1 col1 pr false false false
  | .mtest row1 col1 _ => packM row1 col1 false false false false
  | .mfence _ => packM 0 0 false false false false
  | .mcbk _ _ pr _ _ => packM 0 0 pr false false false
  | .mtrn row1 col1 _ _ _ _ => packM row1 col1 false false false false
  | .mpair _ _ => packM 0 0 false false false false
  | .mfree _ => packM 0 0 false false false false
  | .ld8 _ d a lb off => packD d a lb (off.extractLsb' 0 6)
  | .ld16 _ d a lb off => packD d a lb (off.extractLsb' 0 6)
  | .ld32 _ d a lb off => packD d a lb (off.extractLsb' 0 6)
  | .ld64 _ d a lb off => packD d a lb (off.extractLsb' 0 6)
  | .ld128 _ d a lb off => packD d a lb (off.extractLsb' 0 6)
  | .ldx _ d a lb off => packD d a lb (off.extractLsb' 0 6)
  | .ldro _ d a lb off => packD d a lb (off.extractLsb' 0 6)
  | .st8 _ d a lb off => packD d a lb (off.extractLsb' 0 6)
  | .st16 _ d a lb off => packD d a lb (off.extractLsb' 0 6)
  | .st32 _ d a lb off => packD d a lb (off.extractLsb' 0 6)
  | .st64 _ d a lb off => packD d a lb (off.extractLsb' 0 6)
  | .st128 _ d a lb off => packD d a lb (off.extractLsb' 0 6)
  | .stx _ d a lb off => packD d a lb (off.extractLsb' 0 6)
  | .lds _ d a lb off => packD d a lb (off.extractLsb' 0 6)
  | .sts _ d a lb off => packD d a lb (off.extractLsb' 0 6)
  | .atomAdd _ d a b lb _ _ _ _ => packA d a b lb
  | .atomMin _ d a b lb _ _ _ _ => packA d a b lb
  | .atomMax _ d a b lb _ _ _ _ => packA d a b lb
  | .atomAnd _ d a b lb _ _ _ _ => packA d a b lb
  | .atomOr _ d a b lb _ _ _ _ => packA d a b lb
  | .atomXor _ d a b lb _ _ _ _ => packA d a b lb
  | .atomXchg _ d a b lb _ _ _ _ => packA d a b lb
  | .atomCas _ d a b lb _ _ _ _ => packA d a b lb
  | .atomFadd _ d a b lb _ _ _ _ => packA d a b lb
  | .atomsAdd _ d a b lb _ _ _ _ => packA d a b lb
  | .atomsCas _ d a b lb _ _ _ _ => packA d a b lb
  | .probe _ a b m => packA 0 a b m
  | .ldq _ d a lb off => packD d a lb (off.extractLsb' 0 6)
  | .stq _ d a lb off => packD d a lb (off.extractLsb' 0 6)
  | .lda _ d a lb off => packD d a lb (off.extractLsb' 0 6)
  | .sta _ d a lb off => packD d a lb (off.extractLsb' 0 6)
  | .cwb _ a b m => packA 0 a b m
  | .cinv _ a b m => packA 0 a b m
  | .icinv _ a b m => packA 0 a b m
  | .invRo _ => packA 0 0 0 false
  | .tagset _ a lb off => packD 0 a lb (off.extractLsb' 0 6)
  | .tagget _ d a lb off => packD d a lb (off.extractLsb' 0 6)
  | .pres _ d a lb off => packD d a lb (off.extractLsb' 0 6)
  | .ldS _ d a lb off => packD d a lb (off.extractLsb' 0 6)
  | .atomInc _ d a b lb _ _ _ _ => packA d a b lb
  | .cpyLin a b c m _ => packA a b c m
  | .cpyTen a b c m _ _ => packA a b c m
  | .cpyMc a b c m _ => packA a b c m
  | .cpyCol a b c _ => packA a b c false
  | .cpyFill a c _ => packA a 0 c false
  | .cpyWb _ _ => packA 0 0 0 false
  | .cpyTs a b c m _ _ _ => packA a b c m
  | .cpyFeed a b c _ _ _ => packA a b c false
  | .publish a _ => packA a 0 0 false
  | .shadow a b _ => packA a b 0 false
  | .semSig a b m _ => packA a b 0 m
  | .semWait a b m _ => packA a b 0 m
  | .semTry a b c m _ => packA a b c m
  | .semSet a b m _ => packA a b 0 m
  | .semRead a c m _ => packA a 0 c m
  | .push a b c m _ _ => packA a b c m
  | .shape a _ _ => packA a 0 0 false
  | .tokq _ => packA 0 0 0 false
  | .mapSet a b _ _ => packA a b 0 false
  | .mapClr _ _ => packA 0 0 0 false
  | .cpyRed a b c _ _ _ => packA a b c false
  | .cpyGath a b c _ _ => packA a b c false
  | .cpyScat a b c _ _ => packA a b c false
  | .guideBind a b c _ => packA a b c false
  | .linkSend a b c _ => packA a b c false
  | .linkRecv a b c _ => packA a b c false
  | .cpyAbort _ => packA 0 0 0 false
  | .cpyHost a b c m _ => packA a b c m
  | .meshOut _ d a b => packA d a b false
  | .meshPrim _ d a => packA d a 0 false
  | .meshDone _ a b => packA 0 a b false
  | .rastBind _ a imm => packI 0 a (imm.extractLsb' 0 7)
  | .pixIn _ d imm => packI d 0 (imm.extractLsb' 0 7)
  | .pixBary _ d b m => packA d 0 b m
  | .pixDiscard _ => packA 0 0 0 false
  | .omWrite _ a imm => packI 0 a (imm.extractLsb' 0 7)
  | .omDepth _ a => packA 0 a 0 false
  | .guideOut _ a => packA 0 a 0 false
  | .texSample _ d a b => packA d a b false
  | .texLod _ d a b => packA d a b false
  | .texGrad _ d a b => packA d a b false
  | .texFetch _ d a b => packA d a b false
  | .texGather4 _ d a b => packA d a b false
  | .texQuery _ d a imm => packI d a (imm.extractLsb' 0 7)
  | .rayBox _ d a b => packA d a b false
  | .rayTri _ d a b => packA d a b false
  | .rayInit _ d a => packA d a 0 false
  | .rayXform _ d a b m => packA d a b m
  | .rayStkPush _ d a => packA d a 0 false
  | .rayStkPop _ d a => packA d a 0 false
  | .rayHit _ d a => packA d a 0 false
  | .imgLd _ d a lb off => packD d a lb (off.extractLsb' 0 6)
  | .imgSt _ d a lb off => packD d a lb (off.extractLsb' 0 6)
  | .quadSwz _ d a imm => packI d a (imm.extractLsb' 0 7)
  | .quadDeriv _ d a imm => packI d a (imm.extractLsb' 0 7)
  | .launchDispatch .. => 0
  | .crewPlacement => 0
  | .crewStart .. => 0
  | .bundleEnd .. => 0
  | .launchCompletion .. => 0
  | .activeSetRecompute .. => 0
  | .leaseWindowEnd .. => 0
  | .runArbitration .. => 0
  | .yieldHoldExpiry .. => 0
  | .batchTimeout .. => 0
  | .groveBarrierDoneMessage .. => 0
  | .pageBacking .. => 0
  | .pageMigration .. => 0
  | .copyUnitTransfer .. => 0
  | .copyCompletion .. => 0
  | .multicastShareWritten .. => 0
  | .feedBlockWrite .. => 0
  | .regionFillCompletion .. => 0
  | .publishSwap .. => 0
  | .remoteAtomicErrorResponse .. => 0
  | .matRetire .. => 0
  | .matrixSelfTest .. => 0
  | .mpairSlave .. => 0
  | .executeResultLanding .. => 0
  | .scaleLatchDelivery .. => 0
  | .taskSequencerPartStart .. => 0
  | .loopRecordDoneSignal .. => 0
  | .tilePreemptionSave .. => 0
  | .tileSetPlacement => 0
  | .meshRasterise .. => 0
  | .pixelBundleStart .. => 0
  | .fragmentMerge .. => 0
  | .guideTileSend .. => 0
  | .millStep .. => 0
  | .millDrainTimeLimit .. => 0
  | .millReload .. => 0
  | .flumeStep .. => 0
  | .preemptionRequest .. => 0
  | .saveCommit .. => 0
  | .saveSlotDrain .. => 0
  | .crewRestore .. => 0
  | .splitDrainComplete .. => 0
  | .governorRequestArrival .. => 0
  | .waittDeadline .. => 0
  | .softError .. => 0
  | .patrolScrub .. => 0
  | .powerManagerWindow .. => 0
  | .dieResetTimeLimit .. => 0
  | .hostMemoryAccess .. => 0
  | .qtailWrite .. => 0
  | .qctlWrite .. => 0
  | .mbxHostWrite .. => 0
  | .govdeadWrite .. => 0
  | .evheadWrite .. => 0
  | .tsetWrite .. => 0
  | .hostRegisterWrite .. => 0
  | .createContext .. => 0
  | .endContext .. => 0
  | .shootDown .. => 0
  | .shootDownAcknowledge .. => 0
  | .addPoolFrames .. => 0
  | .dieBeadAllocate .. => 0
  | .dieBeadFree .. => 0
  | .linkStreamAllocate .. => 0
  | .linkStreamFree .. => 0
  | .debugRetry .. => 0
  | .debugSkip .. => 0
  | .debugAbort .. => 0
  | .computeReset .. => 0
  | .powerOff .. => 0
  | .writeMtcfg .. => 0
  | .hostCopyToDevice .. => 0
  | .hostCopyToHost .. => 0
  | .installNodeTable .. => 0
  | .installRecordPool .. => 0
  | .attestationRequest .. => 0
  | .identityCertificateRequest => 0
  | .fenceAddendum .. => 0
  | .errorLogRead .. => 0
  | .captureOn .. => 0
  | .captureOff .. => 0
  | .imageWrite .. => 0
  | .powerGood => 0
  | .ptpMessage .. => 0
  | .linkDataFrame .. => 0
  | .linkAckFrame .. => 0
  | .linkCreditFrame .. => 0
  | .linkRetransmitTimeout .. => 0
  | .foreignFrame .. => 0
  | .railOutOfRange .. => 0
  | .bypass => 0
  | .idcode => 0
  | .samplePreload => 0
  | .extest => 0
  | .portUp .. => 0
  | .railInRange .. => 0
  | .powerLoss .. => 0
  | .timeLockLost => 0

/-- The extension word of the long form (01 R15, R16). -/
def Instr.extension (i : Instr) : Word :=
  match i with
  | .nop => 0
  | .bra off => off
  | .brac _ _ _ off => off
  | .brx _ _ => 0
  | .call off => off
  | .ret _ => 0
  | .loop _ imm => imm
  | .loopi _ imm => imm
  | .voteAny _ _ _ => 0
  | .voteAll _ _ => 0
  | .barCrew imm => imm
  | .barGrove imm => imm
  | .barArrive _ _ imm => imm
  | .barWait _ _ imm => imm
  | .wait imm => imm
  | .waitt _ _ => 0
  | .fence imm => imm
  | .fencePromote imm => imm
  | .fenceI => 0
  | .trap imm => imm
  | .chk _ _ => 0
  | .region off => off
  | .exit => 0
  | .yield => 0
  | .lease _ _ imm => imm
  | .split _ imm => imm
  | .launch _ _ => 0
  | .reca _ _ => 0
  | .remit _ => 0
  | .rdone _ => 0
  | .millCfg _ _ => 0
  | .millEnter => 0
  | .millExit _ => 0
  | .fsend _ _ => 0
  | .fsendNb _ _ _ => 0
  | .ftake _ _ => 0
  | .sread _ _ => 0
  | .swrite _ _ => 0
  | .govq _ _ => 0
  | .govr _ _ => 0
  | .bkpt imm => imm
  | .add _ _ _ => 0
  | .addi _ _ imm => imm
  | .sub _ _ _ => 0
  | .mul _ _ _ => 0
  | .mulhI _ _ _ => 0
  | .mulhN _ _ _ => 0
  | .divI _ _ _ => 0
  | .divN _ _ _ => 0
  | .remI _ _ _ => 0
  | .remN _ _ _ => 0
  | .and _ _ _ => 0
  | .or _ _ _ => 0
  | .xor _ _ _ => 0
  | .andi _ _ imm => imm
  | .ori _ _ imm => imm
  | .xori _ _ imm => imm
  | .shl _ _ _ => 0
  | .shrI _ _ _ => 0
  | .shrN _ _ _ => 0
  | .rot _ _ _ => 0
  | .minI _ _ _ => 0
  | .minN _ _ _ => 0
  | .maxI _ _ _ => 0
  | .maxN _ _ _ => 0
  | .abs _ _ => 0
  | .neg _ _ => 0
  | .cmp _ _ _ _ => 0
  | .cmpp _ _ _ _ => 0
  | .sel _ _ _ => 0
  | .mov _ _ => 0
  | .movi _ imm => imm
  | .movh _ _ imm => imm
  | .lea _ _ _ _ => 0
  | .popc _ _ => 0
  | .clz _ _ => 0
  | .ctz _ _ => 0
  | .bfxI _ _ _ => 0
  | .bfxN _ _ _ => 0
  | .bfi _ _ _ => 0
  | .brev _ _ => 0
  | .mad _ _ _ => 0
  | .addsI _ _ _ => 0
  | .addsN _ _ _ => 0
  | .subsI _ _ _ => 0
  | .subsN _ _ _ => 0
  | .mbx _ _ imm => imm
  | .time _ => 0
  | .wid _ imm => imm
  | .iadd g _ _ _ _ => packGuard g 0
  | .iaddi g _ _ imm => packGuard g (imm.extractLsb' 7 25)
  | .isub g _ _ _ _ => packGuard g 0
  | .imul g _ _ _ => packGuard g 0
  | .imad g _ _ _ => packGuard g 0
  | .imulhI g _ _ _ => packGuard g 0
  | .imulhN g _ _ _ => packGuard g 0
  | .iminI g _ _ _ => packGuard g 0
  | .iminN g _ _ _ => packGuard g 0
  | .imaxI g _ _ _ => packGuard g 0
  | .imaxN g _ _ _ => packGuard g 0
  | .iand g _ _ _ => packGuard g 0
  | .ior g _ _ _ => packGuard g 0
  | .ixor g _ _ _ => packGuard g 0
  | .ishl g _ _ _ => packGuard g 0
  | .ishrI g _ _ _ => packGuard g 0
  | .ishrN g _ _ _ => packGuard g 0
  | .ibfxI g _ _ _ => packGuard g 0
  | .ibfxN g _ _ _ => packGuard g 0
  | .ibfi g _ _ _ => packGuard g 0
  | .ipopc g _ _ => packGuard g 0
  | .iclz g _ _ => packGuard g 0
  | .icmp g _ _ _ _ => packGuard g 0
  | .isel g _ _ _ => packGuard g 0
  | .imov g _ _ => packGuard g 0
  | .imovi g _ imm => packGuard g (imm.extractLsb' 7 25)
  | .idot4I8 g _ _ _ _ => packGuard g 0
  | .idot4N8 g _ _ _ _ => packGuard g 0
  | .faddF32 g _ _ _ => packGuard g 0
  | .fmulF32 g _ _ _ => packGuard g 0
  | .ffmaF32 g _ _ _ => packGuard g 0
  | .fminF32 g _ _ _ _ => packGuard g 0
  | .fmaxF32 g _ _ _ _ => packGuard g 0
  | .fcmpF32 g _ _ _ _ => packGuard g 0
  | .frndF32 g _ _ _ => packGuard g 0
  | .frcp g _ _ => packGuard g 0
  | .frsq g _ _ => packGuard g 0
  | .fsqrt g _ _ => packGuard g 0
  | .fexp2 g _ _ => packGuard g 0
  | .flog2 g _ _ => packGuard g 0
  | .fsin g _ _ => packGuard g 0
  | .fcos g _ _ => packGuard g 0
  | .faddH2 g _ _ _ => packGuard g 0
  | .fmulH2 g _ _ _ => packGuard g 0
  | .ffmaH2 g _ _ _ => packGuard g 0
  | .faddB2 g _ _ _ => packGuard g 0
  | .fmulB2 g _ _ _ => packGuard g 0
  | .ffmaB2 g _ _ _ => packGuard g 0
  | .cvtF32I32 g _ _ => packGuard g 0
  | .cvtF32N32 g _ _ => packGuard g 0
  | .cvtI32F32 g _ _ _ => packGuard g 0
  | .cvtN32F32 g _ _ _ => packGuard g 0
  | .cvtF32H2 g _ _ _ => packGuard g 0
  | .cvtH2F32 g _ _ _ => packGuard g 0
  | .cvtF32B2 g _ _ _ => packGuard g 0
  | .cvtB2F32 g _ _ _ => packGuard g 0
  | .cvtF32E4m3 g _ _ _ => packGuard g 0
  | .cvtE4m3F32 g _ _ _ => packGuard g 0
  | .cvtF32E5m2 g _ _ _ => packGuard g 0
  | .cvtE5m2F32 g _ _ _ => packGuard g 0
  | .shflIdx g _ _ _ => packGuard g 0
  | .shflXor g _ _ _ => packGuard g 0
  | .s2v g _ _ _ => packGuard g 0
  | .v2s g _ _ _ _ => packGuard g 0
  | .vadd _ _ _ _ _ => 0
  | .vsub _ _ _ _ _ => 0
  | .vmul _ _ _ _ _ => 0
  | .vfma _ _ _ _ _ => 0
  | .vmin _ _ _ _ _ => 0
  | .vmax _ _ _ _ _ => 0
  | .vabs _ _ _ _ => 0
  | .vneg _ _ _ _ => 0
  | .vcmp _ _ _ _ => 0
  | .vsel _ _ _ _ _ => 0
  | .vand _ _ _ _ _ => 0
  | .vor _ _ _ _ _ => 0
  | .vxor _ _ _ _ _ => 0
  | .vshl _ _ _ _ _ => 0
  | .vshrI _ _ _ _ _ => 0
  | .vshrN _ _ _ _ _ => 0
  | .vmov _ _ _ _ => 0
  | .vbcast _ _ _ _ _ => 0
  | .vrcp _ _ _ _ => 0
  | .vrsq _ _ _ _ => 0
  | .vexp2 _ _ _ _ => 0
  | .vlog2 _ _ _ _ => 0
  | .vtbli _ _ _ _ _ => 0
  | .vtbll _ _ => 0
  | .vrmax _ _ _ => 0
  | .vradd _ _ _ => 0
  | .vamax _ _ _ => 0
  | .vqnt _ _ _ _ _ => 0
  | .vdqnt _ _ _ _ _ => 0
  | .vcvt _ _ _ _ _ => 0
  | .vperm _ _ _ _ _ => 0
  | .vslide _ _ _ _ _ => 0
  | .vpop _ _ => 0
  | .vpush _ _ => 0
  | .vpopk _ _ => 0
  | .vpushs _ _ _ => 0
  | .vshape _ _ _ _ _ => 0
  | .vrot _ _ _ _ _ => 0
  | .vscale _ _ _ _ _ => 0
  | .vrnd _ _ _ _ _ => 0
  | .vsqrt _ _ _ _ => 0
  | .vmadI _ _ _ _ _ => 0
  | .vsat _ _ _ _ _ => 0
  | .vpsum _ _ _ _ => 0
  | .vclamp _ _ _ _ _ => 0
  | .vfrac _ _ _ _ => 0
  | .vcbk _ => 0
  | .vkmov _ _ _ _ => 0
  | .mldb row2 col2 _ wide t => packMX row2 col2 ((0 : BitVec 5) ++ BitVec.ofBool wide) t
  | .mmaBf16 _ row2 col2 _ t => packMX row2 col2 0 t
  | .mmaF16 _ row2 col2 _ t => packMX row2 col2 0 t
  | .mmaE4m3 _ row2 col2 _ t => packMX row2 col2 0 t
  | .mmaE5m2 _ row2 col2 _ t => packMX row2 col2 0 t
  | .mmaMx8 _ row2 col2 _ el t => packMX row2 col2 ((0 : BitVec 4) ++ el) t
  | .mmaMx6 _ row2 col2 _ el t => packMX row2 col2 ((0 : BitVec 5) ++ el) t
  | .mmaMx4 _ row2 col2 _ el t => packMX row2 col2 ((0 : BitVec 5) ++ el) t
  | .mmaI8 _ row2 col2 _ _ _ _ t => packMX row2 col2 0 t
  | .mmaI4 _ row2 col2 _ _ _ _ t => packMX row2 col2 0 t
  | .mmasMx4 _ row2 col2 _ el t => packMX row2 col2 ((0 : BitVec 5) ++ el) t
  | .mmasMx8 _ row2 col2 _ el t => packMX row2 col2 ((0 : BitVec 4) ++ el) t
  | .mmvMx4 _ _ row2 col2 _ sl ec t => packMX row2 col2 (ec ++ sl) t
  | .mmvMx8 _ _ row2 col2 _ sl ec t => packMX row2 col2 (ec ++ sl) t
  | .mmvBf16 _ _ row2 col2 _ sl t => packMX row2 col2 ((0 : BitVec 2) ++ sl) t
  | .mzero _ _ _ mv t => packMX 0 0 ((0 : BitVec 5) ++ BitVec.ofBool mv) t
  | .mscale _ row2 _ t => packMX row2 0 0 t
  | .mcvt _ _ row2 _ code isInt t => packMX row2 0 (BitVec.ofBool isInt ++ code) t
  | .mtest _ _ t => packMX 0 0 0 t
  | .mfence t => packMX 0 0 0 t
  | .mcbk row2 col2 _ el t => packMX row2 col2 ((0 : BitVec 5) ++ el) t
  | .mtrn _ _ row2 col2 wd t => packMX row2 col2 ((0 : BitVec 4) ++ wd) t
  | .mpair el t => packMX 0 0 ((0 : BitVec 5) ++ el) t
  | .mfree t => packMX 0 0 0 t
  | .ld8 g _ _ _ off => packGuard g (off.extractLsb' 6 25)
  | .ld16 g _ _ _ off => packGuard g (off.extractLsb' 6 25)
  | .ld32 g _ _ _ off => packGuard g (off.extractLsb' 6 25)
  | .ld64 g _ _ _ off => packGuard g (off.extractLsb' 6 25)
  | .ld128 g _ _ _ off => packGuard g (off.extractLsb' 6 25)
  | .ldx g _ _ _ off => packGuard g (off.extractLsb' 6 25)
  | .ldro g _ _ _ off => packGuard g (off.extractLsb' 6 25)
  | .st8 g _ _ _ off => packGuard g (off.extractLsb' 6 25)
  | .st16 g _ _ _ off => packGuard g (off.extractLsb' 6 25)
  | .st32 g _ _ _ off => packGuard g (off.extractLsb' 6 25)
  | .st64 g _ _ _ off => packGuard g (off.extractLsb' 6 25)
  | .st128 g _ _ _ off => packGuard g (off.extractLsb' 6 25)
  | .stx g _ _ _ off => packGuard g (off.extractLsb' 6 25)
  | .lds g _ _ _ off => packGuard g (off.extractLsb' 6 25)
  | .sts g _ _ _ off => packGuard g (off.extractLsb' 6 25)
  | .atomAdd g _ _ _ _ sc ord un off => packGuard g (packT sc ord un off)
  | .atomMin g _ _ _ _ sc ord un off => packGuard g (packT sc ord un off)
  | .atomMax g _ _ _ _ sc ord un off => packGuard g (packT sc ord un off)
  | .atomAnd g _ _ _ _ sc ord un off => packGuard g (packT sc ord un off)
  | .atomOr g _ _ _ _ sc ord un off => packGuard g (packT sc ord un off)
  | .atomXor g _ _ _ _ sc ord un off => packGuard g (packT sc ord un off)
  | .atomXchg g _ _ _ _ sc ord un off => packGuard g (packT sc ord un off)
  | .atomCas g _ _ _ _ sc ord un off => packGuard g (packT sc ord un off)
  | .atomFadd g _ _ _ _ sc ord un off => packGuard g (packT sc ord un off)
  | .atomsAdd g _ _ _ _ sc ord un off => packGuard g (packT sc ord un off)
  | .atomsCas g _ _ _ _ sc ord un off => packGuard g (packT sc ord un off)
  | .probe g _ _ _ => packGuard g 0
  | .ldq g _ _ _ off => packGuard g (off.extractLsb' 6 25)
  | .stq g _ _ _ off => packGuard g (off.extractLsb' 6 25)
  | .lda g _ _ _ off => packGuard g (off.extractLsb' 6 25)
  | .sta g _ _ _ off => packGuard g (off.extractLsb' 6 25)
  | .cwb g _ _ _ => packGuard g 0
  | .cinv g _ _ _ => packGuard g 0
  | .icinv g _ _ _ => packGuard g 0
  | .invRo g => packGuard g 0
  | .tagset g _ _ off => packGuard g (off.extractLsb' 6 25)
  | .tagget g _ _ _ off => packGuard g (off.extractLsb' 6 25)
  | .pres g _ _ _ off => packGuard g (off.extractLsb' 6 25)
  | .ldS g _ _ _ off => packGuard g (off.extractLsb' 6 25)
  | .atomInc g _ _ _ _ sc ord un off => packGuard g (packT sc ord un off)
  | .cpyLin _ _ _ _ t => packYX t 0
  | .cpyTen _ _ _ _ slot t => packYX t ((0 : BitVec 10) ++ slot)
  | .cpyMc _ _ _ _ t => packYX t 0
  | .cpyCol _ _ _ t => packYX t 0
  | .cpyFill _ _ t => packYX t 0
  | .cpyWb ent t => packYX t ((0 : BitVec 9) ++ ent)
  | .cpyTs _ _ _ _ row col t => packYX t (row ++ col)
  | .cpyFeed _ _ _ row col t => packYX t (row ++ col)
  | .publish _ t => packYX t 0
  | .shadow _ _ t => packYX t 0
  | .semSig _ _ _ t => packYX t 0
  | .semWait _ _ _ t => packYX t 0
  | .semTry _ _ _ _ t => packYX t 0
  | .semSet _ _ _ t => packYX t 0
  | .semRead _ _ _ t => packYX t 0
  | .push _ _ _ _ dir t => packYX t ((0 : BitVec 11) ++ dir)
  | .shape _ slot t => packYX t ((0 : BitVec 10) ++ slot)
  | .tokq t => packYX t 0
  | .mapSet _ _ ent t => packYX t ((0 : BitVec 9) ++ ent)
  | .mapClr ent t => packYX t ((0 : BitVec 9) ++ ent)
  | .cpyRed _ _ _ ty rop t => packYX t ((0 : BitVec 6) ++ rop ++ ty)
  | .cpyGath _ _ _ rl t => packYX t ((0 : BitVec 5) ++ rl)
  | .cpyScat _ _ _ rl t => packYX t ((0 : BitVec 5) ++ rl)
  | .guideBind _ _ _ t => packYX t 0
  | .linkSend _ _ _ t => packYX t 0
  | .linkRecv _ _ _ t => packYX t 0
  | .cpyAbort t => packYX t 0
  | .cpyHost _ _ _ _ t => packYX t 0
  | .meshOut g _ _ _ => packGuard g 0
  | .meshPrim g _ _ => packGuard g 0
  | .meshDone g _ _ => packGuard g 0
  | .rastBind g _ imm => packGuard g (imm.extractLsb' 7 25)
  | .pixIn g _ imm => packGuard g (imm.extractLsb' 7 25)
  | .pixBary g _ _ _ => packGuard g 0
  | .pixDiscard g => packGuard g 0
  | .omWrite g _ imm => packGuard g (imm.extractLsb' 7 25)
  | .omDepth g _ => packGuard g 0
  | .guideOut g _ => packGuard g 0
  | .texSample g _ _ _ => packGuard g 0
  | .texLod g _ _ _ => packGuard g 0
  | .texGrad g _ _ _ => packGuard g 0
  | .texFetch g _ _ _ => packGuard g 0
  | .texGather4 g _ _ _ => packGuard g 0
  | .texQuery g _ _ imm => packGuard g (imm.extractLsb' 7 25)
  | .rayBox g _ _ _ => packGuard g 0
  | .rayTri g _ _ _ => packGuard g 0
  | .rayInit g _ _ => packGuard g 0
  | .rayXform g _ _ _ _ => packGuard g 0
  | .rayStkPush g _ _ => packGuard g 0
  | .rayStkPop g _ _ => packGuard g 0
  | .rayHit g _ _ => packGuard g 0
  | .imgLd g _ _ _ off => packGuard g (off.extractLsb' 6 25)
  | .imgSt g _ _ _ off => packGuard g (off.extractLsb' 6 25)
  | .quadSwz g _ _ imm => packGuard g (imm.extractLsb' 7 25)
  | .quadDeriv g _ _ imm => packGuard g (imm.extractLsb' 7 25)
  | .launchDispatch .. => 0
  | .crewPlacement => 0
  | .crewStart .. => 0
  | .bundleEnd .. => 0
  | .launchCompletion .. => 0
  | .activeSetRecompute .. => 0
  | .leaseWindowEnd .. => 0
  | .runArbitration .. => 0
  | .yieldHoldExpiry .. => 0
  | .batchTimeout .. => 0
  | .groveBarrierDoneMessage .. => 0
  | .pageBacking .. => 0
  | .pageMigration .. => 0
  | .copyUnitTransfer .. => 0
  | .copyCompletion .. => 0
  | .multicastShareWritten .. => 0
  | .feedBlockWrite .. => 0
  | .regionFillCompletion .. => 0
  | .publishSwap .. => 0
  | .remoteAtomicErrorResponse .. => 0
  | .matRetire .. => 0
  | .matrixSelfTest .. => 0
  | .mpairSlave .. => 0
  | .executeResultLanding .. => 0
  | .scaleLatchDelivery .. => 0
  | .taskSequencerPartStart .. => 0
  | .loopRecordDoneSignal .. => 0
  | .tilePreemptionSave .. => 0
  | .tileSetPlacement => 0
  | .meshRasterise .. => 0
  | .pixelBundleStart .. => 0
  | .fragmentMerge .. => 0
  | .guideTileSend .. => 0
  | .millStep .. => 0
  | .millDrainTimeLimit .. => 0
  | .millReload .. => 0
  | .flumeStep .. => 0
  | .preemptionRequest .. => 0
  | .saveCommit .. => 0
  | .saveSlotDrain .. => 0
  | .crewRestore .. => 0
  | .splitDrainComplete .. => 0
  | .governorRequestArrival .. => 0
  | .waittDeadline .. => 0
  | .softError .. => 0
  | .patrolScrub .. => 0
  | .powerManagerWindow .. => 0
  | .dieResetTimeLimit .. => 0
  | .hostMemoryAccess .. => 0
  | .qtailWrite .. => 0
  | .qctlWrite .. => 0
  | .mbxHostWrite .. => 0
  | .govdeadWrite .. => 0
  | .evheadWrite .. => 0
  | .tsetWrite .. => 0
  | .hostRegisterWrite .. => 0
  | .createContext .. => 0
  | .endContext .. => 0
  | .shootDown .. => 0
  | .shootDownAcknowledge .. => 0
  | .addPoolFrames .. => 0
  | .dieBeadAllocate .. => 0
  | .dieBeadFree .. => 0
  | .linkStreamAllocate .. => 0
  | .linkStreamFree .. => 0
  | .debugRetry .. => 0
  | .debugSkip .. => 0
  | .debugAbort .. => 0
  | .computeReset .. => 0
  | .powerOff .. => 0
  | .writeMtcfg .. => 0
  | .hostCopyToDevice .. => 0
  | .hostCopyToHost .. => 0
  | .installNodeTable .. => 0
  | .installRecordPool .. => 0
  | .attestationRequest .. => 0
  | .identityCertificateRequest => 0
  | .fenceAddendum .. => 0
  | .errorLogRead .. => 0
  | .captureOn .. => 0
  | .captureOff .. => 0
  | .imageWrite .. => 0
  | .powerGood => 0
  | .ptpMessage .. => 0
  | .linkDataFrame .. => 0
  | .linkAckFrame .. => 0
  | .linkCreditFrame .. => 0
  | .linkRetransmitTimeout .. => 0
  | .foreignFrame .. => 0
  | .railOutOfRange .. => 0
  | .bypass => 0
  | .idcode => 0
  | .samplePreload => 0
  | .extest => 0
  | .portUp .. => 0
  | .railInRange .. => 0
  | .powerLoss .. => 0
  | .timeLockLost => 0

/-- Whether an immediate of Format I is one the short form holds. -/
def immShort (imm : BitVec 32) : Bool := (imm.setWidth 7).signExtend 32 == imm
/-- Whether a word offset is one an n-bit short field holds. -/
def offShort (n : Nat) (off : BitVec 32) : Bool := (off.setWidth n).signExtend 32 == off
/-- Whether a byte offset of Format D is one the short form holds. -/
def offDShort (off : BitVec 31) : Bool := (off.setWidth 6).signExtend 31 == off
/-- Whether Format T's extension says no more than the short form does. -/
def shortT (sc : BitVec 3) (ord : BitVec 2) (un : Bool) (off : BitVec 19) : Bool :=
  sc == 4 && ord == 0 && !un && off == 0
/-- Whether a guard is no guard. -/
def Guard.absent (g : Guard) : Bool := g.pg == 0 && !g.neg

/-- Whether the operands fit the short form (01 R29). MAT and CPY have none. -/
def Instr.fitsShort (i : Instr) : Bool :=
  match i with
  | .nop => true
  | .bra off => offShort 19 off
  | .brac _ _ _ off => offShort 11 off
  | .brx _ _ => true
  | .call off => offShort 19 off
  | .ret _ => true
  | .loop _ imm => immShort imm
  | .loopi _ imm => immShort imm
  | .voteAny _ _ _ => true
  | .voteAll _ _ => true
  | .barCrew imm => immShort imm
  | .barGrove imm => immShort imm
  | .barArrive _ _ imm => immShort imm
  | .barWait _ _ imm => immShort imm
  | .wait imm => immShort imm
  | .waitt _ _ => true
  | .fence imm => immShort imm
  | .fencePromote imm => immShort imm
  | .fenceI => true
  | .trap imm => immShort imm
  | .chk _ _ => true
  | .region off => offShort 19 off
  | .exit => true
  | .yield => true
  | .lease _ _ imm => immShort imm
  | .split _ imm => immShort imm
  | .launch _ _ => true
  | .reca _ _ => true
  | .remit _ => true
  | .rdone _ => true
  | .millCfg _ _ => true
  | .millEnter => true
  | .millExit _ => true
  | .fsend _ _ => true
  | .fsendNb _ _ _ => true
  | .ftake _ _ => true
  | .sread _ _ => true
  | .swrite _ _ => true
  | .govq _ _ => true
  | .govr _ _ => true
  | .bkpt imm => immShort imm
  | .add _ _ _ => true
  | .addi _ _ imm => immShort imm
  | .sub _ _ _ => true
  | .mul _ _ _ => true
  | .mulhI _ _ _ => true
  | .mulhN _ _ _ => true
  | .divI _ _ _ => true
  | .divN _ _ _ => true
  | .remI _ _ _ => true
  | .remN _ _ _ => true
  | .and _ _ _ => true
  | .or _ _ _ => true
  | .xor _ _ _ => true
  | .andi _ _ imm => immShort imm
  | .ori _ _ imm => immShort imm
  | .xori _ _ imm => immShort imm
  | .shl _ _ _ => true
  | .shrI _ _ _ => true
  | .shrN _ _ _ => true
  | .rot _ _ _ => true
  | .minI _ _ _ => true
  | .minN _ _ _ => true
  | .maxI _ _ _ => true
  | .maxN _ _ _ => true
  | .abs _ _ => true
  | .neg _ _ => true
  | .cmp _ _ _ _ => true
  | .cmpp _ _ _ _ => true
  | .sel _ _ _ => true
  | .mov _ _ => true
  | .movi _ imm => immShort imm
  | .movh _ _ imm => immShort imm
  | .lea _ _ _ _ => true
  | .popc _ _ => true
  | .clz _ _ => true
  | .ctz _ _ => true
  | .bfxI _ _ _ => true
  | .bfxN _ _ _ => true
  | .bfi _ _ _ => true
  | .brev _ _ => true
  | .mad _ _ _ => true
  | .addsI _ _ _ => true
  | .addsN _ _ _ => true
  | .subsI _ _ _ => true
  | .subsN _ _ _ => true
  | .mbx _ _ imm => immShort imm
  | .time _ => true
  | .wid _ imm => immShort imm
  | .iadd g _ _ _ _ => g.absent
  | .iaddi g _ _ imm => g.absent && immShort imm
  | .isub g _ _ _ _ => g.absent
  | .imul g _ _ _ => g.absent
  | .imad g _ _ _ => g.absent
  | .imulhI g _ _ _ => g.absent
  | .imulhN g _ _ _ => g.absent
  | .iminI g _ _ _ => g.absent
  | .iminN g _ _ _ => g.absent
  | .imaxI g _ _ _ => g.absent
  | .imaxN g _ _ _ => g.absent
  | .iand g _ _ _ => g.absent
  | .ior g _ _ _ => g.absent
  | .ixor g _ _ _ => g.absent
  | .ishl g _ _ _ => g.absent
  | .ishrI g _ _ _ => g.absent
  | .ishrN g _ _ _ => g.absent
  | .ibfxI g _ _ _ => g.absent
  | .ibfxN g _ _ _ => g.absent
  | .ibfi g _ _ _ => g.absent
  | .ipopc g _ _ => g.absent
  | .iclz g _ _ => g.absent
  | .icmp g _ _ _ _ => g.absent
  | .isel g _ _ _ => g.absent
  | .imov g _ _ => g.absent
  | .imovi g _ imm => g.absent && immShort imm
  | .idot4I8 g _ _ _ _ => g.absent
  | .idot4N8 g _ _ _ _ => g.absent
  | .faddF32 g _ _ _ => g.absent
  | .fmulF32 g _ _ _ => g.absent
  | .ffmaF32 g _ _ _ => g.absent
  | .fminF32 g _ _ _ _ => g.absent
  | .fmaxF32 g _ _ _ _ => g.absent
  | .fcmpF32 g _ _ _ _ => g.absent
  | .frndF32 g _ _ _ => g.absent
  | .frcp g _ _ => g.absent
  | .frsq g _ _ => g.absent
  | .fsqrt g _ _ => g.absent
  | .fexp2 g _ _ => g.absent
  | .flog2 g _ _ => g.absent
  | .fsin g _ _ => g.absent
  | .fcos g _ _ => g.absent
  | .faddH2 g _ _ _ => g.absent
  | .fmulH2 g _ _ _ => g.absent
  | .ffmaH2 g _ _ _ => g.absent
  | .faddB2 g _ _ _ => g.absent
  | .fmulB2 g _ _ _ => g.absent
  | .ffmaB2 g _ _ _ => g.absent
  | .cvtF32I32 g _ _ => g.absent
  | .cvtF32N32 g _ _ => g.absent
  | .cvtI32F32 g _ _ _ => g.absent
  | .cvtN32F32 g _ _ _ => g.absent
  | .cvtF32H2 g _ _ _ => g.absent
  | .cvtH2F32 g _ _ _ => g.absent
  | .cvtF32B2 g _ _ _ => g.absent
  | .cvtB2F32 g _ _ _ => g.absent
  | .cvtF32E4m3 g _ _ _ => g.absent
  | .cvtE4m3F32 g _ _ _ => g.absent
  | .cvtF32E5m2 g _ _ _ => g.absent
  | .cvtE5m2F32 g _ _ _ => g.absent
  | .shflIdx g _ _ _ => g.absent
  | .shflXor g _ _ _ => g.absent
  | .s2v g _ _ _ => g.absent
  | .v2s g _ _ _ _ => g.absent
  | .vadd _ _ _ _ _ => true
  | .vsub _ _ _ _ _ => true
  | .vmul _ _ _ _ _ => true
  | .vfma _ _ _ _ _ => true
  | .vmin _ _ _ _ _ => true
  | .vmax _ _ _ _ _ => true
  | .vabs _ _ _ _ => true
  | .vneg _ _ _ _ => true
  | .vcmp _ _ _ _ => true
  | .vsel _ _ _ _ _ => true
  | .vand _ _ _ _ _ => true
  | .vor _ _ _ _ _ => true
  | .vxor _ _ _ _ _ => true
  | .vshl _ _ _ _ _ => true
  | .vshrI _ _ _ _ _ => true
  | .vshrN _ _ _ _ _ => true
  | .vmov _ _ _ _ => true
  | .vbcast _ _ _ _ _ => true
  | .vrcp _ _ _ _ => true
  | .vrsq _ _ _ _ => true
  | .vexp2 _ _ _ _ => true
  | .vlog2 _ _ _ _ => true
  | .vtbli _ _ _ _ _ => true
  | .vtbll _ _ => true
  | .vrmax _ _ _ => true
  | .vradd _ _ _ => true
  | .vamax _ _ _ => true
  | .vqnt _ _ _ _ _ => true
  | .vdqnt _ _ _ _ _ => true
  | .vcvt _ _ _ _ _ => true
  | .vperm _ _ _ _ _ => true
  | .vslide _ _ _ _ _ => true
  | .vpop _ _ => true
  | .vpush _ _ => true
  | .vpopk _ _ => true
  | .vpushs _ _ _ => true
  | .vshape _ _ _ _ _ => true
  | .vrot _ _ _ _ _ => true
  | .vscale _ _ _ _ _ => true
  | .vrnd _ _ _ _ _ => true
  | .vsqrt _ _ _ _ => true
  | .vmadI _ _ _ _ _ => true
  | .vsat _ _ _ _ _ => true
  | .vpsum _ _ _ _ => true
  | .vclamp _ _ _ _ _ => true
  | .vfrac _ _ _ _ => true
  | .vcbk _ => true
  | .vkmov _ _ _ _ => true
  | .mldb _ _ _ _ _ => false
  | .mmaBf16 _ _ _ _ _ => false
  | .mmaF16 _ _ _ _ _ => false
  | .mmaE4m3 _ _ _ _ _ => false
  | .mmaE5m2 _ _ _ _ _ => false
  | .mmaMx8 _ _ _ _ _ _ => false
  | .mmaMx6 _ _ _ _ _ _ => false
  | .mmaMx4 _ _ _ _ _ _ => false
  | .mmaI8 _ _ _ _ _ _ _ _ => false
  | .mmaI4 _ _ _ _ _ _ _ _ => false
  | .mmasMx4 _ _ _ _ _ _ => false
  | .mmasMx8 _ _ _ _ _ _ => false
  | .mmvMx4 _ _ _ _ _ _ _ _ => false
  | .mmvMx8 _ _ _ _ _ _ _ _ => false
  | .mmvBf16 _ _ _ _ _ _ _ => false
  | .mzero _ _ _ _ _ => false
  | .mscale _ _ _ _ => false
  | .mcvt _ _ _ _ _ _ _ => false
  | .mtest _ _ _ => false
  | .mfence _ => false
  | .mcbk _ _ _ _ _ => false
  | .mtrn _ _ _ _ _ _ => false
  | .mpair _ _ => false
  | .mfree _ => false
  | .ld8 g _ _ _ off => g.absent && offDShort off
  | .ld16 g _ _ _ off => g.absent && offDShort off
  | .ld32 g _ _ _ off => g.absent && offDShort off
  | .ld64 g _ _ _ off => g.absent && offDShort off
  | .ld128 g _ _ _ off => g.absent && offDShort off
  | .ldx g _ _ _ off => g.absent && offDShort off
  | .ldro g _ _ _ off => g.absent && offDShort off
  | .st8 g _ _ _ off => g.absent && offDShort off
  | .st16 g _ _ _ off => g.absent && offDShort off
  | .st32 g _ _ _ off => g.absent && offDShort off
  | .st64 g _ _ _ off => g.absent && offDShort off
  | .st128 g _ _ _ off => g.absent && offDShort off
  | .stx g _ _ _ off => g.absent && offDShort off
  | .lds g _ _ _ off => g.absent && offDShort off
  | .sts g _ _ _ off => g.absent && offDShort off
  | .atomAdd g _ _ _ _ sc ord un off => g.absent && shortT sc ord un off
  | .atomMin g _ _ _ _ sc ord un off => g.absent && shortT sc ord un off
  | .atomMax g _ _ _ _ sc ord un off => g.absent && shortT sc ord un off
  | .atomAnd g _ _ _ _ sc ord un off => g.absent && shortT sc ord un off
  | .atomOr g _ _ _ _ sc ord un off => g.absent && shortT sc ord un off
  | .atomXor g _ _ _ _ sc ord un off => g.absent && shortT sc ord un off
  | .atomXchg g _ _ _ _ sc ord un off => g.absent && shortT sc ord un off
  | .atomCas g _ _ _ _ sc ord un off => g.absent && shortT sc ord un off
  | .atomFadd g _ _ _ _ sc ord un off => g.absent && shortT sc ord un off
  | .atomsAdd g _ _ _ _ sc ord un off => g.absent && shortT sc ord un off
  | .atomsCas g _ _ _ _ sc ord un off => g.absent && shortT sc ord un off
  | .probe g _ _ _ => g.absent
  | .ldq g _ _ _ off => g.absent && offDShort off
  | .stq g _ _ _ off => g.absent && offDShort off
  | .lda g _ _ _ off => g.absent && offDShort off
  | .sta g _ _ _ off => g.absent && offDShort off
  | .cwb g _ _ _ => g.absent
  | .cinv g _ _ _ => g.absent
  | .icinv g _ _ _ => g.absent
  | .invRo g => g.absent
  | .tagset g _ _ off => g.absent && offDShort off
  | .tagget g _ _ _ off => g.absent && offDShort off
  | .pres g _ _ _ off => g.absent && offDShort off
  | .ldS g _ _ _ off => g.absent && offDShort off
  | .atomInc g _ _ _ _ sc ord un off => g.absent && shortT sc ord un off
  | .cpyLin _ _ _ _ _ => false
  | .cpyTen _ _ _ _ _ _ => false
  | .cpyMc _ _ _ _ _ => false
  | .cpyCol _ _ _ _ => false
  | .cpyFill _ _ _ => false
  | .cpyWb _ _ => false
  | .cpyTs _ _ _ _ _ _ _ => false
  | .cpyFeed _ _ _ _ _ _ => false
  | .publish _ _ => false
  | .shadow _ _ _ => false
  | .semSig _ _ _ _ => false
  | .semWait _ _ _ _ => false
  | .semTry _ _ _ _ _ => false
  | .semSet _ _ _ _ => false
  | .semRead _ _ _ _ => false
  | .push _ _ _ _ _ _ => false
  | .shape _ _ _ => false
  | .tokq _ => false
  | .mapSet _ _ _ _ => false
  | .mapClr _ _ => false
  | .cpyRed _ _ _ _ _ _ => false
  | .cpyGath _ _ _ _ _ => false
  | .cpyScat _ _ _ _ _ => false
  | .guideBind _ _ _ _ => false
  | .linkSend _ _ _ _ => false
  | .linkRecv _ _ _ _ => false
  | .cpyAbort _ => false
  | .cpyHost _ _ _ _ _ => false
  | .meshOut g _ _ _ => g.absent
  | .meshPrim g _ _ => g.absent
  | .meshDone g _ _ => g.absent
  | .rastBind g _ imm => g.absent && immShort imm
  | .pixIn g _ imm => g.absent && immShort imm
  | .pixBary g _ _ _ => g.absent
  | .pixDiscard g => g.absent
  | .omWrite g _ imm => g.absent && immShort imm
  | .omDepth g _ => g.absent
  | .guideOut g _ => g.absent
  | .texSample g _ _ _ => g.absent
  | .texLod g _ _ _ => g.absent
  | .texGrad g _ _ _ => g.absent
  | .texFetch g _ _ _ => g.absent
  | .texGather4 g _ _ _ => g.absent
  | .texQuery g _ _ imm => g.absent && immShort imm
  | .rayBox g _ _ _ => g.absent
  | .rayTri g _ _ _ => g.absent
  | .rayInit g _ _ => g.absent
  | .rayXform g _ _ _ _ => g.absent
  | .rayStkPush g _ _ => g.absent
  | .rayStkPop g _ _ => g.absent
  | .rayHit g _ _ => g.absent
  | .imgLd g _ _ _ off => g.absent && offDShort off
  | .imgSt g _ _ _ off => g.absent && offDShort off
  | .quadSwz g _ _ imm => g.absent && immShort imm
  | .quadDeriv g _ _ imm => g.absent && immShort imm
  | .launchDispatch .. => false
  | .crewPlacement => false
  | .crewStart .. => false
  | .bundleEnd .. => false
  | .launchCompletion .. => false
  | .activeSetRecompute .. => false
  | .leaseWindowEnd .. => false
  | .runArbitration .. => false
  | .yieldHoldExpiry .. => false
  | .batchTimeout .. => false
  | .groveBarrierDoneMessage .. => false
  | .pageBacking .. => false
  | .pageMigration .. => false
  | .copyUnitTransfer .. => false
  | .copyCompletion .. => false
  | .multicastShareWritten .. => false
  | .feedBlockWrite .. => false
  | .regionFillCompletion .. => false
  | .publishSwap .. => false
  | .remoteAtomicErrorResponse .. => false
  | .matRetire .. => false
  | .matrixSelfTest .. => false
  | .mpairSlave .. => false
  | .executeResultLanding .. => false
  | .scaleLatchDelivery .. => false
  | .taskSequencerPartStart .. => false
  | .loopRecordDoneSignal .. => false
  | .tilePreemptionSave .. => false
  | .tileSetPlacement => false
  | .meshRasterise .. => false
  | .pixelBundleStart .. => false
  | .fragmentMerge .. => false
  | .guideTileSend .. => false
  | .millStep .. => false
  | .millDrainTimeLimit .. => false
  | .millReload .. => false
  | .flumeStep .. => false
  | .preemptionRequest .. => false
  | .saveCommit .. => false
  | .saveSlotDrain .. => false
  | .crewRestore .. => false
  | .splitDrainComplete .. => false
  | .governorRequestArrival .. => false
  | .waittDeadline .. => false
  | .softError .. => false
  | .patrolScrub .. => false
  | .powerManagerWindow .. => false
  | .dieResetTimeLimit .. => false
  | .hostMemoryAccess .. => false
  | .qtailWrite .. => false
  | .qctlWrite .. => false
  | .mbxHostWrite .. => false
  | .govdeadWrite .. => false
  | .evheadWrite .. => false
  | .tsetWrite .. => false
  | .hostRegisterWrite .. => false
  | .createContext .. => false
  | .endContext .. => false
  | .shootDown .. => false
  | .shootDownAcknowledge .. => false
  | .addPoolFrames .. => false
  | .dieBeadAllocate .. => false
  | .dieBeadFree .. => false
  | .linkStreamAllocate .. => false
  | .linkStreamFree .. => false
  | .debugRetry .. => false
  | .debugSkip .. => false
  | .debugAbort .. => false
  | .computeReset .. => false
  | .powerOff .. => false
  | .writeMtcfg .. => false
  | .hostCopyToDevice .. => false
  | .hostCopyToHost .. => false
  | .installNodeTable .. => false
  | .installRecordPool .. => false
  | .attestationRequest .. => false
  | .identityCertificateRequest => false
  | .fenceAddendum .. => false
  | .errorLogRead .. => false
  | .captureOn .. => false
  | .captureOff .. => false
  | .imageWrite .. => false
  | .powerGood => false
  | .ptpMessage .. => false
  | .linkDataFrame .. => false
  | .linkAckFrame .. => false
  | .linkCreditFrame .. => false
  | .linkRetransmitTimeout .. => false
  | .foreignFrame .. => false
  | .railOutOfRange .. => false
  | .bypass => false
  | .idcode => false
  | .samplePreload => false
  | .extest => false
  | .portUp .. => false
  | .railInRange .. => false
  | .powerLoss .. => false
  | .timeLockLost => false

/-- The format of an instruction, by its opcode. -/
def Instr.row (i : Instr) : Option OpRow :=
  match i.code with
  | some (c, op) => opRow c op
  | none => none

/-- A loop's last word lies at or after the word that follows the loop instruction (03 R67). -/
def loopOk (i : Instr) (long : Bool) : Bool :=
  match i with
  | .loop _ imm => decide ((if long then 2 else 1) ≤ imm.toInt)
  | .loopi _ imm => decide ((if long then 2 else 1) ≤ imm.toInt)
  | _ => true

/-- An item that stands for words of a profile: well-formed operands, in a length its opcode and its operands allow. -/
def Item.ok (p : Profile) (it : Item) : Bool :=
  match it.instr.code with
  | none => false
  | some (c, op) =>
    match opRow c op with
    | none => false
    | some r => lengthOk c r.format it.long && (it.long || it.instr.fitsShort) && WellFormed p it.instr
        && loopOk it.instr it.long

/-- The words of an item (01 R11, R16): its first word, then its extension in the long form. An event has none. -/
def encode (it : Item) : List Word :=
  match it.instr.code with
  | none => []
  | some (c, op) =>
    let w := packWord it.stop it.runEnd c it.long op (it.instr.operands it.long)
    if it.long then [w, it.instr.extension] else [w]

/-- What the first word alone decides (01 R26, 2 to 4): its row of the opcode map, or the trap. -/
def decodeHead (p : Profile) (w : Word) : Except DecodeError OpRow :=
  match opRow (wordClass w) (wordOp w) with
  | none => .error .illegalOpcode
  | some r =>
    if r.presence.on p = false then .error .opcodeAbsent
    else if lengthOk (wordClass w) r.format (wordLong w) = false then .error .illegalLength
    else .ok r

/-- Whether every bit that must be zero is zero: the fields the entry does not use, the reserved bits of the extension,
and the short field under a plain extension (01 R15, R17). -/
def zeroOk (r : OpRow) (w x : Word) : Bool :=
  (wordOperands w &&& r.zero) == 0 && (!wordLong w || (x &&& r.zeroExt) == 0)
    && (!(wordLong w && !classGuarded (wordClass w)) ||
      (match r.format with
       | .fmtI => w.extractLsb' 0 7 == 0
       | .fmtB => w.extractLsb' 0 19 == 0
       | .fmtC => w.extractLsb' 0 11 == 0
       | _ => true))

/-- The instruction of a first word whose head is sound, with its extension (01 R25, illegal-field). -/
noncomputable def decodeBody (p : Profile) (r : OpRow) (w x : Word) : Except DecodeError Item :=
  match buildInstr (wordClass w) (wordOp w) (wordLong w) w x with
  | none => .error .illegalOpcode
  | some i =>
    let it : Item := ⟨i, wordStop w, wordRunEnd w, wordLong w⟩
    if zeroOk r w x && WellFormed p i && loopOk i (wordLong w) then .ok it else .error .illegalField

/-- Decode one instruction from words, with the words that follow it (01 R25, R26). -/
noncomputable def decodeWords (p : Profile) (ws : List Word) : Except DecodeError (Item × List Word) :=
  match ws with
  | [] => .error .truncated
  | w :: rest =>
    match decodeHead p w with
    | .error e => .error e
    | .ok r =>
      if wordLong w then
        match rest with
        | [] => .error .truncated
        | x :: rest' => (decodeBody p r w x).map (fun it => (it, rest'))
      else (decodeBody p r w 0).map (fun it => (it, rest))

/-- The words of an instruction whose bits are numbered as the opcode table numbers them: bit 0 is the least significant
bit of the first word, and an extension's bits count on from 32. -/
def tableWords (nbits w : Nat) : List Word :=
  let v := w % 2 ^ nbits
  [BitVec.ofNat 32 v, BitVec.ofNat 32 (v / 2 ^ 32)]

/-- The profile that a first word's opcode is present on, raster where both hold it. -/
def wordProfile (w : Word) : Profile :=
  match opRow (wordClass w) (wordOp w) with
  | some r => if r.presence.on .raster then .raster else .tile
  | none => .raster

/-- The instruction the decoder reads from an instruction given by the numbering of the opcode table: on a raster core
where the opcode is present there, else on a tile. -/
noncomputable def decodeTableWord (nbits w : Nat) : Option Instr :=
  match decodeWords (wordProfile (BitVec.ofNat 32 w)) (tableWords nbits w) with
  | .ok (it, _) => some it.instr
  | .error _ => none

end Sys2Proof
end

