-- ==== Sys2Proof/Machine/Lane.lean ====
section
/-! DEFINITION. The integer lane instructions, class LAN (04 R94-R96), and the instructions that move values between strands
and scalar registers (04 R100). -/

namespace Sys2Proof.Machine

open Host (Outcome)
open Sys2Proof (Guard)

/-! ### The computations (04 R95) -/

/-- The immediate of IADDI and IMOVI has been extended by the decoder. -/
def laneShift (b : Word) : Nat := (b.extractLsb' 0 5).toNat

/-- A signed sum or difference, wrapped or clamped. -/
def laneAdd (sat : Bool) (a b : Word) : Word := if sat then clampBits true 32 (a.toInt + b.toInt) else a + b
def laneSub (sat : Bool) (a b : Word) : Word := if sat then clampBits true 32 (a.toInt - b.toInt) else a - b

/-- Bits [63:32] of the product. -/
def laneMulHigh (isSigned : Bool) (a b : Word) : Word :=
  if isSigned then ((a.signExtend 64) * (b.signExtend 64)).extractLsb' 32 32
  else ((a.setWidth 64) * (b.setWidth 64)).extractLsb' 32 32

/-- lo and width of the lane bit-field instructions. -/
def laneFieldLo (b : Word) : Nat := (b.extractLsb' 0 5).toNat
def laneFieldWidth (b : Word) : Nat := (b.extractLsb' 5 5).toNat + 1

/-- Byte i of a word as an integer. -/
def byteInt (isSigned : Bool) (a : Word) (i : Nat) : Int :=
  if isSigned then (a.extractLsb' (8 * i) 8).toInt else (a.extractLsb' (8 * i) 8).toNat

/-- IDOT4: the exact sum of four products, added to d, wrapped or clamped. -/
def laneDot4 (isSigned sat : Bool) (a b d : Word) : Word :=
  let sum := ((List.range 4).map (fun i => byteInt isSigned a i * byteInt isSigned b i)).sum
  let base : Int := if isSigned then d.toInt else d.toNat
  if sat then clampBits isSigned 32 (base + sum) else BitVec.ofInt 32 (base + sum)

/-! ### Meanings -/

def execIadd (g : Guard) (d a b : BitVec 6) (m : Bool) (s : State) : Outcome State Fault Refusal :=
  .next (lane2 g s d a b (laneAdd m))
def execIaddi (g : Guard) (d a : BitVec 6) (imm : BitVec 32) (s : State) : Outcome State Fault Refusal :=
  .next (lane1 g s d a (fun x => x + imm))
def execIsub (g : Guard) (d a b : BitVec 6) (m : Bool) (s : State) : Outcome State Fault Refusal :=
  .next (lane2 g s d a b (laneSub m))
def execImul (g : Guard) (d a b : BitVec 6) (s : State) : Outcome State Fault Refusal :=
  .next (lane2 g s d a b (fun x y => x * y))
def execImad (g : Guard) (d a b : BitVec 6) (s : State) : Outcome State Fault Refusal :=
  .next (lane3 g s d a b (fun x y z => z + x * y))
def execImulhI (g : Guard) (d a b : BitVec 6) (s : State) : Outcome State Fault Refusal :=
  .next (lane2 g s d a b (laneMulHigh true))
def execImulhN (g : Guard) (d a b : BitVec 6) (s : State) : Outcome State Fault Refusal :=
  .next (lane2 g s d a b (laneMulHigh false))
def execIminI (g : Guard) (d a b : BitVec 6) (s : State) : Outcome State Fault Refusal :=
  .next (lane2 g s d a b (pickMin true))
def execIminN (g : Guard) (d a b : BitVec 6) (s : State) : Outcome State Fault Refusal :=
  .next (lane2 g s d a b (pickMin false))
def execImaxI (g : Guard) (d a b : BitVec 6) (s : State) : Outcome State Fault Refusal :=
  .next (lane2 g s d a b (pickMax true))
def execImaxN (g : Guard) (d a b : BitVec 6) (s : State) : Outcome State Fault Refusal :=
  .next (lane2 g s d a b (pickMax false))
def execIand (g : Guard) (d a b : BitVec 6) (s : State) : Outcome State Fault Refusal :=
  .next (lane2 g s d a b (fun x y => x &&& y))
def execIor (g : Guard) (d a b : BitVec 6) (s : State) : Outcome State Fault Refusal :=
  .next (lane2 g s d a b (fun x y => x ||| y))
def execIxor (g : Guard) (d a b : BitVec 6) (s : State) : Outcome State Fault Refusal :=
  .next (lane2 g s d a b (fun x y => x ^^^ y))
def execIshl (g : Guard) (d a b : BitVec 6) (s : State) : Outcome State Fault Refusal :=
  .next (lane2 g s d a b (fun x y => x <<< laneShift y))
def execIshrI (g : Guard) (d a b : BitVec 6) (s : State) : Outcome State Fault Refusal :=
  .next (lane2 g s d a b (fun x y => x.sshiftRight (laneShift y)))
def execIshrN (g : Guard) (d a b : BitVec 6) (s : State) : Outcome State Fault Refusal :=
  .next (lane2 g s d a b (fun x y => x >>> laneShift y))
def execIbfxI (g : Guard) (d a b : BitVec 6) (s : State) : Outcome State Fault Refusal :=
  .next (lane2 g s d a b (fun x y => bitField true x (laneFieldLo y) (laneFieldWidth y)))
def execIbfxN (g : Guard) (d a b : BitVec 6) (s : State) : Outcome State Fault Refusal :=
  .next (lane2 g s d a b (fun x y => bitField false x (laneFieldLo y) (laneFieldWidth y)))
def execIbfi (g : Guard) (d a b : BitVec 6) (s : State) : Outcome State Fault Refusal :=
  .next (lane3 g s d a b (fun x y z => bitInsert z x (laneFieldLo y) (laneFieldWidth y)))
def execIpopc (g : Guard) (d a : BitVec 6) (s : State) : Outcome State Fault Refusal :=
  .next (lane1 g s d a (fun x => BitVec.ofNat 32 (popVal x)))
def execIclz (g : Guard) (d a : BitVec 6) (s : State) : Outcome State Fault Refusal :=
  .next (lane1 g s d a (fun x => BitVec.ofNat 32 (clzVal x)))

/-- ICMP of one strand: a poisoned source raises poison-use (04 R94, R96). -/
def icmpStrand (cc tg : BitVec 3) (a b : BitVec 6) (i : Nat) (s : State) : Eff State :=
  match s.useV i a.toNat with
  | .error e => .error e
  | .ok x =>
    match s.useV i b.toNat with
    | .error e => .error e
    | .ok y => .ok (s.setP i tg.toNat (condHolds cc x y))

def execIcmp (g : Guard) (cc tg : BitVec 3) (a b : BitVec 6) (s : State) : Outcome State Fault Refusal :=
  conclude s (forStrands g s (icmpStrand cc tg a b))
def execIsel (g : Guard) (d a b : BitVec 6) (s : State) : Outcome State Fault Refusal :=
  .next (lane3 g s d a b (fun x y z => if z = 0 then y else x))
def execImov (g : Guard) (d a : BitVec 6) (s : State) : Outcome State Fault Refusal :=
  .next (lane1 g s d a (fun x => x))
def execImovi (g : Guard) (d : BitVec 6) (imm : BitVec 32) (s : State) : Outcome State Fault Refusal :=
  .next (lane0 g s d imm)
def execIdot4I8 (g : Guard) (d a b : BitVec 6) (m : Bool) (s : State) : Outcome State Fault Refusal :=
  .next (lane3 g s d a b (laneDot4 true m))
def execIdot4N8 (g : Guard) (d a b : BitVec 6) (m : Bool) (s : State) : Outcome State Fault Refusal :=
  .next (lane3 g s d a b (laneDot4 false m))

/-! ### Between strands and scalar registers (04 R100) -/

/-- The guarded strands of a complete bundle. -/
def State.bundleActing (s : State) (g : Guard) (o : Nat) : List Nat := (s.liveStrands o).filter (fun i => s.guardOn g i)

/-- Whether strand j of a bundle is live. -/
def State.strandLive (s : State) (o j : Nat) : Bool := (s.liveStrands o).contains (strandKey o j)

/-- v(a) of strand j of a bundle; zero where it is not live. -/
def State.shuffled (s : State) (o j : Nat) (a : BitVec 6) : Tagged 32 :=
  if s.strandLive o j then s.laneV (strandKey o j) a else .zero 32

/-- What SHFL.IDX writes in a strand. -/
def shflIdxVal (s : State) (o : Nat) (a b : BitVec 6) (i : Nat) : Tagged 32 :=
  match (s.laneV i b).poison with
  | some k => ⟨0, some k⟩
  | none => s.shuffled o ((s.laneV i b).val.extractLsb' 0 6).toNat a

/-- Write v(d) of each guarded strand of each complete bundle with a value read before any write. -/
def shuffle (g : Guard) (s : State) (d : BitVec 6) (f : Nat → Nat → Tagged 32) : State :=
  eachOwner s (fun o t => (s.bundleActing g o).foldl (fun u i => u.setV i d.toNat (f o i)) t)

def execShflIdx (g : Guard) (d a b : BitVec 6) (s : State) : Outcome State Fault Refusal :=
  .next (shuffle g s d (fun o i => shflIdxVal s o a b i))
def execShflXor (g : Guard) (d a b : BitVec 6) (s : State) : Outcome State Fault Refusal :=
  .next (shuffle g s d (fun o i => s.shuffled o (strandIndex i ^^^ b.toNat) a))

/-- A half of s(a), poisoned where it is. -/
def scalarHalf (m : Bool) (x : Tagged 64) : Tagged 32 :=
  x.map1 (fun v => if m then v.extractLsb' 32 32 else v.extractLsb' 0 32)

def execS2v (g : Guard) (d a : BitVec 6) (m : Bool) (s : State) : Outcome State Fault Refusal :=
  .next (shuffle g s d (fun o _ => scalarHalf m (s.getS o a)))

/-- V2S of one bundle. A guard is read in strand b; with one, a strand not live leaves s(d) as it is. -/
def v2sOwner (g : Guard) (d a b : BitVec 6) (m : Bool) (o : Nat) (s : State) : State :=
  let i := strandKey o b.toNat
  if s.strandLive o b.toNat then
    if s.guardOn g i then
      s.setS o d (if m then s.getD2 i a.toNat else (s.laneV i a).map1 (fun v => v.setWidth 64))
    else s
  else if g.pg = 0 ∧ g.neg = false then s.putS o d 0
  else s

def execV2s (g : Guard) (d a b : BitVec 6) (m : Bool) (s : State) : Outcome State Fault Refusal :=
  .next (eachOwner s (v2sOwner g d a b m))

end Sys2Proof.Machine
end

