-- ==== Sys2Proof/Machine/Formats.lean ====
section
/-! DEFINITION. Elements packed in pages and regions (02 R31, R35, R36). -/

namespace Sys2Proof.Machine

/-- Elements in the data area of a page. -/
def pageElems (p fmt geo : Nat) (csc : Bool) : Nat :=
  if codeScaled fmt then pageBlocks p fmt geo csc * geo else p * 8 / codeWidth fmt

/-- Byte offset, first bit and byte count of element e, packed with no gaps. -/
def elemByte (fmt e : Nat) : Nat := e * codeWidth fmt / 8
def elemBit (fmt e : Nat) : Nat := e * codeWidth fmt % 8
def elemBytes (fmt e : Nat) : Nat := (elemBit fmt e + codeWidth fmt + 7) / 8

/-- The code of an element in the little-endian bytes that hold it. -/
def elemOf (fmt e bytes : Nat) : Nat := bytes / 2 ^ elemBit fmt e % 2 ^ codeWidth fmt

/-- Replace an element in the bytes that hold it; every other bit is kept (04 R107). -/
def elemInto (fmt e bytes code : Nat) : Nat :=
  let lo := 2 ^ elemBit fmt e
  let w := 2 ^ codeWidth fmt
  bytes % lo + (code % w) * lo + bytes / (lo * w) * (lo * w)

/-- Offset of the scale of a block from the page base where scales are inline. -/
def inlineScale (p fmt geo i : Nat) : Nat := pageBlocks p fmt geo false * blockBytes fmt geo + i

/-- Physical address of the scale of the block that holds element e. -/
def PageInfo.scaleAt (p : PageInfo) (e : Nat) : Nat :=
  if p.csc then p.cfn * 65536 + e / p.geo else p.base + inlineScale p.size p.fmt p.geo (e / p.geo)

end Sys2Proof.Machine
end

