-- ==== Sys2Proof/Machine/Copies.lean ====
section
/-! DEFINITION. Copies: endpoints and their checks (19 R317), channels (22 R346, R347), moving one unit, completion, and
abort (19 R318, R328). -/

namespace Sys2Proof.Machine

open Host (Outcome)

/-! ### Places (19 R317) -/

/-- The scratchpad of an issuer. -/
def State.ownPlace (s : State) (o : Nat) : Place :=
  if ownerIsTile o then .tile o
  else match s.crewOf o with
    | some (c, _) => .crew c
    | none => .crew 0

/-- Whether a range lies in a crew's allocation or in one half of its grove window (06 R138). -/
def State.crewRangeOk (s : State) (c ofs len : Nat) : Bool :=
  let inside (a : Nat) : Bool := (s.scratchAt c (BitVec.ofNat 64 a)).isSome
  if len = 0 then true
  else inside ofs && inside (ofs + len - 1) && decide (ofs / 2 ^ 23 = (ofs + len - 1) / 2 ^ 23)

/-- Whether n bytes from an address of a place lie in it. -/
def State.placeRangeOk (s : State) (p : Place) (a : Dword) (len : Nat) : Bool :=
  match p with
  | .crew c => s.crewRangeOk c a.toNat len
  | .tile _ | .image .. => decide (a.toNat + len ≤ 524288)
  | .store _ => decide (a.toNat + len ≤ 262144)
  | _ => true

/-- Whether a context may name a tile: its own, or one that belongs to no context (18 R305, 19 R317). -/
def State.tileFree (s : State) (ctx t : Nat) : Bool :=
  match (s.tile t).owner with
  | none => true
  | some c => c == ctx

/-- A tile that belongs to no context becomes a context's when a copy of it names the tile (18 R305). -/
def State.claimTile (s : State) (ctx t : Nat) : State :=
  match (s.tile t).owner with
  | none => s.setTile t { s.tile t with owner := some ctx }
  | some _ => s

/-- The scratchpad of a tile, for an issuer of a launch: where the launch's own stream there has been set aside, its save image (14
R248). -/
def State.tilePlace (s : State) (l : Option Nat) (t : Nat) : Place :=
  match l with
  | some n => if (s.imageAt n t).isSome then .image n t else .tile t
  | none => .tile t

/-- Whether a context may name the scratchpad that a place is. -/
def State.placeFree (s : State) (ctx : Nat) (p : Place) : Bool :=
  match p with
  | .tile t => s.tileFree ctx t
  | _ => true

/-- A place and address an endpoint names for an issuer, where the instruction takes global, own and tile endpoints. -/
def State.resolve (s : State) (o : Nat) (e : Endpoint) : Option (Place × Dword) :=
  match e with
  | .global a => some (.global s.cur.ctx, a)
  | .own ofs => some (s.ownPlace o, BitVec.ofNat 64 ofs)
  | .tile t ofs => some (s.tilePlace (s.launchOf o) t, BitVec.ofNat 64 ofs)
  | .rect .. => none

/-- An endpoint register: poison-use, then bad-address (19 R317). -/
def State.endpoint (s : State) (o : Nat) (r : BitVec 6) : Eff (Dword × Endpoint) :=
  match s.useS o r with
  | .error e => .error e
  | .ok v => match endpointOf v with
    | some e => .ok (v, e)
    | none => trapWith causeBadAddress v

/-- Resolve an endpoint, with copy-state for a rectangle or a tile of another context. -/
def State.placeOf (s : State) (o : Nat) (v : Dword) (e : Endpoint) : Eff (Place × Dword) :=
  match s.resolve o e with
  | some x => if s.placeFree s.cur.ctx x.1 then .ok x else trapWith causeCopyState v
  | none => trapWith causeCopyState v

/-- The offset part of an endpoint that must be a multiple of 16. -/
def misalignedAt (v : Dword) (n : Nat) : Bool := v.toNat % n != 0

/-- The checks of two endpoints and a length, in R317's order: misaligned, scratch-range, copy-state. -/
def State.checkPair (s : State) (o : Nat) (dv : Dword) (de : Endpoint) (sv : Dword) (se : Endpoint) (len : Nat) :
    Eff (CopyPart) :=
  if misalignedAt dv 16 || len % 16 != 0 then trapWith causeMisaligned dv
  else if misalignedAt sv 16 then trapWith causeMisaligned sv
  else
    let ranged (e : Endpoint) : Bool := match s.resolve o e with
      | some (p, a) => s.placeRangeOk p a len
      | none => true
    if !ranged de then trapWith causeScratchRange dv
    else if !ranged se then trapWith causeScratchRange sv
    else match s.placeOf o dv de, s.placeOf o sv se with
      | .ok d, .ok r => .ok ⟨d.1, d.2, r.1, r.2, len⟩
      | .error e, _ => .error e
      | _, .error e => .error e

/-- Source and destination ranges that overlap in one space (19 R320). -/
def CopyPart.overlaps (p : CopyPart) : Bool :=
  p.dstAt == p.srcAt && decide (p.dst.toNat < p.src.toNat + p.len) && decide (p.src.toNat < p.dst.toNat + p.len)
    && decide (p.len ≠ 0)

/-! ### Channels (22 R346, R347) -/

/-- Skidder keys: 4 on each of six dies, then eight on the hub. -/
def hubSkidder (ctx : Nat) : Nat := 24 + ctx % 8
def State.ownSkidder (s : State) (o : Nat) : Nat :=
  if ownerIsTile o then (3 + o / 96) * 4 + o % 96 % 4
  else match s.coreOf o with
    | some k => k / 48 * 4 + k % 48 % 4
    | none => 0

/-- Channels an issuer holds, and channels taken on a skidder. -/
def State.channelsOf (s : State) (o : Nat) : Nat := (s.copies.filter (fun e => e.2.issuer == some o)).length
def State.channelsOn (s : State) (k : Nat) : Nat := (s.copies.filter (fun e => e.2.skidder == k)).length

/-- A request for a channel still stands: its issuer waits at the group it was made in, on its core or tile. -/
def State.stillAsks (s : State) (r : Nat × Nat × Dword) : Bool :=
  let o := r.2.1
  if ownerIsTile o then (match (s.tile o).stream with
    | some st => !st.saved && !st.halted && !st.parked.isEmpty
    | none => false)
  else (s.coreOf o).isSome && (s.liveStrands o).any (fun i => (s.strand i).pc == r.2.2 && (s.strand i).wait.isSome)

/-- Requests on a skidder that come before an owner's, or all of them where it has none (22 R347). -/
def State.requestsAhead (s : State) (k o : Nat) : Nat :=
  let asks := s.requests.filter (fun r => r.1 == k && s.stillAsks r)
  (asks.takeWhile (fun r => r.2.1 != o)).length

/-- Take an owner's request back, or put it behind the others. -/
def State.dropRequest (s : State) (k o : Nat) : State := { s with requests := s.requests.filter (fun r => !(r.1 == k && r.2.1 == o)) }
def State.askChannel (s : State) (k o : Nat) : State :=
  let rs := s.requests.filter s.stillAsks
  { s with requests := if rs.any (fun r => r.1 == k && r.2.1 == o && r.2.2 == s.cur.gpc) then rs
                       else rs.filter (fun r => !(r.1 == k && r.2.1 == o)) ++ [(k, o, s.cur.gpc)] }

/-- The crew and ordinal of the collective an owner's next CPY.COL belongs to (19 R320). -/
def State.collectiveKey (s : State) (o : Nat) : Option (Nat × Nat) := (Tbl.find? s.bundles o).map (fun (x : Bundle) => (x.crew, x.copyOrd))

/-- A collective of a crew that has a channel. -/
def State.collectiveOf (s : State) (key : Nat × Nat) : Option (Nat × Copy) :=
  List.find? (fun (e : Nat × Copy) => match e.2.kind with
    | .collective cr j _ _ => (cr, j) == key
    | _ => false) s.copies

/-- Which owners of a group wait for their wait mask or a channel, in rising order. `given` counts the channels the group's earlier
owners are to take of a skidder; `opened` lists the collectives they are to open. A later slice of a collective needs no channel of
its own (DEDUCED, log 116). -/
def State.channelWaits (s : State) (t : CopyTail) (hub masked col : Bool) (given : Nat) (opened : List (Nat × Nat)) :
    List Nat → State × List (Nat × Wait)
  | [] => (s, [])
  | o :: rest =>
    let k := if hub then hubSkidder s.cur.ctx else s.ownSkidder o
    let key := if col then s.collectiveKey o else none
    if masked && s.maskBusy o t.wm then
      let r := s.channelWaits t hub masked col given opened rest
      (r.1, (o, .rest) :: r.2)
    else if key.any (fun c => opened.contains c || (s.collectiveOf c).isSome) then s.channelWaits t hub masked col given opened rest
    else if 16 ≤ s.channelsOf o then
      let r := s.channelWaits t hub masked col given opened rest
      (r.1, (o, .again) :: r.2)
    else if 64 ≤ s.channelsOn k + given + s.requestsAhead k o then
      let r := (s.askChannel k o).channelWaits t hub masked col given opened rest
      (r.1, (o, .again) :: r.2)
    else (s.dropRequest k o).channelWaits t hub masked col (given + 1) (key.toList ++ opened) rest

/-- Wait for the wait mask and a channel, as a park point (19 R317): channels are granted in order of request (22 R347). -/
def State.channelPoint (s : State) (t : CopyTail) (hub masked col : Bool) : State :=
  if s.cur.cleared then s
  else
    let r := s.channelWaits t hub masked col 0 [] s.cur.owners
    r.1.ownerPoint (fun o => (r.2.find? (fun e => e.1 == o)).map Prod.snd)
def State.copyPoint (s : State) (t : CopyTail) (hub masked : Bool) : State := s.channelPoint t hub masked false

/-- Act for each owner once the mask is satisfied and a channel is free. -/
def afterChannel (s : State) (t : CopyTail) (hub : Bool) (f : Nat → State → Eff State) : Outcome State Fault Refusal :=
  conclude s (forOwners (s.copyPoint t hub true) f)

/-! ### Presence (04 R109, 19 R318) -/

/-- The scratchpad line that holds an address of a place: the place that owns it and its number there. -/
def State.lineAt (s : State) (p : Place) (a : Dword) : Option (Place × Nat) :=
  match p with
  | .crew c => (s.scratchAt c a).map (fun x => (.crew x.1, x.2.1 / 128))
  | .tile t => some (.tile t, a.toNat / 128)
  | .image l t => some (.image l t, a.toNat / 128)
  | _ => none

/-- The lines of n bytes at an address of a place, once each. -/
def State.linesAt (s : State) (p : Place) (a : Dword) (n : Nat) : List (Place × Nat) :=
  ((List.range ((a.toNat % 128 + n + 127) / 128)).filterMap (fun i => s.lineAt p (BitVec.ofNat 64 (a.toNat / 128 * 128 + 128 * i)))).eraseDups

/-- A line of a tile becomes absent, or present. -/
def Tile.clearLine (y : Tile) (l : Nat) : Tile := if y.absent.contains l then y else { y with absent := l :: y.absent }
def Tile.presentLine (y : Tile) (l : Nat) : Tile :=
  { y with absent := y.absent.filter (fun k => k != l), written := y.written.filter (fun u => u / 16 != l) }

def State.clearLine (s : State) (x : Place × Nat) : State :=
  match x.1 with
  | .crew c => match Tbl.find? s.crews c with
    | some y => if y.absent.contains x.2 then s else s.setCrew c { y with absent := x.2 :: y.absent }
    | none => s
  | .tile t => s.setTile t ((s.tile t).clearLine x.2)
  | .image l t => s.setImage l t (fun y => { y with image := y.image.clearLine x.2 })
  | _ => s

def State.presentLine (s : State) (x : Place × Nat) : State :=
  match x.1 with
  | .crew c => match Tbl.find? s.crews c with
    | some y => s.setCrew c { y with absent := y.absent.filter (fun l => l != x.2) }
    | none => s
  | .tile t => s.setTile t ((s.tile t).presentLine x.2)
  | .image l t => s.setImage l t (fun y => { y with image := y.image.presentLine x.2 })
  | _ => s

/-! ### Save images (14 R248, R253) -/

/-- The key of a saved stream that has been set aside, for the copies it has in flight. -/
def savedKey (l t : Nat) : Nat := 2 ^ 64 + 512 * l + t

/-- Change the places and the issuers that a copy names. -/
def CopyKind.relabel (f : Place → Place) (k : CopyKind) : CopyKind :=
  match k with
  | .gather row list first => .gather row (f list) first
  | .scatter row list first => .scatter row (f list) first
  | k => k
def Copy.relabel (f : Place → Place) (g : Nat → Nat) (c : Copy) : Copy :=
  { c with issuer := c.issuer.map g, kind := c.kind.relabel f,
           parts := c.parts.map (fun (p : CopyPart) => { p with dstAt := f p.dstAt, srcAt := f p.srcAt }),
           tokens := c.tokens.map (fun e => (g e.1, e.2)), bead := c.bead.map (fun e => (f e.1, e.2)),
           cleared := c.cleared.map (fun e => (f e.1, e.2)) }

/-- The tile and the image of a saved stream change names with each other. -/
def Place.swap (l t : Nat) (p : Place) : Place :=
  if p = .tile t then .image l t else if p = .image l t then .tile t
  else if p = .store t then .imageStore l t else if p = .imageStore l t then .store t else p
def swapKey (l t o : Nat) : Nat := if o = t then savedKey l t else if o = savedKey l t then t else o

/-- The state as the saved stream's image would be in the tile: the tile and the image change places. Doing it twice undoes it. -/
def State.swapImage (s : State) (l t : Nat) : State :=
  match s.imageAt l t with
  | none => s
  | some y =>
    ({ s.setImage l t (fun z => { z with image := s.tile t }) with
        copies := Tbl.mapVals (Copy.relabel (Place.swap l t) (swapKey l t)) s.copies }).setTile t y.image

/-! ### One unit (08 R166, 19 R318) -/

/-- A fatal error met by a copy ends its context with not-resident or permission (19 R318). -/
def copyCause : Stop → Nat
  | .stopped (.fatal c _) => if c = BitVec.ofNat 8 causeNotResident then causeNotResident else causePermission
  | .stopped (.trap c _ _) => if c = BitVec.ofNat 8 causeTagMismatch then causePermission else causeNotResident
  | _ => causeNotResident

/-- A page range of a shadow buffer that holds an address, if one is open (08 R177). -/
def State.shadowOf (s : State) (ctx va : Nat) : Option Shadow :=
  (s.ctx ctx).shadows.find? (fun (x : Shadow) => decide (x.base ≤ va % 2 ^ 56) && decide (va % 2 ^ 56 < x.base + x.len))

/-- Replace a shadow buffer by its base. -/
def State.setShadow (s : State) (ctx : Nat) (x : Shadow) : State :=
  let c := s.ctx ctx
  s.setCtx ctx { c with shadows := c.shadows.map (fun (y : Shadow) => if y.base = x.base then x else y) }

/-- The shadow frame of a page, made at its first copy from the visible page (19 R326); none while the pool is empty. -/
def State.shadowFrame (s : State) (ctx : Nat) (sh : Shadow) (va : Nat) (p : PageInfo) : Option (Nat × State) :=
  let page := va % 2 ^ 56 / p.size * p.size
  match Tbl.find? sh.frames page with
  | some f => some (f, s)
  | none =>
    match s.takeFrame (p.size != 65536) with
    | none => none
    | some (f, s1) =>
      let base := f * 65536
      some (base, ((s1.zeroMem base p.size).copyMem base p.base p.size).setShadow ctx
        { sh with frames := Tbl.insert sh.frames page base,
                  large := if p.size != 65536 then page :: sh.large else sh.large })

/-- Little-endian value of a list of bytes, and back. -/
def bytesLE : List Byte → Nat
  | [] => 0
  | b :: rest => b.toNat + 256 * bytesLE rest
def leBytes (v : Nat) : Nat → List Byte
  | 0 => []
  | n + 1 => BitVec.ofNat 8 v :: leBytes (v / 256) n

/-- What a row of an index list reads where it lies outside a scratchpad: the spec gives no value (log 27). -/
def freeBytes (s : State) (n : Nat) : List Byte × Bool × State :=
  let x := s.free
  let y := x.2.free
  (leBytes (x.1.toNat + 2 ^ 64 * y.1.toNat) n, false, y.2)

/-- Whether a unit of n bytes of a tile store is marked uncorrectable (26 R395). -/
def Tile.storeBad (x : Tile) (a n : Nat) : Bool :=
  x.storeMarked.any (fun u => decide (a / 16 ≤ u) && decide (u ≤ (a + n - 1) / 16))

/-- n bytes of a place that is no image, with whether a 16-byte unit of them is marked uncorrectable. -/
def State.readNear (s : State) (p : Place) (a : Dword) (n : Nat) : Eff (List Byte × Bool × State) :=
  match p with
  | .global ctx =>
    match s.globalAccess ctx a n n false true with
    | .error e => .error e
    | .ok (pa, p, t) => .ok (t.pageBytes p pa n, t.isMarked pa n, t)
  | .crew c =>
    match s.scratchAt c a with
    | none => .ok (freeBytes s n)
    | some (k, x, above) =>
      if s.crewLineAbsent k x then waitWith .again
      else .ok ((List.range n).map (fun i => if above then 0 else s.scratchByte k (x + i)), s.crewMarked k x n, s)
  | .tile t =>
    if 524288 < a.toNat + n then .ok (freeBytes s n)
    else match s.needLine t (a.toNat / 128) with
    | .error e => .error e
    | .ok u => .ok ((List.range n).map (fun i => (u.tile t).byte (a.toNat + i)), (u.tile t).isMarked a.toNat n, u)
  | .store t => .ok ((List.range n).map (fun i => Tbl.getD (s.tile t).store (a.toNat + i) 0), (s.tile t).storeBad a.toNat n, s)
  | .window base =>
    let pa := 2 ^ 51 + (base + a.toNat) % 2 ^ 51
    .ok (s.readBytes pa n, s.isMarked pa n, s)
  | _ => .ok (freeBytes s n)

/-- The bytes of a place; those of a save image as in its tile (14 R248). -/
def State.readPlace (s : State) (p : Place) (a : Dword) (n : Nat) : Eff (List Byte × Bool × State) :=
  let there (l t : Nat) (q : Place) : Eff (List Byte × Bool × State) :=
    if (s.imageAt l t).isSome then
      ((s.swapImage l t).readNear q a n).map (fun r => (r.1, r.2.1, r.2.2.swapImage l t))
    else .ok (freeBytes s n)
  match p with
  | .image l t => there l t (.tile t)
  | .imageStore l t => there l t (.store t)
  | p => s.readNear p a n

/-- Change n bytes of a place that is no image: `f` gives, from what stands there and whether it is marked, what is written and
whether that is marked uncorrectable (26 R395). -/
def State.changeNear (s : State) (p : Place) (a : Dword) (n : Nat) (f : List Byte → Bool → List Byte × Bool) : Eff State :=
  match p with
  | .global ctx =>
    match s.globalAccess ctx a n n true true with
    | .error e => .error e
    | .ok (pa, info, t) =>
      match t.shadowOf ctx a.toNat with
      | none =>
        let r := f (t.pageBytes info pa n) (t.isMarked pa n)
        let m := info.room pa n
        .ok { (t.noteWords pa m 1).writeBytes pa (r.1.take m) with marked := markUnits t.marked pa n r.2 }
      | some sh =>
        match t.shadowFrame ctx sh a.toNat info with
        | none => waitWith .again
        | some (base, u) =>
          let at0 := base + a.toNat % info.size
          let m := info.room pa n
          let r := f ((u.readBytes at0 m) ++ List.replicate (n - m) 0) (u.isMarked at0 n)
          let v := u.noteFrame (wordsOf ((List.range m).map (fun j => (at0 + j, (0 : Byte)))))
          .ok { v.writeBytes at0 (r.1.take m) with marked := markUnits u.marked at0 n r.2 }
  | .crew c =>
    match s.scratchAt c a with
    | none => .ok s
    | some (k, x, above) =>
      if above then .ok s
      else
        let r := f ((List.range n).map (fun i => s.scratchByte k (x + i))) (s.crewMarked k x n)
        let t := (List.range n).foldl (fun (t : State) i => t.setScratchByte k (x + i) (r.1.getD i 0)) s
        .ok (match Tbl.find? t.crews k with
          | some y => t.setCrew k { y with marked := markUnits y.marked x n r.2 }
          | none => t)
  | .tile t =>
    if 524288 < a.toNat + n then .ok s
    else
    let y := s.tile t
    let r := f ((List.range n).map (fun i => y.byte (a.toNat + i))) (y.isMarked a.toNat n)
    let x := (List.range n).foldl (fun (z : Tile) i => z.copyByte (a.toNat + i) (r.1.getD i 0)) y
    .ok (s.setTile t { x with marked := markUnits x.marked a.toNat n r.2 })
  | .store t =>
    let x := s.tile t
    let r := f ((List.range n).map (fun i => Tbl.getD x.store (a.toNat + i) 0)) (x.storeBad a.toNat n)
    .ok (s.setTile t { x with store := (List.range n).foldl (fun (m : Tbl Byte) i => Tbl.put 0 m (a.toNat + i) (r.1.getD i 0)) x.store,
                              storeMarked := markUnits x.storeMarked a.toNat n r.2 })
  | .window base =>
    let pa := 2 ^ 51 + (base + a.toNat) % 2 ^ 51
    let r := f (s.readBytes pa n) (s.isMarked pa n)
    .ok { s.writeBytes pa r.1 with marked := markUnits s.marked pa n r.2 }
  | _ => .ok s

/-- Change n bytes of a place; those of a save image as in its tile. -/
def State.changePlace (s : State) (p : Place) (a : Dword) (n : Nat) (f : List Byte → Bool → List Byte × Bool) : Eff State :=
  let there (l t : Nat) (q : Place) : Eff State :=
    if (s.imageAt l t).isSome then ((s.swapImage l t).changeNear q a n f).map (fun r => r.swapImage l t) else .ok s
  match p with
  | .image l t => there l t (.tile t)
  | .imageStore l t => there l t (.store t)
  | p => s.changeNear p a n f

/-- Write bytes in a place; `bad` marks the unit. -/
def State.writePlace (s : State) (p : Place) (a : Dword) (bs : List Byte) (bad : Bool) : Eff State :=
  s.changePlace p a bs.length (fun _ _ => (bs, bad))

/-- Move n bytes between two places. -/
def State.movePlace (s : State) (dp : Place) (d : Dword) (sp : Place) (a : Dword) (n : Nat) : Eff State :=
  match s.readPlace sp a n with
  | .error e => .error e
  | .ok (bs, bad, t) => t.writePlace dp d bs bad

/-- The part and the byte offset that unit u of a copy by parts moves. -/
def partAt : List CopyPart → Nat → Option (CopyPart × Nat)
  | [], _ => none
  | p :: rest, u => if u < p.len / 16 then some (p, 16 * u) else partAt rest (u - p.len / 16)

/-- The first part of a copy. -/
def Copy.head (c : Copy) : CopyPart := c.parts.headD ⟨.window 0, 0, .window 0, 0, 0⟩

/-- Indices of element u of a box, innermost first. -/
def boxIndex : List Nat → Nat → List Nat
  | [], _ => []
  | x :: rest, u => u % x :: boxIndex rest (u / x)

/-- The offset of a tensor element from the base, and whether it lies in the tensor (19 R321). -/
def tensorOffset (sh : Shape) (origin : List Int) (ix : List Nat) : Int × Bool :=
  ((List.range sh.dims.length).foldl (fun (acc : Int × Bool) d =>
    let p := origin.getD d 0 + (ix.getD d 0 : Int)
    let e := sh.dims.getD d (1, 0)
    (acc.1 + p * e.2, acc.2 && decide (0 ≤ p) && decide (p < (e.1 : Int)))) (0, true))

/-- An index of a gather or scatter list. -/
def State.listIndex (s : State) (p : Place) (a : Dword) (r : Nat) : Eff (Nat × State) :=
  match s.readPlace p (a + BitVec.ofNat 64 (4 * r)) 4 with
  | .error e => .error e
  | .ok (bs, _, t) => .ok (bytesLE bs, t)

/-- CPY.RED's combination of two elements (19 R322): add in the format's own rounding, or VMIN and VMAX. -/
def reduceElems (ty op : Nat) (fz : Bool) (x y : Nat) : Nat :=
  match codeFmt ty with
  | some f =>
    if op = 0 then (fresult f .rne fz (FVal.add .rne (fsource f fz x) (fsource f fz y))).1
    else fminmax f (op == 2) false fz x y
  | none =>
    let w := codeWidth ty
    let sg := codeSigned ty
    if op = 0 then (x + y) % 2 ^ w
    else
      let less := decide (intVal sg w x < intVal sg w y)
      if op = 1 then (if less then x else y) else (if less then y else x)

/-- Where unit u of a copy writes in a scratchpad: place, address, bytes. -/
def Copy.unitTarget (c : Copy) (u : Nat) : Option (Place × Dword × Nat) :=
  match c.kind with
  | .tensor out sh origin box n =>
    if out then
      let (d, inside) := tensorOffset sh origin (boxIndex box u)
      if inside then some (c.head.dstAt, c.head.dst + BitVec.ofInt 64 d, n) else none
    else some (c.head.dstAt, c.head.dst + BitVec.ofNat 64 (u * n), n)
  | .gather .. => some (c.head.dstAt, c.head.dst + BitVec.ofNat 64 (16 * u), 16)
  | .reduce ty .. => some (c.head.dstAt, c.head.dst + BitVec.ofNat 64 (u * (codeWidth ty / 8)), codeWidth ty / 8)
  | .rowsOut _ _ pitch width =>
    some (c.head.dstAt, c.head.dst + BitVec.ofNat 64 (u / (width / 16) * pitch + u % (width / 16) * 16), 16)
  | .plain | .shares .. | .collective .. | .linkRecv .. =>
    match partAt c.parts u with
    | some (p, k) => some (p.dstAt, p.dst + BitVec.ofNat 64 k, 16)
    | none => none
  | _ => none

/-- The rows a scatter names as its list stands, each with what its units write (19 R322). -/
def State.scatterTargets (s : State) (c : Copy) : List (Place × Dword × Nat) :=
  match c.kind with
  | .scatter row p first =>
    (List.range (c.units / (row / 16))).filterMap (fun r => match s.listIndex p first r with
      | .ok (ix, _) => if ix = 2 ^ 32 - 1 then none else some (c.head.dstAt, c.head.dst + BitVec.ofNat 64 (ix * row), row)
      | .error _ => none)
  | _ => []

/-- Everything a copy writes, stretch by stretch. -/
def State.copyTargets (s : State) (c : Copy) : List (Place × Dword × Nat) := (List.range c.units).filterMap c.unitTarget ++ s.scatterTargets c

/-- Scatter writes row r's unit only where no later row of the same index has written it (19 R322). -/
def State.scatterUnit (s : State) (c : Copy) (row : Nat) (p : Place) (first : Dword) (u : Nat) : Eff State :=
  let k := u % (row / 16)
  let r := u / (row / 16)
  match s.listIndex p first r with
  | .error e => .error e
  | .ok (ix, t) =>
    if ix = 2 ^ 32 - 1 then .ok t
    else
      let later := c.done.any (fun v => decide (r < v / (row / 16)) && v % (row / 16) == k &&
        (match t.listIndex p first (v / (row / 16)) with
         | .ok (j, _) => j == ix
         | .error _ => false))
      if later then .ok t
      else t.movePlace c.head.dstAt (c.head.dst + BitVec.ofNat 64 (ix * row + 16 * k)) c.head.srcAt
        (c.head.src + BitVec.ofNat 64 (16 * u)) 16

/-- The size of the page a region maps, and the region's first byte as an offset in that page (19 R323). -/
def State.regionPage (s : State) (t : Nat) (r : Region) : Nat × Nat :=
  match s.walk (s.tileCtx t) r.va.toNat with
  | .page p => (p.size, r.va.toNat % p.size)
  | _ => (65536, r.va.toNat % 65536)

/-- One operand row: K elements and their scales, packed into 48 bytes (19 R323). -/
def operandRow (x : Tile) (r : Region) (size base e0 : Nat) : List Byte :=
  let w := codeWidth r.fmt
  let k := if w = 4 then 64 else 32
  let data := (List.range k).foldl (fun (acc : Nat) i =>
    let e := e0 + i
    acc + elemOf r.fmt e (x.readLE (elemByte r.fmt e + 128 * r.sline - base) (elemBytes r.fmt e)) * 2 ^ (w * i)) 0
  let scales := (List.range (k / 16)).map (fun q =>
    x.byte (inlineScale size r.fmt r.geo ((e0 + 16 * q) / r.geo) + 128 * r.sline - base))
  leBytes data 32 ++ scales ++ List.replicate (16 - k / 16) 0

/-- A read-modify-write of a page needs read permission too (04 R103). -/
def State.canRead (s : State) (p : Place) (a : Dword) (n : Nat) : Eff State :=
  match p with
  | .global ctx => (s.globalAccess ctx a n n false true).map (fun r => r.2.2)
  | _ => .ok s

/-- The move of unit u of a copy. -/
def State.moveUnit (s : State) (c : Copy) (u : Nat) : Eff State :=
  match c.kind with
  | .plain | .shares .. | .collective .. =>
    match partAt c.parts u with
    | none => .ok s
    | some (p, k) => s.movePlace p.dstAt (p.dst + BitVec.ofNat 64 k) p.srcAt (p.src + BitVec.ofNat 64 k) 16
  | .tensor out sh origin box n =>
    let (d, inside) := tensorOffset sh origin (boxIndex box u)
    let dense := BitVec.ofNat 64 (u * n)
    if out then
      if inside then s.movePlace c.head.dstAt (c.head.dst + BitVec.ofInt 64 d) c.head.srcAt (c.head.src + dense) n else .ok s
    else if inside then s.movePlace c.head.dstAt (c.head.dst + dense) c.head.srcAt (c.head.src + BitVec.ofInt 64 d) n
    else s.writePlace c.head.dstAt (c.head.dst + dense) (List.replicate n 0) false
  | .gather row p first =>
    match s.listIndex p first (u / (row / 16)) with
    | .error e => .error e
    | .ok (ix, t) =>
      let d := c.head.dst + BitVec.ofNat 64 (16 * u)
      if ix = 2 ^ 32 - 1 then t.writePlace c.head.dstAt d (List.replicate 16 0) false
      else t.movePlace c.head.dstAt d c.head.srcAt (c.head.src + BitVec.ofNat 64 (ix * row + 16 * (u % (row / 16)))) 16
  | .scatter row p first => s.scatterUnit c row p first u
  | .reduce ty op fz =>
    let n := codeWidth ty / 8
    let d := c.head.dst + BitVec.ofNat 64 (u * n)
    -- the destination is read where it is written: in the shadow of an open buffer, and whatever its line's presence bit
    match s.readPlace c.head.srcAt (c.head.src + BitVec.ofNat 64 (u * n)) n with
    | .error e => .error e
    | .ok (x, bad1, t) =>
      match t.canRead c.head.dstAt d n with
      | .error e => .error e
      | .ok t2 => t2.changePlace c.head.dstAt d n (fun y bad2 =>
          (leBytes (reduceElems ty op fz (bytesLE y) (bytesLE x)) n, bad1 || bad2))
  | .rowsIn row col pitch width =>
    let j := u / (width / 16)
    let k := u % (width / 16) * 16
    s.movePlace c.head.dstAt (BitVec.ofNat 64 (512 * (row + j) + col + k)) c.head.srcAt
      (c.head.src + BitVec.ofNat 64 (j * pitch + k)) 16
  | .rowsOut row col pitch width =>
    let j := u / (width / 16)
    let k := u % (width / 16) * 16
    s.movePlace c.head.dstAt (c.head.dst + BitVec.ofNat 64 (j * pitch + k)) c.head.srcAt
      (BitVec.ofNat 64 (512 * (row + j) + col + k)) 16
  | .operands row col pitch e0 entry =>
    match c.head.srcAt with
    | .tile t =>
      let r := (s.tile t).region entry
      -- every line of the region the row reads must be present
      let w := codeWidth r.fmt
      let k := if w = 4 then 64 else 32
      let e := e0 + u * pitch
      let pg := s.regionPage t r
      let lo := elemByte r.fmt e + 128 * r.sline - pg.2
      let hi := elemByte r.fmt (e + k - 1) + 128 * r.sline - pg.2
      let sc := (List.range (k / 16)).map (fun q => (inlineScale pg.1 r.fmt r.geo ((e + 16 * q) / r.geo) + 128 * r.sline - pg.2) / 128)
      match (linesOf lo (hi - lo + 1) ++ sc).foldlM (fun (a : State) l => a.needLine t l) s with
      | .error e => .error e
      | .ok a => a.writePlace c.head.dstAt (BitVec.ofNat 64 (512 * (row + u) + col)) (operandRow (a.tile t) r pg.1 pg.2 e) false
    | _ => .ok s
  | .writeBack entry list _ =>
    match c.head.srcAt with
    | .tile t =>
      let x := s.tile t
      let r := x.region entry
      let un := list.getD u 0
      let va := r.va + BitVec.ofNat 64 (8 * un - 128 * r.sline)
      match s.writePlace (.global c.ctx) va ((List.range 8).map (fun i => x.byte (8 * un + i))) false with
      | .error e => .error e
      | .ok a => .ok (a.setTile t { a.tile t with dirty := (a.tile t).dirty.filter (fun d => d != un) })
    | _ => .ok s
  | _ => .ok s

/-- What unit u of a copy writes; a scatter's as its index list stands. -/
def State.unitWrites (s : State) (c : Copy) (u : Nat) : Option (Place × Dword × Nat) :=
  match c.kind with
  | .scatter row p first => (match s.listIndex p first (u / (row / 16)) with
    | .ok (ix, _) => if ix = 2 ^ 32 - 1 then none else some (c.head.dstAt, c.head.dst + BitVec.ofNat 64 (ix * row + 16 * (u % (row / 16))), 16)
    | .error _ => none)
  | _ => c.unitTarget u

/-- Whether a copy in flight has already written a byte of a scratchpad line that it makes present later (04 R109, 08 R176). -/
def State.landedAt (s : State) (p : Place) (a : Nat) : Bool :=
  s.copies.any (fun e => e.2.cleared.contains (p, a / 128) && e.2.done.any (fun u => match s.unitWrites e.2 u with
    | some (q, b, n) => (match q with
      | .crew k => (match s.scratchAt k b with
        | some (k2, x, _) => p == .crew k2 && decide (x ≤ a) && decide (a < x + n)
        | none => false)
      | q => p == q && decide (b.toNat ≤ a) && decide (a < b.toNat + n))
    | none => false))

/-- Set the presence bit of lines whose bytes the copy has all written (19 R318). -/
def State.finishLines (s : State) (c : Copy) (u : Nat) : State :=
  match c.unitTarget u with
  | none => s
  | some (p, a, n) =>
    (s.linesAt p a n).foldl (fun (t : State) l =>
      if c.cleared.contains l &&
          (List.range c.units).all (fun v => c.done.contains v || (match c.unitTarget v with
            | some (q, b, m) => !(s.linesAt q b m).contains l
            | none => true)) then t.presentLine l
      else t) s

/-- A collective moves nothing before every live bundle of its crew has supplied its slice (19 R320). -/
def State.copyStarted (s : State) (c : Copy) : Bool :=
  match c.kind with
  | .collective k _ ms _ => (match Tbl.find? s.crews k with
    | some x => x.bundles.all (fun b => ms.contains b || (s.liveStrands b).isEmpty || s.isPixelBundle b)
    | none => true)
  | _ => true

/-- Link transfers move by frames. -/
def Copy.isLink (c : Copy) : Bool :=
  match c.kind with
  | .linkSend .. | .linkRecv .. => true
  | _ => false

/-- The launch and tile of a copy that a saved stream issued before it was set aside. -/
def Copy.savedStream (c : Copy) : Option (Nat × Nat) :=
  match c.issuer with
  | some o => if 2 ^ 64 ≤ o then some ((o - 2 ^ 64) / 512, (o - 2 ^ 64) % 512) else none
  | none => none

/-- The state as a copy finds it: where a saved stream issued it, with the stream's image in its tile. -/
def State.viewOf (s : State) (c : Copy) : State :=
  match c.savedStream with
  | some (l, t) => s.swapImage l t
  | none => s

/-- Move one unit of a copy; no group is being issued meanwhile. -/
def State.moveOne (s : State) (id u : Nat) : Eff State :=
  match Tbl.find? s.copies id with
  | none => .ok s
  | some c => (({ s with cur := .idle } : State).moveUnit c u).map (fun t =>
      let c1 := { c with done := u :: c.done }
      ({ t with copies := Tbl.insert t.copies id c1, cur := s.cur }).finishLines c1 u)

/-- COPY_UNIT_TRANSFER: move one unit, not moved before; a failing page ends the context (19 R318). -/
def State.transferUnit (s : State) (id u : Nat) : State :=
  match Tbl.find? s.copies id with
  | none => s
  | some c =>
    if decide (c.units ≤ u) || c.done.contains u || !s.copyStarted c || c.isLink then s
    else match (s.viewOf c).moveOne id u with
      | .ok t => t.viewOf c
      | .error (.stopped (.wait _)) => s
      | .error (.fault _) => s
      | .error (.stopped (.fatal k a)) => s.endContext c.ctx (BitVec.ofNat 8 (copyCause (.stopped (.fatal k a)))) a
      | .error (.stopped (.trap k a x)) => s.endContext c.ctx (BitVec.ofNat 8 (copyCause (.stopped (.trap k a x)))) a

/-! ### Issue, completion and abort -/

/-- The place whose core or tile holds the bead a copy signals: its scratchpad destination, else the issuer's (19 R318). -/
def State.beadPlace (s : State) (o : Nat) (p : Place) (a : Dword) : Place :=
  match s.lineAt p a with
  | some (q, _) => q
  | none => s.ownPlace o

/-- Signal bead b of the core or tile of a place; a saved crew keeps the signal (14 R248). -/
def State.signalPlace (s : State) (ctx : Nat) (p : Place) (b : Nat) : State :=
  match p with
  | .tile t | .store t => s.signal ctx (tileBead t b) 1
  | .image l t => s.signal ctx (if (s.tile t).owner = some ctx then tileBead t b else .kept l t b) 1
  | .crew c =>
    match Tbl.find? s.crews c with
    | none => s
    | some x =>
      match x.core with
      | none => if x.saved then s.setCrew c { x with heldSignals := x.heldSignals ++ [b] } else s
      | some k => match s.findStay x.launch k with
        | some n => s.signal ctx (.stay n b) 1
        | none => s
  | _ => s

/-- The scratchpad lines a copy writes; a scatter's as its index list stands (log 117). -/
def State.copyLines (s : State) (c : Copy) : List (Place × Nat) :=
  ((s.copyTargets c).map (fun x => s.linesAt x.1 x.2.1 x.2.2)).flatten.eraseDups

/-- The tile that a place is the scratchpad of, in the machine or in a save image. -/
def State.tileOf (s : State) (p : Place) : Option Tile :=
  match p with
  | .tile t => some (s.tile t)
  | .image l t => (s.imageAt l t).map (fun y => y.image)
  | _ => none
def State.setTileOf (s : State) (p : Place) (x : Tile) : State :=
  match p with
  | .tile t => s.setTile t x
  | .image l t => s.setImage l t (fun y => { y with image := x })
  | _ => s

/-- The attribute of a place's bytes: its page's, or its region entry's (19 R320). -/
def State.attrOf (s : State) (p : Place) (a : Dword) : Nat × Nat × Bool :=
  match p with
  | .global ctx => match s.walk ctx a.toNat with
    | .page x => (x.fmt, x.geo, x.csc)
    | _ => (0, 32, false)
  | p => match s.tileOf p with
    | some x => (match x.regionAt (a.toNat / 128) with
      | some e => ((x.region e).fmt, (x.region e).geo, (x.region e).csc)
      | none => (0, 32, false))
    | none => (0, 32, false)

/-- RM1 with another attribute. -/
def regionAttr (rm1 : Dword) (x : Nat × Nat × Bool) : Dword :=
  BitVec.ofNat 5 x.1 ++ (if x.2.1 = 16 then 1#2 else if x.2.1 = 64 then 2#2 else 0#2) ++ BitVec.ofBool x.2.2
    ++ rm1.extractLsb' 0 56

/-- The carry of a part: its destination's region entry takes the source's attribute. -/
def State.carryAttr (s : State) (p : CopyPart) : State :=
  match s.tileOf p.dstAt with
  | some x =>
    match x.regionAt (p.dst.toNat / 128) with
    | none => s
    | some e =>
      let r := Tbl.getD x.map e (0, 0)
      s.setTileOf p.dstAt { x with map := Tbl.insert x.map e (r.1, regionAttr r.2 (s.attrOf p.srcAt p.src)) }
  | none => s

/-- Invalidate a region entry: its lines become present and lose their marks (19 R325). -/
def Tile.clearRegion (x : Tile) (e : Nat) : Tile :=
  let r := x.region e
  let inside (l : Nat) : Bool := r.holds l
  let m := Tbl.getD x.map e (0, 0)
  { x with map := Tbl.insert x.map e (m.1, m.2 &&& ~~~(1#64 <<< 33)),
           absent := x.absent.filter (fun l => !inside l), written := x.written.filter (fun u => !inside (u / 16)),
           dirty := x.dirty.filter (fun u => !inside (u / 16)) }

/-- A copy performs its release and is gone, which completes its tokens (19 R318). -/
def State.releaseCopy (s : State) (id : Nat) : State :=
  match Tbl.find? s.copies id with
  | none => s
  | some c =>
    let s1 := if c.carry then c.parts.foldl State.carryAttr s else s
    let s2 := match c.kind, c.head.srcAt with
      | .writeBack e _ clear, .tile t =>
        let x := s1.tile t
        s1.setTile t (if clear then x.clearRegion e else x)
      | .feed, .tile t => s1.setTile t { s1.tile t with feed := (s1.tile t).feed.map (fun (f : Feed) => { f with copy := none }) }
      | _, _ => s1
    match c.kind with
      -- a receive ends with its send: the lines its send did not reach become present (log 47)
      | .linkRecv .. => c.cleared.foldl State.presentLine { s2 with copies := Tbl.erase s2.copies id }
      | .scatter .. => c.cleared.foldl State.presentLine { s2 with copies := Tbl.erase s2.copies id }
      | _ => { s2 with copies := Tbl.erase s2.copies id }

/-- COPY_COMPLETION: the release, the tokens, then the bead (19 R318). A copy of a saved stream completes in its image (14 R248). -/
def State.completeCopy (s : State) (id : Nat) : State :=
  match Tbl.find? s.copies id with
  | none => s
  | some c =>
    let s3 := ((s.viewOf c).releaseCopy id).viewOf c
    let s4 := match c.bead with
      | some (p, b) => (match c.kind with
        | .shares _ => s3
        | _ => s3.signalPlace c.ctx p b)
      | none => s3
    let s5 : State := match c.hostBead with
      | some n => (match s4.beadAt c.ctx none n with
        | some a => s4.signal c.ctx a 1
        | none => s4)
      | none => s4
    if s5.command = .hostCopy id then s5.finishCommand 0 else s5

/-- Whether every unit of a copy is done, and what it follows has ended. -/
def State.copyDone (s : State) (c : Copy) : Bool :=
  match c.kind with
  | .null after => after.all (fun k => (Tbl.find? s.copies k).isNone)
  | .feed => (match c.head.srcAt with
    | .tile t => (match (s.tile t).feed with
      | some f => f.ended || decide (f.count ≤ f.written)
      | none => true)
    | _ => true)
  | .shares told => decide (told.length = c.parts.length) && decide (c.done.length = c.units)
  | .collective .. => decide (c.done.length = c.units) && s.copyStarted c
  | .fills lines => lines.isEmpty
  | .linkSend _ _ _ _ f => f
  | .linkRecv _ _ _ f => f
  | _ => decide (c.done.length = c.units)

/-- Put a copy in flight: presence bits of its destination are cleared (19 R318). One that moves nothing completes at once. -/
def State.issueCopy (s : State) (c : Copy) : State :=
  let id := s.nextCopy
  let lines := s.copyLines c
  let s1 := lines.foldl State.clearLine s
  let c1 := { c with cleared := lines }
  let s2 := { s1 with copies := Tbl.insert s1.copies id c1, nextCopy := id + 1 }
  if c1.units = 0 && s2.copyDone c1 then s2.completeCopy id else s2

/-- The fields every copy of an instruction shares. -/
def State.newCopy (s : State) (o : Nat) (t : CopyTail) (hub : Bool) (kind : CopyKind) (parts : List CopyPart) (units : Nat)
    (beadAt : Place) : Copy :=
  { issuer := some o, ctx := s.cur.ctx, launch := s.launchOf o, kind := kind, parts := parts, units := units, done := [],
    tokens := if t.te then [(o, t.tok)] else [], bead := if t.bs then some (beadAt, t.bead.toNat) else none, hostBead := none,
    cleared := [], skidder := if hub then hubSkidder s.cur.ctx else s.ownSkidder o, carry := false }

/-- Stop a copy in flight: its tokens complete, no bead of it is signalled, and the lines it cleared become present where no
other copy is in flight into them (19 R328). -/
def State.stopCopy (s : State) (id : Nat) : State :=
  match Tbl.find? s.copies id with
  | none => s
  | some c =>
    let s1 := { s with copies := Tbl.erase s.copies id }
    let s2 := match c.kind, c.head.srcAt with
      | .feed, .tile t => s1.setTile t { s1.tile t with feed := (s1.tile t).feed.map (fun (f : Feed) => { f with ended := true, copy := none }) }
      | _, _ => s1
    c.cleared.foldl (fun (t : State) l =>
      if t.copies.any (fun e => e.2.cleared.contains l) then t else t.presentLine l) s2

end Sys2Proof.Machine
end

