-- ==== Sys2Proof/Machine/MemoryOps.lean ====
section
/-! DEFINITION. The memory instructions, class MEM, but for the atomics (04 R101-R119). Each strand is checked in R102's
order; the group's stop, if any strand has one, discards what other strands did. -/

namespace Sys2Proof.Machine

open Host (Outcome)
open Sys2Proof (Guard)

/-- Each guarded strand on a raster core, or the stream on a tile. -/
def byProfile (g : Guard) (s : State) (raster tile : Nat → State → Eff State) : Eff State :=
  match s.cur.profile with
  | .raster => forStrands g s raster
  | .tile => forOwners s tile

/-- The address of a tile's access: s(a) and an offset in bytes. -/
def State.tileAddr (s : State) (t : Nat) (a : BitVec 6) {w : Nat} (off : BitVec w) : Eff Dword :=
  (s.useS t a).map (fun b => b + off.signExtend 64)

/-! ### Plain loads and stores (04 R105) -/

/-- A global load by a strand: the value of n bytes, and poison where they are marked. -/
def State.loadGlobal (s : State) (i : Nat) (addr : Dword) (n : Nat) (w : Nat) : Eff (Tagged w × State) :=
  match s.laneGlobal i addr n n false true with
  | .error e => .error e
  | .ok (pa, p, t) => .ok (t.loaded (strandBundle i) (strandIndex i) addr pa (t.isMarked pa n) (BitVec.ofNat w (t.pageLE p pa n)))

/-- LD.8, LD.16 and LD.32 of one strand. -/
def loadStrand (n : Nat) (d a : BitVec 6) (lb : Bool) (off : BitVec 31) (i : Nat) (s : State) : Eff State :=
  match s.laneAddr i a lb off with
  | .error e => .error e
  | .ok addr => (s.loadGlobal i addr n 32).map (fun r => r.2.setV i d.toNat r.1)

def execLd8 (g : Guard) (d a : BitVec 6) (lb : Bool) (off : BitVec 31) (s : State) : Outcome State Fault Refusal :=
  concludeAccess false s (forStrands g s (loadStrand 1 d a lb off))
def execLd16 (g : Guard) (d a : BitVec 6) (lb : Bool) (off : BitVec 31) (s : State) : Outcome State Fault Refusal :=
  concludeAccess false s (forStrands g s (loadStrand 2 d a lb off))
def execLd32 (g : Guard) (d a : BitVec 6) (lb : Bool) (off : BitVec 31) (s : State) : Outcome State Fault Refusal :=
  concludeAccess false s (forStrands g s (loadStrand 4 d a lb off))

def load64Strand (d a : BitVec 6) (lb : Bool) (off : BitVec 31) (i : Nat) (s : State) : Eff State :=
  match s.laneAddr i a lb off with
  | .error e => .error e
  | .ok addr => (s.loadGlobal i addr 8 64).map (fun r => r.2.setD2 i d.toNat r.1)

def execLd64 (g : Guard) (d a : BitVec 6) (lb : Bool) (off : BitVec 31) (s : State) : Outcome State Fault Refusal :=
  concludeAccess false s (forStrands g s (load64Strand d a lb off))

/-- LD.128: bytes 0-7 to d(d), bytes 8-15 to d(d+1). -/
def load128Strand (d a : BitVec 6) (lb : Bool) (off : BitVec 31) (i : Nat) (s : State) : Eff State :=
  match s.laneAddr i a lb off with
  | .error e => .error e
  | .ok addr => (s.loadGlobal i addr 16 128).map (fun r =>
      (r.2.setD2 i d.toNat (r.1.map1 (fun v => v.extractLsb' 0 64))).setD2 i (d.toNat + 1)
        (r.1.map1 (fun v => v.extractLsb' 64 64)))

def execLd128 (g : Guard) (d a : BitVec 6) (lb : Bool) (off : BitVec 31) (s : State) : Outcome State Fault Refusal :=
  concludeAccess false s (forStrands g s (load128Strand d a lb off))

/-- Store n bytes at a physical address: a unit written whole loses its mark (26 R395). -/
def State.storeMarked (s : State) (pa n v : Nat) : State :=
  { s.storeData pa n v with marked := markUnits s.marked pa n false }

/-- A store of n bytes by a strand, its data read and checked first. -/
def State.storeGlobal (s : State) (i : Nat) (addr : Dword) (n v : Nat) : Eff State :=
  match s.laneGlobal i addr n n true true with
  | .error e => .error e
  | .ok (pa, p, t) => .ok (t.storeMarked pa (p.room pa n) v)

/-- ST.8, ST.16 and ST.32 of one strand. -/
def storeStrand (n : Nat) (d a : BitVec 6) (lb : Bool) (off : BitVec 31) (i : Nat) (s : State) : Eff State :=
  match s.laneAddr i a lb off with
  | .error e => .error e
  | .ok addr => match s.useV i d.toNat with
    | .error e => .error e
    | .ok v => s.storeGlobal i addr n v.toNat

def execSt8 (g : Guard) (d a : BitVec 6) (lb : Bool) (off : BitVec 31) (s : State) : Outcome State Fault Refusal :=
  concludeAccess false s (forStrands g s (storeStrand 1 d a lb off))
def execSt16 (g : Guard) (d a : BitVec 6) (lb : Bool) (off : BitVec 31) (s : State) : Outcome State Fault Refusal :=
  concludeAccess false s (forStrands g s (storeStrand 2 d a lb off))
def execSt32 (g : Guard) (d a : BitVec 6) (lb : Bool) (off : BitVec 31) (s : State) : Outcome State Fault Refusal :=
  concludeAccess false s (forStrands g s (storeStrand 4 d a lb off))

def store64Strand (d a : BitVec 6) (lb : Bool) (off : BitVec 31) (i : Nat) (s : State) : Eff State :=
  match s.laneAddr i a lb off with
  | .error e => .error e
  | .ok addr => match s.useD i d.toNat with
    | .error e => .error e
    | .ok v => s.storeGlobal i addr 8 v.toNat

def execSt64 (g : Guard) (d a : BitVec 6) (lb : Bool) (off : BitVec 31) (s : State) : Outcome State Fault Refusal :=
  concludeAccess false s (forStrands g s (store64Strand d a lb off))

def store128Strand (d a : BitVec 6) (lb : Bool) (off : BitVec 31) (i : Nat) (s : State) : Eff State :=
  match s.laneAddr i a lb off with
  | .error e => .error e
  | .ok addr => match s.useD i d.toNat with
    | .error e => .error e
    | .ok v => match s.useD i (d.toNat + 1) with
      | .error e => .error e
      | .ok w => s.storeGlobal i addr 16 (v.toNat + 2 ^ 64 * w.toNat)

def execSt128 (g : Guard) (d a : BitVec 6) (lb : Bool) (off : BitVec 31) (s : State) : Outcome State Fault Refusal :=
  concludeAccess false s (forStrands g s (store128Strand d a lb off))

/-! ### Format-decoding accesses (04 R106, R107) -/

/-- The book of the load paths of a strand's launch (07 R162); E2M1's where its header names none. -/
def State.bookOf (s : State) (i : Nat) : List Nat :=
  match s.launchOf (strandBundle i) with
  | some l => match Tbl.find? s.launches l with
    | some x => if x.book.isEmpty then resetBook else x.book
    | none => resetBook
  | none => resetBook

/-- An element in a page: where its bytes are, which it is, and the page. -/
structure ElemAt where
  pa : Nat
  e : Nat
  page : PageInfo
deriving DecidableEq, Repr

/-- Bytes that elements of a width start at multiples of, from the page base (04 R106). -/
def elemUnit (w : Nat) : Nat := if w = 6 then 3 else if 8 ≤ w then w / 8 else 1

/-- Locate the element a base and an offset in elements name, in the base's page: alignment, format and range, then tags. -/
def State.elemIn (t : State) (p : PageInfo) (base : Dword) (off : Int) : Eff ElemAt :=
  let w := codeWidth p.fmt
  let rel := base.toNat % p.size
  let e : Int := ((rel * 8 / w : Nat) : Int) + off
  if !codeValid p.fmt then trapWith causeBadFormat base
  else if rel % elemUnit w != 0 then trapWith causeMisaligned base
  else if p.fmt = 0x13 ∨ p.fmt = 0x17 then trapWith causeBadFormat base
  else if e < 0 ∨ (pageElems p.size p.fmt p.geo p.csc : Int) ≤ e then
    trapWith causeFormatRange (base + BitVec.ofInt 64 ((off * w) / 8))
  else
    let k := e.toNat
    let pa := p.base + elemByte p.fmt k
    let inPage := codeScaled p.fmt && !p.csc
    if inPage && !p.canRead then fatalWith causePermission base
    else if p.tagged && (!t.tagsMatch pa (elemBytes p.fmt k) (addrTag base) ||
        (inPage && !t.tagsMatch (p.scaleAt k) 1 (addrTag base))) then
      trapWith causeTagMismatch (base + BitVec.ofInt 64 ((off * w) / 8))
    else if !paExists pa then .error (.fault (.noMemory pa))
    else if codeScaled p.fmt && !paExists (p.scaleAt k) then .error (.fault (.noMemory (p.scaleAt k)))
    else .ok ⟨pa, k, p⟩

/-- The element a base and an offset in elements name, in R102's order for LDX: the translation comes first. -/
def State.elemAccess (s : State) (ctx : Nat) (base : Dword) (off : Int) (write : Bool) : Eff (ElemAt × State) :=
  if base.extractLsb' 60 4 != 0 then trapWith causeBadAddress base
  else
    match s.pageFor ctx base write with
    | .error e => .error e
    | .ok (p, t) => (t.elemIn p base off).map (fun x => (x, t))

/-- The lines of an element and of its scale enter the bundle's lease filter: one access (04 R106, 07 R152). -/
def State.touchElem (s : State) (b : Nat) (x : ElemAt) : State :=
  let t := s.touch b x.pa
  if codeScaled x.page.fmt then t.touch b (x.page.scaleAt x.e) else t

/-- The scale byte of an element; 127, which is one, where its format has none. -/
def State.scaleOf (s : State) (x : ElemAt) : Nat := if codeScaled x.page.fmt then s.readLE (x.page.scaleAt x.e) 1 else 127

/-- The code of an element. -/
def State.codeAt (s : State) (x : ElemAt) : Nat :=
  elemOf x.page.fmt x.e (s.readLE x.pa (elemBytes x.page.fmt x.e))

/-- Whether an element or its scale lies in a marked unit. -/
def State.elemMarked (s : State) (x : ElemAt) : Bool :=
  s.isMarked x.pa (elemBytes x.page.fmt x.e) || (codeScaled x.page.fmt && s.isMarked (x.page.scaleAt x.e) 1)

/-- What LDX delivers for a code: raw, extended, or decoded into FP32 (04 R106). -/
def ldxValue (fmt : Nat) (book : List Nat) (fz : Bool) (scale c : Nat) : Nat × FFlags :=
  if fmt = 0 ∨ fmt = 1 then (c, {})
  else if codeIsInt fmt then (intCode 32 (intVal (codeSigned fmt) (codeWidth fmt) c), {})
  else fround fmtFP32 .rne fz (if codeScaled fmt then scaledDecode fmt book scale c else elemDecode fmt book c)

/-- LDX of one strand. -/
def ldxStrand (d a : BitVec 6) (lb : Bool) (off : BitVec 31) (i : Nat) (s : State) : Eff State :=
  match s.laneBase i a lb with
  | .error e => .error e
  | .ok base => match s.elemAccess s.cur.ctx base off.toInt false with
    | .error e => .error e
    | .ok (x, t) =>
      let r := ldxValue x.page.fmt (t.bookOf i) (t.fzOf i) (t.scaleOf x) (t.codeAt x)
      let bad := t.elemMarked x
      let v := t.loaded (strandBundle i) (strandIndex i) base x.pa bad (BitVec.ofNat 32 r.1)
      .ok (((v.2.setV i d.toNat v.1).raiseOf i (if bad then FFlags.none else r.2)).touchElem (strandBundle i) x)

def execLdx (g : Guard) (d a : BitVec 6) (lb : Bool) (off : BitVec 31) (s : State) : Outcome State Fault Refusal :=
  concludeAccess true s (forStrands g s (ldxStrand d a lb off))

/-- The quotient of a value by a block scale; v itself under 0xFF (04 R107). -/
def quotient (x : FVal) (scale : Nat) : FVal := if scale = 0xFF then x else x.scale (127 - (scale : Int))

/-- The code STX stores for a word (04 R107). -/
def stxCode (fmt : Nat) (book : List Nat) (md : FMode) (fz ofs : Bool) (scale v : Nat) : Nat × FFlags :=
  if fmt = 0 ∨ fmt = 1 ∨ codeIsInt fmt then (v % 2 ^ codeWidth fmt, {})
  else
    let x := fsource fmtFP32 fz v
    match fmt with
    | 0x02 => fround fmtFP16 md fz x
    | 0x03 => fround fmtBF16 md fz x
    | 0x04 => fnarrow fmtE4M3 ofs x
    | 0x05 => fnarrow fmtE5M2 ofs x
    | 0x06 => fnarrow fmtE4M3 ofs (quotient x scale)
    | 0x07 => fnarrow fmtE5M2 ofs (quotient x scale)
    | _ => blockEncode fmt book (quotient x scale)

/-- STX of one strand. -/
def stxStrand (d a : BitVec 6) (lb : Bool) (off : BitVec 31) (i : Nat) (s : State) : Eff State :=
  match s.laneBase i a lb with
  | .error e => .error e
  | .ok base => match s.useV i d.toNat with
    | .error e => .error e
    | .ok v => match s.elemAccess s.cur.ctx base off.toInt true with
      | .error e => .error e
      | .ok (x, t) =>
        let r := stxCode x.page.fmt (t.bookOf i) (t.modeOf i) (t.fzOf i) (acrOfs (t.acr (strandBundle i))) (t.scaleOf x) v.toNat
        let n := elemBytes x.page.fmt x.e
        .ok (((t.storeMarked x.pa n (elemInto x.page.fmt x.e (t.readLE x.pa n) r.1)).raiseOf i r.2).touchElem (strandBundle i) x)

def execStx (g : Guard) (d a : BitVec 6) (lb : Bool) (off : BitVec 31) (s : State) : Outcome State Fault Refusal :=
  concludeAccess true s (forStrands g s (stxStrand d a lb off))

/-! ### The read-only path (04 R108, 08 R181) -/

/-- The key of a strand's reads of a word through the read-only path. -/
def roKey (i pa : Nat) : Nat := 2 ^ 52 * i + pa

/-- The store from before which no word is read: the later of the start of the strand's launch and the last INV.RO of its core, and no
strand goes back (08 R181; log 29). -/
def State.roFloor (s : State) (i pa : Nat) : Nat :=
  let start := match s.launchOf (strandBundle i) with
    | some l => ((Tbl.find? s.launches l).bind (fun (x : Launch) => x.begun)).getD 0
    | none => 0
  let inv := match s.coreOf (strandBundle i) with
    | some k => (s.core k).ro
    | none => 0
  max (max start inv) (Tbl.getD s.roSeen (roKey i pa) 0)

/-- A word of a page through the read-only path: memory's, or one that a store has replaced since the strand's floor, by a free choice
(08 R181). -/
def State.readOnlyWord (s : State) (p : PageInfo) (i pa : Nat) : Word × State :=
  let now : Word := BitVec.ofNat 32 (s.readLE pa 4)
  let r : Word × State := match (Tbl.getD s.stale pa []).filter (fun x => decide (s.roFloor i pa < x.gone)) with
    | [] => (now, s)
    | ws =>
      let f := s.free
      match ws[f.1.toNat % (ws.length + 1)]? with
      | some x => (x.word, { f.2 with roSeen := Tbl.insert s.roSeen (roKey i pa) (x.gone - 1) })
      | none => (now, { f.2 with roSeen := Tbl.insert s.roSeen (roKey i pa) s.writes })
  (BitVec.ofNat 32 (r.1.toNat % 256 ^ p.room pa 4), r.2)

def ldroStrand (d a : BitVec 6) (lb : Bool) (off : BitVec 31) (i : Nat) (s : State) : Eff State :=
  match s.laneAddr i a lb off with
  | .error e => .error e
  | .ok addr => match s.laneGlobal i addr 4 4 false true with
    | .error e => .error e
    | .ok (pa, p, t) =>
      let r := t.readOnlyWord p i pa
      let v := r.2.loaded (strandBundle i) (strandIndex i) addr pa (r.2.isMarked pa 4) r.1
      .ok (v.2.setV i d.toNat v.1)

def execLdro (g : Guard) (d a : BitVec 6) (lb : Bool) (off : BitVec 31) (s : State) : Outcome State Fault Refusal :=
  concludeAccess false s (forStrands g s (ldroStrand d a lb off))

/-- INV.RO: every read-only copy that the cores of the acting strands could return is discarded (04 R118). -/
def execInvRo (g : Guard) (s : State) : Outcome State Fault Refusal :=
  .next (eachStrand g s (fun i t => match t.coreOf (strandBundle i) with
    | some k => t.setCore k { t.core k with ro := t.writes }
    | none => t))

/-! ### The scratchpad (04 R109, R110) -/

/-- The crew of a strand's bundle. -/
def State.crewId (s : State) (i : Nat) : Nat :=
  match Tbl.find? s.bundles (strandBundle i) with
  | some x => x.crew
  | none => 0

/-- Whether the line a strand's access names is absent. -/
def State.strandAbsent (s : State) (i : Nat) (a : BitVec 6) (lb : Bool) {w : Nat} (off : BitVec w) : Bool :=
  match s.laneAddr i a lb off with
  | .ok addr => match s.scratchAt (s.crewId i) addr with
    | some (c, x, _) => s.crewLineAbsent c x
    | none => false
  | .error _ => false

/-- Presence as a park point: guarded strands whose line is absent leave the group (06 R135). -/
def State.presencePoint (s : State) (g : Guard) (a : BitVec 6) (lb : Bool) {w : Nat} (off : BitVec w) : State :=
  match s.cur.profile with
  | .raster => s.parkOut (fun i => if s.guardOn g i && s.strandAbsent i a lb off then some .again else none)
  | .tile => s

/-- Act once absent lines have let their strands leave. -/
def afterPresence (g : Guard) (a : BitVec 6) (lb : Bool) {w : Nat} (off : BitVec w) (s : State) (raster tile : Nat → State → Eff State) :
    Outcome State Fault Refusal :=
  concludeAccess false s (byProfile g (if s.cur.cleared then s else s.presencePoint g a lb off) raster tile)

/-- n bytes of a crew's scratchpad at an address, once its line is present: zero above the header's size. -/
def State.scratchLoad (s : State) (i : Nat) (addr : Dword) (n w : Nat) : Eff (Tagged w × State) :=
  match s.scratchAccess (s.crewId i) addr n with
  | .error e => .error e
  | .ok (c, x, above) =>
    if s.crewLineAbsent c x then waitWith .again
    else .ok (s.loaded (strandBundle i) (strandIndex i) addr addr.toNat (s.crewMarked c x n) (BitVec.ofNat w (if above then 0 else s.scratchLE c x n)))

/-- Store n bytes in a crew's or a tile's scratchpad. In a line that copies in flight are to write, the bytes they have written already
stand: the copy's data is the outcome, whatever the timing (04 R109, 08 R176). -/
def State.storeScratch (s : State) (c a n v : Nat) : State :=
  if s.lineInFlight (.crew c) (a / 128) then
    (List.range n).foldl (fun (t : State) j => if s.landedAt (.crew c) (a + j) then t else t.setScratchByte c (a + j) (BitVec.ofNat 8 (v / 256 ^ j))) s
  else s.writeScratch c a n v
def State.storeTile (s : State) (t a n v : Nat) : State :=
  if (linesOf a n).any (s.lineInFlight (.tile t)) then
    s.setTile t ((List.range n).foldl (fun (y : Tile) j =>
      if s.landedAt (.tile t) (a + j) then y else y.setByte (a + j) (BitVec.ofNat 8 (v / 256 ^ j))) (s.tile t))
  else s.setTile t ((s.tile t).writeLE a n v)

/-- Store n bytes in a crew's scratchpad; bytes above the header's size stay zero. -/
def State.scratchStore (s : State) (i : Nat) (addr : Dword) (n v : Nat) : Eff State :=
  match s.scratchAccess (s.crewId i) addr n with
  | .error e => .error e
  | .ok (c, x, above) => .ok (if above then s else s.storeScratch c x n v)

/-- n bytes of a tile's scratchpad at an address, filled on first touch. -/
def State.tileLoad (s : State) (t : Nat) (addr : Dword) (n w : Nat) : Eff (Tagged w × State) :=
  match tileAccess addr n n with
  | .error e => .error e
  | .ok x => match s.needLine t (x / 128) with
    | .error e => .error e
    | .ok u => .ok (u.loaded t 0 addr x ((u.tile t).isMarked x n) (BitVec.ofNat w ((u.tile t).readLE x n)))

/-- Store n bytes in a tile's scratchpad, waiting for nothing. -/
def State.tileStore (s : State) (t : Nat) (addr : Dword) (n v : Nat) : Eff State :=
  match tileAccess addr n n with
  | .error e => .error e
  | .ok x => .ok (s.storeTile t x n v)

def ldsStrand (d a : BitVec 6) (lb : Bool) (off : BitVec 31) (i : Nat) (s : State) : Eff State :=
  match s.laneAddr i a lb off with
  | .error e => .error e
  | .ok addr => (s.scratchLoad i addr 4 32).map (fun r => r.2.setV i d.toNat r.1)

def ldsTile (d a : BitVec 6) (off : BitVec 31) (t : Nat) (s : State) : Eff State :=
  match s.tileAddr t a off with
  | .error e => .error e
  | .ok addr => (s.tileLoad t addr 8 64).map (fun r => r.2.setS t d r.1)

def execLds (g : Guard) (d a : BitVec 6) (lb : Bool) (off : BitVec 31) (s : State) : Outcome State Fault Refusal :=
  afterPresence g a lb off s (ldsStrand d a lb off) (ldsTile d a off)

def stsStrand (d a : BitVec 6) (lb : Bool) (off : BitVec 31) (i : Nat) (s : State) : Eff State :=
  match s.laneAddr i a lb off with
  | .error e => .error e
  | .ok addr => match s.useV i d.toNat with
    | .error e => .error e
    | .ok v => s.scratchStore i addr 4 v.toNat

def stsTile (d a : BitVec 6) (off : BitVec 31) (t : Nat) (s : State) : Eff State :=
  match s.tileAddr t a off with
  | .error e => .error e
  | .ok addr => match s.useS t d with
    | .error e => .error e
    | .ok v => s.tileStore t addr 8 v.toNat

def execSts (g : Guard) (d a : BitVec 6) (lb : Bool) (off : BitVec 31) (s : State) : Outcome State Fault Refusal :=
  conclude s (byProfile g s (stsStrand d a lb off) (stsTile d a off))

/-- PRES of one strand: the presence of the line that holds its address. -/
def presStrand (d a : BitVec 6) (lb : Bool) (off : BitVec 31) (i : Nat) (s : State) : Eff State :=
  match s.laneAddr i a lb off with
  | .error e => .error e
  | .ok addr => match s.scratchAt (s.crewId i) addr with
    | none => trapWith causeScratchRange addr
    | some (c, x, _) =>
      let r := s.deliver (strandBundle i) (strandIndex i) 3 (if s.crewLineAbsent c x then 0 else 1)
      .ok (r.2.setP i d.toNat (r.1 != 0))

def presTile (d a : BitVec 6) (off : BitVec 31) (t : Nat) (s : State) : Eff State :=
  match s.tileAddr t a off with
  | .error e => .error e
  | .ok addr =>
    if addr.toNat < 524288 then
      let r := s.deliver t 0 3 (if (s.tile t).absent.contains (addr.toNat / 128) then 0 else 1)
      .ok (r.2.putS t d r.1)
    else trapWith causeScratchRange addr

def execPres (g : Guard) (d a : BitVec 6) (lb : Bool) (off : BitVec 31) (s : State) : Outcome State Fault Refusal :=
  conclude s (byProfile g s (presStrand d a lb off) (presTile d a off))

/-! ### Acquire, release and speculative loads (04 R114, R115) -/

def execLda (g : Guard) (d a : BitVec 6) (lb : Bool) (off : BitVec 31) (s : State) : Outcome State Fault Refusal :=
  concludeAccess false s (byProfile g s (loadStrand 4 d a lb off) (ldsTile d a off))
def execSta (g : Guard) (d a : BitVec 6) (lb : Bool) (off : BitVec 31) (s : State) : Outcome State Fault Refusal :=
  concludeAccess false s (byProfile g s (storeStrand 4 d a lb off) (stsTile d a off))

/-- Poison for a condition that LD.S meets (04 R115): the cause and the address are its origin. -/
def State.specPoison (s : State) (o st : Nat) (cause : BitVec 8) (addr : Dword) : Tagged 64 × State :=
  let r := s.newOrigin o ⟨cause, addr, false, 0, BitVec.ofNat 8 st⟩
  (⟨0, some r.1⟩, r.2)

/-- LD.S of one strand: a global dword into d(d). -/
def ldSStrand (d a : BitVec 6) (lb : Bool) (off : BitVec 31) (i : Nat) (s : State) : Eff State :=
  match s.laneAddr i a lb off with
  | .error e => .error e
  | .ok addr => match s.loadGlobal i addr 8 64 with
    | .ok r => .ok (r.2.setD2 i d.toNat r.1)
    | .error (.stopped (.trap c x o)) =>
      let p := (s.keepBacking false (.trap c x o)).specPoison (strandBundle i) (strandIndex i) c addr
      .ok (p.2.setD2 i d.toNat p.1)
    | .error (.stopped (.fatal c x)) =>
      let p := (s.keepBacking false (.fatal c x)).specPoison (strandBundle i) (strandIndex i) c addr
      .ok (p.2.setD2 i d.toNat p.1)
    | .error e => .error e

/-- LD.S of a stream: a scratchpad dword into s(d); an absent line is waited for, and a failed fill is poison whose origin records the
access's own address (log 118). A reserved page that the fill met stays backed. -/
def ldSTile (d a : BitVec 6) (off : BitVec 31) (t : Nat) (s : State) : Eff State :=
  match s.tileAddr t a off with
  | .error e => .error e
  | .ok addr => match s.tileLoad t addr 8 64 with
    | .ok r => .ok (r.2.setS t d r.1)
    | .error (.stopped (.trap c x o)) =>
      let p := (s.keepBacking false (.trap c x o)).specPoison t 0 c addr
      .ok (p.2.setS t d p.1)
    | .error (.stopped (.fatal c x)) =>
      let p := (s.keepBacking false (.fatal c x)).specPoison t 0 c addr
      .ok (p.2.setS t d p.1)
    | .error e => .error e

def execLdS (g : Guard) (d a : BitVec 6) (lb : Bool) (off : BitVec 31) (s : State) : Outcome State Fault Refusal :=
  concludeAccess false s (byProfile g s (ldSStrand d a lb off) (ldSTile d a off))

/-! ### Queue loads and stores (04 R116) -/

/-- LDQ: 256 bytes of the scratchpad pushed as one entry; a full queue of 8, or an absent line, stalls. -/
def ldqTile (d a : BitVec 6) (off : BitVec 31) (t : Nat) (s : State) : Eff State :=
  match s.tileAddr t a off with
  | .error e => .error e
  | .ok addr => match tileAccess addr 256 32 with
    | .error e => .error e
    | .ok x =>
      if 8 ≤ (s.queue t d.toNat).length then waitWith .again
      else match (linesOf x 256).foldlM (fun (u : State) l => u.needLine t l) s with
        | .error e => .error e
        | .ok u => .ok (u.setQueue t d.toNat (u.queue t d.toNat ++ [(u.tile t).readLE x 256]))

def execLdq (_g : Guard) (d a : BitVec 6) (_lb : Bool) (off : BitVec 31) (s : State) : Outcome State Fault Refusal :=
  concludeAccess false s (forOwners s (ldqTile d a off))

/-- STQ: the oldest entry, written to the scratchpad; an empty queue stalls. -/
def stqTile (d a : BitVec 6) (off : BitVec 31) (t : Nat) (s : State) : Eff State :=
  match s.tileAddr t a off with
  | .error e => .error e
  | .ok addr => match tileAccess addr 256 32 with
    | .error e => .error e
    | .ok x => (s.popQueue t d.toNat).map (fun r => r.2.storeTile t x 256 r.1)

def execStq (_g : Guard) (d a : BitVec 6) (_lb : Bool) (off : BitVec 31) (s : State) : Outcome State Fault Refusal :=
  conclude s (forOwners s (stqTile d a off))

/-! ### Residency and maintenance (04 R117, R118) -/

/-- The ranges of PROBE or of cache maintenance (04 R101), or what stops each: with m each guarded strand's own, else one for the
stream or for each bundle of the group that has a guarded strand (log 102). Errors in order: poison-use, bad-address. -/
def State.rangeList (s : State) (g : Guard) (a b : BitVec 6) (m : Bool) : List (Eff (Dword × Nat)) :=
  let one (r : Eff (Dword × Dword)) : Eff (Dword × Nat) :=
    match r with
    | .error e => .error e
    | .ok (x, n) => if x.extractLsb' 60 4 != 0 then trapWith causeBadAddress x else .ok (x, n.toNat)
  match s.cur.profile with
  | .tile => s.cur.owners.map (fun o => one (s.scalarRange o a b))
  | .raster =>
    let is := actingStrands s g
    if m then is.map (fun i => one (s.laneRange i a b))
    else ((is.map strandBundle).eraseDups).map (fun o => one (s.scalarRange o a b))

/-- All of them, or what stops the first. -/
def State.ranges (s : State) (g : Guard) (a b : BitVec 6) (m : Bool) : Eff (List (Dword × Nat)) := (s.rangeList g a b m).mapM id

/-- Make one page resident (04 R117); the stop where that cannot be. -/
def State.makeResident (s : State) (ctx : Nat) (va : Dword) : State × Option Stop :=
  match s.walk ctx va.toNat with
  | .page _ => (s, none)
  | .reserved e a b l => (match s.backPage e a b l with
    | some t => (t, none)
    | none => (s, some (.stopped (.wait .again))))
  | .inHost e a b l =>
    -- no tags travel with a page held in host memory (15 R261)
    if a.getLsbD 7 then (s, some (.stopped (.trap (BitVec.ofNat 8 causeProbeFault) va none)))
    else (match s.migratePage e a b l with
      | some t => (t, none)
      | none => (s, some (.stopped (.wait .again))))
  | .absent => (s, some (.stopped (.trap (BitVec.ofNat 8 causeProbeFault) va none)))

/-- Make n pages from an address resident, in increasing order. -/
def State.probePages (s : State) (ctx : Nat) (va : Dword) : Nat → State × Option Stop
  | 0 => (s, none)
  | n + 1 => match s.makeResident ctx va with
    | (t, none) => t.probePages ctx (va + 65536) n
    | r => r

/-- PROBE of a range: pages before a failing one stay resident. -/
def State.probeRange (s : State) (ctx : Nat) (x : Dword × Nat) : State × Option Stop :=
  let (a, n) := x
  if n = 0 then (s, none)
  else
    let first := a.toNat % 2 ^ 56 / 65536
    s.probePages ctx (BitVec.ofNat 64 (65536 * first)) ((a.toNat % 2 ^ 56 + n - 1) / 65536 - first + 1)

/-- PROBE of ranges in order, the first failure reported: one of a range itself lets no range be probed (04 R102). -/
def State.probeAll (s found : State) (ctx : Nat) : List (Eff (Dword × Nat)) → State × Option Stop
  | [] => (s, none)
  | .error e :: _ => (found, some e)
  | .ok x :: rest =>
    if 2 ^ 30 < x.2 then (found, some (.stopped (.trap (BitVec.ofNat 8 causeProbeFault) x.1 none)))
    else match s.probeRange ctx x with
      | (t, none) => t.probeAll found ctx rest
      | r => r

/-- PROBE's work, with the stop it meets. On a tile it waits for everything earlier in its stream. -/
def State.probeWork (s : State) (g : Guard) (a b : BitVec 6) (m : Bool) : State × Option Stop :=
  match s.drainPoint true with
  | .error e => (s, some e)
  | .ok t => t.probeAll t t.cur.ctx (t.rangeList g a b m)

def execProbe (g : Guard) (a b : BitVec 6) (m : Bool) (s : State) : Outcome State Fault Refusal :=
  match s.probeWork g a b m with
  | (t, none) => .next t
  | (t, some e) => conclude t (.error e)

/-- The 64 KiB pieces of a range: the physical stretch of each that is resident. -/
def State.residentParts (s : State) (ctx : Nat) (x : Dword × Nat) : List (Nat × Nat) :=
  let a := x.1.toNat % 2 ^ 56
  if x.2 = 0 then []
  else
    let lo := a / 128 * 128
    let hi := (a + x.2 - 1) / 128 * 128 + 128
    (List.range ((hi - 1) / 65536 - lo / 65536 + 1)).filterMap (fun i =>
      let va := 65536 * (lo / 65536 + i)
      match s.walk ctx va with
      | .page p =>
        let from_ := max lo va
        let upto := min hi (va + 65536)
        some (p.pa from_, upto - from_)
      | _ => none)

/-- Apply a change to the pending words under the resident parts of ranges (08 R182). -/
def State.mapStale (s : State) (ctx : Nat) (rs : List (Dword × Nat)) (f : OldWord → OldWord) : State :=
  let parts := (rs.map (s.residentParts ctx)).flatten
  { s with stale := s.stale.map (fun e => if parts.any (fun p => decide (p.1 ≤ e.1) && decide (e.1 < p.1 + p.2)) then (e.1, e.2.map f) else e) }

/-- CWB and CINV: words the issuing core holds dirty reach memory. -/
def writtenBack (core : Nat) (w : OldWord) : OldWord := if w.stage = 0 ∧ w.core = core then { w with stage := 1 } else w
/-- ICINV: words in memory are invalidated at an epoch. -/
def invalidated (epoch : Nat) (w : OldWord) : OldWord := if w.stage = 1 then { w with stage := 2, epoch := epoch } else w

def State.cleanRanges (s : State) (g : Guard) (a b : BitVec 6) (m : Bool) : Eff State :=
  (s.ranges g a b m).map (fun rs => s.mapStale s.cur.ctx rs (writtenBack ((s.coreOf s.firstOwner).getD 0)))

def execCwb (g : Guard) (a b : BitVec 6) (m : Bool) (s : State) : Outcome State Fault Refusal :=
  conclude s (s.cleanRanges g a b m)
/-- CINV loses no store; with one coherent memory the invalidation shows nothing (log 2). -/
def execCinv (g : Guard) (a b : BitVec 6) (m : Bool) (s : State) : Outcome State Fault Refusal :=
  conclude s (s.cleanRanges g a b m)
def execIcinv (g : Guard) (a b : BitVec 6) (m : Bool) (s : State) : Outcome State Fault Refusal :=
  conclude s ((s.ranges g a b m).map (fun rs =>
    { s.mapStale s.cur.ctx rs (invalidated (s.epoch + 1)) with epoch := s.epoch + 1 }))

/-! ### Granule tags (04 R119) -/

def tagsetStrand (a : BitVec 6) (lb : Bool) (off : BitVec 31) (i : Nat) (s : State) : Eff State :=
  match s.laneAddr i a lb off with
  | .error e => .error e
  | .ok addr => match s.globalAccess s.cur.ctx addr 32 32 true false with
    | .error e => .error e
    | .ok (pa, p, t) => .ok (if p.tagged then { t with tags := Tbl.put 0 t.tags (pa / 32) (addrTag addr) } else t)

def execTagset (g : Guard) (a : BitVec 6) (lb : Bool) (off : BitVec 31) (s : State) : Outcome State Fault Refusal :=
  concludeAccess false s (forStrands g s (tagsetStrand a lb off))

def taggetStrand (d a : BitVec 6) (lb : Bool) (off : BitVec 31) (i : Nat) (s : State) : Eff State :=
  match s.laneAddr i a lb off with
  | .error e => .error e
  | .ok addr => match s.globalAccess s.cur.ctx addr 32 32 false false with
    | .error e => .error e
    | .ok (pa, p, t) => .ok (t.putV i d.toNat (if p.tagged then (Tbl.getD t.tags (pa / 32) 0).setWidth 32 else 0))

def execTagget (g : Guard) (d a : BitVec 6) (lb : Bool) (off : BitVec 31) (s : State) : Outcome State Fault Refusal :=
  concludeAccess false s (forStrands g s (taggetStrand d a lb off))

end Sys2Proof.Machine
end

