-- ==== Sys2Proof/Machine/Atomics.lean ====
section
/-! DEFINITION. The atomics, Format T (04 R111-R113, R120). Each is one indivisible read-modify-write; with one order of all
accesses, scope and order add nothing (log 2). -/

namespace Sys2Proof.Machine

open Host (Outcome)
open Sys2Proof (Guard)

/-- The destination of an atomic whose home is on another die: its response may still come with an error (04 R120). -/
def State.outstanding (s : State) (i : Nat) (d : BitVec 6) (addr : Dword) (pa : Nat) : State :=
  if dieOfAddr pa = s.dieOf (strandBundle i) then s
  else s.setStrand i { s.strand i with remote := (d.toNat, addr) :: (s.strand i).remote }

/-- A global atomic of one strand: the address and the data registers are checked, the word becomes f(old, b, d), and d
receives the old word (04 R112). `useOld` says that d is a source, the comparand. -/
def atomStrand (f : Word → Word → Word → Word) (useOld : Bool) (d a b : BitVec 6) (lb : Bool) (off : BitVec 19) (i : Nat)
    (s : State) : Eff State :=
  match s.laneAddr i a lb off with
  | .error e => .error e
  | .ok addr => match s.useV i b.toNat with
    | .error e => .error e
    | .ok y => match (if useOld then s.useV i d.toNat else .ok 0) with
      | .error e => .error e
      | .ok z => match s.laneGlobal i addr 4 4 true true with
        | .error e => .error e
        | .ok (pa, p, t) =>
          let old : Word := BitVec.ofNat 32 (t.pageLE p pa 4)
          let v := (t.storeData pa (p.room pa 4) (f old y z).toNat).loaded (strandBundle i) (strandIndex i) addr pa (t.isMarked pa 4) old
          .ok ((v.2.setV i d.toNat v.1).outstanding i d addr pa)

/-- A global atomic. -/
def atomGroup (f : Word → Word → Word → Word) (useOld : Bool) (g : Guard) (d a b : BitVec 6) (lb : Bool) (off : BitVec 19)
    (s : State) : Outcome State Fault Refusal :=
  concludeAccess false s (forStrands g s (atomStrand f useOld d a b lb off))

def execAtomAdd (g : Guard) (d a b : BitVec 6) (lb : Bool) (_sc : BitVec 3) (_ord : BitVec 2) (_un : Bool) (off : BitVec 19)
    (s : State) : Outcome State Fault Refusal := atomGroup (fun m x _ => m + x) false g d a b lb off s
def execAtomMin (g : Guard) (d a b : BitVec 6) (lb : Bool) (_sc : BitVec 3) (_ord : BitVec 2) (un : Bool) (off : BitVec 19)
    (s : State) : Outcome State Fault Refusal := atomGroup (fun m x _ => pickMin (!un) m x) false g d a b lb off s
def execAtomMax (g : Guard) (d a b : BitVec 6) (lb : Bool) (_sc : BitVec 3) (_ord : BitVec 2) (un : Bool) (off : BitVec 19)
    (s : State) : Outcome State Fault Refusal := atomGroup (fun m x _ => pickMax (!un) m x) false g d a b lb off s
def execAtomAnd (g : Guard) (d a b : BitVec 6) (lb : Bool) (_sc : BitVec 3) (_ord : BitVec 2) (_un : Bool) (off : BitVec 19)
    (s : State) : Outcome State Fault Refusal := atomGroup (fun m x _ => m &&& x) false g d a b lb off s
def execAtomOr (g : Guard) (d a b : BitVec 6) (lb : Bool) (_sc : BitVec 3) (_ord : BitVec 2) (_un : Bool) (off : BitVec 19)
    (s : State) : Outcome State Fault Refusal := atomGroup (fun m x _ => m ||| x) false g d a b lb off s
def execAtomXor (g : Guard) (d a b : BitVec 6) (lb : Bool) (_sc : BitVec 3) (_ord : BitVec 2) (_un : Bool) (off : BitVec 19)
    (s : State) : Outcome State Fault Refusal := atomGroup (fun m x _ => m ^^^ x) false g d a b lb off s
def execAtomXchg (g : Guard) (d a b : BitVec 6) (lb : Bool) (_sc : BitVec 3) (_ord : BitVec 2) (_un : Bool) (off : BitVec 19)
    (s : State) : Outcome State Fault Refusal := atomGroup (fun _ x _ => x) false g d a b lb off s
/-- The comparand is v(d). -/
def casWord (m x z : Word) : Word := if m = z then x else m
def execAtomCas (g : Guard) (d a b : BitVec 6) (lb : Bool) (_sc : BitVec 3) (_ord : BitVec 2) (_un : Bool) (off : BitVec 19)
    (s : State) : Outcome State Fault Refusal := atomGroup casWord true g d a b lb off s

/-- ATOM.FADD's sum: RNE under the flush of the issuing bundle, and no flag. -/
def atomFadd (fz : Bool) (m x : Word) : Word :=
  BitVec.ofNat 32 (fresult fmtFP32 .rne fz (FVal.add .rne (fsource fmtFP32 fz m.toNat) (fsource fmtFP32 fz x.toNat))).1

def execAtomFadd (g : Guard) (d a b : BitVec 6) (lb : Bool) (_sc : BitVec 3) (_ord : BitVec 2) (_un : Bool) (off : BitVec 19)
    (s : State) : Outcome State Fault Refusal :=
  concludeAccess false s (forStrands g s (fun i t => atomStrand (fun m x _ => atomFadd (t.fzOf i) m x) false d a b lb off i t))
def execAtomInc (g : Guard) (d a b : BitVec 6) (lb : Bool) (_sc : BitVec 3) (_ord : BitVec 2) (_un : Bool) (off : BitVec 19)
    (s : State) : Outcome State Fault Refusal :=
  atomGroup (fun m x _ => if x.ule m then 0 else m + 1) false g d a b lb off s

/-! ### Scratchpad atomics (04 R113) -/

/-- An ATOMS of one strand. -/
def atomsStrand (f : Word → Word → Word → Word) (useOld : Bool) (d a b : BitVec 6) (lb : Bool) (off : BitVec 19) (i : Nat)
    (s : State) : Eff State :=
  match s.laneAddr i a lb off with
  | .error e => .error e
  | .ok addr => match s.useV i b.toNat with
    | .error e => .error e
    | .ok y => match (if useOld then s.useV i d.toNat else .ok 0) with
      | .error e => .error e
      | .ok z => match s.scratchLoad i addr 4 32 with
        | .error e => .error e
        | .ok (old, t) => (t.scratchStore i addr 4 (f old.val y z).toNat).map (fun u => u.setV i d.toNat old)

/-- An ATOMS of a stream: on words of the scratchpad, with s registers. -/
def atomsTile (f : Word → Word → Word → Word) (useOld : Bool) (d a b : BitVec 6) (off : BitVec 19) (o : Nat) (s : State) :
    Eff State :=
  match s.tileAddr o a off with
  | .error e => .error e
  | .ok addr => match s.useS o b with
    | .error e => .error e
    | .ok y => match (if useOld then s.useS o d else .ok 0) with
      | .error e => .error e
      | .ok z => match s.tileLoad o addr 4 32 with
        | .error e => .error e
        | .ok (old, t) => (t.tileStore o addr 4 (f old.val (y.setWidth 32) (z.setWidth 32)).toNat).map (fun u =>
            u.setS o d (old.map1 (fun v => v.setWidth 64)))

def execAtomsAdd (g : Guard) (d a b : BitVec 6) (lb : Bool) (_sc : BitVec 3) (_ord : BitVec 2) (_un : Bool) (off : BitVec 19)
    (s : State) : Outcome State Fault Refusal :=
  afterPresence g a lb off s (atomsStrand (fun m x _ => m + x) false d a b lb off) (atomsTile (fun m x _ => m + x) false d a b off)
def execAtomsCas (g : Guard) (d a b : BitVec 6) (lb : Bool) (_sc : BitVec 3) (_ord : BitVec 2) (_un : Bool) (off : BitVec 19)
    (s : State) : Outcome State Fault Refusal :=
  afterPresence g a lb off s (atomsStrand casWord true d a b lb off) (atomsTile casWord true d a b off)

/-- REMOTE_ATOMIC_ERROR_RESPONSE: the destination of an atomic whose response carries an error is poisoned, and the error is
logged; the side effect stays (04 R120). The response comes before the strand's next group issues, so before any use of the value
(08 R183; log 121). -/
def execRemoteAtomicErrorResponse (b st : Nat) (d : BitVec 6) (addr : BitVec 64) (s : State) : Outcome State Fault Refusal :=
  let i := strandKey b st
  if s.strandLive b st && (s.strand i).remote.contains (d.toNat, addr) then
    let r := s.newOrigin b ⟨BitVec.ofNat 8 causeRemoteAtomic, addr, false, 0, BitVec.ofNat 8 st⟩
    let t := r.2.setV i d.toNat ⟨0, some r.1⟩
    let u := t.setStrand i { t.strand i with remote := (t.strand i).remote.filter (fun e => e.1 != d.toNat) }
    .next (u.log ⟨s.time, addr.toNat, 5, s.dieOf b, s.unitOf b, s.ownerCtx b⟩)
  else .next s

end Sys2Proof.Machine
end

