-- ==== Sys2Proof/Machine/LaneFloat.lean ====
section
/-! DEFINITION. The floating lane instructions, class LAN (04 R96-R99): FP32, packed pairs, special functions and conversions.
Each rounds by the ACR of the strand's own bundle unless the rule names a mode. -/

namespace Sys2Proof.Machine

open Host (Outcome)
open Sys2Proof (Guard)

/-! ### The computations -/

/-- Sum, product and fused multiply-add in a format, sources flushed in it (04 R97, R98). -/
def addIn (f : FFmt) (md : FMode) (fz : Bool) (a b : Nat) : Nat × FFlags :=
  fresult f md fz (FVal.add md (fsource f fz a) (fsource f fz b))
def mulIn (f : FFmt) (md : FMode) (fz : Bool) (a b : Nat) : Nat × FFlags :=
  fresult f md fz (FVal.mul (fsource f fz a) (fsource f fz b))
def fmaIn (f : FFmt) (md : FMode) (fz : Bool) (a b d : Nat) : Nat × FFlags :=
  fresult f md fz (FVal.fma md (fsource f fz a) (fsource f fz b) (fsource f fz d))

/-- Elements 0 and 1 of a pair. -/
def pairLow (a : Nat) : Nat := a % 2 ^ 16
def pairHigh (a : Nat) : Nat := a / 2 ^ 16

/-- Join the results of two elements, with the flags of both (04 R98). -/
def pairJoin (x y : Nat × FFlags) : Nat × FFlags := (x.1 + 2 ^ 16 * y.1, x.2.or y.2)

def pair2 (f : Nat → Nat → Nat × FFlags) (a b : Nat) : Nat × FFlags :=
  pairJoin (f (pairLow a) (pairLow b)) (f (pairHigh a) (pairHigh b))
def pair3 (f : Nat → Nat → Nat → Nat × FFlags) (a b d : Nat) : Nat × FFlags :=
  pairJoin (f (pairLow a) (pairLow b) (pairLow d)) (f (pairHigh a) (pairHigh b) (pairHigh d))

/-- An integer rounded to FP32 (04 R99). -/
def intToF32 (isSigned : Bool) (md : FMode) (fz : Bool) (a : Nat) : Nat × FFlags :=
  fround fmtFP32 md fz (FVal.ofInt (intVal isSigned 32 a))

/-- FP32 to an integer by a mode operand. -/
def f32ToInt (isSigned : Bool) (b : BitVec 3) (md : FMode) (fz : Bool) (a : Nat) : Nat × FFlags :=
  let r := floatToInt (modeOperand b.toNat md) isSigned 32 (fsource fmtFP32 fz a)
  (intCode 32 r.1, r.2)

/-- A 16-bit element widened into FP32: the flush is judged on the widened value (02 R43). -/
def widen16 (f : FFmt) (hi : Bool) (fz : Bool) (a : Nat) : Nat × FFlags :=
  fround fmtFP32 .rne fz (f.decode (if hi then pairHigh a else pairLow a))

/-- FP32 to a 16-bit format. -/
def narrow16 (f : FFmt) (md : FMode) (fz : Bool) (a : Nat) : Nat × FFlags := fround f md fz (fsource fmtFP32 fz a)

/-- Byte k of a as an 8-bit float, widened exactly. -/
def widen8 (f : FFmt) (k : Nat) (a : Nat) : Nat × FFlags :=
  fround fmtFP32 .rne false (f.decode (a / 2 ^ (8 * k) % 256))

/-- Replace byte k of d. -/
def setByteOf (d k v : Nat) : Nat := d - d / 2 ^ (8 * k) % 256 * 2 ^ (8 * k) + v % 256 * 2 ^ (8 * k)

/-- Byte k of d := a narrowed by R42. -/
def narrow8 (f : FFmt) (k : Nat) (fz ofs : Bool) (a d : Nat) : Nat × FFlags :=
  let r := fnarrow f ofs (fsource fmtFP32 fz a)
  (setByteOf d k r.1, r.2)

/-- The narrow conversions read a and the implicit d. -/
def laneNarrow (g : Guard) (s : State) (d a : BitVec 6) (f : FFmt) (k : Nat) : State :=
  eachStrand g s (fun i t =>
    t.setFloat i d ((t.laneV i a).poison.or (t.laneV i d).poison)
      (narrow8 f k (t.fzOf i) (acrOfs (t.acr (strandBundle i))) (t.laneV i a).val.toNat (t.laneV i d).val.toNat))

/-! ### Meanings -/

def execFaddF32 (g : Guard) (d a b : BitVec 6) (s : State) : Outcome State Fault Refusal := .next (laneF2 g s d a b (addIn fmtFP32))
def execFmulF32 (g : Guard) (d a b : BitVec 6) (s : State) : Outcome State Fault Refusal := .next (laneF2 g s d a b (mulIn fmtFP32))
def execFfmaF32 (g : Guard) (d a b : BitVec 6) (s : State) : Outcome State Fault Refusal := .next (laneF3 g s d a b (fmaIn fmtFP32))
def execFminF32 (g : Guard) (d a b : BitVec 6) (m : Bool) (s : State) : Outcome State Fault Refusal :=
  .next (laneF2 g s d a b (fun _ fz x y => (fminmax fmtFP32 false m fz x y, {})))
def execFmaxF32 (g : Guard) (d a b : BitVec 6) (m : Bool) (s : State) : Outcome State Fault Refusal :=
  .next (laneF2 g s d a b (fun _ fz x y => (fminmax fmtFP32 true m fz x y, {})))

/-- FCMP.F32 of one strand: a poisoned source raises poison-use (04 R94, R96). -/
def fcmpStrand (cc tg : BitVec 3) (a b : BitVec 6) (i : Nat) (s : State) : Eff State :=
  match s.useV i a.toNat with
  | .error e => .error e
  | .ok x =>
    match s.useV i b.toNat with
    | .error e => .error e
    | .ok y =>
      let r := fcondHolds cc (fsource fmtFP32 (s.fzOf i) x.toNat) (fsource fmtFP32 (s.fzOf i) y.toNat)
      .ok ((s.setP i tg.toNat r.1).raiseOf i r.2)

def execFcmpF32 (g : Guard) (cc tg : BitVec 3) (a b : BitVec 6) (s : State) : Outcome State Fault Refusal :=
  conclude s (forStrands g s (fcmpStrand cc tg a b))
def execFrndF32 (g : Guard) (d a : BitVec 6) (b : BitVec 3) (s : State) : Outcome State Fault Refusal :=
  .next (laneF1 g s d a (fun md fz x => froundIntegral fmtFP32 (modeOperand b.toNat md) fz (fsource fmtFP32 fz x)))
def execFrcp (g : Guard) (d a : BitVec 6) (s : State) : Outcome State Fault Refusal := .next (laneF1 g s d a (fun _ => fRcp))
def execFrsq (g : Guard) (d a : BitVec 6) (s : State) : Outcome State Fault Refusal := .next (laneF1 g s d a (fun _ => fRsq))
def execFsqrt (g : Guard) (d a : BitVec 6) (s : State) : Outcome State Fault Refusal := .next (laneF1 g s d a (fun _ => fSqrt))
def execFexp2 (g : Guard) (d a : BitVec 6) (s : State) : Outcome State Fault Refusal := .next (laneF1 g s d a (fun _ => fExp2))
def execFlog2 (g : Guard) (d a : BitVec 6) (s : State) : Outcome State Fault Refusal := .next (laneF1 g s d a (fun _ => fLog2))
def execFsin (g : Guard) (d a : BitVec 6) (s : State) : Outcome State Fault Refusal :=
  .next (laneF1 g s d a (fun _ => fSinCos false))
def execFcos (g : Guard) (d a : BitVec 6) (s : State) : Outcome State Fault Refusal :=
  .next (laneF1 g s d a (fun _ => fSinCos true))
def execFaddH2 (g : Guard) (d a b : BitVec 6) (s : State) : Outcome State Fault Refusal :=
  .next (laneF2 g s d a b (fun md fz => pair2 (addIn fmtFP16 md fz)))
def execFmulH2 (g : Guard) (d a b : BitVec 6) (s : State) : Outcome State Fault Refusal :=
  .next (laneF2 g s d a b (fun md fz => pair2 (mulIn fmtFP16 md fz)))
def execFfmaH2 (g : Guard) (d a b : BitVec 6) (s : State) : Outcome State Fault Refusal :=
  .next (laneF3 g s d a b (fun md fz => pair3 (fmaIn fmtFP16 md fz)))
def execFaddB2 (g : Guard) (d a b : BitVec 6) (s : State) : Outcome State Fault Refusal :=
  .next (laneF2 g s d a b (fun md fz => pair2 (addIn fmtBF16 md fz)))
def execFmulB2 (g : Guard) (d a b : BitVec 6) (s : State) : Outcome State Fault Refusal :=
  .next (laneF2 g s d a b (fun md fz => pair2 (mulIn fmtBF16 md fz)))
def execFfmaB2 (g : Guard) (d a b : BitVec 6) (s : State) : Outcome State Fault Refusal :=
  .next (laneF3 g s d a b (fun md fz => pair3 (fmaIn fmtBF16 md fz)))
def execCvtF32I32 (g : Guard) (d a : BitVec 6) (s : State) : Outcome State Fault Refusal := .next (laneF1 g s d a (intToF32 true))
def execCvtF32N32 (g : Guard) (d a : BitVec 6) (s : State) : Outcome State Fault Refusal := .next (laneF1 g s d a (intToF32 false))
def execCvtI32F32 (g : Guard) (d a : BitVec 6) (b : BitVec 3) (s : State) : Outcome State Fault Refusal :=
  .next (laneF1 g s d a (f32ToInt true b))
def execCvtN32F32 (g : Guard) (d a : BitVec 6) (b : BitVec 3) (s : State) : Outcome State Fault Refusal :=
  .next (laneF1 g s d a (f32ToInt false b))
def execCvtF32H2 (g : Guard) (d a : BitVec 6) (m : Bool) (s : State) : Outcome State Fault Refusal :=
  .next (laneF1 g s d a (fun _ => widen16 fmtFP16 m))
def execCvtH2F32 (g : Guard) (d a b : BitVec 6) (s : State) : Outcome State Fault Refusal :=
  .next (laneF2 g s d a b (fun md fz x y => pairJoin (narrow16 fmtFP16 md fz x) (narrow16 fmtFP16 md fz y)))
def execCvtF32B2 (g : Guard) (d a : BitVec 6) (m : Bool) (s : State) : Outcome State Fault Refusal :=
  .next (laneF1 g s d a (fun _ => widen16 fmtBF16 m))
def execCvtB2F32 (g : Guard) (d a b : BitVec 6) (s : State) : Outcome State Fault Refusal :=
  .next (laneF2 g s d a b (fun md fz x y => pairJoin (narrow16 fmtBF16 md fz x) (narrow16 fmtBF16 md fz y)))
def execCvtF32E4m3 (g : Guard) (d a : BitVec 6) (b : BitVec 2) (s : State) : Outcome State Fault Refusal :=
  .next (laneF1 g s d a (fun _ _ => widen8 fmtE4M3 b.toNat))
def execCvtE4m3F32 (g : Guard) (d a : BitVec 6) (b : BitVec 2) (s : State) : Outcome State Fault Refusal :=
  .next (laneNarrow g s d a fmtE4M3 b.toNat)
def execCvtF32E5m2 (g : Guard) (d a : BitVec 6) (b : BitVec 2) (s : State) : Outcome State Fault Refusal :=
  .next (laneF1 g s d a (fun _ _ => widen8 fmtE5M2 b.toNat))
def execCvtE5m2F32 (g : Guard) (d a : BitVec 6) (b : BitVec 2) (s : State) : Outcome State Fault Refusal :=
  .next (laneNarrow g s d a fmtE5M2 b.toNat)

end Sys2Proof.Machine
end

