-- ==== Sys2Proof/Machine/Stage.lean ====
section
/-! DEFINITION. The operations that may stand in a stage of a mill, with the limits of their operands and their effect on the
token a stage holds (12 R219). -/

namespace Sys2Proof.Machine

open Host (Outcome)
open Sys2Proof (Guard)

/-- A guard in a stage names y1-y3 or none; (!y0) is reserved. -/
def guardStageOk (g : Guard) : Bool := decide (g.pg.toNat ≤ 3) && !(g.pg == 0 && g.neg)
/-- A slot or token predicate below a bound. -/
def slotOk (n : Nat) (r : BitVec 6) : Bool := decide (r.toNat < n)
/-- A base pair names x(2a) and x(2a+1); a scalar base is any s register. -/
def baseSlotOk (a : BitVec 6) (lb : Bool) : Bool := !lb || decide (a.toNat < 8)

/-- Whether an instruction may stand in a stage, with every operand inside its limit. -/
def stageOk (i : Instr) : Bool :=
  match i with
  | .iadd g d a b _ => guardStageOk g && slotOk 16 d && slotOk 16 a && slotOk 16 b
  | .iaddi g d a _ => guardStageOk g && slotOk 16 d && slotOk 16 a
  | .isub g d a b _ => guardStageOk g && slotOk 16 d && slotOk 16 a && slotOk 16 b
  | .imul g d a b => guardStageOk g && slotOk 16 d && slotOk 16 a && slotOk 16 b
  | .imad g d a b => guardStageOk g && slotOk 16 d && slotOk 16 a && slotOk 16 b
  | .imulhI g d a b => guardStageOk g && slotOk 16 d && slotOk 16 a && slotOk 16 b
  | .imulhN g d a b => guardStageOk g && slotOk 16 d && slotOk 16 a && slotOk 16 b
  | .iminI g d a b => guardStageOk g && slotOk 16 d && slotOk 16 a && slotOk 16 b
  | .iminN g d a b => guardStageOk g && slotOk 16 d && slotOk 16 a && slotOk 16 b
  | .imaxI g d a b => guardStageOk g && slotOk 16 d && slotOk 16 a && slotOk 16 b
  | .imaxN g d a b => guardStageOk g && slotOk 16 d && slotOk 16 a && slotOk 16 b
  | .iand g d a b => guardStageOk g && slotOk 16 d && slotOk 16 a && slotOk 16 b
  | .ior g d a b => guardStageOk g && slotOk 16 d && slotOk 16 a && slotOk 16 b
  | .ixor g d a b => guardStageOk g && slotOk 16 d && slotOk 16 a && slotOk 16 b
  | .ishl g d a b => guardStageOk g && slotOk 16 d && slotOk 16 a && slotOk 16 b
  | .ishrI g d a b => guardStageOk g && slotOk 16 d && slotOk 16 a && slotOk 16 b
  | .ishrN g d a b => guardStageOk g && slotOk 16 d && slotOk 16 a && slotOk 16 b
  | .ibfxI g d a b => guardStageOk g && slotOk 16 d && slotOk 16 a && slotOk 16 b
  | .ibfxN g d a b => guardStageOk g && slotOk 16 d && slotOk 16 a && slotOk 16 b
  | .ibfi g d a b => guardStageOk g && slotOk 16 d && slotOk 16 a && slotOk 16 b
  | .ipopc g d a => guardStageOk g && slotOk 16 d && slotOk 16 a
  | .iclz g d a => guardStageOk g && slotOk 16 d && slotOk 16 a
  | .icmp g _ tg a b => guardStageOk g && slotOk 4 (tg.setWidth 6) && slotOk 16 a && slotOk 16 b
  | .isel g d a b => guardStageOk g && slotOk 16 d && slotOk 16 a && slotOk 16 b
  | .imov g d a => guardStageOk g && slotOk 16 d && slotOk 16 a
  | .imovi g d _ => guardStageOk g && slotOk 16 d
  | .idot4I8 g d a b _ => guardStageOk g && slotOk 16 d && slotOk 16 a && slotOk 16 b
  | .idot4N8 g d a b _ => guardStageOk g && slotOk 16 d && slotOk 16 a && slotOk 16 b
  | .faddF32 g d a b => guardStageOk g && slotOk 16 d && slotOk 16 a && slotOk 16 b
  | .fmulF32 g d a b => guardStageOk g && slotOk 16 d && slotOk 16 a && slotOk 16 b
  | .ffmaF32 g d a b => guardStageOk g && slotOk 16 d && slotOk 16 a && slotOk 16 b
  | .fminF32 g d a b _ => guardStageOk g && slotOk 16 d && slotOk 16 a && slotOk 16 b
  | .fmaxF32 g d a b _ => guardStageOk g && slotOk 16 d && slotOk 16 a && slotOk 16 b
  | .fcmpF32 g _ tg a b => guardStageOk g && slotOk 4 (tg.setWidth 6) && slotOk 16 a && slotOk 16 b
  | .frndF32 g d a _ => guardStageOk g && slotOk 16 d && slotOk 16 a
  | .frcp g d a => guardStageOk g && slotOk 16 d && slotOk 16 a
  | .frsq g d a => guardStageOk g && slotOk 16 d && slotOk 16 a
  | .fsqrt g d a => guardStageOk g && slotOk 16 d && slotOk 16 a
  | .fexp2 g d a => guardStageOk g && slotOk 16 d && slotOk 16 a
  | .flog2 g d a => guardStageOk g && slotOk 16 d && slotOk 16 a
  | .fsin g d a => guardStageOk g && slotOk 16 d && slotOk 16 a
  | .fcos g d a => guardStageOk g && slotOk 16 d && slotOk 16 a
  | .faddH2 g d a b => guardStageOk g && slotOk 16 d && slotOk 16 a && slotOk 16 b
  | .fmulH2 g d a b => guardStageOk g && slotOk 16 d && slotOk 16 a && slotOk 16 b
  | .ffmaH2 g d a b => guardStageOk g && slotOk 16 d && slotOk 16 a && slotOk 16 b
  | .faddB2 g d a b => guardStageOk g && slotOk 16 d && slotOk 16 a && slotOk 16 b
  | .fmulB2 g d a b => guardStageOk g && slotOk 16 d && slotOk 16 a && slotOk 16 b
  | .ffmaB2 g d a b => guardStageOk g && slotOk 16 d && slotOk 16 a && slotOk 16 b
  | .cvtF32I32 g d a => guardStageOk g && slotOk 16 d && slotOk 16 a
  | .cvtF32N32 g d a => guardStageOk g && slotOk 16 d && slotOk 16 a
  | .cvtI32F32 g d a _ => guardStageOk g && slotOk 16 d && slotOk 16 a
  | .cvtN32F32 g d a _ => guardStageOk g && slotOk 16 d && slotOk 16 a
  | .cvtF32H2 g d a _ => guardStageOk g && slotOk 16 d && slotOk 16 a
  | .cvtH2F32 g d a b => guardStageOk g && slotOk 16 d && slotOk 16 a && slotOk 16 b
  | .cvtF32B2 g d a _ => guardStageOk g && slotOk 16 d && slotOk 16 a
  | .cvtB2F32 g d a b => guardStageOk g && slotOk 16 d && slotOk 16 a && slotOk 16 b
  | .cvtF32E4m3 g d a _ => guardStageOk g && slotOk 16 d && slotOk 16 a
  | .cvtE4m3F32 g d a _ => guardStageOk g && slotOk 16 d && slotOk 16 a
  | .cvtF32E5m2 g d a _ => guardStageOk g && slotOk 16 d && slotOk 16 a
  | .cvtE5m2F32 g d a _ => guardStageOk g && slotOk 16 d && slotOk 16 a
  | .ld8 g d a lb _ => guardStageOk g && slotOk 16 d && baseSlotOk a lb
  | .ld16 g d a lb _ => guardStageOk g && slotOk 16 d && baseSlotOk a lb
  | .ld32 g d a lb _ => guardStageOk g && slotOk 16 d && baseSlotOk a lb
  | .ldx g d a lb _ => guardStageOk g && slotOk 16 d && baseSlotOk a lb
  | .ldro g d a lb _ => guardStageOk g && slotOk 16 d && baseSlotOk a lb
  | .st8 g d a lb _ => guardStageOk g && slotOk 16 d && baseSlotOk a lb
  | .st16 g d a lb _ => guardStageOk g && slotOk 16 d && baseSlotOk a lb
  | .st32 g d a lb _ => guardStageOk g && slotOk 16 d && baseSlotOk a lb
  | .stx g d a lb _ => guardStageOk g && slotOk 16 d && baseSlotOk a lb
  | .lds g d a lb _ => guardStageOk g && slotOk 16 d && baseSlotOk a lb
  | .sts g d a lb _ => guardStageOk g && slotOk 16 d && baseSlotOk a lb
  | .atomAdd g d a b lb _ _ _ _ => guardStageOk g && slotOk 16 d && baseSlotOk a lb && slotOk 16 b
  | .atomMin g d a b lb _ _ _ _ => guardStageOk g && slotOk 16 d && baseSlotOk a lb && slotOk 16 b
  | .atomMax g d a b lb _ _ _ _ => guardStageOk g && slotOk 16 d && baseSlotOk a lb && slotOk 16 b
  | .atomAnd g d a b lb _ _ _ _ => guardStageOk g && slotOk 16 d && baseSlotOk a lb && slotOk 16 b
  | .atomOr g d a b lb _ _ _ _ => guardStageOk g && slotOk 16 d && baseSlotOk a lb && slotOk 16 b
  | .atomXor g d a b lb _ _ _ _ => guardStageOk g && slotOk 16 d && baseSlotOk a lb && slotOk 16 b
  | .atomXchg g d a b lb _ _ _ _ => guardStageOk g && slotOk 16 d && baseSlotOk a lb && slotOk 16 b
  | .atomCas g d a b lb _ _ _ _ => guardStageOk g && slotOk 16 d && baseSlotOk a lb && slotOk 16 b
  | .atomFadd g d a b lb _ _ _ _ => guardStageOk g && slotOk 16 d && baseSlotOk a lb && slotOk 16 b
  | .atomsAdd g d a b lb _ _ _ _ => guardStageOk g && slotOk 16 d && baseSlotOk a lb && slotOk 16 b
  | .atomsCas g d a b lb _ _ _ _ => guardStageOk g && slotOk 16 d && baseSlotOk a lb && slotOk 16 b
  | .lda g d a lb _ => guardStageOk g && slotOk 16 d && baseSlotOk a lb
  | .sta g d a lb _ => guardStageOk g && slotOk 16 d && baseSlotOk a lb
  | .pres g d a lb _ => guardStageOk g && slotOk 4 d && baseSlotOk a lb
  | .atomInc g d a b lb _ _ _ _ => guardStageOk g && slotOk 16 d && baseSlotOk a lb && slotOk 16 b
  | _ => false

/-- The effect of a stage's instruction on the strand being issued. -/
def stageExec (i : Instr) (s : State) : Outcome State Fault Refusal :=
  match i with
  | .iadd g d a b m => execIadd g d a b m s
  | .iaddi g d a imm => execIaddi g d a imm s
  | .isub g d a b m => execIsub g d a b m s
  | .imul g d a b => execImul g d a b s
  | .imad g d a b => execImad g d a b s
  | .imulhI g d a b => execImulhI g d a b s
  | .imulhN g d a b => execImulhN g d a b s
  | .iminI g d a b => execIminI g d a b s
  | .iminN g d a b => execIminN g d a b s
  | .imaxI g d a b => execImaxI g d a b s
  | .imaxN g d a b => execImaxN g d a b s
  | .iand g d a b => execIand g d a b s
  | .ior g d a b => execIor g d a b s
  | .ixor g d a b => execIxor g d a b s
  | .ishl g d a b => execIshl g d a b s
  | .ishrI g d a b => execIshrI g d a b s
  | .ishrN g d a b => execIshrN g d a b s
  | .ibfxI g d a b => execIbfxI g d a b s
  | .ibfxN g d a b => execIbfxN g d a b s
  | .ibfi g d a b => execIbfi g d a b s
  | .ipopc g d a => execIpopc g d a s
  | .iclz g d a => execIclz g d a s
  | .icmp g cc tg a b => execIcmp g cc tg a b s
  | .isel g d a b => execIsel g d a b s
  | .imov g d a => execImov g d a s
  | .imovi g d imm => execImovi g d imm s
  | .idot4I8 g d a b m => execIdot4I8 g d a b m s
  | .idot4N8 g d a b m => execIdot4N8 g d a b m s
  | .faddF32 g d a b => execFaddF32 g d a b s
  | .fmulF32 g d a b => execFmulF32 g d a b s
  | .ffmaF32 g d a b => execFfmaF32 g d a b s
  | .fminF32 g d a b m => execFminF32 g d a b m s
  | .fmaxF32 g d a b m => execFmaxF32 g d a b m s
  | .fcmpF32 g cc tg a b => execFcmpF32 g cc tg a b s
  | .frndF32 g d a b => execFrndF32 g d a b s
  | .frcp g d a => execFrcp g d a s
  | .frsq g d a => execFrsq g d a s
  | .fsqrt g d a => execFsqrt g d a s
  | .fexp2 g d a => execFexp2 g d a s
  | .flog2 g d a => execFlog2 g d a s
  | .fsin g d a => execFsin g d a s
  | .fcos g d a => execFcos g d a s
  | .faddH2 g d a b => execFaddH2 g d a b s
  | .fmulH2 g d a b => execFmulH2 g d a b s
  | .ffmaH2 g d a b => execFfmaH2 g d a b s
  | .faddB2 g d a b => execFaddB2 g d a b s
  | .fmulB2 g d a b => execFmulB2 g d a b s
  | .ffmaB2 g d a b => execFfmaB2 g d a b s
  | .cvtF32I32 g d a => execCvtF32I32 g d a s
  | .cvtF32N32 g d a => execCvtF32N32 g d a s
  | .cvtI32F32 g d a b => execCvtI32F32 g d a b s
  | .cvtN32F32 g d a b => execCvtN32F32 g d a b s
  | .cvtF32H2 g d a m => execCvtF32H2 g d a m s
  | .cvtH2F32 g d a b => execCvtH2F32 g d a b s
  | .cvtF32B2 g d a m => execCvtF32B2 g d a m s
  | .cvtB2F32 g d a b => execCvtB2F32 g d a b s
  | .cvtF32E4m3 g d a b => execCvtF32E4m3 g d a b s
  | .cvtE4m3F32 g d a b => execCvtE4m3F32 g d a b s
  | .cvtF32E5m2 g d a b => execCvtF32E5m2 g d a b s
  | .cvtE5m2F32 g d a b => execCvtE5m2F32 g d a b s
  | .ld8 g d a lb off => execLd8 g d a lb off s
  | .ld16 g d a lb off => execLd16 g d a lb off s
  | .ld32 g d a lb off => execLd32 g d a lb off s
  | .ldx g d a lb off => execLdx g d a lb off s
  | .ldro g d a lb off => execLdro g d a lb off s
  | .st8 g d a lb off => execSt8 g d a lb off s
  | .st16 g d a lb off => execSt16 g d a lb off s
  | .st32 g d a lb off => execSt32 g d a lb off s
  | .stx g d a lb off => execStx g d a lb off s
  | .lds g d a lb off => execLds g d a lb off s
  | .sts g d a lb off => execSts g d a lb off s
  | .atomAdd g d a b lb sc ord un off => execAtomAdd g d a b lb sc ord un off s
  | .atomMin g d a b lb sc ord un off => execAtomMin g d a b lb sc ord un off s
  | .atomMax g d a b lb sc ord un off => execAtomMax g d a b lb sc ord un off s
  | .atomAnd g d a b lb sc ord un off => execAtomAnd g d a b lb sc ord un off s
  | .atomOr g d a b lb sc ord un off => execAtomOr g d a b lb sc ord un off s
  | .atomXor g d a b lb sc ord un off => execAtomXor g d a b lb sc ord un off s
  | .atomXchg g d a b lb sc ord un off => execAtomXchg g d a b lb sc ord un off s
  | .atomCas g d a b lb sc ord un off => execAtomCas g d a b lb sc ord un off s
  | .atomFadd g d a b lb sc ord un off => execAtomFadd g d a b lb sc ord un off s
  | .atomsAdd g d a b lb sc ord un off => execAtomsAdd g d a b lb sc ord un off s
  | .atomsCas g d a b lb sc ord un off => execAtomsCas g d a b lb sc ord un off s
  | .lda g d a lb off => execLda g d a lb off s
  | .sta g d a lb off => execSta g d a lb off s
  | .pres g d a lb off => execPres g d a lb off s
  | .atomInc g d a b lb sc ord un off => execAtomInc g d a b lb sc ord un off s
  | _ => .next s

/-- The instruction of a stage's two words, where R14, R17, R25 and R219 allow it: S = E = 0, and W1 zero without L. -/
def stageInstr (w x : Word) : Option Instr :=
  if wordStop w || wordRunEnd w || (!wordLong w && x != 0) then none
  else
    match decodeHead .raster w with
    | .error _ => none
    | .ok r =>
      let built := match (wordClass w).toNat with
        | 2 => buildLan (wordOp w).toNat (wordLong w) w x
        | 5 => buildMem (wordOp w).toNat (wordLong w) w x
        | _ => none
      match built with
      | none => none
      | some i => if zeroOk r w x && WellFormed .raster i && stageOk i then some i else none

/-- The scalar base register of a stage's memory instruction. -/
def stageBase (w : Word) : Option (BitVec 6) :=
  if (wordClass w).toNat = 5 then
    match opRow (wordClass w) (wordOp w) with
    | none => none
    | some r => if (if r.format = .fmtT then w.getLsbD 0 else w.getLsbD 6) then none else some (w.extractLsb' 7 6)
  else none

end Sys2Proof.Machine
end

