-- ==== Sys2Proof/Machine/Mill.lean ====
section
/-! DEFINITION. Mills and flumes: the image and its checks (12 R217-R221), tokens, the mill step and the sink (12 R222-R227),
drain and reload (12 R228, 13 R231, 14 R251), the MILL instructions (03 R87) and the flume instructions (03 R88, 12 R229). -/

namespace Sys2Proof.Machine

open Host (Outcome)

/-! ### The image (12 R218-R221) -/

/-- An image as read: its header, its stages' words and its flume entries. -/
structure MillImage where
  m : List Dword
  stages : List (Word × Word)
  flumes : List Dword
deriving DecidableEq, Repr

/-- Bits [hi:lo] of dword n of a mill header. -/
def millField (m : List Dword) (n lo w : Nat) : Nat := (m.getD n 0).toNat / 2 ^ lo % 2 ^ w

def millStages (m : List Dword) : Nat := millField m 0 8 7
def millFlumes (m : List Dword) : Nat := millField m 0 24 5
def millSize (m : List Dword) : Nat := if millField m 0 45 6 = 0 then 64 else millField m 0 45 6
def millLease (m : List Dword) : Nat := millField m 0 32 13
def millCont (m : List Dword) : Nat := millField m 0 22 2
def millLoops (m : List Dword) : Nat := millField m 0 16 6
def millOrd (m : List Dword) : Bool := (m.getD 0 0).getLsbD 15
def millArr (m : List Dword) : Bool := (m.getD 6 0).getLsbD 7
def millGrain (m : List Dword) : Nat := millField m 6 8 8
def millBar (m : List Dword) : Nat := millField m 6 0 4
/-- IN and OUT bytes by slot. -/
def millIn (m : List Dword) (j : Nat) : Nat := millField m (1 + j / 8) (8 * (j % 8)) 8
def millOut (m : List Dword) (j : Nat) : Nat := millField m (3 + j / 8) (8 * (j % 8)) 8
/-- PIN and POUT nibbles of predicate k, 1 to 3. -/
def millPin (m : List Dword) (k : Nat) : Nat := millField m 5 (4 * k - 4) 4
def millPout (m : List Dword) (k : Nat) : Nat := millField m 5 (4 * k + 12) 4

/-- The slots an enabled byte names: slot and lane register. -/
def millMoves (byte : Nat → Nat) : List (Nat × Nat) :=
  ((List.range 16).filter (fun j => decide (128 ≤ byte j))).map (fun j => (j, byte j % 64))
/-- Enabled predicate moves: token predicate and lane predicate. -/
def millPreds (nib : Nat → Nat) : List (Nat × Nat) :=
  ([1, 2, 3].filter (fun k => decide (8 ≤ nib k))).map (fun k => (k, nib k % 8))

/-- The header's own rules (12 R218, R221). -/
def millHeaderOk (m : List Dword) (leaseMax : Nat) : Bool :=
  let n := millStages m
  let bytes := (List.range 16).map (millIn m) ++ (List.range 16).map (millOut m)
  let outs := (millMoves (millOut m)).map Prod.snd
  let pouts := (millPreds (millPout m)).map Prod.snd
  millField m 0 51 13 == 0 && millField m 0 29 3 == 0 && millField m 0 0 8 == 1 && decide (n ≤ 64)
    && decide (millFlumes m ≤ 16) && decide (64 + 8 * (n + millFlumes m) ≤ 64 * millSize m)
    && (if n = 0 then millLease m == 0 else decide (1 ≤ millLease m) && decide (millLease m ≤ leaseMax))
    && (millCont m == 0 || decide (millLoops m < n))
    && bytes.all (fun b => b / 64 % 2 == 0) && millField m 5 28 36 == 0 && millField m 5 12 4 == 0
    && millField m 6 16 48 == 0 && millField m 6 4 3 == 0 && m.getD 7 0 == 0
    && (!millArr m || (millOrd m && decide (1 ≤ millGrain m) && decide (millGrain m ≤ 64) && decide (8 ≤ millBar m)))
    && outs.eraseDups == outs && pouts.eraseDups == pouts

/-- Fields of a flume entry (12 R220). -/
def flumeNum (e : Dword) : Nat := e.toNat % 16
def flumeDepth (e : Dword) : Nat := if e.toNat / 16 % 4 = 0 then 4 else 1
def flumeProd (e : Dword) : Nat := e.toNat / 256 % 16
def flumeCons (e : Dword) : Nat := e.toNat / 4096 % 16

/-- A flume number bound to a live crew of a core. -/
def State.flumeBound (s : State) (k f : Nat) : Bool :=
  s.crews.any (fun e => e.2.core == some k && !e.2.ended && (Tbl.find? e.2.flumes f).isSome)

/-- The flume entries' rules: fields in range, numbers once each and free, producer and consumer in the crew. An image that is loaded
again finds its numbers bound to its own crew, as MILL.CFG left them. -/
def State.flumesOk (s : State) (o : Nat) (again : Bool) (es : List Dword) : Bool :=
  let e1 := hdrExtent (s.ownerHeader o) 1
  let k := (s.coreOf o).getD 0
  let nums := es.map flumeNum
  let own (f : Nat) : Bool := again && (s.crewOf o).any (fun c => (Tbl.find? c.2.flumes f).isSome)
  es.all (fun e => decide (e.toNat < 65536) && e.toNat / 64 % 4 == 0 && decide (e.toNat / 16 % 4 ≤ 1)
      && decide (flumeProd e < e1) && decide (flumeCons e < e1) && (own (flumeNum e) || !s.flumeBound k (flumeNum e)))
    && nums.eraseDups == nums

/-- Read n units of 64 bytes of an image, each checked as a load. -/
def State.readUnits (s : State) (a : Dword) : Nat → Eff (List Dword × State)
  | 0 => .ok ([], s)
  | n + 1 =>
    match s.globalAccess s.cur.ctx a 64 64 false true with
    | .error e => .error e
    | .ok (pa, _, t) => (t.readUnits (a + 64) n).map (fun r => (t.headerAt pa ++ r.1, r.2))

/-- Read an image as MILL.CFG does (12 R217): its header first, then all of it. The dwords from the eighth on are its stages
and flume entries. `again` says that a saved mill is loaded again. -/
def State.readImage (s : State) (o : Nat) (a : Dword) (again : Bool) : Eff (MillImage × State) :=
  match s.readUnits a 1 with
  | .error e => .error e
  | .ok (m, t) =>
    match t.readUnits a (millSize m) with
    | .error e => .error e
    | .ok (ds, u) =>
      let n := millStages m
      let stages := ((ds.drop 8).take n).map (fun d => (d.extractLsb' 0 32, d.extractLsb' 32 32))
      let fl := (ds.drop (8 + n)).take (millFlumes m)
      if millHeaderOk m (s.leaseMax s.cur.ctx) && stages.all (fun w => (stageInstr w.1 w.2).isSome) && s.flumesOk o again fl then
        .ok (⟨m, stages, fl⟩, u)
      else trapWith causeMillImage 0

/-! ### MILL.CFG (12 R217) -/

/-- Bind an image's flumes to a crew, each empty. -/
def State.bindFlumes (s : State) (o : Nat) (es : List Dword) : State :=
  match s.crewOf o with
  | none => s
  | some (c, x) => s.setCrew c { x with flumes := es.foldl (fun (t : Tbl Flume) e =>
      Tbl.insert t (flumeNum e) ⟨flumeDepth e, flumeProd e, flumeCons e, [], [], []⟩) x.flumes }

/-- A mill that has just been loaded. -/
def Mill.fresh (o : Nat) (a : Dword) (x : MillImage) : Mill :=
  { holder := o, image := a, m := x.m, stages := x.stages, base := [], baseOrigins := [], enterPc := 0, running := false,
    toAdmit := [], inFlight := [], reorder := [], aside := [], grain := 0, draining := false, npois := 0, first := none }

/-- The mill saved with an owner's crew, where the owner holds it. -/
def State.savedMill (s : State) (o : Nat) : Option Mill :=
  match s.crewOf o with
  | some (_, x) => match x.mill with
    | some m => if m.holder = o then some m else none
    | none => none
  | none => none

/-- The mill of an owner's core. -/
def State.coreMill (s : State) (o : Nat) : Option Mill := (s.core ((s.coreOf o).getD 0)).mill

def State.setMill (s : State) (k : Nat) (m : Option Mill) : State := s.setCore k { s.core k with mill := m }
/-- An owner's saved mill is given up; another bundle's stays. -/
def State.dropSavedMill (s : State) (o : Nat) : State :=
  match s.crewOf o with
  | some (c, x) => if x.mill.any (fun m => m.holder == o) then s.setCrew c { x with mill := none } else s
  | none => s

/-- Whether another bundle holds the mill of an owner's core: the one loaded there, or one saved with a crew that has come back to the
core and still to be loaded again (12 R217, R228). -/
def State.millHeld (s : State) (o : Nat) : Bool :=
  (s.coreMill o).any (fun m => m.holder != o) ||
    s.crews.any (fun e => e.2.core == s.coreOf o && e.2.core.isSome && !e.2.ended && e.2.mill.any (fun m => m.holder != o))

def millCfgOwner (d a : BitVec 6) (o : Nat) (s : State) : Eff State :=
  match s.useS o a with
  | .error e => .error e
  | .ok v =>
    match s.readImage o v false with
    | .error e => .error e
    | .ok (x, t) =>
      let refused := x.stages.length != 0 && t.millHeld o
      let t1 := if refused then t
        else if x.stages.length = 0 then t.bindFlumes o x.flumes
        else ((t.dropSavedMill o).bindFlumes o x.flumes).setMill ((t.coreOf o).getD 0) (some (Mill.fresh o v x))
      let r := t1.deliver o 0 5 (if refused then 1 else 0)
      .ok (r.2.putS o d r.1)

def execMillCfg (d a : BitVec 6) (s : State) : Outcome State Fault Refusal := conclude s (forOwners s (millCfgOwner d a))

/-! ### Reloading (12 R228, 13 R231) -/

/-- What reading an image again raises: a condition of R102 or R103, a fatal one among them, is a precise trap here (13 R231; log
131). -/
def Stop.precise : Stop → Stop
  | .stopped (.fatal c a) => .stopped (.trap c a none)
  | e => e

/-- Load a saved mill again: the image is read and checked anew; one that a frozen token's stage lies outside raises mill-image (13
R231). The crew's flumes stay as they are: only the stages and the header are taken. -/
def State.reloadMill (s : State) (o : Nat) (m : Mill) : Eff State :=
  match s.readImage o m.image true with
  | .error e => .error e.precise
  | .ok (x, u) =>
    if m.inFlight.all (fun e => decide (e.1 < x.stages.length)) && !x.stages.isEmpty then
      .ok ((u.dropSavedMill o).setMill ((u.coreOf o).getD 0) (some { m with m := x.m, stages := x.stages, draining := false }))
    else trapWith causeMillImage 0

/-! ### MILL.ENTER and MILL.EXIT (03 R87) -/

/-- Start a mill: the bundle's live strands wait to be admitted, by rising index. -/
def State.startMill (s : State) (o : Nat) (m : Mill) : State :=
  let live := s.liveStrands o
  let w := s.owner o
  let m1 : Mill := { m with running := true, toAdmit := live.map strandIndex, grain := 0, base := w.s, baseOrigins := w.origins,
                            enterPc := s.cur.gpc }
  let s1 := s.setMill ((s.coreOf o).getD 0) (some m1)
  live.foldl (fun t i => t.setStrand i { t.strand i with stat := .milled }) s1

def millEnterOwner (o : Nat) (s : State) : Eff State :=
  match s.coreMill o with
  | some m =>
    if m.holder = o then .ok (s.startMill o m)
    else if (s.savedMill o).isSome then waitWith .again
    else trapWith causeMillState 0
  | none =>
    match s.savedMill o with
    | none => trapWith causeMillState 0
    | some m =>
      match s.reloadMill o m with
      | .error e => .error e
      | .ok t =>
        if m.running then .ok ((t.liveStrands o).foldl (fun u i => u.setStrand i { u.strand i with stat := .milled }) t)
        else .ok (match t.coreMill o with
          | some m1 => t.startMill o m1
          | none => t)

def execMillEnter (s : State) : Outcome State Fault Refusal := conclude s (forOwners s millEnterOwner)

/-- MILL.EXIT's status (03 R87). -/
def Mill.status (m : Mill) : Dword :=
  match m.first with
  | none => BitVec.ofNat 64 m.npois
  | some (_, x) => (0 : BitVec 24) ++ x.cause ++ ((0 : BitVec 1) ++ x.ostage) ++ x.ostrand ++ BitVec.ofNat 16 m.npois

def millExitOwner (d : BitVec 6) (o : Nat) (s : State) : Eff State :=
  match s.coreMill o, s.savedMill o with
  | some m, sv =>
    if m.holder = o then .ok ((s.setMill ((s.coreOf o).getD 0) none).putS o d m.status)
    else match sv with
      | some m1 => .ok ((s.dropSavedMill o).putS o d m1.status)
      | none => trapWith causeMillState 0
  | none, some m => .ok ((s.dropSavedMill o).putS o d m.status)
  | none, none => trapWith causeMillState 0

def execMillExit (d : BitVec 6) (s : State) : Outcome State Fault Refusal := conclude s (forOwners s (millExitOwner d))

/-! ### Tokens and stages (12 R222, R223, R227) -/

/-- A token at admission: its live-ins and predicates, with the origins of poisoned registers. -/
def State.admitToken (s : State) (m : Mill) (j : Nat) : Token :=
  let i := strandKey m.holder j
  let moves := millMoves (millIn m.m)
  let x := moves.foldl (fun (t : Tbl (Tagged 32)) e => Tbl.put (.zero 32) t e.1 (s.getV i e.2)) []
  let y := (millPreds (millPin m.m)).foldl (fun (y : BitVec 8) e => if s.getP i e.2 then y ||| (1#8 <<< e.1) else y) 1
  { strand := j, x := x, y := y, origin := none, acted := false,
    slotOrigins := x.foldl (fun (t : Tbl Origin) e => match e.2.poison with
      | some k => Tbl.insert t k.toNat (s.originAt m.holder k)
      | none => t) [] }

/-- y(k) of a token; y0 reads true. -/
def Token.pred (t : Token) (k : Nat) : Bool := k == 0 || t.y.getLsbD k

/-- A token poisoned at a stage. -/
def Token.poisonAt (t : Token) (stage cause : Nat) (addr : Dword) : Token :=
  { t with origin := some ⟨BitVec.ofNat 8 cause, addr, true, BitVec.ofNat 7 stage, BitVec.ofNat 8 t.strand⟩ }

/-- Mark origins that a stage entered as its own. -/
def markStage (old new : Tbl Origin) (stage strand : Nat) : Tbl Origin :=
  new.map (fun e => if Tbl.find? old e.1 = some e.2 then e
    else (e.1, { e.2 with omill := true, ostage := BitVec.ofNat 7 stage, ostrand := BitVec.ofNat 8 strand }))

/-- The machine as a stage's instruction sees it: the token in place of its strand, the scalar registers of MILL.ENTER, and
the token's origins. -/
def State.stageView (s : State) (m : Mill) (stage : Nat) (t : Token) : State :=
  let i := strandKey m.holder t.strand
  let pc := m.image + BitVec.ofNat 64 (64 + 8 * stage)
  let ctx := match s.launchOf m.holder with
    | some l => ((Tbl.find? s.launches l).map (fun x => x.ctx)).getD 0
    | none => 0
  let w := s.owner m.holder
  { s with
    strands := [(i, { Strand.fresh pc with v := t.x, p := t.y ||| 1 })],
    owners := Tbl.insert s.owners m.holder { w with s := m.base.map (fun e => (e.1, { e.2 with poison := none })), origins := t.slotOrigins },
    cur := ⟨.raster, ctx, pc, pc, false, [m.holder], [i], true, none⟩, last := none }

/-- The victim tags of a bundle's core as they were in another state. -/
def State.keepVictims (u s : State) (b : Nat) : State :=
  match s.coreOf b with
  | some k => u.setCore k { u.core k with victims := (s.core k).victims }
  | none => u

/-- What a stage has done to its token, and the machine after it. None says that the stage holds. Its accesses feed neither the bundle's
measurement nor its victim hits (12 R226). -/
def State.stageResult (s : State) (m : Mill) (stage : Nat) (t : Token) (u : State) : Option (Token × State) :=
  let i := strandKey m.holder t.strand
  match u.last with
  | some (.trap c a _) => some ({ t.poisonAt stage c.toNat a with acted := true }, s)
  | some (.fatal c a) => some ({ t.poisonAt stage c.toNat a with acted := true }, s)
  | some (.wait _) => none
  | none =>
    let x := u.strand i
    let w := s.owner m.holder
    let v := u.owner m.holder
    some ({ t with x := x.v, y := x.p, slotOrigins := markStage t.slotOrigins v.origins stage t.strand, acted := true },
      { (u.keepVictims s m.holder) with strands := s.strands, bundles := s.bundles, cur := s.cur, last := s.last,
                                        owners := Tbl.insert u.owners m.holder { w with acr := v.acr } })

/-- A stage acts on its token (12 R219, R223, R227): a poisoned token, or one whose guard is false, is left as it is. -/
def State.actStage (s : State) (m : Mill) (stage : Nat) (t : Token) : Except Fault (Option (Token × State)) :=
  let w := m.stages.getD stage (0, 0)
  let g := guardOf (wordLong w.1) w.2
  let done : Except Fault (Option (Token × State)) := .ok (some ({ t with acted := true }, s))
  if t.origin.isSome || t.pred g.pg.toNat == g.neg then done
  else
    match stageInstr w.1 w.2 with
    | none => done
    | some ins =>
      match (stageBase w.1).bind (fun r => (Tbl.getD m.base r.toNat (.zero 64)).poison) with
      | some k => .ok (some ({ t.poisonAt stage causePoisonUse (Tbl.getD m.baseOrigins k.toNat ⟨0, 0, false, 0, 0⟩).addr with acted := true }, s))
      | none =>
        match stageExec ins (s.stageView m stage t) with
        | .next u => .ok (s.stageResult m stage t u)
        | .fault f => .error f
        | .refused _ => done

/-! ### The sink (12 R224, R227) -/

/-- One arrival of the sink on its core barrier: an unset target becomes 1. -/
def State.sinkArrive (s : State) (m : Mill) : State :=
  match s.stayOf m.holder with
  | none => s
  | some (k, x) => s.coreArrive k (millBar m.m) ((Tbl.getD x.bars (millBar m.m) Barrier.zero).target.getD 1)

/-- Write a token's live-outs: a poisoned slot takes an entry of the bundle's origin table, one for each origin. -/
def State.writeOuts (s : State) (m : Mill) (t : Token) : List (Nat × Nat) → Tbl (BitVec 3) → State
  | [], _ => s
  | (j, r) :: rest, seen =>
    let i := strandKey m.holder t.strand
    let x := Tbl.getD t.x j (.zero 32)
    match x.poison with
    | none => (s.putV i r x.val).writeOuts m t rest seen
    | some k =>
      match Tbl.find? seen k.toNat with
      | some n => (s.setV i r ⟨0, some n⟩).writeOuts m t rest seen
      | none =>
        let e := s.newOrigin m.holder (Tbl.getD t.slotOrigins k.toNat ⟨0, 0, false, 0, 0⟩)
        (e.2.setV i r ⟨0, some e.1⟩).writeOuts m t rest (Tbl.insert seen k.toNat e.1)

/-- Finish a token: its registers, its status, and its arrival. -/
def State.finishToken (s : State) (m : Mill) (t : Token) : Mill × State :=
  let i := strandKey m.holder t.strand
  let outs := millMoves (millOut m.m)
  let r : Mill × State :=
    match t.origin with
    | some x =>
      let e := s.newOrigin m.holder x
      let s1 := outs.foldl (fun (u : State) o => u.setV i o.2 ⟨0, some e.1⟩) e.2
      let first := match m.first with
        | none => some (t.strand, x)
        | some y => if !millOrd m.m && decide (t.strand < y.1) then some (t.strand, x) else some y
      ({ m with npois := min (m.npois + 1) 65535, first := first }, s1)
    | none =>
      let s1 := s.writeOuts m t outs []
      (m, (millPreds (millPout m.m)).foldl (fun (u : State) e => u.setP i e.2 (t.pred e.1)) s1)
  if millArr m.m then
    if r.1.grain + 1 = millGrain m.m then ({ r.1 with grain := 0 }, r.2.sinkArrive m) else ({ r.1 with grain := r.1.grain + 1 }, r.2)
  else r

/-- Finish the tokens of the reorder buffer that no unfinished strand of lower index precedes; `n` bounds them. -/
def State.drainReorder (s : State) (m : Mill) : Nat → Mill × State
  | 0 => (m, s)
  | n + 1 =>
    match m.reorder with
    | [] => (m, s)
    | (k, t) :: rest =>
      if m.inFlight.all (fun e => decide (k < e.2.strand)) && m.aside.all (fun e => decide (k < e.strand)) then
        let r := s.finishToken { m with reorder := rest } t
        r.2.drainReorder r.1 n
      else (m, s)

/-- A token reaches the sink; `m` no longer holds it in flight. -/
def State.sinkToken (s : State) (m : Mill) (t : Token) : Mill × State :=
  if millOrd m.m then
    let m1 := { m with reorder := Tbl.insert m.reorder t.strand t }
    s.drainReorder m1 m1.reorder.length
  else s.finishToken m t

/-- When the last token has finished: the arrival of a partial grain, and the bundle goes on (12 R224). -/
def State.endMill (s : State) (m : Mill) : Mill × State :=
  if m.running && m.toAdmit.isEmpty && m.inFlight.isEmpty && m.reorder.isEmpty && m.aside.isEmpty then
    let s1 := if millArr m.m && decide (m.grain ≠ 0) then s.sinkArrive m else s
    ({ m with running := false, grain := 0 },
     (s1.liveStrands m.holder).foldl (fun t i => match (t.strand i).stat with
       | .milled => (t.setStrand i { t.strand i with stat := .ready }).stopNow i
       | _ => t) s1)
  else (m, s)

/-! ### The mill step (12 R223) -/

/-- Let the stages act that have not, highest first, until one holds; `n` is one above the next stage. -/
def State.actStages (s : State) (m : Mill) : Nat → Except Fault (Mill × State)
  | 0 => .ok (m, s)
  | n + 1 =>
    match Tbl.find? m.inFlight n with
    | none => s.actStages m n
    | some t =>
      if t.acted then s.actStages m n
      else
        match s.actStage m n t with
        | .error f => .error f
        | .ok none => .ok (m, s)
        | .ok (some (t1, s1)) => s1.actStages { m with inFlight := Tbl.insert m.inFlight n t1 } n

/-- Move tokens one stage on, from stage `lo` up. -/
def moveTokens (fl : Tbl Token) (lo : Nat) : Tbl Token :=
  fl.map (fun e => if lo ≤ e.1 then (e.1 + 1, { e.2 with acted := false }) else e)

/-- The movement of a step: the last stage's token goes round, is set aside or sinks; a token enters at LOOPS, or one is
admitted. -/
def State.moveMill (s : State) (m : Mill) : Mill × State :=
  let n := m.stages.length
  let last := Tbl.find? m.inFlight (n - 1)
  let m1 := { m with inFlight := Tbl.erase m.inFlight (n - 1) }
  let c := millCont m.m
  let again := match last with
    | some t => t.origin.isNone && c != 0 && t.pred c
    | none => false
  let lo := millLoops m.m
  let enter (x : Mill) (t : Token) : Mill :=
    { x with inFlight := Tbl.insert (moveTokens x.inFlight lo) lo { t with acted := false } }
  match last with
  | some t =>
    if again && !m.draining then (enter m1 t, s)
    else
      let r := if again then ({ m1 with aside := m1.aside ++ [t] }, s) else s.sinkToken m1 t
      let m2 := r.1
      match m2.aside, m2.draining with
      | x :: rest, false => (enter { m2 with aside := rest } x, r.2)
      | _, _ =>
        let m3 := { m2 with inFlight := moveTokens m2.inFlight 0 }
        match m3.toAdmit, m3.draining with
        | j :: rest, false => ({ m3 with toAdmit := rest, inFlight := Tbl.insert m3.inFlight 0 (r.2.admitToken m3 j) }, r.2)
        | _, _ => (m3, r.2)
  | none =>
    match m1.aside, m1.draining with
    | x :: rest, false => (enter { m1 with aside := rest } x, s)
    | _, _ =>
      let m3 := { m1 with inFlight := moveTokens m1.inFlight 0 }
      match m3.toAdmit, m3.draining with
      | j :: rest, false => ({ m3 with toAdmit := rest, inFlight := Tbl.insert m3.inFlight 0 (s.admitToken m3 j) }, s)
      | _, _ => (m3, s)

/-- One mill step of a core: a step that was held goes on first. -/
def State.millStep (s : State) (k : Nat) : Except Fault State :=
  match (s.core k).mill with
  | none => .ok s
  | some m =>
    if !m.running then .ok s
    else
      let r := if m.inFlight.any (fun e => !e.2.acted) then (m, s) else s.moveMill m
      match r.2.actStages r.1 r.1.stages.length with
      | .error f => .error f
      | .ok (m2, s2) =>
        let e := s2.endMill m2
        .ok (e.2.setMill k (some e.1))

/-- MILL_STEP (12 R223, R225). -/
def execMillStep (core : Nat) (s : State) : Outcome State Fault Refusal :=
  match s.millStep core with
  | .ok t => .next t
  | .error f => .fault f

/-! ### Drain, freeze and reload (12 R228, 14 R251) -/

/-- Take a drained mill off a core into its crew's saved state. Set-aside tokens re-enter in strand order. -/
def State.stowMill (s : State) (k : Nat) : State :=
  match (s.core k).mill with
  | none => s
  | some m =>
    match s.crewOf m.holder with
    | none => s
    | some (c, x) =>
      let order := (List.range 64).filterMap (fun j => m.aside.find? (fun t => t.strand == j))
      (s.setMill k none).setCrew c { x with mill := some { m with draining := false, aside := order } }

/-- Whether a mill's drain has ended: nothing is left inside a pass. -/
def Mill.drained (m : Mill) : Bool := m.draining && m.inFlight.isEmpty

/-- MILL_DRAIN_TIME_LIMIT: after 2,000 ns, tokens still inside their pass are frozen and saved at their stages. -/
def execMillDrainTimeLimit (core : Nat) (s : State) : Outcome State Fault Refusal :=
  .next (match (s.core core).mill with
    | some m => if m.draining then s.stowMill core else s
    | none => s)

/-- The bundle's group at MILL.ENTER, for a trap that reloading raises (13 R231). -/
def State.atEnter (s : State) (o : Nat) (m : Mill) : State :=
  let ctx := match s.launchOf o with
    | some l => ((Tbl.find? s.launches l).map (fun x => x.ctx)).getD 0
    | none => 0
  { s with cur := ⟨.raster, ctx, m.enterPc, m.enterPc, false, [o], s.liveStrands o, true, none⟩, last := none }

/-- MILL_RELOAD: a saved mill that was running is loaded again as soon as the core's mill is free, unless its crew is stopping again (14
R246) or its strands have left the mill for a trap (13 R231). -/
def execMillReload (core b : Nat) (s : State) : Outcome State Fault Refusal :=
  match s.savedMill b with
  | none => .next s
  | some m =>
    let stopping := (s.crewOf b).any (fun c => c.2.stopping)
    let inside := (s.liveStrands b).any (fun i => (s.strand i).stat == .milled)
    if s.coreOf b = some core ∧ (s.core core).mill.isNone ∧ m.running ∧ inside ∧ !stopping then
      let t := s.atEnter b m
      match t.reloadMill b m with
      | .error (.stopped (.wait _)) => .next s
      | r => conclude t r
    else .next s

/-! ### Flumes (03 R88, 12 R229) -/

/-- The flume a bundle's crew has bound to a number, with the bundle on the right end of it, or flume-unbound. -/
def State.flumeFor (s : State) (o f : Nat) (push : Bool) : Eff (Nat × Crew × Flume) :=
  match s.crewOf o, Tbl.find? s.bundles o with
  | some (c, x), some b =>
    match Tbl.find? x.flumes f with
    | some y => if (if push then y.prod else y.cons) = b.f1 then .ok (c, x, y) else trapWith causeFlumeUnbound 0
    | none => trapWith causeFlumeUnbound 0
  | _, _ => trapWith causeFlumeUnbound 0

def State.setFlume (s : State) (c f : Nat) (y : Flume) : State :=
  match Tbl.find? s.crews c with
  | some x => s.setCrew c { x with flumes := Tbl.insert x.flumes f y }
  | none => s

/-- FSEND's entry: v(a) of each live strand; a poisoned one raises poison-use. -/
def State.flumeEntry (s : State) (o : Nat) (a : BitVec 6) : Eff (Tbl Word) :=
  (s.liveStrands o).foldlM (fun (t : Tbl Word) i => (s.useV i a.toNat).map (fun v => Tbl.put 0 t (strandIndex i) v)) []

/-- Present a bundle's operation, once. -/
def State.present (s : State) (f : Nat) (push nb : Bool) (a : BitVec 6) (o : Nat) : Eff State :=
  match s.flumeFor o f push with
  | .error e => .error e
  | .ok (c, _, y) =>
    if (Tbl.find? y.results o).isSome || y.presented.any (fun p => p.bundle == o) then .ok s
    else
      match (if push then s.flumeEntry o a else .ok []) with
      | .error e => .error e
      | .ok en => .ok (s.setFlume c f { y with presented := y.presented ++ [⟨o, push, nb, en⟩] })

/-- The result of a completed operation of a bundle. -/
def State.flumeResult (s : State) (o f : Nat) : Option (Bool × Tbl Word) :=
  match s.crewOf o with
  | some (_, x) => (Tbl.find? x.flumes f).bind (fun y => Tbl.find? y.results o)
  | none => none

/-- A flume instruction as a park point: bundles present their operation, and those whose step has completed go on. -/
def State.flumePoint (s : State) (f : Nat) (push nb : Bool) (a : BitVec 6) : Eff State :=
  (s.cur.owners.foldlM (fun t o => State.present t f push nb a o) s).map (fun (t : State) =>
    t.ownerPoint (fun o => if (t.flumeResult o f).isSome then none else some (.flume false)))

/-- Take a bundle's result, and act on it. -/
def flumeOwner (f : Nat) (act : Nat → Bool × Tbl Word → State → State) (o : Nat) (s : State) : Eff State :=
  match s.crewOf o with
  | none => trapWith causeFlumeUnbound 0
  | some (c, x) =>
    match Tbl.find? x.flumes f with
    | none => trapWith causeFlumeUnbound 0
    | some y =>
      match Tbl.find? y.results o with
      | none => waitWith .again
      | some r => .ok (act o r (s.setFlume c f { y with results := Tbl.erase y.results o }))

def execFsend (d : BitVec 4) (a : BitVec 6) (s : State) : Outcome State Fault Refusal :=
  conclude s (match (if s.cur.cleared then .ok s else s.flumePoint d.toNat true false a) with
    | .error e => .error e
    | .ok t => forOwners t (flumeOwner d.toNat (fun _ _ u => u)))

/-- FSEND.NB's predicate in every live strand (03 R88). -/
def setEvery (b : BitVec 3) (o : Nat) (r : Bool × Tbl Word) (s : State) : State :=
  let v := s.deliver o 0 3 (if r.1 then 1 else 0)
  (s.liveStrands o).foldl (fun t i => t.setP i b.toNat (v.1 != 0)) v.2

def execFsendNb (d : BitVec 4) (a : BitVec 6) (b : BitVec 3) (s : State) : Outcome State Fault Refusal :=
  conclude s (match (if s.cur.cleared then .ok s else s.flumePoint d.toNat true true a) with
    | .error e => .error e
    | .ok t => forOwners t (flumeOwner d.toNat (setEvery b)))

/-- FTAKE's element i to v(d) of strand i. -/
def takeEntry (d : BitVec 6) (o : Nat) (r : Bool × Tbl Word) (s : State) : State :=
  (s.liveStrands o).foldl (fun t i => t.putV i d.toNat (Tbl.getD r.2 (strandIndex i) 0)) s

def execFtake (d : BitVec 6) (a : BitVec 4) (s : State) : Outcome State Fault Refusal :=
  conclude s (match (if s.cur.cleared then .ok s else s.flumePoint a.toNat false false 0) with
    | .error e => .error e
    | .ok t => forOwners t (flumeOwner a.toNat (takeEntry d)))

/-- A flume's pop at a step: it completes where an entry stood at the start. -/
def Flume.pop (y : Flume) : Flume :=
  match y.presented.find? (fun p => !p.push), y.entries with
  | some p, e :: rest =>
    { y with entries := rest, presented := y.presented.filter (fun q => q.push || q.bundle != p.bundle),
             results := Tbl.insert y.results p.bundle (true, e) }
  | _, _ => y

/-- A flume's push at a step: it completes where there is room; FSEND.NB completes always. -/
def Flume.pushOne (y : Flume) : Flume :=
  match y.presented.find? (fun p => p.push) with
  | none => y
  | some p =>
    let rest := y.presented.filter (fun q => !q.push || q.bundle != p.bundle)
    if y.entries.length < y.depth then
      { y with entries := y.entries ++ [p.entry], presented := rest, results := Tbl.insert y.results p.bundle (true, []) }
    else if p.nonBlocking then { y with presented := rest, results := Tbl.insert y.results p.bundle (false, []) }
    else y

/-- FLUME_STEP: a pop, then a push (12 R229). A saved crew's flumes stand still. -/
def execFlumeStep (crew f : Nat) (s : State) : Outcome State Fault Refusal :=
  .next (match Tbl.find? s.crews crew with
    | none => s
    | some x =>
      match x.core, Tbl.find? x.flumes f with
      | some _, some y => s.setFlume crew f y.pop.pushOne
      | _, _ => s)

end Sys2Proof.Machine
end

