-- ==== Sys2Proof/Machine/Arbitrate.lean ====
section
/-! DEFINITION. Which crews are active, and which cohort a core grants: measured leases (07 R152), the active set (07 R153, R155),
run arbitration and merging (07 R159, R160, 06 R130-R132), YIELD's hold (03 R82), deadlines (03 R74), and the message between
the two dies of a grove barrier (06 R140). -/

namespace Sys2Proof.Machine

open Host (Outcome)

/-! ### Sorting -/

/-- Insert by a rank of numbers, lexicographic, equal ranks in arrival order. -/
def rankLess : List Nat → List Nat → Bool
  | [], [] => false
  | [], _ => true
  | _, [] => false
  | a :: as, b :: bs => decide (a < b) || (a == b && rankLess as bs)

def rankInsert {α : Type} (rank : α → List Nat) (x : α) : List α → List α
  | [] => [x]
  | y :: rest => if rankLess (rank x) (rank y) then x :: y :: rest else y :: rankInsert rank x rest

/-- Sort by rank. -/
def rankSort {α : Type} (rank : α → List Nat) (l : List α) : List α := l.foldl (fun acc x => rankInsert rank x acc) []

/-! ### Leases (07 R152, R153) -/

/-- A crew's lease: the sum of its bundles' leases. -/
def State.crewLease (s : State) (x : Crew) : Nat :=
  (x.bundles.map (fun b => ((Tbl.find? s.bundles b).map Bundle.lease).getD 0)).sum

/-- The end of a bundle's window: the estimate rises to the lines touched, or falls by a quarter of the difference. -/
def Bundle.endWindow (x : Bundle) (leaseMax : Nat) : Bundle :=
  if x.declared.isSome then { x with touched := [] }
  else
    let n := x.touched.length
    let e := if x.est ≤ n then n else x.est - (x.est - n) / 4
    { x with est := min (max e 1) leaseMax, touched := [] }

/-- The crews resident on a core. -/
def State.resident (s : State) (k : Nat) : List (Nat × Crew) := s.crews.filter (fun e => e.2.core == some k && !e.2.ended && !e.2.saved)

/-- A strand whose wait makes it dormant: parked on one of R153's conditions and not found ready since. -/
def Strand.dormant (x : Strand) : Bool :=
  x.since == 0 && (match x.stat with
    | .parked .rest => true
    | .parked (.barrier ..) => true
    | .parked (.deadline _) => true
    | .parked (.bead _) => true
    | .parked (.flume _) => true
    | _ => false)

/-- A crew is dormant when every live strand of it is. -/
def State.crewDormant (s : State) (x : Crew) : Bool :=
  x.bundles.all (fun b => (s.liveStrands b).all (fun i => (s.strand i).dormant))

/-- Whether a crew is its launch's lowest-numbered unfinished one, or of the lowest-numbered unfinished grove (07 R153, R156). -/
def State.isLowest (s : State) (x : Crew) : Bool :=
  let peers := (s.crews.filter (fun e => e.2.launch == x.launch && !e.2.ended)).map Prod.snd
  let num (y : Crew) : Nat := match y.grove with
    | some g => ((Tbl.find? s.groves g).map (fun (v : Grove) => v.index)).getD 0
    | none => y.index
  peers.all (fun y => decide (num x ≤ num y))

/-- Crews by PRIO high to low, then start sequence. -/
def State.crewRank (s : State) (e : Nat × Crew) : List Nat := [7 - hdrPrio (s.header e.2.launch), e.2.seq]

/-- The second walk of R153: crews are admitted while they fit, and it stops at the first that does not. -/
def State.admitCrews (s : State) (room : Nat) : Nat → List (Nat × Crew) → List Nat
  | _, [] => []
  | sum, (c, x) :: rest =>
    let n := sum + s.crewLease x
    if room < n then [] else c :: s.admitCrews room n rest

/-- The active set of a core (07 R153). -/
def State.activeSet (s : State) (k : Nat) : List Nat :=
  let y := s.core k
  let room := 15 * ((Config.coreSram - y.granules * 32768) / 128) / 16
  let awake := rankSort s.crewRank ((s.resident k).filter (fun e => !e.2.stopping && !s.crewDormant e.2))
  let first := awake.filter (fun e => s.isLowest e.2)
  let base := match y.mill with
    | some m => millLease m.m
    | none => 0
  let sum := base + (first.map (fun e => s.crewLease e.2)).sum
  first.map Prod.fst ++ s.admitCrews room sum (awake.filter (fun e => !s.isLowest e.2))

/-- Recompute the active set. R155's events change what it is computed from: every arbitration of the core, and every choice of what
happens next, starts from the set as it then is (07 R155, R156). -/
def State.recompute (s : State) (k : Nat) : State := s.setCore k { s.core k with active := s.activeSet k }

/-- ACTIVE_SET_RECOMPUTE (07 R155). -/
def execActiveSetRecompute (core : Nat) (s : State) : Outcome State Fault Refusal := .next (s.recompute core)

/-- LEASE_WINDOW_END of a bundle: a window holds only cycles in which the bundle is active (07 R152). -/
def execLeaseWindowEnd (b : Nat) (s : State) : Outcome State Fault Refusal :=
  .next (match Tbl.find? s.bundles b, s.crewOf b, s.coreOf b with
    | some x, some (i, c), some k =>
      if (s.activeSet k).contains i then (s.setBundle b (x.endWindow (s.leaseMax (s.launchCtx c.launch)))).recompute k else s
    | _, _, _ => s)

/-! ### Cohorts (06 R130, R131) -/

/-- A cohort: a bundle's waiting strands at one pc. -/
structure Cohort where
  bundle : Nat
  pc : Dword
  strands : List Nat
deriving DecidableEq, Repr

/-- A strand that stands in a cohort. -/
def Strand.waiting (x : Strand) : Bool :=
  match x.stat with
  | .ready => true
  | .parked _ => true
  | _ => false

/-- The cohorts of a bundle. -/
def State.cohortsOf (s : State) (b : Nat) : List Cohort :=
  let is := (s.liveStrands b).filter (fun i => (s.strand i).waiting)
  ((is.map (fun i => (s.strand i).pc)).eraseDups).map (fun pc => ⟨b, pc, is.filter (fun i => (s.strand i).pc == pc)⟩)

/-- A bundle's index, as the order of bundles takes it (06 R132, 20 R331). -/
def State.bundleIndex (s : State) (b : Nat) : Nat := ((Tbl.find? s.bundles b).map (fun (x : Bundle) => x.index)).getD 0

/-- The cohorts on a core, oldest crew first, then by bundle index. -/
def State.cohorts (s : State) (k : Nat) : List Cohort :=
  ((rankSort (fun e => [e.2.seq]) (s.resident k)).map (fun e =>
    ((rankSort (fun b => [s.bundleIndex b]) e.2.bundles).map s.cohortsOf).flatten)).flatten

/-- A cohort is ready: a strand of it can issue. A parked strand has been found able to go on (01 R23). A cohort that holds a strand at a
park point and one that has freshly arrived is ready, and all its strands are granted (DEDUCED, log 124). -/
def State.cohortReady (s : State) (c : Cohort) : Bool :=
  c.strands.any (fun i => (s.strand i).stat == .ready || (s.strand i).since != 0)

/-- Held by YIELD (03 R82). -/
def State.cohortHeld (s : State) (c : Cohort) : Bool := c.strands.any (fun i => (s.strand i).held)

/-- The crew of a cohort, and whether it is active. -/
def State.cohortCrew (s : State) (c : Cohort) : Nat := ((Tbl.find? s.bundles c.bundle).map (fun (x : Bundle) => x.crew)).getD 0

/-- Eligible cohorts of a core (07 R159). -/
def State.eligible (s : State) (k : Nat) : List Cohort :=
  (s.cohorts k).filter (fun c => s.cohortReady c && !s.cohortHeld c && (s.core k).active.contains (s.cohortCrew c))

/-- The table entry of a pc: p[7:2] xor p[13:8] (06 R131). -/
def pcEntry (pc : Dword) : Nat := (pc.extractLsb' 2 6 ^^^ pc.extractLsb' 8 6).toNat

/-- The entries' tags: an entry that holds no cohort of its tag loses it, and an untagged one takes the first pc that comes, at an
arbitration, in crew and then bundle order (DESIGN CHOICE, log 125). -/
def State.retag (s : State) (k : Nat) : Tbl Dword :=
  let pcs := (s.cohorts k).map (fun c => c.pc)
  let kept := (s.core k).pcTags.filter (fun e => pcs.contains e.2)
  pcs.foldl (fun (t : Tbl Dword) pc => match Tbl.find? t (pcEntry pc) with
    | some _ => t
    | none => Tbl.insert t (pcEntry pc) pc) kept

/-! ### Arbitration (07 R160) -/

/-- A cohort's wait count, stamp, and when it became ready. -/
def State.cohortWait (s : State) (c : Cohort) : Nat := (c.strands.map (fun i => (s.strand i).waitCount)).foldl max 0
def State.cohortStamp (s : State) (c : Cohort) : Nat := ((c.strands.filterMap (fun i => (s.strand i).stamp)).head?).getD 0
def State.cohortSince (s : State) (c : Cohort) : Nat :=
  match (c.strands.map (fun i => (s.strand i).since)).filter (fun n => n != 0) with
  | [] => (s.core ((s.coreOf c.bundle).getD 0)).arb + 1
  | n :: rest => rest.foldl min n

/-- The order in which a pool is served. -/
def State.cohortRank (s : State) (promoted : Bool) (c : Cohort) : List Nat :=
  let x := ((Tbl.find? s.crews (s.cohortCrew c)).map (fun (y : Crew) => (y.seq, y.launch))).getD (0, 0)
  [if promoted then s.cohortStamp c else 0, 7 - hdrPrio (s.header x.2), x.1, s.bundleIndex c.bundle, s.cohortSince c, c.pc.toNat]

/-- The cohort to grant. -/
def State.choose (s : State) (elig : List Cohort) : Option Cohort :=
  let prom := elig.filter (fun c => decide (64 ≤ s.cohortWait c))
  (if prom.isEmpty then rankSort (s.cohortRank false) elig else rankSort (s.cohortRank true) prom).head?

/-- The lanes of strands: (index + rot) mod 64 (06 R128). -/
def State.lanesOf (s : State) (is : List Nat) : List Nat :=
  is.map (fun i => (strandIndex i + ((Tbl.find? s.bundles (strandBundle i)).map (fun (b : Bundle) => b.rot)).getD 0) % 64)

/-- Merge cohorts into a group while their lanes are free and no more than four bundles take part (06 R132). -/
def State.mergeCohorts (s : State) : List Cohort → List Cohort → List Cohort
  | group, [] => group
  | group, x :: rest =>
    let lanes := s.lanesOf (group.map (fun c => c.strands)).flatten
    let own := s.lanesOf x.strands
    if decide (group.length < 4) && !group.any (fun c => c.bundle == x.bundle) && !own.any (fun n => lanes.contains n) then
      s.mergeCohorts (group ++ [x]) rest
    else s.mergeCohorts group rest

/-- The group of a granted cohort: merged only through a table entry tagged with its pc, within its launch. Cohorts that are not
eligible are not merged: a crew outside the active set, or one that YIELD holds, takes no slot (DEDUCED, log 51). -/
def State.formGroup (s : State) (tags : Tbl Dword) (elig : List Cohort) (c : Cohort) : List Cohort :=
  let launch (x : Cohort) : Option Nat := s.launchOf x.bundle
  if Tbl.find? tags (pcEntry c.pc) = some c.pc then
    s.mergeCohorts [c] (elig.filter (fun x => x != c && x.pc == c.pc && launch x == launch c))
  else [c]

/-- The wait count of an eligible cohort that is not granted, and its stamp when it reaches 64. -/
def State.passOver (s : State) (arb : Nat) (c : Cohort) : State :=
  let n := min (s.cohortWait c + 1) 255
  let stamp : Option Nat := if s.cohortWait c < 64 ∧ n = 64 then some arb
    else (c.strands.filterMap (fun i => (s.strand i).stamp)).head?
  let since := s.cohortSince c
  c.strands.foldl (fun (t : State) i => t.setStrand i { t.strand i with waitCount := n, stamp := stamp, since := since }) s

/-- A granted strand. -/
def State.grantStrand (s : State) (i : Nat) : State :=
  s.setStrand i { s.strand i with waitCount := 0, stamp := none, held := false, since := 0 }

/-- Strands that YIELD holds are let go once another group has the slot. -/
def State.unhold (s : State) (k : Nat) (granted : List Nat) : State :=
  (((s.cohorts k).map (fun c => c.strands)).flatten.filter (fun i => !granted.contains i && (s.strand i).held)).foldl
    (fun (t : State) i => t.setStrand i { t.strand i with held := false }) s

/-- RUN_ARBITRATION: the slot is granted when it is free and a cohort is eligible; SPLIT's drain holds it (07 R157, R160). -/
def State.arbitrate (s0 : State) (k : Nat) : State :=
  let s := s0.recompute k
  let y := s.core k
  if y.run.isSome || y.splitting.isSome then s0
  else
    let tags := s.retag k
    let elig := s.eligible k
    match s.choose elig with
    | none => s.setCore k { y with pcTags := tags }
    | some c =>
      let group := s.formGroup tags elig c
      let members := (group.map (fun x => x.strands)).flatten
      let s1 := (elig.filter (fun x => !group.contains x)).foldl (fun (t : State) x => t.passOver y.arb x) s
      let s2 := members.foldl State.grantStrand (s1.unhold k members)
      s2.setCore k { s2.core k with run := some ⟨members, c.pc, 0⟩, arb := y.arb + 1, pcTags := tags }

def execRunArbitration (core : Nat) (s : State) : Outcome State Fault Refusal := .next (s.arbitrate core)

/-- YIELD_HOLD_EXPIRY: 64 cycles have passed with no other group ready (03 R82). -/
def execYieldHoldExpiry (core : Nat) (s : State) : Outcome State Fault Refusal := .next (s.unhold core [])

/-! ### Deadlines (03 R74) -/

/-- Device time is at least t. -/
def State.timeReaches (s : State) (t : Nat) : State := { s with time := max s.time t }

/-- WAITT_DEADLINE: device time reaches the deadline of a strand, or of a stream's access processor, which can then go on. -/
def execWaittDeadline (o st : Nat) (s : State) : Outcome State Fault Refusal :=
  .next (
    if ownerIsTile o then
      match (s.tile o).stream with
      | some x => (match x.wait with
        | some (.deadline t) => s.timeReaches t
        | _ => s)
      | none => s
    else
      let i := strandKey o st
      match (s.strand i).stat with
      | .parked (.deadline t) =>
        let u := s.timeReaches t
        u.setStrand i { u.strand i with since := (u.core ((u.coreOf o).getD 0)).arb + 1 }
      | .stopped (some (.deadline t)) => s.timeReaches t
      | _ => s)

/-! ### The message of a grove barrier (06 R140) -/

/-- Whether DONE of the other die's phase is on its way to a die. -/
def State.doneDue (s : State) (g n : Nat) (second : Bool) : Bool :=
  match Tbl.find? s.groves g with
  | none => false
  | some x =>
    let here := x.bar second n
    let there := x.bar (!second) n
    !here.heard && ((there.gen == here.gen && (there.done || s.groveLive g (!second) == 0)) || there.gen == (here.gen + 1) % 2 ^ 32)

/-- GROVE_BARRIER_DONE_MESSAGE: DONE(gen) of the other die reaches a die, whose phase completes once its own strands have
arrived. -/
def execGroveBarrierDoneMessage (grove bar : Nat) (second : Bool) (s : State) : Outcome State Fault Refusal :=
  .next (if s.doneDue grove bar second then
    match Tbl.find? s.groves grove with
    | none => s
    | some x =>
      let b := x.bar second bar
      ({ s with groves := Tbl.insert s.groves grove (x.setBar second bar { b with heard := true }) }).settleGroveBar grove bar second
  else s)

end Sys2Proof.Machine
end

