-- ==== Sys2Proof/Machine/Copy.lean ====
section
/-! DEFINITION. The copy instructions, class CPY (19 R317-R328), but for SEM (Beads), GUIDE.BIND and the links. -/

namespace Sys2Proof.Machine

open Host (Outcome)

/-- An instruction that finishes in its own step completes its token at once and signals its bead (19 R319). -/
def State.signalTail (s : State) (o : Nat) (t : CopyTail) : State :=
  if t.bs then s.signalPlace s.cur.ctx (s.ownPlace o) t.bead.toNat else s

/-- Three operand registers, none poisoned. -/
def State.useThree (s : State) (o : Nat) (a b c : BitVec 6) : Eff (Dword × Dword × Dword) :=
  match s.useS o a, s.useS o b, s.useS o c with
  | .ok x, .ok y, .ok z => .ok (x, y, z)
  | .error e, _, _ => .error e
  | _, .error e, _ => .error e
  | _, _, .error e => .error e

/-- Well-formed endpoints of two values, or bad-address. -/
def twoEndpoints (x y : Dword) : Eff (Endpoint × Endpoint) :=
  match endpointOf x, endpointOf y with
  | some d, some e => .ok (d, e)
  | none, _ => trapWith causeBadAddress x
  | _, none => trapWith causeBadAddress y

/-- A tile named by a part becomes the context's (18 R305). -/
def State.claimPlace (s : State) (p : Place) : State :=
  match p with
  | .tile t => s.claimTile s.cur.ctx t
  | _ => s

def State.claimPart (s : State) (p : CopyPart) : State := (s.claimPlace p.dstAt).claimPlace p.srcAt

/-- carry needs a destination in one valid region entry of a tile (19 R320). -/
def State.carryOk (s : State) (p : CopyPart) : Bool :=
  match s.tileOf p.dstAt with
  | some k => (List.range 16).any (fun e =>
      let r := k.region e
      r.valid && decide (128 * r.sline ≤ p.dst.toNat) && decide (p.dst.toNat + p.len ≤ 128 * (r.sline + r.lines)))
  | none => false

/-- A part from endpoint s(b) to endpoint s(a), with the checks every copy has; and the destination endpoint (19 R317). -/
def endpointPart (a b c : BitVec 6) (o : Nat) (s : State) : Eff (CopyPart × Dword) := do
  let (x, y, len) ← s.useThree o a b c
  let (d, e) ← twoEndpoints x y
  let p ← s.checkPair o x d y e len.toNat
  .ok (p, x)

/-- The part of CPY.LIN: it is shorter than 2^32 bytes, and its ranges do not overlap (19 R320). -/
def linearPart (a b c : BitVec 6) (o : Nat) (s : State) : Eff (CopyPart × Dword) := do
  let (p, x) ← endpointPart a b c o s
  if 2 ^ 32 ≤ p.len || p.overlaps then trapWith causeCopyState x else .ok (p, x)

/-- CPY.LIN of one owner, from its checks to its issue. -/
def cpyLinOwner (a b c : BitVec 6) (m : Bool) (t : CopyTail) (o : Nat) (s : State) : Eff State := do
  let (p, x) ← linearPart a b c o s
  if m && !s.carryOk p then (trapWith causeCopyState x : Eff Unit)
  let s1 := s.claimPart p
  .ok (s1.issueCopy { s1.newCopy o t false .plain [p] (p.len / 16) (s1.beadPlace o p.dstAt p.dst) with carry := m })

def execCpyLin (a b c : BitVec 6) (m : Bool) (t : CopyTail) (s : State) : Outcome State Fault Refusal :=
  afterChannel s t false (cpyLinOwner a b c m t)

/-- An offset in a crew's own allocation as an address of its place: in a grove, its place in the window (06 R138). -/
def State.crewAddress (s : State) (c ofs : Nat) : Dword :=
  match Tbl.find? s.crews c with
  | none => BitVec.ofNat 64 ofs
  | some x =>
    match x.grove with
    | none => BitVec.ofNat 64 ofs
    | some _ =>
      let h := s.header x.launch
      let f2 := x.index % 2 ^ hdrWidth h 2
      let hh := (hdrExtent h 2 + 1) / 2
      let span := roundUp (hdrScratch h) 32768
      if f2 < hh then BitVec.ofNat 64 (f2 * span + ofs) else BitVec.ofNat 64 (2 ^ 23 + (f2 - hh) * span + ofs)

/-- The receivers of CPY.MC with the offset each receives at; none where the destination is not accepted (19 R320). -/
def State.receivers (s : State) (o : Nat) (e : Endpoint) : Option (List (Place × Dword)) :=
  match e with
  | .rect die row col rows cols ofs =>
    some ((rectTiles die row col rows cols).map (fun t => (s.tilePlace (s.launchOf o) t, BitVec.ofNat 64 ofs)))
  | .own ofs =>
    if ownerIsTile o then none
    else
      let l := s.launchOf o
      some ((s.crews.filter (fun e => some e.2.launch == l && e.2.started && !e.2.ended)).map
        (fun e => (.crew e.1, s.crewAddress e.1 ofs)))
  | _ => none

/-- Where CPY.MC's destination offset lies outside a receiver's scratchpad. -/
def State.shareRangeOk (s : State) (o : Nat) (e : Endpoint) (len : Nat) : Bool :=
  match e with
  | .rect _ _ _ _ _ ofs => decide (ofs + len ≤ 524288)
  | .own ofs => decide (ofs + len ≤ hdrScratch (s.ownerHeader o)) || ownerIsTile o
  | _ => true

def cpyMcOwner (a b c : BitVec 6) (m : Bool) (t : CopyTail) (o : Nat) (s : State) : Eff State := do
  let (x, y, lenw) ← s.useThree o a b c
  let len := lenw.toNat
  let (d, e) ← twoEndpoints x y
  if misalignedAt x 16 || len % 16 != 0 then (trapWith causeMisaligned x : Eff Unit)
  if misalignedAt y 16 then (trapWith causeMisaligned y : Eff Unit)
  if !s.shareRangeOk o d len then (trapWith causeScratchRange x : Eff Unit)
  (match s.resolve o e with
    | some (p, w) => if !s.placeRangeOk p w len then trapWith causeScratchRange y else .ok ()
    | none => .ok () : Eff Unit)
  let (sp, sa) ← s.placeOf o y e
  match s.receivers o d with
  | none => trapWith causeCopyState x
  | some rs =>
    if !rs.all (fun r => s.placeFree s.cur.ctx r.1) then trapWith causeCopyState x
    else
      let parts : List CopyPart := rs.map (fun r => ⟨r.1, r.2, sp, sa, len⟩)
      if m && !parts.all s.carryOk then trapWith causeCopyState x
      else
        let s1 := parts.foldl State.claimPart s
        .ok (s1.issueCopy { s1.newCopy o t false (.shares []) parts (parts.length * (len / 16)) (s1.ownPlace o) with carry := m })

def execCpyMc (a b c : BitVec 6) (m : Bool) (t : CopyTail) (s : State) : Outcome State Fault Refusal :=
  afterChannel s t false (cpyMcOwner a b c m t)

/-- MULTICAST_SHARE_WRITTEN: a receiver whose share is written has its bead signalled (22 R349). -/
def State.tellShare (s : State) (id k : Nat) : State :=
  match Tbl.find? s.copies id with
  | none => s
  | some c =>
    match c.kind with
    | .shares told =>
      let n := c.head.len / 16
      if told.contains k || decide (c.parts.length ≤ k) || !(List.range n).all (fun i => c.done.contains (k * n + i)) then s
      else
        let s1 := { s with copies := Tbl.insert s.copies id { c with kind := .shares (k :: told) } }
        match c.bead with
        | some (_, b) => s1.signalPlace c.ctx (c.parts.getD k c.head).dstAt b
        | none => s1
    | _ => s

/-- The fields of CPY.COL that the first slice fixes: bead, bs, te and tok (19 R320). -/
def sameSlice (t u : CopyTail) : Bool := t.te == u.te && t.tok == u.tok && t.bs == u.bs && t.bead == u.bead

/-- CPY.COL: the k-th slices of a crew's bundles form one collective (19 R320). -/
def cpyColOwner (a b c : BitVec 6) (t : CopyTail) (o : Nat) (s : State) : Eff State := do
  let (p, v) ← linearPart a b c o s
  match Tbl.find? s.bundles o with
  | none => .ok s
  | some x =>
    let k := x.copyOrd
    let s1 := { s.claimPart p with bundles := Tbl.insert s.bundles o { x with copyOrd := k + 1 } }
    match s1.collectiveOf (x.crew, k) with
    | none =>
      .ok (s1.issueCopy (s1.newCopy o t false (.collective x.crew k [o] t) [p] (p.len / 16) (s1.beadPlace o p.dstAt p.dst)))
    | some (id, y) =>
      let (ms, first) : List Nat × CopyTail := match y.kind with
        | .collective _ _ l u => (l, u)
        | _ => ([], t)
      if !sameSlice first t then trapWith causeCopyState v
      else
        let y1 : Copy := { y with kind := .collective x.crew k (ms ++ [o]) first, parts := y.parts ++ [p],
                                  units := y.units + p.len / 16, tokens := y.tokens ++ (if t.te then [(o, t.tok)] else []) }
        let lines := (s1.linesAt p.dstAt p.dst p.len).filter (fun l => !y.cleared.contains l)
        let s2 := lines.foldl State.clearLine s1
        .ok { s2 with copies := Tbl.insert s2.copies id { y1 with cleared := y.cleared ++ lines } }

def execCpyCol (a b c : BitVec 6) (t : CopyTail) (s : State) : Outcome State Fault Refusal :=
  conclude s (forOwners (s.channelPoint t false true true) (cpyColOwner a b c t))

/-- CPY.HOST: between a device endpoint and the context's host window (19 R320). -/
def cpyHostOwner (a b c : BitVec 6) (m : Bool) (t : CopyTail) (o : Nat) (s : State) : Eff State := do
  let (x, y, lenw) ← s.useThree o a b c
  let len := lenw.toNat
  let (dev, win) := if m then (x, y) else (y, x)
  match endpointOf dev with
  | none => trapWith causeBadAddress dev
  | some e =>
    if misalignedAt x 16 || len % 16 != 0 then (trapWith causeMisaligned x : Eff Unit)
    if misalignedAt y 16 then (trapWith causeMisaligned y : Eff Unit)
    (match s.resolve o e with
      | some (p, w) => if !s.placeRangeOk p w len then trapWith causeScratchRange dev else .ok ()
      | none => .ok () : Eff Unit)
    let (p, w) ← s.placeOf o dev e
    if (s.ctx s.cur.ctx).hwsize.toNat < win.toNat + len then trapWith causeCopyState win
    else
      let host : Place := .window (s.ctx s.cur.ctx).hwbase.toNat
      let part : CopyPart := if m then ⟨p, w, host, win, len⟩ else ⟨host, win, p, w, len⟩
      let s1 := s.claimPart part
      .ok (s1.issueCopy (s1.newCopy o t true .plain [part] (len / 16) (s1.beadPlace o part.dstAt part.dst)))

def execCpyHost (a b c : BitVec 6) (m : Bool) (t : CopyTail) (s : State) : Outcome State Fault Refusal :=
  afterChannel s t true (cpyHostOwner a b c m t)

/-- The neighbour of a tile: 0 north, 1 east, 2 south, 3 west. -/
def neighbour (tile dir : Nat) : Option Nat :=
  let n := tile % 96
  let row := n / 12
  let col := n % 12
  match dir with
  | 0 => if 0 < row then some (tile - 12) else none
  | 1 => if col < 11 then some (tile + 1) else none
  | 2 => if row < 7 then some (tile + 12) else none
  | _ => if 0 < col then some (tile - 1) else none

/-- PUSH: own bytes to the same launch's neighbour (19 R320). Its operands are offsets (log 28). -/
def pushOwner (a b c : BitVec 6) (m : Bool) (dir : BitVec 2) (t : CopyTail) (o : Nat) (s : State) : Eff State := do
  let (x, y, lenw) ← s.useThree o a b c
  let len := lenw.toNat
  if misalignedAt x 16 || len % 16 != 0 then (trapWith causeMisaligned x : Eff Unit)
  if misalignedAt y 16 then (trapWith causeMisaligned y : Eff Unit)
  if 524288 < x.toNat + len then (trapWith causeScratchRange x : Eff Unit)
  if 524288 < y.toNat + len then (trapWith causeScratchRange y : Eff Unit)
  let set := match s.launchOf o with
    | some l => (match Tbl.find? s.launches l with
      | some z => z.tiles
      | none => [])
    | none => []
  match neighbour o dir.toNat with
  | none => trapWith causeCopyState x
  | some n =>
    let there := s.tilePlace (s.launchOf o) n
    if !set.contains n || !s.placeFree s.cur.ctx there then trapWith causeCopyState x
    else
      let p : CopyPart := ⟨there, x, .tile o, y, len⟩
      if m && !s.carryOk p then trapWith causeCopyState x
      else
        let s1 := s.claimPart p
        .ok (s1.issueCopy { s1.newCopy o t false .plain [p] (len / 16) there with carry := m })

def execPush (a b c : BitVec 6) (m : Bool) (dir : BitVec 2) (t : CopyTail) (s : State) : Outcome State Fault Refusal :=
  afterChannel s t false (pushOwner a b c m dir t)

/-! ### Shapes and tensors (19 R321) -/

/-- A signed 32-bit field of a dword. -/
def signed32 (d : Dword) (lo : Nat) : Int := (d.extractLsb' lo 32).toInt

/-- A shape record; none where it breaks R321's table. -/
def shapeOf (r : List Dword) : Option Shape :=
  let h := r.getD 0 0
  let n := (h.extractLsb' 16 3).toNat
  let fmt := (h.extractLsb' 0 5).toNat
  let w := codeWidth fmt / 8
  let dimOk (d : Nat) : Bool :=
    let x := r.getD (d + 1) 0
    if d < n then x.extractLsb' 0 32 != 0 && (signed32 x 32) % (w : Int) == 0 else x == 0
  if h.extractLsb' 19 45 = 0 && h.extractLsb' 9 7 = 0 && h.extractLsb' 5 3 = 0 && decide (1 ≤ n) && decide (n ≤ 5)
      && (decide (fmt ≤ 5) || (decide (0x10 ≤ fmt) && decide (fmt ≤ 0x17))) && (List.range 5).all dimOk
      && r.getD 6 0 == 0 && r.getD 7 0 == 0 then
    some ⟨fmt, h.getLsbD 8, (List.range n).map (fun d => (((r.getD (d + 1) 0).extractLsb' 0 32).toNat, signed32 (r.getD (d + 1) 0) 32))⟩
  else none

/-- The eight dwords of 64 bytes. -/
def dwordsOf (bs : List Byte) : List Dword := (List.range (bs.length / 8)).map (fun i => BitVec.ofNat 64 (bytesLE ((bs.drop (8 * i)).take 8)))

/-- SHAPE: read and install a shape record. -/
def shapeOwner (a : BitVec 6) (slot : BitVec 3) (t : CopyTail) (o : Nat) (s : State) : Eff State := do
  let (v, e) ← s.endpoint o a
  if misalignedAt v 64 then (trapWith causeMisaligned v : Eff Unit)
  (match s.resolve o e with
    | some (p, w) => if !s.placeRangeOk p w 64 then trapWith causeScratchRange v else .ok ()
    | none => .ok () : Eff Unit)
  let (p, w) ← s.placeOf o v e
  let (bs, _, s1) ← s.readPlace p w 64
  match shapeOf (dwordsOf bs) with
  | none => trapWith causeCopyState v
  | some sh =>
    let ow := s1.owner o
    .ok ((s1.setOwner o { ow with shapes := Tbl.insert ow.shapes slot.toNat sh }).signalTail o t)

def execShape (a : BitVec 6) (slot : BitVec 3) (t : CopyTail) (s : State) : Outcome State Fault Refusal :=
  afterMask s t (shapeOwner a slot t)

/-- The least and the greatest offset of a tensor's elements in a box, the box clipped to the tensor with PERM. -/
def tensorSpan (sh : Shape) (origin : List Int) (box : List Nat) : Int × Int :=
  (List.range sh.dims.length).foldl (fun (acc : Int × Int) d =>
    let e := sh.dims.getD d (1, 0)
    let lo := max 0 (origin.getD d 0)
    let hi := min ((e.1 : Int) - 1) (origin.getD d 0 + (box.getD d 1 : Int) - 1)
    (acc.1 + min (lo * e.2) (hi * e.2), acc.2 + max (lo * e.2) (hi * e.2))) (0, 0)

/-- Some element of the box lies outside the tensor. -/
def boxOutside (sh : Shape) (origin : List Int) (box : List Nat) : Bool :=
  (List.range sh.dims.length).any (fun d =>
    decide (origin.getD d 0 < 0) || decide ((((sh.dims.getD d (1, 0)).1 : Nat) : Int) < origin.getD d 0 + (box.getD d 1 : Int)))

/-- CPY.TEN (19 R321). -/
def cpyTenOwner (a b c : BitVec 6) (m : Bool) (slot : BitVec 3) (t : CopyTail) (o : Nat) (s : State) : Eff State := do
  let (x, y, q0) ← s.useThree o a b c
  let q1 ← s.useS o (c + 1)
  let q2 ← s.useS o (c + 2)
  let q3 ← s.useS o (c + 3)
  let (d, e) ← twoEndpoints x y
  let (tv, te, dv, de) := if m then (x, d, y, e) else (y, e, x, d)
  if misalignedAt x 16 then (trapWith causeMisaligned x : Eff Unit)
  if misalignedAt y 16 then (trapWith causeMisaligned y : Eff Unit)
  match Tbl.find? (s.owner o).shapes slot.toNat with
  | none => trapWith causeCopyState x
  | some sh =>
    let origin := [signed32 q0 0, signed32 q0 32, signed32 q1 0, signed32 q1 32, signed32 q2 0]
    let box := (List.range 5).map (fun k => (q3.extractLsb' (12 * k) 12).toNat + 1)
    let n := codeWidth sh.fmt / 8
    let count := (box.take sh.dims.length).foldl (fun x y => x * y) 1
    if count * n % 16 ≠ 0 then (trapWith causeMisaligned dv : Eff Unit)
    let span := tensorSpan sh origin box
    (match s.resolve o de with
      | some (p, w) => if !s.placeRangeOk p w (count * n) then trapWith causeScratchRange dv else .ok ()
      | none => .ok () : Eff Unit)
    (match s.resolve o te with
      | some (.global _, _) => .ok ()
      | some (p, w) =>
        if span.1 ≤ span.2 ∧ ((w.toNat : Int) + span.1 < 0 ∨
            !s.placeRangeOk p (w + BitVec.ofInt 64 span.1) ((span.2 - span.1).toNat + n)) then trapWith causeScratchRange tv
        else .ok ()
      | none => .ok () : Eff Unit)
    let (tp, ta) ← s.placeOf o tv te
    let (dp, da) ← s.placeOf o dv de
    if q3.extractLsb' 60 4 != 0 || (List.range 5).any (fun k => decide (sh.dims.length ≤ k) && box.getD k 1 != 1) then
      (trapWith causeCopyState dv : Eff Unit)
    if !sh.permit && boxOutside sh origin box then (trapWith causeCopyBounds tv : Eff Unit)
    let part : CopyPart := if m then ⟨tp, ta, dp, da, count * n⟩ else ⟨dp, da, tp, ta, count * n⟩
    let s1 := s.claimPart part
    .ok (s1.issueCopy (s1.newCopy o t false (.tensor m sh origin (box.take sh.dims.length) n) [part] count
      (s1.beadPlace o part.dstAt part.dst)))

def execCpyTen (a b c : BitVec 6) (m : Bool) (slot : BitVec 3) (t : CopyTail) (s : State) : Outcome State Fault Refusal :=
  afterChannel s t false (cpyTenOwner a b c m slot t)

/-! ### Gather, scatter and reduction (19 R322) -/

/-- The checks gather and scatter share: the dense side, the other side's base and the index list. -/
def rowCopy (a b c : BitVec 6) (rl : BitVec 8) (scatter : Bool) (t : CopyTail) (o : Nat) (s : State) : Eff State := do
  let (x, y, z) ← s.useThree o a b c
  let nw ← s.useS o (c + 1)
  let (d, e) ← twoEndpoints x y
  match endpointOf z with
  | none => trapWith causeBadAddress z
  | some le =>
    let n := nw.toNat % 2 ^ 32
    let row := 16 * (rl.toNat + 1)
    let (dense, other) := if scatter then ((y, e), (x, d)) else ((x, d), (y, e))
    if misalignedAt x 16 then (trapWith causeMisaligned x : Eff Unit)
    if misalignedAt y 16 then (trapWith causeMisaligned y : Eff Unit)
    if misalignedAt z 4 then (trapWith causeMisaligned z : Eff Unit)
    let ranged (v : Dword) (f : Endpoint) (len : Nat) : Eff Unit := match s.resolve o f with
      | some (p, w) => if !s.placeRangeOk p w len then trapWith causeScratchRange v else .ok ()
      | none => .ok ()
    ranged dense.1 dense.2 (n * row)
    ranged other.1 other.2 0
    ranged z le (4 * n)
    let (dp, da) ← s.placeOf o dense.1 dense.2
    let (op, oa) ← s.placeOf o other.1 other.2
    let (lp, la) ← s.placeOf o z le
    let part : CopyPart := if scatter then ⟨op, oa, dp, da, n * row⟩ else ⟨dp, da, op, oa, n * row⟩
    let s1 := (s.claimPart part).claimPlace lp
    let kind : CopyKind := if scatter then .scatter row lp la else .gather row lp la
    .ok (s1.issueCopy (s1.newCopy o t false kind [part] (n * (row / 16)) (s1.beadPlace o part.dstAt part.dst)))

def execCpyGath (a b c : BitVec 6) (rl : BitVec 8) (t : CopyTail) (s : State) : Outcome State Fault Refusal :=
  afterChannel s t false (rowCopy a b c rl false t)
def execCpyScat (a b c : BitVec 6) (rl : BitVec 8) (t : CopyTail) (s : State) : Outcome State Fault Refusal :=
  afterChannel s t false (rowCopy a b c rl true t)

def cpyRedOwner (a b c : BitVec 6) (ty : BitVec 5) (rop : BitVec 2) (t : CopyTail) (o : Nat) (s : State) : Eff State := do
  let (p, _) ← endpointPart a b c o s
  let s1 := s.claimPart p
  .ok (s1.issueCopy (s1.newCopy o t false (.reduce ty.toNat rop.toNat (acrFz (s.acr o))) [p]
    (p.len / (codeWidth ty.toNat / 8)) (s1.beadPlace o p.dstAt p.dst)))

def execCpyRed (a b c : BitVec 6) (ty : BitVec 5) (rop : BitVec 2) (t : CopyTail) (s : State) : Outcome State Fault Refusal :=
  afterChannel s t false (cpyRedOwner a b c ty rop t)

/-! ### Tile-store copies and the feed (19 R323, R324) -/

/-- The valid region entry with a block-scaled format that selects operand mode. -/
def Tile.operandEntry (x : Tile) (ofs : Nat) : Option Nat :=
  match x.regionAt (ofs / 128) with
  | some e => if codeScaled (x.region e).fmt then some e else none
  | none => none

/-- CPY.TS of one tile. -/
def cpyTsOwner (a b c : BitVec 6) (m : Bool) (row : BitVec 9) (col : BitVec 4) (t : CopyTail) (o : Nat) (s : State) : Eff State := do
  let (x, nw, q) ← s.useThree o a b c
  let n := nw.toNat
  let pitch := q.toNat % 2 ^ 32
  let width := q.toNat / 2 ^ 32 % 2 ^ 16
  let r := row.toNat
  let cb := 32 * col.toNat
  match endpointOf x with
  | none => trapWith causeBadAddress x
  | some (.own ofs) =>
    if misalignedAt x 16 then (trapWith causeMisaligned x : Eff Unit)
    match (if m then none else (s.tile o).operandEntry ofs) with
    | some en =>
      let rg := (s.tile o).region en
      let w := codeWidth rg.fmt
      let k := if w = 4 then 64 else 32
      let pg := s.regionPage o rg
      let off := pg.2 + (ofs - 128 * rg.sline)
      if w = 6 ∧ off % 3 ≠ 0 then (trapWith causeMisaligned x : Eff Unit)
      let e0 := off * 8 / w
      let top := e0 + (n - 1) * pitch + k
      let limit := pg.2 + 128 * rg.lines
      if n = 0 ∨ 512 < r + n ∨ q.extractLsb' 48 16 ≠ 0 ∨ width ≠ 0 ∨ rg.csc ∨ pageElems pg.1 rg.fmt rg.geo false < top
          ∨ limit < elemByte rg.fmt (top - 1) + elemBytes rg.fmt (top - 1)
          ∨ inlineScale pg.1 rg.fmt rg.geo (e0 / rg.geo) < pg.2
          ∨ limit ≤ inlineScale pg.1 rg.fmt rg.geo ((top - 1) / rg.geo) then trapWith causeCopyState x
      else
        .ok (s.issueCopy (s.newCopy o t false (.operands r cb pitch e0 en) [⟨.store o, 0, .tile o, BitVec.ofNat 64 ofs, 0⟩] n (.tile o)))
    | none =>
      if width % 16 ≠ 0 ∨ pitch % 16 ≠ 0 then (trapWith causeMisaligned x : Eff Unit)
      if n ≠ 0 ∧ 524288 < ofs + (n - 1) * pitch + width then (trapWith causeScratchRange x : Eff Unit)
      if n = 0 ∨ 512 < r + n ∨ q.extractLsb' 48 16 ≠ 0 ∨ 512 < cb + width then trapWith causeCopyState x
      else
        let here : Dword := BitVec.ofNat 64 ofs
        let units := n * (width / 16)
        if m then .ok (s.issueCopy (s.newCopy o t false (.rowsOut r cb pitch width) [⟨.tile o, here, .store o, 0, 0⟩] units (.tile o)))
        else .ok (s.issueCopy (s.newCopy o t false (.rowsIn r cb pitch width) [⟨.store o, 0, .tile o, here, 0⟩] units (.tile o)))
  | some _ => trapWith causeCopyState x

def execCpyTs (a b c : BitVec 6) (m : Bool) (row : BitVec 9) (col : BitVec 4) (t : CopyTail) (s : State) :
    Outcome State Fault Refusal :=
  afterChannel s t false (cpyTsOwner a b c m row col t)

/-- MMV instructions with `feed` among the words of a group, class 4, opcodes 0x0C-0x0E, bit 4; `ext` says that the first word
is an extension word. -/
def mmvCount (ext : Bool) : List Word → Nat
  | [] => 0
  | w :: rest =>
    if ext then mmvCount false rest
    else
      let op := (w.extractLsb' 19 7).toNat
      (if w.extractLsb' 27 3 = 4 ∧ 0x0C ≤ op ∧ op ≤ 0x0E ∧ w.getLsbD 4 then 1 else 0) + mmvCount (w.getLsbD 26) rest

/-- MMV instructions with `feed` earlier in the stream that the execute processor has yet to take. -/
def State.feedComing (s : State) (t : Nat) : Nat :=
  match (s.tile t).stream with
  | some st => ((st.exq.map (fun (g : PathGroup) => mmvCount false g.words))).sum
  | none => 0

/-- Blocks of the feed that no MMV earlier on the path takes (19 R324). -/
def State.feedLeft (s : State) (t : Nat) : Bool :=
  match (s.tile t).feed with
  | none => false
  | some f => if f.ended then false else decide (f.taken + s.feedComing t < f.count)

/-- A MAT instruction that reads the feed. -/
def usesFeed : Instr → Bool
  | .mmvMx4 _ _ _ _ pr _ _ _ => pr
  | .mmvMx8 _ _ _ _ pr _ _ _ => pr
  | .mmvBf16 _ _ _ _ pr _ _ => pr
  | _ => false

/-- Whether an MMV earlier in the stream still reads an earlier feed: a new feed waits for it, as its slots are in use (log
34). -/
def State.feedBusy (s : State) (t : Nat) : Bool :=
  decide (0 < s.feedComing t) || (s.tile t).mats.any (fun (m : MatEntry) => usesFeed m.instr)

/-- The copy of an earlier feed whose blocks have all been taken completes before a new feed takes its place. -/
def State.endFeed (s : State) (t : Nat) : State :=
  match (s.tile t).feed with
  | some f => (match f.copy with
    | some id => s.completeCopy id
    | none => s)
  | none => s

/-- CPY.FEED installs its feed with the copy, which completes once every block is written (19 R324). -/
def cpyFeedOwner (a b c : BitVec 6) (row : BitVec 9) (col : BitVec 4) (t : CopyTail) (o : Nat) (s : State) : Eff State := do
  let (x, nw, st) ← s.useThree o a b c
  match endpointOf x with
  | none => trapWith causeBadAddress x
  | some (.global g) =>
    if misalignedAt x 16 || st.toNat % 16 != 0 then (trapWith causeMisaligned x : Eff Unit)
    if nw = 0 ∨ 2 ^ 32 ≤ nw.toNat ∨ st.toNat < 6144 ∨ s.feedLeft o then trapWith causeCopyState x
    else if s.feedBusy o then waitWith .again
    else
      let s0 := s.endFeed o
      let f : Feed := ⟨g, nw.toNat, st.toNat, row.toNat, 32 * col.toNat, 0, 0, 0, some s0.nextCopy, false⟩
      let s1 := s0.setTile o { s0.tile o with feed := some f }
      .ok (s1.issueCopy (s1.newCopy o t false .feed [⟨.store o, 0, .tile o, 0, 0⟩] 0 (.tile o)))
  | some _ => trapWith causeCopyState x

def execCpyFeed (a b c : BitVec 6) (row : BitVec 9) (col : BitVec 4) (t : CopyTail) (s : State) : Outcome State Fault Refusal :=
  afterChannel s t false (cpyFeedOwner a b c row col t)

/-- FEED_BLOCK_WRITE: the next block goes to its slot once the MMV that took the block four before has retired (19 R324). -/
def State.feedBlock (s : State) (t : Nat) : State :=
  match (s.tile t).feed with
  | none => s
  | some f =>
    if f.ended || decide (f.count ≤ f.written) || decide (f.retired + 4 ≤ f.written) then s
    else
      let base := f.src + BitVec.ofNat 64 (f.written * f.stride)
      let slot := f.col + 64 * (f.written % 4)
      let moved : Eff State := (List.range 384).foldlM (fun (u : State) k =>
        u.movePlace (.store t) (BitVec.ofNat 64 (512 * (f.row + k / 3) + slot + 16 * (k % 3))) (.global (s.tileCtx t))
          (base + BitVec.ofNat 64 (16 * k)) 16) s
      match moved with
      | .ok u => u.setTile t { u.tile t with feed := some { f with written := f.written + 1 } }
      | .error (.stopped (.fatal k a)) => s.endContext (s.tileCtx t) (BitVec.ofNat 8 (copyCause (.stopped (.fatal k a)))) a
      | .error (.stopped (.trap k a x)) => s.endContext (s.tileCtx t) (BitVec.ofNat 8 (copyCause (.stopped (.trap k a x)))) a
      | .error _ => s

/-! ### Region maps, fills and write-backs (19 R325, 15 R264-R266) -/

/-- The dirty units of a region entry. -/
def Tile.dirtyOf (x : Tile) (e : Nat) : List Nat := x.dirty.filter (fun u => (x.region e).holds (u / 16))

/-- Entries with WB = 1 and dirty units, which the end of the launch writes back (15 R266). -/
def Tile.owedEntries (x : Tile) : List Nat :=
  (List.range 16).filter (fun e => (x.region e).valid && (x.region e).wb && !(x.dirtyOf e).isEmpty)

/-- An entry breaks R264's table, or overlaps another valid entry. -/
def Tile.entryBad (x : Tile) (e : Nat) (r0 r1 : Dword) : Bool :=
  let r := regionOf (r0, r1)
  r0.extractLsb' 60 4 != 0 || r0.extractLsb' 0 7 != 0 || r1.extractLsb' 34 22 != 0 || r1.extractLsb' 28 4 != 0
    || r1.extractLsb' 12 4 != 0 || r1.extractLsb' 57 2 == 3 || !codeValid r.fmt || decide (4096 < r.sline + r.lines)
    || (List.range 16).any (fun k => k != e && (x.region k).valid
        && decide ((x.region k).sline < r.sline + r.lines) && decide (r.sline < (x.region k).sline + (x.region k).lines))

/-- The marks of an entry's lines are cleared and its lines become absent, whatever its V (15 R264). -/
def Tile.openRegion (x : Tile) (r : Region) : Tile :=
  let ls := (List.range r.lines).map (fun i => r.sline + i)
  let inside (l : Nat) : Bool := decide (r.sline ≤ l) && decide (l < r.sline + r.lines)
  { x with absent := ls ++ x.absent.filter (fun l => !inside l), written := x.written.filter (fun u => !inside (u / 16)),
           dirty := x.dirty.filter (fun u => !inside (u / 16)) }

def mapSetOwner (a b : BitVec 6) (ent : BitVec 4) (t : CopyTail) (o : Nat) (s : State) : Eff State := do
  let (x, y, _) ← s.useThree o a b 0
  let k := s.tile o
  let e := ent.toNat
  if k.entryBad e x y || ((k.region e).valid && !(k.dirtyOf e).isEmpty) then trapWith causeCopyState x
  else
    let k1 : Tile := { k with map := Tbl.insert k.map e (x, y) }
    .ok ((s.setTile o (k1.openRegion (regionOf (x, y)))).signalTail o t)

def execMapSet (a b : BitVec 6) (ent : BitVec 4) (t : CopyTail) (s : State) : Outcome State Fault Refusal :=
  afterMask s t (mapSetOwner a b ent t)

/-- Start the write-back of an entry: its dirty units where the entry is valid with WB = 1 (15 R266). -/
def State.writeBack (s : State) (o : Nat) (t : CopyTail) (e : Nat) (clear : Bool) : State :=
  let x := s.tile o
  let r := x.region e
  let list := if r.valid && r.wb then x.dirtyOf e else []
  s.issueCopy (s.newCopy o t false (.writeBack e list clear) [⟨.global s.cur.ctx, 0, .tile o, 0, 0⟩] list.length (.tile o))

def execMapClr (ent : BitVec 4) (t : CopyTail) (s : State) : Outcome State Fault Refusal :=
  afterChannel s t false (fun o u => .ok (u.writeBack o t ent.toNat true))
def execCpyWb (ent : BitVec 4) (t : CopyTail) (s : State) : Outcome State Fault Refusal :=
  afterChannel s t false (fun o u => .ok (u.writeBack o t ent.toNat false))

def cpyFillOwner (a c : BitVec 6) (t : CopyTail) (o : Nat) (s : State) : Eff State := do
  let (x, _, lenw) ← s.useThree o a 0 c
  let len := lenw.toNat
  match endpointOf x with
  | none => trapWith causeBadAddress x
  | some (.own ofs) =>
    if misalignedAt x 16 || len % 16 != 0 then (trapWith causeMisaligned x : Eff Unit)
    if 524288 < ofs + len then trapWith causeScratchRange x
    else
      let k := s.tile o
      let ls := (linesOf ofs len).filter (fun l => k.absent.contains l && (k.regionAt l).isSome && !s.lineInFlight (.tile o) l
        && !s.copies.any (fun e => match e.2.kind, e.2.head.srcAt with
          | .fills fs, .tile q => q == o && fs.contains l
          | _, _ => false))
      .ok (s.issueCopy (s.newCopy o t false (.fills ls) [⟨.tile o, 0, .tile o, 0, 0⟩] 0 (.tile o)))
  | some _ => trapWith causeCopyState x

def execCpyFill (a c : BitVec 6) (t : CopyTail) (s : State) : Outcome State Fault Refusal :=
  afterChannel s t false (cpyFillOwner a c t)

/-- REGION_FILL_COMPLETION: a started fill ends, leaving its line present, or absent where it fails (19 R325). -/
def State.fillDone (s : State) (t line : Nat) : State :=
  match List.find? (fun (e : Nat × Copy) => match e.2.kind, e.2.head.srcAt with
      | .fills fs, .tile q => q == t && fs.contains line
      | _, _ => false) s.copies with
  | none => s
  | some (id, c) =>
    let rest : CopyKind := match c.kind with
      | .fills fs => .fills (fs.filter (fun l => l != line))
      | k => k
    let finish (u : State) : State := { u with copies := Tbl.insert u.copies id { c with kind := rest } }
    match s.needLine t line with
    | .ok u => finish u
    | .error (.stopped (.wait _)) => s
    | .error _ => finish s

/-! ### Shadow and publish (19 R326, 08 R177) -/

/-- The pages of a range, with the size of each, where every one is resident and lies wholly in it. -/
def State.wholePages (s : State) (ctx base len : Nat) : Bool :=
  (List.range (len / 65536)).all (fun i => match s.walk ctx (base + 65536 * i) with
    | .page p => decide (base ≤ (base + 65536 * i) / p.size * p.size) &&
        decide ((base + 65536 * i) / p.size * p.size + p.size ≤ base + len)
    | _ => false)

def shadowOwner (a b : BitVec 6) (t : CopyTail) (o : Nat) (s : State) : Eff State := do
  let (x, y, _) ← s.useThree o a b 0
  if x.extractLsb' 60 4 ≠ 0 then (trapWith causeBadAddress x : Eff Unit)
  let base := x.toNat % 2 ^ 56
  let len := y.toNat
  let c := s.ctx s.cur.ctx
  if x.toNat % 65536 ≠ 0 || len % 65536 ≠ 0 || len = 0 || decide (2 ^ 56 < base + len)
      || !s.wholePages s.cur.ctx base len
      || c.shadows.any (fun (h : Shadow) => decide (h.base < base + len) && decide (base < h.base + h.len))
      || decide (16 ≤ c.shadows.length) then trapWith causeCopyState x
  else .ok ((s.setCtx s.cur.ctx { c with shadows := c.shadows ++ [⟨base, len, [], [], []⟩] }).signalTail o t)

def execShadow (a b : BitVec 6) (t : CopyTail) (s : State) : Outcome State Fault Refusal :=
  afterMask s t (shadowOwner a b t)

/-- n bytes at a virtual address meet a buffer. -/
def Shadow.meets (h : Shadow) (a : Dword) (n : Nat) : Bool :=
  decide (a.toNat % 2 ^ 56 < h.base + h.len) && decide (h.base < a.toNat % 2 ^ 56 + n)

/-- An owner issued a copy, or supplied a slice of it. -/
def Copy.issuedBy (c : Copy) (o : Nat) : Bool :=
  c.issuer == some o || (match c.kind with
    | .collective _ _ ms _ => ms.contains o
    | _ => false)

/-- Whether a copy writes into a buffer (08 R177). -/
def State.writesInto (s : State) (c : Copy) (h : Shadow) : Bool :=
  let shared (x : Place × Dword × Nat) : Bool := match x.1 with
    | .global _ => h.meets x.2.1 x.2.2
    | _ => false
  match c.kind with
  | .writeBack entry list _ => (match s.tileOf c.head.srcAt with
    | some x => list.any (fun un => h.meets ((x.region entry).va + BitVec.ofNat 64 (8 * un - 128 * (x.region entry).sline)) 8)
    | none => false)
  | .plain | .shares .. | .collective .. | .reduce .. | .linkRecv .. => c.parts.any (fun p => shared (p.dstAt, p.dst, p.len))
  | _ => (s.copyTargets c).any shared

/-- An owner's copies in flight that write into a buffer. -/
def State.copiesInto (s : State) (o : Nat) (h : Shadow) : Bool := s.copies.any (fun e => e.2.issuedBy o && s.writesInto e.2 h)

/-- Replace the frame of a page's leaf, and give the old frame back to its pool. -/
def State.remapPage (s : State) (ctx va frame : Nat) : State :=
  let large := match s.walk ctx va with
    | .page p => p.size != 65536
    | _ => false
  let entry := s.leafAddr ctx va large
  let e0 := s.readDword entry
  let old := leafFrame e0
  let mask : Dword := ((1#64 <<< 36) - 1) <<< 16
  let s1 := s.writeLE entry 8 ((e0 &&& ~~~mask) ||| (BitVec.ofNat 64 (frame / 65536) <<< 16)).toNat
  if large then { s1 with largePool := { s1.largePool with frames := s1.largePool.frames ++ [old] } }
  else { s1 with smallPool := { s1.smallPool with frames := s1.smallPool.frames ++ [old] } }

/-- PUBLISH_SWAP: the pages with a shadow take their shadow frames at one instant, and the buffer is closed (08 R177). -/
def State.publishSwap (s : State) (ctx base : Nat) : State :=
  match (s.ctx ctx).shadows.find? (fun (h : Shadow) => h.base == base && !h.pending.isEmpty) with
  | none => s
  | some h =>
    let s1 := h.frames.foldl (fun (t : State) e => t.remapPage ctx e.1 e.2) s
    let c := s1.ctx ctx
    let s2 := s1.setCtx ctx { c with shadows := c.shadows.filter (fun (x : Shadow) => x.base != base) }
    h.pending.foldl State.markServed s2

/-- An owner's PUBLISH awaits the swap of a buffer. -/
def State.askPublish (s : State) (ctx base o : Nat) : State :=
  match (s.ctx ctx).shadows.find? (fun (h : Shadow) => h.base == base) with
  | some h => s.setShadow ctx { h with pending := if h.pending.contains o then h.pending else h.pending ++ [o] }
  | none => s

/-- PUBLISH as a park point: it waits for its issuer's own copies into the buffer, then for the swap (08 R177). -/
def State.publishPoint (s : State) (a : BitVec 6) : Eff State :=
  match s.cur.owners.mapM (fun o => (s.useS o a).map (fun v => (o, v))) with
  | .error e => .error e
  | .ok l =>
    if l.any (fun e => e.2.extractLsb' 60 4 != 0) then trapWith causeBadAddress ((l.map Prod.snd).headD 0)
    else
      let open_ (o : Nat) (v : Dword) : Option Shadow :=
        if s.ownerWait o = some (.bead true) then none
        else (s.ctx s.cur.ctx).shadows.find? (fun (h : Shadow) => h.base == v.toNat % 2 ^ 56)
      let s1 := l.foldl (fun (t : State) e => match open_ e.1 e.2 with
        | some h => if t.copiesInto e.1 h || s.queuedElsewhere e.1 then t else t.askPublish t.cur.ctx h.base e.1
        | none => t) s
      .ok (s1.ownerPoint (fun o => match List.find? (fun (e : Nat × Dword) => e.1 == o) l with
        | some e => (match open_ o e.2 with
          | some h => if s.copiesInto o h || s.queuedElsewhere o then some .again else some (.bead false)
          | none => none)
        | none => none))

/-- PUBLISH goes on once the buffer is closed, or where none is open: it is then only a release. -/
def execPublish (a : BitVec 6) (t : CopyTail) (s : State) : Outcome State Fault Refusal :=
  conclude s (
    match (if s.cur.cleared then .ok s else (s.maskPoint t).publishPoint a) with
    | .error e => .error e
    | .ok u => .ok (eachOwner u (fun o w => w.signalTail o t)))

/-! ### Tokens and aborts (19 R328) -/

def execTokq (t : CopyTail) (s : State) : Outcome State Fault Refusal :=
  .next (eachOwner (s.copyPoint t false false) (fun o u =>
    let after := (u.copies.filter (fun e => e.2.tokens.any (fun k => k.1 == o && t.wm.getLsbD k.2.toNat))).map Prod.fst
    u.issueCopy (u.newCopy o t false (.null after) [] 0 (u.ownPlace o))))

/-- A feed ends at CPY.ABORT: MMVs earlier in stream order keep their blocks, and later ones have none (19 R324, R313). -/
def State.cutFeed (s : State) (t : Nat) : State :=
  let x := s.tile t
  match x.feed, x.stream with
  | some f, some st =>
    let late (m : MatEntry) : Bool := !st.earlierMat m && m.block.isSome
    let taken := f.taken - (x.mats.filter late).length
    s.setTile t { x with mats := x.mats.map (fun (m : MatEntry) => if late m then { m with block := none } else m),
                         feed := some { f with taken := taken, count := min f.count (taken + s.feedComing t) } }
  | _, _ => s

/-- CPY.ABORT of one owner: it stops every copy a token of its own names, a collective it supplied a slice of among them (19 R328). -/
def State.abortCopies (s : State) (o : Nat) (t : CopyTail) : State :=
  let named := s.copies.filter (fun e => e.2.tokens.any (fun k => k.1 == o && t.wm.getLsbD k.2.toNat))
  let cut := if named.any (fun e => e.2.kind == .feed) then s.cutFeed o else s
  ((named.map Prod.fst).foldl State.stopCopy cut).signalTail o t

def execCpyAbort (t : CopyTail) (s : State) : Outcome State Fault Refusal := .next (eachOwner s (fun o u => u.abortCopies o t))

end Sys2Proof.Machine
end

