-- ==== Sys2Proof/Machine/Ray.lean ====
section
/-! DEFINITION. The ray unit (09 R194-R197, 11 R214, R215), exact quotients for the fixed units (11), and their reads through the
read-only path (08 R180, R181). -/

namespace Sys2Proof.Machine

open Host (Outcome)
open Sys2Proof (Guard)

/-! ### Exact quotients -/

/-- The value of a finite number as a rational. -/
def FVal.rat : FVal → Rat
  | .fin neg m e =>
    let n : Int := ((m * 2 ^ e.toNat : Nat) : Int)
    mkRat (if neg then -n else n) (2 ^ (-e).toNat)
  | _ => 0

def FVal.isFin : FVal → Bool
  | .fin .. => true
  | _ => false

/-- rne of n / d, d positive, to FP32 under a flush. -/
def roundRatio (fz neg : Bool) (n d : Nat) : Nat :=
  if n = 0 then fmtFP32.signed neg 0
  else
    let sh : Int := 40 + (Nat.log2 d : Int) - (Nat.log2 n : Int)
    let a := n * 2 ^ sh.toNat
    let b := d * 2 ^ (-sh).toNat
    (flushResult fmtFP32 fz (roundMag fmtFP32 .rne neg (a / b) (-sh) (a % b != 0))).1

/-- rne of a rational. -/
def roundRat (fz : Bool) (q : Rat) : Nat := roundRatio fz (decide (q.num < 0)) q.num.natAbs q.den

/-- rne of a quotient of two values. -/
def roundQuot (fz : Bool) (x y : FVal) : Nat :=
  match x, y with
  | .nan, _ => fmtFP32.nan
  | _, .nan => fmtFP32.nan
  | .inf _, .inf _ => fmtFP32.nan
  | .inf s, .fin t _ _ => fmtFP32.signed (s != t) 0x7F800000
  | .fin s _ _, .inf t => fmtFP32.signed (s != t) 0
  | .fin s m e, .fin t n h =>
    if n = 0 then (if m = 0 then fmtFP32.nan else fmtFP32.signed (s != t) 0x7F800000)
    else
      let k := e - h
      roundRatio fz (s != t) (m * 2 ^ k.toNat) (n * 2 ^ (-k).toNat)

/-- Sums and products of extended reals. -/
def fsum (xs : List FVal) : FVal := xs.foldl (fun a x => (FVal.add .rne a x).1) (.fin true 0 0)
def fprod (x y : FVal) : FVal := (x.mul y).1
def fdiff (x y : FVal) : FVal := (FVal.add .rne x y.neg).1

/-! ### Operands -/

/-- The first poisoned register of n from v(r), by the register's order. -/
def State.blockPoison (s : State) (i r n : Nat) : Option (BitVec 3) :=
  (List.range n).findSome? (fun k => (s.getV i (r + k)).poison)

/-- The words of n registers from v(r). -/
def State.blockWords (s : State) (i r n : Nat) : List Nat := (List.range n).map (fun k => (s.getV i (r + k)).val.toNat)

/-- Write words from v(r) on. -/
def State.putBlock (s : State) (i r : Nat) : List Nat → State
  | [] => s
  | x :: rest => (s.putV i r (BitVec.ofNat 32 x)).putBlock i (r + 1) rest

/-- Poison n registers from v(r). -/
def State.poisonBlock (s : State) (i r n : Nat) (k : BitVec 3) : State :=
  (List.range n).foldl (fun t j => t.setV i (r + j) ⟨0, some k⟩) s

/-- An FP32 input of a fixed unit (11). -/
def unitIn (fz : Bool) (c : Nat) : FVal := fsource fmtFP32 fz c

/-! ### Reads through the read-only path (08 R180, R181) -/

/-- n words that follow one another inside one page, as a strand's fixed unit reads them. -/
def State.roWords (s : State) (p : PageInfo) (i pa : Nat) : Nat → List Nat × State
  | 0 => ([], s)
  | n + 1 =>
    let r := s.readOnlyWord p i pa
    let q := r.2.roWords p i (pa + 4) n
    (r.1.toNat :: q.1, q.2)

/-- A stop of one access is reported with the access's own address (04 R102). -/
def Stop.about (a : Dword) : Stop → Stop
  | .stopped (.trap c _ x) => .stopped (.trap c a x)
  | .stopped (.fatal c _) => .stopped (.fatal c a)
  | e => e

/-- The pages of `parts` stretches of `size` bytes, each in one page: their physical addresses. -/
def State.unitPages (s : State) (ctx : Nat) (addr : Dword) (size : Nat) : Nat → Eff (List (Nat × PageInfo) × State)
  | 0 => .ok ([], s)
  | n + 1 =>
    match s.pageFor ctx addr false with
    | .error e => .error e
    | .ok (p, t) => (t.unitPages ctx (addr + BitVec.ofNat 64 size) size n).map (fun r => ((p.pa addr.toNat, p) :: r.1, r.2))

/-- Read `parts` stretches of `size` bytes from an address through the read-only path, as one access (09 R186): each stretch is aligned
to its own size and so lies in one page; every page is translated before any tag is checked. The Bool says that memory held an
uncorrectable unit. -/
def State.unitRead (s : State) (i : Nat) (addr : Dword) (size parts : Nat) : Eff (List Nat × Bool × State) :=
  if addr.extractLsb' 60 4 != 0 then trapWith causeBadAddress addr
  else if addr.toNat % size != 0 then trapWith causeMisaligned addr
  else
    match s.unitPages s.cur.ctx addr size parts with
    | .error e => .error (e.about addr)
    | .ok (ps, t) =>
      if ps.any (fun x => x.2.tagged && !t.tagsMatch x.1 size (addrTag addr)) then trapWith causeTagMismatch addr
      else match ps.find? (fun x => !paExists x.1) with
        | some x => .error (.fault (.noMemory x.1))
        | none =>
          let u := ps.foldl (fun (u : State) x => u.touch (strandBundle i) x.1) t
          let r := ps.foldl (fun (acc : List Nat × State) x => (acc.2.roWords x.2 i x.1 (size / 4)).map (acc.1 ++ ·) id) ([], u)
          .ok (r.1, ps.any (fun x => t.isMarked x.1 size), r.2)

/-- The results of a fixed unit's read: words, or poison with origin soft-error where its memory was uncorrectable. -/
def State.unitResult (s : State) (i : Nat) (addr : Dword) (bad : Bool) (d : Nat) (ws : List Nat) : State :=
  if bad then
    let r := s.loaded (strandBundle i) (strandIndex i) addr addr.toNat true (0 : Word)
    match r.1.poison with
    | some k => r.2.poisonBlock i d ws.length k
    | none => r.2.putBlock i d ws
  else s.putBlock i d ws

/-! ### Ray blocks (09 R194) -/

/-- Reciprocals of three direction words. -/
def rayRecips (fz : Bool) (ds : List Nat) : List Nat := ds.map (fun c => (fRcp fz c).1)

def rayInitStrand (d a : BitVec 6) (i : Nat) (s : State) : Eff State :=
  match s.blockPoison i a.toNat 8 with
  | some k => .ok (s.poisonBlock i d.toNat 12 k)
  | none =>
    let w := s.blockWords i a.toNat 8
    .ok (s.putBlock i d.toNat (w ++ rayRecips (s.fzOf i) ((w.drop 3).take 3) ++ [0xFFFFFFFF]))

def execRayInit (g : Guard) (d a : BitVec 6) (s : State) : Outcome State Fault Refusal :=
  concludeAccess false s (forStrands g s (rayInitStrand d a))

/-- Row j of a 3 x 4 matrix applied to three words, with or without its translation. -/
def rayRow (fz move : Bool) (m : List Nat) (v : List Nat) (j : Nat) : Nat :=
  let t (c : Nat) : FVal := unitIn fz (m.getD (4 * j + c) 0)
  let p (c : Nat) : FVal := fprod (t c) (unitIn fz (v.getD c 0))
  (fround fmtFP32 .rne fz (fsum ([p 0, p 1, p 2] ++ (if move then [t 3] else [])))).1

/-- RAY.XFORM's block. -/
def rayXform (fz : Bool) (m w : List Nat) : List Nat :=
  let o := w.take 3
  let dv := (w.drop 3).take 3
  let dn := [rayRow fz false m dv 0, rayRow fz false m dv 1, rayRow fz false m dv 2]
  [rayRow fz true m o 0, rayRow fz true m o 1, rayRow fz true m o 2] ++ dn ++ [w.getD 6 0, w.getD 7 0] ++ rayRecips fz dn
    ++ [w.getD 11 0]

def rayXformStrand (d a b : BitVec 6) (m : Bool) (i : Nat) (s : State) : Eff State :=
  match (if m then s.useD i b.toNat else s.useS (strandBundle i) b) with
  | .error e => .error e
  | .ok addr =>
    match s.unitRead i addr 16 3 with
    | .error e => .error e
    | .ok (mat, bad, t) =>
      match s.blockPoison i a.toNat 12 with
      | some k => .ok (t.poisonBlock i d.toNat 12 k)
      | none => .ok (t.unitResult i addr bad d.toNat (rayXform (t.fzOf i) mat (s.blockWords i a.toNat 12)))

def execRayXform (g : Guard) (d a b : BitVec 6) (m : Bool) (s : State) : Outcome State Fault Refusal :=
  concludeAccess false s (forStrands g s (rayXformStrand d a b m))

/-! ### Box and triangle tests (09 R195, R196, 11 R214, R215) -/

/-- The smaller and the larger of two values that compare. -/
def fmin2 (x y : FVal) : FVal := if FVal.cmp y x = some .lt then y else x
def fmax2 (x y : FVal) : FVal := if FVal.cmp x y = some .lt then y else x
def fle (x y : FVal) : Bool := FVal.cmp x y == some .lt || FVal.cmp x y == some .eq

/-- One axis of the box test: none is a miss, else its entry and exit where it bounds t. -/
def boxAxis (fz : Bool) (o r lo hi : Nat) : Option (Option (FVal × FVal)) :=
  let ov := unitIn fz o
  let lv := unitIn fz lo
  let hv := unitIn fz hi
  if lv.isNan || hv.isNan || FVal.cmp hv lv = some .lt then none
  else match unitIn fz r with
    | .inf _ => if fle lv ov && fle ov hv then some none else none
    | rv =>
      let p := fprod (fdiff lv ov) rv
      let q := fprod (fdiff hv ov) rv
      if p.isNan || q.isNan then none
      else
        let near := (fround fmtFP32 .rdn fz (fmin2 p q)).1
        let far := (fround fmtFP32 .rup fz (fmax2 p q)).1
        some (some (fmtFP32.decode near, fmtFP32.decode far))

/-- boxtest: the entry distance of a hit. -/
def boxTest (fz : Bool) (w box : List Nat) : Option FVal :=
  if ((w.take 11).any (fun c => (unitIn fz c).isNan)) then none
  else
    let axis (a : Nat) := boxAxis fz (w.getD a 0) (w.getD (8 + a) 0) (box.getD a 0) (box.getD (3 + a) 0)
    match axis 0, axis 1, axis 2 with
    | some x, some y, some z =>
      let sp := [x, y, z].filterMap id
      let near := sp.foldl (fun t e => fmax2 t e.1) (unitIn fz (w.getD 6 0))
      let far := sp.foldl (fun t e => fmin2 t e.2) (unitIn fz (w.getD 7 0))
      if fle near far then some near else none
    | _, _, _ => none

/-- Insert a hit after those that are not farther. -/
def insertHit (x : FVal × Nat) : List (FVal × Nat) → List (FVal × Nat)
  | [] => [x]
  | y :: rest => if FVal.cmp x.1 y.1 = some .lt then x :: y :: rest else y :: insertHit x rest

/-- The hits of a node by entry distance, ties by slot. -/
def boxHits (fz : Bool) (w node : List Nat) : List Nat :=
  let hits := (List.range 4).foldl (fun (l : List (FVal × Nat)) k =>
    let child := node.getD (24 + k) 0
    if child = 0xFFFFFFFF then l
    else match boxTest fz w ((node.drop (6 * k)).take 6) with
      | some t => insertHit (t, child) l
      | none => l) []
  hits.map Prod.snd

/-- RAY.BOX's five words. -/
def boxWords (hits : List Nat) : List Nat := (List.range 4).map (fun j => hits.getD j 0xFFFFFFFF) ++ [hits.length]

/-- Read a block and a record at d(b), and write what `f` makes of them. -/
def rayTest (d a b : BitVec 6) (size parts outs : Nat) (f : Bool → List Nat → List Nat → List Nat) (i : Nat) (s : State) :
    Eff State :=
  match s.useD i b.toNat with
  | .error e => .error e
  | .ok addr =>
    match s.unitRead i addr size parts with
    | .error e => .error e
    | .ok (rec, bad, t) =>
      match s.blockPoison i a.toNat 12 with
      | some k => .ok (t.poisonBlock i d.toNat outs k)
      | none => .ok (t.unitResult i addr bad d.toNat (f (t.fzOf i) (s.blockWords i a.toNat 12) rec))

def execRayBox (g : Guard) (d a b : BitVec 6) (s : State) : Outcome State Fault Refusal :=
  concludeAccess false s (forStrands g s (rayTest d a b 64 2 5 (fun fz w node => boxWords (boxHits fz w node))))

/-- Vectors of three values. -/
def vec3 (fz : Bool) (ws : List Nat) (k : Nat) : List FVal := (List.range 3).map (fun j => unitIn fz (ws.getD (k + j) 0))
def vsub3 (x y : List FVal) : List FVal := List.zipWith fdiff x y
def vdot3 (x y : List FVal) : FVal := fsum (List.zipWith fprod x y)
def vcross3 (x y : List FVal) : List FVal :=
  let c (l : List FVal) (k : Nat) : FVal := l.getD k (.fin false 0 0)
  let e (p q : Nat) : FVal := fdiff (fprod (c x p) (c y q)) (fprod (c x q) (c y p))
  [e 1 2, e 2 0, e 0 1]

/-- RAY.TRI's four words. -/
def triWords (fz : Bool) (w rec : List Nat) : List Nat :=
  let miss := [0x7F800000, 0, 0, 0xFFFFFFFF]
  let o := vec3 fz w 0
  let dv := vec3 fz w 3
  let v0 := vec3 fz rec 0
  let v1 := vec3 fz rec 3
  let v2 := vec3 fz rec 6
  if (o ++ dv ++ v0 ++ v1 ++ v2).any (fun x => !x.isFin) then miss
  else
    let e1 := vsub3 v1 v0
    let e2 := vsub3 v2 v0
    let sv := vsub3 o v0
    let pv := vcross3 dv e2
    let qv := vcross3 sv e1
    let det := vdot3 e1 pv
    let sg (x : FVal) : FVal := if det.isNeg then x.neg else x
    let u := vdot3 sv pv
    let v := vdot3 dv qv
    let zero : FVal := .fin false 0 0
    if !det.isZero && fle zero (sg u) && fle zero (sg v) && fle (sg (fsum [u, v])) det.abs then
      let t := roundQuot fz (vdot3 e2 qv) det
      let tv := fmtFP32.decode t
      if fle (unitIn fz (w.getD 6 0)) tv && FVal.cmp tv (unitIn fz (w.getD 7 0)) == some .lt then
        [t, roundQuot fz u det, roundQuot fz v det, rec.getD 9 0]
      else miss
    else miss

def execRayTri (g : Guard) (d a b : BitVec 6) (s : State) : Outcome State Fault Refusal :=
  concludeAccess false s (forStrands g s (rayTest d a b 16 3 4 triWords))

/-- RAY.HIT: commit a nearer hit inside the interval. -/
def rayHitStrand (d a : BitVec 6) (i : Nat) (s : State) : State :=
  match [s.getV i a.toNat, s.getV i (a.toNat + 3), s.getV i (d.toNat + 6), s.getV i (d.toNat + 7)].findSome? (fun x => x.poison) with
  | some k => (s.setV i (d.toNat + 7) ⟨0, some k⟩).setV i (d.toNat + 11) ⟨0, some k⟩
  | none =>
    let v (n : Nat) : FVal := unitIn (s.fzOf i) (s.getV i n).val.toNat
    if fle (v (d.toNat + 6)) (v a.toNat) && FVal.cmp (v a.toNat) (v (d.toNat + 7)) == some .lt then
      (s.setV i (d.toNat + 7) (s.getV i a.toNat)).setV i (d.toNat + 11) (s.getV i (a.toNat + 3))
    else s

def execRayHit (g : Guard) (d a : BitVec 6) (s : State) : Outcome State Fault Refusal :=
  .next (eachStrand g s (rayHitStrand d a))

/-! ### The ray stack (09 R197) -/

/-- The count and the spill area of the stack at v(k). -/
def State.rayStack (s : State) (i k : Nat) : Eff (Nat × Dword) :=
  match s.useV i k with
  | .error e => .error e
  | .ok c => match s.useV i (k + 5) with
    | .error e => .error e
    | .ok b => if c.toNat < 65536 then .ok (c.toNat, b.setWidth 64) else trapWith causeRayStack 0

/-- The ring slot of entry n, and the spilled word of the entry four below it. -/
def raySlot (k n : Nat) : Nat := k + 1 + n % 4
def raySpill (b : Dword) (n : Nat) : Dword := b + BitVec.ofNat 64 (4 * (n - 4))

/-- Spill the oldest held entry, where the ring is full. -/
def State.raySpillOut (s : State) (i k n : Nat) (b : Dword) : Eff State :=
  if 4 ≤ n then
    match s.useV i (raySlot k n) with
    | .error e => .error e
    | .ok old => s.scratchStore i (raySpill b n) 4 old.toNat
  else .ok s

def rayPushStrand (d a : BitVec 6) (i : Nat) (s : State) : Eff State :=
  let k := d.toNat
  match s.rayStack i k with
  | .error e => .error e
  | .ok (n, b) =>
    if n = 0xFFFF then trapWith causeRayStack 0
    else (s.raySpillOut i k n b).map (fun (t : State) =>
      (t.setV i (raySlot k n) (s.getV i a.toNat)).putV i k (BitVec.ofNat 32 (n + 1)))

def execRayStkPush (g : Guard) (d a : BitVec 6) (s : State) : Outcome State Fault Refusal :=
  concludeAccess false s (forStrands g s (rayPushStrand d a))

def rayPopStrand (d a : BitVec 6) (i : Nat) (s : State) : Eff State :=
  let k := a.toNat
  match s.rayStack i k with
  | .error e => .error e
  | .ok (0, _) => .ok (s.putV i d.toNat 0xFFFFFFFF)
  | .ok (n + 1, b) =>
    let top := s.getV i (raySlot k n)
    match (if 4 ≤ n then (s.scratchLoad i (raySpill b n) 4 32).map (fun r => r.2.setV i (raySlot k n) r.1) else .ok s) with
    | .error e => .error e
    | .ok t => .ok ((t.putV i k (BitVec.ofNat 32 n)).setV i d.toNat top)

/-- Strands whose refill meets an absent line leave the group (01 R23). -/
def State.rayPopPoint (s : State) (g : Guard) (a : BitVec 6) : State :=
  s.parkOut (fun i =>
    if s.guardOn g i then
      match s.rayStack i a.toNat with
      | .ok (n + 1, b) =>
        if 4 ≤ n then match s.scratchAt (s.crewId i) (raySpill b n) with
          | some (c, x, _) => if s.crewLineAbsent c x then some .again else none
          | none => none
        else none
      | _ => none
    else none)

def execRayStkPop (g : Guard) (d a : BitVec 6) (s : State) : Outcome State Fault Refusal :=
  concludeAccess false s (forStrands g (if s.cur.cleared then s else s.rayPopPoint g a) (rayPopStrand d a))

end Sys2Proof.Machine
end

