-- ==== Sys2Proof/Machine/Graphics.lean ====
section
/-! DEFINITION. Meshes, the raster front end, pixel strands and the output merger (09 R188-R191, 11 R203-R209, 20 R331). -/

namespace Sys2Proof.Machine

open Host (Outcome)
open Sys2Proof (Guard)

/-! ### The raster state record (11 R203) -/

/-- A field of dword n of a record. -/
def recField (r : List Dword) (n lo w : Nat) : Nat := (r.getD n 0).toNat / 2 ^ lo % 2 ^ w

def recWidth (r : List Dword) : Nat := recField r 2 0 16
def recHeight (r : List Dword) : Nat := recField r 2 16 16
def recSamples (r : List Dword) : Nat := if recField r 2 32 2 = 0 then 1 else 4
def recPitch (r : List Dword) : Nat := recField r 4 0 16
def targetBase (r : List Dword) (t : Nat) : Nat := (r.getD (8 + t) 0).toNat
def targetFmt (r : List Dword) (t : Nat) : Nat := recField r (16 + t) 0 3

/-- Whether a record keeps its rules. -/
def rasterOk (r : List Dword) : Bool :=
  let zero (n : Nat) : Bool := r.getD n 0 == 0
  let target (t : Nat) : Bool :=
    decide (targetBase r t % 64 = 0) && decide ((r.getD (16 + t) 0).toNat < 2 ^ 12) && decide (targetFmt r t ≤ 5)
      && !(targetFmt r t == 5 && recField r (16 + t) 3 1 == 1)
  decide ((r.getD 2 0).toNat < 2 ^ 42) && decide (recField r 2 34 2 ≠ 3) && decide (recField r 2 32 2 ≤ 1)
    && decide (1 ≤ recWidth r) && decide (recWidth r ≤ 16384) && decide (1 ≤ recHeight r) && decide (recHeight r ≤ 16384)
    && decide ((r.getD 3 0).toNat % 64 = 0) && decide ((r.getD 4 0).toNat < 2 ^ 16) && decide (recWidth r ≤ recPitch r)
    && zero 5 && zero 6 && zero 7 && (List.range 8).all target && (List.range 8).all (fun k => zero (24 + k))

/-! ### The mesh output area (09 R188, R189) -/

/-- Change a bundle. -/
def State.modBundle (s : State) (b : Nat) (f : Bundle → Bundle) : State := { s with bundles := Tbl.modify s.bundles b f }

/-- RAST.BIND: a new binding, whose record the next MESH.DONE reads. -/
def rastBindOwner (a : BitVec 6) (imm : BitVec 32) (o : Nat) (s : State) : Eff State :=
  match s.useS o a with
  | .error e => .error e
  | .ok x =>
    let addr := x + simm imm
    if addr.toNat % 256 ≠ 0 then trapWith causeMisaligned addr
    else .ok (s.modBundle o (fun b => { b with raster := some addr, rasterRec := none }))

/-- The complete bundles with a strand whose guard is true: a guarded U instruction acts for those. -/
def guardedOwners (g : Guard) (s : State) (f : Nat → State → Eff State) : Eff State :=
  (s.cur.owners.filter (fun o => (s.liveStrands o).any (fun i => s.guardOn g i))).foldlM (fun t o => f o t) s

def execRastBind (g : Guard) (a : BitVec 6) (imm : BitVec 32) (s : State) : Outcome State Fault Refusal :=
  conclude s (guardedOwners g s (rastBindOwner a imm))

def meshOutStrand (d a b : BitVec 6) (i : Nat) (s : State) : Eff State :=
  match s.useV i d.toNat with
  | .error e => .error e
  | .ok v => match s.useV i b.toNat with
    | .error e => .error e
    | .ok q => match s.blockPoison i a.toNat 4 with
      | some k => poisonTrap s causePoisonUse (strandBundle i) k
      | none =>
        if 256 ≤ v.toNat ∨ 4 < q.toNat then trapWith causeMeshRange 0
        else .ok (s.modBundle (strandBundle i) (fun x =>
          { x with mesh := (List.range 4).foldl (fun (t : Tbl Word) c =>
              Tbl.put 0 t (20 * v.toNat + 4 * q.toNat + c) (s.getV i (a.toNat + c)).val) x.mesh }))

def execMeshOut (g : Guard) (d a b : BitVec 6) (s : State) : Outcome State Fault Refusal :=
  conclude s (forStrands g s (meshOutStrand d a b))

def meshPrimStrand (d a : BitVec 6) (i : Nat) (s : State) : Eff State :=
  match s.useV i d.toNat with
  | .error e => .error e
  | .ok p => match s.useV i a.toNat with
    | .error e => .error e
    | .ok w =>
      if 512 ≤ p.toNat ∨ 2 ^ 25 ≤ w.toNat then trapWith causeMeshRange 0
      else .ok (s.modBundle (strandBundle i) (fun x => { x with mesh := Tbl.put 0 x.mesh (5120 + p.toNat) w }))

def execMeshPrim (g : Guard) (d a : BitVec 6) (s : State) : Outcome State Fault Refusal :=
  conclude s (forStrands g s (meshPrimStrand d a))

def FrontEnd.empty : FrontEnd := ⟨[], none, [], 0⟩
def State.frontEnd (s : State) (d : Nat) : FrontEnd := Tbl.getD s.frontEnds d FrontEnd.empty
def State.setFrontEnd (s : State) (d : Nat) (x : FrontEnd) : State := { s with frontEnds := Tbl.insert s.frontEnds d x }

/-- A front end's input queue is full: it never is while it holds no mesh (log 40). -/
def State.meshFull (s : State) (d : Nat) : Bool :=
  let n := (s.frontEnd d).meshes.length
  decide (n ≠ 0) && decide (Config.meshQueue < n)

/-- Dwords of 256 bytes read for an owner as one access of each aligned page part. -/
def State.readRecord (s : State) (addr : Dword) : Eff (List Dword × State) :=
  match s.globalAccess s.cur.ctx addr 256 256 false true with
  | .error e => .error e
  | .ok (pa, _, t) => .ok ((List.range 32).map (fun k => t.readDword (pa + 8 * k)), t)

/-- The operands of MESH.DONE and its bundle's checked record. -/
def State.meshArgs (s : State) (a b : BitVec 6) (o : Nat) : Eff (Nat × Nat × List Dword × State) :=
  match s.useS o a with
  | .error e => .error e
  | .ok v => match s.useS o b with
    | .error e => .error e
    | .ok p =>
      if v.toNat = 0 ∨ 256 < v.toNat ∨ 512 < p.toNat then trapWith causeMeshRange 0
      else match (Tbl.find? s.bundles o).bind (fun x => x.raster.map (fun r => (r, x.rasterRec))) with
        | none => trapWith causeGfxState 0
        | some (_, some r) => .ok (v.toNat, p.toNat, r, s)
        | some (addr, none) => match s.readRecord addr with
          | .error e => .error e
          | .ok (r, t) => if rasterOk r then .ok (v.toNat, p.toNat, r, t) else trapWith causeGfxState 0

/-- The channel of a die is bound by a launch. -/
def State.guideBound (s : State) (d l : Nat) : Bool :=
  match Tbl.find? s.channels d with
  | some c => c.launch == l && !c.done
  | none => false

/-- The frame whose guide tiles a bound channel sends is that of the records its meshes carry (11 R209). -/
def State.guideFrame (s : State) (d l : Nat) (r : List Dword) : State :=
  match Tbl.find? s.channels d with
  | some c => if c.launch == l && !c.done then
      { s with channels := Tbl.insert s.channels d { c with width := recWidth r, height := recHeight r } } else s
  | none => s

/-- MESH.DONE of a bundle: its area goes to the front end and is zeroed (09 R189). -/
def meshDoneOwner (a b : BitVec 6) (o : Nat) (s : State) : Eff State :=
  match s.meshArgs a b o with
  | .error e => .error e
  | .ok (v, p, r, t) =>
    match Tbl.find? t.bundles o, t.launchOf o with
    | some x, some l =>
      let d := t.dieOf o
      let m : Mesh := { launch := l, bundle := o, index := x.index, ordinal := x.meshOrd, vertices := v, prims := p,
                        area := x.mesh, record := r, fz := acrFz (t.acr o), guide := t.guideBound d l, die := d, packed := 0 }
      let fe := t.frontEnd d
      let u := ((t.guideFrame d l r).setFrontEnd d { fe with meshes := fe.meshes ++ [m] }).setBundle o
        { x with mesh := [], meshOrd := x.meshOrd + 1, rasterRec := some r }
      .ok (match Tbl.find? u.launches l with
        | some y => u.setLaunch l { y with meshes := y.meshes + 1 }
        | none => u)
    | _, _ => .ok t

/-- MESH.DONE as a park point: what traps does not wait; the rest waits while the queue is full. A bundle whose every guard is false
does nothing (01 R15). -/
def State.meshPoint (s : State) (g : Guard) (a b : BitVec 6) : Eff State :=
  let acts (o : Nat) : Bool := (s.liveStrands o).any (fun i => s.guardOn g i)
  match (s.cur.owners.filter acts).mapM (fun o => s.meshArgs a b o) with
  | .error e => .error e
  | .ok _ => .ok (s.ownerPoint (fun o => if acts o && s.meshFull (s.dieOf o) then some .again else none))

def execMeshDone (g : Guard) (a b : BitVec 6) (s : State) : Outcome State Fault Refusal :=
  conclude s (
    match (if s.cur.cleared then .ok s else s.meshPoint g a b) with
    | .error e => .error e
    | .ok t => guardedOwners g t (meshDoneOwner a b))

/-! ### Pixel inputs and outputs (09 R190, R191) -/

/-- The pixel a strand runs for, or gfx-state. -/
def State.pixelOf (s : State) (i : Nat) : Eff PixelIn :=
  match (s.strand i).pixel with
  | some p => .ok p
  | none => trapWith causeGfxState 0

/-- PIX.IN's input n. -/
def PixelIn.input (p : PixelIn) (n : Nat) : Nat :=
  match n with
  | 0 => p.x + 65536 * p.y
  | 1 => p.coverage
  | 2 => p.prim
  | 3 => if p.front then 1 else 0
  | 4 => p.depth.toNat
  | _ => p.invW.toNat

def pixInStrand (d : BitVec 6) (n : Nat) (i : Nat) (s : State) : Eff State :=
  (s.pixelOf i).map (fun p => s.putV i d.toNat (BitVec.ofNat 32 (p.input n)))
def execPixIn (g : Guard) (d : BitVec 6) (imm : BitVec 32) (s : State) : Outcome State Fault Refusal :=
  conclude s (forStrands g s (pixInStrand d imm.toNat))

def pixBaryStrand (d : BitVec 6) (c : Nat) (lin : Bool) (i : Nat) (s : State) : Eff State :=
  (s.pixelOf i).map (fun p => s.putV i d.toNat ((if lin then p.linear else p.persp).getD c 0))
def execPixBary (g : Guard) (d b : BitVec 6) (m : Bool) (s : State) : Outcome State Fault Refusal :=
  conclude s (forStrands g s (pixBaryStrand d b.toNat m))

/-- Change a strand's pending outputs; after a discard nothing does. -/
def State.setOut (s : State) (i : Nat) (f : PixelOut → PixelOut) : State :=
  let x := s.strand i
  if x.out.discarded then s else s.setStrand i { x with out := f x.out }

def pixDiscardStrand (i : Nat) (s : State) : Eff State :=
  (s.pixelOf i).map (fun _ => s.setOut i (fun _ => ⟨[], none, none, true⟩))
def execPixDiscard (g : Guard) (s : State) : Outcome State Fault Refusal := conclude s (forStrands g s pixDiscardStrand)

/-- Words of an output, none of them poisoned. -/
def State.outWords (s : State) (i r n : Nat) : Eff (List Word) :=
  match s.blockPoison i r n with
  | some k => poisonTrap s causePoisonUse (strandBundle i) k
  | none => .ok ((List.range n).map (fun c => (s.getV i (r + c)).val))

def omWriteStrand (a : BitVec 6) (t : Nat) (i : Nat) (s : State) : Eff State :=
  match s.pixelOf i with
  | .error e => .error e
  | .ok _ => (s.outWords i a.toNat 4).map (fun ws => s.setOut i (fun o => { o with targets := Tbl.insert o.targets t ws }))
def execOmWrite (g : Guard) (a : BitVec 6) (imm : BitVec 32) (s : State) : Outcome State Fault Refusal :=
  conclude s (forStrands g s (omWriteStrand a imm.toNat))

def omDepthStrand (a : BitVec 6) (i : Nat) (s : State) : Eff State :=
  match s.pixelOf i with
  | .error e => .error e
  | .ok _ => (s.outWords i a.toNat 1).map (fun ws => s.setOut i (fun o => { o with depth := ws.head? }))
def execOmDepth (g : Guard) (a : BitVec 6) (s : State) : Outcome State Fault Refusal :=
  conclude s (forStrands g s (omDepthStrand a))

def guideOutStrand (a : BitVec 6) (i : Nat) (s : State) : Eff State :=
  match s.pixelOf i with
  | .error e => .error e
  | .ok p =>
    if !p.guide then trapWith causeGfxState 0
    else (s.outWords i a.toNat 4).map (fun ws => s.setOut i (fun o => { o with guide := some ws }))
def execGuideOut (g : Guard) (a : BitVec 6) (s : State) : Outcome State Fault Refusal :=
  conclude s (forStrands g s (guideOutStrand a))

/-! ### Primitive setup and coverage (11 R204-R206) -/

/-- A vertex after setup: snapped coordinates, zn and 1/w exactly, and its attribute words. -/
structure Vertex where
  x : Int
  y : Int
  z : FVal
  w : Rat
  attrs : List Nat
deriving DecidableEq

/-- rne of a finite value times 256 to an integer (11 R204). -/
def snap (x : FVal) : Int :=
  match x with
  | .fin neg m e => (roundInt .rne neg m (e + 8)).1
  | _ => 0

/-- Vertex k of a mesh; none where it drops its primitives. -/
def Mesh.vertex (m : Mesh) (k : Nat) : Option Vertex :=
  let word (c : Nat) : Nat := (Tbl.getD m.area (20 * k + c) 0).toNat
  let v (c : Nat) : FVal := unitIn m.fz (word c)
  let p (n lo : Nat) : FVal := unitIn m.fz (recField m.record n lo 32)
  let place (c lo : Nat) : FVal :=
    fmtFP32.decode (fround fmtFP32 .rne m.fz (fsum [fprod (fmtFP32.decode (roundQuot m.fz (v c) (v 3))) (p 0 lo), p 1 lo])).1
  let zn := fmtFP32.decode (roundQuot m.fz (v 2) (v 3))
  let x := place 0 0
  let y := place 1 32
  if (List.range 4).all (fun c => (v c).isFin) && FVal.cmp (.fin false 0 0) (v 3) == some .lt && x.isFin && y.isFin && zn.isFin
      && decide ((snap x).natAbs < 2 ^ 22) && decide ((snap y).natAbs < 2 ^ 22) then
    some ⟨snap x, snap y, zn, (v 3).rat, (List.range 16).map (fun c => word (4 + c))⟩
  else none

/-- The edge function of a directed edge at a point of the same grid (11 R205). -/
def edgeAt (ax ay bx b_y px py : Int) : Int := (bx - ax) * (py - ay) - (b_y - ay) * (px - ax)
def Vertex.edge (a b : Vertex) (px py : Int) : Int := edgeAt a.x a.y b.x b.y px py

/-- A point lies inside an edge, or on it where the edge is top-left. -/
def Vertex.inside (a b : Vertex) (px py : Int) : Bool :=
  let e := a.edge b px py
  let dy := b.y - a.y
  decide (0 < e) || (e == 0 && (decide (dy < 0) || (dy == 0 && decide (0 < b.x - a.x))))

/-- Sample places in 1/256 of a pixel. -/
def sampleAt (n s : Nat) : Int × Int :=
  if n = 1 then (128, 128)
  else match s with
    | 0 => (96, 32)
    | 1 => (224, 96)
    | 2 => (32, 160)
    | _ => (160, 224)

/-- A primitive: its vertices and A. -/
structure Triangle where
  v0 : Vertex
  v1 : Vertex
  v2 : Vertex
  area : Int
deriving DecidableEq

/-- Linear weights at a point. -/
def Triangle.weights (t : Triangle) (px py : Int) : List Rat :=
  [t.v1.edge t.v2 px py, t.v2.edge t.v0 px py, t.v0.edge t.v1 px py].map (fun e => mkRat e 1 / mkRat t.area 1)

/-- Σ of weights times values. -/
def weighted (ws xs : List Rat) : Rat := (List.zipWith (fun a b => a * b) ws xs).foldl (fun a b => a + b) 0

/-- rne of Σ of weights times finite values: a zero sum is negative where every term is a negative zero (02 R39). -/
def weightedWord (fz : Bool) (ws : List Rat) (vs : List FVal) : Nat :=
  let q := weighted ws (vs.map FVal.rat)
  let minus (w : Rat) (v : FVal) : Bool := match v with
    | .fin neg m _ => (m == 0 || w == 0) && neg != decide (w < 0)
    | _ => false
  if q = 0 then fmtFP32.signed ((List.zipWith minus ws vs).all id) 0 else roundRat fz q

def Triangle.zs (t : Triangle) : List FVal := [t.v0.z, t.v1.z, t.v2.z]
def Triangle.ws (t : Triangle) : List Rat := [t.v0.w, t.v1.w, t.v2.w]
def Triangle.depthAt (t : Triangle) (fz : Bool) (px py : Int) : Nat := weightedWord fz (t.weights px py) t.zs

/-- A point is covered by every edge, oriented so that the inside is positive. -/
def Triangle.covers (t : Triangle) (px py : Int) : Bool :=
  if 0 < t.area then t.v0.inside t.v1 px py && t.v1.inside t.v2 px py && t.v2.inside t.v0 px py
  else t.v0.inside t.v2 px py && t.v2.inside t.v1 px py && t.v1.inside t.v0 px py

/-- Depth in [0, 1]. -/
def depthInRange (c : Nat) : Bool := fle (.fin false 0 0) (fmtFP32.decode c) && fle (fmtFP32.decode c) (.fin false 1 0)

/-- The samples of a pixel that a primitive covers. -/
def Triangle.coverage (t : Triangle) (m : Mesh) (x y : Nat) : Nat :=
  if x < recWidth m.record ∧ y < recHeight m.record then
    let n := recSamples m.record
    (List.range n).foldl (fun c s =>
      let px := 256 * (x : Int) + (sampleAt n s).1
      let py := 256 * (y : Int) + (sampleAt n s).2
      if t.covers px py && depthInRange (t.depthAt m.fz px py) then c + 2 ^ s else c) 0
  else 0

/-- rne of a weighted sum of attribute words: Inf and NaN as exact arithmetic gives (11 R206). -/
def attrWord (fz : Bool) (ws : List Rat) (cs : List Nat) : Nat :=
  let vs := cs.map (unitIn fz)
  if vs.all FVal.isFin then weightedWord fz ws vs
  else
    let term (w : Rat) (v : FVal) : FVal := match v with
      | .inf neg => if w = 0 then .nan else .inf (neg != decide (w < 0))
      | .nan => .nan
      | _ => .fin false 0 0
    (fround fmtFP32 .rne fz (fsum (List.zipWith term ws vs))).1

/-- The eighteen components of PIX.BARY under given weights. -/
def Triangle.components (t : Triangle) (fz : Bool) (ws : List Rat) : List Word :=
  ((List.range 16).map (fun c => attrWord fz ws [t.v0.attrs.getD c 0, t.v1.attrs.getD c 0, t.v2.attrs.getD c 0])
    ++ [roundRat fz (ws.getD 1 0), roundRat fz (ws.getD 2 0)]).map (BitVec.ofNat 32)

/-- The operands of a primitive's interpolation at a point. -/
def Triangle.operands (t : Triangle) (px py : Int) : List Int :=
  [px, py] ++ ([t.v0, t.v1, t.v2].map (fun (v : Vertex) => [v.x, v.y, v.w.num, (v.w.den : Int)] ++ v.attrs.map Int.ofNat)).flatten

/-- The inputs of a pixel strand. Where Σ Ej / wj is zero at the pixel's centre the perspective weights are unstated: the
components are free values of the operands (log 41). -/
def Triangle.pixel (t : Triangle) (m : Mesh) (prim x y : Nat) : PixelIn :=
  let px := 256 * (x : Int) + 128
  let py := 256 * (y : Int) + 128
  let ls := t.weights px py
  let q := List.zipWith (fun l w => l / w) ls t.ws
  let sum := q.foldl (fun a b => a + b) 0
  let n := recSamples m.record
  { x := x, y := y, coverage := t.coverage m x y, prim := prim, front := decide (0 < t.area) == (recField m.record 2 36 1 == 1),
    depth := BitVec.ofNat 32 (t.depthAt m.fz px py), invW := BitVec.ofNat 32 (roundRat m.fz sum),
    persp := if sum = 0 then (List.range 18).map (Config.openComponent (t.operands px py))
             else t.components m.fz (q.map (fun a => a / sum)),
    linear := t.components m.fz ls,
    sampleDepths := (List.range n).map (fun s => BitVec.ofNat 32
      (t.depthAt m.fz (256 * (x : Int) + (sampleAt n s).1) (256 * (y : Int) + (sampleAt n s).2))),
    launch := m.launch, record := m.record, key := [m.index, m.ordinal, prim], guide := m.guide, die := m.die }

/-- Primitive p of a mesh, unless it is dropped or culled (09 R189, 11 R204, R205). -/
def Mesh.triangle (m : Mesh) (p : Nat) : Option Triangle :=
  let w := (Tbl.getD m.area (5120 + p) 0).toNat
  let i0 := w % 256
  let i1 := w / 256 % 256
  let i2 := w / 65536 % 256
  if w / 2 ^ 24 % 2 = 1 ∨ m.vertices ≤ i0 ∨ m.vertices ≤ i1 ∨ m.vertices ≤ i2 then none
  else match m.vertex i0, m.vertex i1, m.vertex i2 with
    | some a, some b, some c =>
      let area := a.edge b c.x c.y
      let front : Bool := decide (0 < area) == (recField m.record 2 36 1 == 1)
      let cull := recField m.record 2 34 2
      if area = 0 ∨ (cull = 1 ∧ !front) ∨ (cull = 2 ∧ front) then none else some ⟨a, b, c, area⟩
    | _, _, _ => none

/-- The strands of one primitive: its quads in row-major order, four strands each (20 R331). -/
def Mesh.primPixels (m : Mesh) (_p : Nat) (t : Triangle) : List (Nat × Nat) :=
  let at4 (qx qy : Nat) : List (Nat × Nat) := [(2 * qx, 2 * qy), (2 * qx + 1, 2 * qy), (2 * qx, 2 * qy + 1), (2 * qx + 1, 2 * qy + 1)]
  ((List.range ((recHeight m.record + 1) / 2)).map (fun qy =>
    ((List.range ((recWidth m.record + 1) / 2)).map (fun qx =>
      let q := at4 qx qy
      if q.any (fun e => t.coverage m e.1 e.2 != 0) then q else [])).flatten)).flatten

/-- The pixel strands of a mesh, primitives in index order. -/
def Mesh.pixels (m : Mesh) : Nat → List PixelIn
  | 0 => []
  | n + 1 => m.pixels n ++ (match m.triangle n with
    | none => []
    | some t => (m.primPixels n t).map (fun e => t.pixel m n e.1 e.2))

/-- Meshes of a launch are held while its guide tiles fill the merger's store, whose size the spec leaves open: rasterising a
mesh is one event and waits for nothing else (log 42). A mesh that was saved with its crew goes on at the pixel bundle it had reached
(log 133). -/
def State.rasterise (s : State) (d : Nat) : State :=
  let fe := s.frontEnd d
  match fe.meshes with
  | [] => s
  | m :: rest =>
    if !fe.pixels.isEmpty then s
    else
      s.setFrontEnd d { fe with meshes := rest, current := some m, pixels := (m.pixels m.prims).drop (64 * m.packed), packed := m.packed }

/-- A launch loses one mesh of those not yet rasterised. -/
def State.meshGone (s : State) (l : Nat) : State :=
  match Tbl.find? s.launches l with
  | some x => s.setLaunch l { x with meshes := x.meshes - 1 }
  | none => s

/-- MESH_RASTERISE: the front end of a die takes its next mesh. -/
def execMeshRasterise (die : Nat) (s : State) : Outcome State Fault Refusal :=
  let fe := s.frontEnd die
  .next (match fe.meshes with
    | [] => s
    | m :: _ => if !fe.pixels.isEmpty then s
      else
        let t := s.rasterise die
        if (t.frontEnd die).pixels.isEmpty then t.meshGone m.launch else t)

/-! ### Pixel bundles (20 R331) -/

/-- Bundles of the crews on a core that are placed and still to start. -/
def State.pendingBundles (s : State) (k : Nat) : List (Nat × Nat) :=
  (s.crews.filter (fun e => e.2.core == some k && !e.2.ended && !e.2.started)).map
    (fun e => (hdrExtent (s.header e.2.launch) 1, hdrRegs (s.header e.2.launch) / 8))

/-- Register granules in use on a core: 2^REGS for each bundle, pixel bundles and those still to start among them (07 R149). -/
def State.granulesOn (s : State) (k : Nat) : Nat :=
  ((s.crews.filter (fun e => e.2.core == some k && !e.2.ended)).map
      (fun e => e.2.bundles.length * (hdrRegs (s.header e.2.launch) / 8))).sum
    + ((s.pendingBundles k).map (fun e => e.1 * e.2)).sum

/-- Bundle slots in use on a core: a bundle keeps its slot until it has ended (03 R81). -/
def State.slotsOn (s : State) (k : Nat) : List Nat :=
  ((s.crews.filter (fun e => e.2.core == some k && !e.2.ended)).map (fun e =>
    e.2.bundles.filterMap (fun b => (Tbl.find? s.bundles b).map (fun (x : Bundle) => x.slot)))).flatten

/-- Free bundle slots of a core, beside those that crews still to start will take. -/
def State.slotsFree (s : State) (k : Nat) : Nat := 32 - (s.slotsOn k).length - ((s.pendingBundles k).map Prod.fst).sum

/-- The lowest free of a core's 32 bundle slots (06 R128). -/
def State.freeSlot (s : State) (k : Nat) : Option Nat := (List.range 32).find? (fun x => !(s.slotsOn k).contains x)

/-- The order of a pixel bundle among the bundles of its launch: after every launch bundle, then by the issuing bundle, the
ordinal and the packing order (20 R331). -/
def pixelIndex (index ordinal packed : Nat) : Nat := 2 ^ 160 + index * 2 ^ 128 + ordinal * 2 ^ 64 + packed

/-- A pixel strand at its start. -/
def pixelStrand (pc : Dword) (p : PixelIn) : Strand :=
  { Strand.fresh pc with p := 0x81, pixel := some p, out := ⟨[], none, none, p.coverage == 0⟩ }

/-- Start the next pixel bundle of a die, where its crew's core has a slot and registers for it. It is none of its crew's bundles for f1:
its number lies above every one of theirs. -/
def State.startPixels (s : State) (d : Nat) : State :=
  let fe := s.frontEnd d
  match fe.current, fe.pixels with
  | some m, _ :: _ =>
    match Tbl.find? s.bundles m.bundle with
    | none => s
    | some b =>
      match Tbl.find? s.crews b.crew with
      | none => s
      | some c =>
        match c.core with
        | none => s
        | some k =>
          match s.freeSlot k with
          | none => s
          | some slot =>
            if 256 < s.granulesOn k + hdrRegs (s.header m.launch) / 8 ∨ s.slotsFree k = 0 then s
            else
              let u := s.nextBundle
              let ps := fe.pixels.take 64
              let h := s.header m.launch
              let lease := hdrLease h
              let x : Bundle :=
                { crew := b.crew, index := pixelIndex m.index m.ordinal fe.packed, f1 := 16, slot := slot, rot := 17 * slot % 64,
                  declared := if lease = 0 then none else some (min lease (s.leaseMax (match Tbl.find? s.launches m.launch with
                    | some (y : Launch) => y.ctx
                    | none => 0))),
                  est := 64, touched := [], copyOrd := 0, meshOrd := 0, mesh := [], raster := none, rasterRec := none,
                  exited := false }
              let s1 := { s with bundles := Tbl.insert s.bundles u x, nextBundle := u + 1 }
              let s2 := (s1.setOwner u Owner.fresh).putS u 1 (h.getD 1 0)
              let s3 := ps.zipIdx.foldl (fun (t : State) e => t.setStrand (strandKey u e.2) { pixelStrand (h.getD 0 0) e.1 with born := s.epoch }) s2
              let s4 := s3.setCrew b.crew { c with bundles := c.bundles ++ [u] }
              let left := fe.pixels.drop 64
              let s5 := s4.setFrontEnd d { fe with pixels := left, packed := fe.packed + 1 }
              if left.isEmpty then s5.meshGone m.launch else s5
  | _, _ => s

def execPixelBundleStart (die : Nat) (s : State) : Outcome State Fault Refusal := .next (s.startPixels die)

/-! ### Merging (11 R207-R209) -/

/-- Keys compare by their parts in order. -/
def keyLt : List Nat → List Nat → Bool
  | [], _ => false
  | _, [] => false
  | a :: x, b :: y => decide (a < b) || (a == b && keyLt x y)

/-- Whether work of a launch could still produce a fragment that comes before a key: a placed crew still to start, a launch bundle
that can still issue a mesh, a mesh not yet rasterised, or a pixel strand not yet ended. Crews still to be placed come later. -/
def State.earlierWork (s : State) (l : Nat) (key : List Nat) : Bool :=
  let idx := key.headD 0
  let two := key.take 2
  s.crews.any (fun e => e.2.launch == l && !e.2.started && !e.2.ended && decide (e.2.index * 2 ^ hdrWidth (s.header l) 1 ≤ idx))
  || s.bundles.any (fun e => !e.2.exited && decide (e.2.index < idx) && s.launchOf e.1 == some l)
  || s.crews.any (fun e => e.2.meshes.any (fun m => m.launch == l && !keyLt two [m.index, m.ordinal]))
  || s.frontEnds.any (fun e => e.2.meshes.any (fun m => m.launch == l && !keyLt two [m.index, m.ordinal])
      || e.2.pixels.any (fun p => p.launch == l && keyLt p.key key))
  || s.strands.any (fun e => e.2.live && (match e.2.pixel with
      | some p => p.launch == l && keyLt p.key key
      | none => false))

/-- The fragment of a launch with the lowest key. -/
def lowestFragment : List Fragment → Option Fragment
  | [] => none
  | f :: rest => match lowestFragment rest with
    | some x => if keyLt x.key f.key then some x else some f
    | none => some f

/-- DFUNC on the order of fragment and stored depth. -/
def depthPass (func : Nat) (frag old : Nat) (fz : Bool) : Bool :=
  let c := FVal.cmp (unitIn fz frag) (unitIn fz old)
  match func with
  | 0 => false
  | 1 => c == some .lt
  | 2 => c == some .lt || c == some .eq
  | 3 => c == some .eq
  | 4 => c == some .gt
  | 5 => c == some .gt || c == some .eq
  | 6 => c == some .lt || c == some .gt
  | _ => true

/-- Bytes of a sample and of a channel by TFMT. -/
def targetBytes (f : Nat) : Nat := match f with | 0 => 16 | 1 => 8 | 2 => 8 | _ => 4
def targetChannels (f : Nat) : Nat := if f < 4 then 4 else 1

/-- A stored channel's value. -/
def channelValue (f c : Nat) : FVal :=
  match f with
  | 1 => fmtFP16.decode c
  | 2 => fmtBF16.decode c
  | 3 => let q := roundRatio false false c 255; fmtFP32.decode q
  | _ => fmtFP32.decode c

/-- An FP32 word as a channel; a format that stores it unchanged copies it. -/
def channelCode (fz : Bool) (f c : Nat) : Nat :=
  match f with
  | 1 => (fround fmtFP16 .rne fz (unitIn fz c)).1
  | 2 => (fround fmtBF16 .rne fz (unitIn fz c)).1
  | 3 => match unitIn fz c with
    | .nan => 0
    | v => if fle v (.fin false 0 0) then 0
      else if fle (.fin false 1 0) v then 255
      else match fprod v (.fin false 255 0) with
        | .fin neg m e => (roundInt .rne neg m e).1.toNat
        | _ => 0
  | _ => c

/-- A blend factor times a value, with `al` the source alpha. -/
def blendTerm (code : Nat) (al v : FVal) : FVal :=
  match code with
  | 0 => fprod v (.fin false 0 0)
  | 1 => v
  | 2 => fprod v al
  | _ => fprod v (fdiff (.fin false 1 0) al)

/-- Blend with a unorm8 destination, whose value c / 255 is exact: rne of src × sf + (c × df) / 255. -/
def blendUnorm (fz : Bool) (src dst255 : FVal) : Nat :=
  match fsum [fprod src (.fin false 255 0), dst255] with
  | .fin neg m e => roundRatio fz neg (m * 2 ^ e.toNat) (255 * 2 ^ (-e).toNat)
  | v => (fround fmtFP32 .rne fz v).1

/-- The word a channel takes before conversion. -/
def blended (fz : Bool) (f df sf : Nat) (al src : Nat) (old : Nat) : Nat :=
  let a := unitIn fz al
  let s := blendTerm sf a (unitIn fz src)
  if f = 3 then blendUnorm fz s (blendTerm df a (.fin false old 0))
  else (fround fmtFP32 .rne fz (fsum [s, blendTerm df a (channelValue f old)])).1

/-- What target t of a record holds at a sample after a fragment's value. -/
def targetMerge (r : List Dword) (t : Nat) (fz : Bool) (ws : List Word) (old : Nat) : Nat :=
  let f := targetFmt r t
  let n := targetChannels f
  let w := 8 * targetBytes f / n
  let one (c : Nat) : Nat :=
    let was := old / 2 ^ (w * c) % 2 ^ w
    if recField r (16 + t) (8 + c) 1 = 0 then was
    else if recField r (16 + t) 3 1 = 1 then
      channelCode fz f (blended fz f (recField r (16 + t) 6 2) (recField r (16 + t) 4 2) (ws.getD 3 0).toNat (ws.getD c 0).toNat was)
    else channelCode fz f (ws.getD c 0).toNat
  (List.range n).foldl (fun v c => v + one c * 2 ^ (w * c)) 0

/-- A sample's bytes written for a context: `f` makes them of what stands there. One that reads it needs read permission too (04 R103);
`whole` says that every byte is written. -/
def State.mergeWord (s : State) (ctx addr n : Nat) (reads whole : Bool) (f : Nat → Nat) : Eff State :=
  match s.globalAccess ctx (BitVec.ofNat 64 addr) n n true true with
  | .error e => .error e
  | .ok (pa, p, t) =>
    if reads && !p.canRead then fatalWith causePermission (BitVec.ofNat 64 addr)
    else
      let u := t.storeEngine pa (p.room pa n) (f (t.pageLE p pa n))
      .ok (if whole then { u with marked := markUnits t.marked pa n false } else u)

/-- Whether a target's WMASK enables one of its channels, all of them; and whether it blends. -/
def targetAny (r : List Dword) (t : Nat) : Bool := (List.range (targetChannels (targetFmt r t))).any (fun c => recField r (16 + t) (8 + c) 1 != 0)
def targetAll (r : List Dword) (t : Nat) : Bool := (List.range (targetChannels (targetFmt r t))).all (fun c => recField r (16 + t) (8 + c) 1 != 0)
def targetBlends (r : List Dword) (t : Nat) : Bool := recField r (16 + t) 3 1 == 1

/-- Read a depth of a context. -/
def State.readDepth (s : State) (ctx addr : Nat) : Eff (Nat × State) :=
  match s.globalAccess ctx (BitVec.ofNat 64 addr) 4 4 false true with
  | .error e => .error e
  | .ok (pa, p, t) => .ok (t.pageLE p pa 4, t)

/-- Merge one covered sample; the Bool says that it passed (11 R208). -/
def State.mergeSample (s : State) (ctx : Nat) (f : Fragment) (k : Nat) : Eff (Bool × State) :=
  let r := f.pixel.record
  let place := (f.pixel.y * recPitch r + f.pixel.x) * recSamples r + k
  let depth := (f.out.depth.getD (f.pixel.sampleDepths.getD k 0)).toNat
  let dbase := (r.getD 3 0).toNat
  let tested : Eff (Bool × State) :=
    if recField r 2 41 1 = 1 ∧ dbase ≠ 0 then
      (s.readDepth ctx (dbase + 4 * place)).map (fun x => (depthPass (recField r 2 37 3) depth x.1 f.fz, x.2))
    else .ok (true, s)
  match tested with
  | .error e => .error e
  | .ok (false, t) => .ok (false, t)
  | .ok (true, t) =>
    match (if recField r 2 40 1 = 1 ∧ dbase ≠ 0 then t.mergeWord ctx (dbase + 4 * place) 4 false true (fun _ => depth) else .ok t) with
    | .error e => .error e
    | .ok u =>
      (f.out.targets.foldlM (fun (v : State) e =>
        if targetBase r e.1 = 0 ∨ targetAny r e.1 = false then .ok v
        else
          let n := targetBytes (targetFmt r e.1)
          v.mergeWord ctx (targetBase r e.1 + place * n) n (targetBlends r e.1) (targetAll r e.1) (targetMerge r e.1 f.fz e.2)) u).map (fun v => (true, v))

/-- Store a guide record in the channel of the die that rasterised the pixel (11 R209, 19 R329), where the launch had it bound at the
MESH.DONE (20 R331). -/
def State.mergeGuide (s : State) (l : Nat) (f : Fragment) : State :=
  match f.out.guide with
  | none => s
  | some ws => { s with channels := s.channels.map (fun e =>
      if e.1 == f.pixel.die && e.2.launch == l && !e.2.done && f.pixel.guide then
        (e.1, { e.2 with records := Tbl.insert e.2.records (65536 * f.pixel.y + f.pixel.x) ws })
      else e) }

/-- Merge one fragment: its covered samples in order. -/
def State.mergeOne (s : State) (ctx l : Nat) (f : Fragment) : Eff State :=
  if f.out.discarded then .ok s
  else
    let ks := (List.range (recSamples f.pixel.record)).filter (fun k => f.pixel.coverage.testBit k)
    (ks.foldlM (fun (a : Bool × State) k =>
      (a.2.mergeSample ctx f k).map (fun (x : Bool × State) => (a.1 || x.1, x.2))) (false, s)).map (fun x =>
        if x.1 then x.2.mergeGuide l f else x.2)

/-- Remove one fragment. -/
def dropFragment (f : Fragment) : List Fragment → List Fragment
  | [] => []
  | x :: rest => if x = f then rest else x :: dropFragment f rest

/-- FRAGMENT_MERGE: the fragment of a launch with the lowest key, once no earlier one can come. A merge that translation or
permission stops ends the context, as the front end has no group to trap (log 43). -/
def execFragmentMerge (l : Nat) (s : State) : Outcome State Fault Refusal :=
  match Tbl.find? s.launches l with
  | none => .next s
  | some x =>
    match lowestFragment x.frags with
    | none => .next s
    | some f =>
      if s.earlierWork l f.key then .next s
      else
        let s1 := s.setLaunch l { x with frags := dropFragment f x.frags }
        match s1.mergeOne x.ctx l f with
        | .ok t => .next t
        | .error (.fault e) => .fault e
        | .error (.stopped (.trap c a _)) => .next (s1.endContext x.ctx c a)
        | .error (.stopped (.fatal c a)) => .next (s1.endContext x.ctx c a)
        | .error (.stopped (.wait _)) => .next s

end Sys2Proof.Machine
end

