-- ==== Sys2Proof/Machine/Guide.lean ====
section
/-! DEFINITION. The guide channel of a raster die: GUIDE.BIND (19 R329), the ring (22 R354) and when its audit falls (22 R355; the audit and desync stand in Beads). -/

namespace Sys2Proof.Machine

open Host (Outcome)

/-! ### Guide tiles of a frame -/

/-- Guide tiles of the frame: 16 by 16 pixels each, in rows. -/
def GuideChannel.across (c : GuideChannel) : Nat := (c.width + 15) / 16
def GuideChannel.total (c : GuideChannel) : Nat := c.across * ((c.height + 15) / 16)

/-! ### GUIDE.BIND (19 R329) -/

/-- Guide tiles of a binding are in flight: its sending has begun and has not ended (log 46). -/
def GuideChannel.inFlight (c : GuideChannel) (waiting : Bool) : Bool :=
  waiting || (decide (0 < c.next) && decide (c.next < c.total))

/-- Whether a die's channel waits at a free bead. -/
def State.awaitsFree (s : State) (d : Nat) : Bool :=
  let there (e : Nat × Bead) : Bool := e.2.queue.any (fun q => q.1 == .channel d)
  s.beads.any there || s.savedTiles.any (fun y => y.beads.any there)

def State.launchOver (s : State) (l : Nat) : Bool :=
  match Tbl.find? s.launches l with
  | some x => x.phase == .completed || x.phase == .aborted
  | none => true

/-- Whether the channel of a die refuses a new binding by a launch. -/
def State.channelHeld (s : State) (d l : Nat) : Bool :=
  match Tbl.find? s.channels d with
  | some c => (c.launch != l && !s.launchOver c.launch) || c.inFlight (s.awaitsFree d)
  | none => false

/-- Bind a die's channel; the old binding is audited first, and guide records the same launch has merged stay with it. -/
def State.bindChannel (s : State) (d : Nat) (c : GuideChannel) : State :=
  match Tbl.find? s.channels d with
  | none => s.setChannel d c
  | some old =>
    let s1 := if s.auditOk old then s else s.desync d old
    let keep := old.launch == c.launch && !old.done
    s1.setChannel d (if keep then { c with records := old.records, width := old.width, height := old.height } else c)

def guideBindOwner (a b c : BitVec 6) (t : CopyTail) (o : Nat) (s : State) : Eff State := do
  let (x, y, z) ← s.useThree o a b c
  let slots := y.toNat
  let fill := z.toNat % 64
  let free := z.toNat / 2 ^ 16 % 64
  match endpointOf x with
  | none => trapWith causeBadAddress x
  | some e =>
    if misalignedAt x 16 then (trapWith causeMisaligned x : Eff Unit)
    match e with
    | .rect die row col rows cols ofs =>
      if 524288 < ofs + 4096 * (slots % 128) then (trapWith causeScratchRange x : Eff Unit)
      let d := s.dieOf o
      let l := (s.launchOf o).getD 0
      let tiles := rectTiles die row col rows cols
      if die ≠ d ∨ slots = 0 ∨ 64 < slots ∨ z.toNat ≠ fill + 2 ^ 16 * free ∨ s.channelHeld d l = true ∨
          tiles.all (s.tileFree s.cur.ctx) = false then trapWith causeCopyState x
      else
        let s1 := tiles.foldl (fun u k => u.claimTile u.cur.ctx k) s
        .ok ((s1.bindChannel d
          { launch := l, ctx := s.cur.ctx, endpoint := x, slots := slots, fill := fill, free := free, issued := [], observed := [],
            next := 0, records := [], width := 0, height := 0, served := false, done := false }).signalTail o t)
    | _ => trapWith causeCopyState x

def execGuideBind (a b c : BitVec 6) (t : CopyTail) (s : State) : Outcome State Fault Refusal :=
  afterMask s t (guideBindOwner a b c t)

/-! ### Sending (11 R209, 22 R354) -/

/-- Whether work of a launch could still merge into guide tile i. -/
def State.guidePending (s : State) (c : GuideChannel) (i : Nat) : Bool :=
  let inside (p : PixelIn) : Bool := p.launch == c.launch && p.y / 16 * c.across + p.x / 16 == i
  (match Tbl.find? s.launches c.launch with
    | some x => decide (x.nextCrew < x.crewCount) || x.frags.any (fun f => inside f.pixel)
    | none => false)
  || s.crews.any (fun e => e.2.launch == c.launch && !e.2.started && !e.2.ended)
  || s.bundles.any (fun e => !e.2.exited && decide (e.2.index < 2 ^ 160) && s.launchOf e.1 == some c.launch)
  || s.crews.any (fun e => e.2.meshes.any (fun m => m.launch == c.launch))
  || s.frontEnds.any (fun e => e.2.meshes.any (fun m => m.launch == c.launch) || e.2.pixels.any inside)
  || s.strands.any (fun e => e.2.live && e.2.pixel.any inside)

/-- The bytes of guide tile i. -/
def GuideChannel.tileBytes (c : GuideChannel) (i : Nat) : List Byte :=
  ((List.range 256).map (fun k =>
    let x := i % c.across * 16 + k % 16
    let y := i / c.across * 16 + k / 16
    let ws := (Tbl.find? c.records (65536 * y + x)).getD [0xFFFFFFFF, 0x7F800000, 0, 0]
    ((List.range 4).map (fun j => leBytes (ws.getD j 0).toNat 4)).flatten)).flatten

/-- Where a guide tile for a tile goes: its scratchpad, or the save image of the stream whose tile has been given away (22 R357; log
61). -/
def State.guidePlace (s : State) (ctx t : Nat) : Place :=
  match s.lastImage ctx t with
  | some y => .image y.launch t
  | none => .tile t

/-- Write guide tile i into its slot and signal its fill bead: ISSUED counts the send, OBSERVED the increment applied. -/
def State.sendGuide (s : State) (d : Nat) (c : GuideChannel) (t i slot : Nat) : State :=
  let at0 := c.endpoint.toNat % 2 ^ 19 + 4096 * slot
  let bytes := c.tileBytes i
  let p := s.guidePlace c.ctx t
  let s1 := (s.linesAt p (BitVec.ofNat 64 at0) 4096).foldl State.clearLine s
  let s2 := match s1.writePlace p (BitVec.ofNat 64 at0) bytes false with
    | .ok u => u
    | .error _ => s1
  let s3 := ((s2.linesAt p (BitVec.ofNat 64 at0) 4096).foldl State.presentLine s2).checkBead (s.guideBead c.ctx t c.fill)
  let seen := !(s3.bead (s.guideBead c.ctx t c.fill)).brk
  let c1 : GuideChannel :=
    { c with next := i + 1, served := false, issued := Tbl.insert c.issued t (Tbl.getD c.issued t 0 + 1),
             observed := if seen then Tbl.insert c.observed t (Tbl.getD c.observed t 0 + 1) else c.observed }
  -- a fill bead whose parity fails has stopped the channel
  if (Tbl.find? s3.channels d).isNone then s3 else (s3.setChannel d c1).signal c.ctx (s.guideBead c.ctx t c.fill) 1

/-- The audit at a frame boundary: on a pass the binding stays for its counts (22 R355). -/
def State.frameAudit (s : State) (d : Nat) : State :=
  match Tbl.find? s.channels d with
  | some c => if s.auditOk c then s.setChannel d { c with done := true } else s.desync d c
  | none => s

/-- GUIDE_TILE_SEND: the next guide tile of a die's channel, once nothing can merge into it; past the first S deliveries to its
tile it takes one from the free bead, or waits there. The last one is followed by the audit. -/
def State.guideStep (s : State) (d : Nat) : State :=
  match Tbl.find? s.channels d with
  | none => s
  | some c =>
    let ts := c.tiles
    let i := c.next
    if c.done || decide (c.total ≤ i) || s.guidePending c i then s
    else
      let t := ts.getD (i % ts.length) 0
      let m := i / ts.length
      let free := s.guideBead c.ctx t c.free
      let go (u : State) : State :=
        let v := u.sendGuide d c t i (m % c.slots)
        if i + 1 = c.total then v.frameAudit d else v
      if m < c.slots ∨ c.served = true then go s
      else if s.awaitsFree d then s
      else if (s.bead free).bad then s.checkBead free
      else
        let b := s.bead free
        if !b.brk && b.queue.isEmpty && decide (1 ≤ b.count) then go (s.setBead free { b with count := b.count - 1 })
        else s.setBead free { b with queue := b.queue ++ [(.channel d, 1)] }

def execGuideTileSend (die : Nat) (s : State) : Outcome State Fault Refusal := .next (s.guideStep die)

end Sys2Proof.Machine
end

