-- ==== Sys2Proof/Machine/Links.lean ====
section
/-! DEFINITION. Package links: LINK.SEND and LINK.RECV (19 R329), their frames (25 R382-R385), and the transfers of copies as
events (19 R318). -/

namespace Sys2Proof.Machine

open Host (Outcome)

def State.port (s : State) (p : Nat) : Port := Tbl.getD s.ports p Port.reset
def State.setPort (s : State) (p : Nat) (x : Port) : State := { s with ports := Tbl.insert s.ports p x }
def State.linkStream (s : State) (p st : Nat) : Option LinkStream := Tbl.find? (s.port p).streams st
def State.setLink2 (s : State) (p st : Nat) (x : LinkStream) : State :=
  s.setPort p { s.port p with streams := Tbl.insert (s.port p).streams st x }

/-- A frame leaves a port: 1 data, 2 acknowledgement, 3 receive credit. -/
def State.emit (s : State) (p kind : Nat) (f : LinkFrame) : State := s.setPort p { s.port p with sent := (s.port p).sent ++ [(kind, f)] }

/-- Send a data or credit frame, to be acknowledged. -/
def State.emitTracked (s : State) (p st copy : Nat) (f : LinkFrame) : State :=
  match s.linkStream p st with
  | none => s
  | some x => (s.setLink2 p st { x with unacked := x.unacked ++ [⟨f, copy, 0⟩] }).emit p (if f.cred then 3 else 1) f

/-- Acknowledge what has been received in order, if anything has. -/
def State.acknowledge (s : State) (p st : Nat) (cred : Bool) : State :=
  match s.linkStream p st with
  | none => s
  | some x =>
    let n := if cred then x.recvCredit else x.recvData
    if n = 0 then s else s.emit p 2 ⟨st, (n - 1) % 2 ^ 32, 0, 0, false, cred, true, []⟩

/-! ### The instructions (19 R329, 25 R384) -/

/-- The port and stream of a register, where its other bits are clear, the port exists and the stream is the context's. -/
def State.portStream (s : State) (v : Dword) : Option (Nat × Nat) :=
  let p := v.toNat % 16
  let st := v.toNat / 2 ^ 16 % 2 ^ 16
  if v.toNat = p + 2 ^ 16 * st ∧ p < 12 ∧ (match s.linkStream p st with | some x => x.ctx == s.cur.ctx | none => false) = true then
    some (p, st)
  else none

/-- The checks of a link transfer, in R317's order: the scratchpad or memory side, the length, then the port and stream. -/
def State.linkArgs (s : State) (o : Nat) (side len ps : Dword) (limit : Nat) : Eff (Place × Dword × Nat × Nat) :=
  match endpointOf side with
  | none => trapWith causeBadAddress side
  | some e =>
    if misalignedAt side 16 || len.toNat % 16 != 0 then trapWith causeMisaligned side
    else if (match s.resolve o e with | some (p, a) => s.placeRangeOk p a len.toNat | none => true) = false then
      trapWith causeScratchRange side
    else match s.placeOf o side e with
      | .error x => .error x
      | .ok (p, a) =>
        match s.portStream ps with
        | some (n, st) => if limit < len.toNat then trapWith causeCopyState side else .ok (p, a, n, st)
        | none => trapWith causeCopyState side

/-- Sends whose credit has arrived know what they transmit: at least one frame, of at most 4,096 bytes each. -/
def Copy.credited (credits : Tbl Nat) (p st : Nat) (c : Copy) : Copy :=
  match c.kind with
  | .linkSend q t k _ f =>
    if q = p ∧ t = st ∧ c.units = 0 ∧ f = false then
      match Tbl.find? credits k with
      | some cap =>
        let n := min c.head.len cap
        { c with kind := .linkSend q t k n f, units := max 1 ((n + 4095) / 4096) }
      | none => c
    else c
  | _ => c

def State.startSends (s : State) (p st : Nat) : State :=
  match s.linkStream p st with
  | some x => { s with copies := Tbl.mapVals (Copy.credited x.credits p st) s.copies }
  | none => s

def linkSendOwner (a b c : BitVec 6) (t : CopyTail) (o : Nat) (s : State) : Eff State := do
  let (x, y, z) ← s.useThree o a b c
  let (pl, ad, p, st) ← s.linkArgs o y z x (2 ^ 64)
  let s1 := s.claimPlace pl
  match s1.linkStream p st with
  | none => .ok s1
  | some q =>
    if !(s1.port p).up then .ok s1
    else
      let cp := s1.newCopy o t true (.linkSend p st q.sends 0 false) [⟨.window 0, 0, pl, ad, z.toNat⟩] 0 (s1.ownPlace o)
      .ok (((s1.setLink2 p st { q with sends := q.sends + 1 }).issueCopy cp).startSends p st)

def execLinkSend (a b c : BitVec 6) (t : CopyTail) (s : State) : Outcome State Fault Refusal :=
  afterChannel s t true (linkSendOwner a b c t)

/-- LINK.RECV posts its destination and sends a credit. -/
def linkRecvOwner (a b c : BitVec 6) (t : CopyTail) (o : Nat) (s : State) : Eff State := do
  let (x, y, z) ← s.useThree o a b c
  let (pl, ad, p, st) ← s.linkArgs o x z y (2 ^ 32 - 16)
  let s1 := s.claimPlace pl
  match s1.linkStream p st with
  | none => .ok s1
  | some q =>
    if !(s1.port p).up then .ok s1
    else
      let id := s1.nextCopy
      let cp := s1.newCopy o t true (.linkRecv p st q.recvs false) [⟨pl, ad, .window 0, 0, z.toNat⟩] (z.toNat / 16)
        (s1.beadPlace o pl ad)
      let s2 := (s1.setLink2 p st { q with recvs := q.recvs + 1, posted := Tbl.insert q.posted q.recvs id,
                                           creditSeq := q.creditSeq + 1 }).issueCopy cp
      .ok (s2.emitTracked p st id ⟨st, q.creditSeq % 2 ^ 32, q.recvs % 2 ^ 32, z.toNat, false, true, true, []⟩)

def execLinkRecv (a b c : BitVec 6) (t : CopyTail) (s : State) : Outcome State Fault Refusal :=
  afterChannel s t true (linkRecvOwner a b c t)

/-! ### Transfers (19 R318, 25 R384) -/

/-- n units of 16 bytes of a place. -/
def State.readPieces (s : State) (p : Place) (a : Dword) : Nat → Eff (List Byte × State)
  | 0 => .ok ([], s)
  | n + 1 =>
    match s.readPlace p a 16 with
    | .error e => .error e
    | .ok (bs, _, t) => (t.readPieces p (a + 16) n).map (fun r => (bs ++ r.1, r.2))

/-- A send transmits its next frame; the frame after its last byte within the receive's capacity is marked LAST, and bytes beyond
the capacity are dropped and logged. -/
def State.sendFrame (s : State) (id : Nat) (c : Copy) (p st k n : Nat) : Eff State :=
  let u := c.done.length
  let len := min 4096 (n - 4096 * u)
  let last := decide (c.units ≤ u + 1)
  match s.linkStream p st with
  | none => .ok s
  | some x =>
    (s.readPieces c.head.srcAt (c.head.src + BitVec.ofNat 64 (4096 * u)) (len / 16)).map (fun r =>
      let t := { r.2 with copies := Tbl.insert r.2.copies id { c with done := u :: c.done } }
      let t1 := (t.setLink2 p st { x with dataSeq := x.dataSeq + 1 }).emitTracked p st id
        ⟨st, x.dataSeq % 2 ^ 32, k % 2 ^ 32, 4096 * u, last, false, true, r.1⟩
      if last && decide (n < c.head.len) then t1.log ⟨t1.time, k, 0, 6, p, c.ctx⟩ else t1)

/-- COPY_UNIT_TRANSFER: unit u of a copy, or the next frame of a send whose credit has arrived. -/
def State.transfer (s : State) (id u : Nat) : State :=
  match Tbl.find? s.copies id with
  | none => s
  | some c =>
    match c.kind with
    | .linkSend p st k n f =>
      if f || decide (c.units ≤ c.done.length) then s
      else match s.sendFrame id c p st k n with
        | .ok t => t
        | .error (.stopped (.wait _)) => s
        | .error (.fault _) => s
        | .error (.stopped (.fatal k a)) => s.endContext c.ctx (BitVec.ofNat 8 (copyCause (.stopped (.fatal k a)))) a
        | .error (.stopped (.trap k a x)) => s.endContext c.ctx (BitVec.ofNat 8 (copyCause (.stopped (.trap k a x)))) a
    | _ => s.transferUnit id u

def execCopyUnitTransfer (copy unit : Nat) (s : State) : Outcome State Fault Refusal := .next (s.transfer copy unit)

/-- COPY_COMPLETION: a copy whose every unit is done completes. -/
def execCopyCompletion (copy : Nat) (s : State) : Outcome State Fault Refusal :=
  .next (match Tbl.find? s.copies copy with
    | some c => if s.copyDone c then s.completeCopy copy else s
    | none => s)

def execMulticastShareWritten (copy share : Nat) (s : State) : Outcome State Fault Refusal := .next (s.tellShare copy share)
def execFeedBlockWrite (tile : Nat) (s : State) : Outcome State Fault Refusal := .next (s.feedBlock tile)
def execRegionFillCompletion (tile line : Nat) (s : State) : Outcome State Fault Refusal := .next (s.fillDone tile line)

/-- PUBLISH_SWAP: the swap a PUBLISH awaits. -/
def execPublishSwap (ctx : Nat) (va : BitVec 64) (s : State) : Outcome State Fault Refusal :=
  .next (match (s.ctx ctx).shadows.find? (fun (x : Shadow) => x.base == va.toNat) with
    | some x => if x.pending.isEmpty then s else s.publishSwap ctx x.base
    | none => s)

/-! ### Frames received (25 R383-R385) -/

/-- Mark a link transfer as settled. -/
def Copy.settle (c : Copy) : Copy :=
  match c.kind with
  | .linkSend p st k n _ => { c with kind := .linkSend p st k n true }
  | .linkRecv p st k _ => { c with kind := .linkRecv p st k true }
  | _ => c

def State.settle (s : State) (id : Nat) : State :=
  match Tbl.find? s.copies id with
  | some c => { s with copies := Tbl.insert s.copies id c.settle }
  | none => s

/-- Write the 16-byte units of a frame at a receive; those beyond its capacity are dropped. None says that memory was not ready. -/
def State.receiveUnits (s : State) (id : Nat) (ofs : Nat) (bytes : List Byte) : Nat → Eff State
  | 0 => .ok s
  | n + 1 =>
    match s.receiveUnits id ofs bytes n with
    | .error e => .error e
    | .ok t =>
      match Tbl.find? t.copies id with
      | none => .ok t
      | some c =>
        let u := ofs / 16 + n
        if c.units ≤ u then .ok t
        else (t.writePlace c.head.dstAt (c.head.dst + BitVec.ofNat 64 (16 * u)) ((bytes.drop (16 * n)).take 16) false).map (fun v =>
          let c1 := { c with done := if c.done.contains u then c.done else u :: c.done }
          ({ v with copies := Tbl.insert v.copies id c1 }).finishLines c1 u)

/-- A data frame in order: written, acknowledged, and the last one settles its receive. -/
def State.acceptData (s : State) (p : Nat) (f : LinkFrame) (x : LinkStream) : State :=
  match Tbl.find? x.posted f.ridx with
  | none => s
  | some id =>
    match s.receiveUnits id f.ofs f.payload (f.payload.length / 16) with
    | .ok t =>
      let y := (t.linkStream p f.stream).getD x
      let t1 := t.setLink2 p f.stream { y with recvData := y.recvData + 1 }
      (if f.last then t1.settle id else t1).acknowledge p f.stream false
    | .error (.stopped (.wait _)) => s
    | .error (.fault _) => s
    | .error (.stopped (.fatal k a)) => s.endContext x.ctx (BitVec.ofNat 8 (copyCause (.stopped (.fatal k a)))) a
    | .error (.stopped (.trap k a y)) => s.endContext x.ctx (BitVec.ofNat 8 (copyCause (.stopped (.trap k a y)))) a

/-- LINK_DATA_FRAME: a frame with a bad check is discarded, a duplicate is discarded and acknowledged again, one out of order is
discarded until those before it have come. -/
def execLinkDataFrame (port : Nat) (f : LinkFrame) (s : State) : Outcome State Fault Refusal :=
  .next (match s.linkStream port f.stream with
    | none => s
    | some x =>
      if !f.good || !(s.port port).up || f.payload.length % 16 != 0 || f.ofs % 16 != 0 then s
      else if f.sq = x.recvData % 2 ^ 32 then s.acceptData port f x
      else s.acknowledge port f.stream false)

/-- Whether a cumulative acknowledgement covers a sequence number, both modulo 2^32. -/
def ackCovers (ack sq : Nat) : Bool := decide ((ack + 2 ^ 32 - sq) % 2 ^ 32 < 2 ^ 31)

/-- LINK_ACK_FRAME: the acknowledgement of LAST completes the send. -/
def execLinkAckFrame (port : Nat) (f : LinkFrame) (s : State) : Outcome State Fault Refusal :=
  .next (match s.linkStream port f.stream with
    | none => s
    | some x =>
      if !f.good || !(s.port port).up then s
      else
        let hit (u : Unacked) : Bool := u.frame.cred == f.cred && ackCovers f.sq u.frame.sq
        let gone := x.unacked.filter hit
        let t := s.setLink2 port f.stream { x with unacked := x.unacked.filter (fun u => !hit u) }
        (gone.filter (fun u => u.frame.last)).foldl (fun v u => v.settle u.copy) t)

/-- LINK_CREDIT_FRAME: a credit in order lets its send go; a duplicate is discarded and acknowledged again. -/
def execLinkCreditFrame (port : Nat) (f : LinkFrame) (s : State) : Outcome State Fault Refusal :=
  .next (match s.linkStream port f.stream with
    | none => s
    | some x =>
      if !f.good || !(s.port port).up then s
      else if f.sq = x.recvCredit % 2 ^ 32 then
        ((s.setLink2 port f.stream { x with recvCredit := x.recvCredit + 1, credits := Tbl.insert x.credits f.ridx f.ofs }).startSends
          port f.stream).acknowledge port f.stream true
      else s.acknowledge port f.stream true)

/-! ### A port that goes down and comes up (25 R385) -/

/-- Whether a copy is a transfer on a port. -/
def Copy.onPort (p : Nat) (c : Copy) : Bool :=
  match c.kind with
  | .linkSend q .. => q == p
  | .linkRecv q .. => q == p
  | _ => false

/-- The port is down: its transfers end as aborted, and the hub posts link-down. Its streams keep their owners and begin anew
(log 48). -/
def State.portDown (s : State) (p : Nat) : State :=
  let ids := (s.copies.filter (fun e => e.2.onPort p)).map Prod.fst
  let s1 := ids.foldl State.stopCopy s
  let x := s1.port p
  (s1.setPort p { x with up := false, streams := Tbl.mapVals (fun (y : LinkStream) => LinkStream.fresh y.ctx) x.streams }).postGlobal
    0x10 [BitVec.ofNat 64 p]

/-- LINK_RETRANSMIT_TIMEOUT: the oldest unacknowledged frame of a port and stream is sent again, at most eight times. -/
def execLinkRetransmitTimeout (port stream : Nat) (s : State) : Outcome State Fault Refusal :=
  .next (match s.linkStream port stream with
    | none => s
    | some x => match x.unacked with
      | [] => s
      | u :: rest =>
        if 8 ≤ u.resent then s.portDown port
        else (s.setLink2 port stream { x with unacked := { u with resent := u.resent + 1 } :: rest }).emit port
          (if u.frame.cred then 3 else 1) u.frame)

/-- Whether the rails of the ports are in range: VCORE of their island, and VIO (27 R399). -/
def State.portRails (s : State) : Bool :=
  !s.power.badRails.any (fun r => match r with
    | .vcore n => n == 63
    | .vio _ => true
    | _ => false)

/-- PORT_UP: the host brings a port up again. -/
def execPortUp (port : Nat) (s : State) : Outcome State Fault Refusal :=
  .next (if port < 12 ∧ s.portRails = true then s.setPort port { s.port port with up := true } else s)

/-- FOREIGN_FRAME: a frame of no kind the ports carry is dropped and counted (25 R382). -/
def execForeignFrame (port : Nat) (s : State) : Outcome State Fault Refusal :=
  .next (if port < 12 then s.setPort port { s.port port with foreign := (s.port port).foreign + 1 } else s)

end Sys2Proof.Machine
end

