-- ==== Sys2Proof/Machine/Groups.lean ====
section
/-! DEFINITION. Groups and runs (01 R18-R22): the registers each instruction reads and writes, the slots it takes on a tile, and
the rules a group and a run keep. -/

namespace Sys2Proof.Machine

open Sys2Proof (Guard)

/-! ### Registers by number -/

/-- s0-s63, v0-v63, p0-p7, w0-w31, k0-k7, then the queues by what pops them. -/
def regS (r : BitVec 6) : Nat := r.toNat
def regV (r : BitVec 6) : Nat := 64 + r.toNat
def regP (n : Nat) : Nat := 128 + n
def regW (r : BitVec 5) : Nat := 136 + r.toNat
def regK (n : Nat) : Nat := 168 + n
def regQ (n : Nat) : Nat := 176 + n

/-- The halves of the pair d(r) (04 R94). -/
def pairRegs (r : BitVec 6) : List Nat := [64 + 2 * r.toNat, 64 + 2 * r.toNat + 1]
/-- v(r) to v(r+n-1) (09 R186). -/
def blockRegs (r : BitVec 6) (n : Nat) : List Nat := (List.range n).map (fun i => 64 + r.toNat + i)
/-- The base of Formats D and T: s(a), or d(a) with lb (04 R101). -/
def laneBaseRegs (a : BitVec 6) (lb : Bool) : List Nat := if lb then pairRegs a else [regS a]
/-- The guard predicate. -/
def guardRegs (g : Guard) : List Nat := [regP g.pg.toNat]

/-- The base and the data register of a MEM instruction that both profiles hold: lane or scalar. -/
def memBase (p : Profile) (a : BitVec 6) (lb : Bool) : List Nat :=
  match p with
  | .raster => laneBaseRegs a lb
  | .tile => [regS a]
def memReg (p : Profile) (d : BitVec 6) : List Nat :=
  match p with
  | .raster => [regV d]
  | .tile => [regS d]
/-- What BRAC tests: s(c), p(c) of a raster core, or an entry of bq, which it pops. -/
def bracReads (p : Profile) (kind : Bool) (c : BitVec 6) : List Nat :=
  if kind then [regS c]
  else match p with
    | .raster => [regP c.toNat]
    | .tile => []
def bracPops (p : Profile) (kind : Bool) : List Nat :=
  if kind then []
  else match p with
    | .raster => []
    | .tile => [regQ 7]

/-- The registers an instruction reads, and those it writes or pops, by the rules of its own entry (01 R20). A texture's operand
block, whose length its descriptor gives, counts by the registers that every descriptor makes it read: one coordinate of TEX.SAMPLE, two
registers of TEX.LOD, TEX.FETCH and TEX.GATHER4, three of TEX.GRAD (09 R192; DEDUCED, log 132). -/
def instrRegs (p : Profile) (i : Instr) : List Nat × List Nat :=
  match i with
  | .brac kind c _ _ => (bracReads p kind c, bracPops p kind)
  | .brx a m => ((if m then pairRegs a else [regS a]), [])
  | .call _ => ([], (match p with | .raster => pairRegs 31 | .tile => [regS 63]))
  | .ret a => ((match p with | .raster => pairRegs a | .tile => [regS a]), [])
  | .loop a _ => ([regS a], [])
  | .voteAny d a _ => ([regP a.toNat], [regS d])
  | .voteAll d a => ([regP a.toNat], [regS d])
  | .barArrive d a _ => ([regS a], [regS d])
  | .barWait d a _ => ([regS a], [regS d])
  | .waitt a _ => ([regS a], [])
  | .chk d a => ((match d.toNat with | 0 => [regS a] | 1 => [regV a] | 2 => pairRegs a | _ => [regW (a.setWidth 5)]), [])
  | .lease d a _ => ([regS a], [regS d])
  | .split d _ => ([], [regS d])
  | .launch d a => ([regS a], [regS d])
  | .reca d a => ([regS a], [regS d])
  | .remit a => ([regS a], [])
  | .rdone a => ([regS a], [])
  | .millCfg d a => ([regS a], [regS d])
  | .millExit d => ([], [regS d])
  | .fsend _ a => ([regV a], [])
  | .fsendNb _ a b => ([regV a], [regP b.toNat])
  | .ftake d _ => ([], [regV d])
  | .sread reg s => ([], (if reg = 0x050 then [regS s, regQ 6] else [regS s]))
  | .swrite _ s => ([regS s], [])
  | .govq d a => ([regS a], [regS d])
  | .govr a _ => ([regS a], [])
  | .add d a b => ([regS a, regS b], [regS d])
  | .addi d a _ => ([regS a], [regS d])
  | .sub d a b => ([regS a, regS b], [regS d])
  | .mul d a b => ([regS a, regS b], [regS d])
  | .mulhI d a b => ([regS a, regS b], [regS d])
  | .mulhN d a b => ([regS a, regS b], [regS d])
  | .divI d a b => ([regS a, regS b], [regS d])
  | .divN d a b => ([regS a, regS b], [regS d])
  | .remI d a b => ([regS a, regS b], [regS d])
  | .remN d a b => ([regS a, regS b], [regS d])
  | .and d a b => ([regS a, regS b], [regS d])
  | .or d a b => ([regS a, regS b], [regS d])
  | .xor d a b => ([regS a, regS b], [regS d])
  | .andi d a _ => ([regS a], [regS d])
  | .ori d a _ => ([regS a], [regS d])
  | .xori d a _ => ([regS a], [regS d])
  | .shl d a b => ([regS a, regS b], [regS d])
  | .shrI d a b => ([regS a, regS b], [regS d])
  | .shrN d a b => ([regS a, regS b], [regS d])
  | .rot d a b => ([regS a, regS b], [regS d])
  | .minI d a b => ([regS a, regS b], [regS d])
  | .minN d a b => ([regS a, regS b], [regS d])
  | .maxI d a b => ([regS a, regS b], [regS d])
  | .maxN d a b => ([regS a, regS b], [regS d])
  | .abs d a => ([regS a], [regS d])
  | .neg d a => ([regS a], [regS d])
  | .cmp d a b _ => ([regS a, regS b], [regS d])
  | .cmpp _ tg a b => ([regS a, regS b], (match p with | .raster => [regP tg.toNat] | .tile => [regS (tg.setWidth 6)]))
  | .sel d a b => ([regS a, regS b, regS d], [regS d])
  | .mov d a => ([regS a], [regS d])
  | .movi d _ => ([], [regS d])
  | .movh d a _ => ([regS a], [regS d])
  | .lea d a b _ => ([regS a, regS b], [regS d])
  | .popc d a => ([regS a], [regS d])
  | .clz d a => ([regS a], [regS d])
  | .ctz d a => ([regS a], [regS d])
  | .bfxI d a b => ([regS a, regS b], [regS d])
  | .bfxN d a b => ([regS a, regS b], [regS d])
  | .bfi d a b => ([regS a, regS b, regS d], [regS d])
  | .brev d a => ([regS a], [regS d])
  | .mad d a b => ([regS a, regS b, regS d], [regS d])
  | .addsI d a b => ([regS a, regS b], [regS d])
  | .addsN d a b => ([regS a, regS b], [regS d])
  | .subsI d a b => ([regS a, regS b], [regS d])
  | .subsN d a b => ([regS a, regS b], [regS d])
  | .mbx d a _ => ([regS a], [regS d])
  | .time d => ([], [regS d])
  | .wid d _ => ([], [regS d])
  | .iadd g d a b _ => ([regV a, regV b] ++ guardRegs g, [regV d])
  | .iaddi g d a _ => ([regV a] ++ guardRegs g, [regV d])
  | .isub g d a b _ => ([regV a, regV b] ++ guardRegs g, [regV d])
  | .imul g d a b => ([regV a, regV b] ++ guardRegs g, [regV d])
  | .imad g d a b => ([regV a, regV b, regV d] ++ guardRegs g, [regV d])
  | .imulhI g d a b => ([regV a, regV b] ++ guardRegs g, [regV d])
  | .imulhN g d a b => ([regV a, regV b] ++ guardRegs g, [regV d])
  | .iminI g d a b => ([regV a, regV b] ++ guardRegs g, [regV d])
  | .iminN g d a b => ([regV a, regV b] ++ guardRegs g, [regV d])
  | .imaxI g d a b => ([regV a, regV b] ++ guardRegs g, [regV d])
  | .imaxN g d a b => ([regV a, regV b] ++ guardRegs g, [regV d])
  | .iand g d a b => ([regV a, regV b] ++ guardRegs g, [regV d])
  | .ior g d a b => ([regV a, regV b] ++ guardRegs g, [regV d])
  | .ixor g d a b => ([regV a, regV b] ++ guardRegs g, [regV d])
  | .ishl g d a b => ([regV a, regV b] ++ guardRegs g, [regV d])
  | .ishrI g d a b => ([regV a, regV b] ++ guardRegs g, [regV d])
  | .ishrN g d a b => ([regV a, regV b] ++ guardRegs g, [regV d])
  | .ibfxI g d a b => ([regV a, regV b] ++ guardRegs g, [regV d])
  | .ibfxN g d a b => ([regV a, regV b] ++ guardRegs g, [regV d])
  | .ibfi g d a b => ([regV a, regV b, regV d] ++ guardRegs g, [regV d])
  | .ipopc g d a => ([regV a] ++ guardRegs g, [regV d])
  | .iclz g d a => ([regV a] ++ guardRegs g, [regV d])
  | .icmp g _ tg a b => ([regV a, regV b] ++ guardRegs g, [regP tg.toNat])
  | .isel g d a b => ([regV a, regV b, regV d] ++ guardRegs g, [regV d])
  | .imov g d a => ([regV a] ++ guardRegs g, [regV d])
  | .imovi g d _ => (guardRegs g, [regV d])
  | .idot4I8 g d a b _ => ([regV a, regV b, regV d] ++ guardRegs g, [regV d])
  | .idot4N8 g d a b _ => ([regV a, regV b, regV d] ++ guardRegs g, [regV d])
  | .faddF32 g d a b => ([regV a, regV b] ++ guardRegs g, [regV d])
  | .fmulF32 g d a b => ([regV a, regV b] ++ guardRegs g, [regV d])
  | .ffmaF32 g d a b => ([regV a, regV b, regV d] ++ guardRegs g, [regV d])
  | .fminF32 g d a b _ => ([regV a, regV b] ++ guardRegs g, [regV d])
  | .fmaxF32 g d a b _ => ([regV a, regV b] ++ guardRegs g, [regV d])
  | .fcmpF32 g _ tg a b => ([regV a, regV b] ++ guardRegs g, [regP tg.toNat])
  | .frndF32 g d a _ => ([regV a] ++ guardRegs g, [regV d])
  | .frcp g d a => ([regV a] ++ guardRegs g, [regV d])
  | .frsq g d a => ([regV a] ++ guardRegs g, [regV d])
  | .fsqrt g d a => ([regV a] ++ guardRegs g, [regV d])
  | .fexp2 g d a => ([regV a] ++ guardRegs g, [regV d])
  | .flog2 g d a => ([regV a] ++ guardRegs g, [regV d])
  | .fsin g d a => ([regV a] ++ guardRegs g, [regV d])
  | .fcos g d a => ([regV a] ++ guardRegs g, [regV d])
  | .faddH2 g d a b => ([regV a, regV b] ++ guardRegs g, [regV d])
  | .fmulH2 g d a b => ([regV a, regV b] ++ guardRegs g, [regV d])
  | .ffmaH2 g d a b => ([regV a, regV b, regV d] ++ guardRegs g, [regV d])
  | .faddB2 g d a b => ([regV a, regV b] ++ guardRegs g, [regV d])
  | .fmulB2 g d a b => ([regV a, regV b] ++ guardRegs g, [regV d])
  | .ffmaB2 g d a b => ([regV a, regV b, regV d] ++ guardRegs g, [regV d])
  | .cvtF32I32 g d a => ([regV a] ++ guardRegs g, [regV d])
  | .cvtF32N32 g d a => ([regV a] ++ guardRegs g, [regV d])
  | .cvtI32F32 g d a _ => ([regV a] ++ guardRegs g, [regV d])
  | .cvtN32F32 g d a _ => ([regV a] ++ guardRegs g, [regV d])
  | .cvtF32H2 g d a _ => ([regV a] ++ guardRegs g, [regV d])
  | .cvtH2F32 g d a b => ([regV a, regV b] ++ guardRegs g, [regV d])
  | .cvtF32B2 g d a _ => ([regV a] ++ guardRegs g, [regV d])
  | .cvtB2F32 g d a b => ([regV a, regV b] ++ guardRegs g, [regV d])
  | .cvtF32E4m3 g d a _ => ([regV a] ++ guardRegs g, [regV d])
  | .cvtE4m3F32 g d a _ => ([regV a] ++ guardRegs g, [regV d])
  | .cvtF32E5m2 g d a _ => ([regV a] ++ guardRegs g, [regV d])
  | .cvtE5m2F32 g d a _ => ([regV a] ++ guardRegs g, [regV d])
  | .shflIdx g d a b => ([regV a, regV b] ++ guardRegs g, [regV d])
  | .shflXor g d a _ => ([regV a] ++ guardRegs g, [regV d])
  | .s2v g d a _ => ([regS a] ++ guardRegs g, [regV d])
  | .v2s g d a _ m => (guardRegs g ++ (if m then pairRegs a else [regV a]), [regS d])
  | .ld8 g d a lb _ => (guardRegs g ++ laneBaseRegs a lb, [regV d])
  | .ld16 g d a lb _ => (guardRegs g ++ laneBaseRegs a lb, [regV d])
  | .ld32 g d a lb _ => (guardRegs g ++ laneBaseRegs a lb, [regV d])
  | .ld64 g d a lb _ => (guardRegs g ++ laneBaseRegs a lb, pairRegs d)
  | .ld128 g d a lb _ => (guardRegs g ++ laneBaseRegs a lb, pairRegs d ++ pairRegs (d + 1))
  | .ldx g d a lb _ => (guardRegs g ++ laneBaseRegs a lb, [regV d])
  | .ldro g d a lb _ => (guardRegs g ++ laneBaseRegs a lb, [regV d])
  | .st8 g d a lb _ => ([regV d] ++ guardRegs g ++ laneBaseRegs a lb, [])
  | .st16 g d a lb _ => ([regV d] ++ guardRegs g ++ laneBaseRegs a lb, [])
  | .st32 g d a lb _ => ([regV d] ++ guardRegs g ++ laneBaseRegs a lb, [])
  | .st64 g d a lb _ => (guardRegs g ++ pairRegs d ++ laneBaseRegs a lb, [])
  | .st128 g d a lb _ => (guardRegs g ++ pairRegs d ++ pairRegs (d + 1) ++ laneBaseRegs a lb, [])
  | .stx g d a lb _ => ([regV d] ++ guardRegs g ++ laneBaseRegs a lb, [])
  | .lds g d a lb _ => (guardRegs g ++ memBase p a lb, memReg p d)
  | .sts g d a lb _ => (guardRegs g ++ memBase p a lb ++ memReg p d, [])
  | .atomAdd g d a b lb _ _ _ _ => ([regV b] ++ guardRegs g ++ laneBaseRegs a lb, [regV d])
  | .atomMin g d a b lb _ _ _ _ => ([regV b] ++ guardRegs g ++ laneBaseRegs a lb, [regV d])
  | .atomMax g d a b lb _ _ _ _ => ([regV b] ++ guardRegs g ++ laneBaseRegs a lb, [regV d])
  | .atomAnd g d a b lb _ _ _ _ => ([regV b] ++ guardRegs g ++ laneBaseRegs a lb, [regV d])
  | .atomOr g d a b lb _ _ _ _ => ([regV b] ++ guardRegs g ++ laneBaseRegs a lb, [regV d])
  | .atomXor g d a b lb _ _ _ _ => ([regV b] ++ guardRegs g ++ laneBaseRegs a lb, [regV d])
  | .atomXchg g d a b lb _ _ _ _ => ([regV b] ++ guardRegs g ++ laneBaseRegs a lb, [regV d])
  | .atomCas g d a b lb _ _ _ _ => ([regV b, regV d] ++ guardRegs g ++ laneBaseRegs a lb, [regV d])
  | .atomFadd g d a b lb _ _ _ _ => ([regV b] ++ guardRegs g ++ laneBaseRegs a lb, [regV d])
  | .atomsAdd g d a b lb _ _ _ _ => (guardRegs g ++ memBase p a lb ++ memReg p b, memReg p d)
  | .atomsCas g d a b lb _ _ _ _ => (guardRegs g ++ memBase p a lb ++ memReg p b ++ memReg p d, memReg p d)
  | .probe g a b m => (guardRegs g ++ (if m then regV b :: pairRegs a else [regS a, regS b]), [])
  | .ldq g _ a _ _ => (guardRegs g ++ [regS a], [])
  | .stq g d a _ _ => (guardRegs g ++ [regS a], [regQ d.toNat])
  | .lda g d a lb _ => (guardRegs g ++ memBase p a lb, memReg p d)
  | .sta g d a lb _ => (guardRegs g ++ memBase p a lb ++ memReg p d, [])
  | .cwb g a b m => (guardRegs g ++ (if m then regV b :: pairRegs a else [regS a, regS b]), [])
  | .cinv g a b m => (guardRegs g ++ (if m then regV b :: pairRegs a else [regS a, regS b]), [])
  | .icinv g a b m => (guardRegs g ++ (if m then regV b :: pairRegs a else [regS a, regS b]), [])
  | .invRo g => (guardRegs g, [])
  | .tagset g a lb _ => (guardRegs g ++ laneBaseRegs a lb, [])
  | .tagget g d a lb _ => (guardRegs g ++ laneBaseRegs a lb, [regV d])
  | .pres g d a lb _ => (guardRegs g ++ memBase p a lb, (match p with | .raster => [regP d.toNat] | .tile => [regS d]))
  | .ldS g d a lb _ => (guardRegs g ++ memBase p a lb, (match p with | .raster => pairRegs d | .tile => [regS d]))
  | .atomInc g d a b lb _ _ _ _ => ([regV b] ++ guardRegs g ++ laneBaseRegs a lb, [regV d])
  | .meshOut g d a b => ([regV d, regV b] ++ guardRegs g ++ blockRegs a 4, [])
  | .meshPrim g d a => ([regV d, regV a] ++ guardRegs g, [])
  | .meshDone g a b => ([regS a, regS b] ++ guardRegs g, [])
  | .rastBind g a _ => ([regS a] ++ guardRegs g, [])
  | .pixIn g d _ => (guardRegs g, [regV d])
  | .pixBary g d _ _ => (guardRegs g, [regV d])
  | .pixDiscard g => (guardRegs g, [])
  | .omWrite g a _ => (guardRegs g ++ blockRegs a 4, [])
  | .omDepth g a => ([regV a] ++ guardRegs g, [])
  | .guideOut g a => (guardRegs g ++ blockRegs a 4, [])
  | .texSample g d a b => ([regV a, regS b] ++ guardRegs g, blockRegs d 4)
  | .texLod g d a b => (blockRegs a 2 ++ [regS b] ++ guardRegs g, blockRegs d 4)
  | .texGrad g d a b => (blockRegs a 3 ++ [regS b] ++ guardRegs g, blockRegs d 4)
  | .texFetch g d a b => (blockRegs a 2 ++ [regS b] ++ guardRegs g, blockRegs d 4)
  | .texGather4 g d a b => (blockRegs a 2 ++ [regS b] ++ guardRegs g, blockRegs d 4)
  | .texQuery g d a _ => ([regS a] ++ guardRegs g, [regV d])
  | .rayBox g d a b => (guardRegs g ++ blockRegs a 12 ++ pairRegs b, blockRegs d 5)
  | .rayTri g d a b => (guardRegs g ++ blockRegs a 12 ++ pairRegs b, blockRegs d 4)
  | .rayInit g d a => (guardRegs g ++ blockRegs a 8, blockRegs d 12)
  | .rayXform g d a b m => (guardRegs g ++ blockRegs a 12 ++ (if m then pairRegs b else [regS b]), blockRegs d 12)
  | .rayStkPush g d a => ([regV a] ++ guardRegs g ++ blockRegs d 6, blockRegs d 6)
  | .rayStkPop g d a => (guardRegs g ++ blockRegs a 6, [regV d] ++ blockRegs a 6)
  | .rayHit g d a => (guardRegs g ++ blockRegs a 4 ++ blockRegs d 12, [regV (d + 7), regV (d + 11)])
  | .imgLd g d a lb _ => (guardRegs g ++ laneBaseRegs a lb, blockRegs d 4)
  | .imgSt g d a lb _ => (guardRegs g ++ blockRegs d 4 ++ laneBaseRegs a lb, [])
  | .quadSwz g d a _ => ([regV a] ++ guardRegs g, [regV d])
  | .quadDeriv g d a _ => ([regV a] ++ guardRegs g, [regV d])
  | .cpyLin a b c _ _ => ([regS a, regS b, regS c], [])
  | .cpyTen a b c _ _ _ => ([regS a, regS b, regS c, regS (c + 1), regS (c + 2), regS (c + 3)], [])
  | .cpyMc a b c _ _ => ([regS a, regS b, regS c], [])
  | .cpyCol a b c _ => ([regS a, regS b, regS c], [])
  | .cpyFill a c _ => ([regS a, regS c], [])
  | .cpyTs a b c _ _ _ _ => ([regS a, regS b, regS c], [])
  | .cpyFeed a b c _ _ _ => ([regS a, regS b, regS c], [])
  | .publish a _ => ([regS a], [])
  | .shadow a b _ => ([regS a, regS b], [])
  | .semSig a b _ _ => ([regS a, regS b], [])
  | .semWait a b _ _ => ([regS a, regS b], [])
  | .semTry a b c _ _ => ([regS a, regS b], [regS c])
  | .semSet a b _ _ => ([regS a, regS b], [])
  | .semRead a c _ _ => ([regS a], [regS c])
  | .push a b c _ _ _ => ([regS a, regS b, regS c], [])
  | .shape a _ _ => ([regS a], [])
  | .mapSet a b _ _ => ([regS a, regS b], [])
  | .cpyRed a b c _ _ _ => ([regS a, regS b, regS c], [])
  | .cpyGath a b c _ _ => ([regS a, regS b, regS c, regS (c + 1)], [])
  | .cpyScat a b c _ _ => ([regS a, regS b, regS c, regS (c + 1)], [])
  | .guideBind a b c _ => ([regS a, regS b, regS c], [])
  | .linkSend a b c _ => ([regS a, regS b, regS c], [])
  | .linkRecv a b c _ => ([regS a, regS b, regS c], [])
  | .cpyHost a b c _ _ => ([regS a, regS b, regS c], [])
  | .vadd d a b k _ => ([regK k.toNat, regW a, regW b], [regW d])
  | .vsub d a b k _ => ([regK k.toNat, regW a, regW b], [regW d])
  | .vmul d a b k _ => ([regK k.toNat, regW a, regW b], [regW d])
  | .vfma d a b k _ => ([regK k.toNat, regW a, regW b, regW d], [regW d])
  | .vmin d a b k _ => ([regK k.toNat, regW a, regW b], [regW d])
  | .vmax d a b k _ => ([regK k.toNat, regW a, regW b], [regW d])
  | .vabs d a k _ => ([regK k.toNat, regW a], [regW d])
  | .vneg d a k _ => ([regK k.toNat, regW a], [regW d])
  | .vcmp _ a b k => ([regW a, regW b], [regK k.toNat])
  | .vsel d a b k _ => ([regK k.toNat, regW a, regW b], [regW d])
  | .vand d a b k _ => ([regK k.toNat, regW a, regW b], [regW d])
  | .vor d a b k _ => ([regK k.toNat, regW a, regW b], [regW d])
  | .vxor d a b k _ => ([regK k.toNat, regW a, regW b], [regW d])
  | .vshl d a b k _ => ([regK k.toNat, regW a, regW b], [regW d])
  | .vshrI d a b k _ => ([regK k.toNat, regW a, regW b], [regW d])
  | .vshrN d a b k _ => ([regK k.toNat, regW a, regW b], [regW d])
  | .vmov d a k _ => ([regK k.toNat, regW a], [regW d])
  | .vbcast d a _ k _ => ([regK k.toNat, regW a], [regW d])
  | .vrcp d a k _ => ([regK k.toNat, regW a], [regW d])
  | .vrsq d a k _ => ([regK k.toNat, regW a], [regW d])
  | .vexp2 d a k _ => ([regK k.toNat, regW a], [regW d])
  | .vlog2 d a k _ => ([regK k.toNat, regW a], [regW d])
  | .vtbli d a b k _ => ([regK k.toNat, regW a, regW b], [regW d])
  | .vtbll a _ => ([regW a], [])
  | .vrmax d a k => ([regK k.toNat, regW a], [regW d])
  | .vradd d a k => ([regK k.toNat, regW a], [regW d])
  | .vamax d a k => ([regK k.toNat, regW a], [regW d])
  | .vqnt d a _ k _ => ([regK k.toNat, regW a], [regW d])
  | .vdqnt d a _ k _ => ([regK k.toNat, regW a], [regW d])
  | .vcvt d a _ k _ => ([regK k.toNat, regW a], [regW d])
  | .vperm d a b k _ => ([regK k.toNat, regW a, regW b], [regW d])
  | .vslide d a _ k _ => ([regK k.toNat, regW a], [regW d])
  | .vpop d a => ([], [regW d, regQ a.toNat])
  | .vpush _ a => ([regW a], [])
  | .vpopk d a => ([], [regK d.toNat, regQ a.toNat])
  | .vpushs d a k => ((if d = 7 then [regK k.toNat] else [regW a]), [])
  | .vshape _ a _ _ m => ((if m then [regW a] else []), [])
  | .vrot d a _ k _ => ([regK k.toNat, regW a], [regW d])
  | .vscale d a b k _ => ([regK k.toNat, regW a, regW b], [regW d])
  | .vrnd d a _ k _ => ([regK k.toNat, regW a], [regW d])
  | .vsqrt d a k _ => ([regK k.toNat, regW a], [regW d])
  | .vmadI d a b k _ => ([regK k.toNat, regW a, regW b, regW d], [regW d])
  | .vsat d a _ k _ => ([regK k.toNat, regW a], [regW d])
  | .vpsum d a k _ => ([regK k.toNat, regW a], [regW d])
  | .vclamp d a b k _ => ([regK k.toNat, regW a, regW b, regW d], [regW d])
  | .vfrac d a k _ => ([regK k.toNat, regW a], [regW d])
  | .vcbk a => ([regW a], [])
  | .vkmov _ t a b => ([regK a.toNat, regK b.toNat], [regK t.toNat])
  | _ => ([], [])

/-- A write to p0, s0 or k0 is discarded and does not count (01 R20). -/
def realWrites (ws : List Nat) : List Nat := ws.filter (fun r => r != 0 && r != 128 && r != 168)

/-- Whether two instructions of a group break R20. -/
def regsClash (p : Profile) (x y : Instr) : Bool :=
  let a := instrRegs p x
  let b := instrRegs p y
  let wa := realWrites a.2
  let wb := realWrites b.2
  wa.any (fun r => wb.contains r || b.1.contains r) || wb.any (fun r => a.1.contains r)

/-! ### Slots (01 R18, R19) -/

/-- The class an instruction issues under; an event has none. -/
def instrClass (i : Instr) : Nat :=
  match i.code with
  | some (c, _) => c.toNat
  | none => 8

/-- LAN, MEM and GFX issue per lane (01 R13). -/
def instrLane (i : Instr) : Bool := instrClass i == 2 || instrClass i == 5 || instrClass i == 7
/-- CTL, SCL, MEM and CPY are the access side of a tile. -/
def instrAccess (i : Instr) : Bool := instrClass i == 0 || instrClass i == 1 || instrClass i == 5 || instrClass i == 6

/-- The slots of the execute side. -/
inductive VecSlot where
  | ab
  | b
  | x
  | q
  | port
  | mat
  | none
deriving DecidableEq, Repr

/-- The slot of an execute instruction. -/
def instrSlot (i : Instr) : VecSlot :=
  match i with
  | .vadd .. | .vsub .. | .vmul .. | .vfma .. | .vmin .. | .vmax .. | .vabs .. | .vneg .. | .vcmp .. | .vsel ..
  | .vand .. | .vor .. | .vxor .. | .vshl .. | .vshrI .. | .vshrN .. | .vmov .. | .vmadI .. | .vclamp .. | .vfrac .. => .ab
  | .vrcp .. | .vrsq .. | .vexp2 .. | .vlog2 .. | .vsqrt .. => .b
  | .vrmax .. | .vradd .. | .vamax .. | .vtbli .. | .vtbll _ _ | .vperm .. | .vslide .. | .vrot .. | .vbcast ..
  | .vpsum .. => .x
  | .vqnt .. | .vdqnt .. | .vcvt .. | .vrnd .. | .vsat .. | .vscale .. | .vcbk _ => .q
  | .vpop _ _ | .vpush _ _ | .vpopk _ _ | .vpushs .. | .vshape .. | .vkmov .. => .port
  | _ => if instrClass i == 4 then .mat else .none

/-- Slots A and B taken by a group's instructions, in word order; none where one finds its slot taken. -/
def takeAB : List VecSlot → Bool → Bool → Option (Bool × Bool)
  | [], a, b => some (a, b)
  | .ab :: rest, a, b => if !a then takeAB rest true b else if !b then takeAB rest a true else none
  | .b :: rest, a, b => if !b then takeAB rest a true else none
  | _ :: rest, a, b => takeAB rest a b

/-- How many of a group's slots are `w`. -/
def slotCount (l : List VecSlot) (w : VecSlot) : Nat := (l.filter (fun y => y == w)).length

/-- The classes and slots of a tile group (01 R19). -/
def tileSlotsOk (is : List Instr) : Bool :=
  let acc := is.filter instrAccess
  let ss := is.map instrSlot
  decide (acc.length ≤ 2) && decide ((acc.filter (fun i => instrClass i == 0)).length ≤ 1)
    && (takeAB ss false false).isSome && decide (slotCount ss .x ≤ 1) && decide (slotCount ss .q ≤ 1)
    && decide (slotCount ss .port ≤ 1) && decide (slotCount ss .mat ≤ 1)

/-- The classes of a raster group (01 R18). -/
def rasterSlotsOk (is : List Instr) : Bool :=
  let lanes := (is.filter instrLane).length
  decide (lanes ≤ 1) && decide (is.length - lanes ≤ 1)

/-! ### Runs (01 R21, R22, 03 R68) -/

/-- Instructions that must end a run. -/
def mustEnd (i : Instr) : Bool :=
  match i with
  | .bra .. | .brac .. | .brx .. | .call .. | .ret .. | .exit | .yield | .trap .. => true
  | _ => false

/-- What the last instruction of a loop body may not be (03 R68). -/
def neverLast (i : Instr) : Bool :=
  match i with
  | .bra .. | .brac .. | .brx .. | .call .. | .ret .. | .loop .. | .loopi .. | .exit | .yield | .trap .. => true
  | _ => false

/-- Whether an instruction breaks a rule of its group or run, after the instructions before it in the group (01 R18-R22):
`before` instructions stand in the run ahead of it, and `last` says that it ends the body of an active loop level. -/
def breaksRules (p : Profile) (earlier : List Instr) (it : Item) (before : Nat) (last : Bool) : Bool :=
  let slotsOk := match p with
    | .raster => rasterSlotsOk (earlier ++ [it.instr])
    | .tile => tileSlotsOk (earlier ++ [it.instr])
  (it.runEnd && !it.stop) || !slotsOk || earlier.any (fun x => regsClash p x it.instr) || decide (24 ≤ before)
    || (mustEnd it.instr && !it.runEnd) || (last && (!it.runEnd || neverLast it.instr))

end Sys2Proof.Machine
end

