-- ==== Sys2Proof/Machine/Vector.lean ====
section
/-! DEFINITION. The vector engine, class VEC (16 R269-R288). A meaning reads its sources and the shape at issue and puts its
results in flight; they land a fixed number of execute cycles later (16 R273). -/

namespace Sys2Proof.Machine

open Host (Outcome)

/-! ### The shape and the register file (16 R270, R271, R274) -/

/-- TYPE and COUNT of the shape register. -/
def shapeType (sh : Dword) : Nat := (sh.extractLsb' 10 5).toNat
def shapeCount (sh : Dword) : Nat := (sh.extractLsb' 0 9).toNat

/-- The shape register with TYPE, COUNT and ROT, and rotation base zero (16 R288). -/
def shapeWord (ty count : Nat) (rot : Bool) : Dword := BitVec.ofNat 64 ((if rot then 2 ^ 15 else 0) + ty * 2 ^ 10 + count)

/-- Elements of a 2048-bit register of a type. -/
def typeElems (ty : Nat) : Nat := 2048 / codeWidth ty

/-- Kinds of TYPE (16 R272). -/
def typeIsFloat (ty : Nat) : Bool := decide (1 ≤ ty) && decide (ty ≤ 3)
def typeIsByte (ty : Nat) : Bool := ty == 4 || ty == 5

/-- The floating format of a floating TYPE. -/
def typeFmt (ty : Nat) : FFmt := (codeFmt ty).getD fmtFP32

/-- w(r) as read at issue. -/
def Stream.wreg (st : Stream) (r : BitVec 5) : Tagged 2048 := Tbl.getD st.w (st.phys r.toNat) (.zero 2048)

/-- k(k); k0 reads all ones. -/
def Stream.mask (st : Stream) (k : Nat) : BitVec 256 := if k = 0 then BitVec.allOnes 256 else Tbl.getD st.k k 0

/-- Element i is active under a mask (16 R271). -/
def Stream.active (st : Stream) (k i : Nat) : Bool := decide (i < shapeCount st.shape) && (st.mask k).getLsbD i

/-- Element i of a register in elements of w bits. -/
def elemAt (w : Nat) (v : Nat) (i : Nat) : Nat := v / 2 ^ (w * i) % 2 ^ w

/-- The elements of a register. -/
def elemsOf (w : Nat) (v : Nat) : List Nat := (List.range (2048 / w)).map (elemAt w v)

/-- Pack results of w bits: the value, and the bits written. An element that is none is not written. -/
def packElems (w : Nat) : List (Option Nat) → Nat × Nat
  | [] => (0, 0)
  | x :: rest =>
    let r := packElems w rest
    match x with
    | some v => (v % 2 ^ w + 2 ^ w * r.1, 2 ^ w - 1 + 2 ^ w * r.2)
    | none => (2 ^ w * r.1, 2 ^ w * r.2)

/-- Pack a list of elements whole. -/
def packAll (w : Nat) (xs : List Nat) : Nat := (packElems w (xs.map some)).1

/-! ### Results in flight (16 R273) -/

/-- Execute cycles until a result lands, by slot. -/
def latencyAB : Nat := 4
def latencyX : Nat := 6
def latencyPort : Nat := 2

/-- Put something in flight. -/
def State.fly (s : State) (t lat : Nat) (x : Landing) : State :=
  s.setStream t (fun (st : Stream) => { st with flying := st.flying ++ [⟨st.cycle + lat, x⟩] })

/-- A result for w(d), its physical register chosen now. -/
def State.flyReg (s : State) (t lat : Nat) (d : BitVec 5) (v bits : Nat) : State :=
  s.setStream t (fun (st : Stream) => { st with flying := st.flying ++ [⟨st.cycle + lat, .reg (st.phys d.toNat) v none bits⟩] })

/-- Poison for w(d). -/
def State.flyPoison (s : State) (t lat : Nat) (d : BitVec 5) (k : BitVec 3) : State :=
  s.setStream t (fun (st : Stream) =>
    { st with flying := st.flying ++ [⟨st.cycle + lat, .reg (st.phys d.toNat) 0 (some k) (2 ^ 2048 - 1)⟩] })

/-- What lands. -/
def Stream.land (st : Stream) : Landing → Stream
  | .reg r v p bits =>
    let old := (Tbl.getD st.w r (.zero 2048)).val
    let m : BitVec 2048 := BitVec.ofNat 2048 bits
    let new : Tagged 2048 := match p with
      | some k => ⟨0, some k⟩
      | none => ⟨(old &&& ~~~m) ||| (BitVec.ofNat 2048 v &&& m), none⟩
    { st with w := Tbl.put (.zero 2048) st.w r new }
  | .mask k v => { st with k := Tbl.put 0 st.k k (BitVec.ofNat 256 v) }
  | .latch _ => st

/-- What a latch delivery leaves in the tile's scale latch: the values of the latest delivery (16 R280). -/
def Tile.deliver (x : Tile) : Landing → Tile
  | .latch vs => { x with latch := vs }
  | _ => x

/-- Land everything due at the stream's count, in issue order. -/
def State.landDue (s : State) (t : Nat) : State :=
  let x := s.tile t
  match x.stream with
  | none => s
  | some st =>
    let due := st.flying.filter (fun (f : InFlight) => decide (f.cycle ≤ st.cycle))
    let st1 := due.foldl (fun (u : Stream) f => u.land f.what) { st with flying := st.flying.filter (fun (f : InFlight) => decide (st.cycle < f.cycle)) }
    let x1 := due.foldl (fun (y : Tile) f => y.deliver f.what) x
    s.setTile t { x1 with stream := some st1 }

/-- A counted execute cycle (18 R295). -/
def State.tick (s : State) (t : Nat) : State :=
  (s.setStream t (fun (st : Stream) => { st with cycle := st.cycle + 1 })).landDue t

/-! ### ACR of the execute side (18 R293) -/

/-- The ACR an execute instruction uses. -/
def State.vecAcr (s : State) (t : Nat) : Dword := s.cur.acr.getD (s.acr t)

/-- Raise flags, unless a SWRITE has already replaced what they would stand in: one of a later group, or of the very group that raises
them, wherever its word stands there (DESIGN CHOICE, log 123). -/
def State.vecRaise (s : State) (t : Nat) (f : FFlags) : State := if s.cur.acr.isSome then s else s.raise t f

/-- Rounding mode, flush and overflow choice together. -/
structure VecMode where
  md : FMode
  fz : Bool
  ofs : Bool
deriving DecidableEq, Repr

def State.vecMode (s : State) (t : Nat) : VecMode := ⟨acrMode (s.vecAcr t), acrFz (s.vecAcr t), acrOfs (s.vecAcr t)⟩

/-! ### Forms -/

/-- Which TYPEs an instruction issues under (16 R272): floating, byte floats, integers. -/
structure TypeSet where
  float : Bool
  byte : Bool
  int : Bool
deriving DecidableEq, Repr

def TypeSet.admits (x : TypeSet) (ty : Nat) : Bool :=
  if typeIsFloat ty then x.float else if typeIsByte ty then x.byte else x.int

def typesAll : TypeSet := ⟨true, true, true⟩
def typesNumber : TypeSet := ⟨true, false, true⟩
def typesFloat : TypeSet := ⟨true, false, false⟩

/-- Act for each stream whose TYPE an instruction admits; bad-format otherwise. -/
def forStreams (s : State) (ts : TypeSet) (f : Nat → Stream → State → Eff State) : Outcome State Fault Refusal :=
  conclude s (forOwners s (fun t u => match (u.tile t).stream with
    | none => .ok u
    | some st => if ts.admits (shapeType st.shape) then f t st u else trapWith causeBadFormat 0))

/-- The first poisoned source, in the order a, b, d (14 R241). -/
def Stream.poisoned (st : Stream) (rs : List (BitVec 5)) : Option (BitVec 3) := rs.findSome? (fun r => (st.wreg r).poison)

/-- A register that may not be poisoned (16 R275). -/
def State.useW (s : State) (t : Nat) (st : Stream) (r : BitVec 5) : Eff Nat :=
  match (st.wreg r).poison with
  | some k => poisonTrap s causePoisonUse t k
  | none => .ok (st.wreg r).val.toNat

/-- Write active results, keeping or clearing the others; poison where a source is poisoned (16 R271, R275). `res` gives the
result of each element of the destination's type `ty`. -/
def vecWrite (d : BitVec 5) (k : Nat) (m : Bool) (lat ty : Nat) (srcs : List (BitVec 5)) (t : Nat) (st : Stream)
    (res : Nat → Nat × FFlags) (s : State) : State :=
  match st.poisoned srcs with
  | some p => s.flyPoison t lat d p
  | none =>
    let out := (List.range (typeElems ty)).map (fun i =>
      if st.active k i then (some (res i).1, (res i).2) else (if m then some 0 else none, FFlags.none))
    let r := packElems (codeWidth ty) (out.map Prod.fst)
    (s.flyReg t lat d r.1 r.2).vecRaise t ((out.map Prod.snd).foldl FFlags.or FFlags.none)

/-- Element-wise work on up to three source registers under TYPE. -/
def vecMap (ts : TypeSet) (d : BitVec 5) (k : BitVec 3) (m : Bool) (lat : Nat) (srcs : List (BitVec 5))
    (f : VecMode → Nat → List Nat → Nat × FFlags) (s : State) : Outcome State Fault Refusal :=
  forStreams s ts (fun t st u =>
    let ty := shapeType st.shape
    let w := codeWidth ty
    let vals := srcs.map (fun r => (st.wreg r).val.toNat)
    .ok (vecWrite d k.toNat m lat ty srcs t st (fun i => f (u.vecMode t) ty (vals.map (fun v => elemAt w v i))) u))

/-- Write a whole register, or poison where a source is poisoned. -/
def vecWhole (d : BitVec 5) (lat : Nat) (srcs : List (BitVec 5)) (t : Nat) (st : Stream) (r : Nat × FFlags) (s : State) : State :=
  match st.poisoned srcs with
  | some p => s.flyPoison t lat d p
  | none => (s.flyReg t lat d r.1 (2 ^ 2048 - 1)).vecRaise t r.2

/-! ### Element computations (16 R276, R277) -/

def arg (xs : List Nat) (i : Nat) : Nat := xs.getD i 0

/-- An element as an integer of its TYPE. -/
def typeInt (ty : Nat) (x : Nat) : Int := intVal (codeSigned ty) (codeWidth ty) x

/-- A floating rule, and a wrapped integer rule. -/
def byKind (fl : FFmt → Nat × FFlags) (int : Int) (ty : Nat) : Nat × FFlags :=
  if typeIsFloat ty then fl (typeFmt ty) else (intCode (codeWidth ty) int, {})

def elemAdd (e : VecMode) (ty : Nat) (x : List Nat) : Nat × FFlags :=
  byKind (fun f => addIn f e.md e.fz (arg x 0) (arg x 1)) (typeInt ty (arg x 0) + typeInt ty (arg x 1)) ty
def elemSub (e : VecMode) (ty : Nat) (x : List Nat) : Nat × FFlags :=
  byKind (fun f => fresult f e.md e.fz (FVal.add e.md (fsource f e.fz (arg x 0)) (fsource f e.fz (arg x 1)).neg))
    (typeInt ty (arg x 0) - typeInt ty (arg x 1)) ty
def elemMul (e : VecMode) (ty : Nat) (x : List Nat) : Nat × FFlags :=
  byKind (fun f => mulIn f e.md e.fz (arg x 0) (arg x 1)) (typeInt ty (arg x 0) * typeInt ty (arg x 1)) ty
def elemFma (e : VecMode) (ty : Nat) (x : List Nat) : Nat × FFlags :=
  byKind (fun f => fmaIn f e.md e.fz (arg x 0) (arg x 1) (arg x 2))
    (typeInt ty (arg x 2) + typeInt ty (arg x 0) * typeInt ty (arg x 1)) ty

/-- Minimum or maximum of two elements of a TYPE. -/
def elemPick (isMax fz : Bool) (ty a b : Nat) : Nat :=
  if typeIsFloat ty then fminmax (typeFmt ty) isMax false fz a b
  else if decide (typeInt ty a < typeInt ty b) == isMax then b else a

def elemMin (e : VecMode) (ty : Nat) (x : List Nat) : Nat × FFlags := (elemPick false e.fz ty (arg x 0) (arg x 1), {})
def elemMax (e : VecMode) (ty : Nat) (x : List Nat) : Nat × FFlags := (elemPick true e.fz ty (arg x 0) (arg x 1), {})
def elemClamp (e : VecMode) (ty : Nat) (x : List Nat) : Nat × FFlags :=
  (elemPick false e.fz ty (elemPick true e.fz ty (arg x 2) (arg x 0)) (arg x 1), {})
def elemAbs (e : VecMode) (ty : Nat) (x : List Nat) : Nat × FFlags :=
  byKind (fun f => ((fround f .rne false (fsource f e.fz (arg x 0)).abs).1, {})) (typeInt ty (arg x 0)).natAbs ty
def elemNeg (e : VecMode) (ty : Nat) (x : List Nat) : Nat × FFlags :=
  byKind (fun f => ((fround f .rne false (fsource f e.fz (arg x 0)).neg).1, {})) (-(typeInt ty (arg x 0))) ty

/-- VFRAC of a value (16 R276). -/
def fracOf (f : FFmt) (fz : Bool) (x : FVal) : Nat × FFlags :=
  match x with
  | .nan => (f.nan, {})
  | .inf _ => (f.nan, { iv := true })
  | .fin s m e =>
    if m = 0 then (0, {})
    else
      let r := fround f .rne fz (FVal.add .rne x (FVal.ofInt (-(FVal.floorInt s m e)))).1
      let one := f.bias * 2 ^ f.mbits
      (if r.1 = one then one - 1 else r.1, r.2)

def elemFrac (e : VecMode) (ty : Nat) (x : List Nat) : Nat × FFlags :=
  byKind (fun f => fracOf f e.fz (fsource f e.fz (arg x 0))) 0 ty

/-- An element widened to an FP32 code, flushed there (02 R43). -/
def widenCode (f : FFmt) (fz : Bool) (x : Nat) : Nat := exact32 (fwiden fz (f.decode x))

/-- A special function's FP32 reference, rounded once more to the element type (02 R48). -/
def elemSpecial (g : Bool → Nat → Nat × FFlags) (e : VecMode) (ty : Nat) (x : List Nat) : Nat × FFlags :=
  let f := typeFmt ty
  let r := g e.fz (widenCode f e.fz (arg x 0))
  if ty = 1 then r
  else
    let q := fround f .rne e.fz (fmtFP32.decode r.1)
    (q.1, r.2.or q.2)

def elemLogic (op : Nat → Nat → Nat) (_e : VecMode) (_ty : Nat) (x : List Nat) : Nat × FFlags := (op (arg x 0) (arg x 1), {})

/-- Shifts of integers of width w by b mod w. -/
def elemShl (_e : VecMode) (ty : Nat) (x : List Nat) : Nat × FFlags :=
  let w := codeWidth ty
  (arg x 0 * 2 ^ (arg x 1 % w) % 2 ^ w, {})
def elemShr (arith : Bool) (_e : VecMode) (ty : Nat) (x : List Nat) : Nat × FFlags :=
  let w := codeWidth ty
  (intCode w (intVal arith w (arg x 0) / (2 ^ (arg x 1 % w) : Nat)), {})

/-- VMAD.I: the exact signed sum, clamped. -/
def elemMad (_e : VecMode) (ty : Nat) (x : List Nat) : Nat × FFlags :=
  let w := codeWidth ty
  let v := intVal true w (arg x 2) + intVal true w (arg x 0) * intVal true w (arg x 1)
  (intCode w (clampInt (intLo true w) (intHi true w) v), {})

/-! ### Element-wise meanings -/

def execVadd (d a b : BitVec 5) (k : BitVec 3) (m : Bool) (s : State) : Outcome State Fault Refusal :=
  vecMap typesNumber d k m latencyAB [a, b] elemAdd s
def execVsub (d a b : BitVec 5) (k : BitVec 3) (m : Bool) (s : State) : Outcome State Fault Refusal :=
  vecMap typesNumber d k m latencyAB [a, b] elemSub s
def execVmul (d a b : BitVec 5) (k : BitVec 3) (m : Bool) (s : State) : Outcome State Fault Refusal :=
  vecMap typesNumber d k m latencyAB [a, b] elemMul s
def execVfma (d a b : BitVec 5) (k : BitVec 3) (m : Bool) (s : State) : Outcome State Fault Refusal :=
  vecMap typesNumber d k m latencyAB [a, b, d] elemFma s
def execVmin (d a b : BitVec 5) (k : BitVec 3) (m : Bool) (s : State) : Outcome State Fault Refusal :=
  vecMap typesNumber d k m latencyAB [a, b] elemMin s
def execVmax (d a b : BitVec 5) (k : BitVec 3) (m : Bool) (s : State) : Outcome State Fault Refusal :=
  vecMap typesNumber d k m latencyAB [a, b] elemMax s
def execVabs (d a : BitVec 5) (k : BitVec 3) (m : Bool) (s : State) : Outcome State Fault Refusal :=
  vecMap typesNumber d k m latencyAB [a] elemAbs s
def execVneg (d a : BitVec 5) (k : BitVec 3) (m : Bool) (s : State) : Outcome State Fault Refusal :=
  vecMap typesNumber d k m latencyAB [a] elemNeg s
def execVand (d a b : BitVec 5) (k : BitVec 3) (m : Bool) (s : State) : Outcome State Fault Refusal :=
  vecMap typesAll d k m latencyAB [a, b] (elemLogic Nat.land) s
def execVor (d a b : BitVec 5) (k : BitVec 3) (m : Bool) (s : State) : Outcome State Fault Refusal :=
  vecMap typesAll d k m latencyAB [a, b] (elemLogic Nat.lor) s
def execVxor (d a b : BitVec 5) (k : BitVec 3) (m : Bool) (s : State) : Outcome State Fault Refusal :=
  vecMap typesAll d k m latencyAB [a, b] (elemLogic Nat.xor) s
def execVshl (d a b : BitVec 5) (k : BitVec 3) (m : Bool) (s : State) : Outcome State Fault Refusal :=
  vecMap typesAll d k m latencyAB [a, b] elemShl s
def execVshrI (d a b : BitVec 5) (k : BitVec 3) (m : Bool) (s : State) : Outcome State Fault Refusal :=
  vecMap typesAll d k m latencyAB [a, b] (elemShr true) s
def execVshrN (d a b : BitVec 5) (k : BitVec 3) (m : Bool) (s : State) : Outcome State Fault Refusal :=
  vecMap typesAll d k m latencyAB [a, b] (elemShr false) s
def execVmov (d a : BitVec 5) (k : BitVec 3) (m : Bool) (s : State) : Outcome State Fault Refusal :=
  vecMap typesAll d k m latencyAB [a] (fun _ _ x => (arg x 0, {})) s
def execVmadI (d a b : BitVec 5) (k : BitVec 3) (m : Bool) (s : State) : Outcome State Fault Refusal :=
  vecMap typesAll d k m latencyAB [a, b, d] elemMad s
def execVclamp (d a b : BitVec 5) (k : BitVec 3) (m : Bool) (s : State) : Outcome State Fault Refusal :=
  vecMap typesNumber d k m latencyAB [a, b, d] elemClamp s
def execVfrac (d a : BitVec 5) (k : BitVec 3) (m : Bool) (s : State) : Outcome State Fault Refusal :=
  vecMap typesNumber d k m latencyAB [a] elemFrac s
def execVrcp (d a : BitVec 5) (k : BitVec 3) (m : Bool) (s : State) : Outcome State Fault Refusal :=
  vecMap typesFloat d k m latencyAB [a] (elemSpecial fRcp) s
def execVrsq (d a : BitVec 5) (k : BitVec 3) (m : Bool) (s : State) : Outcome State Fault Refusal :=
  vecMap typesFloat d k m latencyAB [a] (elemSpecial fRsq) s
def execVexp2 (d a : BitVec 5) (k : BitVec 3) (m : Bool) (s : State) : Outcome State Fault Refusal :=
  vecMap typesFloat d k m latencyAB [a] (elemSpecial fExp2) s
def execVlog2 (d a : BitVec 5) (k : BitVec 3) (m : Bool) (s : State) : Outcome State Fault Refusal :=
  vecMap typesFloat d k m latencyAB [a] (elemSpecial fLog2) s
def execVsqrt (d a : BitVec 5) (k : BitVec 3) (m : Bool) (s : State) : Outcome State Fault Refusal :=
  vecMap typesFloat d k m latencyAB [a] (elemSpecial fSqrt) s

/-! ### Compares, selects and masks (16 R278) -/

/-- cond(a, b) with the codes of FCMP.F32; uo is false for integers. -/
def vecCond (cc : Nat) (fz : Bool) (ty a b : Nat) : Bool × FFlags :=
  if typeIsFloat ty then fcondHolds (BitVec.ofNat 3 cc) (fsource (typeFmt ty) fz a) (fsource (typeFmt ty) fz b)
  else
    let x := typeInt ty a
    let y := typeInt ty b
    (match cc with
     | 0 => decide (x = y)
     | 1 => decide (x ≠ y)
     | 2 => decide (x < y)
     | 3 => decide (y ≤ x)
     | 4 => decide (x ≤ y)
     | _ => false, {})

/-- A bit for each index at which a test holds. -/
def maskBits (n : Nat) (p : Nat → Bool) : Nat := ((List.range n).filter p).foldl (fun x i => x + 2 ^ i) 0

/-- VCMP of one stream: under a byte float only eq and ne issue. -/
def vcmpStream (cc : Nat) (a b : BitVec 5) (k : Nat) (t : Nat) (st : Stream) (s : State) : Eff State :=
  let ty := shapeType st.shape
  if typeIsByte ty && decide (2 ≤ cc) then trapWith causeBadFormat 0
  else match s.useW t st a with
    | .error e => .error e
    | .ok x => match s.useW t st b with
      | .error e => .error e
      | .ok y =>
        let w := codeWidth ty
        let r (i : Nat) : Bool × FFlags := vecCond cc (s.vecMode t).fz ty (elemAt w x i) (elemAt w y i)
        let v := maskBits (shapeCount st.shape) (fun i => (r i).1)
        let fl := ((List.range (shapeCount st.shape)).map (fun i => (r i).2)).foldl FFlags.or FFlags.none
        .ok ((if k = 0 then s else s.fly t latencyAB (.mask k v)).vecRaise t fl)

def execVcmp (d a b : BitVec 5) (k : BitVec 3) (s : State) : Outcome State Fault Refusal :=
  forStreams s typesAll (vcmpStream d.toNat a b k.toNat)

/-- VSEL: the k field selects; elements at or above COUNT follow m. -/
def execVsel (d a b : BitVec 5) (k : BitVec 3) (m : Bool) (s : State) : Outcome State Fault Refusal :=
  forStreams s typesAll (fun t st u =>
    let ty := shapeType st.shape
    let w := codeWidth ty
    .ok (vecWrite d 0 m latencyAB ty [a, b] t st (fun i =>
      (elemAt w (if (st.mask k.toNat).getLsbD i then (st.wreg a).val.toNat else (st.wreg b).val.toNat) i, {})) u))

/-- VKMOV's result. -/
def maskOp (op : Nat) (x y : BitVec 256) : BitVec 256 :=
  match op with
  | 0 => x
  | 1 => x &&& y
  | 2 => x ||| y
  | _ => x &&& ~~~y

def execVkmov (op : BitVec 2) (t a b : BitVec 3) (s : State) : Outcome State Fault Refusal :=
  forStreams s typesNumber (fun o st u => .ok (if t = 0 then u
    else u.fly o latencyPort (.mask t.toNat (maskOp op.toNat (st.mask a.toNat) (st.mask b.toNat)).toNat)))

/-! ### Reductions and the scale latch (16 R279, R280) -/

/-- The participating elements of a sum, up to and including index `top`. -/
def Stream.taking (st : Stream) (k : Nat) (top : Nat) (xs : List Nat) : List (Option Nat) :=
  (List.range xs.length).map (fun i => if st.active k i && decide (i ≤ top) then some (arg xs i) else none)

/-- The sum of 02 R52 in TYPE: a tree in FP32, rounded once to a narrower type, or an exact wrapped integer sum. -/
def sumOf (fz : Bool) (ty : Nat) (xs : List (Option Nat)) : Nat × FFlags :=
  if typeIsFloat ty then
    let r := treeSum fz (xs.map (fun x => x.map (widenCode (typeFmt ty) fz)))
    if ty = 1 then r
    else
      let q := fround (typeFmt ty) .rne fz (fmtFP32.decode r.1)
      (q.1, r.2.or q.2)
  else (intCode (codeWidth ty) ((xs.filterMap (fun x => x.map (typeInt ty))).sum), {})

def execVradd (d a : BitVec 5) (k : BitVec 3) (s : State) : Outcome State Fault Refusal :=
  forStreams s typesNumber (fun t st u =>
    let ty := shapeType st.shape
    .ok (vecWhole d latencyX [a] t st
      (sumOf (u.vecMode t).fz ty (st.taking k.toNat (typeElems ty) (elemsOf (codeWidth ty) (st.wreg a).val.toNat))) u))

/-- The maximum of the active elements; none active gives -Inf, or the type's minimum. -/
def maxOf (fz : Bool) (ty : Nat) (xs : List Nat) : Nat :=
  match xs with
  | [] => if typeIsFloat ty then (fround (typeFmt ty) .rne false (.inf true)).1
          else intCode (codeWidth ty) (intLo (codeSigned ty) (codeWidth ty))
  | x :: rest => rest.foldl (elemPick true fz ty) (elemPick true fz ty x x)

def execVrmax (d a : BitVec 5) (k : BitVec 3) (s : State) : Outcome State Fault Refusal :=
  forStreams s typesNumber (fun t st u =>
    let ty := shapeType st.shape
    let xs := ((List.range (typeElems ty)).filter (st.active k.toNat)).map (elemAt (codeWidth ty) (st.wreg a).val.toNat)
    .ok (vecWhole d latencyX [a] t st (maxOf (u.vecMode t).fz ty xs, {}) u))

def execVpsum (d a : BitVec 5) (k : BitVec 3) (m : Bool) (s : State) : Outcome State Fault Refusal :=
  forStreams s typesNumber (fun t st u =>
    let ty := shapeType st.shape
    let xs := elemsOf (codeWidth ty) (st.wreg a).val.toNat
    .ok (vecWrite d k.toNat m latencyX ty [a] t st (fun i => sumOf (u.vecMode t).fz ty (st.taking k.toNat i xs)) u))

/-- M_j of a block: the largest magnitude of its active elements as an FP32 code, NaN where one is NaN (16 R280). -/
def blockMax (f : FFmt) (fz : Bool) (xs : List Nat) : Nat :=
  let ms := xs.map (fun x => (fwiden fz (f.decode x)).abs)
  if ms.any FVal.isNan then fmtFP32.nan else (ms.map exact32).foldl max 0

/-- M_j of every block of a register. -/
def Stream.blockMaxes (st : Stream) (fz : Bool) (k : Nat) (v : Nat) : List Nat :=
  let ty := shapeType st.shape
  (List.range (typeElems ty / 32)).map (fun j =>
    blockMax (typeFmt ty) fz ((((List.range 32).map (fun i => 32 * j + i)).filter (st.active k)).map (elemAt (codeWidth ty) v)))

/-- VAMAX: the maxima to w(d) on the 32-bit grid, and to the scale latch four cycles after issue; a poisoned source delivers
nothing, since the latch never holds poison. -/
def execVamax (d a : BitVec 5) (k : BitVec 3) (s : State) : Outcome State Fault Refusal :=
  forStreams s typesFloat (fun t st u =>
    let ms := st.blockMaxes (u.vecMode t).fz k.toNat (st.wreg a).val.toNat
    let r := vecWhole d latencyX [a] t st (packAll 32 ms, {}) u
    .ok (if (st.poisoned [a]).isSome then r else r.fly t 4 (.latch ms)))

/-! ### The table (16 R281) -/

def vtbllStream (a : BitVec 5) (n : Nat) (t : Nat) (st : Stream) (s : State) : Eff State :=
  (s.useW t st a).map (fun v =>
    let x := s.tile t
    s.setTile t { x with table := (List.range 64).foldl (fun (u : Tbl Word) i =>
      Tbl.put 0 u (64 * n + i) (BitVec.ofNat 32 (elemAt 32 v i))) x.table })

def execVtbll (a : BitVec 5) (b : BitVec 3) (s : State) : Outcome State Fault Refusal :=
  forStreams s typesNumber (vtbllStream a b.toNat)

/-- The interpolation of one element (16 R281). -/
def tableValue (table : Tbl Word) (fz : Bool) (ty x0 r x : Nat) : Nat × FFlags :=
  let f := typeFmt ty
  let src (c : Nat) : FVal := fsource fmtFP32 fz c
  let entry (j : Nat) : FVal := src (Tbl.getD table j 0).toNat
  let diff := FVal.add .rne (fwiden fz (f.decode x)) (src x0).neg
  let prod := FVal.mul diff.1 (src r)
  let tq := fresult fmtFP32 .rne fz (prod.1, diff.2 || prod.2)
  let tv := fmtFP32.decode tq.1
  match tv with
  | .nan => (f.nan, tq.2)
  | v =>
    let j : Nat := match v with
      | .inf neg => if neg then 0 else 255
      | .fin n m e => (clampInt 0 255 (FVal.floorInt n m e)).toNat
      | .nan => 0
    let fr := (FVal.add .rne v (FVal.ofInt (-(j : Int)))).1
    let y := fresult fmtFP32 .rne fz (FVal.fma .rne (entry (2 * j + 1)) fr (entry (2 * j)))
    let q := fround f .rne fz (fmtFP32.decode y.1)
    (q.1, (tq.2.or y.2).or q.2)

def execVtbli (d a b : BitVec 5) (k : BitVec 3) (m : Bool) (s : State) : Outcome State Fault Refusal :=
  forStreams s typesFloat (fun t st u =>
    let ty := shapeType st.shape
    let bv := (st.wreg b).val.toNat
    let av := (st.wreg a).val.toNat
    .ok (vecWrite d k.toNat m latencyX ty [a, b] t st (fun i =>
      tableValue (u.tile t).table (u.vecMode t).fz ty (elemAt 32 bv 0) (elemAt 32 bv 1) (elemAt (codeWidth ty) av i)) u))

/-! ### Permutes (16 R282) -/

/-- A permute: element i of the result is element `src i` of w(a), or zero. -/
def permute (d a : BitVec 5) (srcs : List (BitVec 5)) (k : BitVec 3) (m : Bool) (src : Stream → Nat → Nat → Option Nat)
    (s : State) : Outcome State Fault Refusal :=
  forStreams s typesAll (fun t st u =>
    let ty := shapeType st.shape
    let w := codeWidth ty
    let av := (st.wreg a).val.toNat
    .ok (vecWrite d k.toNat m latencyX ty srcs t st (fun i =>
      (match src st (typeElems ty) i with
       | some j => elemAt w av j
       | none => 0, {})) u))

def execVperm (d a b : BitVec 5) (k : BitVec 3) (m : Bool) (s : State) : Outcome State Fault Refusal :=
  permute d a [a, b] k m (fun st n i => some (elemAt (codeWidth (shapeType st.shape)) (st.wreg b).val.toNat i % n)) s
def execVslide (d a b : BitVec 5) (k : BitVec 3) (m : Bool) (s : State) : Outcome State Fault Refusal :=
  permute d a [a] k false (fun _ n i =>
    if m then (if i < b.toNat then none else some (i - b.toNat)) else (if n ≤ i + b.toNat then none else some (i + b.toNat))) s
def execVrot (d a b : BitVec 5) (k : BitVec 3) (m : Bool) (s : State) : Outcome State Fault Refusal :=
  permute d a [a] k false (fun _ n i => some (if m then (i + n - b.toNat) % n else (i + b.toNat) % n)) s
def execVbcast (d a b : BitVec 5) (k : BitVec 3) (m : Bool) (s : State) : Outcome State Fault Refusal :=
  permute d a [a] k m (fun _ _ _ => some b.toNat) s

/-! ### Quantisation (16 R283, R284) -/

/-- The scale code of a block (16 R283). -/
def scaleCode (emax : Int) (mx : Nat) : Nat :=
  match fmtFP32.decode mx with
  | .fin _ m e => if m = 0 then 0 else (clampInt (-127) 127 ((Nat.log2 m : Int) + e - emax) + 127).toNat
  | _ => 0xFF

/-- The codes and the scale of one block, with the flags VQNT may set. `xs` gives each element, none where inactive. -/
def quantBlock (fmt : Nat) (book : List Nat) (f : FFmt) (fz : Bool) (emax : Int) (mx : Nat) (xs : List (Option Nat)) :
    List Nat × Nat × FFlags :=
  let sc := scaleCode emax mx
  if sc = 0xFF then (xs.map (fun _ => 0), sc, { iv := true })
  else
    let rs := xs.map (fun x => match x with
      | some c => blockEncode fmt book ((fsource f fz c).scale (127 - (sc : Int)))
      | none => (0, FFlags.none))
    let fl := (rs.map Prod.snd).foldl FFlags.or FFlags.none
    (rs.map Prod.fst, sc, { nx := fl.nx, iv := fl.iv })

/-- M_j as a bypass VQNT finds it in the latch: zero before any delivery, and free where the latest delivery had fewer
blocks (log 31). -/
def latchValue (s : State) (x : Tile) (j : Nat) : Nat :=
  if x.latch.isEmpty then 0 else x.latch.getD j ((Config.freeValue (s.freeCtr + j)).toNat % 2 ^ 32)

/-- VQNT's register: packed codes of block j at byte 4wj, its scale at byte 252 + j. -/
def quantPack (fmt : Nat) (bs : List (List Nat × Nat × FFlags)) : Nat :=
  let w := codeWidth fmt
  let code := (List.range bs.length).map (fun j => packAll w (bs.getD j ([], 0, {})).1 * 2 ^ (32 * w * j))
  let scale := (List.range bs.length).map (fun j => (bs.getD j ([], 0, {})).2.1 * 2 ^ (8 * (252 + j)))
  code.sum + scale.sum

def vqntStream (d a : BitVec 5) (fmt k : Nat) (byp : Bool) (t : Nat) (st : Stream) (s : State) : Eff State :=
  let ty := shapeType st.shape
  let book := (s.tile t).bookV
  match codeEmax fmt book with
  | none => trapWith causeBadFormat 0
  | some emax =>
    let fz := (s.vecMode t).fz
    let v := (st.wreg a).val.toNat
    let ms := st.blockMaxes fz k v
    let bs := (List.range (typeElems ty / 32)).map (fun j =>
      quantBlock fmt book (typeFmt ty) fz emax (if byp then latchValue s (s.tile t) j else arg ms j)
        ((List.range 32).map (fun i => if st.active k (32 * j + i) then some (elemAt (codeWidth ty) v (32 * j + i)) else none)))
    .ok { vecWhole d latencyAB [a] t st (quantPack fmt bs, (bs.map (fun b => b.2.2)).foldl FFlags.or FFlags.none) s with
      freeCtr := s.freeCtr + 8 }

def execVqnt (d a b : BitVec 5) (k : BitVec 3) (m : Bool) (s : State) : Outcome State Fault Refusal :=
  forStreams s typesFloat (vqntStream d a b.toNat k.toNat m)

def vdqntStream (d a : BitVec 5) (fmt k : Nat) (m : Bool) (t : Nat) (st : Stream) (s : State) : Eff State :=
  let ty := shapeType st.shape
  let book := (s.tile t).bookV
  match codeEmax fmt book with
  | none => trapWith causeBadFormat 0
  | some _ =>
    let v := (st.wreg a).val.toNat
    let w := codeWidth fmt
    .ok (vecWrite d k m latencyAB ty [a] t st (fun i =>
      fround (typeFmt ty) .rne (s.vecMode t).fz
        (scaledDecode fmt book (v / 2 ^ (8 * (252 + i / 32)) % 256) (elemAt w v i))) s)

def execVdqnt (d a b : BitVec 5) (k : BitVec 3) (m : Bool) (s : State) : Outcome State Fault Refusal :=
  forStreams s typesFloat (vdqntStream d a b.toNat k.toNat m)

/-! ### Conversion (16 R285) -/

/-- An element of TYPE `src` converted to type `dst`. -/
def convertElem (e : VecMode) (src dst x : Nat) : Nat × FFlags :=
  let w := codeWidth dst
  if codeIsInt src then
    let v := intVal (codeSigned src) (codeWidth src) x
    if codeIsInt dst then (intCode w v, {})
    else match dst with
      | 0x04 => fnarrow fmtE4M3 e.ofs (FVal.ofInt v)
      | 0x05 => fnarrow fmtE5M2 e.ofs (FVal.ofInt v)
      | _ => fround (typeFmt dst) e.md e.fz (FVal.ofInt v)
  else
    let sf := (codeFmt src).getD fmtFP32
    -- a conversion into FP32 is judged on the widened value (02 R43)
    let v := if dst = 1 then sf.decode x else fsource sf e.fz x
    if codeIsInt dst then
      let r := floatToInt e.md (codeSigned dst) w v
      (intCode w r.1, r.2)
    else match dst with
      | 0x04 => fnarrow fmtE4M3 e.ofs v
      | 0x05 => fnarrow fmtE5M2 e.ofs v
      | _ => fround (typeFmt dst) e.md e.fz v

/-- VCVT: activity and m refer to the destination's elements; source elements past its own N are not converted. -/
def execVcvt (d a b : BitVec 5) (k : BitVec 3) (m : Bool) (s : State) : Outcome State Fault Refusal :=
  forStreams s typesAll (fun t st u =>
    let ty := shapeType st.shape
    let v := (st.wreg a).val.toNat
    .ok (vecWrite d k.toNat m latencyAB b.toNat [a] t st (fun i =>
      convertElem (u.vecMode t) ty b.toNat (elemAt (codeWidth ty) v i)) u))

def elemRnd (b : BitVec 5) (e : VecMode) (ty : Nat) (x : List Nat) : Nat × FFlags :=
  if typeIsFloat ty then
    froundIntegral (typeFmt ty) (modeOperand b.toNat e.md) e.fz (fsource (typeFmt ty) e.fz (arg x 0))
  else (arg x 0, {})

def execVrnd (d a b : BitVec 5) (k : BitVec 3) (m : Bool) (s : State) : Outcome State Fault Refusal :=
  vecMap typesNumber d k m latencyAB [a] (elemRnd b) s

/-- VSAT clamps to the range of format t. A floating limit that TYPE cannot hold is not stated: a free value (log 32). -/
def elemSat (free : Dword) (t : Nat) (e : VecMode) (ty : Nat) (x : List Nat) : Nat × FFlags :=
  if typeIsFloat ty then
    let f := typeFmt ty
    let v := fsource f e.fz (arg x 0)
    let tf := (codeFmt t).getD fmtFP32
    let limit : FVal := tf.decode tf.maxFin
    let out : Nat := match v.abs.cmp limit with
      | some .gt =>
        let r := fround f .rne false (if v.isNeg then limit.neg else limit)
        if r.2.nx then free.toNat % 2 ^ codeWidth ty else r.1
      | _ => (fround f .rne false v).1
    (out, {})
  else
    let w := codeWidth t
    (intCode (codeWidth ty) (clampInt (intLo (codeSigned t) w) (intHi (codeSigned t) w) (typeInt ty (arg x 0))), {})

/-- The formats VSAT pairs with a TYPE. -/
def satPair (ty t : Nat) : Bool :=
  if typeIsFloat ty then decide (2 ≤ t) && decide (t ≤ 5) else codeIsInt t

def execVsat (d a b : BitVec 5) (k : BitVec 3) (m : Bool) (s : State) : Outcome State Fault Refusal :=
  forStreams s typesNumber (fun t st u =>
    let ty := shapeType st.shape
    if satPair ty b.toNat then
      .ok (vecWrite d k.toNat m latencyAB ty [a] t st (fun i =>
        elemSat (Config.freeValue (u.freeCtr + i)) b.toNat (u.vecMode t) ty [elemAt (codeWidth ty) (st.wreg a).val.toNat i])
        { u with freeCtr := u.freeCtr + 256 })
    else trapWith causeBadFormat 0)

/-- VSCALE: round(a times 2^n), n clamped to [-512, 512]. -/
def elemScale (e : VecMode) (ty : Nat) (x : List Nat) : Nat × FFlags :=
  let f := typeFmt ty
  fround f e.md e.fz ((fsource f e.fz (arg x 0)).scale (clampInt (-512) 512 (intVal true (codeWidth ty) (arg x 1))))

def execVscale (d a b : BitVec 5) (k : BitVec 3) (m : Bool) (s : State) : Outcome State Fault Refusal :=
  vecMap typesFloat d k m latencyAB [a, b] elemScale s

/-- VCBK: the engine's codebook (16 R286). -/
def vcbkStream (a : BitVec 5) (t : Nat) (st : Stream) (s : State) : Eff State :=
  (s.useW t st a).map (fun v => s.setTile t { s.tile t with bookV := (List.range 16).map (elemAt 16 v) })

def execVcbk (a : BitVec 5) (s : State) : Outcome State Fault Refusal := forStreams s typesNumber (vcbkStream a)

/-! ### The queue port (16 R287, R288) -/

def vpopStream (d : BitVec 5) (q : Nat) (t : Nat) (_st : Stream) (s : State) : Eff State :=
  (s.popQueue t q).map (fun r => r.2.flyReg t latencyPort d r.1 (2 ^ 2048 - 1))

def execVpop (d : BitVec 5) (a : BitVec 2) (s : State) : Outcome State Fault Refusal := forStreams s typesNumber (vpopStream d a.toNat)

/-- Push an entry; a full queue of 8 stalls. -/
def State.pushQueue (s : State) (t q v : Nat) : Eff State :=
  if 8 ≤ (s.queue t q).length then waitWith .again else .ok (s.setQueue t q (s.queue t q ++ [v]))

def vpushStream (q : Nat) (a : BitVec 5) (t : Nat) (st : Stream) (s : State) : Eff State :=
  match s.useW t st a with
  | .error e => .error e
  | .ok v => s.pushQueue t q v

def execVpush (d a : BitVec 5) (s : State) : Outcome State Fault Refusal := forStreams s typesNumber (vpushStream d.toNat a)

def vpopkStream (k q : Nat) (t : Nat) (_st : Stream) (s : State) : Eff State :=
  (s.popQueue t q).map (fun r => if k = 0 then r.2 else r.2.fly t latencyPort (.mask k (r.1 % 2 ^ 256)))

def execVpopk (d : BitVec 3) (a : BitVec 2) (s : State) : Outcome State Fault Refusal := forStreams s typesNumber (vpopkStream d.toNat a.toNat)

/-- VPUSHS: a scalar to q6, or the branch bit of a uniform mask to bq; a mixed mask traps. -/
def vpushsStream (d : Nat) (a : BitVec 5) (k : Nat) (t : Nat) (st : Stream) (s : State) : Eff State :=
  if d = 7 then
    let n := shapeCount st.shape
    let on := ((List.range n).filter (fun i => (st.mask k).getLsbD i)).length
    if on = 0 then s.pushQueue t 7 0
    else if on = n then s.pushQueue t 7 1
    else trapWith causeNonUniform 0
  else match s.useW t st a with
    | .error e => .error e
    | .ok v => s.pushQueue t 6 (v % 2 ^ 64)

def execVpushs (d a : BitVec 5) (k : BitVec 3) (s : State) : Outcome State Fault Refusal :=
  forStreams s typesNumber (vpushsStream d.toNat a k.toNat)

/-- VSHAPE: TYPE, ROT and COUNT from the next group on, and rotation base zero. -/
def vshapeStream (d a b : BitVec 5) (rot m : Bool) (t : Nat) (st : Stream) (s : State) : Eff State :=
  let n := typeElems d.toNat
  let set (c : Nat) : State := s.setStream t (fun (u : Stream) => { u with shapeNext := some (shapeWord d.toNat c rot) })
  if m then (s.useW t st a).map (fun v => set (min (v % 2 ^ 32) n))
  else
    let c := 32 * a.toNat + b.toNat
    .ok (set (if c = 0 then n else c))

def execVshape (d a b : BitVec 5) (k : BitVec 3) (m : Bool) (s : State) : Outcome State Fault Refusal :=
  forStreams s typesNumber (vshapeStream d a b (k == 1) m)

/-! ### Events of the execute pipeline -/

/-- SCALE_LATCH_DELIVERY: maxima whose four cycles have passed reach the latch (16 R280). -/
def execScaleLatchDelivery (tile : Nat) (s : State) : Outcome State Fault Refusal := .next (s.landDue tile)

end Sys2Proof.Machine
end

