-- ==== Sys2Proof/Machine/Matrix.lean ====
section
/-! DEFINITION. The matrix engine, class MAT (19 R307-R316, 21 R334-R345). A meaning checks and queues its instruction; what it
does to the tile store, the B registers and the books happens when it retires. -/

namespace Sys2Proof.Machine

open Host (Outcome)

/-! ### Looking ahead at the head of the path -/

/-- Instructions that wait for every landed result (18 R293), and those that commit a region (03 R80, R81). -/
def drains (i : Instr) : Bool :=
  match i with
  | .region .. | .exit => true
  | .chk d _ => d == 3
  | .sread reg _ => reg == 0
  | _ => false
def commits (i : Instr) : Bool :=
  match i with
  | .region .. | .exit => true
  | _ => false

/-- Whether the group at an address holds a control instruction that satisfies `f`, read word by word. -/
def State.groupAny (f : Instr → Bool) (s : State) (ctx : Nat) (epoch : Seen) : Nat → Dword → Bool
  | 0, _ => false
  | n + 1, a =>
    match s.fetchWord ctx a epoch causeFetchFault a with
    | .error _ => false
    | .ok (w, t) =>
      match decodeHead .tile w with
      | .error _ => false
      | .ok _ =>
        let here : Bool := wordClass w == 0 && (match buildCtl (wordOp w).toNat (wordLong w) w 0 with
          | some i => f i
          | none => false)
        here || (!wordStop w && t.groupAny f ctx epoch n (a + (if wordLong w then 8 else 4)))

/-- Whether some first word of a group's instructions satisfies `f`; `ext` says that the next word is an extension word. -/
def wordsAny (f : Word → Bool) (ext : Bool) : List Word → Bool
  | [] => false
  | w :: rest => if ext then wordsAny f false rest else f w || wordsAny f (wordLong w) rest

/-- CPY.FEED and CPY.ABORT, which decide what later MMVs read (19 R313, R324). -/
def changesFeed (w : Word) : Bool := wordClass w == 6 && (wordOp w == 0x07 || wordOp w == 0x1A)

/-- A group earlier on the path starts or ends a feed, and its access half has yet to issue (19 R313). -/
def Stream.feedBehind (st : Stream) : Bool := st.acq.dropLast.any (fun (g : PathGroup) => wordsAny changesFeed false g.words)

/-! ### Issue (19 R308, R314, R316) -/

/-- Queue a MAT instruction of a stream: it waits for its mask, for room and while its queue is slaved; then it raises
matrix-state on a disabled engine, or paired with no MPAIR before it. -/
def State.matIssue (s : State) (t : Nat) (i : Instr) (tail : MatTail) (always pr : Bool) : Eff State :=
  let x := s.tile t
  match x.stream with
  | none => .ok s
  | some st =>
    if s.matMaskBusy t tail.wm || decide (8 ≤ x.mats.length) || x.slavedTo.isSome || (usesFeed i && st.feedBehind) then waitWith .again
    else if !always && decide (2 ≤ x.fences) then trapWith causeMatrixState 0
    else if pr && !st.pairIssued then trapWith causeMatrixState 0
    else
      let blk := if usesFeed i then (match x.feed with
        | some f => if f.taken < f.count then some f.taken else none
        | none => none) else none
      let feed := match blk with
        | some _ => x.feed.map (fun (f : Feed) => { f with taken := f.taken + 1 })
        | none => x.feed
      .ok (s.setTile t { x with feed := feed, mats := x.mats ++ [⟨i, tail.te, tail.tok, s.vecAcr t, blk, st.cycle, none⟩] })

/-- Act for each stream: the matrix engine does not look at TYPE. -/
def forMat (s : State) (f : Nat → Stream → State → Eff State) : Outcome State Fault Refusal :=
  conclude s (forOwners s (fun t u => match (u.tile t).stream with
    | none => .ok u
    | some st => f t st u))

/-- The meaning of a MAT instruction that only queues. -/
def queueMat (i : Instr) (tail : MatTail) (always pr : Bool) (s : State) : Outcome State Fault Refusal :=
  forMat s (fun t _ u => u.matIssue t i tail always pr)

def execMldb (row2 : BitVec 9) (col2 : BitVec 5) (pr wide : Bool) (t : MatTail) (s : State) : Outcome State Fault Refusal :=
  queueMat (.mldb row2 col2 pr wide t) t false pr s
def execMmaBf16 (row1 row2 : BitVec 9) (col2 : BitVec 5) (pr : Bool) (t : MatTail) (s : State) : Outcome State Fault Refusal :=
  queueMat (.mmaBf16 row1 row2 col2 pr t) t false pr s
def execMmaF16 (row1 row2 : BitVec 9) (col2 : BitVec 5) (pr : Bool) (t : MatTail) (s : State) : Outcome State Fault Refusal :=
  queueMat (.mmaF16 row1 row2 col2 pr t) t false pr s
def execMmaE4m3 (row1 row2 : BitVec 9) (col2 : BitVec 5) (pr : Bool) (t : MatTail) (s : State) : Outcome State Fault Refusal :=
  queueMat (.mmaE4m3 row1 row2 col2 pr t) t false pr s
def execMmaE5m2 (row1 row2 : BitVec 9) (col2 : BitVec 5) (pr : Bool) (t : MatTail) (s : State) : Outcome State Fault Refusal :=
  queueMat (.mmaE5m2 row1 row2 col2 pr t) t false pr s
def execMmaMx8 (row1 row2 : BitVec 9) (col2 : BitVec 5) (pr : Bool) (el : BitVec 2) (t : MatTail) (s : State) :
    Outcome State Fault Refusal := queueMat (.mmaMx8 row1 row2 col2 pr el t) t false pr s
def execMmaMx6 (row1 row2 : BitVec 9) (col2 : BitVec 5) (pr : Bool) (el : BitVec 1) (t : MatTail) (s : State) :
    Outcome State Fault Refusal := queueMat (.mmaMx6 row1 row2 col2 pr el t) t false pr s
def execMmaMx4 (row1 row2 : BitVec 9) (col2 : BitVec 5) (pr : Bool) (el : BitVec 1) (t : MatTail) (s : State) :
    Outcome State Fault Refusal := queueMat (.mmaMx4 row1 row2 col2 pr el t) t false pr s
def execMmaI8 (row1 row2 : BitVec 9) (col2 : BitVec 5) (pr sat sa sb : Bool) (t : MatTail) (s : State) :
    Outcome State Fault Refusal := queueMat (.mmaI8 row1 row2 col2 pr sat sa sb t) t false pr s
def execMmaI4 (row1 row2 : BitVec 9) (col2 : BitVec 5) (pr sat sa sb : Bool) (t : MatTail) (s : State) :
    Outcome State Fault Refusal := queueMat (.mmaI4 row1 row2 col2 pr sat sa sb t) t false pr s
def execMmasMx4 (row1 row2 : BitVec 9) (col2 : BitVec 5) (pr : Bool) (el : BitVec 1) (t : MatTail) (s : State) :
    Outcome State Fault Refusal := queueMat (.mmasMx4 row1 row2 col2 pr el t) t false pr s
def execMmasMx8 (row1 row2 : BitVec 9) (col2 : BitVec 5) (pr : Bool) (el : BitVec 2) (t : MatTail) (s : State) :
    Outcome State Fault Refusal := queueMat (.mmasMx8 row1 row2 col2 pr el t) t false pr s
def execMmvMx4 (row1 : BitVec 9) (col1 : BitVec 5) (row2 : BitVec 9) (col2 : BitVec 5) (pr : Bool) (sl : BitVec 4)
    (ec : BitVec 2) (t : MatTail) (s : State) : Outcome State Fault Refusal :=
  queueMat (.mmvMx4 row1 col1 row2 col2 pr sl ec t) t false false s
def execMmvMx8 (row1 : BitVec 9) (col1 : BitVec 5) (row2 : BitVec 9) (col2 : BitVec 5) (pr : Bool) (sl : BitVec 4)
    (ec : BitVec 2) (t : MatTail) (s : State) : Outcome State Fault Refusal :=
  queueMat (.mmvMx8 row1 col1 row2 col2 pr sl ec t) t false false s
def execMmvBf16 (row1 : BitVec 9) (col1 : BitVec 5) (row2 : BitVec 9) (col2 : BitVec 5) (pr : Bool) (sl : BitVec 4)
    (t : MatTail) (s : State) : Outcome State Fault Refusal :=
  queueMat (.mmvBf16 row1 col1 row2 col2 pr sl t) t false false s
def execMzero (row1 : BitVec 9) (col1 : BitVec 5) (pr mv : Bool) (t : MatTail) (s : State) : Outcome State Fault Refusal :=
  queueMat (.mzero row1 col1 pr mv t) t false pr s
def execMscale (row1 row2 : BitVec 9) (pr : Bool) (t : MatTail) (s : State) : Outcome State Fault Refusal :=
  queueMat (.mscale row1 row2 pr t) t false pr s
def execMcvt (row1 : BitVec 9) (col1 : BitVec 5) (row2 : BitVec 9) (pr : Bool) (code : BitVec 5) (isInt : Bool) (t : MatTail)
    (s : State) : Outcome State Fault Refusal := queueMat (.mcvt row1 col1 row2 pr code isInt t) t false pr s
def execMtest (row1 : BitVec 9) (col1 : BitVec 5) (t : MatTail) (s : State) : Outcome State Fault Refusal :=
  queueMat (.mtest row1 col1 t) t true false s
def execMfence (t : MatTail) (s : State) : Outcome State Fault Refusal := queueMat (.mfence t) t true false s
def execMcbk (row2 : BitVec 9) (col2 : BitVec 5) (pr : Bool) (el : BitVec 1) (t : MatTail) (s : State) :
    Outcome State Fault Refusal := queueMat (.mcbk row2 col2 pr el t) t false pr s
def execMtrn (row1 : BitVec 9) (col1 : BitVec 5) (row2 : BitVec 9) (col2 : BitVec 5) (wd : BitVec 2) (t : MatTail)
    (s : State) : Outcome State Fault Refusal := queueMat (.mtrn row1 col1 row2 col2 wd t) t false false s

/-- The tile set of a tile's launch. -/
def State.tileSet (s : State) (t : Nat) : List Nat :=
  match s.launchOf t with
  | some l => match Tbl.find? s.launches l with
    | some x => x.tiles
    | none => []
  | none => []

/-- The neighbour MPAIR claims: east, or south. -/
def pairNeighbour (t : Nat) (el : BitVec 1) : Option Nat := neighbour t (if el = 0 then 1 else 2)

def isMfree : Instr → Bool
  | .mfree _ => true
  | _ => false

/-- MPAIR at issue (19 R314): matrix-state with no such neighbour in the set, when already paired, or with a fenced quarter. -/
def mpairStream (el : BitVec 1) (tail : MatTail) (t : Nat) (st : Stream) (s : State) : Eff State :=
  let x := s.tile t
  let bad : Bool := match pairNeighbour t el with
    | none => true
    | some n => !(s.tileSet t).contains n || (s.tile n).fenced != 0
  if s.matMaskBusy t tail.wm || decide (8 ≤ x.mats.length) || x.slavedTo.isSome then waitWith .again
  else if bad || x.fenced != 0 || st.pairIssued || (st.paired.isSome && !x.mats.any (fun (m : MatEntry) => isMfree m.instr)) then
    trapWith causeMatrixState 0
  else (s.matIssue t (.mpair el tail) tail false false).map (fun u =>
    u.setStream t (fun (y : Stream) => { y with pairIssued := true }))

def execMpair (el : BitVec 1) (t : MatTail) (s : State) : Outcome State Fault Refusal := forMat s (mpairStream el t)

/-- MFREE ends the pair in stream order when it issues, and releases the follower when it retires. -/
def execMfree (t : MatTail) (s : State) : Outcome State Fault Refusal :=
  forMat s (fun o _ u => (u.matIssue o (.mfree t) t false false).map (fun v =>
    v.setStream o (fun (y : Stream) => { y with pairIssued := false })))

/-! ### The tile store (19 R307) -/

/-- n bytes of tile-store row r from byte c, little-endian. -/
def storeLE (m : Tbl Byte) (r c : Nat) : Nat → Nat
  | 0 => 0
  | n + 1 => (Tbl.getD m (512 * r + c) 0).toNat + 256 * storeLE m r (c + 1) n

/-- Write n bytes of a row. -/
def storePut (m : Tbl Byte) (r c : Nat) (v : Nat) : Nat → Tbl Byte
  | 0 => m
  | n + 1 => storePut (Tbl.put 0 m (512 * r + c) (BitVec.ofNat 8 v)) r (c + 1) (v / 256) n

/-- Byte i of B column j (19 R310): 64 data bytes, then 16 scale bytes. -/
def bLE (b : Tbl Byte) (j i : Nat) : Nat → Nat
  | 0 => 0
  | n + 1 => (Tbl.getD b (80 * j + i) 0).toNat + 256 * bLE b j (i + 1) n

/-! ### Element decode (19 R311-R313) -/

/-- What a step multiplies: its format code, element width, K, rounding group, and integer flags. -/
structure StepSpec where
  fmt : Nat
  width : Nat
  k : Nat
  group : Nat
  sparse : Bool
  sa : Bool
  sb : Bool
  sat : Bool
deriving DecidableEq, Repr

def floatSpec (fmt k group : Nat) (sparse : Bool) : StepSpec := ⟨fmt, codeWidth fmt, k, group, sparse, false, false, false⟩

/-- Format codes that the aux field of MX8, MX6 and MX4 forms names. -/
def mx8Code (el : BitVec 2) : Nat := if el = 0 then 0x06 else if el = 1 then 0x07 else 0x0B
def mx6Code (el : BitVec 1) : Nat := if el = 0 then 0x08 else 0x09
def mx4Code (el : BitVec 1) : Nat := if el = 0 then 0x0A else 0x0C

/-- Element k of packed data. -/
def packedElem (w data k : Nat) : Nat := data / 2 ^ (w * k) % 2 ^ w

/-- The value of a code under a scale byte, flushed in the domain of the sum (02 R36, R43). -/
def stepElem (sp : StepSpec) (book : List Nat) (fz : Bool) (scale c : Nat) : FVal :=
  fwiden fz (if codeScaled sp.fmt then scaledDecode sp.fmt book scale c else elemDecode sp.fmt book c)

/-- Scale byte of elements 16j to 16j + 15, from the scale bytes as a number. -/
def scaleByte (scales k : Nat) : Nat := scales / 2 ^ (8 * (k / 16)) % 256

/-- The value of element k of packed data. -/
def stepValue (sp : StepSpec) (book : List Nat) (fz : Bool) (data scales k : Nat) : FVal :=
  stepElem sp book fz (scaleByte scales k) (packedElem sp.width data k)

/-- One rounding group of a dense step. -/
def denseGroup (sp : StepSpec) (bookA bookB : List Nat) (fz : Bool) (ad asc bd bsc k0 : Nat) : GroupSum :=
  (List.range sp.group).foldl (fun (g : GroupSum) i =>
    g.push (stepValue sp bookA fz ad asc (k0 + i)) (stepValue sp bookB fz bd bsc (k0 + i))) GroupSum.start

/-- Position of kept element t in the expanded row: its group of four and the metadata's two bits (19 R312). -/
def keptPos (md t : Nat) : Nat := 4 * (t / 2) + md / 2 ^ (4 * (t / 2) + 2 * (t % 2)) % 4

/-- One rounding group of 32 expanded positions of a sparse step: 16 kept elements; the others are skipped products. -/
def sparseGroup (sp : StepSpec) (bookA bookB : List Nat) (fz : Bool) (ad md asc bd bsc k0 : Nat) : GroupSum :=
  (List.range 16).foldl (fun (g : GroupSum) i =>
    let t := k0 / 2 + i
    let p := keptPos md t
    g.push (stepElem sp bookA fz (scaleByte asc p) (packedElem sp.width ad t)) (stepValue sp bookB fz bd bsc p)) GroupSum.start.skip

/-- An A row as read at the start of a step: data, metadata and scales. -/
structure ARow where
  data : Nat
  md : Nat
  scales : Nat
deriving DecidableEq, Repr

/-- An operand row, or a sparse row (19 R307). -/
def aRowAt (m : Tbl Byte) (sparse : Bool) (r c : Nat) : ARow :=
  ⟨storeLE m r c 32, if sparse then storeLE m r (c + 32) 16 else 0, storeLE m r (if sparse then c + 48 else c + 32) 16⟩

/-- C(i, j) of a floating step: rounding groups in increasing K (02 R49, R53). -/
def floatCell (sp : StepSpec) (bookA bookB : List Nat) (fz : Bool) (a : ARow) (bd bsc : Nat) (c : Nat) : Nat × FFlags :=
  (List.range (sp.k / sp.group)).foldl (fun (acc : Nat × FFlags) g =>
    let s := if sp.sparse then sparseGroup sp bookA bookB fz a.data a.md a.scales bd bsc (32 * g)
             else denseGroup sp bookA bookB fz a.data a.scales bd bsc (sp.group * g)
    let r := groupFinish fz acc.1 s
    (r.1, acc.2.or r.2)) (c, FFlags.none)

/-- C(i, j) of an integer step (02 R50). -/
def intCell (sp : StepSpec) (a : ARow) (bd : Nat) (c : Nat) : Nat :=
  let sum := ((List.range sp.k).map (fun k =>
    intVal sp.sa sp.width (packedElem sp.width a.data k) * intVal sp.sb sp.width (packedElem sp.width bd k))).sum
  let v := intVal true 32 c + sum
  if sp.sat then intCode 32 (clampInt (intLo true 32) (intHi true 32) v) else intCode 32 v

/-- One element of a step. Format codes 0x18 and 0x10 stand for integers. -/
def stepCell (sp : StepSpec) (bookA bookB : List Nat) (fz : Bool) (a : ARow) (bd bsc c : Nat) : Nat × FFlags :=
  if codeIsInt sp.fmt then (intCell sp a bd c, FFlags.none) else floatCell sp bookA bookB fz a bd bsc c

/-- A step's C block: `cols` of the B registers, in order, against rows of A, each element a word of row r + i
from byte c. C is added to as `old` holds it, and written in `m`. -/
def stepBlock (sp : StepSpec) (bookA bookB : List Nat) (fz : Bool) (rows : List ARow) (b : Tbl Byte) (cols : List Nat)
    (old m : Tbl Byte) (r c : Nat) : Tbl Byte × FFlags :=
  (List.range rows.length).foldl (fun (acc : Tbl Byte × FFlags) i =>
    (List.range cols.length).foldl (fun (acc : Tbl Byte × FFlags) jj =>
      let j := cols.getD jj 0
      let v := stepCell sp bookA bookB fz (rows.getD i ⟨0, 0, 0⟩) (bLE b j 0 64) (bLE b j 64 16) (storeLE old (r + i) (c + 4 * jj) 4)
      (storePut acc.1 (r + i) (c + 4 * jj) v.1 4, acc.2.or v.2)) acc) (m, FFlags.none)

/-! ### Effects at retire -/

/-- What a tile holds for a MAT instruction to read. -/
def Tile.view (x : Tile) : MatView := ⟨x.store, x.b, x.bookA, x.bookB⟩

/-- The follower of a tile's pair. -/
def State.follower (s : State) (t : Nat) : Option Nat :=
  match (s.tile t).stream with
  | some st => st.paired
  | none => none

/-- What a MAT instruction of a tile reads at its start: its own tile, and its follower's (19 R308, R314). -/
def State.matViews (s : State) (t : Nat) : MatView × MatView :=
  ((s.tile t).view, ((s.follower t).map (fun n => (s.tile n).view)).getD (s.tile t).view)

/-- Apply a change to a tile with what it held at the start, and with `pair` to its follower. -/
def State.onPair (s : State) (t : Nat) (pair : Bool) (v : MatView × MatView) (f : MatView → Tile → Tile) : State :=
  let s1 := s.setTile t (f v.1 (s.tile t))
  if pair then
    match s.follower t with
    | some n => s1.setTile n (f v.2 (s1.tile n))
    | none => s1
  else s1

/-- A dense or sparse step of a tile, and with `pair` columns 128 to 255 on its follower: the leader's rows and A books, the
follower's B registers, B book and C (19 R314, 21 R336). -/
def State.matStep (s : State) (t : Nat) (v : MatView × MatView) (sp : StepSpec) (fz : Bool) (r1 r2 c2 : Nat) (pair : Bool) : State :=
  let rows := (List.range 128).map (fun i => aRowAt v.1.store sp.sparse (r2 + i) c2)
  let own := stepBlock sp v.1.bookA v.1.bookB fz rows v.1.b (List.range 128) v.1.store (s.tile t).store r1 0
  let s1 := (s.setTile t { s.tile t with store := own.1 }).raise t own.2
  if pair then
    match s.follower t with
    | some n =>
      let other := stepBlock sp v.1.bookA v.2.bookB fz rows v.2.b (List.range 128) v.2.store (s1.tile n).store r1 0
      (s1.setTile n { s1.tile n with store := other.1 }).raise t other.2
    | none => s1
  else s1

/-- An MMV step: B column 16v + s for v = 0 to 7; without a block of the feed A is zero (19 R313). -/
def State.mmvStep (s : State) (t : Nat) (v : MatView × MatView) (sp : StepSpec) (fz : Bool) (r1 c1 r2 c2 sl : Nat) (feed : Bool)
    (blk : Option Nat) : State :=
  let x := s.tile t
  let rows := (List.range 128).map (fun i =>
    if feed then
      match blk, x.feed with
      | some n, some f => aRowAt v.1.store false (f.row + i) (f.col + 64 * (n % 4))
      | _, _ => ARow.mk 0 0 0
    else aRowAt v.1.store false (r2 + i) c2)
  let out := stepBlock sp v.1.bookA v.1.bookB fz rows v.1.b ((List.range 8).map (fun k => 16 * k + sl)) v.1.store x.store r1 c1
  let feed1 := if feed && blk.isSome then x.feed.map (fun (f : Feed) => { f with retired := f.retired + 1 }) else x.feed
  (s.setTile t { x with store := out.1, feed := feed1 }).raise t out.2

/-- MLDB (19 R310). -/
def Tile.loadB (r c : Nat) (wide : Bool) (w : MatView) (x : Tile) : Tile :=
  { x with b := (List.range 128).foldl (fun (b : Tbl Byte) j =>
      (List.range 80).foldl (fun (b : Tbl Byte) i =>
        let v : Byte := if wide then Tbl.getD w.store (512 * (r + j) + c + i) 0
          else if i < 32 then Tbl.getD w.store (512 * (r + j) + c + i) 0
          else if i < 64 then 0
          else Tbl.getD w.store (512 * (r + j) + c + i - 32) 0
        Tbl.put 0 b (80 * j + i) v) b) x.b }

/-- MZERO. -/
def Tile.zeroBlock (r c : Nat) (mv : Bool) (x : Tile) : Tile :=
  { x with store := (List.range 128).foldl (fun (m : Tbl Byte) i => storePut m (r + i) (if mv then c else 0) 0 (if mv then 32 else 512)) x.store }

/-- MSCALE: each column by its word of row r2. -/
def scaleBlock (fz : Bool) (r1 r2 : Nat) (old m : Tbl Byte) : Tbl Byte × FFlags :=
  (List.range 128).foldl (fun (acc : Tbl Byte × FFlags) i =>
    (List.range 128).foldl (fun (acc : Tbl Byte × FFlags) j =>
      let v := mulIn fmtFP32 .rne fz (storeLE old (r1 + i) (4 * j) 4) (storeLE old r2 (4 * j) 4)
      (storePut acc.1 (r1 + i) (4 * j) v.1 4, acc.2.or v.2)) acc) (m, FFlags.none)

/-- MCVT of one element (19 R315): an integer source to an integer target is clamped. -/
def mcvtElem (e : VecMode) (code : Nat) (isInt : Bool) (x : Nat) : Nat × FFlags :=
  if isInt && codeIsInt code then
    let w := codeWidth code
    (intCode w (clampInt (intLo (codeSigned code) w) (intHi (codeSigned code) w) (intVal true 32 x)), {})
  else convertElem e (if isInt then 0x12 else 0x01) code x

def convertBlock (e : VecMode) (code : Nat) (isInt : Bool) (r1 c1 r2 : Nat) (old m : Tbl Byte) : Tbl Byte × FFlags :=
  let n := codeWidth code / 8
  (List.range 128).foldl (fun (acc : Tbl Byte × FFlags) i =>
    (List.range 128).foldl (fun (acc : Tbl Byte × FFlags) j =>
      let v := mcvtElem e code isInt (storeLE old (r2 + i) (4 * j) 4)
      (storePut acc.1 (r1 + i) (c1 + j * n) v.1 n, acc.2.or v.2)) acc) (m, FFlags.none)

/-- MTRN: element (i, j) goes to (j, i), in elements of w bits. -/
def transposeBlock (w r1 c1 r2 c2 : Nat) (old m : Tbl Byte) : Tbl Byte :=
  (List.range 128).foldl (fun (acc : Tbl Byte) j =>
    let row := ((List.range 128).map (fun i => storeLE old (r2 + i) (c2 + j * w / 8) ((w + 7) / 8) / 2 ^ (j * w % 8) % 2 ^ w * 2 ^ (w * i))).sum
    storePut acc (r1 + j) c1 row (16 * w)) m

/-- MCBK: 16 BF16 entries to the A or the B decoders. -/
def Tile.loadBook (r c : Nat) (el : BitVec 1) (w : MatView) (x : Tile) : Tile :=
  let book := (List.range 16).map (fun e => storeLE w.store r (c + 2 * e) 2)
  if el = 0 then { x with bookA := book } else { x with bookB := book }

/-- The record of MTEST: quarters failed, quarters fenced, zeros (19 R315, 21 R341). -/
def Tile.testRecord (r c : Nat) (x : Tile) : Tile :=
  { x with store := storePut x.store r c (x.failed.toNat + 256 * x.fenced.toNat) 16,
           storeMarked := markUnits x.storeMarked (512 * r + c) 16 false }

/-- Remove the entry at the head of the queue: it has retired; its token is complete. -/
def State.popMat (s : State) (t : Nat) : State :=
  let x := s.tile t
  s.setTile t { x with mats := x.mats.drop 1, sinceTest := x.sinceTest + 1,
                       stream := x.stream.map (fun (st : Stream) => { st with matSince := true }) }

/-- A change of the tile store that raises flags, on a tile and with `pair` on its follower. -/
def State.blockOnPair (s : State) (t : Nat) (pair : Bool) (v : MatView × MatView) (f : Tbl Byte → Tbl Byte → Tbl Byte × FFlags) : State :=
  let other := if pair then s.follower t else none
  (s.onPair t pair v (fun w x => { x with store := (f w.store x.store).1 })).raise t
    ((f v.1.store (s.tile t).store).2.or (match other with
      | some n => (f v.2.store (s.tile n).store).2
      | none => FFlags.none))

/-- The effect of a MAT instruction at its retire, from what it read at its start, with ACR as its place in the stream gives it.
MPAIR and MTEST have events of their own. -/
def State.matEffect (s : State) (t : Nat) (v : MatView × MatView) (i : Instr) (acr : Dword) (blk : Option Nat) : State :=
  let fz := acrFz acr
  let e : VecMode := ⟨.rne, fz, acrOfs acr⟩
  match i with
  | .mldb r2 c2 pr wide _ => s.onPair t pr v (Tile.loadB r2.toNat (16 * c2.toNat) wide)
  | .mmaBf16 r1 r2 c2 pr _ => s.matStep t v (floatSpec 0x03 16 16 false) fz r1.toNat r2.toNat (16 * c2.toNat) pr
  | .mmaF16 r1 r2 c2 pr _ => s.matStep t v (floatSpec 0x02 16 16 false) fz r1.toNat r2.toNat (16 * c2.toNat) pr
  | .mmaE4m3 r1 r2 c2 pr _ => s.matStep t v (floatSpec 0x04 32 32 false) fz r1.toNat r2.toNat (16 * c2.toNat) pr
  | .mmaE5m2 r1 r2 c2 pr _ => s.matStep t v (floatSpec 0x05 32 32 false) fz r1.toNat r2.toNat (16 * c2.toNat) pr
  | .mmaMx8 r1 r2 c2 pr el _ => s.matStep t v (floatSpec (mx8Code el) 32 32 false) fz r1.toNat r2.toNat (16 * c2.toNat) pr
  | .mmaMx6 r1 r2 c2 pr el _ => s.matStep t v (floatSpec (mx6Code el) 32 32 false) fz r1.toNat r2.toNat (16 * c2.toNat) pr
  | .mmaMx4 r1 r2 c2 pr el _ => s.matStep t v (floatSpec (mx4Code el) 64 32 false) fz r1.toNat r2.toNat (16 * c2.toNat) pr
  | .mmaI8 r1 r2 c2 pr sat sa sb _ => s.matStep t v ⟨0x10, 8, 32, 32, false, sa, sb, sat⟩ fz r1.toNat r2.toNat (16 * c2.toNat) pr
  | .mmaI4 r1 r2 c2 pr sat sa sb _ => s.matStep t v ⟨0x18, 4, 64, 64, false, sa, sb, sat⟩ fz r1.toNat r2.toNat (16 * c2.toNat) pr
  | .mmasMx4 r1 r2 c2 pr el _ => s.matStep t v (floatSpec (mx4Code el) 128 32 true) fz r1.toNat r2.toNat (16 * c2.toNat) pr
  | .mmasMx8 r1 r2 c2 pr el _ => s.matStep t v (floatSpec (mx8Code el) 64 32 true) fz r1.toNat r2.toNat (16 * c2.toNat) pr
  | .mmvMx4 r1 c1 r2 c2 pr sl ec _ =>
    s.mmvStep t v (floatSpec (if ec = 0 then 0x0A else 0x0C) 64 32 false) fz r1.toNat (16 * c1.toNat) r2.toNat (16 * c2.toNat) sl.toNat pr blk
  | .mmvMx8 r1 c1 r2 c2 pr sl ec _ =>
    s.mmvStep t v (floatSpec (mx8Code ec) 32 32 false) fz r1.toNat (16 * c1.toNat) r2.toNat (16 * c2.toNat) sl.toNat pr blk
  | .mmvBf16 r1 c1 r2 c2 pr sl _ =>
    s.mmvStep t v (floatSpec 0x03 16 16 false) fz r1.toNat (16 * c1.toNat) r2.toNat (16 * c2.toNat) sl.toNat pr blk
  | .mzero r1 c1 pr mv _ => s.onPair t pr v (fun _ => Tile.zeroBlock r1.toNat (16 * c1.toNat) mv)
  | .mscale r1 r2 pr _ => s.blockOnPair t pr v (scaleBlock fz r1.toNat r2.toNat)
  | .mcvt r1 c1 r2 pr code isInt _ => s.blockOnPair t pr v (convertBlock e code.toNat isInt r1.toNat (16 * c1.toNat) r2.toNat)
  | .mtest r1 c1 _ => s.setTile t (Tile.testRecord r1.toNat (16 * c1.toNat) (s.tile t))
  | .mcbk r2 c2 pr el _ => s.onPair t pr v (Tile.loadBook r2.toNat (16 * c2.toNat) el)
  | .mtrn r1 c1 r2 c2 wd _ =>
    let w := match wd.toNat with
      | 0 => 8
      | 1 => 16
      | 2 => 32
      | _ => 4
    let x := s.tile t
    s.setTile t { x with store := transposeBlock w r1.toNat (16 * c1.toNat) r2.toNat (16 * c2.toNat) v.1.store x.store }
  | .mfree _ => match (s.tile t).stream with
    | some st => if st.paired.isSome then
        { (s.setStream t (fun (y : Stream) => { y with paired := none })) with
          tiles := Tbl.mapVals (Tile.unslave t) (s.setStream t (fun (y : Stream) => { y with paired := none })).tiles }
      else s
    | none => s
  | _ => s

/-- A test is due after INTERVAL retired instructions (21 R340). -/
def Tile.intervalTestDue (x : Tile) : Bool :=
  let n := (x.mtcfg.extractLsb' 0 16).toNat
  decide (n ≠ 0) && decide (n ≤ x.sinceTest) && decide (x.fences < 2)

/-- Whether the block an MMV takes has been written, or will never be (19 R313). -/
def Tile.blockReady (x : Tile) (blk : Option Nat) : Bool :=
  match blk, x.feed with
  | some n, some f => f.ended || decide (n < f.written)
  | _, _ => true

/-- The instruction at the head of a tile's queue has started. -/
def Tile.started (x : Tile) : Bool :=
  match x.mats with
  | e :: _ => e.start.isSome
  | [] => false

/-- Whether an instruction acts on both tiles of its pair (19 R314). -/
def matPaired (i : Instr) : Bool :=
  match i with
  | .mldb _ _ pr _ _ | .mmaBf16 _ _ _ pr _ | .mmaF16 _ _ _ pr _ | .mmaE4m3 _ _ _ pr _ | .mmaE5m2 _ _ _ pr _
  | .mmaMx8 _ _ _ pr _ _ | .mmaMx6 _ _ _ pr _ _ | .mmaMx4 _ _ _ pr _ _ | .mmaI8 _ _ _ pr _ _ _ _ | .mmaI4 _ _ _ pr _ _ _ _
  | .mmasMx4 _ _ _ pr _ _ | .mmasMx8 _ _ _ pr _ _ | .mzero _ _ pr _ _ | .mscale _ _ pr _ | .mcvt _ _ _ pr _ _ _
  | .mcbk _ _ pr _ _ => pr
  | _ => false

/-- The follower's test that the step at the head of a queue waits for (21 R345). -/
def State.followerOwes (s : State) (t : Nat) : Bool :=
  match s.follower t with
  | some n => (s.tile n).owed
  | none => false

/-- Whether the head of the queue can start, or once started retire: no test is due first, the queue is not slaved, its block is
there; and it retires only when the access half of its own group has issued (18 R298; log 113). -/
def State.matReady (s : State) (t : Nat) : Bool :=
  let x := s.tile t
  let passed (e : MatEntry) : Bool := match x.stream with
    | some st => st.earlierMat e
    | none => true
  match x.mats with
  | [] => false
  | e :: _ => (if e.start.isSome then passed e
      else !x.intervalTestDue && !s.followerOwes t && x.slavedTo.isNone && x.blockReady e.block) && (match e.instr with
    | .mpair .. => false
    | .mtest .. => decide (2 ≤ x.fences)
    | _ => true)

/-- A block of the tile store: rows from a row on, and bytes of each from a column on. -/
structure StoreBlock where
  row : Nat
  rows : Nat
  col : Nat
  bytes : Nat
deriving DecidableEq, Repr

/-- Whether a block holds a byte of a 16-byte unit; a row has 32 units. -/
def StoreBlock.covers (b : StoreBlock) (u : Nat) : Bool :=
  let c := 16 * (u % 32)
  decide (b.row ≤ u / 32) && decide (u / 32 < b.row + b.rows) && decide (b.col < c + 16) && decide (c < b.col + b.bytes)

/-- What a MAT instruction reads of its own tile's store, what it reads of its follower's, and what it writes of each (19 R307,
R310-R315). -/
structure StoreUse where
  own : List StoreBlock
  other : List StoreBlock
  out : List StoreBlock

def stepUse (r1 r2 : BitVec 9) (c2 : BitVec 5) (n : Nat) : StoreUse :=
  let c : StoreBlock := ⟨r1.toNat, 128, 0, 512⟩
  ⟨[⟨r2.toNat, 128, 16 * c2.toNat, n⟩, c], [c], [c]⟩

def mmvUse (f : Option Feed) (blk : Option Nat) (r1 : BitVec 9) (c1 : BitVec 5) (r2 : BitVec 9) (c2 : BitVec 5) (feed : Bool) : StoreUse :=
  let c : StoreBlock := ⟨r1.toNat, 128, 16 * c1.toNat, 32⟩
  let a : List StoreBlock := if feed then (match blk, f with
      | some n, some x => [⟨x.row, 128, x.col + 64 * (n % 4), 48⟩]
      | _, _ => [])
    else [⟨r2.toNat, 128, 16 * c2.toNat, 48⟩]
  ⟨c :: a, [], [c]⟩

def bothUse (reads out : List StoreBlock) : StoreUse := ⟨reads, reads, out⟩

def storeUse (f : Option Feed) (blk : Option Nat) (i : Instr) : StoreUse :=
  match i with
  | .mldb r2 c2 _ wide _ => bothUse [⟨r2.toNat, 128, 16 * c2.toNat, if wide then 80 else 48⟩] []
  | .mmaBf16 r1 r2 c2 _ _ | .mmaF16 r1 r2 c2 _ _ | .mmaE4m3 r1 r2 c2 _ _ | .mmaE5m2 r1 r2 c2 _ _ | .mmaMx8 r1 r2 c2 _ _ _
  | .mmaMx6 r1 r2 c2 _ _ _ | .mmaMx4 r1 r2 c2 _ _ _ | .mmaI8 r1 r2 c2 _ _ _ _ _ | .mmaI4 r1 r2 c2 _ _ _ _ _ => stepUse r1 r2 c2 48
  | .mmasMx4 r1 r2 c2 _ _ _ | .mmasMx8 r1 r2 c2 _ _ _ => stepUse r1 r2 c2 64
  | .mmvMx4 r1 c1 r2 c2 pr _ _ _ | .mmvMx8 r1 c1 r2 c2 pr _ _ _ | .mmvBf16 r1 c1 r2 c2 pr _ _ => mmvUse f blk r1 c1 r2 c2 pr
  | .mzero r1 c1 _ mv _ => bothUse [] [if mv then ⟨r1.toNat, 128, 16 * c1.toNat, 32⟩ else ⟨r1.toNat, 128, 0, 512⟩]
  | .mscale r1 r2 _ _ => bothUse [⟨r1.toNat, 128, 0, 512⟩, ⟨r2.toNat, 1, 0, 512⟩] [⟨r1.toNat, 128, 0, 512⟩]
  | .mcvt r1 c1 r2 _ code _ _ =>
    bothUse [⟨r2.toNat, 128, 0, 512⟩] [⟨r1.toNat, 128, 16 * c1.toNat, 16 * codeWidth code.toNat⟩]
  | .mcbk r2 c2 _ _ _ => bothUse [⟨r2.toNat, 1, 16 * c2.toNat, 32⟩] []
  | .mtrn r1 c1 r2 c2 wd _ =>
    let n := match wd.toNat with
      | 0 => 128
      | 1 => 256
      | 2 => 512
      | _ => 64
    bothUse [⟨r2.toNat, 128, 16 * c2.toNat, n⟩] [⟨r1.toNat, 128, 16 * c1.toNat, n⟩]
  | _ => bothUse [] []

/-- Whether the instruction at the head of a queue would read a unit that is marked uncorrectable (26 R395). -/
def State.readsMarked (s : State) (t : Nat) (e : MatEntry) : Bool :=
  let use := storeUse (s.tile t).feed e.block e.instr
  let hit (n : Nat) (bs : List StoreBlock) : Bool := (s.tile n).storeMarked.any (fun u => bs.any (fun b => b.covers u))
  hit t use.own || (matPaired e.instr && (match s.follower t with
    | some n => hit n use.other
    | none => false))

/-- Units that an instruction has written hold valid check bits again. -/
def State.unmarkStore (s : State) (t : Nat) (e : MatEntry) : State :=
  let out := (storeUse (s.tile t).feed e.block e.instr).out
  let clear (x : Tile) : Tile := { x with storeMarked := x.storeMarked.filter (fun u => !out.any (fun b => b.covers u)) }
  let s1 := s.setTile t (clear (s.tile t))
  if matPaired e.instr then (match s.follower t with
    | some n => s1.setTile n (clear (s1.tile n))
    | none => s1)
  else s1

/-- The instruction at the head of a queue starts: it reads what it will read (19 R308). -/
def State.matStart (s : State) (t : Nat) : State :=
  let x := s.tile t
  match x.mats with
  | [] => s
  | e :: rest => s.setTile t { x with mats := { e with start := some (s.matViews t) } :: rest }

/-- The tile claimed by the MPAIR at the head of a tile's queue. -/
def State.claims (s : State) (t : Nat) : Option Nat :=
  match (s.tile t).mats with
  | e :: _ => match e.instr with
    | .mpair el _ => pairNeighbour t el
    | _ => none
  | [] => none

/-- Whether a claim can be served: the neighbour is unpaired and its queue is empty; of two that claim each other the lower
index is served first (19 R314). -/
def State.claimReady (s : State) (t n : Nat) : Bool :=
  let y := s.tile n
  let free := y.slavedTo.isNone && (match y.stream with
    | some st => st.paired.isNone
    | none => true)
  !(s.tile t).intervalTestDue && (s.tile t).slavedTo.isNone && free &&
    (y.mats.isEmpty || (s.claims n == some t && decide (t < n)))

/-! ### Restarts (14 R242-R244) -/

/-- A precise trap of a stream raised outside a group's issue: TPC holds `pc`. -/
def State.trapTileFrom (s : State) (t : Nat) (cause : Nat) (addr : Dword) (x : Option Origin) (pc : Dword) : State :=
  let s1 := { s with cur := ⟨.tile, s.tileCtx t, pc, pc, false, [t], [], false, none⟩ }
  { s1.takeTrap (BitVec.ofNat 8 cause) addr x with cur := s.cur, last := none }
def State.trapTile (s : State) (t : Nat) (cause : Nat) (addr pc : Dword) : State := s.trapTileFrom t cause addr none pc

/-- ACR with RM, FZ and OFS of a checkpoint and the flags it holds now. -/
def restoredAcr (now check : Dword) : Dword := (now &&& 0x1F) ||| (check &&& 0x1E0)

/-- A stream at its restart: what has not retired is gone, the queues are empty, and the checkpoint is restored. -/
def Stream.restart (st : Stream) : Stream :=
  { st with head := some st.check.pc, exq := [], acq := [], loops := st.check.loops, rotDue := 0, runCount := 0,
            shape := st.check.shape, shapeNext := none, flying := [], queues := [], wait := none, parked := [], target := none,
            running := true, halted := false, pairIssued := st.check.pairIssued && st.paired.isSome, pos := st.check.pos,
            cycle := 0, hidden := [], mark := none, anew := true, restarts := st.restarts + 1 }

/-- Restart a stream's region (14 R243). -/
def State.restart (s : State) (t : Nat) : State :=
  let x := s.tile t
  let s1 := s.forgetWaits t
  let s2 := s1.setTile t { x with mats := [], stream := x.stream.map Stream.restart,
                                  feed := x.feed.map (fun (f : Feed) => { f with taken := f.retired }) }
  match x.stream with
  | some st => s2.setOwner t { s2.owner t with acr := restoredAcr (s.acr t) st.check.acr, acrNext := none }
  | none => s2

/-- Whether a stream has a region to restart: a part of it runs, or has ended since its record was read. -/
def Stream.inRegion (st : Stream) : Bool :=
  st.running || (match st.pos with
    | .chain _ [] _ _ => false
    | _ => true)

/-- A detected error restarts the region; the fourth detection raises restart-limit instead (14 R244). A stream that is trap-halted
restarts only when the debugger retries it. -/
def State.restartOnError (s : State) (t : Nat) : State :=
  match (s.tile t).stream with
  | none => s
  | some st =>
    if st.halted || !st.inRegion then s
    else if 3 ≤ st.restarts then s.trapTile t causeRestartLimit 0 st.check.pc
    else s.restart t

/-- MAT_RETIRE: the instruction at the head of the queue starts, and once it has started takes effect (19 R308; log 113). One that
would read a marked unit of a tile store restarts the region instead (26 R395; log 134). -/
def execMatRetire (tile : Nat) (s : State) : Outcome State Fault Refusal :=
  if s.matReady tile then
    match (s.tile tile).mats with
    | [] => .next s
    | e :: _ => match e.start with
      | none => .next (if s.readsMarked tile e then s.restartOnError tile else s.matStart tile)
      | some v => .next (((s.matEffect tile v e.instr e.acr e.block).unmarkStore tile e).popMat tile)
  else .next s

/-- The leader of a tile's pair, or the tile itself. -/
def Tile.leader (x : Tile) (t : Nat) : Nat := x.slavedTo.getD t

/-- A tile is one of a pair: it is slaved, or it leads. -/
def State.isPaired (s : State) (t : Nat) : Bool := (s.tile t).slavedTo.isSome || (s.follower t).isSome

/-- A quarter of either tile of a pair has been fenced, or has failed before a paired step: the leader's steps are cancelled, the
pair is released, and the leader's region restarts (21 R343). -/
def State.breakPair (s : State) (t : Nat) : State :=
  let lead := (s.tile t).leader t
  let s1 := s.releasePair lead
  (s1.setTile lead { s1.tile lead with mats := [] }).restartOnError lead

/-- Fences of the addendum take effect: at a pre-emption point of the tile's stream, or at once on an idle tile (26 R392). A pair of
the tile is broken (21 R343). -/
def State.applyFences (s : State) (t : Nat) : State :=
  let x := s.tile t
  if x.fenceDue = 0 then s
  else
    let s1 := s.setTile t { x with fenced := x.fenced ||| x.fenceDue, fenceDue := 0 }
    if s.isPaired t && (s1.tile t).fenced != x.fenced then s1.breakPair t else s1

/-- MPAIR_SLAVE: the follower's queue is slaved and MPAIR retires. Where either tile has been fenced since MPAIR issued, the
leader's region restarts, and MPAIR raises matrix-state when it issues again (21 R342; log 114). -/
def execMpairSlave (tile : Nat) (s : State) : Outcome State Fault Refusal :=
  match s.claims tile with
  | none => .next s
  | some n =>
    if (s.tile tile).fenced != 0 || (s.tile n).fenced != 0 then .next (s.restart tile)
    else if s.claimReady tile n then
      let s1 := s.setTile n { s.tile n with slavedTo := some tile }
      .next ((s1.setStream tile (fun (st : Stream) => { st with paired := some n })).popMat tile)
    else .next s

/-! ### Self-test (21 R340-R343) -/

/-- A quarter that fails: marked and logged the first time, fenced and logged after (21 R341). -/
def State.failQuarter (s : State) (t q : Nat) : State :=
  let x := s.tile t
  let bit : BitVec 4 := 1#4 <<< q
  let entry (kind : Nat) : LogEvent := ⟨s.time, t * 4 + q, kind, 3 + t / 96, t % 96, s.tileCtx t⟩
  if x.failed.getLsbD q then (s.setTile t { x with fenced := x.fenced ||| bit }).log (entry 4)
  else (s.setTile t { x with failed := x.failed ||| bit }).log (entry 3)

/-- A test has run on a tile. -/
def State.tested (s : State) (t : Nat) : State :=
  s.setTile t { s.tile t with sinceTest := 0, owed := false,
                              stream := (s.tile t).stream.map (fun (st : Stream) => { st with matSince := false }) }

/-- The step at the head of a tile's queue, not yet started, acts on both tiles of a pair. -/
def State.pairedNext (s : State) (t : Nat) : Bool :=
  match (s.tile t).mats with
  | e :: _ => e.start.isNone && matPaired e.instr && (s.follower t).isSome
  | [] => false

/-- A failed test: each failing quarter is handled. Before a paired step, or with a new fence on a pair, both tiles are released and
the leader's region restarts; otherwise the tile's own region does (21 R341, R343, R345). -/
def State.failTest (s : State) (t : Nat) (failing : BitVec 4) : State :=
  let before := (s.tile t).fenced
  let s1 := (((List.range 4).filter (fun q => failing.getLsbD q)).foldl (fun u q => u.failQuarter t q) s).tested t
  if s.isPaired t && ((s1.tile t).fenced != before || s.pairedNext t || (s.tile t).owed) then s1.breakPair t
  else s1.restartOnError t

/-- A test that passes: an MTEST at the head of the queue writes its record and retires; a paired step then waits for the test of
the follower (21 R345). -/
def State.passTest (s : State) (t : Nat) : State :=
  let owe (u : State) : State := match s.follower t with
    | some n => if s.pairedNext t && (s.tile t).intervalTestDue then u.setTile n { u.tile n with owed := true } else u
    | none => u
  match (s.tile t).mats with
  | e :: _ => match e.instr with
    | .mtest .. => if (s.tile t).intervalTestDue then s.tested t
      else ((s.matEffect t (s.matViews t) e.instr e.acr e.block).popMat t).tested t
    | _ => owe (s.tested t)
  | [] => s.tested t

/-- A REGION or EXIT stands at the head of a stream's path, and everything before it has landed and retired (03 R80, R81). -/
def State.commitWaits (s : State) (t : Nat) : Bool :=
  match (s.tile t).stream with
  | some st => st.running && st.acq.isEmpty && s.drained t true && (match st.head with
    | some a => s.groupAny commits (s.tileCtx t) st.seen 24 a
    | none => false)
  | none => false

/-- Whether a test stands before the next MAT instruction or region commit, or is an MTEST (21 R340). -/
def State.testDue (s : State) (t : Nat) : Bool :=
  let x := s.tile t
  decide (x.fences < 2) && !x.started && (x.intervalTestDue || x.owed || (s.commitTestDue t && s.commitWaits t) || (match x.mats with
    | e :: _ => (match e.instr with
      | .mtest .. => true
      | _ => false)
    | [] => false))

/-- MATRIX_SELF_TEST: a test that is due runs; `failing` names the unfenced quarters whose results differ. -/
def execMatrixSelfTest (tile : Nat) (failing : BitVec 4) (s : State) : Outcome State Fault Refusal :=
  if s.testDue tile then
    let bad := failing &&& ~~~(s.tile tile).fenced
    .next (if bad = 0 then s.passTest tile else s.failTest tile bad)
  else .next s

end Sys2Proof.Machine
end

