-- ==== Sys2Proof/Machine/Place.lean ====
section
/-! DEFINITION. The hub's launches: the header checks (06 R126, 07 R144, R145), dispatch (07 R147, 25 R376), placing crews (07
R148-R151), starting them (06 R122, R123, R127, R128), their ends and the launch's completion (03 R81, 07 R161, 25 R377), and
evicting, saving and restoring them (07 R150, 14 R246-R252). -/

namespace Sys2Proof.Machine

open Host (Outcome)

/-! ### Islands (27 R397, R399) -/

/-- Numbers of islands: eight for each raster die, twelve for each tensor die. -/
def coreIsland (k : Nat) : Nat := 8 * (k / 48) + k % 48 / 8
def tileIsland (t : Nat) : Nat := 24 + 12 * (t / 96) + t % 96 / 12

/-- Whether every rail that feeds an island of a die is in range. -/
def State.railsGood (s : State) (die island : Nat) : Bool :=
  !s.power.badRails.any (fun r => match r with
    | .vcore n => n == island
    | .vaon d => d == die
    | _ => false)

/-- Whether the record in use enables a core, or a tile (00 R2, 26 R390). -/
def State.coreEnabled (s : State) (k : Nat) : Bool := !(s.usedRecord.any (fun (r : FlashImage) => r.offCores.contains k))
def State.tileEnabled (s : State) (t : Nat) : Bool := !(s.usedRecord.any (fun (r : FlashImage) => r.offTiles.contains t))

/-- A core, or a tile, that can run. -/
def State.coreUp (s : State) (k : Nat) : Bool := s.boot == .running && s.coreEnabled k && s.die (k / 48) == .running && s.railsGood (k / 48) (coreIsland k)
def State.tileUp (s : State) (t : Nat) : Bool :=
  s.boot == .running && s.tileEnabled t && s.die (3 + t / 96) == .running && s.railsGood (3 + t / 96) (tileIsland t)

/-! ### Header checks (07 R144, R145) -/

/-- Whether n bytes at an address translate with read permission in a context: nothing is read, so nothing is backed (07 R145). -/
def State.canReadRange (s : State) (ctx : Nat) (a : Dword) (n : Nat) : Bool :=
  let lo := a.toNat
  n == 0 || (List.range ((lo + n - 1) / 65536 - lo / 65536 + 1)).all (fun i =>
    match s.walk ctx (65536 * (lo / 65536 + i)) with
    | .page p => p.canRead
    | .reserved _ e0 _ _ => e0.getLsbD 2
    | _ => false)

/-- An entry pc: its low and high bits are zero and its page is executable (07 R144, R145). -/
def State.entryOk (s : State) (ctx : Nat) (a : Dword) : Bool :=
  targetOk a && (match s.walk ctx a.toNat with
    | .page p => p.canExec
    | _ => false)

/-- R126's limits. -/
def widthsOk (h : List Dword) : Bool :=
  let w := hdrWidth h
  let sum := hdrOffset h 6
  decide (1 ≤ w 0) && decide (w 0 ≤ 6) && decide (w 1 ≤ 4) && decide (w 2 ≤ if hdrGrove h then 3 else 0) && decide (sum ≤ 64)
    && (h.getD 2 0).toNat / 2 ^ sum == 0

/-- Fields of H2 of a tile launch (18 R304). -/
def tileField (h : List Dword) (lo n : Nat) : Nat := (h.getD 2 0).toNat / 2 ^ lo % 2 ^ n
def tileRec (h : List Dword) : Bool := (h.getD 2 0).getLsbD 20
def tileDie (h : List Dword) : Nat := tileField h 17 3
def tileFix (h : List Dword) : Bool := (h.getD 2 0).getLsbD 16
def tileRows (h : List Dword) : Nat := tileField h 0 4 + 1
def tileCols (h : List Dword) : Nat := tileField h 4 4 + 1

def tileSetOk (h : List Dword) : Bool :=
  let d := tileDie h
  let r := tileField h 8 4
  let c := tileField h 12 4
  (h.getD 2 0).toNat / 2 ^ 21 == 0 && (d == 0 || (decide (3 ≤ d) && decide (d ≤ 5))) && (tileFix h || (r == 0 && c == 0))
    && decide (r + tileRows h ≤ 8) && decide (c + tileCols h ≤ 12)

/-- A tile header's kind-specific fields. -/
def tileHeaderOk (h : List Dword) : Bool :=
  (h.getD 3 0).extractLsb' 0 42 == 0 && hdrRegs h == 8 && hdrScratch h == 0 && hdrLease h == 0 && tileSetOk h

/-- SCRATCH within a core, or within a half of a grove's window (06 R138). -/
def scratchOk (h : List Dword) : Bool :=
  decide (hdrScratch h ≤ Config.scratchMax) && decide (hdrRegs h * hdrExtent h 1 ≤ 2048) &&
    (!hdrGrove h || decide (roundUp (hdrScratch h) 32768 ≤ 4194304 / ((hdrExtent h 2 + 1) / 2)))

/-- Graph-node fields. -/
def nodeFieldsOk (h : List Dword) (slotSize : Nat) : Bool :=
  let n := hdrBatch h
  let r := hdrRecSize h
  !hdrGrove h && [2, 3, 4, 5].all (fun i => hdrWidth h i == 0) && decide (1 ≤ n) && decide (n ≤ 1024)
    && decide (n ≤ hdrExtent h 0 * hdrExtent h 1) && (hdrExtent h 1 == 1 || hdrExtent h 0 == 2 ^ hdrWidth h 0)
    && r % 8 == 0 && decide (8 ≤ r) && decide (r ≤ 4096) && decide (r ≤ slotSize) && hdrTmo h != 0

/-- A plan is absent, or valid and used with EXCL (07 R162). -/
def State.planOk (s : State) (ctx : Nat) (h : List Dword) : Bool :=
  hdrPlan h == 0 || (hdrExcl h && (hdrPlan h).toNat % 64 == 0 && (match s.planBytes ctx h with
    | .error _ => true
    | .ok (bs, _) =>
      (bs.take 16).all (fun g => decide (g ≤ 12) || g == 0xFF) && bs.getD 0 0 != 0xFF && decide (bs.getD 16 0 ≤ 1)
        && ((bs.drop 17).take 15).all (fun b => b == 0) && decide (roundUp (hdrScratch h) 128 ≤ bs.getD 0 0 * 32768)))

/-- Reserved bits are zero. -/
def reservedOk (h : List Dword) : Bool :=
  (h.getD 3 0).extractLsb' 58 6 == 0 && (h.getD 3 0).extractLsb' 50 6 == 0 && (h.getD 4 0).extractLsb' 45 19 == 0
    && (h.getD 4 0).extractLsb' 19 13 == 0 && (h.getD 7 0).extractLsb' 27 5 == 0

/-- A header's beads can be used by a launch of the context (25 R380, 18 R305, 22 R351). -/
def State.launchBeadOk (s : State) (ctx n : Nat) : Bool := n == 0xFFFF || (s.beadAt ctx none n).isSome

/-- A plan's page fails translation for reading: not one that only waits for a frame (07 R145). -/
def State.planFails (s : State) (ctx : Nat) (h : List Dword) : Bool :=
  match s.planBytes ctx h with
  | .ok _ => false
  | .error _ => !s.planWaits ctx h

/-- The refusal code of a header, 0 where it is accepted: the lowest that applies (07 R145). `node` says that it comes from a node
table. -/
def State.headerCode (s : State) (ctx : Nat) (h : List Dword) (node : Bool) : Nat :=
  let kind := hdrKind h
  let tile := kind == 1
  let bad : List (Bool × Nat) :=
    [(!tile && !widthsOk h, 0x01),
     (kind == 3 || ((kind == 2) != node) || (kind == 0 && h.getD 7 0 != 0) || (tile && !tileHeaderOk h), 0x02),
     (!tile && !scratchOk h, 0x03),
     (node && !nodeFieldsOk h (s.ctx ctx).poolSize, 0x04),
     (!s.planOk ctx h, 0x05),
     ((if tile && tileRec h then !s.canReadRange ctx (h.getD 0 0) (8 * tileRows h * tileCols h) || !targetOk (h.getD 0 0)
        else !s.entryOk ctx (h.getD 0 0)) || s.planFails ctx h, 0x06),
     (!reservedOk h, 0x07),
     (!s.launchBeadOk ctx (hdrWaitBead h) || !s.launchBeadOk ctx (hdrDoneBead h), 0x08)]
  ((bad.find? (fun e => e.1)).map Prod.snd).getD 0

/-- Whether the hub must wait for a header's plan before it can tell the header's code: it need not where one of the codes that come
before the plan's applies (07 R145, R162). -/
def State.headerWaits (s : State) (ctx : Nat) (h : List Dword) (node : Bool) : Bool :=
  s.planWaits ctx h && !(decide (1 ≤ s.headerCode ctx h node) && decide (s.headerCode ctx h node ≤ 4))

/-! ### Dispatch (07 R147, 25 R376) -/

/-- The queue a launch came through. -/
def LaunchFrom.queue : LaunchFrom → Option Nat
  | .hostRing q _ => some q
  | .deviceRing q => some q
  | _ => none

/-- The launches of a queue that have come before one. -/
def State.launchesBefore (s : State) (l : Nat) (x : Launch) : List (Nat × Launch) :=
  match x.origin.queue with
  | none => []
  | some q => s.launches.filter (fun e => decide (e.1 < l) && e.2.ctx == x.ctx && e.2.origin.queue == some q)

/-- Crews of a launch in numbers: the extents above the bundle (06 R127). -/
def crewCountOf (h : List Dword) : Nat := hdrExtent h 2 * hdrExtent h 3 * hdrExtent h 4 * hdrExtent h 5

/-- LAUNCH_DISPATCH: the hub takes the next entry of a queue, unless a launch of it still waits on its bead: the header is read,
the head advances, and the launch is refused or enters. -/
def State.dispatch (s : State) (ctx q : Nat) : State :=
  let x := s.launchQueue ctx q
  let waits := s.launches.any (fun e => e.2.ctx == ctx && e.2.origin.queue == some q && e.2.phase == .waiting)
  match x.entries with
  | [] => s
  | p :: rest =>
    if x.size = 0 ∨ waits ∨ s.boot ≠ .running then s
    else
      let n := x.size
      let at0 := x.qbase.toNat + (if p.fromHost then 0 else 80 * n) + 64 * p.slot
      let h := s.headerAt at0
      let x1 := { x with entries := rest, qhead := if p.fromHost then (p.slot + 1) % n else x.qhead,
                         devHead := if p.fromHost then x.devHead else (p.slot + 1) % n }
      let s1 := s.setLaunchQueue ctx q x1
      let code := s1.headerCode ctx h false
      if s1.headerWaits ctx h false then s
      else
      let from_ : LaunchFrom := if p.fromHost then .hostRing q p.slot else .deviceRing q
      if code ≠ 0 then
        if p.fromHost then s1.writeSlot ctx from_ code 0 0
        else s1.post ctx 8 [BitVec.ofNat 64 p.seq, BitVec.ofNat 64 code]
      else s1.addLaunch ctx p.seq h from_ (if hdrKind h = 1 then 0 else crewCountOf h) []

def execLaunchDispatch (ctx q : Nat) (s : State) : Outcome State Fault Refusal := .next (s.dispatch ctx q)

/-- BATCH_TIMEOUT: the oldest pending record of a node has waited its TMO, so a short batch is taken (07 R161). Device time is
then at least that instant. -/
def execBatchTimeout (ctx node : Nat) (s : State) : Outcome State Fault Refusal :=
  .next (match Tbl.find? (s.ctx ctx).nodes node with
    | none => s
    | some nd => match nd.pending with
      | [] => s
      | (_, t) :: _ =>
        -- a full batch is still pending only where its header's plan waited for a frame
        (if hdrBatch nd.hdr ≤ nd.pending.length then s else s.timeReaches (t + hdrTmo nd.hdr)).takeBatch ctx node (hdrBatch nd.hdr))

/-! ### Where a crew fits (07 R149, R151) -/

/-- Scratchpad bytes of the crews on a core. -/
def State.scratchUsed (s : State) (k : Nat) : Nat :=
  ((s.resident k).map (fun e => roundUp (hdrScratch (s.header e.2.launch)) 128)).sum

/-- The scratchpad a crew of a launch may share on a core: what the plan's phase gives an exclusive launch, else all. -/
def State.scratchRoom (s : State) (k l : Nat) : Nat :=
  match Tbl.find? s.launches l with
  | some x => if hdrPlan x.hdr = 0 then Config.scratchMax
      else if (s.resident k).isEmpty then x.plan.getD 0 0 * 32768 else (s.core k).granules * 32768
  | none => 0

/-- Whether a crew of a launch with nb bundles fits on a core. -/
def State.coreFits (s : State) (l nb k : Nat) : Bool :=
  let h := s.header l
  let others := ((s.resident k).filterMap (fun e => if e.2.launch = l then none else some e.2.launch)).eraseDups
  s.coreUp k && decide (nb ≤ s.slotsFree k) && decide (s.granulesOn k + nb * (hdrRegs h / 8) ≤ 256)
    && decide (s.scratchUsed k + roundUp (hdrScratch h) 128 ≤ s.scratchRoom k l) && decide (others.length ≤ 3)
    && (others.isEmpty || (!hdrExcl h && others.all (fun o => !hdrExcl (s.header o))))

/-- What a crew needs of a core: slots for its bundles, the flume numbers it brings, and a grove's second die. -/
structure CrewNeed where
  bundles : Nat
  flumes : List Nat
  second : Bool
deriving DecidableEq, Repr

/-- Whether a core takes a crew: it fits, and the flume numbers that the crew brings are free there (07 R149, 12 R230). -/
def State.coreTakes (s : State) (l : Nat) (c : CrewNeed) (k : Nat) : Bool :=
  s.coreFits l c.bundles k && c.flumes.all (fun f => !s.flumeBound k f)

/-- The core taken: the most free register granules, then the lowest die and core. -/
def State.pickCore (s : State) (l : Nat) (c : CrewNeed) (cands : List Nat) : Option Nat :=
  (rankSort (fun k => [s.granulesOn k, k]) (cands.filter (s.coreTakes l c))).head?

/-- A core of its own for each of several crews. -/
def State.pickCores (s : State) (l : Nat) (cands : List Nat) : List CrewNeed → Option (List Nat)
  | [] => some []
  | c :: rest =>
    match s.pickCore l c cands with
    | none => none
    | some k => (s.pickCores l (cands.filter (fun j => j != k)) rest).map (fun ks => k :: ks)

/-- The cores of a die. -/
def dieCores (d : Nat) : List Nat := (List.range 48).map (fun i => 48 * d + i)

/-! ### What is due (07 R148, R150) -/

/-- Crews that are placed together: fresh ones by crew index, or saved ones, of a launch. -/
structure DueUnit where
  launch : Nat
  fresh : List Nat
  saved : List Nat
deriving DecidableEq, Repr

/-- The crew index of the n-th crew: fields f2 to f5, the lowest turning fastest (06 R127). -/
def crewIndexOf (h : List Dword) (n : Nat) : Nat :=
  let step (acc : Nat × Nat) (i : Nat) : Nat × Nat :=
    (acc.1 / hdrExtent h i, acc.2 + acc.1 % hdrExtent h i * 2 ^ (hdrOffset h i - hdrOffset h 2))
  ([2, 3, 4, 5].foldl step (n, 0)).2

/-- Every crew of a launch has been placed and has started; a tile launch's streams have been placed. -/
def State.launchStarted (s : State) (l : Nat) (x : Launch) : Bool :=
  if hdrKind x.hdr = 1 then x.phase != .waiting && (x.phase != .running || !x.tiles.isEmpty)
  else x.phase != .waiting && (x.phase != .running ||
    (x.nextCrew == x.crewCount && s.crews.all (fun e => e.2.launch != l || e.2.started || e.2.ended)))

/-- A launch may start crews: the launches before it in its queue have started all of theirs (07 R147). -/
def State.mayStart (s : State) (l : Nat) (x : Launch) : Bool :=
  x.phase == .running && (s.launchesBefore l x).all (fun e => s.launchStarted e.1 e.2)

/-- The next crews of a launch: one, or a whole grove. -/
def State.freshUnit (s : State) (l : Nat) (x : Launch) : Option DueUnit :=
  if x.nextCrew < x.crewCount ∧ hdrKind x.hdr ≠ 1 ∧ s.mayStart l x = true then
    let n := if hdrGrove x.hdr then hdrExtent x.hdr 2 else 1
    some ⟨l, (List.range n).map (fun i => crewIndexOf x.hdr (x.nextCrew + i)), []⟩
  else none

/-- The saved crews that come back with one: itself, or its grove once all of it is saved. -/
def State.savedUnit (s : State) (c : Nat) (x : Crew) : Option DueUnit :=
  if x.saved && !x.ended then
    match x.grove with
    | none => some ⟨x.launch, [], [c]⟩
    | some g =>
      let all := s.crews.filter (fun e => e.2.grove == some g && !e.2.ended)
      if all.all (fun e => e.2.saved) && (all.head?).map Prod.fst == some c then some ⟨x.launch, [], all.map Prod.fst⟩ else none
  else none

/-- Higher PRIO first, then contexts in turn, then the launches' order, then rising crews. -/
def State.unitRank (s : State) (u : DueUnit) : List Nat :=
  let first := match u.fresh, u.saved with
    | i :: _, _ => i
    | [], c :: _ => ((Tbl.find? s.crews c).map (fun (x : Crew) => x.index)).getD 0
    | [], [] => 0
  [7 - hdrPrio (s.header u.launch), (s.launchCtx u.launch + 511 - s.lastContext) % 512, u.launch, first]

/-- Everything due, in the order the hub takes it. -/
def State.dueUnits (s : State) : List DueUnit :=
  rankSort s.unitRank (s.launches.filterMap (fun e => s.freshUnit e.1 e.2) ++ s.crews.filterMap (fun e => s.savedUnit e.1 e.2))

/-- What each crew of a unit needs of its core. -/
def State.unitCrews (s : State) (u : DueUnit) : List CrewNeed :=
  let h := s.header u.launch
  let second (i : Nat) : Bool := hdrGrove h && decide ((hdrExtent h 2 + 1) / 2 ≤ i % 2 ^ hdrWidth h 2)
  u.fresh.map (fun i => ⟨hdrExtent h 1, [], second i⟩) ++
    u.saved.filterMap (fun c => (Tbl.find? s.crews c).map (fun (x : Crew) => ⟨x.bundles.length, Tbl.keys x.flumes, second x.index⟩))

/-- The cores a unit takes, in its crews' order: a grove takes the die pair G0, G1 when both have room for it, else G1, G2. -/
def State.unitCores (s : State) (u : DueUnit) : Option (List Nat) :=
  let cs := s.unitCrews u
  if hdrGrove (s.header u.launch) then
    let pair (d : Nat) : Option (List Nat) :=
      match s.pickCores u.launch (dieCores d) (cs.filter (fun c => !c.second)),
            s.pickCores u.launch (dieCores (d + 1)) (cs.filter (fun c => c.second)) with
      | some a, some b => some (a ++ b)
      | _, _ => none
    (pair 0).or (pair 1)
  else s.pickCores u.launch (List.range Config.cores) cs

/-! ### Placing (07 R149, R151, 14 R247) -/

/-- The scratchpad of a core once a crew of a launch joins it: it grows in 32 KiB granules, and shrinks only when empty; a plan's
phase 0 is applied to an empty core. A core that is resized loses its victim tags; the drain that SPLITSTAT reports stays that of the
last SPLIT (log 127). -/
def State.resizeScratch (s : State) (k l : Nat) : State :=
  let y := s.core k
  let x := (Tbl.find? s.launches l).map (fun (v : Launch) => (hdrPlan v.hdr, v.plan.getD 0 0))
  let need := (s.scratchUsed k + roundUp (hdrScratch (s.header l)) 128 + 32767) / 32768
  let empty := (s.resident k).isEmpty
  let g := match x with
    | some (p, g0) => if p ≠ 0 then (if empty then g0 else y.granules) else if empty then need else max y.granules need
    | none => y.granules
  s.setCore k { y with granules := g, phase := if empty then 0 else y.phase, victims := if g = y.granules then y.victims else [] }

/-- What the launch holds on the core: what it holds there already, what it left behind when its last crew was saved, or new. -/
def State.openStay (s : State) (l k : Nat) : State :=
  match s.findStay l k with
  | some _ => s
  | none =>
    match List.find? (fun (e : Nat × Stay) => e.2.launch == l && e.2.core.isNone) s.stays with
    | some (i, x) => { s with stays := Tbl.insert s.stays i { x with core := some k } }
    | none => { s with stays := Tbl.insert s.stays (Tbl.nextKey s.stays) ⟨l, some k, [], [], none⟩ }

/-- A core hosts a crew. -/
def State.hostCrew (s : State) (c : Nat) (x : Crew) (k : Nat) : State :=
  let s1 := (s.resizeScratch k x.launch).openStay x.launch k
  { (s1.setCrew c { x with core := some k, saved := false }).recompute k with lastContext := s.launchCtx x.launch }

/-- Place a fresh crew (07 R158). -/
def State.placeCrew (s : State) (l i : Nat) (grove : Option Nat) (k : Nat) : State :=
  let c := Tbl.nextKey s.crews
  let y := s.core k
  let rs := ((Tbl.find? s.launches l).map (fun (x : Launch) => x.batch)).getD []
  let x : Crew :=
    { launch := l, index := i, grove := grove, core := none, saved := false, started := false, ended := false, seq := y.nextSeq,
      bundles := [], scratch := [], absent := [], marked := [], heldSignals := [], bars := [], flumes := [], mill := none,
      records := rs, meshes := [], stopping := false }
  (s.setCore k { y with nextSeq := y.nextSeq + 1 }).hostCrew c x k

/-- Place a unit of fresh crews on the cores taken for it. -/
def State.placeFresh (s : State) (u : DueUnit) (ks : List Nat) : State :=
  let h := s.header u.launch
  let g := Tbl.nextKey s.groves
  let s1 := if hdrGrove h then { s with groves := Tbl.insert s.groves g ⟨u.launch, u.fresh.headD 0 / 2 ^ hdrWidth h 2, [], []⟩ } else s
  let grove : Option Nat := if hdrGrove h then some g else none
  let s2 := (u.fresh.zip ks).foldl (fun (t : State) e => t.placeCrew u.launch e.1 grove e.2) s1
  match Tbl.find? s2.launches u.launch with
  | some x => s2.setLaunch u.launch { x with nextCrew := x.nextCrew + u.fresh.length }
  | none => s2

/-- The first unit due of each launch, fresh or saved: until it is placed, no later crew of its launch is (07 R148, R150). -/
def State.firstUnits (s : State) : List DueUnit :=
  s.dueUnits.foldl (fun (us : List DueUnit) u => if us.any (fun v => v.launch == u.launch) then us else us ++ [u]) []

/-- The first unit that can be placed, with its cores: the hub takes what is due in order, and a launch whose next crews find no room
waits without holding back the other launches (DEDUCED, log 52). -/
def State.nextUnit (s : State) : Option (DueUnit × List Nat) :=
  s.firstUnits.findSome? (fun u => (s.unitCores u).map (fun ks => (u, ks)))

/-- CREW_PLACEMENT: the next crews due are placed. -/
def execCrewPlacement (s : State) : Outcome State Fault Refusal :=
  .next (match s.nextUnit with
    | some (u, ks) => if u.saved.isEmpty then s.placeFresh u ks else s
    | none => s)

/-! ### Starting (06 R122, R123, R127, R128) -/

/-- The strand index and identifier of each strand of a bundle that is live at its start: f0 below e0, and below the batch's size
in a node's crew. -/
def startStrands (h : List Dword) (index : Nat) (batch : Option Nat) : List (Nat × Nat) :=
  ((List.range (hdrExtent h 0)).map (fun i => (i, i + index * 2 ^ hdrWidth h 0))).filter (fun e => match batch with
    | some n => decide (e.2 < n)
    | none => true)

/-- A strand at its start: d0 holds its identifier, and d1 its record in a node's crew. -/
def State.startStrand (s : State) (b : Nat) (pc : Dword) (records : List Dword) (e : Nat × Nat) : State :=
  let i := strandKey b e.1
  let s1 := (s.setStrand i { Strand.fresh pc with born := s.epoch }).setD2 i 0 ⟨BitVec.ofNat 64 e.2, none⟩
  match records[e.2]? with
  | some r =>
    -- which records share a batch depends on timing, so it is recorded and replayed (08 R184)
    let v := s1.deliver b e.1 7 r
    v.2.setD2 i 1 ⟨v.1, none⟩
  | none => s1

/-- Create a bundle of a crew in the lowest free slot of its core. -/
def State.startBundle (s : State) (c : Nat) (f1 : Nat) : State :=
  match Tbl.find? s.crews c with
  | none => s
  | some x =>
    let h := s.header x.launch
    let index := x.index * 2 ^ hdrWidth h 1 + f1
    let batch := match Tbl.find? s.launches x.launch with
      | some y => (match y.origin with
        | .node _ => some y.batch.length
        | _ => none)
      | none => none
    let live := startStrands h index batch
    match live, x.core with
    | _ :: _, some k =>
      let slot := (s.freeSlot k).getD 0
      let b := s.nextBundle
      let lease := hdrLease h
      let y : Bundle :=
        { crew := c, index := index, f1 := f1, slot := slot, rot := 17 * slot % 64,
          declared := if lease = 0 then none else some (min lease (s.leaseMax (s.launchCtx x.launch))), est := 64, touched := [],
          copyOrd := 0, meshOrd := 0, mesh := [], raster := none, rasterRec := none, exited := false }
      let s1 := ({ s with bundles := Tbl.insert s.bundles b y, nextBundle := b + 1 }).setCrew c { x with bundles := x.bundles ++ [b] }
      let s2 := (s1.setOwner b Owner.fresh).putS b 1 (h.getD 1 0)
      live.foldl (fun (t : State) e => t.startStrand b (h.getD 0 0) x.records e) s2
    | _, _ => s

/-- Start a placed crew. The start of a launch's first crew ends the window of the read-only path (08 R179, R181). -/
def State.startCrew (s : State) (c : Nat) : State :=
  match Tbl.find? s.crews c with
  | none => s
  | some x =>
    match x.core with
    | none => s
    | some k =>
      let s1 := s.setCrew c { x with started := true }
      let s2 := { s1 with launches := Tbl.modify s1.launches x.launch (fun (y : Launch) => { y with begun := some (y.begun.getD s.writes) }) }
      ((List.range (hdrExtent (s.header x.launch) 1)).foldl (fun (t : State) i => t.startBundle c i) s2).recompute k

/-- Crews that start together. -/
def State.together (s : State) (c : Nat) (x : Crew) : List Nat :=
  match x.grove with
  | none => [c]
  | some g => (s.crews.filter (fun e => e.2.grove == some g && !e.2.ended)).map Prod.fst

/-- CREW_START: a placed crew starts, its grove's crews with it (06 R137). -/
def execCrewStart (crew : Nat) (s : State) : Outcome State Fault Refusal :=
  .next (match Tbl.find? s.crews crew with
    | none => s
    | some x => if x.started || x.ended || x.core.isNone then s else (s.together crew x).foldl State.startCrew s)

/-! ### Ends (03 R81, 07 R161) -/

/-- The core loses a crew of a launch: with the last one, what the launch holds there is given up, unless crews of it are saved. -/
def State.leaveStay (s : State) (l k : Nat) : State :=
  if (s.resident k).any (fun e => e.2.launch == l) then s
  else
    match s.findStay l k with
    | none => s
    | some i =>
      if s.crews.any (fun e => e.2.launch == l && e.2.saved && !e.2.ended) then
        { s with stays := Tbl.modify s.stays i (fun (x : Stay) => { x with core := none, splitTo := none }) }
      else { s with stays := Tbl.erase s.stays i }

/-- A crew ends: its records return to the pool, and its core is free of it. -/
def State.endCrew (s : State) (c : Nat) : State :=
  match Tbl.find? s.crews c with
  | none => s
  | some x =>
    let s1 := (s.freeRecords (s.launchCtx x.launch) x.records).setCrew c
      { x with ended := true, core := none, scratch := [], absent := [], marked := [], flumes := [], records := [], meshes := [], stopping := false }
    let s2 := match Tbl.find? s1.launches x.launch with
      | some y => s1.setLaunch x.launch { y with endedCrews := y.endedCrews + 1 }
      | none => s1
    match x.core with
    | none => s2
    | some k =>
      ((s2.setCore k { s2.core k with evict := (s2.core k).evict.filter (fun y => y != c) }).leaveStay x.launch k).recompute k

/-- A crew whose bundles have all ended, with nothing to come. -/
def State.crewOver (s : State) (c : Nat) : Bool :=
  match Tbl.find? s.crews c with
  | some x => x.started && !x.ended && x.bundles.isEmpty && !s.meshesPending c
  | none => false

/-- A bundle that ends holds its mill no longer: the core's, or one saved with its crew (12 R217). -/
def State.freeMill (s : State) (k b : Nat) : State :=
  let s1 := if (s.core k).mill.any (fun m => m.holder == b) then s.setMill k none else s
  s1.dropSavedMill b

/-- BUNDLE_END: a bundle whose strands have exited and whose copies have completed gives up its registers, its lease and its mill, and
its crew ends with its last bundle. -/
def State.endBundle (s : State) (b : Nat) : State :=
  match s.crewOf b, Tbl.find? s.bundles b with
  | some (c, x), some y =>
    let s1 := if y.exited && x.bundles.contains b && (s.channelsOf b == 0) then
        let t := s.setCrew c { x with bundles := x.bundles.filter (fun z => z != b) }
        match x.core with
        | some k => (t.freeMill k b).recompute k
        | none => t.freeMill 0 b
      else s
    if s1.crewOver c then s1.endCrew c else s1
  | _, _ => s

def execBundleEnd (b : Nat) (s : State) : Outcome State Fault Refusal := .next (s.endBundle b)

/-- Whether every part of a launch is over. -/
def State.workOver (s : State) (l : Nat) (x : Launch) : Bool :=
  x.phase == .running && x.meshes == 0 && x.frags.isEmpty && !s.copies.any (fun e => e.2.launch == some l) &&
    !s.channels.any (fun e => e.2.launch == l && !e.2.done && decide (e.2.next < e.2.total)) &&
    (if hdrKind x.hdr = 1 then !x.tiles.isEmpty && x.tiles.all (fun t => x.endedTiles.contains t)
     else x.nextCrew == x.crewCount && s.crews.all (fun e => e.2.launch != l || e.2.ended))

/-- Signal a done bead, or post event 0x09 where it has become unusable (07 R147, 18 R302). -/
def State.signalDone (s : State) (ctx seq bead n : Nat) : State :=
  if bead = 0xFFFF then s
  else
    match s.beadAt ctx none bead with
    | some a => s.signal ctx a n
    | none => s.post ctx 9 [BitVec.ofNat 64 seq, BitVec.ofNat 64 bead]

/-- Nothing of a node is pending or held, and nothing of its context can still commit a record to it: no launch runs or is queued, and
no record of another node waits for a crew that could (07 R161). -/
def State.nodeOver (s : State) (ctx n : Nat) : Bool :=
  match Tbl.find? (s.ctx ctx).nodes n with
  | none => false
  | some nd => nd.active && (s.ctx ctx).nodes.all (fun e => e.2.pending.isEmpty) &&
      !s.launches.any (fun e => e.2.ctx == ctx && (e.2.phase == .running || e.2.phase == .waiting)) &&
      !(s.ctx ctx).queues.any (fun e => !e.2.entries.isEmpty)

/-- The audit of a channel whose binding has no tile to send falls at its launch's completion (22 R355). -/
def State.auditEmpty (s : State) (l : Nat) : State :=
  (s.channels.filter (fun e => e.2.launch == l && !e.2.done)).foldl (fun (t : State) e => t.frameAudit e.1) s

/-- The region entries of a tile launch's tiles with dirty units that its end writes back (15 R266). -/
def State.owedBy (s : State) (x : Launch) : List (Nat × Nat) :=
  if hdrKind x.hdr = 1 then
    (x.tiles.map (fun t => (s.tile t).owedEntries.map (fun e => (t, e)))).flatten
  else []
def State.owesBack (s : State) (x : Launch) : Bool := !(s.owedBy x).isEmpty

/-- The end of a tile launch writes back the dirty units of its tiles: as copies of the launch, which it awaits (15 R266). -/
def State.writeBackAll (s : State) (l : Nat) (x : Launch) : State :=
  (s.owedBy x).foldl (fun (u : State) e =>
    let list := (u.tile e.1).dirtyOf e.2
    u.issueCopy { issuer := none, ctx := x.ctx, launch := some l, kind := .writeBack e.2 list false,
                  parts := [⟨.global x.ctx, 0, .tile e.1, 0, 0⟩], units := list.length, done := [], tokens := [], bead := none,
                  hostBead := none, cleared := [], skidder := u.ownSkidder e.1, carry := false }) s

/-- LAUNCH_COMPLETION: a launch whose work is over is released: its done bead is signalled and its slot written (25 R377). The
crews of a node complete one by one, and the node when nothing can come to it any more. -/
def State.completeLaunch (s : State) (l : Nat) : State :=
  match Tbl.find? s.launches l with
  | none => s
  | some x =>
    match x.origin with
    | .node n =>
      let s1 := if s.workOver l x then s.setLaunch l { x with phase := .completed } else s
      if s1.nodeOver x.ctx n && (Tbl.find? s1.launches l).any (fun y => y.phase == .completed) then
        match Tbl.find? (s1.ctx x.ctx).nodes n with
        | some nd =>
          let s2 := s1.setCtx x.ctx { s1.ctx x.ctx with nodes := Tbl.insert (s1.ctx x.ctx).nodes n { nd with active := false } }
          s2.signalDone x.ctx x.seq (hdrDoneBead x.hdr) (hdrDoneCount x.hdr)
        | none => s1
      else s1
    | from_ =>
      if s.workOver l x then
        if s.owesBack x then s.writeBackAll l x
        else
        let s1 := (s.auditEmpty l).setLaunch l { x with phase := .completed }
        (s1.signalDone x.ctx x.seq (hdrDoneBead x.hdr) (hdrDoneCount x.hdr)).writeSlot x.ctx from_ 0x80 x.seq 0
      else s

def execLaunchCompletion (l : Nat) (s : State) : Outcome State Fault Refusal := .next (s.completeLaunch l)

/-! ### Eviction (07 R150, 14 R246) -/

/-- A core's crews regarded as gone. -/
def State.without (s : State) (cs : List Nat) : State :=
  { s with crews := cs.foldl (fun t c => Tbl.modify t c (fun (x : Crew) => { x with core := none })) s.crews }

/-- The crews that leave with some of a core: their groves' too. -/
def State.withGroves (s : State) (cs : List Nat) : List Nat :=
  ((cs.map (fun c => match Tbl.find? s.crews c with
    | some x => s.together c x
    | none => [c])).flatten).eraseDups

/-- Bytes of a crew's image in its context's save area (14 R247, R250; log 120). -/
def State.imageSize (s : State) (x : Crew) : Nat :=
  let h := s.header x.launch
  x.bundles.length * (hdrRegs h * 64 * 4 + 1024) + roundUp (hdrScratch h) 128

/-- Whether the save area of every context has room for some crews' images beside those that are there or on their way (14 R252). -/
def State.saveRoom (s : State) (cs : List Nat) : Bool :=
  let all := s.withGroves cs
  let goes (e : Nat × Crew) : Bool := !e.2.ended && (e.2.saved || e.2.stopping || all.contains e.1)
  let ctxs := (all.filterMap (fun c => (Tbl.find? s.crews c).map (fun (x : Crew) => s.launchCtx x.launch))).eraseDups
  ctxs.all (fun n => decide (((s.crews.filter (fun e => goes e && s.launchCtx e.2.launch == n)).map (fun e => s.imageSize e.2)).sum
    ≤ (s.ctx n).saveArea))

/-- Victims on a core for a crew of priority p: lower PRIO first, then youngest, while their contexts' save areas have room (14 R252);
an exclusive core gives all or none. -/
def State.victimsOn (s : State) (k p : Nat) : List Nat :=
  let all := s.resident k
  let vs := rankSort (fun e => [hdrPrio (s.header e.2.launch), 2 ^ 64 - e.2.seq])
    (all.filter (fun e => decide (hdrPrio (s.header e.2.launch) < p) && !e.2.stopping))
  let cs := vs.foldl (fun (t : List Nat) e => if s.saveRoom (t ++ [e.1]) then t ++ [e.1] else t) []
  if all.any (fun e => hdrExcl (s.header e.2.launch)) && cs.length != all.length then [] else cs

/-- The shortest list of victims whose going makes room; an exclusive core gives all. -/
def State.enoughVictims (s : State) (fits : State → Bool) (all : Bool) (vs : List Nat) : Option (List Nat) :=
  if all then (if fits (s.without vs) then some vs else none)
  else ((List.range (vs.length + 1)).map (fun n => vs.take n)).find? (fun g => fits (s.without g))

/-- Core by core, what eviction must take for crews of a launch of priority p: on each core the fewest victims that let it take one of
them, until each has a core (07 R150). A core that would take none gives no victim. -/
def State.evictions (s : State) (l p : Nat) (needs : List CrewNeed) (all : List Nat) : List Nat → List (Nat × List Nat)
  | [] => []
  | k :: rest =>
    if (s.pickCores l all needs).isSome then []
    else
      match s.enoughVictims (fun t => needs.any (fun c => t.coreTakes l c k))
          ((s.resident k).any (fun e => hdrExcl (s.header e.2.launch))) (s.victimsOn k p) with
      | some (c :: cs) => (k, c :: cs) :: (s.without (s.withGroves (c :: cs))).evictions l p needs all rest
      | _ => s.evictions l p needs all rest

/-- The eviction on some cores for some crews of a launch, where it makes room for them, and the state without its victims. -/
def State.evictionOn (s : State) (l : Nat) (needs : List CrewNeed) (all : List Nat) : Option (List (Nat × List Nat) × State) :=
  let ks := rankSort (fun k => [s.granulesOn k, k]) (all.filter (fun k => s.coreUp k && !(s.core k).slotBusy && (s.core k).evict.isEmpty))
  let es := s.evictions l (hdrPrio (s.header l)) needs all ks
  let t := es.foldl (fun (v : State) e => v.without (v.withGroves e.2)) s
  if (t.pickCores l all needs).isSome then some (es, t) else none

/-- The request that a due unit that finds no room leads to: the first of the core by core eviction that makes room for it, of a
grove's crews on both its dies (07 R150). Crews on their way out are regarded as gone. -/
def State.evictionFor (s : State) (u : DueUnit) : Option (Nat × List Nat) :=
  let t := s.without ((s.crews.filter (fun e => e.2.stopping && !e.2.ended)).map Prod.fst)
  if (s.unitCores u).isSome || (t.unitCores u).isSome then none
  else
    let needs := s.unitCrews u
    if hdrGrove (s.header u.launch) then
      [0, 1].findSome? (fun d =>
        match t.evictionOn u.launch (needs.filter (fun c => !c.second)) (dieCores d) with
        | none => none
        | some (es, v) => (v.evictionOn u.launch (needs.filter (fun c => c.second)) (dieCores (d + 1))).bind (fun r => (es ++ r.1).head?))
    else (t.evictionOn u.launch needs (List.range Config.cores)).bind (fun r => r.1.head?)

/-- A victim stops issue at its group boundary: what is left of a run becomes a ready cohort, and a mill it holds drains. -/
def State.stopVictim (s : State) (c : Nat) : State :=
  match Tbl.find? s.crews c with
  | none => s
  | some x =>
    match x.core with
    | none => s
    | some k =>
      if x.ended || x.stopping then s
      else
        let y := s.core k
        let mill := y.mill.map (fun (m : Mill) => if x.bundles.contains m.holder then { m with draining := true } else m)
        let s1 := s.setCore k { y with run := runWithout (fun b => x.bundles.contains b) y.run, mill := mill,
                                       evict := if y.evict.contains c then y.evict else y.evict ++ [c] }
        (s1.setCrew c { x with stopping := true }).recompute k

/-- The crews an eviction takes: those named, their groves', and every crew of an exclusive core. -/
def State.victims (s : State) (k : Nat) (cs : List Nat) : List Nat :=
  let named := cs.filter (fun c => (Tbl.find? s.crews c).any (fun (x : Crew) => x.core == some k && !x.ended))
  let wide := if (s.resident k).any (fun e => hdrExcl (s.header e.2.launch)) && !named.isEmpty then (s.resident k).map Prod.fst else named
  s.withGroves wide

/-- PREEMPTION_REQUEST: the core's victims stop; none is sent to a core whose save slot has not drained, and none is taken whose
context's save area has no room for its image (14 R246, R250, R252). -/
def execPreemptionRequest (core : Nat) (crews : List Nat) (s : State) : Outcome State Fault Refusal :=
  let cs := s.victims core crews
  .next (if (s.core core).slotBusy || !s.saveRoom cs then s else cs.foldl State.stopVictim s)

/-! ### Saving and restoring (14 R247-R252) -/

/-- The waits of a crew's bundles at the beads of a core it does not come back to are made again on its new core (03 R92, 22 R351). -/
def State.requeueWaits (s : State) (x : Crew) (i : Nat) : State :=
  let bs := x.bundles
  let gone (e : Waiter × Nat) : Bool := match e.1 with
    | .owner o => bs.contains o
    | _ => false
  match Tbl.find? s.stays i with
  | none => s
  | some y =>
    let left := (y.beads.map (fun e => e.2.queue.filterMap (fun w => match w.1 with
      | .owner o => if bs.contains o then some o else none
      | _ => none))).flatten
    let forget (b : Bead) : Bead := { b with queue := b.queue.filter (fun w => !gone w) }
    let s1 := { s with stays := Tbl.insert s.stays i { y with beads := Tbl.mapVals forget y.beads } }
    let again (t : State) (j : Nat) : State := match (t.strand j).stat with
      | .parked (.bead false) => t.setStrand j { t.strand j with stat := .parked .rest }
      | .stopped (some (.bead false)) => t.setStrand j { t.strand j with stat := .stopped (some .rest) }
      | _ => t
    (bs.filter (fun b => left.contains b)).foldl (fun (t : State) b => (t.liveStrands b).foldl again t) s1

/-- A victim can be saved: it has stopped, no SPLIT drain is under way, and its mill has drained. -/
def State.canSave (s : State) (x : Crew) : Bool :=
  match x.core with
  | none => false
  | some k =>
    let y := s.core k
    x.stopping && !x.ended && y.splitting.isNone && (match y.mill with
      | some m => !x.bundles.contains m.holder || m.drained
      | none => true)

/-- What a crew has in the front ends leaves with it: its meshes, and one partly rasterised from the pixel bundle it has reached (20
R331; log 133). -/
def State.stowMeshes (s : State) (c : Nat) : State :=
  let mine (f : FrontEnd) : List Mesh :=
    (match f.current with
      | some m => if s.crewIs m.bundle c && !f.pixels.isEmpty then [{ m with packed := f.packed }] else []
      | none => []) ++ f.meshes.filter (fun m => s.crewIs m.bundle c)
  let ms := (s.frontEnds.map (fun e => mine e.2)).flatten
  if ms.isEmpty then s
  else
    let t := s.dropMeshes c
    { t with crews := Tbl.modify t.crews c (fun (x : Crew) => { x with meshes := x.meshes ++ ms }) }

/-- The meshes saved with a crew go to the front end of the die it comes back to. -/
def State.returnMeshes (s : State) (c k : Nat) : State :=
  match Tbl.find? s.crews c with
  | none => s
  | some x =>
    if x.meshes.isEmpty then s
    else
      let fe := s.frontEnd (k / 48)
      (s.setFrontEnd (k / 48) { fe with meshes := fe.meshes ++ x.meshes }).setCrew c { x with meshes := [] }

/-- SAVE_COMMIT: a crew's state stands in the save slot, and it leaves its core. Its strands' statuses, waits, loops and registers
stay as they are in the state; so do its scratchpad, barriers, flumes and rotation. -/
def State.saveCrew (s : State) (c : Nat) : State :=
  match Tbl.find? s.crews c with
  | none => s
  | some x =>
    match x.core with
    | none => s
    | some k =>
      if !s.canSave x then s
      else
        let s0 := match (s.core k).mill with
          | some m => if x.bundles.contains m.holder then s.stowMill k else s
          | none => s
        let s1 := s0.stowMeshes c
        let s2 := s1.setCrew c { Tbl.getD s1.crews c x with core := none, saved := true, stopping := false }
        let y := s2.core k
        let s3 := s2.setCore k { y with evict := y.evict.filter (fun z => z != c), slotBusy := true, victims := [] }
        (s3.leaveStay x.launch k).recompute k

def execSaveCommit (crew : Nat) (s : State) : Outcome State Fault Refusal := .next (s.saveCrew crew)

/-- SAVE_SLOT_DRAIN: the slot of a core has drained to the save areas. -/
def execSaveSlotDrain (core : Nat) (s : State) : Outcome State Fault Refusal :=
  .next (s.setCore core { s.core core with slotBusy := !(s.core core).evict.isEmpty && (s.core core).slotBusy })

/-- A restored bundle takes a slot; its rotation stays (06 R128). -/
def State.reslot (s : State) (k : Nat) (c : Nat) (bs : List Nat) : State :=
  match bs with
  | [] => s
  | b :: rest =>
    let taken := (s.crews.filter (fun e => e.1 != c && e.2.core == some k && !e.2.ended)).map (fun e =>
      e.2.bundles.filterMap (fun z => (Tbl.find? s.bundles z).map (fun (x : Bundle) => x.slot)))
    let mine := ((Tbl.find? s.crews c).map (fun (x : Crew) => x.bundles)).getD []
    let done := (mine.take (mine.length - bs.length)).filterMap (fun z => (Tbl.find? s.bundles z).map (fun (x : Bundle) => x.slot))
    let slot := ((List.range 32).find? (fun n => !taken.flatten.contains n && !done.contains n)).getD 0
    ({ s with bundles := Tbl.modify s.bundles b (fun (x : Bundle) => { x with slot := slot }) }).reslot k c rest

/-- A SPLIT whose drain has not started is evaluated again on restore (03 R92): the bundles that stood at it arrive there anew. -/
def State.arriveAgain (s : State) (x : Crew) : State :=
  x.bundles.foldl (fun (t : State) b => (t.liveStrands b).foldl (fun (u : State) i => match (u.strand i).stat with
    | .parked (.split false) => u.setStrand i { u.strand i with stat := .ready }
    | .stopped (some (.split false)) => u.setStrand i { u.strand i with stat := .stopped none }
    | _ => u) t) s

/-- Bring a saved crew back on a core: its slots, and the signals that reached it meanwhile (14 R248, R249). -/
def State.restoreCrew (s : State) (e : Nat × Nat) : State :=
  match Tbl.find? s.crews e.1 with
  | none => s
  | some x =>
    let s1 := ((s.hostCrew e.1 { x with heldSignals := [] } e.2).reslot e.2 e.1 x.bundles).arriveAgain x
    let s2 := match s1.findStay x.launch e.2 with
      | some i =>
        let away := (s1.stays.filter (fun (y : Nat × Stay) => y.2.launch == x.launch && y.1 != i)).map Prod.fst
        x.heldSignals.foldl (fun (t : State) b => t.signal (t.launchCtx x.launch) (.stay i b) 1)
          (away.foldl (fun (t : State) j => t.requeueWaits x j) s1)
      | none => s1
    -- every saved wait is evaluated again (03 R92)
    (s2.returnMeshes e.1 e.2).recompute e.2

/-- CREW_RESTORE: a saved crew, with its grove, is placed again like a due crew. -/
def execCrewRestore (crew : Nat) (s : State) : Outcome State Fault Refusal :=
  .next (match s.nextUnit with
    | some (u, ks) => if u.saved.contains crew then (u.saved.zip ks).foldl State.restoreCrew s else s
    | none => s)

end Sys2Proof.Machine
end

