-- ==== Sys2Proof/Machine/Tiles.lean ====
section
/-! DEFINITION. The task sequencer of a tile (18 R301-R303), the drain cycle of its execute processor (18 R295), placing tile
sets (18 R304, R305, 16 R289), and saving and restoring streams (14 R253, 18 R303). -/

namespace Sys2Proof.Machine

open Host (Outcome)

/-! ### Drain cycles -/

/-- Whether the execute processor drains: it has taken every group the access processor has passed, some of their results have not
landed, and the next group waits for them, or no part runs (18 R293, R295). -/
def State.landingDue (s : State) (t : Nat) : Bool :=
  match (s.tile t).stream with
  | none => false
  | some st =>
    st.exq.isEmpty && !st.flying.isEmpty && !st.halted && !st.saved &&
      (!st.running || (match st.head with
        | some a => s.groupAny drains (s.tileCtx t) st.seen 24 a
        | none => false))

/-- EXECUTE_RESULT_LANDING: a counted cycle in which no group issues and the results due land (18 R295, R296). -/
def execExecuteResultLanding (tile : Nat) (s : State) : Outcome State Fault Refusal :=
  .next (if s.landingDue tile then s.tick tile else s)

/-! ### Loop records (18 R301, R302) -/

/-- Entry pcs, trip count, next record and done bead of a record. -/
def recPro (r : List Dword) : Dword := r.getD 0 0
def recKer (r : List Dword) : Dword := r.getD 1 0
def recEpi (r : List Dword) : Dword := r.getD 2 0
def recArg (r : List Dword) : Dword := r.getD 3 0
def recTrip (r : List Dword) : Nat := (r.getD 4 0).toNat % 2 ^ 32
def recNext (r : List Dword) : Dword := r.getD 5 0
def recDoneN (r : List Dword) : Nat := (r.getD 6 0).toNat / 2 ^ 48
def recDoneB (r : List Dword) : Nat := (r.getD 6 0).toNat / 2 ^ 32 % 65536

/-- Whether a record keeps to 18 R301. -/
def recordSound (r : List Dword) : Bool :=
  recKer r != 0 && [recPro r, recKer r, recEpi r].all (fun a => a == 0 || targetOk a) && (r.getD 4 0).toNat / 2 ^ 32 == 0
    && (recNext r).toNat % 64 == 0 && (r.getD 6 0).extractLsb' 0 32 == 0 && r.getD 7 0 == 0

/-- The part that runs from a position: which it is, its number, its entry and its s2; none where the copies and the done signal
come next. -/
def nextPart (r : List Dword) (part n : Nat) : Option (Nat × Nat × Dword × Nat) :=
  if part = 0 ∧ recPro r ≠ 0 then some (0, 0, recPro r, 0)
  else if part ≤ 1 ∧ n < recTrip r then some (1, n, recKer r, n)
  else if part ≤ 2 ∧ recEpi r ≠ 0 then some (2, 0, recEpi r, recTrip r)
  else none

/-- A stream between parts with nothing of it still to land or retire, and no test due (21 R345). -/
def Tile.settled (x : Tile) (st : Stream) : Bool :=
  !st.running && !st.halted && !st.saved && st.exq.isEmpty && st.acq.isEmpty && st.flying.isEmpty && x.mats.isEmpty && !x.intervalTestDue

/-- A stream between parts stands at a pre-emption point: between two parts, or after the done signal of a record (18 R303). -/
def Stream.atPoint (st : Stream) : Bool :=
  match st.pos with
  | .plain => false
  | .chain _ [] part _ => part == 3
  | .chain _ rec_ part n => (nextPart rec_ part n).isSome

/-- A part starts: s1 and s2 are delivered and the checkpoint is taken at its entry (18 R302). -/
def State.startPart (s : State) (t : Nat) (pos : SeqPos) (entry arg : Dword) (n : Nat) : State :=
  let s1 := (s.putS t 1 arg).putS t 2 (BitVec.ofNat 64 n)
  let a := s1.acr t
  s1.setStream t (fun (st : Stream) =>
    { st with pos := pos, running := true, head := some entry, target := none, exq := [], acq := [], loops := [], rotDue := 0,
              runCount := 0, shapeNext := none, flying := [], cycle := 0, wait := none, parked := [], restarts := 0,
              check := ⟨entry, [], st.shape, a, st.pairIssued, pos⟩ })

/-- Start the part that a position of a record calls for, or stand before the done signal. -/
def State.runRecord (s : State) (t : Nat) (r : Dword) (rc : List Dword) (part n : Nat) : State :=
  match nextPart rc part n with
  | some (p, k, entry, m) => s.startPart t (.chain r rc p k) entry (recArg rc) m
  | none => s.setStream t (fun (st : Stream) => { st with pos := .chain r rc 3 0 })

/-- The stream of a tile ends, and the tile keeps what it holds (18 R305). -/
def State.endStream (s : State) (t : Nat) : State :=
  match (s.tile t).stream with
  | none => s
  | some st =>
    let s1 := (s.setTile t { s.tile t with stream := none, preempt := false }).forgetWaits t
    let s2 := match Tbl.find? s1.launches st.launch with
      | some l => s1.setLaunch st.launch { l with endedTiles := l.endedTiles ++ [t] }
      | none => s1
    ({ s2 with tiles := Tbl.mapVals (Tile.unslave t) s2.tiles }).applyFences t

/-- What a stop of the sequencer's own load makes of the machine. -/
def State.recordStop (s : State) (t : Nat) (r : Dword) : Stop → Outcome State Fault Refusal
  | .fault f => .fault f
  | .stopped (.wait _) => .next s
  | .stopped (.fatal c a) => .next (s.endContext (s.tileCtx t) c a)
  | .stopped (.trap c a _) => .next (s.trapTile t c.toNat a r)

/-- The origin of a value read from a unit marked uncorrectable (26 R395). -/
def softOrigin (a : Dword) : Origin := ⟨BitVec.ofNat 8 causeSoftError, a, false, 0, 0⟩

/-- Read the record at an address and check it (18 R301, R302). A line marked uncorrectable gives poison, whose use traps (log
60). -/
def State.loadRecord (s : State) (t : Nat) (r : Dword) : Outcome State Fault Refusal :=
  match s.globalAccess (s.tileCtx t) r 64 64 false true with
  | .error e => s.recordStop t r e
  | .ok (pa, _, s1) =>
    let rec_ := (List.range 8).map (fun i => s1.readDword (pa + 8 * i))
    if s1.isMarked pa 64 then .next (s1.trapTileFrom t causePoisonUse r (some (softOrigin r)) r)
    else if !recordSound rec_ || !s1.launchBeadOk (s1.tileCtx t) (recDoneB rec_) then
      .next (s1.trapTile t causeBadTarget r r)
    else .next (s1.runRecord t r rec_ 0 0)

/-- TASK_SEQUENCER_PART_START: the sequencer reads the next record or starts the next part; a chain that has ended, and a stream
outside a chain after its EXIT and its copies, ends. A fence that waits goes first, and then a requested pre-emption (18 R303). -/
def execTaskSequencerPartStart (tile : Nat) (s : State) : Outcome State Fault Refusal :=
  let x := s.tile tile
  match x.stream with
  | none => .next s
  | some st =>
    if !x.settled st then .next s
    else if st.pos != .plain && x.fenceDue != 0 && st.atPoint then .next (s.applyFences tile)
    else
      match st.pos with
      | .plain => .next (if s.channelsOf tile = 0 then s.endStream tile else s)
      | .chain r [] _ _ =>
        if r = 0 then .next (s.endStream tile) else if x.preempt && st.atPoint then .next s else s.loadRecord tile r
      | .chain r rec_ part n =>
        .next (if x.preempt && st.atPoint then s else s.runRecord tile r rec_ part n)

/-- LOOP_RECORD_DONE_SIGNAL: once every copy of the stream has completed, the record's bead is signalled and the sequencer goes on
to the next record (18 R302). -/
def execLoopRecordDoneSignal (tile : Nat) (s : State) : Outcome State Fault Refusal :=
  let x := s.tile tile
  match x.stream with
  | none => .next s
  | some st =>
    match st.pos with
    | .plain => .next s
    | .chain _ rec_ part n =>
      if !x.settled st || rec_.isEmpty || (nextPart rec_ part n).isSome || s.channelsOf tile != 0 then .next s
      else
        let c := s.tileCtx tile
        let seq := ((Tbl.find? s.launches st.launch).map (fun (l : Launch) => l.seq)).getD 0
        let s1 := (s.signalDone c seq (recDoneB rec_) (recDoneN rec_)).setStream tile
          (fun (y : Stream) => { y with pos := .chain (recNext rec_) [] 3 0 })
        .next (if recNext rec_ = 0 then s1.endStream tile else s1)

/-! ### Saving (14 R253, 18 R303) -/

/-- Whether a stream stands where it can be saved: between two parts, after a done signal, or halted. -/
def Tile.savePoint (x : Tile) (st : Stream) : Bool :=
  !st.saved && (st.halted || (x.settled st && st.atPoint))

/-- TILE_PREEMPTION_SAVE: a stream that a request names is saved, once a fence that waits has taken effect. Its image stands in the
tile until another launch is given the tile, so copies addressed to it go on into the image (14 R248). -/
def execTilePreemptionSave (tile : Nat) (s : State) : Outcome State Fault Refusal :=
  let x := s.tile tile
  .next (match x.stream with
    | some st =>
      if !x.preempt || !x.savePoint st then s
      else if x.fenceDue != 0 then s.applyFences tile
      else (s.setTile tile { x with preempt := false }).setStream tile (fun (y : Stream) => { y with saved := true })
    | none => s)

/-! ### Placing (18 R304, R305) -/

/-- A copy in flight reads or writes a tile, or was issued by its stream, or a guide channel is still to write it. -/
def State.tileTouched (s : State) (t : Nat) : Bool :=
  let here (p : Place) : Bool := p == .tile t || p == .store t
  s.copies.any (fun e => e.2.issuer == some t || e.2.parts.any (fun p => here p.dstAt || here p.srcAt)) ||
    s.channels.any (fun e => !e.2.done && e.2.tiles.contains t)

/-- A stream of a launch that goes on has ended on a tile, which is still to write back its dirty units at the launch's end. -/
def State.owedAtEnd (s : State) (t : Nat) : Bool :=
  !(s.tile t).owedEntries.isEmpty && s.launches.any (fun e => e.2.phase == .running && e.2.endedTiles.contains t)

/-- A tile that holds no stream and is not part of a pair, with nothing to write back. -/
def State.tileVacant (s : State) (t : Nat) : Bool :=
  let x := s.tile t
  s.tileUp t && x.stream.isNone && x.slavedTo.isNone && x.mats.isEmpty && s.channelsOf t == 0 && !s.owedAtEnd t

/-- A tile a launch of a context may be given: vacant, and untouched where it passes from another context; `wide` allows those. -/
def State.tileGivable (s : State) (ctx : Nat) (wide : Bool) (t : Nat) : Bool :=
  s.tileVacant t && (match (s.tile t).owner with
    | none => true
    | some c => c == ctx || (wide && !s.tileTouched t))

/-- PRIO of the launch whose stream a tile holds. -/
def State.tilePrio (s : State) (t : Nat) : Nat :=
  match (s.tile t).stream with
  | some st => hdrPrio (s.header st.launch)
  | none => 0

/-- A tile whose stream is saved and gives way to a launch of a PRIO. -/
def State.tileYielding (s : State) (p t : Nat) : Bool :=
  match (s.tile t).stream with
  | some st => s.tileUp t && st.saved && st.paired.isNone && (s.tile t).slavedTo.isNone && decide (s.tilePrio t < p)
  | none => false

/-- The rectangles a header allows, in the order the hub takes them: die, origin row, origin column. -/
def tileRects (h : List Dword) : List (List Nat) :=
  let dies := if tileDie h = 0 then [3, 4, 5] else [tileDie h]
  let rows := if tileFix h then [tileField h 8 4] else List.range (9 - tileRows h)
  let cols := if tileFix h then [tileField h 12 4] else List.range (13 - tileCols h)
  (dies.map (fun d => (rows.map (fun r => cols.map (fun c => rectTiles (d - 3) r c (tileRows h) (tileCols h)))).flatten)).flatten

/-- The tiles a launch is given: of no context or its own first, then of other contexts, then those that saved streams of lower
PRIO hold. A fixed set is taken whoever its tiles belong to. -/
def State.pickTiles (s : State) (ctx : Nat) (h : List Dword) : Option (List Nat) :=
  let rs := tileRects h
  let near := if tileFix h then none else rs.find? (fun ts => ts.all (s.tileGivable ctx false))
  (near.or (rs.find? (fun ts => ts.all (s.tileGivable ctx true)))).or
    (rs.find? (fun ts => ts.all (fun t => s.tileGivable ctx true t || s.tileYielding (hdrPrio h) t)))

/-- The first rectangle that would be free if streams of lower PRIO were not there. -/
def State.wantedTiles (s : State) (h : List Dword) : Option (List Nat) :=
  (tileRects h).find? (fun ts => ts.all (fun t => s.tileUp t && ((s.tile t).stream.isNone || decide (s.tilePrio t < hdrPrio h))))

/-- A tile passes to a context: from another one it is zeroed first, with its beads (18 R305). -/
def State.passTile (s : State) (ctx t : Nat) : State :=
  let x := s.tile t
  match x.owner with
  | none => s.setTile t { x with owner := some ctx }
  | some c =>
    if c = ctx then s
    else
      let s1 := s.setTile t { x.cleared with owner := some ctx }
      (List.range 64).foldl (fun (u : State) b => u.setBead (tileBead t b) Bead.zero) s1

/-- The beads of a tile. -/
def State.tileBeads (s : State) (t : Nat) : Tbl Bead :=
  ((List.range 64).map (fun b => (b, s.bead (tileBead t b)))).filter (fun e => e.2 != Bead.zero)

/-- Put a saved stream's image aside, so that its tile can be given away: copies in flight that name the tile, or that the stream
issued, go on with the image (14 R248, 22 R348). -/
def State.setAside (s : State) (t : Nat) : State :=
  let x := s.tile t
  match x.stream with
  | none => s
  | some st =>
    ({ s with savedTiles := s.savedTiles ++ [SavedTile.mk t st.launch x (s.owner t) (s.tileBeads t)],
              copies := Tbl.mapVals (Copy.relabel (Place.swap st.launch t) (swapKey st.launch t)) s.copies }).setTile t
      { x with stream := none, mats := [], feed := none }

/-- The state of a stream at its start (16 R289). -/
def Stream.fresh (launch index : Nat) (pos : SeqPos) (epoch : Nat) : Stream :=
  { launch := launch, index := index, reporter := 0, pos := pos, running := false, halted := false, saved := false, head := none, target := none,
    exq := [], acq := [], loops := [], rotDue := 0, runCount := 0, fetchEpoch := 0, born := epoch, bpSkip := none, w := [], k := [],
    shape := 0x440, shapeNext := none, flying := [], cycle := 0, queues := [], check := ⟨0, [], 0x440, 0, false, pos⟩, restarts := 0,
    paired := none, pairIssued := false, wait := none, parked := [], matSince := false, anew := false,
    hidden := [], mark := none }

/-- Put a stream of a launch on a tile of its context, in the state of 16 R289. -/
def State.putStream (s : State) (t l i : Nat) (pos : SeqPos) : State :=
  let x := s.tile t
  let s1 := s.setTile t
    { x with scratch := x.copied, absent := [], written := [], dirty := [], map := [],
             bookV := resetBook, table := [], latch := [], feed := none, preempt := false,
             stream := some { Stream.fresh l i pos s.epoch with reporter := t % 96 } }
  s1.setOwner t Owner.fresh

/-- Start the stream of tile i of a set: at ENTRY, or at the first record of its chain (18 R304). -/
def State.startStream (s : State) (l : Nat) (h : List Dword) (t i : Nat) : Outcome State Fault Refusal :=
  let entry := h.getD 0 0
  if tileRec h then
    let a := entry + BitVec.ofNat 64 (8 * i)
    let s0 := s.putStream t l i (.chain 0 [] 0 0)
    match s0.globalAccess (s0.tileCtx t) a 8 8 false true with
    | .error (.stopped (.wait _)) => .next s0
    | .error e => s0.recordStop t a e
    | .ok (pa, _, s1) =>
      if s1.isMarked pa 8 then .next (s1.trapTileFrom t causePoisonUse a (some (softOrigin a)) a)
      else .next (s1.setStream t (fun (st : Stream) => { st with pos := .chain (s1.readDword pa) [] 0 0 }))
  else
    let s0 := s.putStream t l i .plain
    let s1 := s0.putS t 1 (h.getD 1 0)
    .next (s1.setStream t (fun (st : Stream) => { st with running := true, head := some entry, check := ⟨entry, [], st.shape, 0, false, .plain⟩ }))

/-- Start the streams of a set in order. A stream whose launch another's trap has ended is not started. -/
def State.startStreams (s : State) (l : Nat) (h : List Dword) : List (Nat × Nat) → Outcome State Fault Refusal
  | [] => .next s
  | (t, i) :: rest =>
    if ((Tbl.find? s.launches l).map (fun (x : Launch) => x.phase)) != some .running then .next s
    else
      match s.startStream l h t i with
      | .next u => u.startStreams l h rest
      | r => r

/-- Whether every record address of a set can be read now: a page that is reserved and cannot be backed holds the set back. -/
def State.recordsReady (s : State) (ctx : Nat) (h : List Dword) : Bool :=
  !tileRec h || (List.range (tileRows h * tileCols h)).all (fun i =>
    match s.globalAccess ctx (h.getD 0 0 + BitVec.ofNat 64 (8 * i)) 8 8 false true with
    | .error (.stopped (.wait _)) => false
    | _ => true)

/-- What is due on tiles: a launch's whole set, one saved stream by its tile, or a launch whose die has been powered off and
whose header lets it stand on another (23 R363). -/
inductive TileDue where
  | fresh (l : Nat)
  | saved (l t : Nat)
  | moved (l : Nat)
deriving DecidableEq, Repr

def TileDue.launch : TileDue → Nat
  | .fresh l => l
  | .saved l _ => l
  | .moved l => l

def State.tileDueRank (s : State) (u : TileDue) : List Nat :=
  [7 - hdrPrio (s.header u.launch), (s.launchCtx u.launch + 511 - s.lastContext) % 512, u.launch, (match u with
    | .saved _ t => t
    | _ => 0)]

/-- Tile launches that wait for their set. -/
def State.freshSets (s : State) : List TileDue :=
  s.launches.filterMap (fun e =>
    if e.2.phase == .running && hdrKind e.2.hdr == 1 && e.2.tiles.isEmpty && s.mayStart e.1 e.2 && s.recordsReady e.2.ctx e.2.hdr then
      some (.fresh e.1)
    else none)

/-- Saved streams, in their tiles or set aside. -/
def State.savedStreams (s : State) : List TileDue :=
  s.tiles.filterMap (fun e => match e.2.stream with
    | some st => if st.saved then some (.saved st.launch e.1) else none
    | none => none) ++ s.savedTiles.map (fun x => .saved x.launch x.tile)

/-- The image of a saved stream: in its tile, or set aside. -/
def State.imageOf (s : State) (l t : Nat) : Option SavedTile :=
  let x := s.tile t
  match x.stream with
  | some st =>
    if st.launch = l then (if st.saved then some ⟨t, l, x, s.owner t, s.tileBeads t⟩ else none)
    else s.savedTiles.find? (fun y => y.tile == t && y.launch == l)
  | none => s.savedTiles.find? (fun y => y.tile == t && y.launch == l)

/-- A tile launch whose die is off, all of whose streams have ended or are saved with nothing in flight, and whose header names
no die. -/
def State.stranded (s : State) (l : Nat) (x : Launch) : Bool :=
  x.phase == .running && hdrKind x.hdr == 1 && tileDie x.hdr == 0 && (match x.tiles with
    | t :: _ => s.die (3 + t / 96) == .off
    | [] => false) &&
    x.tiles.all (fun t => x.endedTiles.contains t || (s.imageOf l t).isSome)

/-- Everything due on tiles, in the hub's order (07 R148). -/
def State.tilesDue (s : State) : List TileDue :=
  rankSort s.tileDueRank (s.freshSets ++ s.savedStreams ++
    s.launches.filterMap (fun e => if s.stranded e.1 e.2 then some (.moved e.1) else none))

/-- A tile that a set of higher PRIO waits for is not given back. -/
def State.tileWanted (s : State) (p t : Nat) : Bool :=
  s.freshSets.any (fun u =>
    let h := s.header u.launch
    decide (p < hdrPrio h) && (match s.wantedTiles h with
      | some ts => ts.contains t
      | none => false))

/-- Whether what is due can be placed now. -/
def State.tileDueOk (s : State) (u : TileDue) : Bool :=
  match u with
  | .fresh l => (s.pickTiles (s.launchCtx l) (s.header l)).isSome
  | .moved l => (s.pickTiles (s.launchCtx l) (s.header l)).isSome
  | .saved l t =>
    !s.tileWanted (hdrPrio (s.header l)) t && s.tileUp t && (match (s.tile t).stream with
      | some st => st.launch == l && st.saved
      | none => s.tileGivable (s.launchCtx l) true t)

/-- The stream goes on. -/
def Stream.wake (y : Stream) : Stream := { y with saved := false }

/-- The names of a save image become those of a tile. -/
def Place.home (l t to_ : Nat) (p : Place) : Place := if p = .image l t then .tile to_ else if p = .imageStore l t then .store to_ else p

/-- Bring an image back on a tile of its context. Failure marks and fences stay with the tile (21 R344); the beads keep their
counts where the tile has stayed the context's, `kept` (22 R351; log 61). -/
def State.putImage (s : State) (t : Nat) (kept : Bool) (x : SavedTile) : State :=
  let now := s.tile t
  let c := s.launchCtx x.launch
  let image := { x.image with mtcfg := now.mtcfg, failed := now.failed, fenced := now.fenced, fenceDue := now.fenceDue,
                              sinceTest := now.sinceTest, owner := some c }
  let s1 := (({ s with savedTiles := s.savedTiles.filter (fun y => y != x),
                       copies := Tbl.mapVals (Copy.relabel (Place.home x.launch x.tile t)
                         (fun o => if o = savedKey x.launch x.tile then t else o)) s.copies }).setTile t image).setOwner t x.regs
  let s2 := if kept then s1
    else (List.range 64).foldl (fun (u : State) b => u.setBead (tileBead t b) (Tbl.getD x.beads b Bead.zero)) s1
  s2.setStream t Stream.wake

/-- Bring a saved stream back to its tile. -/
def State.restoreTile (s : State) (l t : Nat) : State :=
  match (s.tile t).stream with
  | some _ => s.setStream t Stream.wake
  | none =>
    match s.savedTiles.find? (fun x => x.tile == t && x.launch == l) with
    | none => s
    | some x => s.putImage t ((s.tile t).owner == some (s.launchCtx l)) x

/-- Give a set of tiles to a context: saved streams on them are set aside. -/
def State.takeTiles (s : State) (c : Nat) (ts : List Nat) : State := ts.foldl (fun (v : State) t => (v.setAside t).passTile c t) s

/-- Move the saved streams of a launch to new tiles, in order. -/
def State.moveStreams (s : State) (l : Nat) (x : Launch) (ts : List Nat) : State :=
  let c := s.launchCtx l
  let mine (v : State) (t : Nat) : Bool := match (v.tile t).stream with
    | some st => st.launch == l
    | none => false
  let gone := x.tiles.foldl (fun (v : State) t => if mine v t then v.setAside t else v) s
  let s1 := gone.takeTiles c ts
  let s2 := (x.tiles.zip ts).foldl (fun (v : State) e => match v.imageAt l e.1 with
    | some im => v.putImage e.2 ((gone.tile e.2).owner == some c) im
    | none => v) s1
  s2.setLaunch l { x with tiles := ts, endedTiles := ((x.tiles.zip ts).filter (fun e => x.endedTiles.contains e.1)).map Prod.snd }

/-- Place what is due. -/
def State.placeDue (s : State) (u : TileDue) : Outcome State Fault Refusal :=
  let s0 := { s with lastContext := s.launchCtx u.launch }
  match u with
  | .saved l t => .next (s0.restoreTile l t)
  | .moved l =>
    match s.pickTiles (s.launchCtx l) (s.header l), Tbl.find? s.launches l with
    | some ts, some x => .next (s0.moveStreams l x ts)
    | _, _ => .next s
  | .fresh l =>
    let h := s.header l
    let c := s.launchCtx l
    match s.pickTiles c h, Tbl.find? s.launches l with
    | some ts, some x =>
      let s1 := s0.takeTiles c ts
      (s1.setLaunch l { x with tiles := ts }).startStreams l h (ts.zip (List.range ts.length))
    | _, _ => .next s

/-- The launch of a tile's stream that can still be asked to give way. -/
def State.canAsk (s : State) (t : Nat) : Option Nat :=
  match (s.tile t).stream with
  | some st => if st.saved || st.pos == .plain || (s.tile t).preempt then none else some st.launch
  | none => none

/-- Ask the streams that hold the tiles a set waits for to give way at their next points: those of the youngest launch first. -/
def State.requestTiles (s : State) : State :=
  match (rankSort s.tileDueRank s.freshSets).findSome? (fun u => s.wantedTiles (s.header u.launch)) with
  | none => s
  | some ts =>
    let youngest := (ts.filterMap s.canAsk).foldl max 0
    ts.foldl (fun (u : State) t => if s.canAsk t = some youngest then u.setTile t { u.tile t with preempt := true } else u) s

/-- TILE_SET_PLACEMENT: the first of what is due that can be placed is placed; where nothing can, the streams in the way of the
first set that lower PRIO holds back are pre-empted. -/
def execTileSetPlacement (s : State) : Outcome State Fault Refusal :=
  match s.tilesDue.find? s.tileDueOk with
  | some u => s.placeDue u
  | none => .next s.requestTiles

end Sys2Proof.Machine
end

