-- ==== Sys2Proof/Machine/Host.lean ====
section
/-! DEFINITION. What the host does to the package: loads and stores of memory (25 R374), writes of BAR0 (25 R375-R378, R386), the
commands of the command ring (25 R380, R381), debugging (14 R239), shoot-downs (15 R263), resets of a die (23 R363, R364), host
copies, and backing and migrating pages (15 R260, R261). -/

namespace Sys2Proof.Machine

open Host (Outcome)

/-! ### Memory (25 R374) -/

/-- A store of the host: agents that begin after it fetch what it wrote; those that run may see the older words (log 11). -/
def State.storeHost (s : State) (pa : Nat) (bs : List Byte) : State :=
  let n := bs.length
  let e := s.epoch + 1
  let t := (s.noteStore { s.oldWord 2 with epoch := e, host := true } pa n).noteEntries pa n
  { t.writeBytes pa bs with epoch := e, marked := markUnits s.marked pa n false }

/-- HOST_MEMORY_ACCESS: the host stores the bytes, or loads as many. Memory answers once the package has booted (26 R390). -/
def execHostMemoryAccess (write : Bool) (pa : Nat) (bytes : List (BitVec 8)) (s : State) : Outcome State Fault Refusal :=
  let n := bytes.length
  if n = 0 then .next s
  else if !(paExists pa && paExists (pa + n - 1)) then .fault (.noMemory pa)
  else if s.boot != .running then .next s
  else if write then .next (s.storeHost pa bytes)
  else .next { s with hostData := s.readBytes pa n }

/-! ### Queues (25 R376) -/

/-- Publish the host entries from the old doorbell to the new one. -/
def State.publishTo (s : State) (ctx q n : Nat) : Nat → State
  | 0 => s
  | k + 1 =>
    let x := s.launchQueue ctx q
    let seq := (s.ctx ctx).nextSeq
    let slot := x.qtail % n
    let s1 := s.setLaunchQueue ctx q { x with qtail := (slot + 1) % n, entries := x.entries ++ [⟨true, slot, seq⟩] }
    (s1.setCtx ctx { s1.ctx ctx with nextSeq := seq + 1 }).publishTo ctx q n k

/-- QTAIL_WRITE: the doorbell of a queue. While the queue is disabled or the context is not live it publishes nothing. -/
def State.writeQtail (s : State) (ctx q : Nat) (v : Dword) : State :=
  let x := s.launchQueue ctx q
  let n := x.size
  if n = 0 ∨ (s.ctx ctx).live = false then s.setLaunchQueue ctx q { x with qtail := v.toNat }
  else s.publishTo ctx q n ((v.toNat % n + n - x.qtail % n) % n)

/-- QCTL_WRITE: enabling a disabled queue sets its indices to QTAIL's value, and nothing published before stands in it. -/
def State.writeQctl (s : State) (ctx q : Nat) (v : Dword) : State :=
  let x := s.launchQueue ctx q
  let y := { x with qctl := v &&& 0xF }
  s.setLaunchQueue ctx q (if x.size = 0 ∧ y.size ≠ 0 then
      { y with qtail := x.qtail % y.size, qhead := x.qtail % y.size, devTail := x.qtail % y.size, devHead := x.qtail % y.size,
               entries := [] }
    else y)

/-- A register write reaches BAR0: the package has booted, and the context is one of 512. -/
def State.takesWrite (s : State) (ctx : Nat) : Bool := s.boot == .running && decide (ctx < Config.contexts)

def execQtailWrite (ctx q : Nat) (v : BitVec 64) (s : State) : Outcome State Fault Refusal :=
  .next (if s.takesWrite ctx && decide (q < 8) then s.writeQtail ctx q v else s)
def execQctlWrite (ctx q : Nat) (v : BitVec 64) (s : State) : Outcome State Fault Refusal :=
  .next (if s.takesWrite ctx && decide (q < 8) then s.writeQctl ctx q v else s)

/-! ### Other registers of BAR0 (25 R375) -/

def State.writeMbx (s : State) (ctx n : Nat) (v : Dword) : State :=
  s.setCtx ctx { s.ctx ctx with mbx := Tbl.put 0 (s.ctx ctx).mbx n v }
def State.writeGovdead (s : State) (ctx n : Nat) (v : Dword) : State :=
  s.setGov ctx n { s.govStream ctx n with deadline := v }

/-- MBX_HOST_WRITE and GOVDEAD_WRITE: a mailbox, and a governor stream's deadline. -/
def execMbxHostWrite (ctx n : Nat) (v : BitVec 64) (s : State) : Outcome State Fault Refusal :=
  .next (if s.takesWrite ctx && decide (n < 8) then s.writeMbx ctx n v else s)
def execGovdeadWrite (ctx n : Nat) (v : BitVec 64) (s : State) : Outcome State Fault Refusal :=
  .next (if s.takesWrite ctx && decide (n < 16) then s.writeGovdead ctx n v else s)

/-- Events held by the hub enter a ring that has room. -/
def State.flowEvents (s : State) (r : EventRing) : Nat → EventRing × State
  | 0 => (r, s)
  | k + 1 =>
    match r.held with
    | [] => (r, s)
    | e :: rest =>
      if r.isFull then (r, s)
      else (s.ringWrite r e).flowEvents { r with tail := (r.tail + 1) % r.size, held := rest } k

/-- Launches of a context whose trap records can be held or posted now are aborted, unless a debugger is attached (14 R238, 25
R379). -/
def State.abortPosted (s : State) (ctx : Nat) (words : List Dword) : State :=
  if (s.ctx ctx).dbgctl.getLsbD 3 then s
  else
    (s.launches.filter (fun e => e.2.ctx == ctx && e.2.phase == .running && words.contains (launchWord e.2))).foldl
      (fun (t : State) e => if t.recordWaits e.1 then t else t.abortLaunch e.1 e.2.trapSeq) s

/-- A ring's registers are written, and held events flow. Context 512 stands for the global ring (log 13). -/
def State.updateRing (s : State) (ctx : Nat) (f : EventRing → EventRing) : State :=
  if ctx = Config.contexts then
    let r := s.flowEvents (f s.globalRing) s.globalRing.held.length
    { r.2 with globalRing := r.1 }
  else
    let r0 := (s.ctx ctx).ring
    let r := s.flowEvents (f r0) r0.held.length
    (r.2.setCtx ctx { r.2.ctx ctx with ring := r.1 }).abortPosted ctx r0.unheld

/-- EVHEAD_WRITE: the host's consumption index. -/
def State.writeEvhead (s : State) (ctx : Nat) (v : Dword) : State := s.updateRing ctx (fun r => { r with head := v.toNat })

def execEvheadWrite (ctx : Nat) (v : BitVec 64) (s : State) : Outcome State Fault Refusal :=
  .next (if s.boot == .running && decide (ctx ≤ Config.contexts) then s.writeEvhead ctx v else s)

/-- A strand whose WAITT deadline has passed is ready (25 R386). -/
def State.wakeDeadline (s : State) (i : Nat) : State :=
  match (s.strand i).stat with
  | .parked (.deadline t) =>
    if t ≤ s.time then s.setStrand i { s.strand i with since := (s.core ((s.coreOf (strandBundle i)).getD 0)).arb + 1 } else s
  | _ => s

/-- TSET: a forward step is made; a backward one is refused. It wakes every WAITT whose deadline it passes. -/
def State.writeTset (s : State) (v : Dword) : State :=
  if s.time ≤ v.toNat then (Tbl.keys s.strands).foldl State.wakeDeadline { s with time := v.toNat } else s

def execTsetWrite (v : BitVec 64) (s : State) : Outcome State Fault Refusal :=
  .next (if s.boot == .running then s.writeTset v else s)

/-- GOVSTEP: MAX, MIN, SAMPLES and AVG are the host's; LAST is the hub's (23 R366). -/
def GovStream.writeStep (g : GovStream) (v : Dword) : GovStream :=
  { g with max := (v.extractLsb' 56 8).toNat, min := (v.extractLsb' 48 8).toNat, samples := (v.extractLsb' 32 8).toNat,
           avg := (v.extractLsb' 0 32).toNat }

/-- LEASEMAX: 1 to 8,191; a write of 0 changes nothing (DESIGN CHOICE, log 55). -/
def Context.writeLeasemax (c : Context) (v : Dword) : Context :=
  if v &&& 0x1FFF = 0 then c else { c with leasemax := v &&& 0x1FFF }

/-- A write to a register of a context's page; reserved offsets ignore it. Fields that must be zero are dropped. -/
def State.writeContextReg (s : State) (ctx ofs : Nat) (v : Dword) : State :=
  let c := s.ctx ctx
  if ofs = 0x000 then (if c.live then s else s.setCtx ctx { c with root := v })
  else if 0x040 ≤ ofs ∧ ofs < 0x0C0 then
    let q := (ofs - 0x040) / 16
    if ofs % 16 = 0 then s.setLaunchQueue ctx q { s.launchQueue ctx q with qbase := v &&& ~~~0xFFFF#64 } else s.writeQctl ctx q v
  else if 0x0C0 ≤ ofs ∧ ofs < 0x100 then s.writeQtail ctx ((ofs - 0x0C0) / 8) v
  else if 0x180 ≤ ofs ∧ ofs < 0x1C0 then s.writeMbx ctx ((ofs - 0x180) / 8) v
  else if ofs = 0x200 then s.updateRing ctx (fun r => { r with base := v &&& ~~~0xFFF#64 })
  else if ofs = 0x208 then s.updateRing ctx (fun r => { r with ctl := (v &&& 0xF) ||| (r.ctl &&& 0x100) })
  else if ofs = 0x210 then s.writeEvhead ctx v
  else if ofs = 0x220 then s.setCtx ctx { c with hwbase := v &&& ~~~0xFFF#64 }
  else if ofs = 0x228 then s.setCtx ctx { c with hwsize := v &&& ~~~0xFFF#64 }
  else if ofs = 0x230 then s.setCtx ctx (c.writeLeasemax v)
  else if 0x300 ≤ ofs ∧ ofs < 0x380 then s.writeGovdead ctx ((ofs - 0x300) / 8) v
  else if 0x380 ≤ ofs ∧ ofs < 0x400 then s.setGov ctx ((ofs - 0x380) / 8) ((s.govStream ctx ((ofs - 0x380) / 8)).writeStep v)
  else if ofs = 0x400 then s.setCtx ctx { c with dbgctl := v &&& 0xF }
  else if 0x408 ≤ ofs ∧ ofs < 0x448 then
    s.setCtx ctx { c with dbgbpa := Tbl.put 0 c.dbgbpa ((ofs - 0x408) / 8) (v &&& 0x00FFFFFFFFFFFFFD) }
  else s

/-- A write to the global page: the command doorbell, TSET, and the registers of the global event ring (log 13). -/
def State.writeGlobalReg (s : State) (ofs : Nat) (v : Dword) : State :=
  if ofs = 0x40 then { s with ctail := v.toNat }
  else if ofs = 0x80 then s.writeTset v
  else if ofs = 0x200 then s.updateRing Config.contexts (fun r => { r with base := v &&& ~~~0xFFF#64 })
  else if ofs = 0x208 then s.updateRing Config.contexts (fun r => { r with ctl := (v &&& 0xF) ||| (r.ctl &&& 0x100) })
  else if ofs = 0x210 then s.writeEvhead Config.contexts v
  else s

/-- HOST_REGISTER_WRITE: a dword of BAR0 by its offset. -/
def execHostRegisterWrite (ofs : Nat) (v : BitVec 64) (s : State) : Outcome State Fault Refusal :=
  .next (
    if s.boot != .running || ofs % 8 != 0 then s
    else if ofs < 0x1000 then s.writeGlobalReg ofs v
    else if 0x10000 ≤ ofs ∧ ofs < 0x10000 + 0x1000 * Config.contexts then
      s.writeContextReg ((ofs - 0x10000) / 0x1000) (ofs % 0x1000) v
    else s)

/-- What a host load of a dword of a context's page reads (25 R375). -/
def State.contextReg (s : State) (ctx ofs : Nat) : Dword :=
  let c := s.ctx ctx
  let q := (ofs - 0x040) / 16
  if ofs = 0x000 then c.root
  else if 0x040 ≤ ofs ∧ ofs < 0x0C0 then (if ofs % 16 = 0 then (s.launchQueue ctx q).qbase else (s.launchQueue ctx q).qctl)
  else if 0x0C0 ≤ ofs ∧ ofs < 0x100 then BitVec.ofNat 64 (s.launchQueue ctx ((ofs - 0x0C0) / 8)).qtail
  else if 0x100 ≤ ofs ∧ ofs < 0x140 then BitVec.ofNat 64 (s.launchQueue ctx ((ofs - 0x100) / 8)).qhead
  else if 0x180 ≤ ofs ∧ ofs < 0x1C0 then s.mbx ctx ((ofs - 0x180) / 8)
  else if ofs = 0x200 then c.ring.base
  else if ofs = 0x208 then c.ring.ctl
  else if ofs = 0x210 then BitVec.ofNat 64 c.ring.head
  else if ofs = 0x218 then BitVec.ofNat 64 c.ring.tail
  else if ofs = 0x220 then c.hwbase
  else if ofs = 0x228 then c.hwsize
  else if ofs = 0x230 then c.leasemax
  else if 0x300 ≤ ofs ∧ ofs < 0x380 then (s.govStream ctx ((ofs - 0x300) / 8)).deadline
  else if 0x380 ≤ ofs ∧ ofs < 0x400 then (s.govStream ctx ((ofs - 0x380) / 8)).step
  else if ofs = 0x400 then c.dbgctl
  else if 0x408 ≤ ofs ∧ ofs < 0x448 then Tbl.getD c.dbgbpa ((ofs - 0x408) / 8) 0
  else 0

/-- What a host load of a dword of the global page reads (25 R380, R386; log 13). -/
def State.globalReg (s : State) (ofs : Nat) : Dword :=
  if ofs = 0x40 then BitVec.ofNat 64 s.ctail
  else if ofs = 0x48 then BitVec.ofNat 64 s.chead
  else if ofs = 0x80 then BitVec.ofNat 64 s.time
  else if ofs = 0x88 then (if s.tstatLock then 2 ^ 63 else 0) + s.tstatOffset.setWidth 64
  else if ofs = 0x200 then s.globalRing.base
  else if ofs = 0x208 then s.globalRing.ctl
  else if ofs = 0x210 then BitVec.ofNat 64 s.globalRing.head
  else if ofs = 0x218 then BitVec.ofNat 64 s.globalRing.tail
  else 0

/-- What a host load of a dword of BAR0 reads: zero at reserved offsets, and everywhere until the package has booted (25 R375,
26 R390). A load changes nothing. -/
def State.registerAt (s : State) (ofs : Nat) : Dword :=
  if s.boot != .running || ofs % 8 != 0 then 0
  else if ofs < 0x1000 then s.globalReg ofs
  else if 0x10000 ≤ ofs ∧ ofs < 0x10000 + 0x1000 * Config.contexts then s.contextReg ((ofs - 0x10000) / 0x1000) (ofs % 0x1000)
  else 0

/-! ### Commands (25 R380) -/

/-- Take a command of the ring: one that comes while another runs, or before the package runs, is not taken yet. -/
def State.command1 (s : State) (f : State → State) : Outcome State Fault Refusal :=
  .next (if s.boot == .running && s.command == .idle then f s else s)

/-- Finish a command, or refuse it with code 1 (25 R380 gives no code; log 54). -/
def State.doneIf (s : State) (ok : Bool) (t : State) : State := if ok then t.finishCommand 0 else s.finishCommand 1

/-- CREATE_CONTEXT: the context is live with its root table; its queues hold nothing, and its sequence numbers begin at 1. -/
def State.createContext (s : State) (ctx : Nat) (root : Dword) : State :=
  let c := s.ctx ctx
  s.setCtx ctx { c with live := true, root := root, nextSeq := 1, nodes := [], nodeCount := 0, poolBase := 0, poolSize := 0,
                        poolCount := 0, records := [], shadows := [],
                        queues := Tbl.mapVals (fun (q : LaunchQueue) => { q with entries := [] }) c.queues }

def execCreateContext (ctx : Nat) (root : BitVec 64) (s : State) : Outcome State Fault Refusal :=
  s.command1 (fun t => t.doneIf (decide (ctx < Config.contexts) && !(t.ctx ctx).live && root.toNat % 16384 == 0) (t.createContext ctx root))

/-- END_CONTEXT: the context ends with host-end (14 R236, R245). -/
def execEndContext (ctx : Nat) (s : State) : Outcome State Fault Refusal :=
  s.command1 (fun t => t.doneIf (decide (ctx < Config.contexts) && (t.ctx ctx).live) (t.endContext ctx (BitVec.ofNat 8 causeHostEnd) 0))

/-- SHOOT_DOWN: the invalidation goes to every unit. Until its unit has acknowledged, an access may use an older form of an entry
(log 12). -/
def execShootDown (ctx : Nat) (va len : BitVec 64) (s : State) : Outcome State Fault Refusal :=
  s.command1 (fun t =>
    if ctx < Config.contexts ∧ (t.ctx ctx).live = true then
      { t with command := .shootDown, shoot := some (ctx, va.toNat, len.toNat, shootUnits) }
    else t.finishCommand 1)

/-- SHOOT_DOWN_ACKNOWLEDGE: a unit's accesses in flight have performed; after the last one no unit holds an older form of the
range's entries, and the completion is posted. -/
def execShootDownAcknowledge (unit : Nat) (s : State) : Outcome State Fault Refusal :=
  .next (match s.shoot with
    | none => s
    | some (c, va, len, us) =>
      match us.filter (fun u => u != unit) with
      | [] => { s with shoot := none, oldMaps := s.droppedMaps shootAll c va len }.finishCommand 0
      | left => { s with shoot := some (c, va, len, left), oldMaps := if us.contains unit then s.droppedMaps unit c va len else s.oldMaps })

/-- Whether a frame of device memory can be given to a pool. -/
def frameGivable (large : Bool) (f : Nat) : Bool :=
  if large then f % 512 == 0 && decide ((f + 512) * 65536 ≤ Config.deviceBytes) else decide ((f + 1) * 65536 ≤ Config.deviceBytes)

/-- ADD_POOL_FRAMES: frames join a pool, and its threshold is set (15 R260). -/
def execAddPoolFrames (large : Bool) (frames : List Nat) (threshold : Nat) (s : State) : Outcome State Fault Refusal :=
  s.command1 (fun t =>
    let grow (p : FramePool) : FramePool := ⟨p.frames ++ frames, threshold⟩
    t.doneIf (frames.all (frameGivable large))
      (if large then { t with largePool := grow t.largePool } else { t with smallPool := grow t.smallPool }))

/-- DIE_BEAD_ALLOCATE and DIE_BEAD_FREE: a die bead is a context's; one that is freed must have nobody waiting and no copy or launch
that names it. -/
def execDieBeadAllocate (ctx bead : Nat) (s : State) : Outcome State Fault Refusal :=
  s.command1 (fun t => t.doneIf (decide (ctx < Config.contexts) && decide (bead / 8192 < 7) && decide (bead % 8192 < 0x400)
    && (Tbl.find? t.dieBeadOwner bead).isNone) { t with dieBeadOwner := Tbl.insert t.dieBeadOwner bead ctx })

/-- Whether a die bead is in use. -/
def State.dieBeadBusy (s : State) (bead : Nat) : Bool :=
  !(s.bead (.shared bead)).queue.isEmpty || s.copies.any (fun e => e.2.hostBead == some bead) ||
    s.launches.any (fun e => (e.2.phase == .running || e.2.phase == .waiting) &&
      (hdrDoneBead e.2.hdr == bead || hdrWaitBead e.2.hdr == bead))

def execDieBeadFree (ctx bead : Nat) (s : State) : Outcome State Fault Refusal :=
  s.command1 (fun t => t.doneIf (Tbl.find? t.dieBeadOwner bead == some ctx && !t.dieBeadBusy bead)
    { t with dieBeadOwner := Tbl.erase t.dieBeadOwner bead })

/-- LINK_STREAM_ALLOCATE and LINK_STREAM_FREE: a port and stream is a context's (25 R384). -/
def execLinkStreamAllocate (ctx port stream : Nat) (s : State) : Outcome State Fault Refusal :=
  s.command1 (fun t => t.doneIf (decide (ctx < Config.contexts) && decide (port < 12) && decide (stream < 65536)
    && (t.linkStream port stream).isNone) (t.setLink2 port stream (LinkStream.fresh ctx)))

/-- Whether a transfer is in flight on a port and stream. -/
def State.streamBusy (s : State) (port stream : Nat) : Bool :=
  s.copies.any (fun e => match e.2.kind with
    | .linkSend p q _ _ _ => p == port && q == stream
    | .linkRecv p q _ _ => p == port && q == stream
    | _ => false)

def execLinkStreamFree (ctx port stream : Nat) (s : State) : Outcome State Fault Refusal :=
  s.command1 (fun t => t.doneIf ((match t.linkStream port stream with
      | some x => x.ctx == ctx
      | none => false) && !t.streamBusy port stream)
    (t.setPort port { t.port port with streams := Tbl.erase (t.port port).streams stream }))

/-- WRITE_MTCFG: the matrix engine's test control; reserved bits stay zero (21 R340). -/
def execWriteMtcfg (tile : Nat) (v : BitVec 64) (s : State) : Outcome State Fault Refusal :=
  s.command1 (fun t => t.doneIf (decide (tile < Config.tiles)) (t.setTile tile { t.tile tile with mtcfg := v &&& 0x1FFFF }))

/-! ### Debugging (14 R239, 06 R143) -/

/-- Strands a debug command names: one, or every strand of the crew (index 64 and above). -/
def State.debugged (s : State) (o st : Nat) : List Nat :=
  if st < 64 then [strandKey o st]
  else match s.crewOf o with
    | some (_, x) => (x.bundles.map s.liveStrands).flatten
    | none => s.liveStrands o

def Strand.isHalted (x : Strand) : Bool :=
  match x.stat with
  | .halted => true
  | .stopped _ => true
  | _ => false

/-- A halted strand goes on at an address, by its saved state. At its own pc it does not test again the breakpoint it trapped at (06
R143). -/
def State.resumeStrand (s : State) (pc : Option Dword) (i : Nat) : State :=
  let x := s.strand i
  match x.stat with
  | .halted => s.setStrand i { x with stat := .ready, pc := pc.getD x.pc, since := 0, waitCount := 0, stamp := none,
                                      bpSkip := if pc.isNone then x.bpSkip else none }
  | .stopped none => s.setStrand i { x with stat := .ready, since := 0, waitCount := 0, stamp := none }
  | .stopped (some w) => s.setStrand i { x with stat := .parked w }
  | _ => s.setStrand i { x with stopDue := false }

/-- STATE of DBGSTAT once strands of a bundle have gone on (14 R255). -/
def State.restateDebug (s : State) (o : Nat) : State :=
  let ls := s.liveStrands o
  let halted := ls.any (fun i => (s.strand i).stat == .halted)
  let stopped := ls.any (fun i => (s.strand i).isHalted)
  s.setOwner o { s.owner o with dbgstat := dbgState (s.owner o).dbgstat (if halted then 1 else if stopped then 2 else 0) }

/-- A trapped tile stream goes on from its region head, or, trapped between parts, at its record again (14 R239, R243). -/
def State.retryTile (s : State) (t : Nat) (skip : Option Dword) : State :=
  let clear (u : State) : State := u.setOwner t { u.owner t with dbgstat := dbgState (u.owner t).dbgstat 0 }
  match (s.tile t).stream with
  | none => s
  | some st =>
    match skip with
    | some a => clear (s.setStream t (fun (x : Stream) =>
        if x.exq.any (fun (p : PathGroup) => p.pc == (s.owner t).tpc) then { x with halted := false, exq := x.exq.drop 1, bpSkip := none }
        else { x with halted := false, head := some a, acq := [], wait := none, parked := [], bpSkip := none }))
    | none =>
      if st.running then
        clear ((s.restart t).setStream t (fun (x : Stream) => { x with restarts := st.restarts }))
      else clear (s.setStream t (fun (x : Stream) => { x with halted := false }))

/-- What a debug command names is halted, and its launch's trap records are posted or held. -/
def State.debugHalted (s : State) (o st : Nat) : Bool :=
  if (s.launchOf o).any s.recordWaits then false
  else if ownerIsTile o then (match (s.tile o).stream with
    | some x => x.halted
    | none => false)
  else (s.debugged o st).any (fun i => (s.strand i).isHalted)

/-- DEBUG_RETRY: strands go on at their own pc; a breakpoint they trapped at is not tested at the next instruction. -/
def execDebugRetry (o st : Nat) (s : State) : Outcome State Fault Refusal :=
  s.command1 (fun t => t.doneIf (t.debugHalted o st)
    (if ownerIsTile o then t.retryTile o none
     else
      let is := t.debugged o st
      (is.map strandBundle).eraseDups.foldl State.restateDebug (is.foldl (fun (u : State) i => u.resumeStrand none i) t)))

/-- The address after the instruction at an address. -/
def State.afterInstr (s : State) (ctx : Nat) (a : Dword) : Option Dword :=
  match s.walk ctx a.toNat with
  | .page p => some (a + (if wordLong (BitVec.ofNat 32 (s.readLE (p.pa a.toNat) 4)) then 8 else 4))
  | _ => none

/-- The address after the TRAP of a group, looked for from the group's first word. -/
def State.afterTrap (s : State) (ctx : Nat) : Nat → Dword → Option Dword
  | 0, _ => none
  | n + 1, a =>
    match s.walk ctx a.toNat, s.afterInstr ctx a with
    | .page p, some next =>
      let w : Word := BitVec.ofNat 32 (s.readLE (p.pa a.toNat) 4)
      if wordClass w == 0 && wordOp w == 0x13 then some next else if wordStop w then none else s.afterTrap ctx n next
    | _, _ => none

/-- The address after the instruction that raised software or breakpoint at a group; none for another cause. -/
def State.afterTrapped (s : State) (ctx cause : Nat) (broke : Option Dword) (pc : Dword) : Option Dword :=
  if cause = causeBreakpoint then (match broke with
    | some a => s.afterInstr ctx a
    | none => none)
  else if cause = causeSoftware then s.afterTrap ctx 24 pc
  else none

/-- Where a strand that is trap-halted goes on when its instruction is skipped. -/
def State.skipStrand (s : State) (ctx i : Nat) : Option Dword :=
  let x := s.strand i
  s.afterTrapped ctx x.trapCause.toNat x.bpSkip x.pc

/-- Skip a tile stream's instruction. -/
def State.skipTile (s : State) (t : Nat) : State :=
  let broke := match (s.tile t).stream with
    | some st => st.bpSkip
    | none => none
  match s.afterTrapped (s.ownerCtx t) ((s.owner t).tcause.toNat % 256) broke (s.owner t).tpc with
  | some a => s.doneIf (s.debugHalted t 64) (s.retryTile t (some a))
  | none => s.finishCommand 1

/-- DEBUG_SKIP: legal where every strand named that is trap-halted is so at software or breakpoint; each of them goes on after its own
instruction. -/
def execDebugSkip (o st : Nat) (s : State) : Outcome State Fault Refusal :=
  s.command1 (fun t =>
    if ownerIsTile o then t.skipTile o
    else
      let is := t.debugged o st
      let trapped := is.filter (fun i => (t.strand i).stat == .halted)
      let ctx := t.ownerCtx o
      t.doneIf (t.debugHalted o st && !trapped.isEmpty && trapped.all (fun i => (t.skipStrand ctx i).isSome))
        ((is.map strandBundle).eraseDups.foldl State.restateDebug
          (is.foldl (fun (u : State) i => u.resumeStrand (t.skipStrand ctx i) i) t)))

/-- DEBUG_ABORT: the launch is aborted as without a debugger; its slot names the trap's record. -/
def execDebugAbort (o : Nat) (s : State) : Outcome State Fault Refusal :=
  s.command1 (fun t => match t.launchOf o with
    | some l => t.doneIf (t.debugHalted o 64) (t.abortLaunch l (((Tbl.find? t.launches l).map (fun (x : Launch) => x.trapSeq)).getD 0))
    | none => t.finishCommand 1)

/-! ### Resets and power-off of a die (23 R363, R364) -/

/-- Entries of a table that are not all zero. -/
def State.tableEntries (s : State) (table : Nat) : List Nat :=
  ((s.mem.filter (fun e => decide (table ≤ e.1) && decide (e.1 < table + 16384))).map (fun e => (e.1 - table) / 16)).eraseDups

/-- The frames of a resident page: its first, and the first and the last that hold its companion scales. -/
def PageInfo.frames (p : PageInfo) : List Nat :=
  p.base / 65536 :: (if p.csc then [p.cfn, p.cfn + (pageBlocks p.size p.fmt p.geo true - 1) / 65536] else [])

/-- Frames that back pages below a table of a level: what a malformed entry, or one that a 32 MiB page's first entry governs, would name
is none (15 R259). -/
def State.framesBelow (s : State) : Nat → Nat → List Nat
  | 0, table => ((s.tableEntries table).map (fun i => match s.walkL0 table (65536 * i) with
      | .page p => p.frames
      | _ => [])).flatten
  | n + 1, table => ((s.tableEntries table).map (fun i =>
      let at0 := table + 16 * i
      let e0 := s.readDword at0
      if e0.getLsbD 0 && e0.extractLsb' 1 13 == 0 && e0.extractLsb' 52 12 == 0 && s.readDword (at0 + 8) == 0 && !s.isMarked at0 16 then
        s.framesBelow n ((e0.extractLsb' 14 38).toNat * 2 ^ 14)
      else [])).flatten

/-- Whether a frame on a die backs a page of a context, the frames of its open shadows among them (19 R326). -/
def State.backedOn (s : State) (d ctx : Nat) : Bool :=
  (s.framesBelow 3 (s.ctx ctx).root.toNat ++ ((s.ctx ctx).shadows.map (fun (x : Shadow) => x.frames.map (fun (e : Nat × Nat) => e.2 / 65536))).flatten).any
    (fun f => decide (f * 65536 < Config.deviceBytes) && dieOfAddr (f * 65536) == d)

def dieTiles (d : Nat) : List Nat := if d < 3 then [] else (List.range 96).map (fun i => (d - 3) * 96 + i)

/-- Nothing runs on a die: no crew is resident, no stream unsaved. -/
def State.dieQuiet (s : State) (d : Nat) : Bool :=
  !s.crews.any (fun e => !e.2.ended && (match e.2.core with
    | some k => k / 48 == d && decide (d < 3)
    | none => false)) &&
    (dieTiles d).all (fun t => match (s.tile t).stream with
      | some st => st.saved
      | none => true)

/-- Quarters that the record and the addendum fence on a tile (26 R390, R392). -/
def fencesOf (l : List (Nat × BitVec 4)) (t : Nat) : BitVec 4 := l.foldl (fun m e => if e.1 = t then m ||| e.2 else m) 0
def State.signedFences (s : State) (t : Nat) : BitVec 4 :=
  fencesOf (((s.usedRecord.map (fun (r : FlashImage) => r.fenced)).getD []) ++ s.flash.addendum) t

/-- A tile after its island's reset: as after boot, and a saved stream's image stays. Fences that are signed stay (21 R344). -/
def State.resetTile (s : State) (t : Nat) : State :=
  let x := s.tile t
  let y := if x.stream.isSome then x else { Tile.reset with slavedTo := none }
  let s1 := s.setTile t { y with mtcfg := Tile.reset.mtcfg, sinceTest := 0, failed := 0, fenced := s.signedFences t, fenceDue := 0 }
  if x.stream.isSome then s1 else (List.range 64).foldl (fun (u : State) b => u.setBead (tileBead t b) Bead.zero) s1

/-- The channels that a reset of a die stops (22 R357). -/
def State.desyncDie (s : State) (d : Nat) : State :=
  (s.channels.filter (fun e => e.1 == d || e.2.tiles.any (fun t => 3 + t / 96 == d))).foldl (fun (t : State) e => t.desync e.1 e.2) s

/-- The islands of a die are reset, a raster die's front end among them, and its status becomes `st`. -/
def State.resetDie (s : State) (d : Nat) (st : DieStat) : State :=
  let s1 := s.desyncDie d
  let s2 := (if d < 3 then dieCores d else []).foldl (fun (t : State) k =>
    t.setCore k { CoreState.idle with arb := (t.core k).arb, nextSeq := (t.core k).nextSeq }) s1
  let s3 := (dieTiles d).foldl State.resetTile s2
  { s3 with dies := Tbl.insert s3.dies d st, frontEnds := Tbl.erase s3.frontEnds d }

/-- A reset under way finishes once nothing runs on the die: it runs again, or is off. -/
def State.finishReset (s : State) : State :=
  match s.command with
  | .dieReset d off => if s.dieQuiet d then (s.resetDie d (if off then .off else .running)).finishCommand 0 else s
  | _ => s

/-- Stop what runs on a die, as a pre-emption does: groves whole, streams at their next points. -/
def State.stopDie (s : State) (d : Nat) : State :=
  let cs := (s.crews.filter (fun e => !e.2.ended && (match e.2.core with
    | some k => k / 48 == d && decide (d < 3)
    | none => false))).map Prod.fst
  let all := (cs.map (fun c => match Tbl.find? s.crews c with
    | some x => s.together c x
    | none => [c])).flatten.eraseDups
  let s1 := all.foldl State.stopVictim s
  (dieTiles d).foldl (fun (t : State) k => match (t.tile k).stream with
    | some st => if st.saved then t else t.setTile k { t.tile k with preempt := true }
    | none => t) s1

/-- Begin a reset, with the deadline that a compute reset carries. -/
def State.beginReset (s : State) (d : Nat) (limit : Option Nat) (off : Bool) : State :=
  { s.stopDie d with dies := Tbl.insert s.dies d (.resetting (limit.map (fun n => s.time + n))), command := .dieReset d off }.finishReset

/-- COMPUTE_RESET: refused for H and for a die that does not run. While one is under way, what has been saved is looked at again. -/
def execComputeReset (die limit : Nat) (s : State) : Outcome State Fault Refusal :=
  match s.command with
  | .dieReset _ _ => .next s.finishReset
  | _ => s.command1 (fun t => if die < 6 ∧ t.die die = .running then t.beginReset die (some limit) false else t.finishCommand 1)

/-- POWER_OFF: refused while a frame of the die backs a page of a live context or a die bead of it is allocated. -/
def execPowerOff (die : Nat) (s : State) : Outcome State Fault Refusal :=
  match s.command with
  | .dieReset _ _ => .next s.finishReset
  | _ => s.command1 (fun t =>
      let backed := t.ctxs.any (fun e => e.2.live && t.backedOn die e.1)
      let beads := t.dieBeadOwner.any (fun e => e.1 / 8192 == die)
      if die < 6 ∧ t.die die = .running ∧ backed = false ∧ beads = false then t.beginReset die none true else t.finishCommand 1)

/-- DIE_RESET_TIME_LIMIT: at the limit that a compute reset carries, streams still short of a point end their contexts with
state-lost. A power-off carries none (23 R364). -/
def execDieResetTimeLimit (die : Nat) (s : State) : Outcome State Fault Refusal :=
  .next (match s.die die with
    | .resetting (some t) =>
      let late := ((dieTiles die).filterMap (fun k => match (s.tile k).stream with
        | some st => if st.saved then none else some (s.launchCtx st.launch)
        | none => none)).eraseDups
      (late.foldl (fun (u : State) c => u.endContext c (BitVec.ofNat 8 causeStateLost) 0) (s.timeReaches t)).finishReset
    | _ => s)

/-! ### Host copies (25 R380) -/

/-- A copy of the host's: its device endpoint is global memory or a tile's scratchpad that no other context holds, whole 16-byte
units, with a bead the context may use. -/
def State.hostCopy (s : State) (ctx host : Nat) (dev : Dword) (len : Nat) (bead : Option Nat) (toHost : Bool) : State :=
  let place : Option (Place × Dword) := match endpointOf dev with
    | some (.global a) => some (.global ctx, a)
    | some (.tile t ofs) => if s.tileFree ctx t then some (.tile t, BitVec.ofNat 64 ofs) else none
    | _ => none
  let beadOk := match bead with
    | some b => (s.beadAt ctx none b).isSome || (match place with
      | some (.tile t, _) => b / 64 == ((3 + t / 96) * 8192 + 0x400 + 64 * (t % 96)) / 64
      | _ => false)
    | none => true
  match place with
  | none => s.finishCommand 1
  | some (p, a) =>
    let fits := s.placeRangeOk p a len
    if ctx < Config.contexts ∧ (s.ctx ctx).live = true ∧ beadOk = true ∧ fits = true ∧ len % 16 = 0 ∧ host % 16 = 0 ∧
        a.toNat % 16 = 0 ∧ host + len ≤ 2 ^ 51 then
      let h : Place := .window 0
      let part : CopyPart := if toHost then ⟨h, BitVec.ofNat 64 host, p, a, len⟩ else ⟨p, a, h, BitVec.ofNat 64 host, len⟩
      -- a free tile is gained by a copy that writes it (18 R305)
      let s1 := match p, toHost with
        | .tile t, false => s.claimTile ctx t
        | _, _ => s
      let c : Copy :=
        { issuer := none, ctx := ctx, launch := none, kind := .plain, parts := [part], units := len / 16, done := [], tokens := [],
          bead := none, hostBead := bead, cleared := [], skidder := hubSkidder ctx, carry := false }
      { s1 with command := .hostCopy s1.nextCopy }.issueCopy c
    else s.finishCommand 1

/-- A host copy waits for a channel of its skidder (22 R347). -/
def State.hostCopyTurn (s : State) (ctx : Nat) (f : State → State) : Outcome State Fault Refusal :=
  if 64 ≤ s.channelsOn (hubSkidder ctx) then .next s else s.command1 f

def execHostCopyToDevice (ctx host : Nat) (dst : BitVec 64) (len : Nat) (bead : Option Nat) (s : State) :
    Outcome State Fault Refusal := s.hostCopyTurn ctx (fun t => t.hostCopy ctx host dst len bead false)
def execHostCopyToHost (ctx host : Nat) (src : BitVec 64) (len : Nat) (bead : Option Nat) (s : State) :
    Outcome State Fault Refusal := s.hostCopyTurn ctx (fun t => t.hostCopy ctx host src len bead true)

/-! ### Node tables and record pools (25 R381) -/

/-- A launch of the context is live. -/
def State.liveLaunch (s : State) (ctx : Nat) : Bool :=
  s.launches.any (fun e => e.2.ctx == ctx && (e.2.phase == .running || e.2.phase == .waiting))

/-- What reading a table comes to: the nodes, a refusal, or a page that waits for a frame. -/
inductive TableRead where
  | done (nodes : Tbl Node) (s : State)
  | refused (code : Nat)
  | waits

/-- Read the entries of a node table from the i-th on. -/
def State.readNodes (s : State) (ctx : Nat) (table : Dword) : Nat → Nat → Tbl Node → TableRead
  | 0, _, got => .done got s
  | k + 1, i, got =>
    match s.globalAccess ctx (table + BitVec.ofNat 64 (8 * i)) 8 8 false true with
    | .error (.stopped (.wait _)) => .waits
    | .error _ => .refused (0x06 + 256 * i)
    | .ok (pa, _, s1) =>
      let a := s1.readDword pa
      if a = 0 then s1.readNodes ctx table k (i + 1) got
      else if a.toNat % 64 ≠ 0 then .refused (0x21 + 256 * i)
      else
        match s1.globalAccess ctx a 64 64 false true with
        | .error (.stopped (.wait _)) => .waits
        | .error _ => .refused (0x06 + 256 * i)
        | .ok (pb, _, s2) =>
          let h := s2.headerAt pb
          let code := s2.headerCode ctx h true
          if s2.headerWaits ctx h true then .waits
          else if code ≠ 0 then .refused (code + 256 * i)
          else (s2.readPlan ctx h).2.readNodes ctx table k (i + 1) (Tbl.insert got i ⟨h, [], false, false⟩)

/-- INSTALL_NODE_TABLE: every header is read and checked, and the hub keeps its own copies. -/
def execInstallNodeTable (ctx : Nat) (table : BitVec 64) (n : Nat) (s : State) : Outcome State Fault Refusal :=
  s.command1 (fun t =>
    if !(decide (ctx < Config.contexts) && (t.ctx ctx).live) then t.finishCommand 0x21
    else if t.liveLaunch ctx then t.finishCommand 0x20
    else if n = 0 ∨ 256 < n ∨ table.toNat % 8 ≠ 0 then t.finishCommand 0x21
    else
      match t.readNodes ctx table n 0 [] with
      | .waits => t
      | .refused c => t.finishCommand c
      | .done nodes u => (u.setCtx ctx { u.ctx ctx with nodes := nodes, nodeCount := n }).finishCommand 0)

/-- Whether a range is resident and writable in a context. -/
def State.writableRange (s : State) (ctx a n : Nat) : Bool :=
  (List.range ((a + n - 1) / 65536 - a / 65536 + 1)).all (fun i => match s.walk ctx (65536 * (a / 65536 + i)) with
    | .page p => p.canWrite
    | _ => false)

/-- INSTALL_RECORD_POOL: the new pool's slots start free. -/
def execInstallRecordPool (ctx : Nat) (base : BitVec 64) (size count : Nat) (s : State) : Outcome State Fault Refusal :=
  s.command1 (fun t =>
    let c := t.ctx ctx
    if !(decide (ctx < Config.contexts) && c.live) then t.finishCommand 0x21
    else if t.liveLaunch ctx then t.finishCommand 0x20
    else if base.toNat % 64 ≠ 0 ∨ size % 8 ≠ 0 ∨ size < 8 ∨ 4096 < size ∨ count = 0 ∨ 65536 < count then t.finishCommand 0x21
    else if c.nodes.any (fun e => decide (size < hdrRecSize e.2.hdr)) then t.finishCommand 0x04
    else if !t.writableRange ctx base.toNat (size * count) then t.finishCommand 0x06
    else (t.setCtx ctx { c with poolBase := base, poolSize := size, poolCount := count, records := [] }).finishCommand 0)

/-! ### Pages (15 R260, R261) -/

/-- PAGE_BACKING: the hub backs a reserved page of a context. -/
def execPageBacking (ctx : Nat) (va : BitVec 64) (s : State) : Outcome State Fault Refusal :=
  .next (match s.walk ctx va.toNat with
    | .reserved e a b l => (s.backPage e a b l).getD s
    | _ => s)

/-- PAGE_MIGRATION: a page held in host memory is copied into a device frame; one with TAG = 1 is not migrated. -/
def execPageMigration (ctx : Nat) (va : BitVec 64) (s : State) : Outcome State Fault Refusal :=
  .next (match s.walk ctx va.toNat with
    | .inHost e a b l => if a.getLsbD 7 then s else (s.migratePage e a b l).getD s
    | _ => s)

end Sys2Proof.Machine
end

