-- ==== Sys2Proof/Machine/Boot.lean ====
section
/-! DEFINITION. Power, boot and recovery (26 R388-R391), the DOE mailbox (26 R392, R393, R396), soft errors (26 R394, R395), the
power manager and the rails (27 R398, R399), the test port (27 R400), and the discipline of device time (25 R386). -/

namespace Sys2Proof.Machine

open Host (Outcome)

/-! ### Boot (26 R389, R390) -/

/-- An image that boot can use. -/
def imagePasses (svn : Nat) (i : FlashImage) : Bool := i.verifies && decide (svn ≤ i.version)

/-- The first of two copies that passes. -/
def firstPassing (svn : Nat) (a b : FlashImage) : Option FlashImage :=
  if imagePasses svn a then some a else if imagePasses svn b then some b else none

/-- The counters: those of a block whose tag fails read as all ones (26 R389). -/
def Flash.fwCount (f : Flash) : Nat := if f.counterOk then f.fwsvn else 0xFFFFFFFF
def Flash.cfgCount (f : Flash) : Nat := if f.counterOk then f.cfgsvn else 0xFFFFFFFF

/-- The record that boot takes, and the firmware; none where the counter block fails or no copy passes. -/
def Flash.record (f : Flash) : Option FlashImage := if f.counterOk then firstPassing f.cfgsvn f.recordA f.recordB else none
def Flash.firmware (f : Flash) : Option FlashImage := if f.counterOk then firstPassing f.fwsvn f.slotA f.slotB else none

/-- The package limit of a record, at most 3,600 W (27 R398). -/
def plimOf (r : FlashImage) : Nat := min 3600 r.plim

/-- An island clock within the range that any record permits (14 R250). -/
def clockOf (mhz : Nat) : Nat := max 2000 (min 2400 mhz)

/-- Boot with a record and firmware: the record is applied, the compute islands leave reset, the counters are raised, and commands
are accepted. A die whose always-on rail is out of range stays off. -/
def State.bootWith (s : State) (r fw : FlashImage) : State :=
  let fences := r.fenced ++ s.flash.addendum
  let tiles := (fences.map Prod.fst).eraseDups.filter (fun t => decide (t < Config.tiles))
  let f := { s.flash with cfgsvn := max s.flash.cfgsvn r.version, fwsvn := max s.flash.fwsvn fw.version }
  let s1 := { s with boot := .running, usedRecord := some r, usedFirmware := some fw, flash := f,
                     power := { s.power with plim := plimOf r, rasterClock := clockOf r.rasterLimit, tensorClock := clockOf r.tensorLimit },
                     dies := ((List.range 6).filter (fun d => s.power.badRails.contains (.vaon d))).foldl (fun t d => Tbl.insert t d .off) [] }
  tiles.foldl (fun (t : State) k => t.setTile k { t.tile k with fenced := fencesOf fences k }) s1

/-- Boot: to running, or to recovery. -/
def State.bootNow (s : State) : State :=
  match s.flash.record, s.flash.firmware with
  | some r, some fw => s.bootWith r fw
  | _, _ => { s with boot := .recovery }

/-- POWER_GOOD: the package powers up from off and boots. Time has begun at 0 (25 R386). -/
def execPowerGood (s : State) : Outcome State Fault Refusal :=
  .next (if s.boot == .off && !s.power.badRails.contains (.vaon 6) then s.bootNow else s)

/-- A copy in flash that the loss of power in the middle of its write leaves unverified: never the one in use, so that one valid
copy is left. -/
def Flash.torn (f : Flash) (isRecord : Bool) : Flash :=
  let bad (i : FlashImage) : FlashImage := { i with verifies := false }
  if isRecord then
    (if imagePasses f.cfgsvn f.recordA then { f with recordB := bad f.recordB } else { f with recordA := bad f.recordA })
  else (if imagePasses f.fwsvn f.slotA then { f with slotB := bad f.slotB } else { f with slotA := bad f.slotA })

/-- Everything the package holds is lost but its flash; host memory is the host's. -/
def State.powerDown (s : State) (f : Flash) : State :=
  { State.reset with mem := s.mem.filter (fun e => isHostAddr e.1), marked := s.marked.filter (fun u => isHostAddr (16 * u)),
                     flash := f, persistLog := s.persistLog, freeCtr := s.freeCtr, inbox := s.inbox,
                     power := { State.reset.power with badRails := s.power.badRails } }

/-- POWER_LOSS: power is lost, in the middle of a write to flash where `writing` says so; which kind of image was being written is
open (log 56). -/
def execPowerLoss (writing : Bool) (s : State) : Outcome State Fault Refusal :=
  .next (if writing then
      let x := s.free
      x.2.powerDown (s.flash.torn (x.1.getLsbD 0))
    else s.powerDown s.flash)

/-! ### The DOE mailbox (26 R392, R393, R396) -/

/-- A response of the mailbox, which answers whenever the package has power. -/
def State.doeAnswer (s : State) (bs : List Byte) : State := if s.boot == .off then s else { s with doe := bs }

/-- A list cut or filled with zeros to a length. -/
def sized (n : Nat) (l : List Byte) : List Byte := (l ++ List.replicate n 0).take n

/-- Context strings SILED-ATT and SILED-FENCE (26 R388). -/
def siledAtt : List Byte := [0x53, 0x49, 0x4C, 0x45, 0x44, 0x2D, 0x41, 0x54, 0x54]
def siledFence : List Byte := [0x53, 0x49, 0x4C, 0x45, 0x44, 0x2D, 0x46, 0x45, 0x4E, 0x43, 0x45]

/-- The addendum as bytes: die, linear tile index and mask of each entry (00 R8; log 23). -/
def addendumBytes (l : List (Nat × BitVec 4)) : List Byte :=
  (l.map (fun e => leBytes (3 + e.1 / 96) 1 ++ leBytes (e.1 % 96) 1 ++ [e.2.setWidth 8])).flatten

/-- Quarters that are fenced. -/
def State.fencedCount (s : State) : Nat :=
  ((List.range Config.tiles).map (fun t => ((List.range 4).filter (fun q => (s.tile t).fenced.getLsbD q)).length)).sum

/-- The part of an attestation report that is signed (26 R393). -/
def State.reportBody (s : State) (nonce : List Byte) : List Byte :=
  let body (i : Option FlashImage) : List Byte := (i.map (fun (x : FlashImage) => x.body)).getD []
  sized 32 nonce ++ sized 64 (Config.digest (body s.usedFirmware)) ++ sized 64 (Config.digest (body s.usedRecord))
    ++ sized 64 (Config.digest (addendumBytes s.flash.addendum)) ++ leBytes s.flash.fwCount 4 ++ leBytes s.flash.cfgCount 4
    ++ leBytes ((s.usedRecord.map (fun (r : FlashImage) => r.grade)).getD Config.productGrade).toNat 4 ++ leBytes s.fencedCount 4

/-- ATTESTATION_REQUEST: the report, signed. -/
def execAttestationRequest (nonce : List (BitVec 8)) (s : State) : Outcome State Fault Refusal :=
  let b := s.reportBody nonce
  .next (s.doeAnswer (b ++ sized 3309 (Config.signature siledAtt b)))

/-- IDENTITY_CERTIFICATE_REQUEST. -/
def execIdentityCertificateRequest (s : State) : Outcome State Fault Refusal := .next (s.doeAnswer Config.certificate)

/-- FENCE_ADDENDUM: quarters are added and never removed. The fence takes effect at once on an idle tile, else at the stream's next
pre-emption point. The answer is the addendum, signed again. The request's tile index names a tile of the whole package, 96 to a die
(DESIGN CHOICE, log 122). -/
def execFenceAddendum (tile : Nat) (mask : BitVec 4) (s : State) : Outcome State Fault Refusal :=
  if s.boot == .off || !decide (tile < Config.tiles) then .next (s.doeAnswer [1])
  else
    let l := s.flash.addendum ++ [(tile, mask)]
    let x := s.tile tile
    let s1 := { s with flash := { s.flash with addendum := l } }.setTile tile { x with fenceDue := x.fenceDue ||| mask }
    let s2 := if x.stream.isSome then s1 else s1.applyFences tile
    let b := addendumBytes l
    .next (s2.doeAnswer (b ++ sized 3309 (Config.signature siledFence b)))

/-- An entry of the error log as its 32 bytes (26 R395). -/
def LogEntry.bytes (e : LogEntry) : List Byte :=
  leBytes e.event.time 8 ++ leBytes e.event.addr 8 ++ leBytes (e.count % 2 ^ 32) 4 ++ leBytes e.event.unit 2 ++ leBytes e.event.die 1
    ++ leBytes e.event.kind 1 ++ leBytes (e.syndrome.toNat % 65536) 4 ++ leBytes (e.event.ctx % 512) 4

/-- ERROR_LOG_READ: entries from an offset. -/
def execErrorLogRead (ofs count : Nat) (s : State) : Outcome State Fault Refusal :=
  .next (s.doeAnswer ((((s.errLog.drop ofs).take count).map LogEntry.bytes).flatten))

/-- CAPTURE_ON and CAPTURE_OFF: a context's capture buffer; the answer is its status, 1 or 0 (log 26). -/
def execCaptureOn (ctx : Nat) (base : BitVec 64) (size : Nat) (s : State) : Outcome State Fault Refusal :=
  .next (if s.boot == .running && decide (ctx < Config.contexts) then
      (s.setCtx ctx { s.ctx ctx with capture := some ⟨base, size, 0, true⟩ }).doeAnswer [1]
    else s.doeAnswer [0])
def execCaptureOff (ctx : Nat) (s : State) : Outcome State Fault Refusal :=
  .next (if s.boot == .running && decide (ctx < Config.contexts) then
      (s.setCtx ctx { s.ctx ctx with capture := (s.ctx ctx).capture.map (fun (c : Capture) => { c with on := false }) }).doeAnswer [0]
    else s.doeAnswer [0])

/-- The copy of flash an image is written over, and the other of the pair. -/
def Flash.pair (f : Flash) (i : FlashImage) : FlashImage × FlashImage :=
  match i.isRecord, i.slotB with
  | true, false => (f.recordA, f.recordB)
  | true, true => (f.recordB, f.recordA)
  | false, false => (f.slotA, f.slotB)
  | false, true => (f.slotB, f.slotA)

/-- Flash with an image written. A record that verifies starts an empty addendum (26 R392). -/
def Flash.write (f : Flash) (i : FlashImage) : Flash :=
  match i.isRecord, i.slotB with
  | true, false => { f with recordA := i, addendum := if i.verifies then [] else f.addendum }
  | true, true => { f with recordB := i, addendum := if i.verifies then [] else f.addendum }
  | false, false => { f with slotA := i }
  | false, true => { f with slotB := i }

/-- IMAGE_WRITE: refused where it would replace the one copy that passes; in recovery the package then boots again. -/
def execImageWrite (img : FlashImage) (s : State) : Outcome State Fault Refusal :=
  let svn := if img.isRecord then s.flash.cfgCount else s.flash.fwCount
  let p := s.flash.pair img
  .next (
    if s.boot == .off then s
    else if imagePasses svn p.1 && !imagePasses svn p.2 then s.doeAnswer [1]
    else
      let s1 := { s with flash := s.flash.write img }.doeAnswer [0]
      if s.boot == .recovery then s1.bootNow else s1)

/-! ### Soft errors (26 R394, R395) -/

/-- Log an uncorrectable error. -/
def State.logUncorrectable (s : State) (addr die unit ctx : Nat) : State := s.log ⟨s.time, addr, 2, die, unit, ctx⟩

/-- Log one of an owner's. -/
def State.logOwner (s : State) (o addr : Nat) : State := s.logUncorrectable addr (s.dieOf o) (s.unitOf o) (s.ownerCtx o)

/-- A soft-error origin of an owner, with no address (log 57). -/
def State.softOrigin (s : State) (o strand : Nat) : BitVec 3 × State :=
  s.newOrigin o ⟨BitVec.ofNat 8 causeSoftError, 0, false, 0, BitVec.ofNat 8 strand⟩

/-- A bit of a bead's counter or parity flips: the next operation on the bead finds it (22 R353). -/
def State.spoilBead (s : State) (n : Nat) : State :=
  let die := n / 8192
  let idx := n % 8192
  let spoil (t : State) (a : BeadAt) : State := t.setBead a { t.bead a with bad := true }
  if idx < 0x400 ∧ die < 7 ∨ 3 ≤ die ∧ die < 6 ∧ idx < 0x1C00 then spoil s (.shared n)
  else if 3 ≤ die then s
  else
    let k := 48 * die + (idx - 0x400) / 64
    (s.stays.filter (fun e => e.2.core == some k)).foldl (fun (t : State) e => spoil t (.stay e.1 ((idx - 0x400) % 64))) s

/-- What an error does where it is found. -/
def State.softError (s : State) : SoftErrorAt → State
  | .corrected die core addr => (s.countCorrected die core).log ⟨s.time, addr, 1, die, core, 0⟩
  | .memoryUnit u =>
    let a := 16 * u
    { s with marked := markUnits s.marked a 16 true }.logUncorrectable a (dieOfAddr a) (a / (48 * 2 ^ 30)) 0
  | .rasterScratch c ofs =>
    match Tbl.find? s.crews c with
    | some x =>
      let s1 := s.setCrew c { x with marked := markUnits x.marked ofs 16 true }
      match x.core with
      | some k => s1.logUncorrectable ofs (k / 48) (k % 48) (s.launchCtx x.launch)
      | none => s1
    | none => s
  | .tileScratch t ofs =>
    (s.setTile t { s.tile t with marked := markUnits (s.tile t).marked ofs 16 true }).logUncorrectable ofs (3 + t / 96) (t % 96) (s.tileCtx t)
  | .tileStore t ofs =>
    (s.setTile t { s.tile t with storeMarked := markUnits (s.tile t).storeMarked ofs 16 true }).logUncorrectable ofs (3 + t / 96) (t % 96)
      (s.tileCtx t)
  | .scalarReg o r =>
    if (s.launchOf o).isNone || r == 0 then s
    else
      let x := s.softOrigin o 0
      (x.2.setS o r ⟨0, some x.1⟩).logOwner o 0
  | .laneReg i r =>
    let b := strandBundle i
    if !(s.strand i).live || (Tbl.find? s.strands i).isNone then s
    else
      let x := s.softOrigin b (strandIndex i)
      (x.2.setV i r.toNat ⟨0, some x.1⟩).logOwner b 0
  | .vectorReg t r =>
    match (s.tile t).stream with
    | none => s
    | some _ =>
      let x := s.softOrigin t 0
      (x.2.setStream t (fun (st : Stream) => { st with w := Tbl.insert st.w (st.phys r.toNat) ⟨0, some x.1⟩ })).logOwner t 0
  | .inFlight t => if (s.tile t).stream.isSome then (s.logOwner t 0).restartOnError t else s
  | .instructionWord pa again =>
    (if again then { s with marked := markUnits s.marked (pa / 16 * 16) 16 true } else s).logUncorrectable pa (dieOfAddr pa)
      (pa / (48 * 2 ^ 30)) 0
  | .machineState o =>
    match s.launchOf o with
    | some l => (s.logOwner o 0).endContext (s.launchCtx l) (BitVec.ofNat 8 causeStateLost) 0
    | none => s
  | .beadCounter b => s.spoilBead b.toNat
  -- ISSUED or OBSERVED of a channel: the audit fails at once (22 R355)
  | .channelCount d => (match Tbl.find? s.channels d with
    | some c => s.desync d c
    | none => s)

def execSoftError (e : SoftErrorAt) (s : State) : Outcome State Fault Refusal := .next (if s.boot == .off then s else s.softError e)

/-- PATROL_SCRUB: a line is read. What a scrub finds is a soft error of its own; the read changes nothing a program or the host
sees (26 R394). -/
def execPatrolScrub (_die _line : Nat) (s : State) : Outcome State Fault Refusal := .next s

/-! ### The power manager (27 R398) -/

/-- The clock of a half, and with 50 MHz less, not below 2,000. -/
def Power.clock (p : Power) (tensor : Bool) : Nat := if tensor then p.tensorClock else p.rasterClock
def Power.setClock (p : Power) (tensor : Bool) (c : Nat) : Power :=
  if tensor then { p with tensorClock := c } else { p with rasterClock := c }

/-- One step down: the larger consumer's clocks first, then the other half's, then idle cycles. -/
def Power.stepDown (p : Power) (tensorW rasterW : Nat) : Power :=
  let first := decide (rasterW ≤ tensorW)
  let half := if p.clock first = 2000 then !first else first
  if 2000 < p.clock half then
    { p.setClock half (max 2000 (p.clock half - 50)) with steps := .clock half :: p.steps }
  else if p.idle < 16 then { p with idle := p.idle + 1, steps := .idle :: p.steps }
  else p

/-- Undo the last step taken. -/
def Power.undo (p : Power) : Power :=
  match p.steps with
  | [] => p
  | .clock h :: rest => { p.setClock h (p.clock h + 50) with steps := rest }
  | .idle :: rest => { p with idle := p.idle - 1, steps := rest }

/-- POWER_MANAGER_WINDOW: the power measured over a window, in watts. -/
def execPowerManagerWindow (total tensor raster : Nat) (s : State) : Outcome State Fault Refusal :=
  .next (if s.boot != .running then s
    else if s.power.plim < total then { s with power := s.power.stepDown tensor raster }
    else if 20 * total < 19 * s.power.plim then { s with power := s.power.undo }
    else s)

/-! ### Rails (27 R397, R399) -/

/-- Contexts whose running state a predicate on cores and tiles finds. -/
def State.ctxsOn (s : State) (core tile : Nat → Bool) : List Nat :=
  ((s.crews.filterMap (fun e => match e.2.core with
      | some k => if !e.2.ended && core k then some (s.launchCtx e.2.launch) else none
      | none => none)) ++
    (s.tiles.filterMap (fun e => match e.2.stream with
      | some st => if !st.saved && tile e.1 then some (s.launchCtx st.launch) else none
      | none => none))).eraseDups

/-- End contexts whose state cannot be read any more (14 R245). -/
def State.loseContexts (s : State) (cs : List Nat) : State :=
  cs.eraseDups.foldl (fun (t : State) c => if (t.ctx c).live then t.endContext c (BitVec.ofNat 8 causeStateLost) 0 else t) s

/-- Contexts with copies on a skidder that a predicate finds. -/
def State.ctxsCopying (s : State) (f : Nat → Bool) : List Nat := (s.copies.filter (fun e => f e.2.skidder)).map (fun e => e.2.ctx)

/-- Contexts with work in the front end of a die. -/
def State.ctxsFront (s : State) (d : Nat) : List Nat :=
  match Tbl.find? s.frontEnds d with
  | none => []
  | some f => (f.meshes.map (fun m => s.launchCtx m.launch)) ++ (f.pixels.map (fun p => s.launchCtx p.launch))

/-- Every port that is up goes down. -/
def State.portsDown (s : State) : State :=
  (List.range 12).foldl (fun (t : State) p => if (t.port p).up then t.portDown p else t) s

/-- What an island's reset loses: the state of what runs on it ends the contexts that need it (14 R245; log 58). Islands are
numbered as in 27 R397: eight for each raster die, twelve for each tensor die, four of H. -/
def State.loseIsland (s : State) (n : Nat) : State :=
  if n < 24 then
    let d := n / 8
    if n % 8 = 6 then
      let s1 := s.loseContexts (s.ctxsFront d)
      match Tbl.find? s1.channels d with
      | some c => s1.desync d c
      | none => s1
    else
      let s1 := s.loseContexts (s.ctxsOn (fun k => coreIsland k == n) (fun _ => false))
      ((List.range Config.cores).filter (fun k => coreIsland k == n)).foldl (fun (t : State) k =>
        t.setCore k { CoreState.idle with arb := (t.core k).arb, nextSeq := (t.core k).nextSeq }) s1
  else if n < 60 then
    let d := 3 + (n - 24) / 12
    if (n - 24) % 12 = 10 then s.loseContexts (s.ctxsCopying (fun k => k / 4 == d))
    else
      let s1 := s.loseContexts (s.ctxsOn (fun _ => false) (fun t => tileIsland t == n))
      ((List.range Config.tiles).filter (fun t => tileIsland t == n)).foldl State.resetTile s1
  else if n = 61 then s.loseContexts (s.ctxsCopying (fun k => decide (24 ≤ k)))
  else if n = 63 then s.portsDown
  else s

/-- A die whose always-on rail is lost is off; contexts that run there, or whose pages its stacks back, end. -/
def State.loseDie (s : State) (d : Nat) : State :=
  let here := s.ctxsOn (fun k => k / 48 == d) (fun t => 3 + t / 96 == d)
  let pages := (s.ctxs.filter (fun e => e.2.live && s.backedOn d e.1)).map Prod.fst
  let s1 := (s.loseContexts (here ++ pages ++ s.ctxsFront d ++ s.ctxsCopying (fun k => k / 4 == d))).resetDie d .off
  match s1.command with
  | .dieReset e _ => if e = d then s1.finishCommand 1 else s1
  | _ => s1

/-- RAIL_OUT_OF_RANGE: the islands a rail feeds are held in reset while it is out of range; an always-on rail's loss is the die's
power-off, and H's takes the package. -/
def execRailOutOfRange (rail : Rail) (s : State) : Outcome State Fault Refusal :=
  if s.power.badRails.contains rail then .next s
  else
    let s1 := { s with power := { s.power with badRails := s.power.badRails ++ [rail] } }
    .next (if s.boot == .off then s1
      else match rail with
        | .vcore n => s1.loseIsland n
        | .vaon d => if d = 6 then s1.powerDown s1.flash else if d < 6 then s1.loseDie d else s1
        | .vio _ => s1.portsDown
        | _ => s1)

/-- RAIL_IN_RANGE: the islands the rail feeds leave reset. -/
def execRailInRange (rail : Rail) (s : State) : Outcome State Fault Refusal :=
  let s1 := { s with power := { s.power with badRails := s.power.badRails.filter (fun r => r != rail) } }
  .next (match rail with
    | .vaon d => if s.power.badRails.contains rail && s.boot == .running && decide (d < 6) then
        { s1 with dies := Tbl.insert s1.dies d .running }
      else s1
    | _ => s1)

/-! ### The test port (27 R400) -/

/-- BYPASS. -/
def execBypass (s : State) : Outcome State Fault Refusal := .next { s with tap := .bypass, tapData := 0 }

/-- IDCODE. -/
def execIdcode (s : State) : Outcome State Fault Refusal := .next { s with tap := .idcode, tapData := Config.idcode.setWidth 64 }

/-- SAMPLE/PRELOAD: the boundary cells are sampled; what they hold is the pins'. -/
def execSamplePreload (s : State) : Outcome State Fault Refusal :=
  .next { s with tap := .sample, tapData := Config.boundaryCells s.freeCtr, freeCtr := s.freeCtr + 1 }

/-- The compute islands of a die: cores and the front end of a raster die, tiles and the stream island of a tensor die (23 R363). -/
def computeIslands (d : Nat) : List Nat :=
  if d < 3 then (List.range 7).map (fun i => 8 * d + i) else (10 :: List.range 8).map (fun i => 24 + 12 * (d - 3) + i)

/-- Every compute island is held in reset, by its die's reset or by a rail (27 R399). -/
def State.allHeld (s : State) : Bool :=
  s.boot != .running || (List.range 6).all (fun d => s.die d == .inReset || s.die d == .off ||
    (computeIslands d).all (fun n => !s.railsGood d n))

/-- EXTEST: refused, and BYPASS instead, unless every compute island is held in reset. -/
def execExtest (s : State) : Outcome State Fault Refusal :=
  .next (if s.allHeld then { s with tap := .extest, tapData := Config.boundaryCells s.freeCtr, freeCtr := s.freeCtr + 1 }
    else { s with tap := .bypass, tapData := 0 })

/-! ### The discipline of time (25 R386) -/

/-- The PTP role of a port in the record: 0 passive, 1 master, 2 slave. -/
def State.ptpRole (s : State) (p : Nat) : Nat :=
  match s.usedRecord with
  | some r => ((r.ptpRoles.find? (fun e => e.1 == p)).map Prod.snd).getD 0
  | none => 0

/-- PTP_MESSAGE: on a slave port the offset estimate is updated and the rate slews, which the model's time does not show (log 16);
a lock that is gained is posted. -/
def execPtpMessage (port : Nat) (_slew : Int) (offset : Int) (lock : Bool) (s : State) : Outcome State Fault Refusal :=
  .next (if s.boot == .running && s.ptpRole port == 2 then
      let w : Word := BitVec.ofInt 32 offset
      let s1 := { s with tstatOffset := w }
      if lock && !s.tstatLock then { s1 with tstatLock := true }.postGlobal 0x11 [w.setWidth 64] else s1
    else s)

/-- TIME_LOCK_LOST: LOCK is cleared and the event posted. -/
def execTimeLockLost (s : State) : Outcome State Fault Refusal :=
  .next (if s.tstatLock then { s with tstatLock := false }.postGlobal 0x11 [s.tstatOffset.setWidth 64] else s)

end Sys2Proof.Machine
end

