-- ==== Sys2Proof/Machine/Texture.lean ====
section
/-! DEFINITION. Texture instructions (09 R192, 11 R210-R213), image access (09 R193) and quad operations (09 R198). -/

namespace Sys2Proof.Machine

open Host (Outcome)
open Sys2Proof (Guard)

/-! ### Bindings (11 R210) -/

/-- A binding: its descriptor and its sampler. -/
structure Binding where
  base : Dword
  fmt : Nat
  channels : Nat
  dim : Nat
  levels : Nat
  depth : Nat
  height : Nat
  width : Nat
  gcomp : Nat
  nomip : Bool
  mip : Bool
  min : Bool
  mag : Bool
  modes : List Nat
  bias : Nat
  maxl : Nat
  minl : Nat
deriving DecidableEq, Repr

/-- A dword of a record read as words. -/
def wordPair (ws : List Nat) (k : Nat) : Nat := ws.getD (2 * k) 0 + 2 ^ 32 * ws.getD (2 * k + 1) 0

/-- Integer and raw formats, whose texels are not filtered. -/
def fmtUnfiltered (fmt : Nat) : Bool := fmt == 0 || codeIsInt fmt

/-- The binding that 16 words hold; none where a field breaks its rules. -/
def bindingOf (ws : List Nat) : Option Binding :=
  let d1 := wordPair ws 1
  let p0 := wordPair ws 4
  let f (x lo n : Nat) : Nat := x / 2 ^ lo % 2 ^ n
  let b : Binding :=
    { base := BitVec.ofNat 64 (wordPair ws 0), fmt := f d1 57 5, channels := f d1 55 2 + 1, dim := f d1 52 3,
      levels := f d1 48 4 + 1, depth := f d1 32 16 + 1, height := f d1 16 16 + 1, width := f d1 0 16 + 1,
      gcomp := f p0 13 2, nomip := p0.testBit 12, mip := p0.testBit 11, min := p0.testBit 10, mag := p0.testBit 9,
      modes := [f p0 0 3, f p0 3 3, f p0 6 3], bias := f (wordPair ws 5) 0 32, maxl := f (wordPair ws 6) 32 32,
      minl := f (wordPair ws 6) 0 32 }
  let ok := decide (d1 < 2 ^ 62) && wordPair ws 2 == 0 && wordPair ws 3 == 0 && decide (p0 < 2 ^ 15)
    && decide (wordPair ws 5 < 2 ^ 32) && wordPair ws 7 == 0 && decide (b.dim ≤ 4) && codeValid b.fmt
    && (b.dim != 3 || b.depth == 6) && b.modes.all (fun m => decide (m ≤ 3))
    && (!fmtUnfiltered b.fmt || !(b.mip || b.min || b.mag))
    && (codeWidth b.fmt == 6 || b.base.toNat % elemUnit (codeWidth b.fmt) == 0)
  if ok then some b else none

/-- The numbers of coordinates and of spatial coordinates (09 R192). -/
def Binding.coords (b : Binding) : Nat := match b.dim with | 0 => 1 | 1 => 2 | _ => 3
def Binding.spatial (b : Binding) : Nat := match b.dim with | 0 => 1 | 1 => 2 | 4 => 2 | _ => 3

/-- Sizes of level l (11 R211). -/
def Binding.levelW (b : Binding) (l : Nat) : Nat := Nat.max 1 (b.width / 2 ^ l)
def Binding.levelH (b : Binding) (l : Nat) : Nat := Nat.max 1 (b.height / 2 ^ l)
def Binding.levelD (b : Binding) (l : Nat) : Nat := if b.dim = 2 then Nat.max 1 (b.depth / 2 ^ l) else b.depth

/-- The first element of level l. -/
def Binding.levelStart (b : Binding) (l : Nat) : Nat :=
  ((List.range l).map (fun j => roundUp (b.levelW j * b.levelH j * b.levelD j * b.channels) 64)).sum

/-- BASE is the start of an element (11 R210): of 6-bit elements, which pages do not hold whole numbers of triples of, by the size of
its page where one is resident. -/
def State.baseStarts (s : State) (b : Binding) : Bool :=
  match s.walk s.cur.ctx b.base.toNat with
  | .page p => b.base.toNat % p.size % elemUnit (codeWidth b.fmt) == 0
  | _ => true

/-- Read the binding at an address; the Bool says that it lay in uncorrectable memory (09 R192). -/
def State.readBinding (s : State) (i : Nat) (addr : Dword) : Eff (Binding × Bool × State) :=
  match s.unitRead i addr 64 1 with
  | .error e => .error e
  | .ok (ws, bad, t) =>
    match bindingOf ws with
    | some b => if t.baseStarts b then .ok (b, bad, t) else trapWith causeBadDescriptor addr
    | none => trapWith causeBadDescriptor addr

/-! ### Texels (11 R211) -/

/-- n bytes through the read-only path, little-endian. -/
def State.roBytes (s : State) (p : PageInfo) (i pa n : Nat) : Nat × State :=
  let first := pa / 4 * 4
  let r := s.roWords p i first ((pa + n - 1) / 4 - pa / 4 + 1)
  (r.1.foldr (fun w acc => w + 2 ^ 32 * acc) 0 / 2 ^ (8 * (pa - first)) % 2 ^ (8 * n), r.2)

/-- The page whose bytes the scales of a page are: its own, or its companion frame. -/
def PageInfo.scalePage (p : PageInfo) : PageInfo := if p.csc then { p with base := p.cfn * 65536, size := 2 ^ 25 } else p

/-- The element of a located access, read through the read-only path and delivered as by LDX. -/
def State.roElement (s : State) (i : Nat) (x : ElemAt) : Nat × State :=
  let r := s.roBytes x.page i x.pa (elemBytes x.page.fmt x.e)
  let q := if codeScaled x.page.fmt then r.2.roBytes x.page.scalePage i (x.page.scaleAt x.e) 1 else (127, r.2)
  ((ldxValue x.page.fmt (s.bookOf i) (s.fzOf i) q.1 (elemOf x.page.fmt x.e r.1)).1, q.2)

/-- Element e of a texture: counted from BASE's own element, in the page its index falls in, whose attribute must be FMT. -/
def State.texElement (s : State) (i : Nat) (b : Binding) (e : Nat) : Eff (Nat × Bool × State) :=
  if b.base.extractLsb' 60 4 != 0 then trapWith causeBadAddress b.base
  else
    match s.pageFor s.cur.ctx b.base false with
    | .error x => .error x
    | .ok (p, t) =>
      let w := codeWidth b.fmt
      let rel := b.base.toNat % p.size
      let n := pageElems p.size p.fmt p.geo p.csc
      if !codeValid p.fmt then trapWith causeBadFormat b.base
      else if p.fmt ≠ b.fmt ∨ rel % elemUnit w ≠ 0 then trapWith causeBadDescriptor b.base
      else
        let k := rel * 8 / w + e
        let page := b.base - BitVec.ofNat 64 rel + BitVec.ofNat 64 (k / n * p.size)
        match (if k < n then .ok (p, t) else t.pageFor t.cur.ctx page false) with
        | .error x => .error x
        | .ok (q, u) =>
          if !codeValid q.fmt then trapWith causeBadFormat page
          else if q.fmt ≠ b.fmt then trapWith causeBadDescriptor b.base
          else match u.elemIn q page ((k % n : Nat) : Int) with
            | .error x => .error x
            | .ok x =>
              let r := u.roElement i x
              .ok (r.1, u.elemMarked x, r.2)

/-- Words that stand for missing channels. -/
def Binding.missing (b : Binding) (c : Nat) : Nat :=
  if c = 3 then (if fmtUnfiltered b.fmt then 1 else 0x3F800000) else 0

/-- The channels of a texel inside its level, from channel c on. -/
def State.texelFrom (s : State) (i : Nat) (b : Binding) (e : Nat) (c : Nat) : Nat → Eff (List Nat × Bool × State)
  | 0 => .ok ([], false, s)
  | n + 1 =>
    match (if c < b.channels then s.texElement i b (e + c) else .ok (b.missing c, false, s)) with
    | .error x => .error x
    | .ok (v, bad, t) =>
      match t.texelFrom i b e (c + 1) n with
      | .error x => .error x
      | .ok (vs, bad2, u) => .ok (v :: vs, bad || bad2, u)

/-- An index resolved on an axis of size n; none is the border. -/
def resolveIndex (mode : Nat) (n : Nat) (i : Int) : Option Nat :=
  match mode with
  | 0 => some (i % (n : Int)).toNat
  | 1 =>
    let m := (i % (2 * n : Int)).toNat
    some (if m < n then m else 2 * n - 1 - m)
  | 2 => some (clampInt 0 ((n : Int) - 1) i).toNat
  | _ => if 0 ≤ i ∧ i < (n : Int) then some i.toNat else none

/-- The four channels at resolved indices of a level, zero outside it. -/
def State.texel (s : State) (i : Nat) (b : Binding) (l : Nat) (at3 : Option Nat × Option Nat × Option Nat) :
    Eff (List Nat × Bool × State) :=
  match at3 with
  | (some x, some y, some z) =>
    s.texelFrom i b (b.levelStart l + ((z * b.levelH l + y) * b.levelW l + x) * b.channels) 0 4
  | _ => .ok ([0, 0, 0, 0], false, s)

/-! ### Coordinates (11 R211, R213) -/

/-- u times a size times 256, to the nearest integer, saturated; a NaN gives 0. -/
def texU (u : FVal) (n : Nat) : Int :=
  match u with
  | .nan => 0
  | .inf neg => if neg then -(2 ^ 31) else 2 ^ 31 - 1
  | .fin neg m e => clampInt (-(2 ^ 31)) (2 ^ 31 - 1) (roundInt .rne neg (m * n * 256) e).1

/-- (sc / |ma| + 1) / 2 to FP32. -/
def cubeHalf (fz : Bool) (sc ma : FVal) : FVal :=
  match sc, ma with
  | .fin .., .fin _ m _ => if m = 0 then .nan else fmtFP32.decode (roundRat fz ((sc.rat / ma.abs.rat + 1) / 2))
  | .fin .., .inf _ => fmtFP32.decode 0x3F000000
  | .inf n, .fin .. => .inf n
  | _, _ => .nan

/-- The face of three coordinates: that of the largest magnitude, x before y before z. -/
def cubeFace (x y z : FVal) : Nat :=
  if fle y.abs x.abs && fle z.abs x.abs then (if x.isNeg then 1 else 0)
  else if fle z.abs y.abs then (if y.isNeg then 3 else 2)
  else if z.isNeg then 5 else 4

/-- u and v on a face. -/
def cubeCoords (fz : Bool) (face : Nat) (x y z : FVal) : FVal × FVal :=
  match face with
  | 0 => (cubeHalf fz z.neg x, cubeHalf fz y.neg x)
  | 1 => (cubeHalf fz z x, cubeHalf fz y.neg x)
  | 2 => (cubeHalf fz x y, cubeHalf fz z y)
  | 3 => (cubeHalf fz x y, cubeHalf fz z.neg y)
  | 4 => (cubeHalf fz x z, cubeHalf fz y.neg z)
  | _ => (cubeHalf fz x.neg z, cubeHalf fz y.neg z)

/-- Where a sample falls: its filtered coordinates, its address modes, and the layer or face. -/
structure SampleAt where
  uvw : List FVal
  modes : List Nat
  layer : Option Nat
deriving DecidableEq, Repr

/-- Coordinates of a sample. A cube coordinate with a NaN names no face: the face is free (DESIGN CHOICE, log 44). -/
def Binding.sampleAt (b : Binding) (fz : Bool) (cs : List Nat) : SampleAt :=
  let v (k : Nat) : FVal := unitIn fz (cs.getD k 0)
  match b.dim with
  | 3 =>
    let bad := (v 0).isNan || (v 1).isNan || (v 2).isNan
    let face := if bad then Config.cubeFace (cs.take 3) % 6 else cubeFace (v 0) (v 1) (v 2)
    let uv := cubeCoords fz face (v 0) (v 1) (v 2)
    ⟨[uv.1, uv.2], [2, 2], some face⟩
  | 4 =>
    let l := (floatToInt .rne true 32 (v 2)).1
    ⟨[v 0, v 1], b.modes.take 2, some (clampInt 0 ((b.depth : Int) - 1) l).toNat⟩
  | n => ⟨(List.range (n + 1)).map v, b.modes.take (n + 1), none⟩

/-- Size of a level along axis k. -/
def Binding.levelSize (b : Binding) (l k : Nat) : Nat :=
  match k with
  | 0 => b.levelW l
  | 1 => b.levelH l
  | _ => b.levelD l

/-- The taps of one axis: resolved index and weight of 256. -/
def axisTaps (linear : Bool) (mode n : Nat) (u : FVal) : List (Option Nat × Nat) :=
  let x := texU u n
  if linear then
    let y := x - 128
    let i0 := y / 256
    let alpha := (y % 256).toNat
    [(resolveIndex mode n i0, 256 - alpha), (resolveIndex mode n (i0 + 1), alpha)]
  else [(resolveIndex mode n (x / 256), 256)]

/-- The taps of a level: three resolved indices, and a weight of 2^24. -/
def levelTaps (b : Binding) (linear : Bool) (l : Nat) (p : SampleAt) : List ((Option Nat × Option Nat × Option Nat) × Nat) :=
  let taps (k : Nat) : List (Option Nat × Nat) :=
    match p.uvw[k]? with
    | some u => axisTaps linear (p.modes.getD k 0) (b.levelSize l k) u
    | none => [(some (if k = 2 then p.layer.getD 0 else 0), 256)]
  (taps 0).flatMap (fun x => (taps 1).flatMap (fun y => (taps 2).map (fun z => ((x.1, y.1, z.1), x.2 * y.2 * z.2))))

/-! ### Level of detail (11 R212) -/

/-- The sum of the squares of derivatives times sizes, rounded. -/
def rhoSquared (fz : Bool) (b : Binding) (ds : List Nat) : FVal :=
  let size (k : Nat) : Nat := if b.dim = 3 then b.width else b.levelSize 0 k
  let term (e : Nat × Nat) : FVal :=
    let x := fprod (unitIn fz e.1) (FVal.ofInt (size e.2))
    fprod x x
  fmtFP32.decode (fround fmtFP32 .rne fz (fsum (ds.zipIdx.map term))).1

/-- The level from derivatives along x and along y, with the bias. -/
def lambdaOf (fz : Bool) (b : Binding) (dx dy : List Nat) : FVal :=
  let x := rhoSquared fz b dx
  let y := rhoSquared fz b dy
  if x.isNan || y.isNan then .nan
  else
    let lg := fmtFP32.decode (fLog2 fz (fround fmtFP32 .rne fz (fmax2 x y)).1).1
    let half := fmtFP32.decode (fround fmtFP32 .rne fz (fprod lg (.fin false 1 (-1)))).1
    fmtFP32.decode (fround fmtFP32 .rne fz (fsum [half, unitIn fz b.bias])).1

/-- The clamped level times 256, to an integer. -/
def lambdaFixed (fz : Bool) (b : Binding) (x : FVal) : Nat :=
  if x.isNan || b.nomip then 0
  else
    let y := fmin2 (fmax2 x (unitIn fz b.minl)) (unitIn fz b.maxl)
    match fmin2 (fmax2 y (.fin false 0 0)) (FVal.ofInt ((b.levels : Int) - 1)) with
    | .fin false m e => (roundInt .rne false (m * 256) e).1.toNat
    | _ => 0

/-- The taps of a sample over its levels: level, indices, and a weight of 2^32. -/
def sampleTaps (b : Binding) (lam : Nat) (p : SampleAt) : List (Nat × (Option Nat × Option Nat × Option Nat) × Nat) :=
  let level (linear : Bool) (l w : Nat) := (levelTaps b linear l p).map (fun e => (l, e.1, e.2 * w))
  if lam = 0 then level b.mag 0 256
  else if b.mip then
    level b.min (lam / 256) (256 - lam % 256) ++ level b.min (Nat.min (lam / 256 + 1) (b.levels - 1)) (lam % 256)
  else level b.min ((lam + 128) / 256) 256

/-! ### Filtering (11 R213) -/

/-- Read the taps with weight: the texels with their weights, whether one was uncorrectable, and the state after. -/
def State.readTaps (s : State) (i : Nat) (b : Binding) :
    List (Nat × (Option Nat × Option Nat × Option Nat) × Nat) → Eff (List (List Nat × Nat) × Bool × State)
  | [] => .ok ([], false, s)
  | (l, at3, w) :: rest =>
    if w = 0 then s.readTaps i b rest
    else
      match s.texel i b l at3 with
      | .error e => .error e
      | .ok (vs, bad, t) =>
        match t.readTaps i b rest with
        | .error e => .error e
        | .ok (more, bad2, u) => .ok ((vs, w) :: more, bad || bad2, u)

/-- One channel of the weighted sum. -/
def filterChannel (fz : Bool) (taps : List (List Nat × Nat)) (c : Nat) : Nat :=
  (fround fmtFP32 .rne fz (fsum (taps.map (fun e => fprod (unitIn fz (e.1.getD c 0)) (.fin false e.2 (-32)))))).1

/-- The result of a sample: the texel itself where its format is not filtered. -/
def filterTaps (fz : Bool) (b : Binding) (taps : List (List Nat × Nat)) : List Nat :=
  if fmtUnfiltered b.fmt then (taps.headD ([0, 0, 0, 0], 0)).1 else (List.range 4).map (filterChannel fz taps)

/-- Sample at a level: what TEX.SAMPLE, TEX.LOD and TEX.GRAD write. -/
def State.sample (s : State) (d : BitVec 6) (i : Nat) (addr : Dword) (b : Binding) (lam : FVal) (cs : List Nat) : Eff State :=
  let fz := s.fzOf i
  match s.readTaps i b (sampleTaps b (lambdaFixed fz b lam) (b.sampleAt fz cs)) with
  | .error e => .error e
  | .ok (taps, bad, t) => .ok (t.unitResult i addr bad d.toNat (filterTaps fz b taps))

/-- Read the binding at s(b), check that n(binding) operand registers stand, and go on with their words unless one is
poisoned. -/
def withBinding (d a b : BitVec 6) (n : Binding → Nat) (f : Dword → Binding → List Nat → State → Eff State) (i : Nat) (s : State) :
    Eff State :=
  match s.useS (strandBundle i) b with
  | .error e => .error e
  | .ok addr =>
    match s.readBinding i addr with
    | .error e => .error e
    | .ok (x, bad, t) =>
      if 64 < a.toNat + n x then trapWith causeBadDescriptor addr
      else match t.blockPoison i a.toNat (n x) with
        | some k => .ok (t.poisonBlock i d.toNat 4 k)
        | none => if bad then .ok (t.unitResult i addr true d.toNat [0, 0, 0, 0]) else f addr x (t.blockWords i a.toNat (n x)) t

/-! ### Quads (09 R198) -/

/-- v(a) of position p of a strand's quad; +0 where no strand is live there. -/
def State.quadV (s : State) (i : Nat) (a : Nat) (p : Nat) : Tagged 32 :=
  let j := i / 4 * 4 + p
  match Tbl.find? s.strands j with
  | some x => if x.live then s.getV j a else .zero 32
  | none => .zero 32

/-- The pair of positions that derivative k subtracts at a position: the first is taken from the second. -/
def quadPair (k pos : Nat) : Nat × Nat :=
  match k with
  | 0 => (0, 1)
  | 1 => (0, 2)
  | 2 => (pos / 2 * 2, pos / 2 * 2 + 1)
  | _ => (pos % 2, pos % 2 + 2)

/-- Derivative k of v(a) at a strand: poisoned where either value is. -/
def State.quadDeriv (s : State) (i a k : Nat) : Option (BitVec 3) × Nat × FFlags :=
  let pr := quadPair k (i % 4)
  let x := s.quadV i a pr.1
  let y := s.quadV i a pr.2
  let f := fsource fmtFP32 (s.fzOf i)
  let r := fresult fmtFP32 (s.modeOf i) (s.fzOf i) (FVal.add (s.modeOf i) (f y.val.toNat) (f x.val.toNat).neg)
  (y.poison.or x.poison, r.1, r.2)

/-- QUAD.SWZ of one strand, values as they stood in s. -/
def quadSwzStrand (s : State) (d a : BitVec 6) (imm : BitVec 32) (i : Nat) (t : State) : State :=
  t.setV i d.toNat (s.quadV i a.toNat (imm.toNat / 4 ^ (i % 4) % 4))

def execQuadSwz (g : Guard) (d a : BitVec 6) (imm : BitVec 32) (s : State) : Outcome State Fault Refusal :=
  .next (eachStrand g s (quadSwzStrand s d a imm))

def quadDerivStrand (s : State) (d a : BitVec 6) (k : Nat) (i : Nat) (t : State) : State :=
  let r := s.quadDeriv i a.toNat k
  t.setFloat i d r.1 r.2

def execQuadDeriv (g : Guard) (d a : BitVec 6) (imm : BitVec 32) (s : State) : Outcome State Fault Refusal :=
  .next (eachStrand g s (quadDerivStrand s d a imm.toNat))

/-! ### Texture instructions (09 R192) -/

/-- Derivatives of n coordinates from v(a), as QUAD.DERIV k gives them in state s. -/
def State.coordDerivs (s : State) (i a n k : Nat) : List (Option (BitVec 3) × Nat) :=
  (List.range n).map (fun j => let r := s.quadDeriv i (a + j) k; (r.1, r.2.1))

/-- TEX.SAMPLE of one strand; coordinates of its quad as they stood in s. -/
def texSampleStrand (s : State) (d a b : BitVec 6) (i : Nat) (t : State) : Eff State :=
  withBinding d a b Binding.coords (fun addr x cs u =>
    let dx := s.coordDerivs i a.toNat x.spatial 2
    let dy := s.coordDerivs i a.toNat x.spatial 3
    match (dx ++ dy).findSome? Prod.fst with
    | some k => .ok (u.poisonBlock i d.toNat 4 k)
    | none => u.sample d i addr x (lambdaOf (u.fzOf i) x (dx.map Prod.snd) (dy.map Prod.snd)) cs) i t

def execTexSample (g : Guard) (d a b : BitVec 6) (s : State) : Outcome State Fault Refusal :=
  concludeAccess false s (forStrands g s (texSampleStrand s d a b))

def texLodStrand (d a b : BitVec 6) : Nat → State → Eff State := fun i =>
  withBinding d a b (fun x => x.coords + 1) (fun addr x ws u =>
    u.sample d i addr x (unitIn (u.fzOf i) (ws.getD x.coords 0)) (ws.take x.coords)) i

def execTexLod (g : Guard) (d a b : BitVec 6) (s : State) : Outcome State Fault Refusal :=
  concludeAccess false s (forStrands g s (texLodStrand d a b))

def texGradStrand (d a b : BitVec 6) : Nat → State → Eff State := fun i =>
  withBinding d a b (fun x => x.coords + 2 * x.spatial) (fun addr x ws u =>
    let ds := ws.drop x.coords
    u.sample d i addr x (lambdaOf (u.fzOf i) x (ds.take x.spatial) (ds.drop x.spatial)) (ws.take x.coords)) i

def execTexGrad (g : Guard) (d a b : BitVec 6) (s : State) : Outcome State Fault Refusal :=
  concludeAccess false s (forStrands g s (texGradStrand d a b))

/-- The integer coordinate of axis k, inside its level or outside. -/
def fetchIndex (x : Binding) (l : Nat) (ws : List Nat) (k : Nat) : Option Nat :=
  if k < x.coords then
    let i := ws.getD k 0
    if i < x.levelSize l k then some i else none
  else some 0

def texFetchStrand (d a b : BitVec 6) : Nat → State → Eff State := fun i =>
  withBinding d a b (fun x => x.coords + 1) (fun addr x ws u =>
    let l := ws.getD x.coords 0
    if x.levels ≤ l then .ok (u.putBlock i d.toNat [0, 0, 0, 0])
    else match u.texel i x l (fetchIndex x l ws 0, fetchIndex x l ws 1, fetchIndex x l ws 2) with
      | .error e => .error e
      | .ok (vs, bad, t) => .ok (t.unitResult i addr bad d.toNat vs)) i

def execTexFetch (g : Guard) (d a b : BitVec 6) (s : State) : Outcome State Fault Refusal :=
  concludeAccess false s (forStrands g s (texFetchStrand d a b))

/-- The four texels of the bilinear footprint, in the order TEX.GATHER4 returns them. -/
def gatherTaps (x : Binding) (p : SampleAt) : List (Nat × (Option Nat × Option Nat × Option Nat) × Nat) :=
  let tap (k : Nat) (far : Bool) : Option Nat :=
    ((axisTaps true (p.modes.getD k 0) (x.levelSize 0 k) (p.uvw.getD k .nan)).getD (if far then 1 else 0) (none, 0)).1
  let one (fx fy : Bool) := (0, (tap 0 fx, tap 1 fy, some (p.layer.getD 0)), 1)
  [one false true, one true true, one true false, one false false]

def texGatherStrand (d a b : BitVec 6) : Nat → State → Eff State := fun i =>
  withBinding d a b (fun x => if x.dim = 1 ∨ x.dim = 4 then x.coords else 65) (fun addr x ws u =>
      match u.readTaps i x (gatherTaps x (x.sampleAt (u.fzOf i) ws)) with
      | .error e => .error e
      | .ok (taps, bad, t) => .ok (t.unitResult i addr bad d.toNat (taps.map (fun e => e.1.getD x.gcomp 0)))) i

def execTexGather4 (g : Guard) (d a b : BitVec 6) (s : State) : Outcome State Fault Refusal :=
  concludeAccess false s (forStrands g s (texGatherStrand d a b))

/-- Field k of a descriptor. -/
def Binding.field (x : Binding) (k : Nat) : Nat :=
  match k with
  | 0 => x.width
  | 1 => x.height
  | 2 => x.depth
  | 3 => x.levels
  | _ => x.fmt

def texQueryStrand (d a : BitVec 6) (k : Nat) (i : Nat) (s : State) : Eff State :=
  match s.useS (strandBundle i) a with
  | .error e => .error e
  | .ok addr => match s.readBinding i addr with
    | .error e => .error e
    | .ok (x, bad, t) => .ok (t.unitResult i addr bad d.toNat [x.field k])

def execTexQuery (g : Guard) (d a : BitVec 6) (imm : BitVec 32) (s : State) : Outcome State Fault Refusal :=
  concludeAccess false s (forStrands g s (texQueryStrand d a imm.toNat))

/-! ### Images (09 R193) -/

/-- Locate the four elements of a texel: their range is checked before any tag is. -/
def State.imgElems (s : State) (base : Dword) (off : Int) (write : Bool) : Eff (List ElemAt × State) :=
  if base.extractLsb' 60 4 != 0 then trapWith causeBadAddress base
  else
    match s.pageFor s.cur.ctx base write with
    | .error e => .error e
    | .ok (p, s1) =>
      let w := codeWidth p.fmt
      let rel := base.toNat % p.size
      let e : Int := ((rel * 8 / w : Nat) : Int) + 4 * off
      let plain := codeValid p.fmt && rel % elemUnit w == 0 && p.fmt != 0x13 && p.fmt != 0x17
      if plain && (decide (e < 0) || decide ((pageElems p.size p.fmt p.geo p.csc : Int) ≤ e + 3)) then
        trapWith causeFormatRange (base + BitVec.ofInt 64 ((4 * off * w) / 8))
      else
        ((List.range 4).mapM (fun (k : Nat) => s1.elemIn p base (4 * off + (k : Int)))).map (fun xs => (xs, s1))

def imgLdStrand (d a : BitVec 6) (lb : Bool) (off : BitVec 31) (i : Nat) (s : State) : Eff State :=
  match s.laneBase i a lb with
  | .error e => .error e
  | .ok base => match s.imgElems base off.toInt false with
    | .error e => .error e
    | .ok (xs, t) => .ok (xs.zipIdx.foldl (fun (u : State) (e : ElemAt × Nat) =>
        let x := e.1
        let r := ldxValue x.page.fmt (u.bookOf i) (u.fzOf i) (u.scaleOf x) (u.codeAt x)
        let bad := u.elemMarked x
        let v := u.loaded (strandBundle i) (strandIndex i) base x.pa bad (BitVec.ofNat 32 r.1)
        ((v.2.setV i (d.toNat + e.2) v.1).raiseOf i (if bad then FFlags.none else r.2)).touchElem (strandBundle i) x) t)

def execImgLd (g : Guard) (d a : BitVec 6) (lb : Bool) (off : BitVec 31) (s : State) : Outcome State Fault Refusal :=
  concludeAccess true s (forStrands g s (imgLdStrand d a lb off))

def imgStStrand (d a : BitVec 6) (lb : Bool) (off : BitVec 31) (i : Nat) (s : State) : Eff State :=
  match s.laneBase i a lb with
  | .error e => .error e
  | .ok base => match s.blockPoison i d.toNat 4 with
    | some k => poisonTrap s causePoisonUse (strandBundle i) k
    | none => match s.imgElems base off.toInt true with
      | .error e => .error e
      | .ok (xs, t) => .ok (xs.zipIdx.foldl (fun (u : State) (e : ElemAt × Nat) =>
          let x := e.1
          let v := (u.getV i (d.toNat + e.2)).val.toNat
          let r := stxCode x.page.fmt (u.bookOf i) (u.modeOf i) (u.fzOf i) (acrOfs (u.acr (strandBundle i))) (u.scaleOf x) v
          let n := elemBytes x.page.fmt x.e
          ((u.storeMarked x.pa n (elemInto x.page.fmt x.e (u.readLE x.pa n) r.1)).raiseOf i r.2).touchElem (strandBundle i) x) t)

def execImgSt (g : Guard) (d a : BitVec 6) (lb : Bool) (off : BitVec 31) (s : State) : Outcome State Fault Refusal :=
  concludeAccess true s (forStrands g s (imgStStrand d a lb off))

end Sys2Proof.Machine
end

