-- ==== Sys2Proof/Machine/Dispatch.lean ====
section
/-! DEFINITION. The meaning of every instruction and event, one arm each. -/

namespace Sys2Proof.Machine

def exec (i : Instr) (s : State) : Host.Outcome State Fault Refusal :=
  match i with
  | .nop => Sys2Proof.Machine.execNop s
  | .bra off => Sys2Proof.Machine.execBra off s
  | .brac kind c n off => Sys2Proof.Machine.execBrac kind c n off s
  | .brx a m => Sys2Proof.Machine.execBrx a m s
  | .call off => Sys2Proof.Machine.execCall off s
  | .ret a => Sys2Proof.Machine.execRet a s
  | .loop a imm => Sys2Proof.Machine.execLoop a imm s
  | .loopi cnt imm => Sys2Proof.Machine.execLoopi cnt imm s
  | .voteAny d a m => Sys2Proof.Machine.execVoteAny d a m s
  | .voteAll d a => Sys2Proof.Machine.execVoteAll d a s
  | .barCrew imm => Sys2Proof.Machine.execBarCrew imm s
  | .barGrove imm => Sys2Proof.Machine.execBarGrove imm s
  | .barArrive d a imm => Sys2Proof.Machine.execBarArrive d a imm s
  | .barWait d a imm => Sys2Proof.Machine.execBarWait d a imm s
  | .wait imm => Sys2Proof.Machine.execWait imm s
  | .waitt a m => Sys2Proof.Machine.execWaitt a m s
  | .fence imm => Sys2Proof.Machine.execFence imm s
  | .fencePromote imm => Sys2Proof.Machine.execFencePromote imm s
  | .fenceI => Sys2Proof.Machine.execFenceI s
  | .trap imm => Sys2Proof.Machine.execTrap imm s
  | .chk d a => Sys2Proof.Machine.execChk d a s
  | .region off => Sys2Proof.Machine.execRegion off s
  | .exit => Sys2Proof.Machine.execExit s
  | .yield => Sys2Proof.Machine.execYield s
  | .lease d a imm => Sys2Proof.Machine.execLease d a imm s
  | .split d imm => Sys2Proof.Machine.execSplit d imm s
  | .launch d a => Sys2Proof.Machine.execLaunch d a s
  | .reca d a => Sys2Proof.Machine.execReca d a s
  | .remit a => Sys2Proof.Machine.execRemit a s
  | .rdone a => Sys2Proof.Machine.execRdone a s
  | .millCfg d a => Sys2Proof.Machine.execMillCfg d a s
  | .millEnter => Sys2Proof.Machine.execMillEnter s
  | .millExit d => Sys2Proof.Machine.execMillExit d s
  | .fsend d a => Sys2Proof.Machine.execFsend d a s
  | .fsendNb d a b => Sys2Proof.Machine.execFsendNb d a b s
  | .ftake d a => Sys2Proof.Machine.execFtake d a s
  | .sread reg sr => Sys2Proof.Machine.execSread reg sr s
  | .swrite reg sr => Sys2Proof.Machine.execSwrite reg sr s
  | .govq d a => Sys2Proof.Machine.execGovq d a s
  | .govr a m => Sys2Proof.Machine.execGovr a m s
  | .bkpt imm => Sys2Proof.Machine.execBkpt imm s
  | .add d a b => Sys2Proof.Machine.execAdd d a b s
  | .addi d a imm => Sys2Proof.Machine.execAddi d a imm s
  | .sub d a b => Sys2Proof.Machine.execSub d a b s
  | .mul d a b => Sys2Proof.Machine.execMul d a b s
  | .mulhI d a b => Sys2Proof.Machine.execMulhI d a b s
  | .mulhN d a b => Sys2Proof.Machine.execMulhN d a b s
  | .divI d a b => Sys2Proof.Machine.execDivI d a b s
  | .divN d a b => Sys2Proof.Machine.execDivN d a b s
  | .remI d a b => Sys2Proof.Machine.execRemI d a b s
  | .remN d a b => Sys2Proof.Machine.execRemN d a b s
  | .and d a b => Sys2Proof.Machine.execAnd d a b s
  | .or d a b => Sys2Proof.Machine.execOr d a b s
  | .xor d a b => Sys2Proof.Machine.execXor d a b s
  | .andi d a imm => Sys2Proof.Machine.execAndi d a imm s
  | .ori d a imm => Sys2Proof.Machine.execOri d a imm s
  | .xori d a imm => Sys2Proof.Machine.execXori d a imm s
  | .shl d a b => Sys2Proof.Machine.execShl d a b s
  | .shrI d a b => Sys2Proof.Machine.execShrI d a b s
  | .shrN d a b => Sys2Proof.Machine.execShrN d a b s
  | .rot d a b => Sys2Proof.Machine.execRot d a b s
  | .minI d a b => Sys2Proof.Machine.execMinI d a b s
  | .minN d a b => Sys2Proof.Machine.execMinN d a b s
  | .maxI d a b => Sys2Proof.Machine.execMaxI d a b s
  | .maxN d a b => Sys2Proof.Machine.execMaxN d a b s
  | .abs d a => Sys2Proof.Machine.execAbs d a s
  | .neg d a => Sys2Proof.Machine.execNeg d a s
  | .cmp d a b m => Sys2Proof.Machine.execCmp d a b m s
  | .cmpp cc tg a b => Sys2Proof.Machine.execCmpp cc tg a b s
  | .sel d a b => Sys2Proof.Machine.execSel d a b s
  | .mov d a => Sys2Proof.Machine.execMov d a s
  | .movi d imm => Sys2Proof.Machine.execMovi d imm s
  | .movh d a imm => Sys2Proof.Machine.execMovh d a imm s
  | .lea d a b m => Sys2Proof.Machine.execLea d a b m s
  | .popc d a => Sys2Proof.Machine.execPopc d a s
  | .clz d a => Sys2Proof.Machine.execClz d a s
  | .ctz d a => Sys2Proof.Machine.execCtz d a s
  | .bfxI d a b => Sys2Proof.Machine.execBfxI d a b s
  | .bfxN d a b => Sys2Proof.Machine.execBfxN d a b s
  | .bfi d a b => Sys2Proof.Machine.execBfi d a b s
  | .brev d a => Sys2Proof.Machine.execBrev d a s
  | .mad d a b => Sys2Proof.Machine.execMad d a b s
  | .addsI d a b => Sys2Proof.Machine.execAddsI d a b s
  | .addsN d a b => Sys2Proof.Machine.execAddsN d a b s
  | .subsI d a b => Sys2Proof.Machine.execSubsI d a b s
  | .subsN d a b => Sys2Proof.Machine.execSubsN d a b s
  | .mbx d a imm => Sys2Proof.Machine.execMbx d a imm s
  | .time d => Sys2Proof.Machine.execTime d s
  | .wid d imm => Sys2Proof.Machine.execWid d imm s
  | .iadd g d a b m => Sys2Proof.Machine.execIadd g d a b m s
  | .iaddi g d a imm => Sys2Proof.Machine.execIaddi g d a imm s
  | .isub g d a b m => Sys2Proof.Machine.execIsub g d a b m s
  | .imul g d a b => Sys2Proof.Machine.execImul g d a b s
  | .imad g d a b => Sys2Proof.Machine.execImad g d a b s
  | .imulhI g d a b => Sys2Proof.Machine.execImulhI g d a b s
  | .imulhN g d a b => Sys2Proof.Machine.execImulhN g d a b s
  | .iminI g d a b => Sys2Proof.Machine.execIminI g d a b s
  | .iminN g d a b => Sys2Proof.Machine.execIminN g d a b s
  | .imaxI g d a b => Sys2Proof.Machine.execImaxI g d a b s
  | .imaxN g d a b => Sys2Proof.Machine.execImaxN g d a b s
  | .iand g d a b => Sys2Proof.Machine.execIand g d a b s
  | .ior g d a b => Sys2Proof.Machine.execIor g d a b s
  | .ixor g d a b => Sys2Proof.Machine.execIxor g d a b s
  | .ishl g d a b => Sys2Proof.Machine.execIshl g d a b s
  | .ishrI g d a b => Sys2Proof.Machine.execIshrI g d a b s
  | .ishrN g d a b => Sys2Proof.Machine.execIshrN g d a b s
  | .ibfxI g d a b => Sys2Proof.Machine.execIbfxI g d a b s
  | .ibfxN g d a b => Sys2Proof.Machine.execIbfxN g d a b s
  | .ibfi g d a b => Sys2Proof.Machine.execIbfi g d a b s
  | .ipopc g d a => Sys2Proof.Machine.execIpopc g d a s
  | .iclz g d a => Sys2Proof.Machine.execIclz g d a s
  | .icmp g cc tg a b => Sys2Proof.Machine.execIcmp g cc tg a b s
  | .isel g d a b => Sys2Proof.Machine.execIsel g d a b s
  | .imov g d a => Sys2Proof.Machine.execImov g d a s
  | .imovi g d imm => Sys2Proof.Machine.execImovi g d imm s
  | .idot4I8 g d a b m => Sys2Proof.Machine.execIdot4I8 g d a b m s
  | .idot4N8 g d a b m => Sys2Proof.Machine.execIdot4N8 g d a b m s
  | .faddF32 g d a b => Sys2Proof.Machine.execFaddF32 g d a b s
  | .fmulF32 g d a b => Sys2Proof.Machine.execFmulF32 g d a b s
  | .ffmaF32 g d a b => Sys2Proof.Machine.execFfmaF32 g d a b s
  | .fminF32 g d a b m => Sys2Proof.Machine.execFminF32 g d a b m s
  | .fmaxF32 g d a b m => Sys2Proof.Machine.execFmaxF32 g d a b m s
  | .fcmpF32 g cc tg a b => Sys2Proof.Machine.execFcmpF32 g cc tg a b s
  | .frndF32 g d a b => Sys2Proof.Machine.execFrndF32 g d a b s
  | .frcp g d a => Sys2Proof.Machine.execFrcp g d a s
  | .frsq g d a => Sys2Proof.Machine.execFrsq g d a s
  | .fsqrt g d a => Sys2Proof.Machine.execFsqrt g d a s
  | .fexp2 g d a => Sys2Proof.Machine.execFexp2 g d a s
  | .flog2 g d a => Sys2Proof.Machine.execFlog2 g d a s
  | .fsin g d a => Sys2Proof.Machine.execFsin g d a s
  | .fcos g d a => Sys2Proof.Machine.execFcos g d a s
  | .faddH2 g d a b => Sys2Proof.Machine.execFaddH2 g d a b s
  | .fmulH2 g d a b => Sys2Proof.Machine.execFmulH2 g d a b s
  | .ffmaH2 g d a b => Sys2Proof.Machine.execFfmaH2 g d a b s
  | .faddB2 g d a b => Sys2Proof.Machine.execFaddB2 g d a b s
  | .fmulB2 g d a b => Sys2Proof.Machine.execFmulB2 g d a b s
  | .ffmaB2 g d a b => Sys2Proof.Machine.execFfmaB2 g d a b s
  | .cvtF32I32 g d a => Sys2Proof.Machine.execCvtF32I32 g d a s
  | .cvtF32N32 g d a => Sys2Proof.Machine.execCvtF32N32 g d a s
  | .cvtI32F32 g d a b => Sys2Proof.Machine.execCvtI32F32 g d a b s
  | .cvtN32F32 g d a b => Sys2Proof.Machine.execCvtN32F32 g d a b s
  | .cvtF32H2 g d a m => Sys2Proof.Machine.execCvtF32H2 g d a m s
  | .cvtH2F32 g d a b => Sys2Proof.Machine.execCvtH2F32 g d a b s
  | .cvtF32B2 g d a m => Sys2Proof.Machine.execCvtF32B2 g d a m s
  | .cvtB2F32 g d a b => Sys2Proof.Machine.execCvtB2F32 g d a b s
  | .cvtF32E4m3 g d a b => Sys2Proof.Machine.execCvtF32E4m3 g d a b s
  | .cvtE4m3F32 g d a b => Sys2Proof.Machine.execCvtE4m3F32 g d a b s
  | .cvtF32E5m2 g d a b => Sys2Proof.Machine.execCvtF32E5m2 g d a b s
  | .cvtE5m2F32 g d a b => Sys2Proof.Machine.execCvtE5m2F32 g d a b s
  | .shflIdx g d a b => Sys2Proof.Machine.execShflIdx g d a b s
  | .shflXor g d a b => Sys2Proof.Machine.execShflXor g d a b s
  | .s2v g d a m => Sys2Proof.Machine.execS2v g d a m s
  | .v2s g d a b m => Sys2Proof.Machine.execV2s g d a b m s
  | .ld8 g d a lb off => Sys2Proof.Machine.execLd8 g d a lb off s
  | .ld16 g d a lb off => Sys2Proof.Machine.execLd16 g d a lb off s
  | .ld32 g d a lb off => Sys2Proof.Machine.execLd32 g d a lb off s
  | .ld64 g d a lb off => Sys2Proof.Machine.execLd64 g d a lb off s
  | .ld128 g d a lb off => Sys2Proof.Machine.execLd128 g d a lb off s
  | .ldx g d a lb off => Sys2Proof.Machine.execLdx g d a lb off s
  | .ldro g d a lb off => Sys2Proof.Machine.execLdro g d a lb off s
  | .st8 g d a lb off => Sys2Proof.Machine.execSt8 g d a lb off s
  | .st16 g d a lb off => Sys2Proof.Machine.execSt16 g d a lb off s
  | .st32 g d a lb off => Sys2Proof.Machine.execSt32 g d a lb off s
  | .st64 g d a lb off => Sys2Proof.Machine.execSt64 g d a lb off s
  | .st128 g d a lb off => Sys2Proof.Machine.execSt128 g d a lb off s
  | .stx g d a lb off => Sys2Proof.Machine.execStx g d a lb off s
  | .lds g d a lb off => Sys2Proof.Machine.execLds g d a lb off s
  | .sts g d a lb off => Sys2Proof.Machine.execSts g d a lb off s
  | .atomAdd g d a b lb sc ord un off => Sys2Proof.Machine.execAtomAdd g d a b lb sc ord un off s
  | .atomMin g d a b lb sc ord un off => Sys2Proof.Machine.execAtomMin g d a b lb sc ord un off s
  | .atomMax g d a b lb sc ord un off => Sys2Proof.Machine.execAtomMax g d a b lb sc ord un off s
  | .atomAnd g d a b lb sc ord un off => Sys2Proof.Machine.execAtomAnd g d a b lb sc ord un off s
  | .atomOr g d a b lb sc ord un off => Sys2Proof.Machine.execAtomOr g d a b lb sc ord un off s
  | .atomXor g d a b lb sc ord un off => Sys2Proof.Machine.execAtomXor g d a b lb sc ord un off s
  | .atomXchg g d a b lb sc ord un off => Sys2Proof.Machine.execAtomXchg g d a b lb sc ord un off s
  | .atomCas g d a b lb sc ord un off => Sys2Proof.Machine.execAtomCas g d a b lb sc ord un off s
  | .atomFadd g d a b lb sc ord un off => Sys2Proof.Machine.execAtomFadd g d a b lb sc ord un off s
  | .atomsAdd g d a b lb sc ord un off => Sys2Proof.Machine.execAtomsAdd g d a b lb sc ord un off s
  | .atomsCas g d a b lb sc ord un off => Sys2Proof.Machine.execAtomsCas g d a b lb sc ord un off s
  | .probe g a b m => Sys2Proof.Machine.execProbe g a b m s
  | .ldq g d a lb off => Sys2Proof.Machine.execLdq g d a lb off s
  | .stq g d a lb off => Sys2Proof.Machine.execStq g d a lb off s
  | .lda g d a lb off => Sys2Proof.Machine.execLda g d a lb off s
  | .sta g d a lb off => Sys2Proof.Machine.execSta g d a lb off s
  | .cwb g a b m => Sys2Proof.Machine.execCwb g a b m s
  | .cinv g a b m => Sys2Proof.Machine.execCinv g a b m s
  | .icinv g a b m => Sys2Proof.Machine.execIcinv g a b m s
  | .invRo g => Sys2Proof.Machine.execInvRo g s
  | .tagset g a lb off => Sys2Proof.Machine.execTagset g a lb off s
  | .tagget g d a lb off => Sys2Proof.Machine.execTagget g d a lb off s
  | .pres g d a lb off => Sys2Proof.Machine.execPres g d a lb off s
  | .ldS g d a lb off => Sys2Proof.Machine.execLdS g d a lb off s
  | .atomInc g d a b lb sc ord un off => Sys2Proof.Machine.execAtomInc g d a b lb sc ord un off s
  | .mldb row2 col2 pr wide t => Sys2Proof.Machine.execMldb row2 col2 pr wide t s
  | .mmaBf16 row1 row2 col2 pr t => Sys2Proof.Machine.execMmaBf16 row1 row2 col2 pr t s
  | .mmaF16 row1 row2 col2 pr t => Sys2Proof.Machine.execMmaF16 row1 row2 col2 pr t s
  | .mmaE4m3 row1 row2 col2 pr t => Sys2Proof.Machine.execMmaE4m3 row1 row2 col2 pr t s
  | .mmaE5m2 row1 row2 col2 pr t => Sys2Proof.Machine.execMmaE5m2 row1 row2 col2 pr t s
  | .mmaMx8 row1 row2 col2 pr el t => Sys2Proof.Machine.execMmaMx8 row1 row2 col2 pr el t s
  | .mmaMx6 row1 row2 col2 pr el t => Sys2Proof.Machine.execMmaMx6 row1 row2 col2 pr el t s
  | .mmaMx4 row1 row2 col2 pr el t => Sys2Proof.Machine.execMmaMx4 row1 row2 col2 pr el t s
  | .mmaI8 row1 row2 col2 pr sat sa sb t => Sys2Proof.Machine.execMmaI8 row1 row2 col2 pr sat sa sb t s
  | .mmaI4 row1 row2 col2 pr sat sa sb t => Sys2Proof.Machine.execMmaI4 row1 row2 col2 pr sat sa sb t s
  | .mmasMx4 row1 row2 col2 pr el t => Sys2Proof.Machine.execMmasMx4 row1 row2 col2 pr el t s
  | .mmasMx8 row1 row2 col2 pr el t => Sys2Proof.Machine.execMmasMx8 row1 row2 col2 pr el t s
  | .mmvMx4 row1 col1 row2 col2 pr sl ec t => Sys2Proof.Machine.execMmvMx4 row1 col1 row2 col2 pr sl ec t s
  | .mmvMx8 row1 col1 row2 col2 pr sl ec t => Sys2Proof.Machine.execMmvMx8 row1 col1 row2 col2 pr sl ec t s
  | .mmvBf16 row1 col1 row2 col2 pr sl t => Sys2Proof.Machine.execMmvBf16 row1 col1 row2 col2 pr sl t s
  | .mzero row1 col1 pr mv t => Sys2Proof.Machine.execMzero row1 col1 pr mv t s
  | .mscale row1 row2 pr t => Sys2Proof.Machine.execMscale row1 row2 pr t s
  | .mcvt row1 col1 row2 pr code isInt t => Sys2Proof.Machine.execMcvt row1 col1 row2 pr code isInt t s
  | .mtest row1 col1 t => Sys2Proof.Machine.execMtest row1 col1 t s
  | .mfence t => Sys2Proof.Machine.execMfence t s
  | .mcbk row2 col2 pr el t => Sys2Proof.Machine.execMcbk row2 col2 pr el t s
  | .mtrn row1 col1 row2 col2 wd t => Sys2Proof.Machine.execMtrn row1 col1 row2 col2 wd t s
  | .mpair el t => Sys2Proof.Machine.execMpair el t s
  | .mfree t => Sys2Proof.Machine.execMfree t s
  | .meshOut g d a b => Sys2Proof.Machine.execMeshOut g d a b s
  | .meshPrim g d a => Sys2Proof.Machine.execMeshPrim g d a s
  | .meshDone g a b => Sys2Proof.Machine.execMeshDone g a b s
  | .rastBind g a imm => Sys2Proof.Machine.execRastBind g a imm s
  | .pixIn g d imm => Sys2Proof.Machine.execPixIn g d imm s
  | .pixBary g d b m => Sys2Proof.Machine.execPixBary g d b m s
  | .pixDiscard g => Sys2Proof.Machine.execPixDiscard g s
  | .omWrite g a imm => Sys2Proof.Machine.execOmWrite g a imm s
  | .omDepth g a => Sys2Proof.Machine.execOmDepth g a s
  | .guideOut g a => Sys2Proof.Machine.execGuideOut g a s
  | .texSample g d a b => Sys2Proof.Machine.execTexSample g d a b s
  | .texLod g d a b => Sys2Proof.Machine.execTexLod g d a b s
  | .texGrad g d a b => Sys2Proof.Machine.execTexGrad g d a b s
  | .texFetch g d a b => Sys2Proof.Machine.execTexFetch g d a b s
  | .texGather4 g d a b => Sys2Proof.Machine.execTexGather4 g d a b s
  | .texQuery g d a imm => Sys2Proof.Machine.execTexQuery g d a imm s
  | .rayBox g d a b => Sys2Proof.Machine.execRayBox g d a b s
  | .rayTri g d a b => Sys2Proof.Machine.execRayTri g d a b s
  | .rayInit g d a => Sys2Proof.Machine.execRayInit g d a s
  | .rayXform g d a b m => Sys2Proof.Machine.execRayXform g d a b m s
  | .rayStkPush g d a => Sys2Proof.Machine.execRayStkPush g d a s
  | .rayStkPop g d a => Sys2Proof.Machine.execRayStkPop g d a s
  | .rayHit g d a => Sys2Proof.Machine.execRayHit g d a s
  | .imgLd g d a lb off => Sys2Proof.Machine.execImgLd g d a lb off s
  | .imgSt g d a lb off => Sys2Proof.Machine.execImgSt g d a lb off s
  | .quadSwz g d a imm => Sys2Proof.Machine.execQuadSwz g d a imm s
  | .quadDeriv g d a imm => Sys2Proof.Machine.execQuadDeriv g d a imm s
  | .cpyLin a b c m t => Sys2Proof.Machine.execCpyLin a b c m t s
  | .cpyTen a b c m slot t => Sys2Proof.Machine.execCpyTen a b c m slot t s
  | .cpyMc a b c m t => Sys2Proof.Machine.execCpyMc a b c m t s
  | .cpyCol a b c t => Sys2Proof.Machine.execCpyCol a b c t s
  | .cpyFill a c t => Sys2Proof.Machine.execCpyFill a c t s
  | .cpyWb ent t => Sys2Proof.Machine.execCpyWb ent t s
  | .cpyTs a b c m row col t => Sys2Proof.Machine.execCpyTs a b c m row col t s
  | .cpyFeed a b c row col t => Sys2Proof.Machine.execCpyFeed a b c row col t s
  | .publish a t => Sys2Proof.Machine.execPublish a t s
  | .shadow a b t => Sys2Proof.Machine.execShadow a b t s
  | .semSig a b m t => Sys2Proof.Machine.execSemSig a b m t s
  | .semWait a b m t => Sys2Proof.Machine.execSemWait a b m t s
  | .semTry a b c m t => Sys2Proof.Machine.execSemTry a b c m t s
  | .semSet a b m t => Sys2Proof.Machine.execSemSet a b m t s
  | .semRead a c m t => Sys2Proof.Machine.execSemRead a c m t s
  | .push a b c m dir t => Sys2Proof.Machine.execPush a b c m dir t s
  | .shape a slot t => Sys2Proof.Machine.execShape a slot t s
  | .tokq t => Sys2Proof.Machine.execTokq t s
  | .mapSet a b ent t => Sys2Proof.Machine.execMapSet a b ent t s
  | .mapClr ent t => Sys2Proof.Machine.execMapClr ent t s
  | .cpyRed a b c ty rop t => Sys2Proof.Machine.execCpyRed a b c ty rop t s
  | .cpyGath a b c rl t => Sys2Proof.Machine.execCpyGath a b c rl t s
  | .cpyScat a b c rl t => Sys2Proof.Machine.execCpyScat a b c rl t s
  | .guideBind a b c t => Sys2Proof.Machine.execGuideBind a b c t s
  | .linkSend a b c t => Sys2Proof.Machine.execLinkSend a b c t s
  | .linkRecv a b c t => Sys2Proof.Machine.execLinkRecv a b c t s
  | .cpyAbort t => Sys2Proof.Machine.execCpyAbort t s
  | .cpyHost a b c m t => Sys2Proof.Machine.execCpyHost a b c m t s
  | .vadd d a b k m => Sys2Proof.Machine.execVadd d a b k m s
  | .vsub d a b k m => Sys2Proof.Machine.execVsub d a b k m s
  | .vmul d a b k m => Sys2Proof.Machine.execVmul d a b k m s
  | .vfma d a b k m => Sys2Proof.Machine.execVfma d a b k m s
  | .vmin d a b k m => Sys2Proof.Machine.execVmin d a b k m s
  | .vmax d a b k m => Sys2Proof.Machine.execVmax d a b k m s
  | .vabs d a k m => Sys2Proof.Machine.execVabs d a k m s
  | .vneg d a k m => Sys2Proof.Machine.execVneg d a k m s
  | .vcmp d a b k => Sys2Proof.Machine.execVcmp d a b k s
  | .vsel d a b k m => Sys2Proof.Machine.execVsel d a b k m s
  | .vand d a b k m => Sys2Proof.Machine.execVand d a b k m s
  | .vor d a b k m => Sys2Proof.Machine.execVor d a b k m s
  | .vxor d a b k m => Sys2Proof.Machine.execVxor d a b k m s
  | .vshl d a b k m => Sys2Proof.Machine.execVshl d a b k m s
  | .vshrI d a b k m => Sys2Proof.Machine.execVshrI d a b k m s
  | .vshrN d a b k m => Sys2Proof.Machine.execVshrN d a b k m s
  | .vmov d a k m => Sys2Proof.Machine.execVmov d a k m s
  | .vbcast d a b k m => Sys2Proof.Machine.execVbcast d a b k m s
  | .vrcp d a k m => Sys2Proof.Machine.execVrcp d a k m s
  | .vrsq d a k m => Sys2Proof.Machine.execVrsq d a k m s
  | .vexp2 d a k m => Sys2Proof.Machine.execVexp2 d a k m s
  | .vlog2 d a k m => Sys2Proof.Machine.execVlog2 d a k m s
  | .vtbli d a b k m => Sys2Proof.Machine.execVtbli d a b k m s
  | .vtbll a b => Sys2Proof.Machine.execVtbll a b s
  | .vrmax d a k => Sys2Proof.Machine.execVrmax d a k s
  | .vradd d a k => Sys2Proof.Machine.execVradd d a k s
  | .vamax d a k => Sys2Proof.Machine.execVamax d a k s
  | .vqnt d a b k m => Sys2Proof.Machine.execVqnt d a b k m s
  | .vdqnt d a b k m => Sys2Proof.Machine.execVdqnt d a b k m s
  | .vcvt d a b k m => Sys2Proof.Machine.execVcvt d a b k m s
  | .vperm d a b k m => Sys2Proof.Machine.execVperm d a b k m s
  | .vslide d a b k m => Sys2Proof.Machine.execVslide d a b k m s
  | .vpop d a => Sys2Proof.Machine.execVpop d a s
  | .vpush d a => Sys2Proof.Machine.execVpush d a s
  | .vpopk d a => Sys2Proof.Machine.execVpopk d a s
  | .vpushs d a k => Sys2Proof.Machine.execVpushs d a k s
  | .vshape d a b k m => Sys2Proof.Machine.execVshape d a b k m s
  | .vrot d a b k m => Sys2Proof.Machine.execVrot d a b k m s
  | .vscale d a b k m => Sys2Proof.Machine.execVscale d a b k m s
  | .vrnd d a b k m => Sys2Proof.Machine.execVrnd d a b k m s
  | .vsqrt d a k m => Sys2Proof.Machine.execVsqrt d a k m s
  | .vmadI d a b k m => Sys2Proof.Machine.execVmadI d a b k m s
  | .vsat d a b k m => Sys2Proof.Machine.execVsat d a b k m s
  | .vpsum d a k m => Sys2Proof.Machine.execVpsum d a k m s
  | .vclamp d a b k m => Sys2Proof.Machine.execVclamp d a b k m s
  | .vfrac d a k m => Sys2Proof.Machine.execVfrac d a k m s
  | .vcbk a => Sys2Proof.Machine.execVcbk a s
  | .vkmov op t a b => Sys2Proof.Machine.execVkmov op t a b s
  | .launchDispatch ctx q => Sys2Proof.Machine.execLaunchDispatch ctx q s
  | .crewPlacement => Sys2Proof.Machine.execCrewPlacement s
  | .crewStart crew => Sys2Proof.Machine.execCrewStart crew s
  | .bundleEnd b => Sys2Proof.Machine.execBundleEnd b s
  | .launchCompletion l => Sys2Proof.Machine.execLaunchCompletion l s
  | .activeSetRecompute core => Sys2Proof.Machine.execActiveSetRecompute core s
  | .leaseWindowEnd b => Sys2Proof.Machine.execLeaseWindowEnd b s
  | .runArbitration core => Sys2Proof.Machine.execRunArbitration core s
  | .yieldHoldExpiry core => Sys2Proof.Machine.execYieldHoldExpiry core s
  | .batchTimeout ctx node => Sys2Proof.Machine.execBatchTimeout ctx node s
  | .groveBarrierDoneMessage grove bar second => Sys2Proof.Machine.execGroveBarrierDoneMessage grove bar second s
  | .pageBacking ctx va => Sys2Proof.Machine.execPageBacking ctx va s
  | .pageMigration ctx va => Sys2Proof.Machine.execPageMigration ctx va s
  | .copyUnitTransfer copy unit => Sys2Proof.Machine.execCopyUnitTransfer copy unit s
  | .copyCompletion copy => Sys2Proof.Machine.execCopyCompletion copy s
  | .multicastShareWritten copy share => Sys2Proof.Machine.execMulticastShareWritten copy share s
  | .feedBlockWrite tile => Sys2Proof.Machine.execFeedBlockWrite tile s
  | .regionFillCompletion tile line => Sys2Proof.Machine.execRegionFillCompletion tile line s
  | .publishSwap ctx va => Sys2Proof.Machine.execPublishSwap ctx va s
  | .remoteAtomicErrorResponse b st d addr => Sys2Proof.Machine.execRemoteAtomicErrorResponse b st d addr s
  | .matRetire tile => Sys2Proof.Machine.execMatRetire tile s
  | .matrixSelfTest tile failing => Sys2Proof.Machine.execMatrixSelfTest tile failing s
  | .mpairSlave tile => Sys2Proof.Machine.execMpairSlave tile s
  | .executeResultLanding tile => Sys2Proof.Machine.execExecuteResultLanding tile s
  | .scaleLatchDelivery tile => Sys2Proof.Machine.execScaleLatchDelivery tile s
  | .taskSequencerPartStart tile => Sys2Proof.Machine.execTaskSequencerPartStart tile s
  | .loopRecordDoneSignal tile => Sys2Proof.Machine.execLoopRecordDoneSignal tile s
  | .tilePreemptionSave tile => Sys2Proof.Machine.execTilePreemptionSave tile s
  | .tileSetPlacement => Sys2Proof.Machine.execTileSetPlacement s
  | .meshRasterise die => Sys2Proof.Machine.execMeshRasterise die s
  | .pixelBundleStart die => Sys2Proof.Machine.execPixelBundleStart die s
  | .fragmentMerge l => Sys2Proof.Machine.execFragmentMerge l s
  | .guideTileSend die => Sys2Proof.Machine.execGuideTileSend die s
  | .millStep core => Sys2Proof.Machine.execMillStep core s
  | .millDrainTimeLimit core => Sys2Proof.Machine.execMillDrainTimeLimit core s
  | .millReload core b => Sys2Proof.Machine.execMillReload core b s
  | .flumeStep crew f => Sys2Proof.Machine.execFlumeStep crew f s
  | .preemptionRequest core crews => Sys2Proof.Machine.execPreemptionRequest core crews s
  | .saveCommit crew => Sys2Proof.Machine.execSaveCommit crew s
  | .saveSlotDrain core => Sys2Proof.Machine.execSaveSlotDrain core s
  | .crewRestore crew => Sys2Proof.Machine.execCrewRestore crew s
  | .splitDrainComplete core => Sys2Proof.Machine.execSplitDrainComplete core s
  | .governorRequestArrival reqs => Sys2Proof.Machine.execGovernorRequestArrival reqs s
  | .waittDeadline o st => Sys2Proof.Machine.execWaittDeadline o st s
  | .softError e => Sys2Proof.Machine.execSoftError e s
  | .patrolScrub die line => Sys2Proof.Machine.execPatrolScrub die line s
  | .powerManagerWindow total tensor raster => Sys2Proof.Machine.execPowerManagerWindow total tensor raster s
  | .dieResetTimeLimit die => Sys2Proof.Machine.execDieResetTimeLimit die s
  | .hostMemoryAccess write pa bytes => Sys2Proof.Machine.execHostMemoryAccess write pa bytes s
  | .qtailWrite ctx q v => Sys2Proof.Machine.execQtailWrite ctx q v s
  | .qctlWrite ctx q v => Sys2Proof.Machine.execQctlWrite ctx q v s
  | .mbxHostWrite ctx n v => Sys2Proof.Machine.execMbxHostWrite ctx n v s
  | .govdeadWrite ctx n v => Sys2Proof.Machine.execGovdeadWrite ctx n v s
  | .evheadWrite ctx v => Sys2Proof.Machine.execEvheadWrite ctx v s
  | .tsetWrite v => Sys2Proof.Machine.execTsetWrite v s
  | .hostRegisterWrite ofs v => Sys2Proof.Machine.execHostRegisterWrite ofs v s
  | .createContext ctx root => Sys2Proof.Machine.execCreateContext ctx root s
  | .endContext ctx => Sys2Proof.Machine.execEndContext ctx s
  | .shootDown ctx va len => Sys2Proof.Machine.execShootDown ctx va len s
  | .shootDownAcknowledge unit => Sys2Proof.Machine.execShootDownAcknowledge unit s
  | .addPoolFrames large frames threshold => Sys2Proof.Machine.execAddPoolFrames large frames threshold s
  | .dieBeadAllocate ctx bead => Sys2Proof.Machine.execDieBeadAllocate ctx bead s
  | .dieBeadFree ctx bead => Sys2Proof.Machine.execDieBeadFree ctx bead s
  | .linkStreamAllocate ctx port stream => Sys2Proof.Machine.execLinkStreamAllocate ctx port stream s
  | .linkStreamFree ctx port stream => Sys2Proof.Machine.execLinkStreamFree ctx port stream s
  | .debugRetry o st => Sys2Proof.Machine.execDebugRetry o st s
  | .debugSkip o st => Sys2Proof.Machine.execDebugSkip o st s
  | .debugAbort o => Sys2Proof.Machine.execDebugAbort o s
  | .computeReset die limit => Sys2Proof.Machine.execComputeReset die limit s
  | .powerOff die => Sys2Proof.Machine.execPowerOff die s
  | .writeMtcfg tile v => Sys2Proof.Machine.execWriteMtcfg tile v s
  | .hostCopyToDevice ctx host dst len bead => Sys2Proof.Machine.execHostCopyToDevice ctx host dst len bead s
  | .hostCopyToHost ctx host src len bead => Sys2Proof.Machine.execHostCopyToHost ctx host src len bead s
  | .installNodeTable ctx table n => Sys2Proof.Machine.execInstallNodeTable ctx table n s
  | .installRecordPool ctx base size count => Sys2Proof.Machine.execInstallRecordPool ctx base size count s
  | .attestationRequest nonce => Sys2Proof.Machine.execAttestationRequest nonce s
  | .identityCertificateRequest => Sys2Proof.Machine.execIdentityCertificateRequest s
  | .fenceAddendum tile mask => Sys2Proof.Machine.execFenceAddendum tile mask s
  | .errorLogRead ofs count => Sys2Proof.Machine.execErrorLogRead ofs count s
  | .captureOn ctx base size => Sys2Proof.Machine.execCaptureOn ctx base size s
  | .captureOff ctx => Sys2Proof.Machine.execCaptureOff ctx s
  | .imageWrite img => Sys2Proof.Machine.execImageWrite img s
  | .powerGood => Sys2Proof.Machine.execPowerGood s
  | .ptpMessage port slew offset lock => Sys2Proof.Machine.execPtpMessage port slew offset lock s
  | .linkDataFrame port f => Sys2Proof.Machine.execLinkDataFrame port f s
  | .linkAckFrame port f => Sys2Proof.Machine.execLinkAckFrame port f s
  | .linkCreditFrame port f => Sys2Proof.Machine.execLinkCreditFrame port f s
  | .linkRetransmitTimeout port stream => Sys2Proof.Machine.execLinkRetransmitTimeout port stream s
  | .foreignFrame port => Sys2Proof.Machine.execForeignFrame port s
  | .railOutOfRange rail => Sys2Proof.Machine.execRailOutOfRange rail s
  | .bypass => Sys2Proof.Machine.execBypass s
  | .idcode => Sys2Proof.Machine.execIdcode s
  | .samplePreload => Sys2Proof.Machine.execSamplePreload s
  | .extest => Sys2Proof.Machine.execExtest s
  | .portUp port => Sys2Proof.Machine.execPortUp port s
  | .railInRange rail => Sys2Proof.Machine.execRailInRange rail s
  | .powerLoss writing => Sys2Proof.Machine.execPowerLoss writing s
  | .timeLockLost => Sys2Proof.Machine.execTimeLockLost s

end Sys2Proof.Machine
end

