-- ==== Sys2Proof/Machine/Issue.lean ====
section
/-! DEFINITION. Issuing one group: fetch and decode (01 R20-R27), the conditions that hold a group back (01 R20, R23, 06 R135,
R136), its instructions in word order, and what the group leaves: on a raster core (06 R134), and on a tile for the access and
the execute processor (18 R292-R296). -/

namespace Sys2Proof.Machine

open Host (Outcome)

/-! ### Reading a group (01 R25-R27) -/

/-- An instruction of a group, with its address and its words. -/
structure Placed where
  pc : Dword
  item : Item
  words : List Word
deriving DecidableEq, Repr

/-- The address after an instruction. -/
def Placed.next (x : Placed) : Dword := x.pc + (if x.item.long then 8 else 4)

/-- The cause of a word that is no instruction (01 R25). -/
def decodeCause : DecodeError → Nat
  | .illegalOpcode => causeIllegalOpcode
  | .opcodeAbsent => causeOpcodeAbsent
  | .illegalLength => causeIllegalLength
  | .truncated => causeIllegalLength
  | .illegalField => causeIllegalField

/-- Fetch and decode the instruction at an address, the conditions of 01 R26 in their order. -/
noncomputable def State.readItem (s : State) (p : Profile) (epoch : Seen) (a : Dword) : Eff (Placed × State) :=
  match s.fetchWord s.cur.ctx a epoch causeFetchFault a with
  | .error e => .error e
  | .ok (w, t) =>
    match decodeHead p w with
    | .error e => trapWith (decodeCause e) 0
    | .ok r =>
      if wordLong w then
        match t.fetchWord s.cur.ctx (a + 4) epoch causeSplitFetch (a + 4) with
        | .error e => .error e
        | .ok (x, u) =>
          match decodeBody p r w x with
          | .error e => trapWith (decodeCause e) 0
          | .ok it => .ok (⟨a, it, [w, x]⟩, u)
      else
        match decodeBody p r w 0 with
        | .error e => trapWith (decodeCause e) 0
        | .ok it => .ok (⟨a, it, [w]⟩, t)

/-- Read a group word by word from an address: each instruction is checked against the rules of its group and run before the
next is fetched (01 R26). `before` instructions of the run precede the group; `lasts` are the last instructions of the active
loop levels. No group has more instructions than the fuel. -/
noncomputable def State.readGroup (s : State) (p : Profile) (epoch : Seen) (lasts : List Dword) (before : Nat) :
    Nat → Dword → List Placed → Eff (List Placed × State)
  | 0, _, _ => trapWith causeIllegalEncoding 0
  | n + 1, a, got =>
    match s.readItem p epoch a with
    | .error e => .error e
    | .ok (x, t) =>
      if breaksRules p (got.map (fun y => y.item.instr)) x.item (before + got.length) (lasts.contains a) then
        trapWith causeIllegalEncoding 0
      else if x.item.stop then .ok (got ++ [x], t)
      else t.readGroup p epoch lasts before n x.next (got ++ [x])

/-- Fuel for a group: it holds at most 24 instructions (01 R21). -/
def groupFuel : Nat := 25

/-! ### Convergence (03 R54, 06 R136) -/

/-- Instructions that wait until every live strand of their bundle stands at them: U of 03, and the lane and graphics
instructions that name other strands or act for the bundle. -/
def convergent (i : Instr) : Bool :=
  match i with
  | .voteAny .. | .voteAll .. | .barArrive .. | .barWait .. | .lease .. | .split .. | .launch .. | .reca .. | .remit .. | .rdone ..
  | .millCfg .. | .millEnter | .millExit .. | .fsend .. | .fsendNb .. | .ftake .. | .sread .. | .swrite .. | .govq .. | .govr ..
  | .shflIdx .. | .shflXor .. | .s2v .. | .v2s .. | .meshDone .. | .rastBind .. | .texSample .. | .quadSwz .. | .quadDeriv .. => true
  | _ => instrClass i == 1 || instrClass i == 6

/-- The strands of a bundle that wait as a parked cohort at an address, outside a set. -/
def State.parkedAt (s : State) (b : Nat) (pc : Dword) (is : List Nat) : List Nat :=
  let here := (s.liveStrands b).filter (fun i => !is.contains i && (s.strand i).pc == pc &&
    (match (s.strand i).stat with
      | .ready => true
      | .parked _ => true
      | _ => false))
  if here.any (fun i => (s.strand i).wait.isSome) then here else []

/-- The parked strands of a bundle join the group at a bundle-convergent instruction; bundles that are not complete leave. -/
def State.converge (s : State) : State :=
  let bs := (s.cur.strands.map strandBundle).eraseDups
  let joined (b : Nat) : List Nat := s.parkedAt b s.cur.gpc s.cur.strands
  let complete (b : Nat) : Bool :=
    (s.liveStrands b).all (fun i => s.cur.strands.contains i || (joined b).contains i)
  let keep := bs.filter complete
  let s1 := (s.cur.strands.filter (fun i => !keep.contains (strandBundle i))).foldl
    (fun (t : State) i => t.parkStrand s.cur.gpc .rest i) s
  let here (b : Nat) : List Nat :=
    (s.liveStrands b).filter (fun i => s.cur.strands.contains i || (joined b).contains i)
  { s1 with cur := { s.cur with strands := (keep.map here).flatten, owners := keep } }

/-! ### Conditions that hold a group back (01 R20) -/

/-- Conditions that change nothing but who takes part. -/
def State.plainPoint (s : State) (i : Instr) : Eff State :=
  match i with
  | .wait imm => .ok (s.tokenPoint (imm.extractLsb' 0 8))
  | .semSig _ _ _ t => .ok (s.maskPoint t)
  | .semWait _ _ _ t => .ok (s.maskPoint t)
  | .semTry _ _ _ _ t => .ok (s.maskPoint t)
  | .semSet _ _ _ t => .ok (s.maskPoint t)
  | .semRead _ _ _ t => .ok (s.maskPoint t)
  | .shape _ _ t => .ok (s.maskPoint t)
  | .shadow _ _ t => .ok (s.maskPoint t)
  | .mapSet _ _ _ t => .ok (s.maskPoint t)
  | .guideBind _ _ _ t => .ok (s.maskPoint t)
  | .publish _ t => .ok (s.maskPoint t)
  | .tokq t => .ok (s.copyPoint t false false)
  | .cpyHost _ _ _ _ t => .ok (s.copyPoint t true true)
  | .linkSend _ _ _ t => .ok (s.copyPoint t true true)
  | .linkRecv _ _ _ t => .ok (s.copyPoint t true true)
  | .cpyLin _ _ _ _ t => .ok (s.copyPoint t false true)
  | .cpyTen _ _ _ _ _ t => .ok (s.copyPoint t false true)
  | .cpyMc _ _ _ _ t => .ok (s.copyPoint t false true)
  | .cpyCol _ _ _ t => .ok (s.channelPoint t false true true)
  | .cpyFill _ _ t => .ok (s.copyPoint t false true)
  | .cpyWb _ t => .ok (s.copyPoint t false true)
  | .cpyTs _ _ _ _ _ _ t => .ok (s.copyPoint t false true)
  | .cpyFeed _ _ _ _ _ t => .ok (s.copyPoint t false true)
  | .push _ _ _ _ _ t => .ok (s.copyPoint t false true)
  | .mapClr _ t => .ok (s.copyPoint t false true)
  | .cpyRed _ _ _ _ _ t => .ok (s.copyPoint t false true)
  | .cpyGath _ _ _ _ t => .ok (s.copyPoint t false true)
  | .cpyScat _ _ _ _ t => .ok (s.copyPoint t false true)
  | .lds g _ a lb off => .ok (s.presencePoint g a lb off)
  | .atomsAdd g _ a _ lb _ _ _ off => .ok (s.presencePoint g a lb off)
  | .atomsCas g _ a _ lb _ _ _ off => .ok (s.presencePoint g a lb off)
  | .rayStkPop g _ a => .ok (s.rayPopPoint g a)
  | .meshDone g a b => s.meshPoint g a b
  | .chk d _ => if d = 3 then s.drainPoint false else .ok s
  | .sread reg _ => if reg = 0 then s.drainPoint false else .ok s
  | .region _ => s.commitPoint
  | .exit => s.commitPoint
  | _ => .ok s

/-- Conditions whose evaluation has an effect of its own: an arrival, a place in a queue, a page backed. -/
def State.actingPoint (s : State) (i : Instr) : State × Option Stop :=
  let keep (r : Eff State) : State × Option Stop := match r with
    | .ok t => (t, none)
    | .error e => (s, some e)
  match i with
  | .barCrew imm => (s.barPoint false imm.toNat, none)
  | .barGrove imm => keep ((groveCheck s).map (fun (t : State) => t.barPoint true imm.toNat))
  | .barWait _ a imm => keep (s.barWaitPoint a imm.toNat)
  | .waitt a m => keep (s.waittPoint a m)
  | .semWait a b m t => keep (s.semWaitPoint a b m t.bead)
  | .split _ imm => keep (s.splitPoint imm.toNat)
  | .reca _ a => keep (s.recaPoint a)
  | .fsend d a => keep (s.flumePoint d.toNat true false a)
  | .fsendNb d a _ => keep (s.flumePoint d.toNat true true a)
  | .ftake _ a => keep (s.flumePoint a.toNat false false 0)
  | .publish a _ => keep (s.publishPoint a)
  | .probe g a b m => s.probeWork g a b m
  | _ => (s, none)

/-- The first kind as the second's type. -/
def State.plainPointAs (s : State) (i : Instr) : State × Option Stop :=
  match s.plainPoint i with
  | .ok t => (t, none)
  | .error e => (s, some e)

/-- Evaluate a condition for each instruction of a group: the state, and the first stop with the place of its instruction. -/
def State.points (s : State) (f : State → Instr → State × Option Stop) : Nat → List Placed → State × Option (Nat × Stop)
  | _, [] => (s, none)
  | n, x :: rest =>
    match f { s with cur := { s.cur with pc := x.pc } } x.item.instr with
    | (t, none) => t.points f (n + 1) rest
    | (t, some e) => (t, some (n, e))

/-- Every condition of a group, those that change nothing first. -/
def State.allPoints (s : State) (g : List Placed) : State × Option (Nat × Stop) :=
  match s.points State.plainPointAs 0 g with
  | (t, some e) => (t, some e)
  | (t, none) => t.points State.actingPoint 0 g

/-! ### The instructions of a group -/

/-- What came of a group's instructions. -/
inductive Ran where
  | done (s : State)
  | stop (x : Stopped) (pc : Dword)
  | fault (f : Fault)
  | refused (r : Refusal)

/-- Execute instructions in word order, up to the first that stops the group. -/
def State.runItems (s : State) : List Placed → Ran
  | [] => .done s
  | x :: rest =>
    match exec x.item.instr { s with cur := { s.cur with pc := x.pc, long := x.item.long }, last := none } with
    | .fault f => .fault f
    | .refused r => .refused r
    | .next t =>
      match t.last with
      | some y => .stop y x.pc
      | none => t.runItems rest

/-- SREAD of ACR reads what the group finds, whatever flags earlier words of the group raise (01 R20). -/
def Placed.readsAcr (x : Placed) : Bool :=
  match x.item.instr with
  | .sread reg _ => reg == 0
  | _ => false
def acrFirst (g : List Placed) : List Placed := g.filter Placed.readsAcr ++ g.filter (fun x => !x.readsAcr)

/-- Take what stopped a group, from the state the group was found in: nothing of it has executed (14 R235), but for the backing of the
page that the access which stopped it met (15 R260). -/
def State.takeStop (s : State) (x : Stopped) : State :=
  let t := s.keepBacking false x
  match x with
  | .trap c a o => t.takeTrap c a o
  | .fatal c a => t.fatalError c a
  | .wait w => t.parkGroup w

/-- An access to an element of a page, whose alignment is checked after its translation (04 R102). -/
def elemInstr (i : Instr) : Bool :=
  match i with
  | .ldx .. | .stx .. | .imgLd .. | .imgSt .. => true
  | _ => false

/-- Execute a group whose conditions have been evaluated to `t`: the state after its instructions, or what stops it. An
instruction before the one whose condition traps may trap first (14 R256). -/
def State.runGroup (t : State) (e : Option (Nat × Stop)) (g : List Placed) : Ran :=
  let u := { t with cur := { t.cur with cleared := true } }
  match e with
  | none => u.runItems (acrFirst g)
  | some (_, .fault f) => .fault f
  | some (_, .stopped (.wait w)) => .stop (.wait w) t.cur.gpc
  | some (n, .stopped x) =>
    let pc := ((g.drop n).head?.map (fun (y : Placed) => y.pc)).getD t.cur.gpc
    match u.runItems (acrFirst (g.take n)) with
    | .done _ => .stop x pc
    | .stop (.wait _) _ => .stop x pc
    | r => r

/-- Leave issue: nothing is being issued. -/
def State.leave (s : State) : State := { s with cur := .idle, last := none }

/-- A SWRITE of ACR applies from the next group (01 R20). -/
def State.settleAcr (s : State) (o : Nat) : State :=
  match (s.owner o).acrNext with
  | some a => s.setOwner o { s.owner o with acr := a, acrNext := none }
  | none => s

/-! ### Breakpoints (06 R141-R143) -/

/-- The breakpoint an instruction is: the DBGBPA entry, or 15 and the immediate of a BKPT. -/
def State.breakAt (s : State) (x : Placed) : Option (Nat × Option (BitVec 32)) :=
  let c := s.ctx s.cur.ctx
  let hit (n : Nat) : Bool :=
    let e := Tbl.getD c.dbgbpa n 0
    e.getLsbD 0 && e.extractLsb' 2 54 == x.pc.extractLsb' 2 54
  match (if c.dbgctl.getLsbD 0 then (List.range 8).find? hit else none), x.item.instr with
  | some n, _ => some (n, none)
  | none, .bkpt imm => if c.dbgctl.getLsbD 1 then some (15, some imm) else none
  | none, _ => none

/-- Whether an instruction of a group is tested by one that has trapped at a breakpoint: in the group that holds it, what stands up
to it has been tested (06 R143). -/
def testedIn (skip : Option Dword) (g : List Placed) (x : Placed) : Bool :=
  match skip with
  | some a => !(g.any (fun y => y.pc == a) && decide (x.pc.toNat ≤ a.toNat))
  | none => true

/-- The first breakpoint of a group that is tested. -/
def State.breakIn (s : State) (skip : Option Dword) (g : List Placed) : Option (Placed × Nat × Option (BitVec 32)) :=
  g.findSome? (fun x => if testedIn skip g x then (s.breakAt x).map (fun e => (x, e.1, e.2)) else none)

/-! ### A raster core (06 R134-R136) -/

/-- Insert a strand in the order of bundle index, then strand index. -/
def State.insertStrand (s : State) (i : Nat) : List Nat → List Nat
  | [] => [i]
  | j :: rest =>
    let rank (k : Nat) : Nat := 64 * ((Tbl.find? s.bundles (strandBundle k)).map (fun (b : Bundle) => b.index)).getD 0 + strandIndex k
    if rank i < rank j then i :: j :: rest else j :: s.insertStrand i rest

/-- Strands by bundle index, then strand index (06 R127). -/
def State.sortStrands (s : State) : List Nat → List Nat
  | [] => []
  | i :: rest => s.insertStrand i (s.sortStrands rest)

/-- Stand a group of strands up for issue at their pc. -/
def State.standRaster (s : State) (is : List Nat) : State :=
  let ms := s.sortStrands is
  let i := ms.headD 0
  let ctx := match s.launchOf (strandBundle i) with
    | some l => ((Tbl.find? s.launches l).map (fun (x : Launch) => x.ctx)).getD 0
    | none => 0
  let pc := (s.strand i).pc
  { s with cur := ⟨.raster, ctx, pc, pc, false, (ms.map strandBundle).eraseDups, ms, false, none⟩, last := none }

/-- The responses of the group's remote atomics have come without an error (04 R120; log 121). -/
def State.heardRemote (s : State) : State :=
  s.cur.strands.foldl (fun (t : State) i =>
    if (t.strand i).remote.isEmpty then t else t.setStrand i { t.strand i with remote := [] }) s

/-- Read the group that stands up: the newest fetch among its strands serves them all (08 R182; log 11). -/
noncomputable def State.readRaster (s : State) (before : Nat) : Eff (List Placed × State) :=
  let epoch : Seen := ((s.cur.strands.map (fun i => (s.strand i).fetchEpoch)).foldl max 0, (s.cur.strands.map (fun i => (s.strand i).born)).foldl max 0)
  let lasts := (s.cur.strands.map (fun i => (s.strand i).loops.map (fun (l : Loop) => l.last))).flatten.eraseDups
  s.readGroup .raster epoch lasts before groupFuel s.cur.gpc []

/-- The conditions of a raster group, after its bundles have converged. -/
def State.rasterPoints (s : State) (g : List Placed) : State × Option (Nat × Stop) :=
  let t := if g.any (fun x => convergent x.item.instr) then s.converge else s
  if t.cur.strands.isEmpty then (t, none) else t.allPoints g

/-- A strand after a completed group: where it goes (03 R65-R67), its status, and its breakpoint tested again. -/
def State.advanceStrand (s : State) (last next : Dword) (i : Nat) : State :=
  let x := s.strand i
  match x.stat with
  | .dead => s
  | .halted => s
  | .stopped _ => s
  | st =>
    let e := backEdge x.loops last
    let y := if x.moved then x else { x with loops := e.1, pc := e.2.getD next }
    s.setStrand i { y with moved := false, bpSkip := none, since := 0, stat := if st = .milled then .milled else .ready }

/-- What a run becomes after a group of n instructions: it ends at E = 1, else the strands at the first one's pc go on. -/
def State.nextRun (s : State) (k n : Nat) (ends : Bool) : State :=
  let y := s.core k
  let alive := s.cur.strands.filter (fun i => (s.strand i).stat == .ready)
  let run : Option Run := match y.run, alive with
    | some r, i :: _ =>
      if ends then none
      else some ⟨alive.filter (fun j => (s.strand j).pc == (s.strand i).pc), (s.strand i).pc, r.count + n⟩
    | _, _ => none
  let out := s.cur.strands.filter (fun i => !(match run with
    | some r => r.members.contains i
    | none => false))
  out.foldl State.stopNow (s.setCore k { y with run := run })

/-- A completed raster group. -/
def State.commitRaster (s : State) (k : Nat) (g : List Placed) : State :=
  match g.getLast? with
  | none => s
  | some z =>
    let s1 := s.cur.allOwners.foldl State.settleAcr s
    let s2 := s1.cur.strands.foldl (fun (t : State) i => t.advanceStrand z.pc z.next i) s1
    (s2.nextRun k g.length z.item.runEnd).leave

/-- The run on a core ends: what all-stop stops of it stops now (06 R142). -/
def State.endRun (s : State) (k : Nat) : State :=
  let ms := match (s.core k).run with
    | some r => r.members
    | none => []
  (ms.foldl State.stopNow (s.setCore k { s.core k with run := none })).leave

/-- Put some strands of the group at issue, with their bundles. -/
def State.onlyStrands (s : State) (is : List Nat) : State :=
  { s with cur := { s.cur with strands := is, owners := (is.map strandBundle).eraseDups } }

/-- Take the breakpoints of a group, lowest address first, each for the strands that test it; the others go on (06 R141, R143; log
111). -/
def State.breakRaster (g : List Placed) : List Placed → State → State
  | [], s => s
  | x :: rest, s =>
    match s.breakAt x with
    | none => State.breakRaster g rest s
    | some (n, code) =>
      let hit := s.cur.strands.filter (fun i => testedIn (s.strand i).bpSkip g x)
      if hit.isEmpty then State.breakRaster g rest s
      else
        let h := s.onlyStrands hit
        let t := ({ h with cur := { h.cur with pc := x.pc } }).breakTrap code n
        let left := s.cur.strands.filter (fun i => !hit.contains i && ((t.strand i).stat == .ready || (t.strand i).wait.isSome))
        State.breakRaster g rest { t with cur := { s.cur with strands := left, owners := (left.map strandBundle).eraseDups }, last := none }

/-- What a trap reports of one bundle of the group (14 R237): the address and the origin of its own strands, where these raise the
same cause at the same instruction; otherwise none. `s` is the state the group found. -/
def State.trapDetail (s : State) (g : List Placed) (c : BitVec 8) (a : Dword) (x : Option Origin) (pc : Dword) (o : Nat) :
    Dword × Option Origin :=
  if s.cur.allOwners.length ≤ 1 then (a, x)
  else
    let p := (s.onlyStrands (s.cur.strands.filter (fun i => strandBundle i == o))).rasterPoints g
    match p.1.runGroup p.2 g with
    | .stop (.trap c1 a1 x1) pc1 => if c1 = c ∧ pc1 = pc then (a1, x1) else (0, none)
    | _ => (0, none)

/-- What a group's stop leaves of the run; `detail` tells what a trap reports of each bundle. -/
def State.stopRaster (s : State) (k : Nat) (elem : Bool) (x : Stopped) (detail : Nat → Dword × Option Origin) : State :=
  (match x with
   | .trap c a y => (s.keepBacking elem x).takeTrapWith c a y detail
   | _ => s.takeStop x).endRun k

/-- The details of a stop of a group that found `s`. -/
def State.stopDetail (s : State) (g : List Placed) (x : Stopped) (pc : Dword) (o : Nat) : Dword × Option Origin :=
  match x with
  | .trap c a y => s.trapDetail g c a y pc o
  | _ => (0, none)

/-- Issue one group of a core's run (06 R134). -/
noncomputable def State.issueRaster (s : State) (k : Nat) : Outcome State Fault Refusal :=
  match (s.core k).run with
  | none => .next s
  | some r =>
    let s1 := (s.standRaster r.members).heardRemote
    match s1.readRaster r.count with
    | .error (.fault f) => .fault f
    | .error (.stopped x) => .next ((s1.takeStop x).endRun k)
    | .ok (g, s2) =>
      let s3 := State.breakRaster g g s2
      if s3.cur.strands.isEmpty then .next (s3.endRun k)
      else
        let p := s3.rasterPoints g
        if p.1.cur.strands.isEmpty ∧ p.2.isNone then .next (p.1.endRun k)
        else
          match p.1.runGroup p.2 g with
          | .done t => .next (t.commitRaster k g)
          | .stop x pc =>
            .next (p.1.stopRaster k (g.any (fun y => y.pc == pc && elemInstr y.item.instr)) x (s3.stopDetail g x pc))
          | .fault f => .fault f
          | .refused e => .refused e

/-- Whether a cohort that is parked could go on: a trial of its group, which is then forgotten (01 R23). -/
noncomputable def State.couldIssue (s : State) (is : List Nat) : Bool :=
  let s1 := s.standRaster is
  match s1.readRaster 0 with
  | .error _ => true
  | .ok (g, s2) =>
    if s2.cur.strands.any (fun i => (s2.breakIn (s2.strand i).bpSkip g).isSome) then true
    else
      let p := s2.rasterPoints g
      match p.2 with
      | some (_, .stopped (.wait _)) => false
      | some _ => true
      | none =>
        match p.1.runGroup none g with
        | .stop (.wait _) _ => false
        | _ => !p.1.cur.strands.isEmpty

/-! ### A tile (18 R292-R296) -/

/-- Stand a tile's stream up for issue at an address. -/
def State.standTile (s : State) (t : Nat) (pc : Dword) (acr : Option Dword) : State :=
  { s with cur := ⟨.tile, s.tileCtx t, pc, pc, false, [t], [], false, acr⟩, last := none }

/-- Read the group at the head of the path. -/
noncomputable def State.readTile (s : State) (st : Stream) : Eff (List Placed × State) :=
  s.readGroup .tile st.seen (st.loops.map (fun (l : Loop) => l.last)) st.runCount groupFuel s.cur.gpc []

/-- The instructions of words that have been decoded before, from an address on. -/
noncomputable def placedFrom : Nat → Dword → List Word → List Placed
  | 0, _, _ => []
  | n + 1, a, ws =>
    match decodeWords .tile ws with
    | .ok (it, rest) =>
      let x : Placed := ⟨a, it, ws.take (if it.long then 2 else 1)⟩
      x :: placedFrom n x.next rest
    | .error _ => []

/-- A path group as its instructions. -/
noncomputable def PathGroup.items (g : PathGroup) : List Placed := placedFrom g.words.length g.pc g.words

/-- The words of a group. -/
def groupWords (g : List Placed) : List Word := (g.map (fun x => x.words)).flatten

/-- Count a group in the run its stream is in (01 R21). -/
def Stream.countRun (st : Stream) (g : List Placed) : Stream :=
  { st with runCount := if g.any (fun x => x.item.runEnd) then 0 else st.runCount + g.length }

/-- Where the path goes after a group that decides it, and a rotation step due when the innermost loop has turned (03 R67, 18
R297; log 112). -/
def Stream.pathOn (st : Stream) (z : Placed) : Stream :=
  let e := backEdge st.loops z.pc
  let turned := st.target.isNone && e.2.isSome && e.1.length == st.loops.length
  let st1 := if st.running then
      (match st.target with
        | some a => { st with head := some a, target := none }
        | none => { st with head := some (e.2.getD z.next), loops := e.1 })
    else st
  { st1 with rotDue := if turned then 1 else 0 }

/-- A group of the path has been issued by the access processor: it waits for nothing, and the breakpoint it holds is passed. -/
def Stream.issued (st : Stream) (g : List Placed) : Stream :=
  { st with wait := none, parked := [], anew := false, hidden := [], mark := none,
            bpSkip := match st.bpSkip with
              | some a => if g.any (fun x => x.pc == a) then none else some a
              | none => none }

/-- After the access half of a group at the head: the path goes on, and the group is queued for the execute processor. -/
def Stream.passHead (st : Stream) (g : List Placed) (z : Placed) (old : Option Dword) (pushed : Tbl Nat) (mark : Nat) : Stream :=
  let pg : PathGroup := ⟨(g.headD z).pc, groupWords g, st.rotDue, old, z.next, pushed, mark⟩
  (({ st.pathOn z with exq := st.exq ++ [pg] }).issued g).countRun g

/-- After the access half of a group that the execute processor has taken before: one that decides the path decides it now. -/
def Stream.passBehind (st : Stream) (g : List Placed) (z : Placed) : Stream :=
  let st1 := { st with acq := st.acq.drop 1 }
  (if st.head.isNone then st1.pathOn z else st1).issued g

/-- Groups before a SWRITE of ACR use the value it replaces (18 R293). -/
def Stream.keepAcr (st : Stream) (old : Dword) : Stream :=
  { st with exq := st.exq.map (fun (p : PathGroup) => if p.acr.isNone then { p with acr := some old } else p) }

/-- Entries a half has pushed to some queues, none of which it pops. -/
def State.pushedSince (s s0 : State) (t : Nat) (qs : List Nat) : Tbl Nat :=
  qs.foldl (fun (b : Tbl Nat) q => Tbl.put 0 b q ((s.queue t q).length - (s0.queue t q).length)) []

/-- The entries that groups pushed in all, by queue. -/
def pushedBy (gs : List PathGroup) : Tbl Nat :=
  (List.range 8).foldl (fun (b : Tbl Nat) q => Tbl.put 0 b q ((gs.map (fun (g : PathGroup) => Tbl.getD g.pushed q 0)).sum)) []

/-- A completed access half of a group that was found in `s0`. -/
def State.commitAccess (s s0 : State) (t : Nat) (g : List Placed) (fetched : Bool) : State :=
  match g.getLast? with
  | none => s.leave
  | some z =>
    let old := match (s.owner t).acrNext with
      | some _ => some (s.acr t)
      | none => none
    let s1 := match old with
      | some a => s.setStream t (fun (st : Stream) => st.keepAcr a)
      | none => s
    let s2 := s1.settleAcr t
    (s2.setStream t (fun (st : Stream) =>
      if fetched then st.passHead g z old (s.pushedSince s0 t [0, 1, 2, 3]) s0.nextCopy else st.passBehind g z)).leave

/-- Leave issue on a tile: nothing is hidden from the half that issues next. -/
def State.leaveTile (s : State) (t : Nat) : State :=
  (s.setStream t (fun (st : Stream) => { st with hidden := [], mark := none })).leave

/-- What stops a half: a trap of the stream, the end of the context, or a wait. -/
def State.stopTile (s : State) (t : Nat) (x : Stopped) : State := (s.takeStop x).leaveTile t

/-- The access half of a group. -/
def accessHalf (g : List Placed) : List Placed := g.filter (fun x => instrAccess x.item.instr)
def executeHalf (g : List Placed) : List Placed := g.filter (fun x => !instrAccess x.item.instr)

/-- Issue the access half of a group that has been read. -/
def State.runAccess (s : State) (t : Nat) (g : List Placed) (fetched : Bool) : Outcome State Fault Refusal :=
  let half := accessHalf g
  let p := s.allPoints half
  if p.1.cur.owners.isEmpty ∧ p.2.isNone then .next (p.1.leaveTile t)
  else
    match p.1.runGroup p.2 half with
    | .done u => .next (u.commitAccess s t g fetched)
    | .stop x _ => .next (p.1.stopTile t x)
    | .fault f => .fault f
    | .refused e => .refused e

/-- Issue a group whose execute half stops it at `pc`: what its access half meets before that word comes first, and otherwise no
instruction of the group takes effect (14 R256, 18 R298). -/
def State.runStopped (s : State) (t : Nat) (g : List Placed) (x : Stopped) (pc : Dword) : Outcome State Fault Refusal :=
  let half := accessHalf g
  let early := half.filter (fun y => decide (y.pc.toNat < pc.toNat))
  let p := s.allPoints half
  if p.1.cur.owners.isEmpty ∧ p.2.isNone then .next (p.1.leaveTile t)
  else
    let e := p.2.filter (fun y => decide (y.1 < early.length) || (match y.2 with
      | .stopped (.wait _) => true
      | _ => false))
    match p.1.runGroup e early with
    | .done _ => .next (p.1.stopTile t x)
    | .stop y _ => .next (p.1.stopTile t y)
    | .fault f => .fault f
    | .refused r => .refused r

/-! ### The execute processor -/

/-- Rotation steps due before a group. -/
def Stream.rotate (st : Stream) (n : Nat) : Stream := { st with shape := n.repeat rotateShape st.shape }

/-- Take a group: the count advances, results due land, rotation steps apply, and its execute half issues (18 R295). -/
def State.tryExecute (s : State) (t : Nat) (pc : Dword) (g : List Placed) (rot : Nat) (acr : Option Dword) : Ran :=
  let s1 := ((s.tick t).setStream t (fun (st : Stream) => st.rotate rot)).standTile t pc acr
  ({ s1 with cur := { s1.cur with cleared := true } }).runItems (executeHalf g)

/-- A completed execute half: a VSHAPE applies from the next group (16 R288). -/
def State.commitExecute (s : State) (t : Nat) : State :=
  (s.setStream t (fun (st : Stream) =>
    { st with shape := st.shapeNext.getD st.shape, shapeNext := none, hidden := [], mark := none })).leave

/-- The state in which the execute processor takes the next group that the access processor has passed: pushes of that group and of
later ones, and their copies, are not there for it (01 R20). -/
def State.beforeNext (s : State) (t : Nat) : State :=
  s.setStream t (fun (st : Stream) =>
    { st with exq := st.exq.drop 1, hidden := pushedBy st.exq, mark := (st.exq.head?).map (fun (p : PathGroup) => p.mark) })

/-- A tile on which nothing would hold the execute processor back but a pop of an empty queue. -/
def State.unstalled (s : State) (t : Nat) : State :=
  let x := s.tile t
  ({ s with copies := [] }).setTile t
    { x with mats := ((x.mats.filter (fun (m : MatEntry) => isMfree m.instr)).take 1).map (fun (m : MatEntry) => { m with te := false }),
             slavedTo := none,
             stream := x.stream.map (fun (st : Stream) => { st with queues := st.queues.filter (fun e => decide (e.1 < 4)) }) }

/-- The state the execute processor reaches after the groups it has yet to take, where nothing but its own pops can stop it; none
where one of them stops. -/
noncomputable def State.throughQueue (t : Nat) : List PathGroup → State → Option State
  | [], s => some (s.unstalled t)
  | p :: rest, s =>
    match (((s.unstalled t).beforeNext t).tryExecute t p.pc p.items p.rot p.acr) with
    | .done u => State.throughQueue t rest (u.commitExecute t)
    | _ => none

/-- What stops the execute half of the group at the head when its turn comes: a trap, and the word it stands at. -/
noncomputable def State.executeStop (s : State) (t : Nat) (st : Stream) (a : Dword) (g : List Placed) : Option (Stopped × Dword) :=
  if (executeHalf g).isEmpty then none
  else
    match State.throughQueue t st.exq s with
    | none => none
    | some u =>
      match u.tryExecute t a g st.rotDue none with
      | .stop (.trap c b x) pc => some (.trap c b x, pc)
      | _ => none

/-! ### Issue on a tile -/

/-- A stream that may issue. -/
def Stream.free (st : Stream) : Bool := !st.halted && !st.saved

/-- Issue an access half: of the next group the execute processor has passed, else of the group at the head. There a group whose
execute half will trap waits until the execute processor has taken every earlier one, and is then stopped whole (18 R298; log
79). -/
noncomputable def State.issueAccess (s : State) (t : Nat) : Outcome State Fault Refusal :=
  match (s.tile t).stream with
  | none => .next s
  | some st =>
    if !st.free then .next s
    else
      match st.acq, st.head with
      | p :: _, _ =>
        ((s.setStream t (fun (x : Stream) => { x with hidden := pushedBy x.acq })).standTile t p.pc none).runAccess t p.items false
      | [], none => .next s
      | [], some a =>
        let s1 := s.standTile t a none
        match s1.readTile st with
        | .error (.fault f) => .fault f
        | .error (.stopped x) => .next (s1.stopTile t x)
        | .ok (g, s2) =>
          match s2.breakIn st.bpSkip g with
          | some (x, n, code) => .next (({ s2 with cur := { s2.cur with pc := x.pc } }).breakTrap code n).leave
          | none =>
            match s2.executeStop t st a g with
            | none => s2.runAccess t g true
            | some (x, pc) => if st.exq.isEmpty then s2.runStopped t g x pc else .next s

/-- Instructions that decide the path: beyond one of them the execute processor takes no group until the access processor has issued
it (18 R293). -/
def decidesPath (i : Instr) : Bool :=
  match i with
  | .bra .. | .brac .. | .brx .. | .call .. | .ret .. | .loop .. | .loopi .. => true
  | _ => false

/-- A group beyond which the execute processor waits for the access processor: its SWRITE changes ACR, or later groups are fetched
after its FENCE.I (03 R77, 18 R293). -/
def holdsNext (i : Instr) : Bool :=
  match i with
  | .swrite reg _ => reg == 0
  | .fenceI => true
  | _ => false

/-- The group at the head, where the execute processor may take it before its access half has issued. -/
noncomputable def State.aheadGroup (s : State) (t : Nat) (st : Stream) : Option (List Placed × Placed × State) :=
  match st.head with
  | none => none
  | some a =>
    let s1 := s.standTile t a none
    match s1.readTile st with
    | .error _ => none
    | .ok (g, s2) =>
      match g.getLast? with
      | none => none
      | some z =>
        if g.any (fun x => drains x.item.instr) || (s2.breakIn st.bpSkip g).isSome ||
            st.acq.any (fun (p : PathGroup) => p.items.any (fun x => holdsNext x.item.instr)) then none
        else some (g, z, s2)

/-- The stream with the group at its head taken by the execute processor; where the group decides the path, the head is not known
until the access processor has issued it. -/
def Stream.takeAhead (st : Stream) (g : List Placed) (z : Placed) : Stream :=
  let decides := g.any (fun x => decidesPath x.item.instr) || st.loops.any (fun (l : Loop) => l.last == z.pc)
  let pg : PathGroup := ⟨(g.headD z).pc, groupWords g, st.rotDue, none, z.next, [], 0⟩
  ({ st with acq := st.acq ++ [pg], rotDue := 0, head := if decides then none else some z.next }).countRun g

/-- The group taken ahead is marked with the cycle it was taken in, and with what it pushed. -/
def Stream.markAhead (st : Stream) (pushed : Tbl Nat) : Stream :=
  { st with acq := st.acq.dropLast ++ (st.acq.getLast?.toList.map (fun (p : PathGroup) => { p with pushed := pushed, mark := st.cycle })) }

/-- Issue an execute half: of the next group the access processor has passed, else of the group at the head. Where it meets a stall
the cycle is frozen and nothing has changed (18 R295); a trap of the group at the head is left to the access processor, which stops
the group whole. -/
noncomputable def State.issueExecute (s : State) (t : Nat) : Outcome State Fault Refusal :=
  match (s.tile t).stream with
  | none => .next s
  | some st =>
    if !st.free then .next s
    else
      match st.exq with
      | p :: _ =>
        match (s.beforeNext t).tryExecute t p.pc p.items p.rot p.acr with
        | .done v => .next (v.commitExecute t)
        | .stop (.wait _) _ => .next s
        | .stop x _ => .next ((s.standTile t p.pc p.acr).stopTile t x)
        | .fault f => .fault f
        | .refused e => .refused e
      | [] =>
        match s.aheadGroup t st with
        | none => .next s
        | some (g, z, s1) =>
          match (s1.setStream t (fun (x : Stream) => x.takeAhead g z)).tryExecute t (g.headD z).pc g st.rotDue none with
          | .done v => .next ((v.setStream t (fun (x : Stream) => x.markAhead (v.pushedSince s t [4, 5, 6, 7]))).commitExecute t)
          | .stop .. => .next s
          | .fault f => .fault f
          | .refused e => .refused e

end Sys2Proof.Machine
end

