-- ==== Sys2Proof/Machine/Due.lean ====
section
/-! DEFINITION. What can happen next when the outside asks for nothing: parked cohorts found able to go on (01 R23), the events that
are due, and the agents that can issue (log 3). -/

namespace Sys2Proof.Machine

open Host (Outcome)

/-! ### Parked cohorts (01 R23, 07 R155) -/

/-- Note of a parked cohort whether it can go on: it is ready from the arbitration that finds it so, its wait count then zero (07
R159). -/
noncomputable def State.wakeCohort (s : State) (k : Nat) (c : Cohort) : State :=
  if c.strands.any (fun i => (s.strand i).stat == .ready) then s
  else
    let ok := s.couldIssue c.strands
    let arb := (s.core k).arb + 1
    c.strands.foldl (fun (t : State) i =>
      let x := t.strand i
      if ok && x.since != 0 then t else t.setStrand i { x with since := if ok then arb else 0, waitCount := 0, stamp := none }) s

/-- Look at every parked cohort of a core; the active set follows what wakes. -/
noncomputable def State.wakeCore (s : State) (k : Nat) : State :=
  ((s.cohorts k).foldl (fun (u : State) c => u.wakeCohort k c) s).recompute k

/-! ### Units that can act (23 R363, 27 R399) -/

/-- A die that is not held in reset: one whose reset is under way still runs what has not been saved. -/
def State.dieLive (s : State) (d : Nat) : Bool :=
  s.boot == .running && (match s.die d with
    | .running => true
    | .resetting _ => true
    | _ => false)

def State.coreLive (s : State) (k : Nat) : Bool := s.dieLive (k / 48) && s.railsGood (k / 48) (coreIsland k)
def State.tileLive (s : State) (t : Nat) : Bool := s.dieLive (3 + t / 96) && s.railsGood (3 + t / 96) (tileIsland t)

/-- Islands without cores or tiles: the front end of a raster die, the skidders of a tensor die, and H's own (27 R397; log 58). -/
def State.frontLive (s : State) (d : Nat) : Bool := s.dieLive d && s.railsGood d (8 * d + 6)
def State.skidderLive (s : State) (k : Nat) : Bool :=
  if k < 12 then s.railsGood (k / 4) (8 * (k / 4) + 7)
  else if k < 24 then s.railsGood (k / 4) (24 + 12 * (k / 4 - 3) + 10)
  else s.railsGood 6 61
def State.hubLive (s : State) : Bool := s.railsGood 6 61

/-- The cores and tiles that hold anything, and can act. -/
def State.liveCores (s : State) : List Nat := (Tbl.keys s.cores).filter s.coreLive
def State.liveTiles (s : State) : List Nat := (Tbl.keys s.tiles).filter s.tileLive

/-! ### Events that may be due -/

/-- Events of the hub. -/
noncomputable def State.hubEvents (s : State) : List Instr :=
  (s.ctxs.map (fun e => (Tbl.keys e.2.queues).map (fun q => Instr.launchDispatch e.1 q)
      ++ (Tbl.keys e.2.nodes).map (fun n => Instr.batchTimeout e.1 n)
      ++ e.2.shadows.map (fun x => Instr.publishSwap e.1 (BitVec.ofNat 64 x.base)))).flatten
    ++ [.crewPlacement, .tileSetPlacement]
    ++ (s.crews.map (fun e => [Instr.crewStart e.1, .saveCommit e.1, .crewRestore e.1] ++
        (Tbl.keys e.2.flumes).map (fun f => Instr.flumeStep e.1 f))).flatten
    ++ (Tbl.keys s.bundles).map (fun b => Instr.bundleEnd b)
    ++ (Tbl.keys s.launches).map (fun l => Instr.launchCompletion l)
    ++ (Tbl.keys s.launches).map (fun l => Instr.fragmentMerge l)
    ++ (match s.firstUnits.findSome? s.evictionFor with
      | some (k, cs) => [Instr.preemptionRequest k cs]
      | none => [])
    ++ (match s.shoot with
      | some (_, _, _, us) => us.map (fun u => Instr.shootDownAcknowledge u)
      | none => [])
    ++ (match s.command with
      | .dieReset d _ => [Instr.computeReset d 0, .dieResetTimeLimit d]
      | _ => [])

/-- Events of copies and links. -/
noncomputable def State.copyEvents (s : State) : List Instr :=
  ((s.copies.filter (fun e => s.skidderLive e.2.skidder)).map (fun e => Instr.copyCompletion e.1 :: (List.range e.2.units).map (fun u => Instr.copyUnitTransfer e.1 u)
      ++ (match e.2.kind with
        | .shares _ => (List.range e.2.parts.length).map (fun k => Instr.multicastShareWritten e.1 k)
        | .linkSend .. => [Instr.copyUnitTransfer e.1 0]
        | _ => []))).flatten
    ++ (s.ports.map (fun p => (Tbl.keys p.2.streams).map (fun st => Instr.linkRetransmitTimeout p.1 st))).flatten

/-- Events of groves and deadlines. -/
noncomputable def State.waitEvents (s : State) : List Instr :=
  (s.groves.map (fun g => ((List.range 4).map (fun n => [Instr.groveBarrierDoneMessage g.1 n false, .groveBarrierDoneMessage g.1 n true])).flatten)).flatten
    ++ s.strands.filterMap (fun e => match e.2.stat with
      | .parked (.deadline _) => some (Instr.waittDeadline (strandBundle e.1) (strandIndex e.1))
      | .stopped (some (.deadline _)) => some (Instr.waittDeadline (strandBundle e.1) (strandIndex e.1))
      | _ => none)
    ++ s.tiles.filterMap (fun e => match e.2.stream with
      | some st => (match st.wait with
        | some (.deadline _) => some (Instr.waittDeadline e.1 0)
        | _ => none)
      | none => none)

/-- Events of a raster core. The hold of YIELD expires where nothing else is ready. -/
noncomputable def State.coreEvents (s : State) (k : Nat) : List Instr :=
  [.activeSetRecompute k, .runArbitration k, .saveSlotDrain k, .splitDrainComplete k, .millStep k, .millDrainTimeLimit k]
    ++ (if (s.eligible k).isEmpty then [Instr.yieldHoldExpiry k] else [])
    ++ ((s.resident k).map (fun e => (e.2.bundles.map (fun b => [Instr.leaseWindowEnd b, .millReload k b])).flatten)).flatten

/-- Events of a raster die's front end and channel. -/
noncomputable def dieEvents (d : Nat) : List Instr := [.meshRasterise d, .pixelBundleStart d, .guideTileSend d]

/-- Events of a tile. -/
noncomputable def State.tileEvents (s : State) (t : Nat) : List Instr :=
  [.matRetire t, .matrixSelfTest t 0, .mpairSlave t, .scaleLatchDelivery t, .feedBlockWrite t, .taskSequencerPartStart t,
   .loopRecordDoneSignal t, .tilePreemptionSave t]
    ++ (s.copies.map (fun e => match e.2.kind with
      | .fills ls => ls.map (fun l => Instr.regionFillCompletion t l)
      | _ => [])).flatten
    ++ (if s.landingDue t then [Instr.executeResultLanding t] else [])

/-- Every event that may be due. -/
noncomputable def State.mayHappen (s : State) : List Instr :=
  if s.boot == .running then
    (if s.hubLive then s.hubEvents else []) ++ s.copyEvents ++ s.waitEvents ++ (s.liveCores.map s.coreEvents).flatten
      ++ (((List.range 3).filter s.frontLive).map dieEvents).flatten ++ (s.liveTiles.map s.tileEvents).flatten
  else []

/-! ### What is due -/

/-- An outcome that is not the state again. -/
def State.moves (s : State) (r : Outcome State Fault Refusal) : Bool :=
  match r with
  | .next t => decide (t ≠ s)
  | _ => true

/-- What can happen next. -/
inductive Action where
  | event (i : Instr)
  | agent (a : Agent)
deriving DecidableEq, Repr

/-- Agents that can issue. -/
noncomputable def State.agents (s : State) : List Agent :=
  (s.liveCores.filter (fun k => (s.core k).run.isSome)).map Agent.raster
    ++ (s.liveTiles.filter (fun t => s.moves (s.issueAccess t))).map Agent.access
    ++ (s.liveTiles.filter (fun t => s.moves (s.issueExecute t))).map Agent.execute

/-- Everything due: events that change something, and agents. -/
noncomputable def State.due (s : State) : List Action :=
  ((s.mayHappen.filter (fun i => s.moves (exec i s))).map Action.event) ++ s.agents.map Action.agent

/-- One group of an agent. -/
noncomputable def State.issueAgent (s : State) (a : Agent) : Outcome State Fault Refusal :=
  match a with
  | .none => .next s
  | .raster k => s.issueRaster k
  | .access t => s.issueAccess t
  | .execute t => s.issueExecute t

/-- A core's cache part may evict a line at any time: the line enters the core's victim tags, of which the oldest of 1,024 makes
room (07 R154). When, and which line, is open (log 22). -/
noncomputable def State.evictLine (s : State) : State :=
  let f := s.free
  let g := f.2.free
  let ks := s.liveCores
  match (if f.1.getLsbD 0 then ks[f.1.toNat / 2 % ks.length]? else none) with
  | none => g.2
  | some k =>
    let line := g.1.toNat % 2 ^ 45
    let vs := (g.2.core k).victims.filter (fun l => l != line) ++ [line]
    g.2.setCore k { g.2.core k with victims := vs.drop (vs.length - 1024) }

/-- One of the actions due, by a free choice (log 2); none leaves the machine as it stands. -/
noncomputable def State.chooseNext (s : State) : Outcome State Fault Refusal :=
  let s1 := s.liveCores.foldl State.wakeCore s
  let l := s1.due
  let f := s1.free
  match l[f.1.toNat % l.length]? with
  | none => .next s
  | some (.event i) => exec i f.2.evictLine
  | some (.agent a) => .next { f.2.evictLine with focus := a }

end Sys2Proof.Machine
end

