-- ==== Sys2Proof/Machine/Load.lean ====
section
/-! DEFINITION. Placing one instruction where the next step issues it: the load that brings a program into the machine, cut down to
one group (log 3). -/

namespace Sys2Proof.Machine

/-- Where the placed program stands: tables of the four levels, then the code's frame. Its virtual address is 0. -/
def loadTables : Nat := 0x0000
def loadCode : Nat := 0x10000

/-- E0 of a table entry that names the next table, and of a 64 KiB leaf that can be read, written and executed (15 R258). -/
def tableE0 (next : Nat) : Nat := next + 1
def leafE0 (frame : Nat) : Nat := frame * 65536 + 0x1F

/-- Bytes of words. -/
def wordBytes (ws : List Word) : List Byte := (ws.map (fun w => [w.extractLsb' 0 8, w.extractLsb' 8 8, w.extractLsb' 16 8, w.extractLsb' 24 8])).flatten

/-- Bytes of dwords given as numbers. -/
def entryBytes (e0 : Nat) : List Byte :=
  wordBytes [BitVec.ofNat 32 e0, BitVec.ofNat 32 (e0 / 2 ^ 32), 0, 0]

/-- An instruction that may follow in the same group and ends it (01 R19): a word that does nothing. -/
def groupTail (p : Profile) (w : Word) : List Word :=
  if w.getLsbD 31 then []
  else match p with
    | .raster => if wordClass w == 2 || wordClass w == 5 || wordClass w == 7 then [0x80000000] else [0xA9100000]
    | .tile => if wordClass w == 0 then [0x88000000] else [0x80000000]

/-- Memory with the tables and the code; what marks or older words stood there is gone. -/
def State.placeCode (s : State) (ws : List Word) : State :=
  let code := wordBytes ws
  let s1 := ((((s.writeBytes loadTables (entryBytes (tableE0 0x4000))).writeBytes 0x4000 (entryBytes (tableE0 0x8000))).writeBytes
    0x8000 (entryBytes (tableE0 0xC000))).writeBytes 0xC000 (entryBytes (leafE0 1))).writeBytes loadCode code
  let here (a : Nat) : Bool := [0x0000, 0x4000, 0x8000, 0xC000].contains a || (decide (loadCode ≤ a) && decide (a < loadCode + code.length))
  { s1 with stale := s1.stale.filter (fun e => !here e.1), oldMaps := s1.oldMaps.filter (fun e => !here e.1), marked := s1.marked.filter (fun u => !here (16 * u)) }

/-- The header of the placed launch: entry 0, one strand, or one tile. -/
def loadHeader (p : Profile) : List Dword :=
  match p with
  | .raster => [0, 0, 0, 0x0000400000000001, 0, 0, 0x0000FFFF0000FFFF, 0]
  | .tile => [0, 0, 0x70000, 0x0000440000000000, 0, 0, 0x0000FFFF0000FFFF, 0]

/-- Context 0 live, with one launch of it running; the package runs, and nothing else is asked for. -/
def State.placeLaunch (s : State) (p : Profile) : State :=
  let c := s.ctx 0
  let l : Launch :=
    { ctx := 0, seq := 1, hdr := loadHeader p, origin := .hostRing 0 0, phase := .running, nextCrew := 1, crewCount := 1,
      endedCrews := 0, plan := [], book := [], tiles := (match p with
        | .raster => []
        | .tile => [0]), endedTiles := [], frags := [], meshes := 0,
      ordinals := [], replay := none, batch := [], trapSeq := 0, begun := none }
  { (s.setCtx 0 { c with live := true, root := 0, dbgctl := 0 }).setLaunch 0 l with
      boot := .running, dies := [], inbox := [], cur := .idle, last := none }

/-- One crew of one bundle of one strand on core 0, its run granted. -/
def State.placeRaster (s : State) : State :=
  let b := 288
  let i := strandKey b 0
  let crew : Crew :=
    { launch := 0, index := 0, grove := none, core := some 0, saved := false, started := true, ended := false, seq := 0, bundles := [b],
      scratch := [], absent := [], marked := [], heldSignals := [], bars := [], flumes := [], mill := none, records := [], meshes := [],
      stopping := false }
  let bundle : Bundle :=
    { crew := 0, index := 0, f1 := 0, slot := 0, rot := 0, declared := none, est := 64, touched := [], copyOrd := 0, meshOrd := 0,
      mesh := [], raster := none, rasterRec := none, exited := false }
  let s1 := ((s.setCrew 0 crew).setBundle b bundle).setOwner b Owner.fresh
  let s2 := s1.setStrand i { Strand.fresh 0 with born := s.epoch }
  { s2.setCore 0 { CoreState.idle with run := some ⟨[i], 0, 0⟩, active := [0], nextSeq := 1 } with
      stays := Tbl.insert s2.stays 0 ⟨0, some 0, [], [], none⟩, nextBundle := max s.nextBundle (b + 1), focus := .raster 0 }

/-- A stream on tile 0, standing at its entry; the processor that takes the word's class has the focus. -/
def State.placeTile (s : State) (w : Word) : State :=
  let st := { Stream.fresh 0 0 .plain s.epoch with running := true, head := some 0 }
  let s1 := (s.setTile 0 { Tile.reset with owner := some 0, stream := some st }).setOwner 0 Owner.fresh
  { s1 with focus := if wordClass w == 3 || wordClass w == 4 then .execute 0 else .access 0 }

/-- The state with the words of an instruction placed: the next step issues them as a group. -/
def State.place (s : State) (ws : List Word) : State :=
  let w := ws.headD 0
  let p := wordProfile w
  let s1 := (s.placeCode ((if wordLong w then ws.take 2 else ws.take 1) ++ groupTail p w)).placeLaunch p
  match p with
  | .raster => s1.placeRaster
  | .tile => s1.placeTile w

end Sys2Proof.Machine
end

