-- ==== Sys2Proof/Machine/Step.lean ====
section
/-! DEFINITION. One step of the package, and placing an instruction where the next step issues it (log 3). -/

namespace Sys2Proof.Machine

/-- One step: the first event that the outside has asked for; else one group of the agent that has the focus; else one of the
actions due. -/
noncomputable def step (s : State) : Host.Outcome State Fault Refusal :=
  match s.inbox with
  | i :: rest => exec i { s with inbox := rest }
  | [] =>
    match s.focus with
    | .none => s.chooseNext
    | a => { s with focus := .none }.issueAgent a

/-- The state with an instruction stored where the next step fetches it (log 3): see `State.place`. -/
noncomputable def State.withFetchWord (s : State) (nbits w : Nat) : State := s.place (tableWords nbits w)

end Sys2Proof.Machine
end

