-- ==== Sys2Proof/Safety.lean ====
section
/-! DEFINITION. What claims about runs are stated in: the canonical form of memory, the invariant that every step keeps, a run
that does not stop, and the frames: what an instruction of each shape leaves as it was. -/

namespace Sys2Proof.Machine

/-- The canonical form of memory: addresses strictly rising, and no byte listed that an unlisted address reads as (log 1). -/
abbrev Memory.wf (m : Tbl Byte) : Prop := Tbl.canonical (0 : Byte) m = true

/-- What every step keeps: memory is in its canonical form, and so are the tags of its granules (15 R257). -/
structure State.Inv (s : State) : Prop where
  mem : Memory.wf s.mem
  tags : Tbl.canonical (0 : BitVec 4) s.tags = true

/-- A step from the state stops on no fault: no access it makes reaches an address at which no memory stands (25 R374). -/
def State.Safe (s : State) : Prop := ∀ f, step s ≠ .fault f

/-- A run of n steps that ends in a state. -/
def Runs (n : Nat) (s t : State) : Prop :=
  match n with
  | 0 => s = t
  | k + 1 => ∃ u, step s = .next u ∧ Runs k u t

/-! ### Frames -/

/-- Between s and t at most s(d) of the owners `os` differs: every other register, flag and special register, all the rest of
the state, and every byte of memory are as they were. -/
structure ScalarFrame (s t : State) (os : List Nat) (d : BitVec 6) : Prop where
  rest : t = { s with owners := t.owners }
  owner : ∀ o, t.owner o = { s.owner o with s := (t.owner o).s }
  reg : ∀ o r, ¬(o ∈ os ∧ r = d) → t.getS o r = s.getS o r
  byte : ∀ a, t.byte a = s.byte a

/-- Between s and t at most the lane registers of `is` whose numbers satisfy `ns` differ. -/
structure LaneFrame (s t : State) (is : List Nat) (ns : Nat → Prop) : Prop where
  rest : t = { s with strands := t.strands }
  strand : ∀ i, t.strand i = { s.strand i with v := (t.strand i).v }
  reg : ∀ i n, ¬(i ∈ is ∧ ns n) → t.getV i n = s.getV i n
  byte : ∀ a, t.byte a = s.byte a

/-- Between s and t at most the predicate p(n) of the strands `is` differs. -/
structure PredFrame (s t : State) (is : List Nat) (n : Nat) : Prop where
  rest : t = { s with strands := t.strands }
  strand : ∀ i, t.strand i = { s.strand i with p := (t.strand i).p }
  pred : ∀ i m, m < 8 → ¬(i ∈ is ∧ m = n) → t.getP i m = s.getP i m
  byte : ∀ a, t.byte a = s.byte a

/-- Between s and t at most v(d) of the strands `is` and the sticky flags of their bundles differ; a bundle's ACR gains the
flags `fl` and nothing else (02 R40). -/
structure FloatFrame (s t : State) (is : List Nat) (d : Nat) (fl : Nat → FFlags) : Prop where
  rest : t = { s with strands := t.strands, owners := t.owners }
  strand : ∀ i, t.strand i = { s.strand i with v := (t.strand i).v }
  reg : ∀ i n, ¬(i ∈ is ∧ n = d) → t.getV i n = s.getV i n
  owner : ∀ o, t.owner o = { s.owner o with
    acr := (s.owner o).acr ||| BitVec.ofNat 64 (fl o).toNat,
    acrNext := (s.owner o).acrNext.map (fun x => x ||| BitVec.ofNat 64 (fl o).toNat) }
  byte : ∀ a, t.byte a = s.byte a

/-- The flags that the strands of a bundle raise together. -/
def flagsOf (is : List Nat) (f : Nat → FFlags) (o : Nat) : FFlags :=
  is.foldl (fun x i => if strandBundle i = o then x.or (f i) else x) FFlags.none

end Sys2Proof.Machine
end

