-- ==== Sys2Proof/Certificates/Slice0/Obligations.lean ====
section
/-! DEFINITION. The statements for the provers. Each says which rule of the spec it formalises; what a statement takes from a
choice of the model's own, it names with its log entry. -/

namespace Sys2Proof.Claims

end Sys2Proof.Claims

section Statements

open Sys2Proof Sys2Proof.Machine Sys2Proof.Claims

namespace Sys2Proof.Claims

/-! ### Scalar instructions (03 R57-R60) -/

/-- The scalar instructions that compute s(d) from an immediate alone. -/
def scalarNone (d : BitVec 6) (imm : BitVec 32) : List (Instr × Dword) := [(.movi d imm, imm.signExtend 64)]

/-- The scalar instructions that compute s(d) from s(a): what each computes. -/
def scalarOne (d a : BitVec 6) (imm : BitVec 32) : List (Instr × (Dword → Dword)) :=
  [(.addi d a imm, fun x => x + imm.signExtend 64),
   (.andi d a imm, fun x => x &&& imm.signExtend 64),
   (.ori d a imm, fun x => x ||| imm.signExtend 64),
   (.xori d a imm, fun x => x ^^^ imm.signExtend 64),
   (.abs d a, fun x => BitVec.ofInt 64 (x.toInt.natAbs)),
   (.neg d a, fun x => -x),
   (.mov d a, fun x => x),
   (.movh d a imm, fun x => imm ++ x.extractLsb' 0 32),
   (.popc d a, fun x => BitVec.ofNat 64 ((List.range 64).countP (fun i => x.getLsbD i))),
   (.clz d a, fun x => BitVec.ofNat 64 (((List.range 64).find? (fun i => x.getMsbD i)).getD 64)),
   (.ctz d a, fun x => BitVec.ofNat 64 (((List.range 64).find? (fun i => x.getLsbD i)).getD 64)),
   (.brev d a, fun x => x.reverse)]

/-- The distance or bit position b[5:0]. -/
def low6 (y : Dword) : Nat := y.toNat % 64
/-- The width b[11:6] + 1 of a scalar bit field (03 R60). -/
def widthOf (y : Dword) : Nat := y.toNat / 64 % 64 + 1

/-- A signed or unsigned value confined to the 64-bit range of its type (03 R57, ADDS and SUBS). -/
def confined (lo hi x : Int) : Dword := BitVec.ofInt 64 (if x < lo then lo else if hi < x then hi else x)

/-- The scalar instructions that compute s(d) from s(a) and s(b). -/
def scalarTwo (d a b : BitVec 6) : List (Instr × (Dword → Dword → Dword)) :=
  [(.add d a b, fun x y => x + y),
   (.sub d a b, fun x y => x - y),
   (.mul d a b, fun x y => x * y),
   (.mulhI d a b, fun x y => BitVec.ofInt 64 (x.toInt * y.toInt / 2 ^ 64)),
   (.mulhN d a b, fun x y => BitVec.ofNat 64 (x.toNat * y.toNat / 2 ^ 64)),
   (.divI d a b, fun x y => if y = 0 then BitVec.allOnes 64 else BitVec.ofInt 64 (x.toInt.tdiv y.toInt)),
   (.divN d a b, fun x y => if y = 0 then BitVec.allOnes 64 else BitVec.ofNat 64 (x.toNat / y.toNat)),
   (.remI d a b, fun x y => BitVec.ofInt 64 (x.toInt.tmod y.toInt)),
   (.remN d a b, fun x y => BitVec.ofNat 64 (x.toNat % y.toNat)),
   (.and d a b, fun x y => x &&& y),
   (.or d a b, fun x y => x ||| y),
   (.xor d a b, fun x y => x ^^^ y),
   (.shl d a b, fun x y => x <<< low6 y),
   (.shrI d a b, fun x y => BitVec.ofInt 64 (x.toInt / 2 ^ low6 y)),
   (.shrN d a b, fun x y => BitVec.ofNat 64 (x.toNat / 2 ^ low6 y)),
   (.rot d a b, fun x y => (x >>> low6 y) ||| (x <<< (64 - low6 y))),
   (.minI d a b, fun x y => if x.toInt < y.toInt then x else y),
   (.minN d a b, fun x y => if x.toNat < y.toNat then x else y),
   (.maxI d a b, fun x y => if y.toInt < x.toInt then x else y),
   (.maxN d a b, fun x y => if y.toNat < x.toNat then x else y),
   (.cmp d a b false, fun x y => if x.toInt < y.toInt then BitVec.allOnes 64 else if x = y then 0 else 1),
   (.cmp d a b true, fun x y => if x.toNat < y.toNat then BitVec.allOnes 64 else if x = y then 0 else 1),
   (.lea d a b false, fun x y =>
      BitVec.ofNat 64 (x.toNat / 2 ^ 56 * 2 ^ 56 + (x.toNat % 2 ^ 56 + y.toNat % 2 ^ 56) % 2 ^ 56)),
   (.lea d a b true, fun x y =>
      BitVec.ofNat 64 (x.toNat / 2 ^ 56 * 2 ^ 56 + (x.toNat % 2 ^ 56 + 2 ^ 56 - y.toNat % 2 ^ 56) % 2 ^ 56)),
   (.bfxI d a b, fun x y => BitVec.ofInt 64 (Int.bmod (x.toNat / 2 ^ low6 y) (2 ^ widthOf y))),
   (.bfxN d a b, fun x y => BitVec.ofNat 64 (x.toNat / 2 ^ low6 y % 2 ^ widthOf y)),
   (.addsI d a b, fun x y => confined (-2 ^ 63) (2 ^ 63 - 1) (x.toInt + y.toInt)),
   (.addsN d a b, fun x y => confined 0 (2 ^ 64 - 1) (x.toNat + y.toNat)),
   (.subsI d a b, fun x y => confined (-2 ^ 63) (2 ^ 63 - 1) (x.toInt - y.toInt)),
   (.subsN d a b, fun x y => confined 0 (2 ^ 64 - 1) (x.toNat - y.toNat))]

/-- Bits lo to lo + width - 1 of z replaced by the low bits of x; positions above 63 do not exist (03 R60). -/
def inserted (z x : Dword) (lo width : Nat) : Dword :=
  BitVec.ofFnLE (fun (i : Fin 64) => if lo ≤ i.val ∧ i.val < lo + width then x.getLsbD (i.val - lo) else z.getLsbD i.val)

/-- The scalar instructions that compute s(d) from s(a), s(b) and the old s(d). -/
def scalarThree (d a b : BitVec 6) : List (Instr × (Dword → Dword → Dword → Dword)) :=
  [(.sel d a b, fun x y z => if z = 0 then y else x),
   (.bfi d a b, fun x y z => inserted z x (low6 y) (widthOf y)),
   (.mad d a b, fun x y z => z + x * y)]

end Sys2Proof.Claims

/-- Every scalar instruction of 03 R57-R60 completes in every state: in each complete bundle of the group, or once for the
stream (R54), s(d) receives the value the rule gives of the registers as the instruction found them, poison of a source passes
on with the first poisoned source's origin in the order a, b, d (R55), a write to s0 is discarded (R56), and nothing else
changes: no other register, flag, special register or byte of memory. -/
def Obligations.ScalarArithmetic : Prop :=
  ∀ (s : State) (d a b : BitVec 6) (imm : BitVec 32), s.cur.owners.Nodup →
    (∀ p ∈ scalarNone d imm, ∃ t, exec p.1 s = .next t ∧
      (∀ o ∈ s.cur.owners, t.getS o d = if d = 0 then .zero 64 else ⟨p.2, none⟩) ∧
      ScalarFrame s t s.cur.owners d) ∧
    (∀ p ∈ scalarOne d a imm, ∃ t, exec p.1 s = .next t ∧
      (∀ o ∈ s.cur.owners, t.getS o d = if d = 0 then .zero 64 else
        match (s.getS o a).poison with
        | some k => ⟨0, some k⟩
        | none => ⟨p.2 (s.getS o a).val, none⟩) ∧
      ScalarFrame s t s.cur.owners d) ∧
    (∀ p ∈ scalarTwo d a b, ∃ t, exec p.1 s = .next t ∧
      (∀ o ∈ s.cur.owners, t.getS o d = if d = 0 then .zero 64 else
        match (s.getS o a).poison.or (s.getS o b).poison with
        | some k => ⟨0, some k⟩
        | none => ⟨p.2 (s.getS o a).val (s.getS o b).val, none⟩) ∧
      ScalarFrame s t s.cur.owners d) ∧
    (∀ p ∈ scalarThree d a b, ∃ t, exec p.1 s = .next t ∧
      (∀ o ∈ s.cur.owners, t.getS o d = if d = 0 then .zero 64 else
        match ((s.getS o a).poison.or (s.getS o b).poison).or (s.getS o d).poison with
        | some k => ⟨0, some k⟩
        | none => ⟨p.2 (s.getS o a).val (s.getS o b).val (s.getS o d).val, none⟩) ∧
      ScalarFrame s t s.cur.owners d)
namespace Sys2Proof.Claims

/-! ### Integer lane instructions (04 R95) -/

/-- The shift distance b[4:0] and the field width b[9:5] + 1 of the lane instructions. -/
def low5 (y : Word) : Nat := y.toNat % 32
def laneWidthOf (y : Word) : Nat := y.toNat / 32 % 32 + 1

/-- A value confined to a range of 32 bits. -/
def laneConfined (lo hi x : Int) : Word := BitVec.ofInt 32 (if x < lo then lo else if hi < x then hi else x)

/-- Bits lo to lo + width - 1 of z replaced by the low bits of x (04 R95, IBFI). -/
def laneInserted (z x : Word) (lo width : Nat) : Word :=
  BitVec.ofFnLE (fun (i : Fin 32) => if lo ≤ i.val ∧ i.val < lo + width then x.getLsbD (i.val - lo) else z.getLsbD i.val)

/-- The sum of IDOT4 with signed and with unsigned bytes. -/
def dotSigned (x y : Word) : Int :=
  ((x.extractLsb' 0 8).toInt * (y.extractLsb' 0 8).toInt + (x.extractLsb' 8 8).toInt * (y.extractLsb' 8 8).toInt) +
  ((x.extractLsb' 16 8).toInt * (y.extractLsb' 16 8).toInt + (x.extractLsb' 24 8).toInt * (y.extractLsb' 24 8).toInt)
def dotUnsigned (x y : Word) : Nat :=
  ((x.extractLsb' 0 8).toNat * (y.extractLsb' 0 8).toNat + (x.extractLsb' 8 8).toNat * (y.extractLsb' 8 8).toNat) +
  ((x.extractLsb' 16 8).toNat * (y.extractLsb' 16 8).toNat + (x.extractLsb' 24 8).toNat * (y.extractLsb' 24 8).toNat)

/-- The lane instructions that compute v(d) from v(a). -/
def laneOne (g : Guard) (d a : BitVec 6) (imm : BitVec 32) : List (Instr × (Word → Word)) :=
  [(.iaddi g d a imm, fun x => x + imm),
   (.ipopc g d a, fun x => BitVec.ofNat 32 ((List.range 32).countP (fun i => x.getLsbD i))),
   (.iclz g d a, fun x => BitVec.ofNat 32 (((List.range 32).find? (fun i => x.getMsbD i)).getD 32)),
   (.imov g d a, fun x => x)]

/-- The lane instructions that compute v(d) from v(a) and v(b). -/
def laneTwo (g : Guard) (d a b : BitVec 6) : List (Instr × (Word → Word → Word)) :=
  [(.iadd g d a b false, fun x y => x + y),
   (.iadd g d a b true, fun x y => laneConfined (-2 ^ 31) (2 ^ 31 - 1) (x.toInt + y.toInt)),
   (.isub g d a b false, fun x y => x - y),
   (.isub g d a b true, fun x y => laneConfined (-2 ^ 31) (2 ^ 31 - 1) (x.toInt - y.toInt)),
   (.imul g d a b, fun x y => x * y),
   (.imulhI g d a b, fun x y => BitVec.ofInt 32 (x.toInt * y.toInt / 2 ^ 32)),
   (.imulhN g d a b, fun x y => BitVec.ofNat 32 (x.toNat * y.toNat / 2 ^ 32)),
   (.iminI g d a b, fun x y => if x.toInt < y.toInt then x else y),
   (.iminN g d a b, fun x y => if x.toNat < y.toNat then x else y),
   (.imaxI g d a b, fun x y => if y.toInt < x.toInt then x else y),
   (.imaxN g d a b, fun x y => if y.toNat < x.toNat then x else y),
   (.iand g d a b, fun x y => x &&& y),
   (.ior g d a b, fun x y => x ||| y),
   (.ixor g d a b, fun x y => x ^^^ y),
   (.ishl g d a b, fun x y => x <<< low5 y),
   (.ishrI g d a b, fun x y => BitVec.ofInt 32 (x.toInt / 2 ^ low5 y)),
   (.ishrN g d a b, fun x y => BitVec.ofNat 32 (x.toNat / 2 ^ low5 y)),
   (.ibfxI g d a b, fun x y => BitVec.ofInt 32 (Int.bmod (x.toNat / 2 ^ low5 y) (2 ^ laneWidthOf y))),
   (.ibfxN g d a b, fun x y => BitVec.ofNat 32 (x.toNat / 2 ^ low5 y % 2 ^ laneWidthOf y))]

/-- The lane instructions that compute v(d) from v(a), v(b) and the old v(d). -/
def laneThree (g : Guard) (d a b : BitVec 6) : List (Instr × (Word → Word → Word → Word)) :=
  [(.imad g d a b, fun x y z => z + x * y),
   (.ibfi g d a b, fun x y z => laneInserted z x (low5 y) (laneWidthOf y)),
   (.isel g d a b, fun x y z => if z = 0 then y else x),
   (.idot4I8 g d a b false, fun x y z => BitVec.ofInt 32 (z.toInt + dotSigned x y)),
   (.idot4I8 g d a b true, fun x y z => laneConfined (-2 ^ 31) (2 ^ 31 - 1) (z.toInt + dotSigned x y)),
   (.idot4N8 g d a b false, fun x y z => BitVec.ofNat 32 (z.toNat + dotUnsigned x y)),
   (.idot4N8 g d a b true, fun x y z => laneConfined 0 (2 ^ 32 - 1) (z.toNat + dotUnsigned x y))]

/-! ### Floating lane instructions (04 R97-R99) -/

/-- A rounded result in a format and the flags it sets: what an operation on exact values gives, its sources flushed and its
result rounded and flushed once (02 R39, R41, R43). -/
abbrev FResult := Nat × FFlags

def addOf (f : FFmt) (md : FMode) (fz : Bool) (x y : Nat) : FResult :=
  fresult f md fz (FVal.add md (fsource f fz x) (fsource f fz y))
def mulOf (f : FFmt) (md : FMode) (fz : Bool) (x y : Nat) : FResult :=
  fresult f md fz (FVal.mul (fsource f fz x) (fsource f fz y))
def fmaOf (f : FFmt) (md : FMode) (fz : Bool) (x y z : Nat) : FResult :=
  fresult f md fz (FVal.fma md (fsource f fz x) (fsource f fz y) (fsource f fz z))

/-- Element 0 and element 1 of a packed pair, and two elements joined with the flags of both (04 R98). -/
def elem (k x : Nat) : Nat := x / 2 ^ (16 * k) % 2 ^ 16
def joined (lo hi : FResult) : FResult := (lo.1 + 2 ^ 16 * hi.1, lo.2.or hi.2)

/-- The floating instructions that compute v(d) from v(a), under the mode and the flush bit of the strand's bundle. -/
def floatOne (g : Guard) (d a : BitVec 6) (b : BitVec 3) (k : BitVec 2) (hi : Bool) :
    List (Instr × (FMode → Bool → Nat → FResult)) :=
  let md (r : FMode) : FMode := if b = 4 then r else modeOfNat b.toNat
  [(.frndF32 g d a b, fun r fz x => froundIntegral fmtFP32 (md r) fz (fsource fmtFP32 fz x)),
   (.frcp g d a, fun _ fz x => fRcp fz x), (.frsq g d a, fun _ fz x => fRsq fz x), (.fsqrt g d a, fun _ fz x => fSqrt fz x),
   (.fexp2 g d a, fun _ fz x => fExp2 fz x), (.flog2 g d a, fun _ fz x => fLog2 fz x),
   (.fsin g d a, fun _ fz x => fSinCos false fz x), (.fcos g d a, fun _ fz x => fSinCos true fz x),
   (.cvtF32I32 g d a, fun r fz x => fround fmtFP32 r fz (FVal.ofInt (BitVec.ofNat 32 x).toInt)),
   (.cvtF32N32 g d a, fun r fz x => fround fmtFP32 r fz (FVal.ofInt (x % 2 ^ 32))),
   (.cvtI32F32 g d a b, fun r fz x =>
      let v := floatToInt (md r) true 32 (fsource fmtFP32 fz x)
      ((BitVec.ofInt 32 v.1).toNat, v.2)),
   (.cvtN32F32 g d a b, fun r fz x =>
      let v := floatToInt (md r) false 32 (fsource fmtFP32 fz x)
      ((BitVec.ofInt 32 v.1).toNat, v.2)),
   (.cvtF32H2 g d a hi, fun _ fz x => fround fmtFP32 .rne fz (fmtFP16.decode (elem hi.toNat x))),
   (.cvtF32B2 g d a hi, fun _ fz x => fround fmtFP32 .rne fz (fmtBF16.decode (elem hi.toNat x))),
   (.cvtF32E4m3 g d a k, fun _ _ x => fround fmtFP32 .rne false (fmtE4M3.decode (x / 2 ^ (8 * k.toNat) % 256))),
   (.cvtF32E5m2 g d a k, fun _ _ x => fround fmtFP32 .rne false (fmtE5M2.decode (x / 2 ^ (8 * k.toNat) % 256)))]

/-- The floating instructions that compute v(d) from v(a) and v(b). -/
def floatTwo (g : Guard) (d a b : BitVec 6) (m : Bool) : List (Instr × (FMode → Bool → Nat → Nat → FResult)) :=
  [(.faddF32 g d a b, addOf fmtFP32), (.fmulF32 g d a b, mulOf fmtFP32),
   (.fminF32 g d a b m, fun _ fz x y => (fminmax fmtFP32 false m fz x y, FFlags.none)),
   (.fmaxF32 g d a b m, fun _ fz x y => (fminmax fmtFP32 true m fz x y, FFlags.none)),
   (.faddH2 g d a b, fun r fz x y => joined (addOf fmtFP16 r fz (elem 0 x) (elem 0 y)) (addOf fmtFP16 r fz (elem 1 x) (elem 1 y))),
   (.fmulH2 g d a b, fun r fz x y => joined (mulOf fmtFP16 r fz (elem 0 x) (elem 0 y)) (mulOf fmtFP16 r fz (elem 1 x) (elem 1 y))),
   (.faddB2 g d a b, fun r fz x y => joined (addOf fmtBF16 r fz (elem 0 x) (elem 0 y)) (addOf fmtBF16 r fz (elem 1 x) (elem 1 y))),
   (.fmulB2 g d a b, fun r fz x y => joined (mulOf fmtBF16 r fz (elem 0 x) (elem 0 y)) (mulOf fmtBF16 r fz (elem 1 x) (elem 1 y))),
   (.cvtH2F32 g d a b, fun r fz x y =>
      joined (fround fmtFP16 r fz (fsource fmtFP32 fz x)) (fround fmtFP16 r fz (fsource fmtFP32 fz y))),
   (.cvtB2F32 g d a b, fun r fz x y =>
      joined (fround fmtBF16 r fz (fsource fmtFP32 fz x)) (fround fmtBF16 r fz (fsource fmtFP32 fz y)))]

/-- The floating instructions that compute v(d) from v(a), v(b) and the old v(d). -/
def floatThree (g : Guard) (d a b : BitVec 6) : List (Instr × (FMode → Bool → Nat → Nat → Nat → FResult)) :=
  [(.ffmaF32 g d a b, fmaOf fmtFP32),
   (.ffmaH2 g d a b, fun r fz x y z =>
      joined (fmaOf fmtFP16 r fz (elem 0 x) (elem 0 y) (elem 0 z)) (fmaOf fmtFP16 r fz (elem 1 x) (elem 1 y) (elem 1 z))),
   (.ffmaB2 g d a b, fun r fz x y z =>
      joined (fmaOf fmtBF16 r fz (elem 0 x) (elem 0 y) (elem 0 z)) (fmaOf fmtBF16 r fz (elem 1 x) (elem 1 y) (elem 1 z)))]

/-- The conversions that replace byte k of v(d), under ACR.OFS. -/
def floatByte (g : Guard) (d a : BitVec 6) (k : BitVec 2) : List (Instr × FFmt) :=
  [(.cvtE4m3F32 g d a k, fmtE4M3), (.cvtE5m2F32 g d a k, fmtE5M2)]

/-- What a floating instruction leaves in a strand: poison with the first poisoned source's origin, or the result (04 R94). -/
def floatValue (p : Option (BitVec 3)) (r : FResult) : Tagged 32 :=
  match p with
  | some k => ⟨0, some k⟩
  | none => ⟨BitVec.ofNat 32 r.1, none⟩
/-- The flags it sets: none where a source is poisoned. -/
def floatFlags (p : Option (BitVec 3)) (r : FResult) : FFlags := if p.isSome then FFlags.none else r.2

end Sys2Proof.Claims

/-- Every integer lane instruction of 04 R95 completes in every state: each strand of the group whose guard is true receives in
v(d) the value the rule gives of its registers as the instruction found them, poison of a source passes on with the first
poisoned source's origin (R94), and nothing else changes: no flag, no other register of any strand, no byte of memory. -/
def Obligations.LaneIntegers : Prop :=
  ∀ (s : State) (g : Guard) (d a b : BitVec 6) (imm : BitVec 32),
    (actingStrands s g).Nodup →
    (∃ t, exec (.imovi g d imm) s = .next t ∧
      (∀ i ∈ actingStrands s g, t.laneV i d = ⟨imm, none⟩) ∧
      LaneFrame s t (actingStrands s g) (fun n => n = d.toNat)) ∧
    (∀ p ∈ laneOne g d a imm, ∃ t, exec p.1 s = .next t ∧
      (∀ i ∈ actingStrands s g, t.laneV i d =
        match (s.laneV i a).poison with
        | some k => ⟨0, some k⟩
        | none => ⟨p.2 (s.laneV i a).val, none⟩) ∧
      LaneFrame s t (actingStrands s g) (fun n => n = d.toNat)) ∧
    (∀ p ∈ laneTwo g d a b, ∃ t, exec p.1 s = .next t ∧
      (∀ i ∈ actingStrands s g, t.laneV i d =
        match (s.laneV i a).poison.or (s.laneV i b).poison with
        | some k => ⟨0, some k⟩
        | none => ⟨p.2 (s.laneV i a).val (s.laneV i b).val, none⟩) ∧
      LaneFrame s t (actingStrands s g) (fun n => n = d.toNat)) ∧
    (∀ p ∈ laneThree g d a b, ∃ t, exec p.1 s = .next t ∧
      (∀ i ∈ actingStrands s g, t.laneV i d =
        match ((s.laneV i a).poison.or (s.laneV i b).poison).or (s.laneV i d).poison with
        | some k => ⟨0, some k⟩
        | none => ⟨p.2 (s.laneV i a).val (s.laneV i b).val (s.laneV i d).val, none⟩) ∧
      LaneFrame s t (actingStrands s g) (fun n => n = d.toNat))

/-- Every floating lane instruction of 04 R97-R99 that writes a lane register completes in every state: each guarded strand
receives in v(d) the value of its operands under the rounding mode, FZ and OFS of its own bundle's ACR, and each bundle's ACR
gains the flags its guarded strands set together; a poisoned source writes poison and sets no flag (R94); nothing else
changes. -/
def Obligations.LaneFloats : Prop :=
  ∀ (s : State) (g : Guard) (d a b : BitVec 6) (c : BitVec 3) (k : BitVec 2) (m : Bool),
    (actingStrands s g).Nodup →
    (∀ p ∈ floatOne g d a c k m, ∃ t, exec p.1 s = .next t ∧
      (∀ i ∈ actingStrands s g, t.laneV i d = floatValue (s.laneV i a).poison
        (p.2 (s.modeOf i) (s.fzOf i) (s.laneV i a).val.toNat)) ∧
      FloatFrame s t (actingStrands s g) d.toNat
        (flagsOf (actingStrands s g) (fun i => floatFlags
          (s.laneV i a).poison (p.2 (s.modeOf i) (s.fzOf i) (s.laneV i a).val.toNat)))) ∧
    (∀ p ∈ floatTwo g d a b m, ∃ t, exec p.1 s = .next t ∧
      (∀ i ∈ actingStrands s g, t.laneV i d = floatValue
        ((s.laneV i a).poison.or (s.laneV i b).poison)
        (p.2 (s.modeOf i) (s.fzOf i) (s.laneV i a).val.toNat (s.laneV i b).val.toNat)) ∧
      FloatFrame s t (actingStrands s g) d.toNat
        (flagsOf (actingStrands s g) (fun i => floatFlags
          ((s.laneV i a).poison.or (s.laneV i b).poison)
          (p.2 (s.modeOf i) (s.fzOf i) (s.laneV i a).val.toNat (s.laneV i b).val.toNat)))) ∧
    (∀ p ∈ floatThree g d a b, ∃ t, exec p.1 s = .next t ∧
      (∀ i ∈ actingStrands s g, t.laneV i d = floatValue
        (((s.laneV i a).poison.or (s.laneV i b).poison).or (s.laneV i d).poison)
        (p.2 (s.modeOf i) (s.fzOf i) (s.laneV i a).val.toNat (s.laneV i b).val.toNat (s.laneV i d).val.toNat)) ∧
      FloatFrame s t (actingStrands s g) d.toNat
        (flagsOf (actingStrands s g) (fun i => floatFlags
          (((s.laneV i a).poison.or (s.laneV i b).poison).or (s.laneV i d).poison)
          (p.2 (s.modeOf i) (s.fzOf i) (s.laneV i a).val.toNat (s.laneV i b).val.toNat (s.laneV i d).val.toNat)))) ∧
    (∀ p ∈ floatByte g d a k, ∃ t, exec p.1 s = .next t ∧
      (∀ i ∈ actingStrands s g,
        (t.laneV i d).poison = (s.laneV i a).poison.or (s.laneV i d).poison ∧
        ((t.laneV i d).poison = none →
          (t.laneV i d).val.extractLsb' (8 * k.toNat) 8 = BitVec.ofNat 8 (fnarrow p.2
            ((s.acr (strandBundle i)).getLsbD 8)
            (fsource fmtFP32 (s.fzOf i) (s.laneV i a).val.toNat)).1 ∧
          ∀ j : Nat, j < 4 → j ≠ k.toNat →
            (t.laneV i d).val.extractLsb' (8 * j) 8 = (s.laneV i d).val.extractLsb' (8 * j) 8)) ∧
      FloatFrame s t (actingStrands s g) d.toNat
        (flagsOf (actingStrands s g) (fun i => floatFlags
          ((s.laneV i a).poison.or (s.laneV i d).poison)
          (fnarrow p.2 ((s.acr (strandBundle i)).getLsbD 8)
            (fsource fmtFP32 (s.fzOf i) (s.laneV i a).val.toNat)))))

/-- The compares that write a predicate (03 R59, 04 R96) complete where no source they read is poisoned: each guarded strand's
p(tg) receives the condition of its own v(a) and v(b), a target of p0 is discarded, FCMP.F32's ordered conditions set IV on a
NaN source, and nothing else changes. -/
def Obligations.LaneCompares : Prop :=
  ∀ (s : State) (g : Guard) (cc tg : BitVec 3) (a b : BitVec 6),
    (actingStrands s g).Nodup → cc.toNat < 6 →
    (∀ i ∈ actingStrands s g, (s.laneV i a).poison = none ∧ (s.laneV i b).poison = none) →
    (∃ t, exec (.icmp g cc tg a b) s = .next t ∧
      (∀ i ∈ actingStrands s g, t.getP i tg.toNat =
        (tg == 0 || match cc.toNat with
          | 0 => decide ((s.laneV i a).val = (s.laneV i b).val)
          | 1 => decide ((s.laneV i a).val ≠ (s.laneV i b).val)
          | 2 => decide ((s.laneV i a).val.toInt < (s.laneV i b).val.toInt)
          | 3 => decide ((s.laneV i b).val.toInt ≤ (s.laneV i a).val.toInt)
          | 4 => decide ((s.laneV i a).val.toNat < (s.laneV i b).val.toNat)
          | _ => decide ((s.laneV i b).val.toNat ≤ (s.laneV i a).val.toNat))) ∧
      PredFrame s t (actingStrands s g) tg.toNat) ∧
    (∃ t, exec (.fcmpF32 g cc tg a b) s = .next t ∧
      (∀ i ∈ actingStrands s g, t.getP i tg.toNat =
        (tg == 0 || match FVal.cmp
            (fsource fmtFP32 (s.fzOf i) (s.laneV i a).val.toNat)
            (fsource fmtFP32 (s.fzOf i) (s.laneV i b).val.toNat), cc.toNat with
          | none, n => n == 1 || n == 5
          | some r, 0 => r == .eq
          | some r, 1 => r != .eq
          | some r, 2 => r == .lt
          | some r, 3 => r != .lt
          | some r, 4 => r != .gt
          | some _, _ => false)) ∧
      t = { s with strands := t.strands, owners := t.owners } ∧
      (∀ i, t.strand i = { s.strand i with p := (t.strand i).p }) ∧
      (∀ i m, m < 8 → ¬(i ∈ actingStrands s g ∧ m = tg.toNat) → t.getP i m = s.getP i m) ∧
      (∀ o, t.owner o = { s.owner o with acr := (t.owner o).acr, acrNext := (t.owner o).acrNext }) ∧
      (∀ o, (t.owner o).acr = (s.owner o).acr ||| (if 2 ≤ cc.toNat ∧ cc.toNat ≤ 4 ∧
          (∃ i ∈ actingStrands s g, strandBundle i = o ∧
            FVal.cmp
              (fsource fmtFP32 (s.fzOf i) (s.laneV i a).val.toNat)
              (fsource fmtFP32 (s.fzOf i) (s.laneV i b).val.toNat) = none)
        then 1 else 0)) ∧
      (∀ pa, t.byte pa = s.byte pa))

namespace Sys2Proof.Claims

/-! ### Memory instructions (04 R101-R119) -/

/-- The base of a Format D or T access in strand i, and its address (04 R101). -/
def baseOf (s : State) (i : Nat) (a : BitVec 6) (lb : Bool) : Tagged 64 := if lb then s.getD2 i a.toNat else s.getS (strandBundle i) a
def addressOf (s : State) (i : Nat) (a : BitVec 6) (lb : Bool) {w : Nat} (off : BitVec w) : Dword :=
  (baseOf s i a lb).val + off.signExtend 64

/-- A global access of n bytes at an address succeeds at a physical address (04 R102, R103): bits [63:60] are zero, it is aligned,
its page is resident with the permission and no older translation of it may be held (15 R263), where the page is tagged every granule
carries the address's tag, and memory stands there. -/
structure Reach (s : State) (addr : Dword) (n align : Nat) (write tagCheck : Bool) (pa : Nat) (p : PageInfo) : Prop where
  top : addr.toNat < 2 ^ 60
  aligned : addr.toNat % align = 0
  page : s.walk s.cur.ctx addr.toNat = .page p
  settled : s.oldWalks s.cur.ctx addr.toNat = []
  allowed : (if write then p.canWrite else p.canRead) = true
  place : pa = p.base + addr.toNat % p.size
  tag : p.tagged = true → tagCheck = true →
    ∀ k, pa / 32 ≤ k → k ≤ (pa + n - 1) / 32 → Tbl.getD s.tags k 0 = addr.extractLsb' 56 4
  exist : paExists pa = true

/-- A strand's global access leaves a trace in its bundle's lease filter, and may take a victim tag of its core and raise a
measured lease (07 R152, R154); nothing else of bundles and cores changes. -/
structure LeaseTrace (s t : State) (b : Nat) : Prop where
  others : ∀ k, k ≠ b → Tbl.find? t.bundles k = Tbl.find? s.bundles k
  own : ∀ x, Tbl.find? s.bundles b = some x → ∃ l e, Tbl.find? t.bundles b = some { x with touched := l, est := e }
  cores : ∀ k, t.core k = { s.core k with victims := (t.core k).victims }

/-- The group being issued has one strand whose guard is true. -/
def OneStrand (s : State) (g : Guard) (i : Nat) : Prop := s.cur.profile = .raster ∧ actingStrands s g = [i]

/-- A delivery is live and unrecorded: the owner's launch has no REPLAY and its context no capture buffer (08 R184, R185). -/
def LiveDelivery (s : State) (o : Nat) : Prop :=
  s.launchOf o = none ∨ ∃ l x, s.launchOf o = some l ∧ Tbl.find? s.launches l = some x ∧ hdrReplay x.hdr = false ∧
    (s.ctx x.ctx).capture = none

/-- Of the launches, at most the counts of what has been delivered to their strands differ (08 R185). -/
def OrdinalsOnly (s t : State) : Prop :=
  ∀ l, Tbl.find? t.launches l = (Tbl.find? s.launches l).map (fun (x : Launch) =>
    { x with ordinals := ((Tbl.find? t.launches l).map (fun (y : Launch) => y.ordinals)).getD [] })

/-- Memory holds the value's n low bytes at pa, little-endian, and every other byte as before (00 R6). -/
def Stored (s t : State) (pa n v : Nat) : Prop :=
  ∀ a, t.byte a = if pa ≤ a ∧ a < pa + n then BitVec.ofNat 8 (v / 256 ^ (a - pa)) else s.byte a

/-- The loads that deliver a word: size, and the instruction (04 R105, R114). -/
def wordLoads (g : Guard) (d a : BitVec 6) (lb : Bool) (off : BitVec 31) : List (Nat × Instr) :=
  [(1, .ld8 g d a lb off), (2, .ld16 g d a lb off), (4, .ld32 g d a lb off), (4, .lda g d a lb off)]
def wordStores (g : Guard) (d a : BitVec 6) (lb : Bool) (off : BitVec 31) : List (Nat × Instr) :=
  [(1, .st8 g d a lb off), (2, .st16 g d a lb off), (4, .st32 g d a lb off), (4, .sta g d a lb off)]

end Sys2Proof.Claims

/-- CMPP (03 R59) completes where neither source is poisoned: a bundle's outcome goes to p(tg) of each of its live strands, a
stream's to s(tg) as 1 or 0, a target of p0 or s0 is discarded, and nothing else changes. -/
def Obligations.ScalarComparePredicate : Prop :=
  ∀ (s : State) (cc tg : BitVec 3) (a b : BitVec 6), s.cur.owners.Nodup → cc.toNat < 6 →
    (∀ o ∈ s.cur.owners, (s.getS o a).poison = none ∧ (s.getS o b).poison = none) →
    ∃ t, exec (.cmpp cc tg a b) s = .next t ∧
      (∀ o ∈ s.cur.owners,
        let x := (s.getS o a).val
        let y := (s.getS o b).val
        let outcome : Bool := match cc.toNat with
          | 0 => decide (x = y)
          | 1 => decide (x ≠ y)
          | 2 => decide (x.toInt < y.toInt)
          | 3 => decide (y.toInt ≤ x.toInt)
          | 4 => decide (x.toNat < y.toNat)
          | _ => decide (y.toNat ≤ x.toNat)
        (288 ≤ o → ∀ i ∈ s.liveStrands o, t.getP i tg.toNat = (tg == 0 || outcome)) ∧
        (o < 288 → t.getS o (tg.setWidth 6) = if tg = 0 then .zero 64 else ⟨if outcome then 1 else 0, none⟩)) ∧
      t = { s with owners := t.owners, strands := t.strands } ∧
      (∀ o, t.owner o = { s.owner o with s := (t.owner o).s }) ∧
      (∀ o r, ¬(o ∈ s.cur.owners ∧ o < 288 ∧ r = tg.setWidth 6) → t.getS o r = s.getS o r) ∧
      (∀ i, t.strand i = { s.strand i with p := (t.strand i).p }) ∧
      (∀ i m, m < 8 → ¬((∃ o ∈ s.cur.owners, 288 ≤ o ∧ i ∈ s.liveStrands o) ∧ m = tg.toNat) → t.getP i m = s.getP i m) ∧
      (∀ pa, t.byte pa = s.byte pa)

/-- MBX (03 R61) of one bundle or stream: s(d) receives the mailbox's old value; the mailbox of the context receives s(a) where
the a field is not 0, and stays otherwise; nothing else changes. -/
def Sys2Proof.Claims.MailboxExchange : Prop :=
  ∀ (s : State) (o : Nat) (d a : BitVec 6) (imm : BitVec 32), s.cur.owners = [o] → imm.toNat < 8 →
    (a ≠ 0 → (s.getS o a).poison = none) →
    ∃ t, exec (.mbx d a imm) s = .next t ∧
      t.getS o d = (if d = 0 then .zero 64 else ⟨s.mbx s.cur.ctx imm.toNat, none⟩) ∧
      (∀ c n, t.mbx c n = if a ≠ 0 ∧ c = s.cur.ctx ∧ n = imm.toNat then (s.getS o a).val else s.mbx c n) ∧
      (∀ c, t.ctx c = { s.ctx c with mbx := (t.ctx c).mbx }) ∧
      ScalarFrame { s with ctxs := t.ctxs } t [o] d

/-- TIME and WID (03 R62, R63) of one bundle or stream. TIME delivers a device time that has not gone back and is the time the
machine then stands at, or, in a launch with REPLAY set, the recorded value (08 R185); the launch's ordinal counts the
delivery, and with no capture buffer nothing else changes but the free counter (log 16). WID gives the field of strand 0's work
identifier, the field's width, or its extent, each of the launch header (07 R144), and changes s(d) alone. -/
def Sys2Proof.Claims.TimeAndWork : Prop :=
  (∀ (s : State) (o : Nat) (d : BitVec 6), s.cur.owners = [o] →
    (LiveDelivery s o →
      ∃ t v, exec (.time d) s = .next t ∧ s.time ≤ v ∧ t.time = v ∧
        t.getS o d = (if d = 0 then .zero 64 else ⟨BitVec.ofNat 64 v, none⟩) ∧
        ScalarFrame { s with time := t.time, freeCtr := s.freeCtr + 1, launches := t.launches } t [o] d) ∧
    (∀ l x b n v, s.launchOf o = some l → Tbl.find? s.launches l = some x → hdrReplay x.hdr = true →
      x.replay = some (b, n) →
      s.replayEntry b.toNat (s.reporterIndex o) 0 (Tbl.getD x.ordinals (64 * s.reporterIndex o) 0) (n / 32) = some v →
      ∃ t, exec (.time d) s = .next t ∧ t.getS o d = (if d = 0 then .zero 64 else ⟨v, none⟩))) ∧
  (∀ (s : State) (d : BitVec 6) (imm : BitVec 32), s.cur.owners.Nodup →
    (imm.toNat < 6 ∨ 8 ≤ imm.toNat ∧ imm.toNat < 14 ∨ 16 ≤ imm.toNat ∧ imm.toNat < 22) →
    ∃ t, exec (.wid d imm) s = .next t ∧
      (∀ o ∈ s.cur.owners, ∀ x, Tbl.find? s.bundles o = some x →
        let h := s.ownerHeader o
        let id := x.index * 2 ^ hdrWidth h 0
        t.getS o d = if d = 0 then .zero 64 else
          ⟨BitVec.ofNat 64 (if imm.toNat < 6 then id / 2 ^ hdrOffset h imm.toNat % 2 ^ hdrWidth h imm.toNat
            else if imm.toNat < 14 then hdrWidth h (imm.toNat - 8)
            else hdrExtent h (imm.toNat - 16)), none⟩) ∧
      ScalarFrame s t s.cur.owners d)

/-- MBX, TIME and WID (03 R61-R63, 08 R184, R185): values that a bundle or stream exchanges with the host or reads of its place. -/
def Obligations.DeliveredScalars : Prop := MailboxExchange ∧ TimeAndWork

/-- The shuffles (04 R100) of complete bundles: each live guarded strand of each bundle receives v(a) of the strand it names,
zero where that strand is not live, and poison by the order of the rule; every source is read before any write, and nothing
else changes. S2V gives each such strand the named half of its bundle's s(a). -/
def Obligations.Shuffles : Prop :=
  ∀ (s : State) (g : Guard) (d a b : BitVec 6) (m : Bool), s.cur.owners.Nodup →
    let receives (i : Nat) : Prop := ∃ o ∈ s.cur.owners, i ∈ s.liveStrands o ∧ s.guardOn g i = true
    let source (i j : Nat) : Tagged 32 :=
      if strandKey (strandBundle i) j ∈ s.liveStrands (strandBundle i) then s.laneV (strandKey (strandBundle i) j) a else .zero 32
    (∃ t, exec (.shflIdx g d a b) s = .next t ∧
      (∀ i, receives i → t.laneV i d = match (s.laneV i b).poison with
        | some k => ⟨0, some k⟩
        | none => source i ((s.laneV i b).val.toNat % 64)) ∧
      t = { s with strands := t.strands } ∧ (∀ i, t.strand i = { s.strand i with v := (t.strand i).v }) ∧
      (∀ i n, ¬(receives i ∧ n = d.toNat) → t.getV i n = s.getV i n) ∧ (∀ pa, t.byte pa = s.byte pa)) ∧
    (∃ t, exec (.shflXor g d a b) s = .next t ∧
      (∀ i, receives i → t.laneV i d = source i (i % 64 ^^^ b.toNat)) ∧
      t = { s with strands := t.strands } ∧ (∀ i, t.strand i = { s.strand i with v := (t.strand i).v }) ∧
      (∀ i n, ¬(receives i ∧ n = d.toNat) → t.getV i n = s.getV i n) ∧ (∀ pa, t.byte pa = s.byte pa)) ∧
    (∃ t, exec (.s2v g d a m) s = .next t ∧
      (∀ i, receives i → t.laneV i d = match (s.getS (strandBundle i) a).poison with
        | some k => ⟨0, some k⟩
        | none => ⟨(s.getS (strandBundle i) a).val.extractLsb' (if m then 32 else 0) 32, none⟩) ∧
      t = { s with strands := t.strands } ∧ (∀ i, t.strand i = { s.strand i with v := (t.strand i).v }) ∧
      (∀ i n, ¬(receives i ∧ n = d.toNat) → t.getV i n = s.getV i n) ∧ (∀ pa, t.byte pa = s.byte pa))

/-- V2S (04 R100) of complete bundles: s(d) receives v(a) of strand b zero-extended, or d(a) of it with m; zero where that strand
is not live and the instruction has no guard; and it is kept where a guard is given and the strand is not live or its guard is
false. Nothing else changes. -/
def Obligations.StrandToScalar : Prop :=
  ∀ (s : State) (g : Guard) (d a b : BitVec 6) (m : Bool), s.cur.owners.Nodup →
    ∃ t, exec (.v2s g d a b m) s = .next t ∧
      (∀ o ∈ s.cur.owners,
        let i := strandKey o b.toNat
        t.getS o d =
          if d = 0 then .zero 64
          else if i ∈ s.liveStrands o then
            if s.guardOn g i then
              if m then s.getD2 i a.toNat
              else match (s.laneV i a).poison with
                | some k => ⟨0, some k⟩
                | none => ⟨(s.laneV i a).val.setWidth 64, none⟩
            else s.getS o d
          else if g.pg = 0 ∧ g.neg = false then .zero 64
          else s.getS o d) ∧
      ScalarFrame s t s.cur.owners d

namespace Sys2Proof.Claims

/-- Each strand of a list becomes what `f` says, and nothing else changes: no other strand, no register, flag or special register
of any owner, no byte of memory. -/
structure StrandsBecome (s t : State) (is : List Nat) (f : Nat → Strand) : Prop where
  rest : t = { s with strands := t.strands }
  inside : ∀ i ∈ is, t.strand i = f i
  outside : ∀ i, i ∉ is → t.strand i = s.strand i
  byte : ∀ a, t.byte a = s.byte a

/-- The stream of tile k becomes st, and nothing else changes. -/
structure StreamBecomes (s t : State) (k : Nat) (st : Stream) : Prop where
  rest : t = { s with tiles := t.tiles }
  tile : t.tile k = { s.tile k with stream := some st }
  others : ∀ j, j ≠ k → t.tile j = s.tile j
  byte : ∀ a, t.byte a = s.byte a

/-- The group being issued is a raster group of distinct strands, or the one stream of tile k. -/
def OnRaster (s : State) : Prop := s.cur.profile = .raster ∧ s.cur.strands.Nodup
def OnTile (s : State) (k : Nat) (st : Stream) : Prop :=
  s.cur.profile = .tile ∧ s.cur.owners = [k] ∧ (s.tile k).stream = some st

/-- A target that control may go to: bits [1:0] and [63:56] are zero (03 R66). -/
def GoodTarget (a : Dword) : Prop := a.toNat % 4 = 0 ∧ a.toNat < 2 ^ 56

/-- The loop levels left after a taken branch to a target (03 R68): all, where the innermost level's body holds it; else the
outer levels whose bodies do. -/
def levelsAfter (ls : List Loop) (a : Dword) : List Loop :=
  match ls with
  | [] => []
  | l :: rest =>
    if l.start.toNat ≤ a.toNat ∧ a.toNat ≤ l.last.toNat then l :: rest
    else rest.filter (fun x => decide (x.start.toNat ≤ a.toNat ∧ a.toNat ≤ x.last.toNat))

/-- The address `off` words from the instruction itself (03 R65), and the address after it. -/
def wordsOn (s : State) (off : BitVec 32) : Dword := s.cur.pc + 4 * off.signExtend 64
def after (s : State) : Dword := s.cur.pc + (if s.cur.long then 8 else 4)

/-- A strand that transfers control. -/
def sent (x : Strand) (a : Dword) (ls : List Loop) : Strand := { x with pc := a, moved := true, loops := ls }

end Sys2Proof.Claims

/-- NOP changes nothing, and the branches of 03 R65, R66 and R68 complete on a raster core where their targets are good: BRA sends
every strand of the group, BRAC those whose test, inverted by n, is true (p(c) of the strand, or s(c) of its bundle not zero),
and BRX to the strand's own target in s(a) or d(a); each takes the loop levels it leaves with it, and nothing else changes. -/
def Sys2Proof.Claims.RasterBranches : Prop :=
  (∀ s : State, exec .nop s = .next s) ∧
  ∀ (s : State) (off : BitVec 32) (c a : BitVec 6) (n : Bool), OnRaster s →
    (GoodTarget (wordsOn s off) →
      (∃ t, exec (.bra off) s = .next t ∧ StrandsBecome s t s.cur.strands (fun i =>
        sent (s.strand i) (wordsOn s off) (levelsAfter (s.strand i).loops (wordsOn s off)))) ∧
      (∃ t, exec (.brac false c n off) s = .next t ∧ StrandsBecome s t s.cur.strands (fun i =>
        if s.getP i c.toNat ≠ n then sent (s.strand i) (wordsOn s off) (levelsAfter (s.strand i).loops (wordsOn s off))
        else s.strand i)) ∧
      ((∀ i ∈ s.cur.strands, (s.getS (strandBundle i) c).poison = none) →
        ∃ t, exec (.brac true c n off) s = .next t ∧ StrandsBecome s t s.cur.strands (fun i =>
          if decide ((s.getS (strandBundle i) c).val ≠ 0) ≠ n then
            sent (s.strand i) (wordsOn s off) (levelsAfter (s.strand i).loops (wordsOn s off))
          else s.strand i))) ∧
    ((∀ i ∈ s.cur.strands, (s.getS (strandBundle i) a).poison = none ∧ GoodTarget (s.getS (strandBundle i) a).val) →
      ∃ t, exec (.brx a false) s = .next t ∧ StrandsBecome s t s.cur.strands (fun i =>
        let v := (s.getS (strandBundle i) a).val
        sent (s.strand i) v (levelsAfter (s.strand i).loops v))) ∧
    ((∀ i ∈ s.cur.strands, (s.getD2 i a.toNat).poison = none ∧ GoodTarget (s.getD2 i a.toNat).val) →
      ∃ t, exec (.brx a true) s = .next t ∧ StrandsBecome s t s.cur.strands (fun i =>
        let v := (s.getD2 i a.toNat).val
        sent (s.strand i) v (levelsAfter (s.strand i).loops v)))

/-- CALL, RET, LOOP and LOOPI on a raster core (03 R66-R68): CALL writes the address after itself to each strand's link d31 and
sends the strand; RET sends it to d(a) and pops no level; a loop with a count and with room for a level starts one in each
strand, and a count of zero sends the strand past the last word of the body. -/
def Sys2Proof.Claims.RasterCallsAndLoops : Prop :=
  ∀ (s : State) (off imm : BitVec 32) (a : BitVec 6) (cnt : BitVec 12), OnRaster s →
    (GoodTarget (wordsOn s off) →
      ∃ t, exec (.call off) s = .next t ∧ t = { s with strands := t.strands } ∧
        (∀ i ∈ s.cur.strands, t.strand i = { s.strand i with v := (t.strand i).v, pc := wordsOn s off, moved := true } ∧
          t.getV i 62 = ⟨(after s).extractLsb' 0 32, none⟩ ∧ t.getV i 63 = ⟨(after s).extractLsb' 32 32, none⟩ ∧
          ∀ n, n ≠ 62 → n ≠ 63 → t.getV i n = s.getV i n) ∧
        (∀ i, i ∉ s.cur.strands → t.strand i = s.strand i) ∧ (∀ pa, t.byte pa = s.byte pa)) ∧
    ((∀ i ∈ s.cur.strands, (s.getD2 i a.toNat).poison = none ∧ GoodTarget (s.getD2 i a.toNat).val) →
      ∃ t, exec (.ret a) s = .next t ∧ StrandsBecome s t s.cur.strands (fun i =>
        { s.strand i with pc := (s.getD2 i a.toNat).val, moved := true })) ∧
    ((∀ i ∈ s.cur.strands, (s.strand i).loops.length < 2) → cnt ≠ 0 →
      ∃ t, exec (.loopi cnt imm) s = .next t ∧ StrandsBecome s t s.cur.strands (fun i =>
        { s.strand i with loops := ⟨after s, wordsOn s imm, cnt.toNat⟩ :: (s.strand i).loops })) ∧
    ((∀ i ∈ s.cur.strands, (s.strand i).loops.length < 2 ∧ (s.getS (strandBundle i) a).poison = none ∧
        0 < (s.getS (strandBundle i) a).val.toNat ∧ (s.getS (strandBundle i) a).val.toNat < 2 ^ 32) →
      ∃ t, exec (.loop a imm) s = .next t ∧ StrandsBecome s t s.cur.strands (fun i =>
        { s.strand i with
          loops := ⟨after s, wordsOn s imm, (s.getS (strandBundle i) a).val.toNat⟩ :: (s.strand i).loops })) ∧
    (∀ b, GoodTarget b → (∀ i ∈ s.cur.strands, ∀ t : State, { t with strands := s.strands } = s →
        (∀ j, (t.strand j).fetchEpoch = (s.strand j).fetchEpoch ∧ (t.strand j).born = (s.strand j).born) → t.afterWord (.strand i) (wordsOn s imm) = .ok (b, t)) →
      (∃ t, exec (.loopi 0 imm) s = .next t ∧ StrandsBecome s t s.cur.strands (fun i =>
        { s.strand i with pc := b, moved := true })) ∧
      ((∀ i ∈ s.cur.strands, s.getS (strandBundle i) a = .zero 64) →
        ∃ t, exec (.loop a imm) s = .next t ∧ StrandsBecome s t s.cur.strands (fun i =>
          { s.strand i with pc := b, moved := true })))

/-- Control transfers on a raster core (03 R64-R68): NOP, the branches, calls, returns and loops send exactly the strands that the
rules send, with their loop levels, and change nothing else. -/
def Obligations.RasterControl : Prop := RasterBranches ∧ RasterCallsAndLoops

/-- The same instructions on a tile (03 R54, R65-R68): the stream takes each once; BRAC without a register pops the oldest entry of
the branch queue, where an earlier group has pushed it; CALL's link is s63 and RET reads s(a); a loop counts levels of the stream. -/
def Obligations.TileControl : Prop :=
  ∀ (s : State) (k : Nat) (st : Stream) (off : BitVec 32) (c a : BitVec 6) (n m : Bool) (cnt : BitVec 12), OnTile s k st →
    (GoodTarget (wordsOn s off) →
      (∃ t, exec (.bra off) s = .next t ∧ StreamBecomes s t k
        { st with target := some (wordsOn s off), loops := levelsAfter st.loops (wordsOn s off) }) ∧
      (∀ e rest, Tbl.getD st.queues 7 [] = e :: rest → Tbl.getD st.hidden 7 0 ≤ rest.length →
        ∃ t, exec (.brac false c n off) s = .next t ∧
          StreamBecomes s t k (if decide (e ≠ 0) ≠ n then
            { st with queues := Tbl.put [] st.queues 7 rest, target := some (wordsOn s off),
                      loops := levelsAfter st.loops (wordsOn s off) }
            else { st with queues := Tbl.put [] st.queues 7 rest })) ∧
      ((s.getS k c).poison = none → ∃ t, exec (.brac true c n off) s = .next t ∧
        (if decide ((s.getS k c).val ≠ 0) ≠ n then
          StreamBecomes s t k { st with target := some (wordsOn s off), loops := levelsAfter st.loops (wordsOn s off) }
        else t = s)) ∧
      (∃ t, exec (.call off) s = .next t ∧ t.getS k 63 = ⟨after s, none⟩ ∧
        StreamBecomes { s with owners := t.owners } t k { st with target := some (wordsOn s off) } ∧
        (∀ o, t.owner o = { s.owner o with s := (t.owner o).s }) ∧
        (∀ o r, ¬(o = k ∧ r = 63) → t.getS o r = s.getS o r))) ∧
    ((s.getS k a).poison = none → GoodTarget (s.getS k a).val →
      (∃ t, exec (.brx a m) s = .next t ∧ StreamBecomes s t k
        { st with target := some (s.getS k a).val, loops := levelsAfter st.loops (s.getS k a).val }) ∧
      (∃ t, exec (.ret a) s = .next t ∧ StreamBecomes s t k { st with target := some (s.getS k a).val })) ∧
    (st.loops.length < 2 →
      (cnt ≠ 0 → ∃ t, exec (.loopi cnt off) s = .next t ∧
        StreamBecomes s t k { st with loops := ⟨after s, wordsOn s off, cnt.toNat⟩ :: st.loops }) ∧
      ((s.getS k a).poison = none → 0 < (s.getS k a).val.toNat → (s.getS k a).val.toNat < 2 ^ 32 →
        ∃ t, exec (.loop a off) s = .next t ∧
          StreamBecomes s t k { st with loops := ⟨after s, wordsOn s off, (s.getS k a).val.toNat⟩ :: st.loops }))

/-- A target with bits [1:0] or [63:56] set raises the precise trap bad-target (03 R66), and a loop inside two levels raises
loop-depth (03 R67): the state is the trap's entry. TRAP completes in every state (03 R78): its effect is the trap software, with TADDR its
sign-extended immediate and TPC the group's address in every owner of the group. -/
def Sys2Proof.Claims.ControlTraps : Prop :=
  (∀ (s : State) (off : BitVec 32), s.actors ≠ [] → ¬GoodTarget (wordsOn s off) →
    exec (.bra off) s = .next (s.takeTrap 0x0A 0 none)) ∧
  (∀ (s : State) (imm : BitVec 32) (cnt : BitVec 12), s.actors ≠ [] → (∀ w ∈ s.actors, (s.loopsOf w).length = 2) → cnt ≠ 0 →
    exec (.loopi cnt imm) s = .next (s.takeTrap 0x0C 0 none)) ∧
  (∀ (s : State) (imm : BitVec 32), ∃ t, exec (.trap imm) s = .next t ∧ t = s.takeTrap 0x0F (imm.signExtend 64) none ∧
    (∀ o ∈ s.cur.allOwners, (t.owner o).tcause = 0x0F ∧ (t.owner o).taddr = imm.signExtend 64 ∧ (t.owner o).tpc = s.cur.gpc) ∧
    (∀ o r, t.getS o r = s.getS o r) ∧ (∀ i n, t.getV i n = s.getV i n))

/-- VOTE.ANY and VOTE.ALL (03 R69) complete in every state: each complete bundle's s(d) receives whether p(a) is true in any or in
every live strand, or with the ballot the mask of the live strands in which it is; nothing else changes. VOTE.ALL with m, and either
with a above 7, decode to illegal-field. -/
def Obligations.Votes : Prop :=
  ∀ (s : State) (d : BitVec 6) (a : BitVec 3), s.cur.owners.Nodup →
    (∃ t, exec (.voteAny d a false) s = .next t ∧
      (∀ o ∈ s.cur.owners, t.getS o d = if d = 0 then .zero 64 else
        ⟨if ∃ i ∈ s.liveStrands o, s.getP i a.toNat = true then 1 else 0, none⟩) ∧ ScalarFrame s t s.cur.owners d) ∧
    (∃ t, exec (.voteAny d a true) s = .next t ∧
      (∀ o ∈ s.cur.owners, d ≠ 0 → (t.getS o d).poison = none ∧ ∀ j, j < 64 →
        (t.getS o d).val.getLsbD j = decide (strandKey o j ∈ s.liveStrands o ∧ s.getP (strandKey o j) a.toNat = true)) ∧
      ScalarFrame s t s.cur.owners d) ∧
    (∃ t, exec (.voteAll d a) s = .next t ∧
      (∀ o ∈ s.cur.owners, t.getS o d = if d = 0 then .zero 64 else
        ⟨if ∀ i ∈ s.liveStrands o, s.getP i a.toNat = true then 1 else 0, none⟩) ∧ ScalarFrame s t s.cur.owners d) ∧
    (∀ w : Word, wordClass w = 0 → wordLong w = false →
      (wordOp w = 0x09 ∧ w.getLsbD 0 = true ∨ (wordOp w = 0x08 ∨ wordOp w = 0x09) ∧ 8 ≤ (w.extractLsb' 7 6).toNat) →
      decodeWords .raster [w] = .error .illegalField)

/-- BAR.CREW (03 R70, R71) where every strand of the group is of crew c and none has arrived at barrier n: with the last
arrivals that the crew's live strands call for, the generation rises, the count returns to zero and the group goes on; with
fewer, the count rises by the group's strands and each of them leaves the group, parked until the phase completes. -/
def Sys2Proof.Claims.CrewBarrier : Prop :=
  ∀ (s : State) (c : Nat) (x : Crew) (imm : BitVec 32), s.cur.profile = .raster → s.cur.strands.Nodup → s.cur.strands ≠ [] →
    s.cur.cleared = false →
    (∀ i ∈ s.cur.strands, s.crewOf (strandBundle i) = some (c, x) ∧ arrivedGen (s.strand i) false imm.toNat = none ∧
      ((s.strand i).stat = .ready ∨ ∃ w, (s.strand i).stat = .parked w)) →
    let b := Tbl.getD x.bars imm.toNat Barrier.zero
    (b.count + s.cur.strands.length = s.crewLive c →
      ∃ t y, exec (.barCrew imm) s = .next t ∧ Tbl.find? t.crews c = some y ∧
        y = { x with bars := y.bars } ∧ Tbl.getD y.bars imm.toNat Barrier.zero = ⟨0, none, (b.gen + 1) % 2 ^ 32⟩ ∧
        (∀ n, n ≠ imm.toNat → Tbl.getD y.bars n Barrier.zero = Tbl.getD x.bars n Barrier.zero) ∧
        t.cur.strands = s.cur.strands ∧ (∀ i ∈ s.cur.strands, t.strand i = { s.strand i with stat := .ready }) ∧
        (∀ i, i ∉ s.cur.strands → t.strand i = s.strand i) ∧
        t = { s with strands := t.strands, crews := t.crews, cur := t.cur }) ∧
    (b.count + s.cur.strands.length < s.crewLive c →
      ∃ t y, exec (.barCrew imm) s = .next t ∧ Tbl.find? t.crews c = some y ∧
        Tbl.getD y.bars imm.toNat Barrier.zero = ⟨b.count + s.cur.strands.length, b.target, b.gen⟩ ∧
        t.cur.strands = [] ∧ (∀ i ∈ s.cur.strands, (t.strand i).stat = .parked (.barrier false imm.toNat b.gen) ∧
          (t.strand i).pc = s.cur.gpc) ∧
        t = { s with strands := t.strands, crews := t.crews, cur := t.cur })

/-- Instructions whose waits have been found over complete without a further effect: BAR.CREW, BAR.GROVE, WAIT, WAITT once the
conditions that can hold their group back hold (01 R20, R23), and WAIT on a mask of which no token is unfinished (03 R73). The
wake-up point of WAITT is a timing-dependent value: in a launch without REPLAY and capture its ordinal alone is counted (08 R184; log
26). -/
def Sys2Proof.Claims.WaitsOver : Prop :=
  ∀ (s : State) (imm : BitVec 32) (a : BitVec 6) (m : Bool),
    (s.cur.cleared = true →
      exec (.barCrew imm) s = .next s ∧ exec (.barGrove imm) s = .next s ∧ exec (.wait imm) s = .next s) ∧
    (s.cur.cleared = true → (∀ o ∈ s.cur.allOwners, LiveDelivery s o) →
      ∃ t, exec (.waitt a m) s = .next t ∧ OrdinalsOnly s t ∧ t = { s with launches := t.launches }) ∧
    ((∀ o ∈ s.cur.owners, ∀ j : Nat, j < 8 → imm.getLsbD j = true → s.tokenBusy o (BitVec.ofNat 3 j) = false) →
      s.cur.profile = .tile → exec (.wait imm) s = .next s)

/-- BAR.ARRIVE and BAR.WAIT (03 R72) of one bundle. An arrival adds one to the count of barrier n of the launch on the core, under
the target already set or, with the a field zero, the live bundles; at the target the generation rises and the count and the
target return to zero and unset; s(d) receives the generation of the phase it joined. A wait whose generation has been passed
writes the barrier's generation to s(d). -/
def Sys2Proof.Claims.CoreBarriers : Prop :=
  ∀ (s : State) (o k : Nat) (x : Stay) (d a : BitVec 6) (imm : BitVec 32), s.cur.owners = [o] → s.stayOf o = some (k, x) →
    Tbl.find? s.stays k = some x →
    let b := Tbl.getD x.bars imm.toNat Barrier.zero
    (∀ target : Nat, (a = 0 → target = b.target.getD (s.liveBundles x.launch (x.core.getD 0))) →
      (a ≠ 0 → (s.getS o a).poison = none ∧ (s.getS o a).val.toNat = target ∧ target ≠ 0 ∧
        (b.target = none ∨ b.target = some target)) →
      ∃ t y, exec (.barArrive d a imm) s = .next t ∧ Tbl.find? t.stays k = some y ∧ y = { x with bars := y.bars } ∧
        Tbl.getD y.bars imm.toNat Barrier.zero =
          (if b.count + 1 = target then ⟨0, none, (b.gen + 1) % 2 ^ 32⟩ else ⟨b.count + 1, some target, b.gen⟩) ∧
        (∀ n, n ≠ imm.toNat → Tbl.getD y.bars n Barrier.zero = Tbl.getD x.bars n Barrier.zero) ∧
        t.getS o d = (if d = 0 then .zero 64 else ⟨BitVec.ofNat 64 b.gen, none⟩) ∧
        t.owner o = { s.owner o with s := (t.owner o).s, joined := (t.owner o).joined } ∧
        (∀ n, Tbl.find? (t.owner o).joined n = if n = imm.toNat then some b.gen else Tbl.find? (s.owner o).joined n) ∧
        t = { s with owners := t.owners, stays := t.stays } ∧ (∀ j, j ≠ o → t.owner j = s.owner j) ∧
        (∀ r, r ≠ d → t.getS o r = s.getS o r) ∧ (∀ pa, t.byte pa = s.byte pa)) ∧
    (s.cur.cleared = true →
      ∃ t, exec (.barWait d a imm) s = .next t ∧
        t.getS o d = (if d = 0 then .zero 64 else ⟨BitVec.ofNat 64 b.gen, none⟩) ∧ ScalarFrame s t [o] d)

/-- The barriers of a crew and of a core, and waits (01 R20, R23, 03 R70-R73): arrivals, generations, who leaves the group, and that
an instruction whose wait is over completes without a further effect. -/
def Obligations.BarriersAndWaits : Prop := CrewBarrier ∧ WaitsOver ∧ CoreBarriers

/-- A fence leaves nothing to do where one order of all accesses is modelled (log 2); FENCE.I makes every later fetch of its
agents observe the invalidations completed so far (03 R77, 08 R182); YIELD on a raster core makes its strands stand back until
another group has been granted a slot (03 R82, 07 R158); CHK of a register that is not poisoned completes like NOP, and of a poisoned
one takes the trap poison with the recorded origin (03 R79); BKPT completes like NOP where the context's DBGCTL does not enable it,
and else takes the trap breakpoint, its immediate in DBGSTAT's CODE (03 R78, 06 R141). -/
def Obligations.FencesAndChecks : Prop :=
  (∀ (s : State) (imm : BitVec 32), exec (.fence imm) s = .next s ∧ exec (.fencePromote imm) s = .next s) ∧
  (∀ s : State, OnRaster s →
    (∃ t, exec .fenceI s = .next t ∧ StrandsBecome s t s.cur.strands (fun i => { s.strand i with fetchEpoch := s.epoch })) ∧
    (∃ t, exec .yield s = .next t ∧ StrandsBecome s t s.cur.strands (fun i => { s.strand i with held := true }))) ∧
  (∀ (s : State) (k : Nat) (st : Stream), OnTile s k st →
    ∃ t, exec .fenceI s = .next t ∧ StreamBecomes s t k { st with fetchEpoch := s.epoch }) ∧
  (∀ (s : State) (a : BitVec 6),
    ((∀ o ∈ s.cur.owners, (s.getS o a).poison = none) → exec (.chk 0 a) s = .next s) ∧
    ((∀ i ∈ s.cur.strands, (s.getV i a.toNat).poison = none) → exec (.chk 1 a) s = .next s) ∧
    ((∀ i ∈ s.cur.strands, (s.getD2 i a.toNat).poison = none) → exec (.chk 2 a) s = .next s)) ∧
  (∀ (s : State) (k : Nat) (st : Stream) (a : BitVec 6), OnTile s k st →
    (Tbl.getD st.w (st.phys a.toNat) (.zero 2048)).poison = none → s.cur.cleared = true → exec (.chk 3 a) s = .next s) ∧
  (∀ (s : State) (a : BitVec 6) (k : BitVec 3),
    let poisoned (o : Nat) : State := s.takeTrap 0x09 (s.originAt o k).addr (some (s.originAt o k))
    (∀ o, s.cur.owners = [o] → (s.getS o a).poison = some k → exec (.chk 0 a) s = .next (poisoned o)) ∧
    (∀ i, s.cur.strands = [i] → (s.getV i a.toNat).poison = some k → exec (.chk 1 a) s = .next (poisoned (strandBundle i))) ∧
    (∀ i, s.cur.strands = [i] → (s.getD2 i a.toNat).poison = some k → exec (.chk 2 a) s = .next (poisoned (strandBundle i))) ∧
    (∀ t st, OnTile s t st → s.cur.cleared = true → (Tbl.getD st.w (st.phys a.toNat) (.zero 2048)).poison = some k →
      exec (.chk 3 a) s = .next (poisoned t))) ∧
  (∀ (s : State) (imm : BitVec 32),
    ((s.ctx s.cur.ctx).dbgctl.getLsbD 1 = false → exec (.bkpt imm) s = .next s) ∧
    ((s.ctx s.cur.ctx).dbgctl.getLsbD 1 = true → (∃ w ∈ s.actors, s.skipOf w = none) →
      ∃ t, exec (.bkpt imm) s = .next t ∧ ∀ o ∈ s.cur.allOwners, (t.owner o).tcause = 0x10 ∧ (t.owner o).taddr = 0 ∧
        (t.owner o).tpc = s.cur.gpc ∧ (t.owner o).dbgstat.extractLsb' 32 32 = imm ∧ (t.owner o).dbgstat.extractLsb' 8 4 = 15))

/-- REGION and EXIT on a tile once its processors have drained (03 R80, R81, 14 R242, 18 R302): REGION makes the checkpoint of the
stream, with the rotation steps that are due, and forgets its restarts unless a restart of its own region carries it out again (log
110); EXIT ends the part, clears the loops and hands the stream to the task sequencer, which goes on
to the kernel, its next iteration, or the done signal. -/
def Sys2Proof.Claims.TileRegionAndExit : Prop :=
  ∀ (s : State) (k : Nat) (st : Stream) (off : BitVec 32), OnTile s k st → s.cur.cleared = true →
    (∃ t, exec (.region off) s = .next t ∧ StreamBecomes s t k
      { st with check := ⟨wordsOn s off, st.loops, st.rotDue.repeat rotateShape st.shape, (s.owner k).acr, st.pairIssued, st.pos⟩,
                restarts := if st.anew then st.restarts else 0 }) ∧
    (∃ t st', exec .exit s = .next t ∧ t.tile k = { s.tile k with stream := some st', slavedTo := (t.tile k).slavedTo } ∧
      (∀ j, t.tile j = { t.tile j with slavedTo := if (s.tile j).slavedTo = some k then none else (s.tile j).slavedTo }) ∧
      (∀ j, j ≠ k → t.tile j = { s.tile j with slavedTo := (t.tile j).slavedTo }) ∧
      st' = { st with running := false, head := none, loops := [], target := none, paired := none, pairIssued := false,
                      pos := st'.pos } ∧
      (st.pos = .plain → st'.pos = .plain) ∧
      (∀ r ds p n, st.pos = .chain r ds p n → st'.pos =
        (if p = 0 then .chain r ds 1 0 else if p = 1 then .chain r ds 1 (n + 1) else .chain r ds 3 0)) ∧
      t = { s with tiles := t.tiles })

/-- What the end of a strand may change besides the strand and its bundle: the barriers and records of its crew and grove, the records of
its context, and a SPLIT drain of its core, which starts once the bundles that are left all stand at SPLIT (03 R71, R84, 07 R161). -/
structure Sys2Proof.Claims.ExitFrame (s t : State) : Prop where
  rest : t = { s with strands := t.strands, bundles := t.bundles, crews := t.crews, groves := t.groves, ctxs := t.ctxs, cores := t.cores,
                      freeCtr := t.freeCtr }
  ctxs : ∀ c, t.ctx c = { s.ctx c with records := (t.ctx c).records }
  cores : ∀ k, t.core k = { s.core k with splitting := (t.core k).splitting }

/-- EXIT of one strand on a raster core (03 R81): the strand is no longer live and its loops are cleared; where it was the last
live strand of its bundle, the bundle has exited; no other strand, no register and no byte of memory changes. A pixel strand's
pending outputs join the fragments of the launch that issued its mesh (09 R191, 11 R207). -/
def Sys2Proof.Claims.RasterExit : Prop :=
  (∀ (s : State) (i l : Nat) (p : PixelIn) (x : Launch), s.cur.profile = .raster → s.cur.strands = [i] →
    (s.strand i).pixel = some p → p.launch = l → Tbl.find? s.launches l = some x →
    ∃ t, exec .exit s = .next t ∧ t.strand i = { s.strand i with stat := .dead, loops := [], moved := true } ∧
      Tbl.find? t.launches l = some { x with frags := x.frags ++ [⟨p.key, p, (s.strand i).out, s.fzOf i⟩] } ∧
      ExitFrame { s with launches := t.launches } t) ∧
  ∀ (s : State) (i : Nat), s.cur.profile = .raster → s.cur.strands = [i] → (s.strand i).pixel = none →
    ∃ t, exec .exit s = .next t ∧ t.strand i = { s.strand i with stat := .dead, loops := [], moved := true } ∧
      (∀ j, j ≠ i → t.strand j = s.strand j) ∧
      (∀ b x, Tbl.find? s.bundles b = some x → Tbl.find? t.bundles b =
        some (if b = strandBundle i ∧ (∀ j ∈ s.liveStrands b, j = i) then { x with exited := true } else x)) ∧
      ExitFrame s t

/-- REGION and EXIT (03 R80, R81, 14 R242, 18 R302, 09 R191): on a tile the checkpoint and the end of a part, on a raster core the end of
a strand, and of its bundle with the last one. -/
def Obligations.RegionAndExit : Prop := TileRegionAndExit ∧ RasterExit

/-- SREAD (03 R89, 14 R237, R255, 23 R366) of one bundle or stream: s(d) receives the register named, with the defined bits only,
and nothing else changes. On a tile Q6POP removes the oldest entry of q6 (03 R90). -/
def Sys2Proof.Claims.SystemRegisterReads : Prop :=
  (∀ (s : State) (o : Nat) (d : BitVec 6) (reg : BitVec 12), s.cur.owners = [o] →
    (s.cur.cleared = true ∨ 288 ≤ o) →
    let v : Option Dword :=
      match reg.toNat with
      | 0x000 => some (s.owner o).acr
      | 0x001 => some (s.owner o).tcause
      | 0x002 => some (s.owner o).taddr
      | 0x003 => some (s.owner o).tpc
      | 0x011 => some ((s.ctx s.cur.ctx).leasemax &&& 0x1FFF)
      | 0x040 => some (s.ctx s.cur.ctx).dbgctl
      | n =>
        if 0x008 ≤ n ∧ n ≤ 0x00F then some (s.mbx s.cur.ctx (n - 8))
        else if 0x020 ≤ n ∧ n ≤ 0x02F then some (Tbl.getD (s.ctx s.cur.ctx).gov (n - 0x20) GovStream.reset).deadline
        else if 0x048 ≤ n ∧ n ≤ 0x04F then some (Tbl.getD (s.ctx s.cur.ctx).dbgbpa (n - 0x48) 0)
        else none
    ∀ w, v = some w → ∃ t, exec (.sread reg d) s = .next t ∧
      t.getS o d = (if d = 0 then .zero 64 else ⟨w, none⟩) ∧ ScalarFrame s t [o] d) ∧
  (∀ (s : State) (o : Nat) (d : BitVec 6), s.cur.owners = [o] → LiveDelivery s o →
    (∃ t, exec (.sread 0x041 d) s = .next t ∧
      t.getS o d = (if d = 0 then .zero 64 else ⟨(s.owner o).dbgstat, none⟩) ∧
      ScalarFrame { s with launches := t.launches } t [o] d) ∧
    (∀ n : Nat, n < 16 → ∃ t, exec (.sread (BitVec.ofNat 12 (0x30 + n)) d) s = .next t ∧
      t.getS o d = (if d = 0 then .zero 64 else ⟨(Tbl.getD (s.ctx s.cur.ctx).gov n GovStream.reset).step, none⟩) ∧
      ScalarFrame { s with launches := t.launches } t [o] d) ∧
    (∃ t v, exec (.sread 0x010 d) s = .next t ∧ s.time ≤ v ∧ t.time = v ∧
      t.getS o d = if d = 0 then .zero 64 else ⟨BitVec.ofNat 64 v, none⟩)) ∧
  (∀ (s : State) (o c : Nat) (d : BitVec 6), s.cur.owners = [o] → s.coreOf o = some c → LiveDelivery s o →
    ∃ t, exec (.sread 0x012 d) s = .next t ∧
      t.getS o d = (if d = 0 then .zero 64 else ⟨BitVec.ofNat 64 (min (s.core c).drain 0xFFFF * 2 ^ 24 +
        (s.core c).phase % 256 * 2 ^ 16 +
        (if ∃ e ∈ s.crews, e.2.core = some c ∧ e.2.ended = false ∧ hdrExcl (s.header e.2.launch) = true then 16 else 0) +
        (s.core c).granules % 16), none⟩) ∧
      ScalarFrame { s with launches := t.launches } t [o] d) ∧
  (∀ (s : State) (k : Nat) (st : Stream) (d : BitVec 6) (e : Nat) (rest : List Nat), OnTile s k st →
    Tbl.getD st.queues 6 [] = e :: rest → Tbl.getD st.hidden 6 0 ≤ rest.length →
    ∃ t, exec (.sread 0x050 d) s = .next t ∧ t.getS k d = (if d = 0 then .zero 64 else ⟨BitVec.ofNat 64 e, none⟩) ∧
      StreamBecomes { s with owners := t.owners } t k { st with queues := Tbl.put [] st.queues 6 rest })

/-- SWRITE (03 R89, 01 R20) of one bundle or stream: a write of ACR takes effect from the next group and keeps the defined bits
[8:0] alone, a write of a mailbox is MBX's; nothing else changes. -/
def Sys2Proof.Claims.SystemRegisterWrites : Prop :=
  ∀ (s : State) (o : Nat) (a : BitVec 6) (reg : BitVec 12), s.cur.owners = [o] → (s.getS o a).poison = none →
    (reg = 0 → ∃ t, exec (.swrite reg a) s = .next t ∧ t = { s with owners := t.owners } ∧
      t.owner o = { s.owner o with acrNext := some ((s.getS o a).val &&& 0x1FF) } ∧
      (∀ j, j ≠ o → t.owner j = s.owner j) ∧ (∀ pa, t.byte pa = s.byte pa)) ∧
    (8 ≤ reg.toNat → reg.toNat < 16 → ∃ t, exec (.swrite reg a) s = .next t ∧ t = { s with ctxs := t.ctxs } ∧
      (∀ c n, t.mbx c n = if c = s.cur.ctx ∧ n = reg.toNat - 8 then (s.getS o a).val else s.mbx c n) ∧
      (∀ c, t.ctx c = { s.ctx c with mbx := (t.ctx c).mbx }))

/-- The system registers (03 R89, R90, 01 R20, 14 R237, R255, 23 R366): what SREAD delivers of each, and what SWRITE of ACR and of the
mailboxes leaves. -/
def Obligations.SystemRegisters : Prop := SystemRegisterReads ∧ SystemRegisterWrites

/-- The plain global loads (04 R105, R114) of a strand whose access succeeds: the bytes at the physical address arrive
zero-extended, little-endian, in v(d), in d(d), or in d(d) and d(d+1), those above the last scale of a page with inline scales as
zero (02 R35); nothing else changes but the trace in the lease filter, and every byte of memory is as before. A word that memory has marked uncorrectable arrives as poison with origin soft-error at
the access's address, and the error is logged (26 R395). -/
def Obligations.GlobalLoads : Prop :=
  ∀ (s : State) (g : Guard) (i : Nat) (d a : BitVec 6) (lb : Bool) (off : BitVec 31) (pa : Nat) (p : PageInfo),
    OneStrand s g i → (baseOf s i a lb).poison = none →
    (∀ e ∈ wordLoads g d a lb off, Reach s (addressOf s i a lb off) e.1 e.1 false true pa p →
      (s.isMarked pa e.1 = false → ∃ t, exec e.2 s = .next t ∧ t.laneV i d = ⟨BitVec.ofNat 32 (s.pageLE p pa e.1), none⟩ ∧
        LaneFrame { s with bundles := t.bundles, cores := t.cores } t [i] (fun n => n = d.toNat) ∧
        LeaseTrace s t (strandBundle i)) ∧
      (s.isMarked pa e.1 = true → ∃ t k, exec e.2 s = .next t ∧ t.laneV i d = ⟨0, some k⟩ ∧
        t.originAt (strandBundle i) k = ⟨0x38, addressOf s i a lb off, false, 0, BitVec.ofNat 8 (i % 64)⟩ ∧
        (t.errLog.getLast?).map (fun x => (x.event.addr, x.event.kind)) = some (pa, 2) ∧ (∀ x, t.byte x = s.byte x))) ∧
    (Reach s (addressOf s i a lb off) 8 8 false true pa p → s.isMarked pa 8 = false →
      ∃ t, exec (.ld64 g d a lb off) s = .next t ∧
        (∀ j : Nat, j < 2 → t.getV i (2 * d.toNat + j) = ⟨BitVec.ofNat 32 (s.pageLE p pa 8 / 2 ^ (32 * j)), none⟩) ∧
        LaneFrame { s with bundles := t.bundles, cores := t.cores } t [i] (fun n => n / 2 = d.toNat) ∧
        LeaseTrace s t (strandBundle i)) ∧
    (Reach s (addressOf s i a lb off) 16 16 false true pa p → s.isMarked pa 16 = false →
      ∃ t, exec (.ld128 g d a lb off) s = .next t ∧
        (∀ j : Nat, j < 4 → t.getV i (2 * d.toNat + j) = ⟨BitVec.ofNat 32 (s.pageLE p pa 16 / 2 ^ (32 * j)), none⟩) ∧
        LaneFrame { s with bundles := t.bundles, cores := t.cores } t [i]
          (fun n => 2 * d.toNat ≤ n ∧ n < 2 * d.toNat + 4) ∧
        LeaseTrace s t (strandBundle i))

/-- The plain global stores (04 R105, R114) of a strand whose access succeeds: the low bytes of v(d), of d(d), or of d(d) and
d(d+1) stand at the physical address of the strand's own address, but for those above the last scale of a page with inline scales (02
R35), every other byte of memory is as before, and no register changes. -/
def Obligations.GlobalStores : Prop :=
  ∀ (s : State) (g : Guard) (i : Nat) (d a : BitVec 6) (lb : Bool) (off : BitVec 31) (pa : Nat) (p : PageInfo),
    OneStrand s g i → (baseOf s i a lb).poison = none →
    (∀ e ∈ wordStores g d a lb off, (s.laneV i d).poison = none →
      Reach s (addressOf s i a lb off) e.1 e.1 true true pa p →
      ∃ t, exec e.2 s = .next t ∧ Stored s t pa (p.room pa e.1) (s.laneV i d).val.toNat ∧
        t = { s with mem := t.mem, stale := t.stale, writes := t.writes, oldMaps := t.oldMaps, bundles := t.bundles, cores := t.cores } ∧
        LeaseTrace s t (strandBundle i)) ∧
    ((s.getD2 i d.toNat).poison = none → Reach s (addressOf s i a lb off) 8 8 true true pa p →
      ∃ t, exec (.st64 g d a lb off) s = .next t ∧ Stored s t pa (p.room pa 8) (s.getD2 i d.toNat).val.toNat ∧
        t = { s with mem := t.mem, stale := t.stale, writes := t.writes, oldMaps := t.oldMaps, bundles := t.bundles, cores := t.cores } ∧
        LeaseTrace s t (strandBundle i)) ∧
    ((s.getD2 i d.toNat).poison = none → (s.getD2 i (d.toNat + 1)).poison = none →
      Reach s (addressOf s i a lb off) 16 16 true true pa p →
      ∃ t, exec (.st128 g d a lb off) s = .next t ∧
        Stored s t pa (p.room pa 16) ((s.getD2 i d.toNat).val.toNat + 2 ^ 64 * (s.getD2 i (d.toNat + 1)).val.toNat) ∧
        t = { s with mem := t.mem, stale := t.stale, writes := t.writes, oldMaps := t.oldMaps, marked := t.marked, bundles := t.bundles,
                     cores := t.cores } ∧
        (∀ u, u ∈ t.marked ↔ u ∈ s.marked ∧ ¬(p.room pa 16 = 16 ∧ pa / 16 ≤ u ∧ u ≤ (pa + 15) / 16)) ∧ LeaseTrace s t (strandBundle i))

/-- R102's first three conditions in their order, for every plain load and store: a poisoned base is a poison-use, bits [63:60]
of the address a bad-address, and an address not aligned to the size a misaligned, each the precise trap with the address of the
strand in TADDR; a store's poisoned data is a poison-use where its base is plain; no strand has accessed memory. -/
def Sys2Proof.Claims.AccessTraps : Prop :=
  ∀ (s : State) (g : Guard) (i : Nat) (d a : BitVec 6) (lb : Bool) (off : BitVec 31), OneStrand s g i →
    (∀ e ∈ wordLoads g d a lb off ++ [(8, .ld64 g d a lb off), (16, .ld128 g d a lb off)],
      (∀ k, (baseOf s i a lb).poison = some k →
        exec e.2 s = .next (s.takeTrap 0x08 (s.originAt (strandBundle i) k).addr (some (s.originAt (strandBundle i) k)))) ∧
      ((baseOf s i a lb).poison = none → 2 ^ 60 ≤ (addressOf s i a lb off).toNat →
        exec e.2 s = .next (s.takeTrap 0x18 (addressOf s i a lb off) none)) ∧
      ((baseOf s i a lb).poison = none → (addressOf s i a lb off).toNat < 2 ^ 60 →
        (addressOf s i a lb off).toNat % e.1 ≠ 0 →
        exec e.2 s = .next (s.takeTrap 0x19 (addressOf s i a lb off) none))) ∧
    ∀ e ∈ (wordStores g d a lb off).map (fun x => (x.1, (s.laneV i d).poison, x.2)) ++
        [(8, (s.getD2 i d.toNat).poison, .st64 g d a lb off),
         (16, (s.getD2 i d.toNat).poison.or (s.getD2 i (d.toNat + 1)).poison, .st128 g d a lb off)],
      (∀ k, (baseOf s i a lb).poison.or e.2.1 = some k →
        exec e.2.2 s = .next (s.takeTrap 0x08 (s.originAt (strandBundle i) k).addr (some (s.originAt (strandBundle i) k)))) ∧
      ((baseOf s i a lb).poison = none → e.2.1 = none → 2 ^ 60 ≤ (addressOf s i a lb off).toNat →
        exec e.2.2 s = .next (s.takeTrap 0x18 (addressOf s i a lb off) none)) ∧
      ((baseOf s i a lb).poison = none → e.2.1 = none → (addressOf s i a lb off).toNat < 2 ^ 60 →
        (addressOf s i a lb off).toNat % e.1 ≠ 0 →
        exec e.2.2 s = .next (s.takeTrap 0x19 (addressOf s i a lb off) none))

/-- The one entry of a precise trap (14 R235-R238, R255): every owner of the group receives the cause, with the origin's fields where a
poisoned value was used, the trap's address, the group's first address and STATE 1; with a debugger attached its strands are
trap-halted at that address, and without one the launch is aborted, where the hub can hold the trap records (25 R379). No other owner's
trap registers, no register, and no byte of device memory changes. -/
def Sys2Proof.Claims.TrapEntry : Prop :=
  ∀ (s : State) (cause : BitVec 8) (addr : Dword) (x : Option Origin),
    let t := s.takeTrap cause addr x
    let os := s.cur.allOwners
    (∀ o ∈ os, (t.owner o).tcause = tcauseWord cause x ∧ (t.owner o).taddr = addr ∧ (t.owner o).tpc = s.cur.gpc ∧
      (t.owner o).dbgstat.extractLsb' 3 61 = (s.owner o).dbgstat.extractLsb' 3 61 ∧
      (Tbl.find? s.bundles o = none ∨ (∃ i ∈ s.cur.strands, strandBundle i = o) → (t.owner o).dbgstat.extractLsb' 0 3 = 1)) ∧
    (tcauseWord cause none = cause.setWidth 64) ∧
    (∀ y : Origin, (tcauseWord cause (some y)).extractLsb' 0 8 = cause ∧ (tcauseWord cause (some y)).extractLsb' 16 8 = y.ostrand ∧
      (tcauseWord cause (some y)).extractLsb' 24 7 = y.ostage ∧ (tcauseWord cause (some y)).getLsbD 31 = y.omill ∧
      (tcauseWord cause (some y)).extractLsb' 32 8 = y.cause) ∧
    (∀ o, o ∉ os → t.owner o = { s.owner o with dbgstat := (t.owner o).dbgstat }) ∧
    (∀ o r, t.getS o r = s.getS o r) ∧ (∀ i n, t.getV i n = s.getV i n) ∧ (∀ o, t.acr o = s.acr o) ∧
    (∀ pa, pa < 2 ^ 51 → (∀ o l z, o ∈ os → s.launchOf o = some l → Tbl.find? s.launches l = some z →
        ∀ q k, z.origin ≠ .hostRing q k) → t.byte pa = s.byte pa) ∧
    ((s.ctx s.cur.ctx).dbgctl.getLsbD 3 = true → ∀ i ∈ s.cur.strands, (t.strand i).stat = .halted ∧ (t.strand i).pc = s.cur.gpc) ∧
    ((s.ctx s.cur.ctx).dbgctl.getLsbD 3 = false → ∀ o ∈ os, ∀ l z, s.launchOf o = some l → Tbl.find? s.launches l = some z →
      (s.ctx z.ctx).ring.held.length + os.length ≤ 64 → ∃ w, Tbl.find? t.launches l = some w ∧ w.phase = .aborted)

/-- Precise traps (03 R66, R67, 04 R102, 14 R235-R238): the entry that every trap takes, and that bad targets, a third loop level and
the conditions of an access take it. -/
def Obligations.TrapsTaken : Prop := ControlTraps ∧ AccessTraps ∧ TrapEntry

/-- The format-decoding accesses and the read-only load (04 R106-R108) of a strand whose element is found: LDX delivers the
element of the page's format, raw, extended or decoded into FP32 with its scale, and raises the flags of the decoding; STX
stores the code of v(d) in the element's own bits and leaves every byte outside the element's as before; LDRO delivers memory's
word or one that a store has replaced since the later of the start of the strand's launch, the last INV.RO of its core and what the
strand has seen (08 R181; log 29). -/
def Obligations.FormatAccesses : Prop :=
  ∀ (s : State) (g : Guard) (i : Nat) (d a : BitVec 6) (lb : Bool) (off : BitVec 31), OneStrand s g i →
    (baseOf s i a lb).poison = none →
    (∀ x, s.elemAccess s.cur.ctx (baseOf s i a lb).val off.toInt false = .ok (x, s) → s.elemMarked x = false →
      let r := ldxValue x.page.fmt (s.bookOf i) (s.fzOf i) (s.scaleOf x) (s.codeAt x)
      ∃ t, exec (.ldx g d a lb off) s = .next t ∧ t.laneV i d = ⟨BitVec.ofNat 32 r.1, none⟩ ∧
        FloatFrame { s with bundles := t.bundles, cores := t.cores } t [i] d.toNat (flagsOf [i] (fun _ => r.2)) ∧
        LeaseTrace s t (strandBundle i)) ∧
    (∀ x, (s.laneV i d).poison = none → s.elemAccess s.cur.ctx (baseOf s i a lb).val off.toInt true = .ok (x, s) →
      let r := stxCode x.page.fmt (s.bookOf i) (s.modeOf i) (s.fzOf i) ((s.acr (strandBundle i)).getLsbD 8) (s.scaleOf x)
        (s.laneV i d).val.toNat
      let n := elemBytes x.page.fmt x.e
      ∃ t, exec (.stx g d a lb off) s = .next t ∧
        Stored s t x.pa n (elemInto x.page.fmt x.e (s.readLE x.pa n) r.1) ∧
        t = { s with mem := t.mem, stale := t.stale, writes := t.writes, oldMaps := t.oldMaps, marked := t.marked, owners := t.owners,
                     bundles := t.bundles, cores := t.cores } ∧
        (∀ o, t.owner o = { s.owner o with acr := (t.owner o).acr, acrNext := (t.owner o).acrNext }) ∧
        (∀ o, (t.owner o).acr = (s.owner o).acr ||| (if o = strandBundle i then BitVec.ofNat 64 r.2.toNat else 0)) ∧
        LeaseTrace s t (strandBundle i)) ∧
    (∀ pa p, Reach s (addressOf s i a lb off) 4 4 false true pa p → s.isMarked pa 4 = false → p.room pa 4 = 4 →
      let open_ := (Tbl.getD s.stale pa []).filter (fun x => decide (s.roFloor i pa < x.gone))
      (open_ = [] → ∃ t, exec (.ldro g d a lb off) s = .next t ∧ t.laneV i d = ⟨BitVec.ofNat 32 (s.readLE pa 4), none⟩ ∧
        LaneFrame { s with bundles := t.bundles, cores := t.cores } t [i] (fun n => n = d.toNat) ∧
        LeaseTrace s t (strandBundle i)) ∧
      ∃ t v, exec (.ldro g d a lb off) s = .next t ∧ t.laneV i d = ⟨v, none⟩ ∧
        (v = BitVec.ofNat 32 (s.readLE pa 4) ∨ ∃ x ∈ open_, v = x.word) ∧
        LaneFrame { s with bundles := t.bundles, cores := t.cores, roSeen := t.roSeen, freeCtr := t.freeCtr } t [i]
          (fun n => n = d.toNat) ∧
        (∀ k, k ≠ roKey i pa → Tbl.find? t.roSeen k = Tbl.find? s.roSeen k) ∧ LeaseTrace s t (strandBundle i))

/-- The scratchpad accesses of a raster strand (04 R109, R110) whose address is aligned, in range and present: LDS delivers the
word at the place the address names, STS writes the word there and nothing above the allocation's size, but for bytes of a line that
a copy in flight has already written (08 R176), and PRES delivers to p(d) whether the line is present (R110, 08 R184). -/
def Sys2Proof.Claims.RasterScratchpad : Prop :=
  ∀ (s : State) (g : Guard) (i c x : Nat) (above : Bool) (y : Crew) (d a : BitVec 6) (lb : Bool) (off : BitVec 31),
    OneStrand s g i → (baseOf s i a lb).poison = none → (addressOf s i a lb off).toNat % 4 = 0 →
    s.scratchAt (s.crewId i) (addressOf s i a lb off) = some (c, x, above) → Tbl.find? s.crews c = some y →
    (s.crewLineAbsent c x = false → s.crewMarked c x 4 = false → s.cur.cleared = true →
      ∃ t, exec (.lds g d a lb off) s = .next t ∧
        t.laneV i d = ⟨BitVec.ofNat 32 (if above then 0 else s.scratchLE c x 4), none⟩ ∧
        LaneFrame s t [i] (fun n => n = d.toNat)) ∧
    ((s.laneV i d).poison = none →
      ∃ t, exec (.sts g d a lb off) s = .next t ∧ t = { s with crews := t.crews } ∧
        (∀ k, k ≠ c → Tbl.find? t.crews k = Tbl.find? s.crews k) ∧
        (∃ z, Tbl.find? t.crews c = some z ∧ z = { y with scratch := z.scratch }) ∧
        (let stored (k : Nat) : Prop := t.scratchByte c k = BitVec.ofNat 8 ((s.laneV i d).val.toNat / 256 ^ (k - x))
         (∀ k, ¬(above = false ∧ x ≤ k ∧ k < x + 4) → t.scratchByte c k = s.scratchByte c k) ∧
         (∀ k, above = false → x ≤ k → k < x + 4 → s.lineInFlight (.crew c) (x / 128) = false → stored k) ∧
         (∀ k, above = false → x ≤ k → k < x + 4 → stored k ∨ t.scratchByte c k = s.scratchByte c k))) ∧
    (d.toNat < 8 → LiveDelivery s (strandBundle i) →
      ∃ t, exec (.pres g d a lb off) s = .next t ∧
        t.getP i d.toNat = (d == 0 || !s.crewLineAbsent c x) ∧
        PredFrame { s with launches := t.launches } t [i] d.toNat)

/-- The scratchpad and queue accesses of a tile stream (04 R109, R110, R114, R116) whose lines are present: LDS and LDA deliver the
dword, STS and STA store it where no copy in flight is to write the line, PRES delivers the presence of the line, LDQ pushes 256 bytes as one queue entry and STQ stores the
oldest entry of an earlier group; a byte stored in a region is marked dirty (15 R266); nothing else changes. -/
def Sys2Proof.Claims.TileScratchpad : Prop :=
  ∀ (s : State) (k : Nat) (st : Stream) (g : Guard) (d a : BitVec 6) (off : BitVec 31), OnTile s k st → s.cur.cleared = true →
    (s.getS k a).poison = none →
    let addr := (s.getS k a).val + off.signExtend 64
    (addr.toNat % 8 = 0 → addr.toNat + 8 ≤ 524288 → addr.toNat / 128 ∉ (s.tile k).absent → (s.tile k).isMarked addr.toNat 8 = false →
      ∀ i ∈ [Instr.lds g d a false off, Instr.lda g d a false off, Instr.ldS g d a false off], ∃ t, exec i s = .next t ∧
        t.getS k d = (if d = 0 then .zero 64 else ⟨BitVec.ofNat 64 ((s.tile k).readLE addr.toNat 8), none⟩) ∧
        ScalarFrame s t [k] d) ∧
    (addr.toNat % 8 = 0 → addr.toNat + 8 ≤ 524288 → (s.getS k d).poison = none →
      s.lineInFlight (.tile k) (addr.toNat / 128) = false →
      ∀ i ∈ [Instr.sts g d a false off, Instr.sta g d a false off], ∃ t, exec i s = .next t ∧ t = { s with tiles := t.tiles } ∧
        t.tile k = { s.tile k with scratch := (t.tile k).scratch, dirty := (t.tile k).dirty, written := (t.tile k).written } ∧
        (∀ j, j ≠ k → t.tile j = s.tile j) ∧
        (∀ x, (t.tile k).byte x = if addr.toNat ≤ x ∧ x < addr.toNat + 8 then
          BitVec.ofNat 8 ((s.getS k d).val.toNat / 256 ^ (x - addr.toNat)) else (s.tile k).byte x) ∧
        (∀ u, u ∈ (t.tile k).dirty ↔ u ∈ (s.tile k).dirty ∨
          (u = addr.toNat / 8 ∧ ∃ e, (s.tile k).regionAt (addr.toNat / 128) = some e))) ∧
    (addr.toNat < 524288 → LiveDelivery s k →
      ∃ t, exec (.pres g d a false off) s = .next t ∧
        t.getS k d = (if d = 0 then .zero 64 else ⟨if addr.toNat / 128 ∈ (s.tile k).absent then 0 else 1, none⟩) ∧
        ScalarFrame { s with launches := t.launches } t [k] d) ∧
    (addr.toNat % 32 = 0 → addr.toNat + 256 ≤ 524288 →
      ((∀ l, addr.toNat / 128 ≤ l → l ≤ (addr.toNat + 255) / 128 → l ∉ (s.tile k).absent) →
        (Tbl.getD st.queues d.toNat []).length < 8 →
        ∃ t, exec (.ldq g d a false off) s = .next t ∧ StreamBecomes s t k
          { st with queues := Tbl.put [] st.queues d.toNat
                                (Tbl.getD st.queues d.toNat [] ++ [(s.tile k).readLE addr.toNat 256]) }) ∧
      (∀ e rest, Tbl.getD st.queues d.toNat [] = e :: rest → Tbl.getD st.hidden d.toNat 0 ≤ rest.length →
        (∀ l ∈ linesOf addr.toNat 256, s.lineInFlight (.tile k) l = false) →
        ∃ t, exec (.stq g d a false off) s = .next t ∧ t = { s with tiles := t.tiles } ∧
          (t.tile k).stream = some { st with queues := Tbl.put [] st.queues d.toNat rest } ∧
          (∀ j, j ≠ k → t.tile j = s.tile j) ∧
          (∀ x, (t.tile k).byte x = if addr.toNat ≤ x ∧ x < addr.toNat + 256 then
            BitVec.ofNat 8 (e / 256 ^ (x - addr.toNat)) else (s.tile k).byte x)))

/-- The scratchpads (04 R109, R110, R114, R116, 15 R266): a raster crew's, and a tile's with its queues. -/
def Obligations.Scratchpads : Prop := RasterScratchpad ∧ TileScratchpad

/-- LD.S of a raster strand (04 R115) never stops on conditions 2 to 6 of R102: a good access delivers the dword to d(d), and a
page that is not resident or may not be read, a wrong tag, and an address that is out of reach or not aligned deliver poison whose
origin holds the cause and the address. On a tile the same holds of an address that is not aligned or outside the scratchpad. -/
def Obligations.SpeculativeLoads : Prop :=
  ∀ (s : State) (g : Guard) (i : Nat) (d a : BitVec 6) (lb : Bool) (off : BitVec 31),
    (OneStrand s g i → (baseOf s i a lb).poison = none → ∀ pa p, Reach s (addressOf s i a lb off) 8 8 false true pa p → s.isMarked pa 8 = false →
      ∃ t, exec (.ldS g d a lb off) s = .next t ∧
        (∀ j : Nat, j < 2 → t.getV i (2 * d.toNat + j) = ⟨BitVec.ofNat 32 (s.pageLE p pa 8 / 2 ^ (32 * j)), none⟩) ∧
        LaneFrame { s with bundles := t.bundles, cores := t.cores } t [i] (fun n => n / 2 = d.toNat)) ∧
    (OneStrand s g i → (baseOf s i a lb).poison = none → ∀ cause : BitVec 8,
      (cause = 0x18 ∧ 2 ^ 60 ≤ (addressOf s i a lb off).toNat ∨
        cause = 0x19 ∧ (addressOf s i a lb off).toNat < 2 ^ 60 ∧ (addressOf s i a lb off).toNat % 8 ≠ 0 ∨
        cause = 0x40 ∧ (addressOf s i a lb off).toNat < 2 ^ 60 ∧ (addressOf s i a lb off).toNat % 8 = 0 ∧
          s.walk s.cur.ctx (addressOf s i a lb off).toNat = .absent ∧ s.oldWalks s.cur.ctx (addressOf s i a lb off).toNat = [] ∨
        (addressOf s i a lb off).toNat < 2 ^ 60 ∧ (addressOf s i a lb off).toNat % 8 = 0 ∧
          s.oldWalks s.cur.ctx (addressOf s i a lb off).toNat = [] ∧
          ∃ p, s.walk s.cur.ctx (addressOf s i a lb off).toNat = .page p ∧
            (cause = 0x41 ∧ p.canRead = false ∨
             cause = 0x1D ∧ p.canRead = true ∧ p.tagged = true ∧
               Tbl.getD s.tags ((p.base + (addressOf s i a lb off).toNat % p.size) / 32) 0 ≠ (addressOf s i a lb off).extractLsb' 56 4)) →
      ∃ t k, exec (.ldS g d a lb off) s = .next t ∧
        (∀ j : Nat, j < 2 → t.getV i (2 * d.toNat + j) = ⟨0, some k⟩) ∧
        t.originAt (strandBundle i) k = ⟨cause, addressOf s i a lb off, false, 0, BitVec.ofNat 8 (i % 64)⟩ ∧
        t = { s with strands := t.strands, owners := t.owners }) ∧
    (∀ k st, OnTile s k st → (s.getS k a).poison = none →
      let addr := (s.getS k a).val + off.signExtend 64
      ∀ cause : BitVec 8, cause = 0x19 ∧ addr.toNat % 8 ≠ 0 ∨ cause = 0x1A ∧ addr.toNat % 8 = 0 ∧ 524288 < addr.toNat + 8 →
        ∃ t j, exec (.ldS g d a false off) s = .next t ∧ t.getS k d = (if d = 0 then .zero 64 else ⟨0, some j⟩) ∧
          t.originAt k j = ⟨cause, addr, false, 0, 0⟩ ∧ t = { s with owners := t.owners } ∧
          (∀ o, o ≠ k → t.owner o = s.owner o) ∧ ∀ q, q ≠ d → (t.getS k q) = s.getS k q)

/-- The maintenance instructions (04 R117-R119, 08 R181, R182): after INV.RO no read-only load of its strand's core delivers a word that a
store has replaced before it; CWB and CINV
bring the words their core holds dirty in a range to memory and ICINV invalidates words in memory for a later fetch, none of
them changing a byte, the range from s(a) and s(b) or, with m, from the strand's own d(a) and v(b); PROBE of a range whose pages are resident changes
nothing; TAGSET gives the granule the address's tag and TAGGET reads it, where the page is tagged. -/
def Obligations.CacheAndTags : Prop :=
  (∀ (s : State) (g : Guard) (i k : Nat), OneStrand s g i → s.coreOf (strandBundle i) = some k →
    ∃ t, exec (.invRo g) s = .next t ∧ t = { s with cores := t.cores } ∧
      t.core k = { s.core k with ro := s.writes } ∧ ∀ j, j ≠ k → t.core j = s.core j) ∧
  (∀ (s : State) (g : Guard) (i : Nat) (a b : BitVec 6) (m : Bool), OneStrand s g i →
    let base : Tagged 64 := if m then s.getD2 i a.toNat else s.getS (strandBundle i) a
    let len : Nat := if m then (s.getV i b.toNat).val.toNat else (s.getS (strandBundle i) b).val.toNat
    base.poison = none → (if m then (s.getV i b.toNat).poison else (s.getS (strandBundle i) b).poison) = none →
    base.val.toNat < 2 ^ 60 →
    let parts := s.residentParts s.cur.ctx (base.val, len)
    let inside (w : Nat) : Prop := ∃ q ∈ parts, q.1 ≤ w ∧ w < q.1 + q.2
    (∀ instr ∈ [Instr.cwb g a b m, Instr.cinv g a b m], ∃ t, exec instr s = .next t ∧ t = { s with stale := t.stale } ∧
      ∀ w x, Tbl.find? s.stale w = some x → Tbl.find? t.stale w =
        some (x.map (fun (y : OldWord) =>
          if inside w ∧ y.stage = 0 ∧ y.core = (s.coreOf s.firstOwner).getD 0 then { y with stage := 1 } else y))) ∧
    (∃ t, exec (.icinv g a b m) s = .next t ∧ t = { s with stale := t.stale, epoch := s.epoch + 1 } ∧
      ∀ w x, Tbl.find? s.stale w = some x → Tbl.find? t.stale w =
        some (x.map (fun (y : OldWord) => if inside w ∧ y.stage = 1 then { y with stage := 2, epoch := s.epoch + 1 } else y))) ∧
    (len ≤ 2 ^ 30 → (∀ o ∈ s.cur.owners, 288 ≤ o) →
      (let x := base.val.toNat % 2 ^ 56
       ∀ j : Nat, x / 65536 ≤ j → 65536 * j < x + len → ∃ p, s.walk s.cur.ctx (65536 * j) = .page p) →
      exec (.probe g a b m) s = .next s)) ∧
  (∀ (s : State) (g : Guard) (i pa : Nat) (p : PageInfo) (d a : BitVec 6) (lb : Bool) (off : BitVec 31), OneStrand s g i →
    (baseOf s i a lb).poison = none →
    (Reach s (addressOf s i a lb off) 32 32 true false pa p →
      ∃ t, exec (.tagset g a lb off) s = .next t ∧ t = { s with tags := t.tags } ∧
        ∀ k, Tbl.getD t.tags k 0 =
          if p.tagged = true ∧ k = pa / 32 then (addressOf s i a lb off).extractLsb' 56 4 else Tbl.getD s.tags k 0) ∧
    (Reach s (addressOf s i a lb off) 32 32 false false pa p →
      ∃ t, exec (.tagget g d a lb off) s = .next t ∧
        t.laneV i d = ⟨if p.tagged then (Tbl.getD s.tags (pa / 32) 0).setWidth 32 else 0, none⟩ ∧
        LaneFrame s t [i] (fun n => n = d.toNat)))

namespace Sys2Proof.Claims

/-- The global atomics: what each makes of the old word, the operand and the old v(d) (04 R112). -/
def globalAtomics (g : Guard) (d a b : BitVec 6) (lb : Bool) (sc : BitVec 3) (ord : BitVec 2) (off : BitVec 19) :
    List (Instr × (Word → Word → Word → Word)) :=
  [(.atomAdd g d a b lb sc ord false off, fun m x _ => m + x),
   (.atomMin g d a b lb sc ord false off, fun m x _ => if m.toInt < x.toInt then m else x),
   (.atomMin g d a b lb sc ord true off, fun m x _ => if m.toNat < x.toNat then m else x),
   (.atomMax g d a b lb sc ord false off, fun m x _ => if x.toInt < m.toInt then m else x),
   (.atomMax g d a b lb sc ord true off, fun m x _ => if x.toNat < m.toNat then m else x),
   (.atomAnd g d a b lb sc ord false off, fun m x _ => m &&& x),
   (.atomOr g d a b lb sc ord false off, fun m x _ => m ||| x),
   (.atomXor g d a b lb sc ord false off, fun m x _ => m ^^^ x),
   (.atomXchg g d a b lb sc ord false off, fun _ x _ => x),
   (.atomCas g d a b lb sc ord false off, fun m x z => if m = z then x else m),
   (.atomInc g d a b lb sc ord false off, fun m x _ => if x.toNat ≤ m.toNat then 0 else m + 1)]

/-- A global atomic of strand i changes v(d) of the strand, memory and the trace of the access; a response that another die still
owes the strand is remembered (04 R120). -/
structure AtomicFrame (s t : State) (i : Nat) (d : BitVec 6) (addr : Dword) (pa : Nat) : Prop where
  rest : t = { s with mem := t.mem, stale := t.stale, writes := t.writes, oldMaps := t.oldMaps, bundles := t.bundles, cores := t.cores,
                      strands := t.strands }
  own : t.strand i = { s.strand i with
    v := (t.strand i).v,
    remote := (if dieOfAddr pa = s.dieOf (strandBundle i) then [] else [(d.toNat, addr)]) ++ (s.strand i).remote }
  others : ∀ j, j ≠ i → t.strand j = s.strand j
  reg : ∀ n, n ≠ d.toNat → t.getV i n = s.getV i n
  lease : LeaseTrace s t (strandBundle i)

end Sys2Proof.Claims

/-- The global atomics (04 R111, R112) of a strand whose access succeeds: v(d) receives the old word, the word at the strand's
address becomes what the instruction makes of the old word, v(b) and, for ATOM.CAS, v(d); ATOM.FADD's sum is rounded to nearest
even under the bundle's FZ and sets no flag; every other byte and every other register is as before. -/
def Sys2Proof.Claims.GlobalAtomics : Prop :=
  ∀ (s : State) (g : Guard) (i : Nat) (d a b : BitVec 6) (lb : Bool) (sc : BitVec 3) (ord : BitVec 2) (off : BitVec 19) (pa : Nat)
    (p : PageInfo), OneStrand s g i → (baseOf s i a lb).poison = none → (s.laneV i b).poison = none →
    Reach s (addressOf s i a lb off) 4 4 true true pa p → s.isMarked pa 4 = false →
    (∀ e ∈ globalAtomics g d a b lb sc ord off,
      (e.1 = .atomCas g d a b lb sc ord false off → (s.laneV i d).poison = none) → ∃ t, exec e.1 s = .next t ∧
      t.laneV i d = ⟨BitVec.ofNat 32 (s.pageLE p pa 4), none⟩ ∧
      Stored s t pa (p.room pa 4) (e.2 (BitVec.ofNat 32 (s.pageLE p pa 4)) (s.laneV i b).val (s.laneV i d).val).toNat ∧
      AtomicFrame s t i d (addressOf s i a lb off) pa) ∧
    (∃ t, exec (.atomFadd g d a b lb sc ord false off) s = .next t ∧
      t.laneV i d = ⟨BitVec.ofNat 32 (s.pageLE p pa 4), none⟩ ∧
      Stored s t pa (p.room pa 4) (addOf fmtFP32 .rne (s.fzOf i) (s.pageLE p pa 4) (s.laneV i b).val.toNat).1 ∧
      AtomicFrame s t i d (addressOf s i a lb off) pa)

/-- The scratchpad atomics (04 R113) of a raster strand and of a tile stream whose word is in range and present: the destination
receives the old word and the word of the scratchpad the new one; and the error of the response that a remote atomic still waits for
(04 R120) poisons its destination with origin remote-atomic, and is logged. -/
def Sys2Proof.Claims.ScratchpadAtomics : Prop :=
  (∀ (s : State) (g : Guard) (i c x : Nat) (d a b : BitVec 6) (lb : Bool) (sc : BitVec 3) (ord : BitVec 2) (off : BitVec 19),
    OneStrand s g i → s.cur.cleared = true → (baseOf s i a lb).poison = none → (s.laneV i b).poison = none →
    (s.laneV i d).poison = none → (addressOf s i a lb off).toNat % 4 = 0 →
    s.scratchAt (s.crewId i) (addressOf s i a lb off) = some (c, x, false) → s.crewLineAbsent c x = false →
    s.crewMarked c x 4 = false → s.lineInFlight (.crew c) (x / 128) = false →
    let old : Word := BitVec.ofNat 32 (s.scratchLE c x 4)
    ∀ e ∈ [(Instr.atomsAdd g d a b lb sc ord false off, old + (s.laneV i b).val),
        (Instr.atomsCas g d a b lb sc ord false off, if old = (s.laneV i d).val then (s.laneV i b).val else old)],
      ∃ t, exec e.1 s = .next t ∧ t.laneV i d = ⟨old, none⟩ ∧
        (∀ k, t.scratchByte c k = if x ≤ k ∧ k < x + 4 then BitVec.ofNat 8 (e.2.toNat / 256 ^ (k - x)) else s.scratchByte c k) ∧
        (∀ k, k ≠ c → Tbl.find? t.crews k = Tbl.find? s.crews k) ∧
        (∀ y, Tbl.find? s.crews c = some y → ∃ z, Tbl.find? t.crews c = some z ∧ z = { y with scratch := z.scratch }) ∧
        LaneFrame { s with crews := t.crews } t [i] (fun n => n = d.toNat)) ∧
  (∀ (s : State) (k : Nat) (st : Stream) (g : Guard) (d a b : BitVec 6) (sc : BitVec 3) (ord : BitVec 2) (off : BitVec 19),
    OnTile s k st → s.cur.cleared = true → (s.getS k a).poison = none → (s.getS k b).poison = none →
    (s.getS k d).poison = none →
    let addr := (s.getS k a).val + off.signExtend 64
    addr.toNat % 4 = 0 → addr.toNat + 4 ≤ 524288 → addr.toNat / 128 ∉ (s.tile k).absent →
    (s.tile k).isMarked addr.toNat 4 = false → s.lineInFlight (.tile k) (addr.toNat / 128) = false →
    let old : Word := BitVec.ofNat 32 ((s.tile k).readLE addr.toNat 4)
    ∀ e ∈ [(Instr.atomsAdd g d a b false sc ord false off, old + (s.getS k b).val.setWidth 32),
        (Instr.atomsCas g d a b false sc ord false off,
          if old = (s.getS k d).val.setWidth 32 then (s.getS k b).val.setWidth 32 else old)],
      ∃ t, exec e.1 s = .next t ∧ t.getS k d = (if d = 0 then .zero 64 else ⟨old.setWidth 64, none⟩) ∧
        (∀ j, (t.tile k).byte j = if addr.toNat ≤ j ∧ j < addr.toNat + 4 then
          BitVec.ofNat 8 (e.2.toNat / 256 ^ (j - addr.toNat)) else (s.tile k).byte j) ∧
        (∀ j, j ≠ k → t.tile j = s.tile j) ∧
        t.tile k = { s.tile k with scratch := (t.tile k).scratch, dirty := (t.tile k).dirty, written := (t.tile k).written } ∧
        ScalarFrame { s with tiles := t.tiles } t [k] d) ∧
  (∀ (s : State) (b st : Nat) (d : BitVec 6) (addr : Dword), strandKey b st ∈ s.liveStrands b →
    (d.toNat, addr) ∈ (s.strand (strandKey b st)).remote →
    ∃ t k, exec (.remoteAtomicErrorResponse b st d addr) s = .next t ∧ t.laneV (strandKey b st) d = ⟨0, some k⟩ ∧
      t.originAt b k = ⟨0x39, addr, false, 0, BitVec.ofNat 8 st⟩ ∧
      (t.errLog.getLast?).map (fun x => (x.event.addr, x.event.kind)) = some (addr.toNat, 5) ∧
      (∀ i n, ¬(i = strandKey b st ∧ n = d.toNat) → t.getV i n = s.getV i n) ∧ (∀ pa, t.byte pa = s.byte pa))

/-- The atomics (04 R111-R113, R120): on global memory, and on the scratchpads. -/
def Obligations.Atomics : Prop := GlobalAtomics ∧ ScratchpadAtomics

/-- A group acts strand by strand, the lowest first (01 R15, 04 R104): where a per-strand instruction completes for the strands
`is` of a group and then for the strands `js` that follow them, it completes for the group with the same effect. -/
def Obligations.GroupsActInOrder : Prop :=
  ∀ (s u t : State) (is js : List Nat) (g : Guard) (d a b : BitVec 6) (lb : Bool) (off : BitVec 31) (sc : BitVec 3) (ord : BitVec 2)
    (o : BitVec 19), s.cur.profile = .raster → s.cur.owners ≠ [] → s.cur.cleared = true → s.last = none → s.cur.strands = is ++ js →
    ∀ instr ∈ [Instr.ld8 g d a lb off, .ld16 g d a lb off, .ld32 g d a lb off, .ld64 g d a lb off, .ld128 g d a lb off,
        .st8 g d a lb off, .st16 g d a lb off, .st32 g d a lb off, .st64 g d a lb off, .st128 g d a lb off,
        .ldx g d a lb off, .stx g d a lb off, .ldro g d a lb off, .lds g d a lb off, .sts g d a lb off, .lda g d a lb off,
        .sta g d a lb off, .ldS g d a lb off, .tagset g a lb off, .tagget g d a lb off,
        .atomAdd g d a b lb sc ord false o, .atomMin g d a b lb sc ord false o, .atomMax g d a b lb sc ord false o,
        .atomAnd g d a b lb sc ord false o, .atomOr g d a b lb sc ord false o, .atomXor g d a b lb sc ord false o,
        .atomXchg g d a b lb sc ord false o, .atomCas g d a b lb sc ord false o, .atomFadd g d a b lb sc ord false o,
        .atomInc g d a b lb sc ord false o, .atomsAdd g d a b lb sc ord false o, .atomsCas g d a b lb sc ord false o],
      exec instr { s with cur := { s.cur with strands := is } } = .next u → u.last = none →
      exec instr { u with cur := { s.cur with strands := js } } = .next t → t.last = none →
      exec instr s = .next { t with cur := s.cur }

namespace Sys2Proof.Claims

/-- Every bead but one is as it was. -/
def OtherBeads (s t : State) (a : BeadAt) : Prop := ∀ c, c ≠ a → t.bead c = s.bead c

end Sys2Proof.Claims

/-- The SEM instructions (19 R327, 22 R352, R353) of one bundle or stream on a bead that is not broken and whose parity is right, once
their wait mask is satisfied: SIG adds s(b)[31:0], serving the wait at the head of the queue when the count comes to suffice; SET replaces the
count and clears OVF and BRK; TRY subtracts and delivers 1 where the count suffices and no wait is queued, else delivers 0;
READ delivers the count; WAIT subtracts where its condition holds. No other bead, no other register and no byte of memory
changes. -/
def Obligations.Beads : Prop :=
  ∀ (s : State) (o n : Nat) (a b c : BitVec 6) (m : Bool) (tl : CopyTail) (x : BeadAt), s.cur.owners = [o] → s.cur.cleared = true →
    s.semBead o a m tl.bead = .ok x → (s.bead x).brk = false → (s.bead x).bad = false → (s.getS o b).poison = none →
    n = (s.getS o b).val.toNat % 2 ^ 32 →
    ((s.bead x).count + n < 2 ^ 32 → (s.bead x).queue = [] →
      ∃ t, exec (.semSig a b m tl) s = .next t ∧ t.bead x = { s.bead x with count := (s.bead x).count + n } ∧
        OtherBeads s t x ∧ t = { s with beads := t.beads, stays := t.stays }) ∧
    (∀ l k y, (s.bead x).count + n < 2 ^ 32 → (s.bead x).queue = [(.launch l, k)] → k ≤ (s.bead x).count + n →
      Tbl.find? s.launches l = some y → y.phase = .waiting →
      ∃ t, exec (.semSig a b m tl) s = .next t ∧
        t.bead x = { s.bead x with count := (s.bead x).count + n - k, queue := [] } ∧
        Tbl.find? t.launches l = some { y with phase := .running } ∧ OtherBeads s t x ∧
        t = { s with beads := t.beads, stays := t.stays, launches := t.launches }) ∧
    ((s.bead x).queue = [] →
      ∃ t, exec (.semSet a b m tl) s = .next t ∧ t.bead x = ⟨n, false, false, false, []⟩ ∧
        OtherBeads s t x ∧ t = { s with beads := t.beads, stays := t.stays }) ∧
    (LiveDelivery s o →
      ∃ t, exec (.semTry a b c m tl) s = .next t ∧
        (let ok := (s.bead x).queue = [] ∧ n ≤ (s.bead x).count
         t.getS o c = (if c = 0 then .zero 64 else ⟨if ok then 1 else 0, none⟩) ∧
         t.bead x = (if ok then { s.bead x with count := (s.bead x).count - n } else s.bead x)) ∧
        OtherBeads s t x ∧ ScalarFrame { s with beads := t.beads, stays := t.stays, launches := t.launches } t [o] c) ∧
    (LiveDelivery s o →
      ∃ t, exec (.semRead a c m tl) s = .next t ∧
        t.getS o c = (if c = 0 then .zero 64 else ⟨BitVec.ofNat 64 (s.bead x).count, none⟩) ∧
        ScalarFrame { s with launches := t.launches } t [o] c) ∧
    ((∀ v, s.ownerWait o ≠ some (.bead v)) →
      ∃ t, exec (.semWait a b m tl) s = .next t ∧ t.bead x = { s.bead x with count := (s.bead x).count - n } ∧
        OtherBeads s t x ∧ t = { s with beads := t.beads, stays := t.stays })

/-- LEASE and SPLIT (03 R83, R84, 07 R152) of one bundle, and the end of SPLIT's drain: LEASE delivers the lease so far and
declares min(s(a) + imm, LEASEMAX), or with 0 returns to a measured lease that starts at 64 lines; SPLIT, once its drain has
ended, delivers the drain's cycles; the drain's end gives the core the plan's granules, phase and drain count. -/
def Obligations.LeaseAndSplit : Prop :=
  (∀ (s : State) (o : Nat) (x : Bundle) (d a : BitVec 6) (imm : BitVec 32), s.cur.owners = [o] → (s.getS o a).poison = none →
    Tbl.find? s.bundles o = some x → LiveDelivery s o →
    let v := ((s.getS o a).val + imm.signExtend 64).toNat
    ∃ t, exec (.lease d a imm) s = .next t ∧
      t.getS o d = (if d = 0 then .zero 64 else ⟨BitVec.ofNat 64 (match x.declared with | some l => l | none => x.est), none⟩) ∧
      Tbl.find? t.bundles o = some (if v = 0 then { x with declared := none, est := 64 }
        else { x with declared := some (min v ((s.ctx s.cur.ctx).leasemax.toNat % 8192)) }) ∧
      (∀ k, k ≠ o → Tbl.find? t.bundles k = Tbl.find? s.bundles k) ∧
      ScalarFrame { s with bundles := t.bundles, launches := t.launches } t [o] d) ∧
  (∀ (s : State) (o c : Nat) (d : BitVec 6) (imm : BitVec 32), s.cur.owners = [o] → s.cur.cleared = true → LiveDelivery s o →
    s.coreOf o = some c →
    ∃ t, exec (.split d imm) s = .next t ∧
      t.getS o d = (if d = 0 then .zero 64 else ⟨BitVec.ofNat 64 (s.core c).drain, none⟩) ∧
      ScalarFrame { s with launches := t.launches } t [o] d) ∧
  (∀ (s : State) (c k n : Nat), (s.core c).splitting = some (k, n) →
    ∃ t, exec (.splitDrainComplete c) s = .next t ∧
      t.core c = { s.core c with splitting := none, granules := (t.core c).granules, phase := k, drain := n, victims := [] } ∧
      (∀ l x e, (∀ f ∈ s.crews, f.2.core = some c → f.2.ended = false → f.2.launch = l) → e ∈ s.crews → e.2.core = some c →
        e.2.ended = false → Tbl.find? s.launches l = some x → (t.core c).granules = x.plan.getD k 0) ∧
      (∀ j, j ≠ c → t.core j = s.core j) ∧ (∀ pa, t.byte pa = s.byte pa) ∧
      (∀ o r, t.getS o r = s.getS o r) ∧ (∀ i r, t.getV i r = s.getV i r))

/-- LAUNCH (03 R85, 25 R376) of a header that can be read: where the queue of its priority is enabled, the context live and the
device ring not full, the header stands in the ring's next entry, the index advances and s(d) receives the next sequence number
of the context; otherwise s(d) receives 0 and nothing is published. -/
def Obligations.LaunchPublishes : Prop :=
  ∀ (s : State) (o pa : Nat) (p : PageInfo) (d a : BitVec 6), s.cur.owners = [o] → (s.getS o a).poison = none →
    LiveDelivery s o → (s.getS o a).val.toNat % 64 = 0 → Reach s (s.getS o a).val 64 64 false true pa p →
    let h := s.headerAt pa
    let c := s.cur.ctx
    let q := (h.getD 3 0).toNat / 2 ^ 44 % 8
    let x := s.launchQueue c q
    let n := x.size
    (n = 0 ∨ (s.ctx c).live = false ∨ (x.devTail + 1) % n = x.devHead →
      ∃ t, exec (.launch d a) s = .next t ∧ t.getS o d = .zero 64 ∧ ScalarFrame { s with launches := t.launches } t [o] d) ∧
    (n ≠ 0 → (s.ctx c).live = true → (x.devTail + 1) % n ≠ x.devHead →
      ∃ t, exec (.launch d a) s = .next t ∧
        t.getS o d = (if d = 0 then .zero 64 else ⟨BitVec.ofNat 64 (s.ctx c).nextSeq, none⟩) ∧
        (t.ctx c).nextSeq = (s.ctx c).nextSeq + 1 ∧
        t.launchQueue c q = { x with devTail := (x.devTail + 1) % n, entries := x.entries ++ [⟨false, x.devTail, (s.ctx c).nextSeq⟩] } ∧
        t.ctx c = { s.ctx c with queues := (t.ctx c).queues, nextSeq := (t.ctx c).nextSeq } ∧
        (∀ r, r ≠ q → t.launchQueue c r = s.launchQueue c r) ∧ (∀ e, e ≠ c → t.ctx e = s.ctx e) ∧
        (let at0 := x.qbase.toNat + 80 * n + 64 * x.devTail
         (∀ i : Nat, i < 8 → paExists (at0 + 8 * i) = true → ∀ k : Nat, k < 8 →
           t.byte (at0 + 8 * i + k) = BitVec.ofNat 8 ((h.getD i 0).toNat / 256 ^ k)) ∧
         ∀ y, ¬(at0 ≤ y ∧ y < at0 + 64) → t.byte y = s.byte y) ∧
        ScalarFrame { s with ctxs := t.ctxs, mem := t.mem, launches := t.launches } t [o] d)

/-- The records of work graphs (03 R86, 07 R161): RECA delivers a free slot of the context's pool and makes it committable for the
node; REMIT puts it last among the node's pending records while they stay below its batch; RDONE of a committable record returns
it to the pool. -/
def Obligations.Records : Prop :=
  (∀ (s : State) (o : Nat) (d a : BitVec 6), s.cur.owners = [o] → s.cur.cleared = true → (s.getS o a).poison = none →
    s.isNode s.cur.ctx (s.getS o a).val.toNat = true → (s.ctx s.cur.ctx).freeSlots ≠ [] →
    ∃ t r, exec (.reca d a) s = .next t ∧ r ∈ (s.ctx s.cur.ctx).freeSlots ∧
      t.getS o d = (if d = 0 then .zero 64 else ⟨r, none⟩) ∧
      (∀ k, Tbl.find? (t.ctx s.cur.ctx).records k =
        if k = r.toNat then some (.committable (s.getS o a).val.toNat) else Tbl.find? (s.ctx s.cur.ctx).records k) ∧
      (∀ c, t.ctx c = { s.ctx c with records := (t.ctx c).records }) ∧
      ScalarFrame { s with ctxs := t.ctxs, freeCtr := s.freeCtr + 1 } t [o] d) ∧
  (∀ (s : State) (o n : Nat) (a : BitVec 6) (nd : Node), s.cur.owners = [o] → (s.getS o a).poison = none →
    Tbl.find? (s.ctx s.cur.ctx).records (s.getS o a).val.toNat = some (.committable n) →
    Tbl.find? (s.ctx s.cur.ctx).nodes n = some nd → nd.aborted = false → nd.pending.length + 1 < hdrBatch nd.hdr →
    ∃ t v, exec (.remit a) s = .next t ∧ s.time ≤ v ∧
      Tbl.find? (t.ctx s.cur.ctx).records (s.getS o a).val.toNat = some (.pending n) ∧
      Tbl.find? (t.ctx s.cur.ctx).nodes n = some { nd with pending := nd.pending ++ [((s.getS o a).val, v)], active := true } ∧
      t = { s with ctxs := t.ctxs, time := v, freeCtr := s.freeCtr + 1 }) ∧
  (∀ (s : State) (o n : Nat) (a : BitVec 6), s.cur.owners = [o] → (s.getS o a).poison = none →
    Tbl.find? (s.ctx s.cur.ctx).records (s.getS o a).val.toNat = some (.committable n) →
    ∃ t, exec (.rdone a) s = .next t ∧
      (∀ k, Tbl.find? (t.ctx s.cur.ctx).records k =
        if k = (s.getS o a).val.toNat then none else Tbl.find? (s.ctx s.cur.ctx).records k) ∧
      (∀ c, t.ctx c = { s.ctx c with records := (t.ctx c).records }) ∧ t = { s with ctxs := t.ctxs, crews := t.crews })

namespace Sys2Proof.Claims

/-- GOVQ's answer (23 R368). -/
def governed (g : GovStream) (now : Nat) : Nat :=
  let room := g.deadline.toNat - now
  let steps :=
    if g.deadline = 0 then g.max
    else if g.samples = 0 then g.min
    else if g.avg = 0 then (if 0 < room then g.max else 0)
    else room / g.avg
  if g.max < g.min then g.max else if steps < g.min then g.min else if g.max < steps then g.max else steps

/-- A stream after the end of a step of duration d (23 R367). -/
def averaged (g : GovStream) (d : Nat) : Nat :=
  if g.samples = 0 then d else ((g.avg : Int) + ((d : Int) - (g.avg : Int)).fdiv 8).toNat

end Sys2Proof.Claims

/-- The frame governor (03 R91, 23 R366-R369) for a reporter whose launch does not run in replay: GOVQ delivers the answer of R368
at the device time it is applied and keeps it as LAST; a start replaces the reporter's open start as the newest of at
most sixteen, an end takes its start away and moves the average by an eighth of the difference, floored, and an end without a
start changes no stream; and requests that arrive together are applied reports first. -/
def Obligations.Governor : Prop :=
  (∀ (s : State) (o : Nat) (d a : BitVec 6) (m : Bool), s.cur.owners = [o] → (s.getS o a).poison = none →
    (s.getS o a).val.toNat ≤ 15 → s.replays o = false →
    let c := s.cur.ctx
    let n := (s.getS o a).val.toNat
    let g := s.govStream c n
    let who := (s.reporterLaunch o, s.reporterIndex o)
    (LiveDelivery s o → ∃ t v, exec (.govq d a) s = .next t ∧ s.time ≤ v ∧ t.time = v ∧
      t.getS o d = (if d = 0 then .zero 64 else ⟨BitVec.ofNat 64 (governed g v), none⟩) ∧
      t.govStream c n = { g with last := governed g v } ∧ (∀ k, k ≠ n → t.govStream c k = s.govStream c k) ∧
      (∀ e, t.ctx e = { s.ctx e with gov := (t.ctx e).gov }) ∧
      ScalarFrame { s with ctxs := t.ctxs, time := v, freeCtr := s.freeCtr + 1, launches := t.launches } t [o] d) ∧
    (∃ t v, exec (.govr a m) s = .next t ∧ s.time ≤ v ∧ (∀ k, k ≠ n → t.govStream c k = s.govStream c k) ∧
      (∀ e, e ≠ c → t.ctx e = s.ctx e) ∧ t = { s with ctxs := t.ctxs, time := v, freeCtr := s.freeCtr + 1 } ∧
      (m = false →
        let kept := g.opens.filter (fun e => e.1 != who)
        t.govStream c n = { g with opens := (if 16 ≤ kept.length then kept.drop 1 else kept) ++ [(who, v)] }) ∧
      (m = true → (∀ e ∈ g.opens, e.1 ≠ who) → t.govStream c n = g) ∧
      (m = true → ∀ began, List.find? (fun e => e.1 == who) g.opens = some (who, began) →
        t.govStream c n = { g with avg := averaged g (min (v - began) (2 ^ 32 - 1)), samples := min (g.samples + 1) 255,
                                   opens := g.opens.filter (fun e => e.1 != who) }))) ∧
  (∀ (s u t : State) (x y : GovRequest), (∃ o d, x.kind = .query o d) → (y.kind = .start ∨ y.kind = .finish) →
    exec (.governorRequestArrival [y]) s = .next u → exec (.governorRequestArrival [x]) u = .next t →
    exec (.governorRequestArrival [x, y]) s = .next t ∧ exec (.governorRequestArrival [y, x]) s = .next t) ∧
  (∀ (s : State) (x : GovRequest) (o : Nat) (d : BitVec 6), x.kind = .query o d → s.replays o = false →
    ∃ t v, exec (.governorRequestArrival [x]) s = .next t ∧ s.time ≤ v ∧
      (t.govStream x.ctx x.stream).last = governed (s.govStream x.ctx x.stream) v)

namespace Sys2Proof.Claims

/-- Registers v(d), v(d+1), ... hold words, and at most these registers of strand i differ. -/
structure Block (u t : State) (i d : Nat) (ws : List Nat) : Prop where
  word : ∀ k : Nat, k < ws.length → t.getV i (d + k) = ⟨BitVec.ofNat 32 (ws.getD k 0), none⟩
  frame : LaneFrame u t [i] (fun n => d ≤ n ∧ n < d + ws.length)

/-- A read through the read-only path leaves registers, ACRs and memory as they were. -/
structure ReadOnly (s u : State) : Prop where
  strands : u.strands = s.strands
  owners : u.owners = s.owners
  byte : ∀ a, u.byte a = s.byte a

/-- The instruction completes with words in the block at v(d), after reads that left the state u. -/
def Fills (s u : State) (i : Nat) (d : BitVec 6) (out : Host.Outcome State Fault Refusal) (ws : List Nat) : Prop :=
  ∃ t, out = .next t ∧ Block u t i d.toNat ws ∧ ReadOnly s u

/-- A sample of a binding at a level completes with the filtered texel, whenever its texels can be read (11 R211-R213). -/
def Sampled (s u : State) (i : Nat) (d : BitVec 6) (x : Binding) (lam : FVal) (cs : List Nat)
    (out : Host.Outcome State Fault Refusal) : Prop :=
  ∀ taps w, u.readTaps i x (sampleTaps x (lambdaFixed (s.fzOf i) x lam) (x.sampleAt (s.fzOf i) cs)) = .ok (taps, false, w) →
    Fills s w i d out (filterTaps (s.fzOf i) x taps)

/-- A binding at s(b) that can be read, with n operand words from v(a) that none of them is poison. -/
structure Bound (s u : State) (i : Nat) (a b : BitVec 6) (x : Binding) (n : Nat) : Prop where
  base : (s.getS (strandBundle i) b).poison = none
  read : s.readBinding i (s.getS (strandBundle i) b).val = .ok (x, false, u)
  fits : a.toNat + n ≤ 64
  plain : s.blockPoison i a.toNat n = none

end Sys2Proof.Claims

/-- The ray unit (09 R194-R196) for a strand with plain operands: RAY.INIT copies the eight words of a ray, appends the
reciprocals of its direction and no hit; RAY.XFORM, RAY.BOX and RAY.TRI read their matrix, node or record through the read-only
path and write the transformed block, the sorted hits with their number, or the triangle's four words; RAY.HIT moves the nearer
hit of v(a) inside the interval into the block. A poisoned ray poisons RAY.INIT's results with its origin. A read of 16 or 64
bytes that succeeds gives memory's words, where no store since the strand's floor has replaced one of them (08 R181). -/
def Sys2Proof.Claims.RayTests : Prop :=
  ∀ (s : State) (g : Guard) (i : Nat) (d a b : BitVec 6) (m : Bool), OneStrand s g i →
    (s.blockPoison i a.toNat 8 = none →
      let w := s.blockWords i a.toNat 8
      ∃ t, exec (.rayInit g d a) s = .next t ∧ Block s t i d.toNat
        (w ++ [(fRcp (s.fzOf i) (w.getD 3 0)).1, (fRcp (s.fzOf i) (w.getD 4 0)).1, (fRcp (s.fzOf i) (w.getD 5 0)).1, 0xFFFFFFFF])) ∧
    (∀ k, s.blockPoison i a.toNat 8 = some k →
      ∃ t, exec (.rayInit g d a) s = .next t ∧ (∀ j : Nat, j < 12 → t.getV i (d.toNat + j) = ⟨0, some k⟩) ∧
        LaneFrame s t [i] (fun n => d.toNat ≤ n ∧ n < d.toNat + 12)) ∧
    (s.blockPoison i a.toNat 12 = none →
      let w := s.blockWords i a.toNat 12
      (∀ ws u, (if m then s.getD2 i b.toNat else s.getS (strandBundle i) b).poison = none →
        s.unitRead i (if m then s.getD2 i b.toNat else s.getS (strandBundle i) b).val 16 3 = .ok (ws, false, u) →
        Fills s u i d (exec (.rayXform g d a b m) s) (rayXform (s.fzOf i) ws w)) ∧
      ((s.getD2 i b.toNat).poison = none →
        (∀ ws u, s.unitRead i (s.getD2 i b.toNat).val 64 2 = .ok (ws, false, u) →
          Fills s u i d (exec (.rayBox g d a b) s) (boxWords (boxHits (s.fzOf i) w ws))) ∧
        (∀ ws u, s.unitRead i (s.getD2 i b.toNat).val 16 3 = .ok (ws, false, u) →
          Fills s u i d (exec (.rayTri g d a b) s) (triWords (s.fzOf i) w ws)))) ∧
    ((s.getV i a.toNat).poison = none → (s.getV i (a.toNat + 3)).poison = none →
      (s.getV i (d.toNat + 6)).poison = none → (s.getV i (d.toNat + 7)).poison = none →
      let v (n : Nat) : FVal := fsource fmtFP32 (s.fzOf i) (s.getV i n).val.toNat
      let nearer := (FVal.cmp (v (d.toNat + 6)) (v a.toNat) = some .lt ∨ FVal.cmp (v (d.toNat + 6)) (v a.toNat) = some .eq) ∧
        FVal.cmp (v a.toNat) (v (d.toNat + 7)) = some .lt
      ∃ t, exec (.rayHit g d a) s = .next t ∧
        t.getV i (d.toNat + 7) = (if nearer then s.getV i a.toNat else s.getV i (d.toNat + 7)) ∧
        t.getV i (d.toNat + 11) = (if nearer then s.getV i (a.toNat + 3) else s.getV i (d.toNat + 11)) ∧
        LaneFrame s t [i] (fun n => n = d.toNat + 7 ∨ n = d.toNat + 11)) ∧
    (∀ (addr : Dword) (n pa : Nat) (p : PageInfo), (n = 16 ∨ n = 64) → Reach s addr n n false true pa p → s.isMarked pa n = false →
      (∀ k x, k < n / 4 → x ∈ Tbl.getD s.stale (pa + 4 * k) [] → x.gone ≤ s.roFloor i (pa + 4 * k)) →
      ∃ u, s.unitRead i addr n 1 = .ok ((List.range (n / 4)).map (fun k => s.pageLE p (pa + 4 * k) 4), false, u) ∧ ReadOnly s u)

/-- The ray stack (09 R197) of a strand whose count n is below 65536: a push writes the ring slot of entry n and counts it,
spilling the entry four below to the scratchpad where the ring is full; a push at 65535 and any use of a larger count trap
ray-stack; a pop of an empty stack gives 0xFFFF_FFFF, and one of an entry counts it off, refilling its slot from the scratchpad
where an entry four below had been spilled. -/
def Sys2Proof.Claims.RayStack : Prop :=
  ∀ (s : State) (g : Guard) (i : Nat) (d a : BitVec 6), OneStrand s g i →
    (let k := d.toNat
     let n := (s.getV i k).val.toNat
     (s.getV i k).poison = none → (s.getV i (k + 5)).poison = none →
      (n < 4 → ∃ t, exec (.rayStkPush g d a) s = .next t ∧ t.getV i (k + 1 + n % 4) = s.getV i a.toNat ∧
        t.getV i k = ⟨BitVec.ofNat 32 (n + 1), none⟩ ∧ LaneFrame s t [i] (fun r => r = k ∨ r = k + 1 + n % 4)) ∧
      (∀ c x y above, 4 ≤ n → n < 65535 → (s.getV i (k + 1 + n % 4)).poison = none →
        let addr : Dword := (s.getV i (k + 5)).val.setWidth 64 + BitVec.ofNat 64 (4 * (n - 4))
        addr.toNat % 4 = 0 → s.scratchAt (s.crewId i) addr = some (c, x, above) → Tbl.find? s.crews c = some y →
        s.lineInFlight (.crew c) (x / 128) = false →
        ∃ t, exec (.rayStkPush g d a) s = .next t ∧ t.getV i (k + 1 + n % 4) = s.getV i a.toNat ∧
          t.getV i k = ⟨BitVec.ofNat 32 (n + 1), none⟩ ∧
          (∀ j, t.scratchByte c j = if above = false ∧ x ≤ j ∧ j < x + 4 then
            BitVec.ofNat 8 ((s.getV i (k + 1 + n % 4)).val.toNat / 256 ^ (j - x)) else s.scratchByte c j) ∧
          LaneFrame { s with crews := t.crews } t [i] (fun r => r = k ∨ r = k + 1 + n % 4)) ∧
      (65535 ≤ n → exec (.rayStkPush g d a) s = .next (s.takeTrap 0x23 0 none))) ∧
    (let k := a.toNat
     let n := (s.getV i k).val.toNat
     (s.getV i k).poison = none → (s.getV i (k + 5)).poison = none → s.cur.cleared = true →
      (n = 0 → ∃ t, exec (.rayStkPop g d a) s = .next t ∧ t.getV i d.toNat = ⟨0xFFFFFFFF, none⟩ ∧
        LaneFrame s t [i] (fun r => r = d.toNat)) ∧
      (0 < n → n ≤ 4 → ∃ t, exec (.rayStkPop g d a) s = .next t ∧ t.getV i d.toNat = s.getV i (k + 1 + (n - 1) % 4) ∧
        (d ≠ a → t.getV i k = ⟨BitVec.ofNat 32 (n - 1), none⟩) ∧ LaneFrame s t [i] (fun r => r = d.toNat ∨ r = k)) ∧
      (∀ c x above, 4 < n → n < 65536 →
        let addr : Dword := (s.getV i (k + 5)).val.setWidth 64 + BitVec.ofNat 64 (4 * (n - 5))
        addr.toNat % 4 = 0 → s.scratchAt (s.crewId i) addr = some (c, x, above) → s.crewLineAbsent c x = false →
        s.crewMarked c x 4 = false →
        ∃ t, exec (.rayStkPop g d a) s = .next t ∧ t.getV i d.toNat = s.getV i (k + 1 + (n - 1) % 4) ∧
          (d ≠ a → t.getV i k = ⟨BitVec.ofNat 32 (n - 1), none⟩) ∧
          (d.toNat ≠ k + 1 + (n - 1) % 4 →
            t.getV i (k + 1 + (n - 1) % 4) = ⟨BitVec.ofNat 32 (if above then 0 else s.scratchLE c x 4), none⟩) ∧
          LaneFrame s t [i] (fun r => r = d.toNat ∨ r = k ∨ r = k + 1 + (n - 1) % 4)) ∧
      (65536 ≤ n → exec (.rayStkPop g d a) s = .next (s.takeTrap 0x23 0 none)))

/-- The ray unit (09 R194-R197): RAY.INIT, RAY.XFORM, RAY.BOX, RAY.TRI and RAY.HIT as their tests say, and the ray stack's push and pop. -/
def Obligations.RayUnit : Prop := RayTests ∧ RayStack

/-- The texture instructions (09 R192, 11 R210-R213) of a strand whose binding and texels can be read and whose coordinates are
plain: TEX.SAMPLE takes its level from the quad's derivatives, TEX.LOD from the word after the coordinates, TEX.GRAD from the
derivatives among its operands, and each writes the four filtered channels; TEX.FETCH writes the texel at integer coordinates, or
zeros past the last level; TEX.GATHER4 writes one channel of the four texels of the footprint in a 2D or array texture;
TEX.QUERY writes a field of the descriptor. -/
def Obligations.Textures : Prop :=
  ∀ (s u : State) (g : Guard) (i : Nat) (d a b : BitVec 6) (imm : BitVec 32) (x : Binding), OneStrand s g i →
    (Bound s u i a b x x.coords →
      let dx := s.coordDerivs i a.toNat x.spatial 2
      let dy := s.coordDerivs i a.toNat x.spatial 3
      (dx ++ dy).findSome? Prod.fst = none →
      Sampled s u i d x (lambdaOf (s.fzOf i) x (dx.map Prod.snd) (dy.map Prod.snd)) (s.blockWords i a.toNat x.coords)
        (exec (.texSample g d a b) s)) ∧
    (Bound s u i a b x (x.coords + 1) →
      Sampled s u i d x (fsource fmtFP32 (s.fzOf i) (s.getV i (a.toNat + x.coords)).val.toNat) (s.blockWords i a.toNat x.coords)
        (exec (.texLod g d a b) s)) ∧
    (Bound s u i a b x (x.coords + 2 * x.spatial) →
      Sampled s u i d x (lambdaOf (s.fzOf i) x (s.blockWords i (a.toNat + x.coords) x.spatial)
          (s.blockWords i (a.toNat + x.coords + x.spatial) x.spatial))
        (s.blockWords i a.toNat x.coords) (exec (.texGrad g d a b) s)) ∧
    (Bound s u i a b x (x.coords + 1) →
      let l := (s.getV i (a.toNat + x.coords)).val.toNat
      let ws := s.blockWords i a.toNat (x.coords + 1)
      (x.levels ≤ l → Fills s u i d (exec (.texFetch g d a b) s) [0, 0, 0, 0]) ∧
      (l < x.levels → ∀ vs w, u.texel i x l (fetchIndex x l ws 0, fetchIndex x l ws 1, fetchIndex x l ws 2) = .ok (vs, false, w) →
        Fills s w i d (exec (.texFetch g d a b) s) vs)) ∧
    (Bound s u i a b x x.coords → (x.dim = 1 ∨ x.dim = 4) →
      ∀ taps w, u.readTaps i x (gatherTaps x (x.sampleAt (s.fzOf i) (s.blockWords i a.toNat x.coords))) = .ok (taps, false, w) →
        Fills s w i d (exec (.texGather4 g d a b) s) (taps.map (fun e => e.1.getD x.gcomp 0))) ∧
    (Bound s u i a a x 0 →
      Fills s u i d (exec (.texQuery g d a imm) s)
        [match imm.toNat with | 0 => x.width | 1 => x.height | 2 => x.depth | 3 => x.levels | _ => x.fmt])

/-- Image access and quad operations (09 R193, R198): IMG.LD delivers the four elements of a texel as LDX delivers one, and IMG.ST
stores the codes of four registers as STX does; QUAD.SWZ delivers v(a) of the position its
immediate names, values read before any write and +0 for a partner that is not live; QUAD.DERIV delivers the difference of
a pair of positions. -/
def Obligations.ImagesAndQuads : Prop :=
  (∀ (s : State) (g : Guard) (i : Nat) (d a : BitVec 6) (lb : Bool) (off : BitVec 31) (e0 e1 e2 e3 : ElemAt), OneStrand s g i →
    (baseOf s i a lb).poison = none →
    (s.imgElems (baseOf s i a lb).val off.toInt false = .ok ([e0, e1, e2, e3], s) → (∀ e ∈ [e0, e1, e2, e3], s.elemMarked e = false) →
      let r (e : ElemAt) := ldxValue e.page.fmt (s.bookOf i) (s.fzOf i) (s.scaleOf e) (s.codeAt e)
      ∃ t, exec (.imgLd g d a lb off) s = .next t ∧
        t.getV i d.toNat = ⟨BitVec.ofNat 32 (r e0).1, none⟩ ∧ t.getV i (d.toNat + 1) = ⟨BitVec.ofNat 32 (r e1).1, none⟩ ∧
        t.getV i (d.toNat + 2) = ⟨BitVec.ofNat 32 (r e2).1, none⟩ ∧ t.getV i (d.toNat + 3) = ⟨BitVec.ofNat 32 (r e3).1, none⟩ ∧
        (∀ j, t.strand j = { s.strand j with v := (t.strand j).v }) ∧
        (∀ j n, ¬(j = i ∧ d.toNat ≤ n ∧ n < d.toNat + 4) → t.getV j n = s.getV j n) ∧
        (∀ o, t.owner o = { s.owner o with acr := (t.owner o).acr, acrNext := (t.owner o).acrNext }) ∧
        (t.owner (strandBundle i)).acr = (s.owner (strandBundle i)).acr |||
          BitVec.ofNat 64 ((((r e0).2.or (r e1).2).or (r e2).2).or (r e3).2).toNat ∧
        (∀ x, t.byte x = s.byte x)) ∧
    (s.blockPoison i d.toNat 4 = none → s.imgElems (baseOf s i a lb).val off.toInt true = .ok ([e0, e1, e2, e3], s) →
      let code (u : State) (e : ElemAt) (k : Nat) : Nat := (stxCode e.page.fmt (s.bookOf i) (s.modeOf i) (s.fzOf i)
        ((s.acr (strandBundle i)).getLsbD 8) (u.scaleOf e) (s.getV i (d.toNat + k)).val.toNat).1
      let put (u : State) (e : ElemAt) (k : Nat) : State :=
        u.writeLE e.pa (elemBytes e.page.fmt e.e) (elemInto e.page.fmt e.e (u.readLE e.pa (elemBytes e.page.fmt e.e)) (code u e k))
      ∃ t, exec (.imgSt g d a lb off) s = .next t ∧
        (∀ x, t.byte x = (put (put (put (put s e0 0) e1 1) e2 2) e3 3).byte x) ∧ t.strands = s.strands ∧
        (∀ o r, t.getS o r = s.getS o r))) ∧
  (∀ (s : State) (g : Guard) (d a : BitVec 6) (imm : BitVec 32), (actingStrands s g).Nodup →
    let at4 (i p : Nat) : Tagged 32 := match Tbl.find? s.strands (i / 4 * 4 + p) with
      | some x => if x.live then s.getV (i / 4 * 4 + p) a.toNat else .zero 32
      | none => .zero 32
    (∃ t, exec (.quadSwz g d a imm) s = .next t ∧
      (∀ i ∈ actingStrands s g, t.laneV i d = at4 i (imm.toNat / 4 ^ (i % 4) % 4)) ∧
      LaneFrame s t (actingStrands s g) (fun n => n = d.toNat)) ∧
    (let pair (i : Nat) : Nat × Nat := match imm.toNat with
      | 0 => (0, 1)
      | 1 => (0, 2)
      | 2 => (i % 4 / 2 * 2, i % 4 / 2 * 2 + 1)
      | _ => (i % 4 % 2, i % 4 % 2 + 2)
     let diff (i : Nat) := fresult fmtFP32 (s.modeOf i) (s.fzOf i) (FVal.add (s.modeOf i)
      (fsource fmtFP32 (s.fzOf i) (at4 i (pair i).2).val.toNat) (fsource fmtFP32 (s.fzOf i) (at4 i (pair i).1).val.toNat).neg)
     let poison (i : Nat) := (at4 i (pair i).2).poison.or (at4 i (pair i).1).poison
     ∃ t, exec (.quadDeriv g d a imm) s = .next t ∧
      (∀ i ∈ actingStrands s g, t.laneV i d = floatValue (poison i) (diff i)) ∧
      FloatFrame s t (actingStrands s g) d.toNat
        (flagsOf (actingStrands s g) (fun i => floatFlags (poison i) (diff i)))))

namespace Sys2Proof.Claims

/-- Bundle o becomes y, and nothing else changes. -/
structure BundleBecomes (s t : State) (o : Nat) (y : Bundle) : Prop where
  rest : t = { s with bundles := t.bundles }
  own : Tbl.find? t.bundles o = some y
  others : ∀ k, k ≠ o → Tbl.find? t.bundles k = Tbl.find? s.bundles k

/-- Nothing but strands' registers and outputs differs, and of the strands only i, which becomes x. -/
def StrandIs (s t : State) (i : Nat) (x : Strand) : Prop := StrandsBecome s t [i] (fun _ => x)

/-- The pixel instructions. -/
def pixelInstrs (g : Guard) (d a b : BitVec 6) (m : Bool) (imm : BitVec 32) : List Instr :=
  [.pixIn g d imm, .pixBary g d b m, .pixDiscard g, .omWrite g a imm, .omDepth g a, .guideOut g a]

end Sys2Proof.Claims

/-- The mesh instructions (09 R188, R189): MESH.OUT writes four words of vertex v(d), quad v(b), and MESH.PRIM the indices of
primitive v(d), in the bundle's output area, a value out of range trapping mesh-range; RAST.BIND binds a record at a multiple of
256, else traps misaligned; MESH.DONE hands the area, with the counts and the record bound, to the die's front end, zeroes it,
and counts the mesh; without a binding it traps gfx-state. -/
def Obligations.Meshes : Prop :=
  (∀ (s : State) (g : Guard) (i : Nat) (d a b : BitVec 6) (x : Bundle), OneStrand s g i →
    Tbl.find? s.bundles (strandBundle i) = some x → (s.getV i d.toNat).poison = none →
    let v := (s.getV i d.toNat).val.toNat
    ((s.getV i b.toNat).poison = none → s.blockPoison i a.toNat 4 = none →
      let q := (s.getV i b.toNat).val.toNat
      (v < 256 → q ≤ 4 → ∃ t y, exec (.meshOut g d a b) s = .next t ∧ BundleBecomes s t (strandBundle i) y ∧
        y = { x with mesh := y.mesh } ∧
        (∀ n, Tbl.getD y.mesh n 0 = if 20 * v + 4 * q ≤ n ∧ n < 20 * v + 4 * q + 4 then
          (s.getV i (a.toNat + (n - (20 * v + 4 * q)))).val else Tbl.getD x.mesh n 0)) ∧
      (256 ≤ v ∨ 4 < q → exec (.meshOut g d a b) s = .next (s.takeTrap 0x21 0 none))) ∧
    ((s.getV i a.toNat).poison = none →
      let w := (s.getV i a.toNat).val
      (v < 512 → w.toNat < 2 ^ 25 → ∃ t y, exec (.meshPrim g d a) s = .next t ∧ BundleBecomes s t (strandBundle i) y ∧
        y = { x with mesh := y.mesh } ∧
        (∀ n, Tbl.getD y.mesh n 0 = if n = 5120 + v then w else Tbl.getD x.mesh n 0)) ∧
      (512 ≤ v ∨ 2 ^ 25 ≤ w.toNat → exec (.meshPrim g d a) s = .next (s.takeTrap 0x21 0 none)))) ∧
  (∀ (s : State) (g : Guard) (o : Nat) (a b : BitVec 6) (imm : BitVec 32) (x : Bundle), s.cur.owners = [o] →
    (∃ i ∈ s.liveStrands o, s.guardOn g i = true) → Tbl.find? s.bundles o = some x → (s.getS o a).poison = none →
    (let addr := (s.getS o a).val + imm.signExtend 64
     (addr.toNat % 256 = 0 → ∃ t, exec (.rastBind g a imm) s = .next t ∧
       BundleBecomes s t o { x with raster := some addr, rasterRec := none }) ∧
     (addr.toNat % 256 ≠ 0 → exec (.rastBind g a imm) s = .next (s.takeTrap 0x19 addr none))) ∧
    (s.cur.cleared = true → (s.getS o b).poison = none →
      let v := (s.getS o a).val.toNat
      let p := (s.getS o b).val.toNat
      let d := s.dieOf o
      (1 ≤ v → v ≤ 256 → p ≤ 512 →
        (x.raster = none → exec (.meshDone g a b) s = .next (s.takeTrap 0x20 0 none)) ∧
        (∀ addr r l y, x.raster = some addr → s.launchOf o = some l → Tbl.find? s.launches l = some y →
          (x.rasterRec = some r ∨
            x.rasterRec = none ∧ rasterOk r = true ∧ ∃ pa pg, Reach s addr 256 256 false true pa pg ∧
              r = (List.range 32).map (fun k => s.readDword (pa + 8 * k))) →
          ∃ t m, exec (.meshDone g a b) s = .next t ∧
            m = { launch := l, bundle := o, index := x.index, ordinal := x.meshOrd, vertices := v, prims := p, area := x.mesh,
                  record := r, fz := (s.acr o).getLsbD 7, guide := s.guideBound d l, die := d, packed := 0 } ∧
            t.frontEnd d = { s.frontEnd d with meshes := (s.frontEnd d).meshes ++ [m] } ∧
            (∀ e, e ≠ d → t.frontEnd e = s.frontEnd e) ∧
            Tbl.find? t.bundles o = some { x with mesh := [], meshOrd := x.meshOrd + 1, rasterRec := some r } ∧
            (∀ k, k ≠ o → Tbl.find? t.bundles k = Tbl.find? s.bundles k) ∧
            Tbl.find? t.launches l = some { y with meshes := y.meshes + 1 } ∧
            t.strands = s.strands ∧ t.owners = s.owners ∧ (∀ pa, t.byte pa = s.byte pa))) ∧
      (v = 0 ∨ 256 < v ∨ 512 < p → exec (.meshDone g a b) s = .next (s.takeTrap 0x21 0 none))))

/-- The pixel instructions (09 R190, R191) of a strand that runs for a pixel: PIX.IN delivers the input its immediate names;
PIX.BARY component b with perspective weights, or linear ones with m; OM.WRITE, OM.DEPTH and GUIDE.OUT set an output of the strand
from plain registers, the last value standing; PIX.DISCARD drops the outputs and every later one. In a strand that runs for no pixel
each traps gfx-state, and so does GUIDE.OUT where no guide channel was bound. -/
def Obligations.Pixels : Prop :=
  ∀ (s : State) (g : Guard) (i : Nat) (d a b : BitVec 6) (m : Bool) (imm : BitVec 32), OneStrand s g i →
    (∀ p, (s.strand i).pixel = some p →
      (∀ e ∈ [(0, p.x + 65536 * p.y), (1, p.coverage), (2, p.prim), (3, if p.front then 1 else 0), (4, p.depth.toNat), (5, p.invW.toNat)],
        ∃ t, exec (.pixIn g d (BitVec.ofNat 32 e.1)) s = .next t ∧ t.laneV i d = ⟨BitVec.ofNat 32 e.2, none⟩ ∧
          LaneFrame s t [i] (fun n => n = d.toNat)) ∧
      (∃ t, exec (.pixBary g d b m) s = .next t ∧ t.laneV i d = ⟨(if m then p.linear else p.persp).getD b.toNat 0, none⟩ ∧
        LaneFrame s t [i] (fun n => n = d.toNat)) ∧
      (∃ t, exec (.pixDiscard g) s = .next t ∧ StrandIs s t i { s.strand i with
        out := if (s.strand i).out.discarded then (s.strand i).out else ⟨[], none, none, true⟩ }) ∧
      (let q := (s.strand i).out
       let ws := [(s.getV i a.toNat).val, (s.getV i (a.toNat + 1)).val, (s.getV i (a.toNat + 2)).val, (s.getV i (a.toNat + 3)).val]
       (s.blockPoison i a.toNat 4 = none →
         (∃ t, exec (.omWrite g a imm) s = .next t ∧ StrandIs s t i { s.strand i with
           out := if q.discarded then q else { q with targets := Tbl.insert q.targets imm.toNat ws } }) ∧
         (p.guide = true → ∃ t, exec (.guideOut g a) s = .next t ∧ StrandIs s t i { s.strand i with
           out := if q.discarded then q else { q with guide := some ws } })) ∧
       ((s.getV i a.toNat).poison = none → ∃ t, exec (.omDepth g a) s = .next t ∧ StrandIs s t i { s.strand i with
         out := if q.discarded then q else { q with depth := some (s.getV i a.toNat).val } })) ∧
      (p.guide = false → exec (.guideOut g a) s = .next (s.takeTrap 0x20 0 none))) ∧
    ((s.strand i).pixel = none → ∀ e ∈ pixelInstrs g d a b m imm, exec e s = .next (s.takeTrap 0x20 0 none))

/-- The front end and the merger (11 R204-R208, 20 R331): rasterising takes the oldest mesh once the last one's pixels have all
started, and goes on at the pixel bundle that a mesh saved with its crew had reached (log 133); a pixel bundle starts its strands, 64 at most, in their order, at the launch's pixel entry with the lowest free slot of
the crew's core; a merge takes the fragment of the launch with the lowest key once no earlier one can come, stores nothing of a
discarded fragment, and nothing of a single sample that fails the depth test; a single sample with no depth surface and one target that
it writes whole without blending stores the target's bytes, those of a page that can be written. -/
def Obligations.RasterEvents : Prop :=
  (∀ (s : State) (d : Nat) (m : Mesh) (rest : List Mesh) (y : Launch), (s.frontEnd d).meshes = m :: rest → (s.frontEnd d).pixels = [] →
    Tbl.find? s.launches m.launch = some y →
    let ps := (m.pixels m.prims).drop (64 * m.packed)
    ∃ t, exec (.meshRasterise d) s = .next t ∧ t.frontEnd d = ⟨rest, some m, ps, m.packed⟩ ∧
      Tbl.find? t.launches m.launch = some (if ps = [] then { y with meshes := y.meshes - 1 } else y) ∧
      t = { s with frontEnds := t.frontEnds, launches := t.launches }) ∧
  (∀ (s : State) (d : Nat), (s.frontEnd d).meshes = [] ∨ (s.frontEnd d).pixels ≠ [] → exec (.meshRasterise d) s = .next s) ∧
  (∀ (s : State) (d k slot : Nat) (m : Mesh) (b : Bundle) (c : Crew), (s.frontEnd d).current = some m →
    (s.frontEnd d).pixels ≠ [] → Tbl.find? s.bundles m.bundle = some b → Tbl.find? s.crews b.crew = some c → c.core = some k →
    s.freeSlot k = some slot → s.slotsFree k ≠ 0 → s.granulesOn k + hdrRegs (s.header m.launch) / 8 ≤ 256 →
    let u := s.nextBundle
    let ps := (s.frontEnd d).pixels.take 64
    ∃ t x, exec (.pixelBundleStart d) s = .next t ∧ Tbl.find? t.bundles u = some x ∧ x.crew = b.crew ∧ x.slot = slot ∧
      x.rot = 17 * slot % 64 ∧ t.nextBundle = u + 1 ∧
      (∀ n p, ps[n]? = some p → t.strand (64 * u + n) =
        { pixelStrand ((s.header m.launch).getD 0 0) p with born := s.epoch }) ∧
      t.getS u 1 = ⟨(s.header m.launch).getD 1 0, none⟩ ∧
      Tbl.find? t.crews b.crew = some { c with bundles := c.bundles ++ [u] } ∧
      (t.frontEnd d).pixels = (s.frontEnd d).pixels.drop 64 ∧ (t.frontEnd d).packed = (s.frontEnd d).packed + 1 ∧
      (∀ pa, t.byte pa = s.byte pa)) ∧
  (∀ (s : State) (l : Nat) (x : Launch) (f : Fragment), Tbl.find? s.launches l = some x → lowestFragment x.frags = some f →
    (s.earlierWork l f.key = true → exec (.fragmentMerge l) s = .next s) ∧
    (s.earlierWork l f.key = false →
      let s1 := s.setLaunch l { x with frags := dropFragment f x.frags }
      (f.out.discarded = true → exec (.fragmentMerge l) s = .next s1) ∧
      (∀ old u, f.out.discarded = false → recSamples f.pixel.record = 1 → f.pixel.coverage.testBit 0 = true →
        recField f.pixel.record 2 41 1 = 1 → f.pixel.record.getD 3 0 ≠ 0 →
        s1.readDepth x.ctx ((f.pixel.record.getD 3 0).toNat +
          4 * (f.pixel.y * recPitch f.pixel.record + f.pixel.x)) = .ok (old, u) →
        depthPass (recField f.pixel.record 2 37 3) (f.out.depth.getD (f.pixel.sampleDepths.getD 0 0)).toNat old f.fz = false →
        exec (.fragmentMerge l) s = .next u ∧ ∀ pa, u.byte pa = s.byte pa) ∧
      (∀ n ws pa pg, f.out.discarded = false → recSamples f.pixel.record = 1 → f.pixel.coverage.testBit 0 = true →
        f.pixel.record.getD 3 0 = 0 → f.out.targets = [(n, ws)] → f.out.guide = none → targetBase f.pixel.record n ≠ 0 →
        targetAny f.pixel.record n = true → targetAll f.pixel.record n = true → targetBlends f.pixel.record n = false →
        let w := targetBytes (targetFmt f.pixel.record n)
        s1.globalAccess x.ctx (BitVec.ofNat 64 (targetBase f.pixel.record n +
          (f.pixel.y * recPitch f.pixel.record + f.pixel.x) * w)) w w true true = .ok (pa, pg, s1) →
        pg.room pa w = w → Memory.wf s.mem → (∀ k, k < w → paExists (pa + k) = true) →
        ∃ t, exec (.fragmentMerge l) s = .next t ∧ (∀ y, t.byte y = if pa ≤ y ∧ y < pa + w then
          BitVec.ofNat 8 (targetMerge f.pixel.record n f.fz ws 0 / 256 ^ (y - pa)) else s.byte y)) ∧
      (∀ t, s1.mergeOne x.ctx l f = .ok t → exec (.fragmentMerge l) s = .next t)))

/-- The guide channel (19 R329, 11 R209, 22 R354): GUIDE.BIND of a rectangle of the issuer's own die with 1 to 64 slots binds an
unbound channel and claims the rectangle's tiles for the context; sending a guide tile, once nothing can merge into it, writes, in a
tile that has not passed to another context, its 4,096 bytes into slot m mod S of tile i mod K, for i = m K + k, and adds one to the tile's fill bead. -/
def Obligations.GuideTiles : Prop :=
  (∀ (s : State) (o die row col rows cols ofs : Nat) (a b c : BitVec 6) (tl : CopyTail), s.cur.owners = [o] → s.cur.cleared = true →
    (s.getS o a).poison = none → (s.getS o b).poison = none → (s.getS o c).poison = none →
    endpointOf (s.getS o a).val = some (.rect die row col rows cols ofs) → (s.getS o a).val.toNat % 16 = 0 → s.dieOf o = die →
    Tbl.find? s.channels die = none →
    let slots := (s.getS o b).val.toNat
    let z := (s.getS o c).val.toNat
    let ts := rectTiles die row col rows cols
    1 ≤ slots → slots ≤ 64 → ofs + 4096 * slots ≤ 524288 → z = z % 64 + 2 ^ 16 * (z / 2 ^ 16 % 64) →
    (∀ k ∈ ts, (s.tile k).owner = none ∨ (s.tile k).owner = some s.cur.ctx) →
    exec (.guideBind a b c tl) s = .next (((ts.foldl (fun u k => u.claimTile s.cur.ctx k) s).setChannel die
      { launch := (s.launchOf o).getD 0, ctx := s.cur.ctx, endpoint := (s.getS o a).val, slots := slots, fill := z % 64,
        free := z / 2 ^ 16 % 64, issued := [], observed := [], next := 0, records := [], width := 0, height := 0, served := false,
        done := false }).signalTail o tl)) ∧
  (∀ (s : State) (d die row col rows cols ofs : Nat) (c : GuideChannel), Tbl.find? s.channels d = some c → c.done = false →
    endpointOf c.endpoint = some (.rect die row col rows cols ofs) → ofs + 4096 * c.slots ≤ 524288 →
    c.next + 1 < c.total → s.guidePending c c.next = false →
    let ts := rectTiles die row col rows cols
    let t0 := ts.getD (c.next % ts.length) 0
    let m := c.next / ts.length
    m < c.slots → (s.tile t0).owner = some c.ctx → s.lastImage c.ctx t0 = none → (s.bead (tileBead t0 c.fill)).bad = false →
    ∃ t y, exec (.guideTileSend d) s = .next t ∧ Tbl.find? t.channels d = some y ∧ y.next = c.next + 1 ∧
      (∀ k : Nat, k < 4096 → (t.tile t0).byte (ofs + 4096 * (m % c.slots) + k) = (c.tileBytes c.next).getD k 0) ∧
      ((s.bead (tileBead t0 c.fill)).brk = false → (s.bead (tileBead t0 c.fill)).queue = [] →
        (s.bead (tileBead t0 c.fill)).count + 1 < 2 ^ 32 →
        t.bead (tileBead t0 c.fill) = { s.bead (tileBead t0 c.fill) with count := (s.bead (tileBead t0 c.fill)).count + 1 } ∧
        ∀ pa, t.byte pa = s.byte pa))

namespace Sys2Proof.Claims

/-- One bundle or stream o issues a class 5 instruction whose waits are over, with plain operands in s(a), s(b) and s(c). -/
structure CopyOf (s : State) (o : Nat) (a b c : BitVec 6) : Prop where
  one : s.cur.owners = [o]
  cleared : s.cur.cleared = true
  plainA : (s.getS o a).poison = none
  plainB : (s.getS o b).poison = none
  plainC : (s.getS o c).poison = none

/-- Two endpoints and a length that pass R317's checks and name a part (19 R317). -/
def PairOk (s : State) (o : Nat) (a b c : BitVec 6) (p : CopyPart) : Prop :=
  ∃ d e, endpointOf (s.getS o a).val = some d ∧ endpointOf (s.getS o b).val = some e ∧
    s.checkPair o (s.getS o a).val d (s.getS o b).val e (s.getS o c).val.toNat = .ok p ∧
    p.len = (s.getS o c).val.toNat

/-- An endpoint of n bytes that an issuer may name, at a multiple of `al`: its place and the address there. -/
structure Side (s : State) (o : Nat) (v : Dword) (n al : Nat) (p : Place) (a : Dword) : Prop where
  formed : ∃ e, endpointOf v = some e ∧ s.placeOf o v e = .ok (p, a)
  aligned : v.toNat % al = 0
  range : s.placeRangeOk p a n = true

/-- The instruction puts one copy in flight, from the state u in which the tiles it names belong to the context. -/
def Issues (out : Host.Outcome State Fault Refusal) (u : State) (c : Copy) : Prop := out = .next (u.issueCopy c)

/-- The copy an instruction with tail tl issues (19 R318, R319). -/
def copyOf (s : State) (o : Nat) (tl : CopyTail) (hub : Bool) (kind : CopyKind) (parts : List CopyPart) (units : Nat) (at0 : Place) :
    Copy :=
  { issuer := some o, ctx := s.cur.ctx, launch := s.launchOf o, kind := kind, parts := parts, units := units, done := [],
    tokens := if tl.te then [(o, tl.tok)] else [], bead := if tl.bs then some (at0, tl.bead.toNat) else none, hostBead := none,
    cleared := [], skidder := if hub then 24 + s.cur.ctx % 8 else s.ownSkidder o, carry := false }

end Sys2Proof.Claims

/-- The copies of class 5 between places (19 R318, R320-R322, R326, R328): an instruction whose wait mask is satisfied, which finds
a channel, and whose operands pass R317's checks puts one copy in flight with its parts, its units, its token and bead; issuing
a copy that has units to move clears the presence bits of the lines it will write and changes no byte of memory. TOKQ issues a null
copy that follows its issuer's copies with the tokens named; CPY.ABORT stops them, MMVs
earlier in stream order keeping the blocks they have taken of a feed. -/
def Obligations.CopiesIssue : Prop :=
  (∀ (s : State) (c : Copy), c.units ≠ 0 →
    ∃ t, s.issueCopy c = t ∧ Tbl.find? t.copies s.nextCopy = some { c with cleared := s.copyLines c } ∧
      (∀ k, k ≠ s.nextCopy → Tbl.find? t.copies k = Tbl.find? s.copies k) ∧
      t = { s with copies := t.copies, nextCopy := s.nextCopy + 1, crews := t.crews, tiles := t.tiles, savedTiles := t.savedTiles } ∧
      (∀ k l, (.tile k, l) ∈ s.copyLines c → l ∈ (t.tile k).absent) ∧ (∀ pa, t.byte pa = s.byte pa)) ∧
  (∀ (s : State) (o : Nat) (a b c : BitVec 6) (m : Bool) (tl : CopyTail), CopyOf s o a b c →
    let x := (s.getS o a).val
    let y := (s.getS o b).val
    let n := (s.getS o c).val.toNat
    (x.toNat < 2 ^ 60 → y.toNat < 2 ^ 60 → x.toNat % 16 = 0 → y.toNat % 16 = 0 → n % 16 = 0 → n < 2 ^ 32 →
      (x.toNat + n ≤ y.toNat ∨ y.toNat + n ≤ x.toNat) →
      Issues (exec (.cpyLin a b c false tl) s) s
        (copyOf s o tl false .plain [⟨.global s.cur.ctx, x, .global s.cur.ctx, y, n⟩] (n / 16) (s.ownPlace o))) ∧
    (∀ p, PairOk s o a b c p →
      let u := s.claimPart p
      let at0 := u.beadPlace o p.dstAt p.dst
      (n < 2 ^ 32 → p.overlaps = false → (m = true → s.carryOk p = true) →
        Issues (exec (.cpyLin a b c m tl) s) u { copyOf u o tl false .plain [p] (n / 16) at0 with carry := m }) ∧
      (∀ ty rop, Issues (exec (.cpyRed a b c ty rop tl) s) u
        (copyOf u o tl false (.reduce ty.toNat rop.toNat ((s.acr o).getLsbD 7)) [p] (n / (codeWidth ty.toNat / 8)) at0)) ∧
      (n < 2 ^ 32 → p.overlaps = false → ∀ z, Tbl.find? s.bundles o = some z →
        let u1 := { u with bundles := Tbl.insert s.bundles o { z with copyOrd := z.copyOrd + 1 } }
        (s.collectiveOf (z.crew, z.copyOrd) = none →
          Issues (exec (.cpyCol a b c tl) s) u1
            (copyOf u1 o tl false (.collective z.crew z.copyOrd [o] tl) [p] (n / 16) (u1.beadPlace o p.dstAt p.dst))) ∧
        (∀ id y ms f, s.collectiveOf (z.crew, z.copyOrd) = some (id, y) → y.kind = .collective z.crew z.copyOrd ms f →
          f.te = tl.te → f.tok = tl.tok → f.bs = tl.bs → f.bead = tl.bead →
          ∃ t w, exec (.cpyCol a b c tl) s = .next t ∧ Tbl.find? t.copies id = some w ∧
            w = { y with kind := .collective z.crew z.copyOrd (ms ++ [o]) f, parts := y.parts ++ [p], units := y.units + n / 16,
                         tokens := y.tokens ++ (if tl.te then [(o, tl.tok)] else []), cleared := w.cleared } ∧
            (∀ pa, t.byte pa = s.byte pa)))) ∧
    (∀ d rs sp sa, endpointOf x = some d → s.receivers o d = some rs → x.toNat % 16 = 0 → n % 16 = 0 →
      s.shareRangeOk o d n = true → Side s o y n 16 sp sa → (∀ r ∈ rs, s.placeFree s.cur.ctx r.1 = true) →
      let ps : List CopyPart := rs.map (fun r => ⟨r.1, r.2, sp, sa, n⟩)
      (m = true → ∀ p ∈ ps, s.carryOk p = true) →
      let u := ps.foldl State.claimPart s
      Issues (exec (.cpyMc a b c m tl) s) u
        { copyOf u o tl false (.shares []) ps (ps.length * (n / 16)) (u.ownPlace o) with carry := m }) ∧
    (∀ p w, Side s o (if m then x else y) n 16 p w → (if m then y else x).toNat % 16 = 0 → n % 16 = 0 →
      (if m then y else x).toNat + n ≤ (s.ctx s.cur.ctx).hwsize.toNat →
      let win := Place.window (s.ctx s.cur.ctx).hwbase.toNat
      let part : CopyPart := if m then ⟨p, w, win, y, n⟩ else ⟨win, x, p, w, n⟩
      let u := s.claimPart part
      Issues (exec (.cpyHost a b c m tl) s) u
        (copyOf u o tl true .plain [part] (n / 16) (u.beadPlace o part.dstAt part.dst))) ∧
    (∀ (rl : BitVec 8) dp da op oa lp la,
      let cnt := (s.getS o (c + 1)).val.toNat % 2 ^ 32
      let row := 16 * (rl.toNat + 1)
      (s.getS o (c + 1)).poison = none → Side s o (s.getS o c).val (4 * cnt) 4 lp la →
      (Side s o x (cnt * row) 16 dp da → Side s o y 0 16 op oa →
        let p : CopyPart := ⟨dp, da, op, oa, cnt * row⟩
        let u := (s.claimPart p).claimPlace lp
        Issues (exec (.cpyGath a b c rl tl) s) u
          (copyOf u o tl false (.gather row lp la) [p] (cnt * (row / 16)) (u.beadPlace o dp da))) ∧
      (Side s o y (cnt * row) 16 dp da → Side s o x 0 16 op oa →
        let p : CopyPart := ⟨op, oa, dp, da, cnt * row⟩
        let u := (s.claimPart p).claimPlace lp
        Issues (exec (.cpyScat a b c rl tl) s) u
          (copyOf u o tl false (.scatter row lp la) [p] (cnt * (row / 16)) (u.beadPlace o op oa)))) ∧
    (∀ (slot : BitVec 3) sh ta tp da dp, (s.getS o (c + 1)).poison = none → (s.getS o (c + 2)).poison = none →
      (s.getS o (c + 3)).poison = none → Tbl.find? (s.owner o).shapes slot.toNat = some sh →
      let q (k : BitVec 6) := (s.getS o (c + k)).val
      let origin := [signed32 (s.getS o c).val 0, signed32 (s.getS o c).val 32, signed32 (q 1) 0, signed32 (q 1) 32, signed32 (q 2) 0]
      let box := (List.range 5).map (fun k => ((q 3).extractLsb' (12 * k) 12).toNat + 1)
      let w := codeWidth sh.fmt / 8
      let cnt := (box.take sh.dims.length).foldl (fun x y => x * y) 1
      cnt * w % 16 = 0 → (q 3).extractLsb' 60 4 = 0 → (∀ k : Nat, k < 5 → sh.dims.length ≤ k → box.getD k 1 = 1) →
      (sh.permit = true ∨ boxOutside sh origin box = false) →
      (let e := tensorSpan sh origin box
       (∃ g, tp = .global g) ∨ e.2 < e.1 ∨ (0 ≤ (ta.toNat : Int) + e.1 ∧
         s.placeRangeOk tp (ta + BitVec.ofInt 64 e.1) ((e.2 - e.1).toNat + w) = true)) →
      Side s o (if m then x else y) 0 16 tp ta → Side s o (if m then y else x) (cnt * w) 16 dp da →
      let p : CopyPart := if m then ⟨tp, ta, dp, da, cnt * w⟩ else ⟨dp, da, tp, ta, cnt * w⟩
      let u := s.claimPart p
      Issues (exec (.cpyTen a b c m slot tl) s) u
        (copyOf u o tl false (.tensor m sh origin (box.take sh.dims.length) w) [p] cnt (u.beadPlace o p.dstAt p.dst))) ∧
    (∀ v e sh bs w, endpointOf x = some e → x.toNat % 64 = 0 → s.placeOf o x e = .ok (v, w) → s.placeRangeOk v w 64 = true →
      s.readPlace v w 64 = .ok (bs, false, s) → shapeOf (dwordsOf bs) = some sh →
      ∀ slot, exec (.shape a slot tl) s = .next ((s.setOwner o { s.owner o with
        shapes := Tbl.insert (s.owner o).shapes slot.toNat sh }).signalTail o tl)) ∧
    (x.toNat < 2 ^ 56 → x.toNat % 65536 = 0 → y.toNat % 65536 = 0 → y ≠ 0 → x.toNat + y.toNat ≤ 2 ^ 56 →
      s.wholePages s.cur.ctx x.toNat y.toNat = true →
      (∀ h ∈ (s.ctx s.cur.ctx).shadows, h.base + h.len ≤ x.toNat ∨ x.toNat + y.toNat ≤ h.base) →
      (s.ctx s.cur.ctx).shadows.length < 16 →
      exec (.shadow a b tl) s = .next ((s.setCtx s.cur.ctx { s.ctx s.cur.ctx with
        shadows := (s.ctx s.cur.ctx).shadows ++ [⟨x.toNat, y.toNat, [], [], []⟩] }).signalTail o tl)) ∧
    (exec (.publish a tl) s = .next (s.signalTail o tl)) ∧
    (let mine := (s.copies.filter (fun e => e.2.tokens.any (fun k => k.1 == o && tl.wm.getLsbD k.2.toNat))).map Prod.fst
     Issues (exec (.tokq tl) s) s (copyOf s o tl false (.null mine) [] 0 (s.ownPlace o))) ∧
    (let mine := s.copies.filter (fun e => e.2.tokens.any (fun k => k.1 == o && tl.wm.getLsbD k.2.toNat))
     let cut := if ∃ e ∈ mine, e.2.kind = .feed then s.cutFeed o else s
     exec (.cpyAbort tl) s = .next (((mine.map Prod.fst).foldl State.stopCopy cut).signalTail o tl)))

/-- The copies of a tile (19 R320, R323-R325): PUSH to the neighbour of the launch's set, rows between the scratchpad and the tile
store, operand feeds, write-backs and fills each put one copy in flight; MAP.SET installs an entry with its lines
absent and unmarked. -/
def Obligations.TileCopies : Prop :=
  ∀ (s : State) (o : Nat) (a b c : BitVec 6) (m : Bool) (tl : CopyTail), CopyOf s o a b c →
    let x := (s.getS o a).val
    let y := (s.getS o b).val
    let z := (s.getS o c).val
    let k := s.tile o
    (∀ (dir : BitVec 2) (n l : Nat) (q : Launch), x.toNat % 16 = 0 → y.toNat % 16 = 0 → z.toNat % 16 = 0 →
      x.toNat + z.toNat ≤ 524288 → y.toNat + z.toNat ≤ 524288 → s.launchOf o = some l → Tbl.find? s.launches l = some q →
      neighbour o dir.toNat = some n → n ∈ q.tiles → s.placeFree s.cur.ctx (s.tilePlace (some l) n) = true →
      let p : CopyPart := ⟨s.tilePlace (some l) n, x, .tile o, y, z.toNat⟩
      (m = true → s.carryOk p = true) →
      let u := s.claimPart p
      Issues (exec (.push a b c m dir tl) s) u
        { copyOf u o tl false .plain [p] (z.toNat / 16) (s.tilePlace (some l) n) with carry := m }) ∧
    (∀ (row : BitVec 9) (col : BitVec 4) (ofs : Nat), endpointOf x = some (.own ofs) → x.toNat % 16 = 0 →
      let n := y.toNat
      let pitch := z.toNat % 2 ^ 32
      let width := z.toNat / 2 ^ 32 % 2 ^ 16
      (m = true ∨ k.operandEntry ofs = none) → width % 16 = 0 → pitch % 16 = 0 → 0 < n → ofs + (n - 1) * pitch + width ≤ 524288 →
      row.toNat + n ≤ 512 → z.toNat < 2 ^ 48 → 32 * col.toNat + width ≤ 512 →
      Issues (exec (.cpyTs a b c m row col tl) s) s (if m then
        copyOf s o tl false (.rowsOut row.toNat (32 * col.toNat) pitch width) [⟨.tile o, BitVec.ofNat 64 ofs, .store o, 0, 0⟩]
          (n * (width / 16)) (.tile o)
        else copyOf s o tl false (.rowsIn row.toNat (32 * col.toNat) pitch width) [⟨.store o, 0, .tile o, BitVec.ofNat 64 ofs, 0⟩]
          (n * (width / 16)) (.tile o))) ∧
    (∀ (row : BitVec 9) (col : BitVec 4) (ofs en : Nat), endpointOf x = some (.own ofs) → x.toNat % 16 = 0 →
      k.operandEntry ofs = some en →
      let n := y.toNat
      let pitch := z.toNat % 2 ^ 32
      let r := k.region en
      let w := codeWidth r.fmt
      let pg := s.regionPage o r
      let off := pg.2 + (ofs - 128 * r.sline)
      let e0 := off * 8 / w
      let top := e0 + (n - 1) * pitch + (if w = 4 then 64 else 32)
      let limit := pg.2 + 128 * r.lines
      (w = 6 → off % 3 = 0) → 0 < n → row.toNat + n ≤ 512 → z.toNat < 2 ^ 32 → r.csc = false →
      top ≤ pageElems pg.1 r.fmt r.geo false → elemByte r.fmt (top - 1) + elemBytes r.fmt (top - 1) ≤ limit →
      pg.2 ≤ inlineScale pg.1 r.fmt r.geo (e0 / r.geo) → inlineScale pg.1 r.fmt r.geo ((top - 1) / r.geo) < limit →
      Issues (exec (.cpyTs a b c false row col tl) s) s (copyOf s o tl false (.operands row.toNat (32 * col.toNat) pitch e0 en)
        [⟨.store o, 0, .tile o, BitVec.ofNat 64 ofs, 0⟩] n (.tile o))) ∧
    (∀ (row : BitVec 9) (col : BitVec 4), x.toNat < 2 ^ 60 → x.toNat % 16 = 0 → z.toNat % 16 = 0 → 0 < y.toNat →
      y.toNat < 2 ^ 32 → 6144 ≤ z.toNat → s.feedLeft o = false → s.feedBusy o = false → (∀ f, k.feed = some f → f.copy = none) →
      let u := s.setTile o { k with
        feed := some ⟨x, y.toNat, z.toNat, row.toNat, 32 * col.toNat, 0, 0, 0, some s.nextCopy, false⟩ }
      Issues (exec (.cpyFeed a b c row col tl) s) u (copyOf u o tl false .feed [⟨.store o, 0, .tile o, 0, 0⟩] 0 (.tile o)) ∧
        Tbl.find? (u.issueCopy (copyOf u o tl false .feed [⟨.store o, 0, .tile o, 0, 0⟩] 0 (.tile o))).copies s.nextCopy =
          some (copyOf u o tl false .feed [⟨.store o, 0, .tile o, 0, 0⟩] 0 (.tile o))) ∧
    (∀ (ent : BitVec 4),
      let r := k.region ent.toNat
      let units := if r.valid && r.wb then k.dirtyOf ent.toNat else []
      let copy (clear : Bool) : Copy := copyOf s o tl false (.writeBack ent.toNat units clear)
        [⟨.global s.cur.ctx, 0, .tile o, 0, 0⟩] units.length (.tile o)
      Issues (exec (.cpyWb ent tl) s) s (copy false) ∧ Issues (exec (.mapClr ent tl) s) s (copy true)) ∧
    (∀ (ent : BitVec 4), k.entryBad ent.toNat x y = false → ((k.region ent.toNat).valid = false ∨ k.dirtyOf ent.toNat = []) →
      let k1 : Tile := { k with map := Tbl.insert k.map ent.toNat (x, y) }
      let r := regionOf (x, y)
      exec (.mapSet a b ent tl) s = .next ((s.setTile o (k1.openRegion r)).signalTail o tl) ∧
      (∀ l, r.sline ≤ l → l < r.sline + r.lines → l ∈ (k1.openRegion r).absent ∧
        ∀ w, w / 16 = l → w ∉ (k1.openRegion r).dirty ∧ w ∉ (k1.openRegion r).written)) ∧
    (∀ ofs, endpointOf x = some (.own ofs) → x.toNat % 16 = 0 → z.toNat % 16 = 0 → ofs + z.toNat ≤ 524288 →
      (∀ e ∈ s.copies, ∀ ls, e.2.kind ≠ .fills ls) → (∀ l, s.lineInFlight (.tile o) l = false) →
      Issues (exec (.cpyFill a c tl) s) s (copyOf s o tl false
        (.fills ((linesOf ofs z.toNat).filter (fun l => k.absent.contains l && (k.regionAt l).isSome)))
        [⟨.tile o, 0, .tile o, 0, 0⟩] 0 (.tile o)))

/-- What a copy in flight does (19 R318, R324, R325, 22 R349, 08 R177): a unit not yet moved is moved once, by the copy's own
move; a copy with every unit done completes: its tokens with it, then its bead is signalled; a share whose units are all
written has its receiver's bead signalled; a block of a feed is written while fewer than four are unretired; a fill ends with its
line present; a PUBLISH's swap closes its buffer and gives its pages their shadow frames. -/
def Obligations.CopyEvents : Prop :=
  (∀ (s : State) (id u : Nat) (c : Copy), Tbl.find? s.copies id = some c → c.isLink = false → s.copyStarted c = true → u < c.units →
    (u ∈ c.done → exec (.copyUnitTransfer id u) s = .next s) ∧
    (∀ t, u ∉ c.done → c.savedStream = none → ({ s with cur := .idle } : State).moveUnit c u = .ok t →
      exec (.copyUnitTransfer id u) s =
        .next (({ t with copies := Tbl.insert t.copies id { c with done := u :: c.done }, cur := s.cur }).finishLines
          { c with done := u :: c.done } u)) ∧
    (∀ p k pa q pb r, c.kind = .plain → partAt c.parts u = some (p, k) → p.dstAt = .global c.ctx → p.srcAt = .global c.ctx →
      s.cur.ctx = c.ctx → Reach s (p.src + BitVec.ofNat 64 k) 16 16 false true pa q →
      Reach s (p.dst + BitVec.ofNat 64 k) 16 16 true true pb r → q.room pa 16 = 16 → r.room pb 16 = 16 →
      s.shadowOf c.ctx (p.dst + BitVec.ofNat 64 k).toNat = none →
      ∃ t, s.moveUnit c u = .ok t ∧ ∀ a, t.byte a = if pb ≤ a ∧ a < pb + 16 then s.byte (pa + (a - pb)) else s.byte a)) ∧
  (∀ (s : State) (id : Nat) (c : Copy), Tbl.find? s.copies id = some c → s.copyDone c = true →
    exec (.copyCompletion id) s = .next (s.completeCopy id) ∧ Tbl.find? (s.completeCopy id).copies id = none) ∧
  (∀ (s : State) (id k : Nat) (c : Copy) (told : List Nat), Tbl.find? s.copies id = some c → c.kind = .shares told → k ∉ told →
    k < c.parts.length → (∀ i, i < c.head.len / 16 → k * (c.head.len / 16) + i ∈ c.done) →
    let u := { s with copies := Tbl.insert s.copies id { c with kind := .shares (k :: told) } }
    exec (.multicastShareWritten id k) s = .next (match c.bead with
      | some (_, b) => u.signalPlace c.ctx (c.parts.getD k c.head).dstAt b
      | none => u)) ∧
  (∀ (s : State) (t : Nat) (f : Feed), (s.tile t).feed = some f → f.ended = false → f.written < f.count →
    (f.retired + 4 ≤ f.written → exec (.feedBlockWrite t) s = .next s) ∧
    (∀ u, f.written < f.retired + 4 →
      (List.range 384).foldlM (fun (w : State) k => w.movePlace (.store t)
        (BitVec.ofNat 64 (512 * (f.row + k / 3) + (f.col + 64 * (f.written % 4)) + 16 * (k % 3))) (.global (s.tileCtx t))
        (f.src + BitVec.ofNat 64 (f.written * f.stride) + BitVec.ofNat 64 (16 * k)) 16) s = .ok u →
      exec (.feedBlockWrite t) s = .next (u.setTile t { u.tile t with feed := some { f with written := f.written + 1 } }))) ∧
  (∀ (s u : State) (t line id : Nat) (ls : List Nat) (c : Copy), s.copies = [(id, c)] → c.kind = .fills ls → c.head.srcAt = .tile t →
    line ∈ ls → s.needLine t line = .ok u →
    ∃ v, exec (.regionFillCompletion t line) s = .next v ∧
      Tbl.find? v.copies id = some { c with kind := .fills (ls.filter (fun l => l ≠ line)) } ∧ v.tiles = u.tiles) ∧
  (∀ (s : State) (x : Nat) (va : BitVec 64) (h : Shadow), (s.ctx x).shadows = [h] → h.base = va.toNat → h.pending ≠ [] →
    ∃ t, exec (.publishSwap x va) s = .next t ∧ (t.ctx x).shadows = [] ∧
      (h.frames = [] → ∀ pa, t.byte pa = s.byte pa))

/-- Package links (19 R329, 25 R382-R385): LINK.RECV posts a receive and sends a credit with its capacity; LINK.SEND takes the next
index; a credit in order lets its send go; a data frame with a bad check, or out of order, is not delivered, and an acknowledgement
frees what it covers; a timeout sends the oldest frame again, the ninth one takes the port down; the host brings a port up; a frame of
no known kind is counted and dropped. -/
def Obligations.Links : Prop :=
  (∀ (s : State) (o p st : Nat) (a b c : BitVec 6) (tl : CopyTail) (x : LinkStream) (pl : Place) (ad : Dword), CopyOf s o a b c →
    s.linkStream p st = some x → x.ctx = s.cur.ctx → p < 12 → (s.port p).up = true →
    ((s.getS o a).val.toNat = p + 2 ^ 16 * st → p < 16 → st < 2 ^ 16 →
      Side s o (s.getS o b).val (s.getS o c).val.toNat 16 pl ad → (s.getS o c).val.toNat % 16 = 0 →
      let u := s.claimPlace pl
      exec (.linkSend a b c tl) s = .next (((u.setLink2 p st { x with sends := x.sends + 1 }).issueCopy
        (copyOf u o tl true (.linkSend p st x.sends 0 false) [⟨.window 0, 0, pl, ad, (s.getS o c).val.toNat⟩] 0 (u.ownPlace o))).startSends
          p st)) ∧
    ((s.getS o b).val.toNat = p + 2 ^ 16 * st → st < 2 ^ 16 →
      Side s o (s.getS o a).val (s.getS o c).val.toNat 16 pl ad → (s.getS o c).val.toNat % 16 = 0 →
      (s.getS o c).val.toNat < 2 ^ 32 →
      let n := (s.getS o c).val.toNat
      let u := s.claimPlace pl
      exec (.linkRecv a b c tl) s = .next (((u.setLink2 p st { x with
          recvs := x.recvs + 1, posted := Tbl.insert x.posted x.recvs s.nextCopy, creditSeq := x.creditSeq + 1 }).issueCopy
        (copyOf u o tl true (.linkRecv p st x.recvs false) [⟨pl, ad, .window 0, 0, n⟩] (n / 16) (u.beadPlace o pl ad))).emitTracked
          p st s.nextCopy ⟨st, x.creditSeq % 2 ^ 32, x.recvs % 2 ^ 32, n, false, true, true, []⟩))) ∧
  (∀ (s : State) (p : Nat) (f : LinkFrame) (x : LinkStream), s.linkStream p f.stream = some x →
    (f.good = false → exec (.linkDataFrame p f) s = .next s ∧ exec (.linkAckFrame p f) s = .next s ∧
      exec (.linkCreditFrame p f) s = .next s) ∧
    (f.good = true → (s.port p).up = true →
      (f.payload.length % 16 = 0 → f.ofs % 16 = 0 → f.sq ≠ x.recvData % 2 ^ 32 →
        exec (.linkDataFrame p f) s = .next (s.acknowledge p f.stream false)) ∧
      (f.payload.length % 16 = 0 → f.ofs % 16 = 0 → f.sq = x.recvData % 2 ^ 32 →
        exec (.linkDataFrame p f) s = .next (s.acceptData p f x)) ∧
      (f.sq = x.recvCredit % 2 ^ 32 →
        exec (.linkCreditFrame p f) s = .next (((s.setLink2 p f.stream { x with
          recvCredit := x.recvCredit + 1, credits := Tbl.insert x.credits f.ridx f.ofs }).startSends p f.stream).acknowledge
            p f.stream true)) ∧
      (∃ t y, exec (.linkAckFrame p f) s = .next t ∧ t.linkStream p f.stream = some y ∧
        (∀ u, u ∈ y.unacked ↔ u ∈ x.unacked ∧ ¬(u.frame.cred = f.cred ∧ ackCovers f.sq u.frame.sq = true)) ∧
        y = { x with unacked := y.unacked }))) ∧
  (∀ (s : State) (p st : Nat) (x : LinkStream) (u : Unacked) (rest : List Unacked), s.linkStream p st = some x →
    x.unacked = u :: rest →
    (u.resent < 8 → exec (.linkRetransmitTimeout p st) s = .next
      ((s.setLink2 p st { x with unacked := { u with resent := u.resent + 1 } :: rest }).emit p (if u.frame.cred then 3 else 1)
        u.frame)) ∧
    (8 ≤ u.resent → exec (.linkRetransmitTimeout p st) s = .next (s.portDown p) ∧
      ∀ y ∈ (s.portDown p).copies, ¬(y.2.onPort p = true))) ∧
  (∀ (s : State) (p : Nat), p < 12 →
    (s.portRails = true → exec (.portUp p) s = .next (s.setPort p { s.port p with up := true })) ∧
    (s.portRails = false → exec (.portUp p) s = .next s) ∧
    exec (.foreignFrame p) s = .next (s.setPort p { s.port p with foreign := (s.port p).foreign + 1 }))

/-- Mills (03 R87, 12 R217-R228): MILL.CFG loads a checked image unless another bundle holds the core's mill, and delivers 0 or 1;
MILL.ENTER makes the bundle's live strands wait to be admitted, and MILL.EXIT frees the mill and delivers its status; both
trap mill-state where the bundle holds no mill. A mill step admits a strand as a token, which a stage whose guard is false leaves as
it is; with no token left it lets the bundle go on; a drain that meets its time limit saves the mill with its crew, and a
saved running mill is loaded again on a free core, unless its crew is stopping again. -/
def Obligations.Mills : Prop :=
  (∀ (s : State) (o k : Nat) (d a : BitVec 6), s.cur.owners = [o] → s.coreOf o = some k →
    (∀ x u c y, (s.getS o a).poison = none → s.readImage o (s.getS o a).val false = .ok (x, u) → LiveDelivery s o →
      s.crewOf o = some (c, y) → Tbl.find? s.crews c = some y →
      (x.stages ≠ [] → s.millHeld o = false →
        ∃ t, exec (.millCfg d a) s = .next t ∧ t.getS o d = .zero 64 ∧
          (t.core k).mill = some (Mill.fresh o (s.getS o a).val x) ∧
          (∀ e ∈ x.flumes, ∃ z f, Tbl.find? t.crews c = some z ∧ Tbl.find? z.flumes (flumeNum e) = some f ∧ f.entries = []) ∧
          (∀ n r, ¬(n = o ∧ r = d) → t.getS n r = s.getS n r) ∧ t.strands = s.strands ∧ ∀ pa, t.byte pa = u.byte pa) ∧
      (x.stages = [] →
        ∃ t, exec (.millCfg d a) s = .next t ∧ t.getS o d = .zero 64 ∧ (t.core k).mill = (s.core k).mill ∧
          ∀ e ∈ x.flumes, ∃ z f, Tbl.find? t.crews c = some z ∧ Tbl.find? z.flumes (flumeNum e) = some f ∧ f.entries = []) ∧
      (x.stages ≠ [] → s.millHeld o = true →
        ∃ t, exec (.millCfg d a) s = .next t ∧ t.getS o d = (if d = 0 then .zero 64 else ⟨1, none⟩) ∧
          (t.core k).mill = (s.core k).mill ∧ t.crews = s.crews)) ∧
    (∀ m, (s.core k).mill = some m → m.holder = o →
      (∃ t, exec .millEnter s = .next t ∧
        (t.core k).mill = some { m with running := true, toAdmit := (s.liveStrands o).map strandIndex, grain := 0,
                                        base := (s.owner o).s, baseOrigins := (s.owner o).origins, enterPc := s.cur.gpc } ∧
        (∀ i ∈ s.liveStrands o, t.strand i = { s.strand i with stat := .milled }) ∧
        (∀ i, i ∉ s.liveStrands o → t.strand i = s.strand i) ∧
        t = { s with strands := t.strands, cores := t.cores }) ∧
      (∃ t, exec (.millExit d) s = .next t ∧ (t.core k).mill = none ∧
        t.getS o d = (if d = 0 then .zero 64 else ⟨m.status, none⟩) ∧
        (m.first = none → m.npois < 2 ^ 16 → m.status = BitVec.ofNat 64 m.npois) ∧
        ScalarFrame { s with cores := t.cores } t [o] d)) ∧
    (∀ m, (s.core k).mill = none → s.savedMill o = some m →
      ∃ t, exec (.millExit d) s = .next t ∧ t.savedMill o = none ∧ (t.core k).mill = none ∧
        t.getS o d = (if d = 0 then .zero 64 else ⟨m.status, none⟩) ∧ ScalarFrame { s with crews := t.crews } t [o] d) ∧
    ((s.core k).mill = none → s.savedMill o = none →
      exec .millEnter s = .next (s.takeTrap 0x15 0 none) ∧ exec (.millExit d) s = .next (s.takeTrap 0x15 0 none))) ∧
  (∀ (s : State) (k : Nat) (m : Mill), (s.core k).mill = some m → m.running = true →
    (m.toAdmit = [] → m.inFlight = [] → m.reorder = [] → m.aside = [] → millArr m.m = false →
      (∀ i ∈ s.liveStrands m.holder, (s.strand i).stopDue = false) →
      ∃ t, exec (.millStep k) s = .next t ∧ (t.core k).mill = some { m with running := false, grain := 0 } ∧
        (∀ i ∈ s.liveStrands m.holder, (s.strand i).stat = .milled → t.strand i = { s.strand i with stat := .ready }) ∧
        t = { s with strands := t.strands, cores := t.cores }) ∧
    (∀ j rest w rs, m.toAdmit = j :: rest → m.inFlight = [] → m.aside = [] → m.draining = false → m.stages = w :: rs →
      (let x := s.admitToken m j
       let g := guardOf (wordLong w.1) w.2
       x.pred g.pg.toNat = g.neg →
         ∃ t, exec (.millStep k) s = .next t ∧
           (t.core k).mill = some { m with toAdmit := rest, inFlight := [(0, { x with acted := true })] } ∧
           t = { s with cores := t.cores })) ∧
    (∀ t, s.millStep k = .ok t → exec (.millStep k) s = .next t)) ∧
  (∀ (s : State) (k c : Nat) (m : Mill) (x : Crew), (s.core k).mill = some m → m.draining = true → s.crewOf m.holder = some (c, x) →
    ∃ t y, exec (.millDrainTimeLimit k) s = .next t ∧ (t.core k).mill = none ∧ Tbl.find? t.crews c = some { x with mill := some y } ∧
      y.inFlight = m.inFlight ∧ y.reorder = m.reorder ∧ y.toAdmit = m.toAdmit ∧ y.draining = false ∧
      t = { s with cores := t.cores, crews := t.crews }) ∧
  (∀ (s u : State) (k b c : Nat) (m : Mill) (y : Crew) (x : MillImage), s.savedMill b = some m → s.coreOf b = some k →
    (s.core k).mill = none → m.running = true → s.crewOf b = some (c, y) →
    (∃ i ∈ s.liveStrands b, (s.strand i).stat = .milled) →
    (y.stopping = true → exec (.millReload k b) s = .next s) ∧
    (y.stopping = false → (s.atEnter b m).readImage b m.image true = .ok (x, u) → x.stages ≠ [] →
      (∀ e ∈ m.inFlight, e.1 < x.stages.length) →
      ∃ t, exec (.millReload k b) s = .next t ∧ t.savedMill b = none ∧
        (t.core k).mill = some { m with m := x.m, stages := x.stages, draining := false } ∧ t.strands = s.strands ∧
        t.owners = s.owners ∧ ∀ pa, t.byte pa = u.byte pa))

/-- Flumes (03 R88, 12 R229): a step takes a pop where an entry stood at its start, then a push where there is room, and completes
FSEND.NB at once where there is none; an FSEND whose step has completed goes on; FSEND.NB sets p(b) of every live strand to its
success; FTAKE delivers the entry's elements to its live strands. A flume that the bundle may not use traps flume-unbound. -/
def Obligations.Flumes : Prop :=
  (∀ (s : State) (c f : Nat) (x : Crew) (y : Flume), Tbl.find? s.crews c = some x → x.core ≠ none → Tbl.find? x.flumes f = some y →
    ∃ t z, exec (.flumeStep c f) s = .next t ∧ Tbl.find? t.crews c = some { x with flumes := Tbl.insert x.flumes f z } ∧
      t = { s with crews := t.crews } ∧ z.depth = y.depth ∧
      (y.presented = [] → z = y) ∧
      (∀ p, y.presented = [p] → p.push = false →
        (y.entries = [] → z = y) ∧
        (∀ e rest, y.entries = e :: rest → z.entries = rest ∧ z.presented = [] ∧ Tbl.find? z.results p.bundle = some (true, e))) ∧
      (∀ p, y.presented = [p] → p.push = true →
        (y.entries.length < y.depth → z.entries = y.entries ++ [p.entry] ∧ z.presented = [] ∧
          Tbl.find? z.results p.bundle = some (true, [])) ∧
        (y.depth ≤ y.entries.length → p.nonBlocking = false → z = y) ∧
        (y.depth ≤ y.entries.length → p.nonBlocking = true → z.entries = y.entries ∧ z.presented = [] ∧
          Tbl.find? z.results p.bundle = some (false, [])))) ∧
  (∀ (s : State) (o c : Nat) (x : Crew) (y : Flume) (ok : Bool) (e : Tbl Word) (f : BitVec 4) (d a : BitVec 6) (b : BitVec 3),
    s.cur.owners = [o] → s.cur.cleared = true → (s.liveStrands o).Nodup → s.crewOf o = some (c, x) →
    Tbl.find? x.flumes f.toNat = some y → Tbl.find? y.results o = some (ok, e) →
    let z : Crew := { x with flumes := Tbl.insert x.flumes f.toNat { y with results := Tbl.erase y.results o } }
    (exec (.fsend f a) s = .next (s.setCrew c z)) ∧
    (LiveDelivery s o → ∃ t, exec (.fsendNb f a b) s = .next t ∧
      (∀ i ∈ s.liveStrands o, t.getP i b.toNat = (b == 0 || ok)) ∧
      PredFrame { s.setCrew c z with launches := t.launches } t (s.liveStrands o) b.toNat) ∧
    (∃ t, exec (.ftake d f) s = .next t ∧
      (∀ i ∈ s.liveStrands o, t.getV i d.toNat = ⟨Tbl.getD e (i % 64) 0, none⟩) ∧
      LaneFrame (s.setCrew c z) t (s.liveStrands o) (fun n => n = d.toNat))) ∧
  (∀ (s : State) (o c : Nat) (x : Crew) (f : BitVec 4) (d a : BitVec 6) (b : BitVec 3), s.cur.owners = [o] →
    s.crewOf o = some (c, x) → (Tbl.find? x.flumes f.toNat = none) →
    ∀ i ∈ [Instr.fsend f a, .fsendNb f a b, .ftake d f], exec i s = .next (s.takeTrap 0x16 0 none)) ∧
  (∀ (s : State) (o c : Nat) (x : Crew) (w : Bundle) (y : Flume) (f : BitVec 4) (d a : BitVec 6) (b : BitVec 3),
    s.cur.owners = [o] → s.cur.cleared = false → s.crewOf o = some (c, x) → Tbl.find? s.bundles o = some w →
    Tbl.find? x.flumes f.toNat = some y →
    (y.prod ≠ w.f1 → ∀ i ∈ [Instr.fsend f a, .fsendNb f a b], exec i s = .next (s.takeTrap 0x16 0 none)) ∧
    (y.cons ≠ w.f1 → exec (.ftake d f) s = .next (s.takeTrap 0x16 0 none)))

namespace Sys2Proof.Claims

/-- Results enter the pipeline of tile k, to land lat execute cycles later (16 R273), with the flags `fl` in its ACR; nothing else
changes: no register, no other tile, no byte of memory. A later SWRITE's ACR keeps the flags out (18 R293). -/
structure Flies (s t : State) (k : Nat) (st : Stream) (lat : Nat) (xs : List Landing) (fl : FFlags) : Prop where
  stream : t.tile k = { s.tile k with stream := some { st with flying := st.flying ++ xs.map (fun x => ⟨st.cycle + lat, x⟩) } }
  others : ∀ j, j ≠ k → t.tile j = s.tile j
  rest : t = { s with tiles := t.tiles, owners := t.owners, freeCtr := t.freeCtr }
  owner : ∀ o, t.owner o = { s.owner o with acr := (t.owner o).acr, acrNext := (t.owner o).acrNext }
  acr : ∀ o, (t.owner o).acr =
    (s.owner o).acr ||| (if o = k ∧ s.cur.acr = none then BitVec.ofNat 64 fl.toNat else 0)

/-- The elements of a register of type ty in flight: those that `want` gives are written, the others keep what stands. -/
def Elements (ty : Nat) (want : Nat → Option Nat) (v bits : Nat) : Prop :=
  let w := codeWidth ty
  ∀ i : Nat, i < 2048 / w → match want i with
    | some x => elemAt w v i = x % 2 ^ w ∧ elemAt w bits i = 2 ^ w - 1
    | none => elemAt w bits i = 0

/-- Active elements of w(d) receive their results, the others zero with m, or what they hold (16 R271). -/
def VecResult (s : State) (k : Nat) (st : Stream) (d : BitVec 5) (msk : Nat) (m : Bool) (lat ty : Nat) (res : Nat → Nat × FFlags)
    (out : Host.Outcome State Fault Refusal) : Prop :=
  ∃ t v bits, out = .next t ∧
    Flies s t k st lat [.reg (st.phys d.toNat) v none bits]
      (((List.range (2048 / codeWidth ty)).map (fun i => if st.active msk i then (res i).2 else FFlags.none)).foldl FFlags.or FFlags.none) ∧
    Elements ty (fun i => if st.active msk i then some (res i).1 else if m then some 0 else none) v bits

/-- A whole register receives a value. -/
def VecWhole (s : State) (k : Nat) (st : Stream) (d : BitVec 5) (lat v : Nat) (fl : FFlags)
    (out : Host.Outcome State Fault Refusal) : Prop :=
  ∃ t, out = .next t ∧ Flies s t k st lat [.reg (st.phys d.toNat) v none (2 ^ 2048 - 1)] fl

/-- Element-wise instructions: the TYPEs they issue under, their sources, and the result of an element (16 R272, R276, R277). -/
structure VecForm where
  instr : Instr
  types : TypeSet
  srcs : List (BitVec 5)
  res : VecMode → Nat → List Nat → Nat × FFlags

noncomputable def vecForms (d a b : BitVec 5) (k : BitVec 3) (m : Bool) : List VecForm :=
  let num : TypeSet := ⟨true, false, true⟩
  let all : TypeSet := ⟨true, true, true⟩
  let fl : TypeSet := ⟨true, false, false⟩
  [⟨.vadd d a b k m, num, [a, b], elemAdd⟩, ⟨.vsub d a b k m, num, [a, b], elemSub⟩, ⟨.vmul d a b k m, num, [a, b], elemMul⟩,
   ⟨.vfma d a b k m, num, [a, b, d], elemFma⟩, ⟨.vmin d a b k m, num, [a, b], elemMin⟩, ⟨.vmax d a b k m, num, [a, b], elemMax⟩,
   ⟨.vabs d a k m, num, [a], elemAbs⟩, ⟨.vneg d a k m, num, [a], elemNeg⟩,
   ⟨.vclamp d a b k m, num, [a, b, d], elemClamp⟩, ⟨.vfrac d a k m, num, [a], elemFrac⟩, ⟨.vrnd d a b k m, num, [a], elemRnd b⟩,
   ⟨.vand d a b k m, all, [a, b], fun _ _ x => (x.getD 0 0 &&& x.getD 1 0, FFlags.none)⟩,
   ⟨.vor d a b k m, all, [a, b], fun _ _ x => (x.getD 0 0 ||| x.getD 1 0, FFlags.none)⟩,
   ⟨.vxor d a b k m, all, [a, b], fun _ _ x => (x.getD 0 0 ^^^ x.getD 1 0, FFlags.none)⟩,
   ⟨.vmov d a k m, all, [a], fun _ _ x => (x.getD 0 0, FFlags.none)⟩,
   ⟨.vshl d a b k m, all, [a, b], elemShl⟩, ⟨.vshrI d a b k m, all, [a, b], elemShr true⟩,
   ⟨.vshrN d a b k m, all, [a, b], elemShr false⟩, ⟨.vmadI d a b k m, all, [a, b, d], elemMad⟩,
   ⟨.vrcp d a k m, fl, [a], elemSpecial fRcp⟩, ⟨.vrsq d a k m, fl, [a], elemSpecial fRsq⟩,
   ⟨.vexp2 d a k m, fl, [a], elemSpecial fExp2⟩, ⟨.vlog2 d a k m, fl, [a], elemSpecial fLog2⟩,
   ⟨.vsqrt d a k m, fl, [a], elemSpecial fSqrt⟩, ⟨.vscale d a b k m, fl, [a, b], elemScale⟩]

end Sys2Proof.Claims

/-- The element-wise vector instructions (16 R271-R277) of a tile's stream under a TYPE they issue under: each active element
receives its result four execute cycles later, inactive ones zero with m and else what they hold, with the flags of the active
elements; a poisoned source, the first in the order a, b, d, poisons the whole register and raises no flag; under another TYPE the
instruction traps bad-format. Integers of the TYPE wrap. -/
def Obligations.VectorElements : Prop :=
  (∀ (s : State) (t : Nat) (st : Stream) (d a b : BitVec 5) (k : BitVec 3) (m : Bool), OnTile s t st →
    ∀ e ∈ vecForms d a b k m,
      let ty := shapeType st.shape
      (e.types.admits ty = true → (∀ r ∈ e.srcs, (st.wreg r).poison = none) →
        VecResult s t st d k.toNat m 4 ty
          (fun i => e.res (s.vecMode t) ty (e.srcs.map (fun r => elemAt (codeWidth ty) (st.wreg r).val.toNat i))) (exec e.instr s)) ∧
      (∀ p, e.types.admits ty = true → e.srcs.findSome? (fun r => (st.wreg r).poison) = some p →
        ∃ u, exec e.instr s = .next u ∧ Flies s u t st 4 [.reg (st.phys d.toNat) 0 (some p) (2 ^ 2048 - 1)] FFlags.none) ∧
      (e.types.admits ty = false → exec e.instr s = .next (s.takeTrap 0x1C 0 none))) ∧
  (∀ (e : VecMode) (ty x y : Nat), codeIsInt ty = true →
    let w := codeWidth ty
    let v (c : Nat) : Int := intVal (codeSigned ty) w c
    (elemAdd e ty [x, y]).1 = intCode w (v x + v y) ∧ (elemSub e ty [x, y]).1 = intCode w (v x - v y) ∧
    (elemMul e ty [x, y]).1 = intCode w (v x * v y) ∧
    (elemMin e ty [x, y]).1 = (if v x < v y then x else y) ∧ (elemMax e ty [x, y]).1 = (if v x < v y then y else x))

/-- The other vector instructions (16 R278-R288) of a tile's stream with plain sources: compares, selects and mask logic,
reductions, prefix sums and block maxima, the table, permutes, quantisation, conversion and saturation, codebooks, the queue port
and VSHAPE; and the events that land what is in flight. -/
def Obligations.VectorOthers : Prop :=
  ∀ (s : State) (t : Nat) (st : Stream) (d a b : BitVec 5) (k : BitVec 3) (m : Bool), OnTile s t st →
    (st.wreg a).poison = none → (st.wreg b).poison = none →
    let ty := shapeType st.shape
    let w := codeWidth ty
    let n := 2048 / w
    let x (i : Nat) : Nat := elemAt w (st.wreg a).val.toNat i
    let y (i : Nat) : Nat := elemAt w (st.wreg b).val.toNat i
    let fz := (s.vecMode t).fz
    ((typeIsByte ty = false ∨ d.toNat < 2) →
      let r (i : Nat) := vecCond d.toNat fz ty (x i) (y i)
      ∃ u v, exec (.vcmp d a b k) s = .next u ∧ (∀ i : Nat, i < 256 → (v.testBit i = true ↔ i < shapeCount st.shape ∧ (r i).1 = true)) ∧
        Flies s u t st 4 (if k = 0 then [] else [.mask k.toNat v])
          (((List.range (shapeCount st.shape)).map (fun i => (r i).2)).foldl FFlags.or FFlags.none)) ∧
    (VecResult s t st d 0 m 4 ty (fun i => (if (st.mask k.toNat).getLsbD i then x i else y i, FFlags.none)) (exec (.vsel d a b k m) s)) ∧
    (∀ (op : BitVec 2) (c e f : BitVec 3),
      let g : BitVec 256 := if op = 0 then st.mask e.toNat else if op = 1 then st.mask e.toNat &&& st.mask f.toNat
        else if op = 2 then st.mask e.toNat ||| st.mask f.toNat else st.mask e.toNat &&& ~~~(st.mask f.toNat)
      typeIsByte ty = false → ∃ u, exec (.vkmov op c e f) s = .next u ∧ Flies s u t st 2 (if c = 0 then [] else [.mask c.toNat g.toNat]) FFlags.none) ∧
    ((typeIsByte ty = false) →
      (let r := sumOf fz ty ((List.range n).map (fun i => if st.active k.toNat i then some (x i) else none))
       VecWhole s t st d 6 r.1 r.2 (exec (.vradd d a k) s)) ∧
      (VecWhole s t st d 6 (maxOf fz ty (((List.range n).filter (st.active k.toNat)).map x)) FFlags.none (exec (.vrmax d a k) s)) ∧
      (VecResult s t st d k.toNat m 6 ty (fun i => sumOf fz ty ((List.range n).map (fun j =>
        if st.active k.toNat j ∧ j ≤ i then some (x j) else none))) (exec (.vpsum d a k m) s)) ∧
      (∃ u, exec (.vtbll a k) s = .next u ∧ (∀ j, Tbl.getD (u.tile t).table j 0 =
          if 64 * k.toNat ≤ j ∧ j < 64 * k.toNat + 64 then BitVec.ofNat 32 (elemAt 32 (st.wreg a).val.toNat (j - 64 * k.toNat))
          else Tbl.getD (s.tile t).table j 0) ∧
        u.tile t = { s.tile t with table := (u.tile t).table } ∧ (∀ j, j ≠ t → u.tile j = s.tile j) ∧ u = { s with tiles := u.tiles }) ∧
      (∃ u, exec (.vcbk a) s = .next u ∧
        u.tile t = { s.tile t with bookV := (List.range 16).map (elemAt 16 (st.wreg a).val.toNat) } ∧
        (∀ j, j ≠ t → u.tile j = s.tile j) ∧ u = { s with tiles := u.tiles }) ∧
      (satPair ty b.toNat = true →
        VecResult s t st d k.toNat m 4 ty (fun i => elemSat (Config.freeValue (s.freeCtr + i)) b.toNat (s.vecMode t) ty [x i])
          (exec (.vsat d a b k m) s))) ∧
    (typeIsFloat ty = true →
      (let ms := st.blockMaxes fz k.toNat (st.wreg a).val.toNat
       ∃ u, exec (.vamax d a k) s = .next u ∧
         (u.tile t).stream = some { st with flying := st.flying ++
           [⟨st.cycle + 6, .reg (st.phys d.toNat) (packAll 32 ms) none (2 ^ 2048 - 1)⟩, ⟨st.cycle + 4, .latch ms⟩] } ∧
         (∀ j, j ≠ t → u.tile j = s.tile j) ∧ u = { s with tiles := u.tiles, owners := u.owners } ∧ ∀ o r, u.getS o r = s.getS o r) ∧
      (VecResult s t st d k.toNat m 6 ty (fun i => tableValue (s.tile t).table fz ty (elemAt 32 (st.wreg b).val.toNat 0)
        (elemAt 32 (st.wreg b).val.toNat 1) (x i)) (exec (.vtbli d a b k m) s)) ∧
      (∀ e, codeEmax b.toNat (s.tile t).bookV = some e →
        (let bs := (List.range (n / 32)).map (fun j => quantBlock b.toNat (s.tile t).bookV (typeFmt ty) fz e
            (if m then latchValue s (s.tile t) j else (st.blockMaxes fz k.toNat (st.wreg a).val.toNat).getD j 0)
            ((List.range 32).map (fun i => if st.active k.toNat (32 * j + i) then some (x (32 * j + i)) else none)))
         VecWhole s t st d 4 (quantPack b.toNat bs) ((bs.map (fun q => q.2.2)).foldl FFlags.or FFlags.none) (exec (.vqnt d a b k m) s)) ∧
        VecResult s t st d k.toNat m 4 ty (fun i => fround (typeFmt ty) .rne fz (scaledDecode b.toNat (s.tile t).bookV
          ((st.wreg a).val.toNat / 2 ^ (8 * (252 + i / 32)) % 256) (elemAt (codeWidth b.toNat) (st.wreg a).val.toNat i)))
          (exec (.vdqnt d a b k m) s))) ∧
    (VecResult s t st d k.toNat m 4 b.toNat (fun i => convertElem (s.vecMode t) ty b.toNat (x i)) (exec (.vcvt d a b k m) s)) ∧
    (VecResult s t st d k.toNat m 6 ty (fun i => (x (y i % n), FFlags.none)) (exec (.vperm d a b k m) s)) ∧
    (VecResult s t st d k.toNat m 6 ty (fun _ => (x b.toNat, FFlags.none)) (exec (.vbcast d a b k m) s)) ∧
    (VecResult s t st d k.toNat false 6 ty (fun i => (if m then (if i < b.toNat then 0 else x (i - b.toNat))
      else if n ≤ i + b.toNat then 0 else x (i + b.toNat), FFlags.none)) (exec (.vslide d a b k m) s)) ∧
    (VecResult s t st d k.toNat false 6 ty (fun i => (x (if m then (i + n - b.toNat) % n else (i + b.toNat) % n), FFlags.none))
      (exec (.vrot d a b k m) s)) ∧
    (∀ (q : BitVec 2) (c : BitVec 3) e rest, typeIsByte ty = false → Tbl.getD st.queues q.toNat [] = e :: rest →
      s.hiddenIn t q.toNat ≤ rest.length →
      let st1 : Stream := { st with queues := Tbl.put [] st.queues q.toNat rest }
      (∃ u, exec (.vpop d q) s = .next u ∧ Flies s u t st1 2 [.reg (st.phys d.toNat) e none (2 ^ 2048 - 1)] FFlags.none) ∧
      (∃ u, exec (.vpopk c q) s = .next u ∧ Flies s u t st1 2 (if c = 0 then [] else [.mask c.toNat (e % 2 ^ 256)]) FFlags.none)) ∧
    (typeIsByte ty = false → (Tbl.getD st.queues d.toNat []).length < 8 → ∃ u, exec (.vpush d a) s = .next u ∧ StreamBecomes s u t
      { st with queues := Tbl.put [] st.queues d.toNat (Tbl.getD st.queues d.toNat [] ++ [(st.wreg a).val.toNat]) }) ∧
    (typeIsByte ty = false → (Tbl.getD st.queues 6 []).length < 8 → ∃ u, exec (.vpushs 6 a k) s = .next u ∧ StreamBecomes s u t
      { st with queues := Tbl.put [] st.queues 6 (Tbl.getD st.queues 6 [] ++ [(st.wreg a).val.toNat % 2 ^ 64]) }) ∧
    (typeIsByte ty = false → (Tbl.getD st.queues 7 []).length < 8 →
      ((∀ i : Nat, i < shapeCount st.shape → (st.mask k.toNat).getLsbD i = false) →
        ∃ u, exec (.vpushs 7 a k) s = .next u ∧ StreamBecomes s u t
          { st with queues := Tbl.put [] st.queues 7 (Tbl.getD st.queues 7 [] ++ [0]) }) ∧
      (0 < shapeCount st.shape → (∀ i : Nat, i < shapeCount st.shape → (st.mask k.toNat).getLsbD i = true) →
        ∃ u, exec (.vpushs 7 a k) s = .next u ∧ StreamBecomes s u t
          { st with queues := Tbl.put [] st.queues 7 (Tbl.getD st.queues 7 [] ++ [1]) })) ∧
    (typeIsByte ty = true → ∀ (q : BitVec 2) (op : BitVec 2) (c e f : BitVec 3),
      ∀ i ∈ [Instr.vpop d q, .vpopk c q, .vpush d a, .vpushs d a k, .vshape d a b k m, .vkmov op c e f],
        exec i s = .next (s.takeTrap 0x1C 0 none)) ∧
    (typeIsByte ty = false → ∃ u, exec (.vshape d a b k m) s = .next u ∧ StreamBecomes s u t { st with
      shapeNext := some (
        let full := 2048 / codeWidth d.toNat
        let c := if m then min ((st.wreg a).val.toNat % 2 ^ 32) full
          else if 32 * a.toNat + b.toNat = 0 then full else 32 * a.toNat + b.toNat
        BitVec.ofNat 64 ((if k = 1 then 2 ^ 15 else 0) + d.toNat * 2 ^ 10 + c)) }) ∧
    (exec (.scaleLatchDelivery t) s = .next (s.landDue t)) ∧
    (s.landingDue t = false → exec (.executeResultLanding t) s = .next s) ∧
    (s.landingDue t = true → ∃ u v, exec (.executeResultLanding t) s = .next u ∧ (u.tile t).stream = some v ∧
      v.cycle = st.cycle + 1 ∧ (∀ f, f ∈ v.flying ↔ f ∈ st.flying ∧ st.cycle + 1 < f.cycle) ∧
      (∀ r x, st.flying = [⟨st.cycle + 1, .reg r x none (2 ^ 2048 - 1)⟩] → Tbl.getD v.w r (.zero 2048) = ⟨BitVec.ofNat 2048 x, none⟩))

namespace Sys2Proof.Claims

/-- MAT instructions that only queue, with what each needs: an enabled engine, and a pair (19 R308, R314, R316). -/
structure MatForm where
  instr : Instr
  always : Bool
  pr : Bool

noncomputable def matForms (r1 r2 : BitVec 9) (c1 c2 : BitVec 5) (pr q sat sa sb : Bool) (el : BitVec 1) (ec : BitVec 2) (sl : BitVec 4)
    (code : BitVec 5) (t : MatTail) : List MatForm :=
  [⟨.mldb r2 c2 pr q t, false, pr⟩, ⟨.mmaBf16 r1 r2 c2 pr t, false, pr⟩, ⟨.mmaF16 r1 r2 c2 pr t, false, pr⟩,
   ⟨.mmaE4m3 r1 r2 c2 pr t, false, pr⟩, ⟨.mmaE5m2 r1 r2 c2 pr t, false, pr⟩, ⟨.mmaMx8 r1 r2 c2 pr ec t, false, pr⟩,
   ⟨.mmaMx6 r1 r2 c2 pr el t, false, pr⟩, ⟨.mmaMx4 r1 r2 c2 pr el t, false, pr⟩, ⟨.mmaI8 r1 r2 c2 pr sat sa sb t, false, pr⟩,
   ⟨.mmaI4 r1 r2 c2 pr sat sa sb t, false, pr⟩, ⟨.mmasMx4 r1 r2 c2 pr el t, false, pr⟩, ⟨.mmasMx8 r1 r2 c2 pr ec t, false, pr⟩,
   ⟨.mmvMx4 r1 c1 r2 c2 false sl ec t, false, false⟩, ⟨.mmvMx8 r1 c1 r2 c2 false sl ec t, false, false⟩,
   ⟨.mmvBf16 r1 c1 r2 c2 false sl t, false, false⟩, ⟨.mzero r1 c1 pr q t, false, pr⟩, ⟨.mscale r1 r2 pr t, false, pr⟩,
   ⟨.mcvt r1 c1 r2 pr code q t, false, pr⟩, ⟨.mtest r1 c1 t, true, false⟩, ⟨.mfence t, true, false⟩, ⟨.mcbk r2 c2 pr el t, false, pr⟩,
   ⟨.mtrn r1 c1 r2 c2 ec t, false, false⟩]

/-- The MMV instructions that read the feed. -/
noncomputable def feedForms (r1 r2 : BitVec 9) (c1 c2 : BitVec 5) (ec : BitVec 2) (sl : BitVec 4) (t : MatTail) : List Instr :=
  [.mmvMx4 r1 c1 r2 c2 true sl ec t, .mmvMx8 r1 c1 r2 c2 true sl ec t, .mmvBf16 r1 c1 r2 c2 true sl t]

/-- Byte c of row r of a tile's store (19 R307). -/
def storeByte (s : State) (t r c : Nat) : Byte := Tbl.getD (s.tile t).store (512 * r + c) 0

/-- A word of a row, little-endian, and cell (i, j) of a block whose rows start at r. -/
def cellAt (s : State) (t r i j : Nat) : Nat := storeLE (s.tile t).store (r + i) (4 * j) 4

end Sys2Proof.Claims

/-- The matrix engine (19 R307-R316, 21 R334-R343). A MAT instruction whose wait mask is satisfied, which finds room in a queue of 8
that is not slaved, completes: exec answers the next state, in which it has joined the queue with its token and the ACR at its place in
the stream, which is all that R308 gives its issue (every form of matForms, and of feedForms with and without a feed before it); on
a disabled engine, or paired with no MPAIR before it, it traps matrix-state. One that joins an empty queue is carried out by two
MAT_RETIREs as soon as the engine may start it, where no unit of a tile store is marked uncorrectable; MatrixResults states what
each leaves. At the head of the queue it starts, where it reads what it will read, and then retires: it leaves the queue. One that
would read a marked unit restarts the region instead (26 R395; log 134). MPAIR retires by slaving its neighbour's queue, or restarts
the region where either tile is fenced by then (log 114). A self-test that is due and finds nothing clears the count; one that
fails marks the quarter. -/
def Obligations.Matrix : Prop :=
  (∀ (s : State) (t : Nat) (st : Stream) (r1 r2 : BitVec 9) (c1 c2 : BitVec 5) (pr q sat sa sb : Bool) (el : BitVec 1) (ec : BitVec 2)
    (sl : BitVec 4) (code : BitVec 5) (tl : MatTail), OnTile s t st → s.matMaskBusy t tl.wm = false → (s.tile t).mats.length < 8 →
    (s.tile t).slavedTo = none →
    (∀ e ∈ matForms r1 r2 c1 c2 pr q sat sa sb el ec sl code tl,
      (e.always = true ∨ (s.tile t).fences < 2) →
        ((e.pr = true → st.pairIssued = true) → ∃ u, exec e.instr s = .next u ∧
          u.tile t = { s.tile t with mats := (s.tile t).mats ++ [⟨e.instr, tl.te, tl.tok, s.vecAcr t, none, st.cycle, none⟩] } ∧
          (∀ j, j ≠ t → u.tile j = s.tile j) ∧ u = { s with tiles := u.tiles }) ∧
        (e.pr = true → st.pairIssued = false → exec e.instr s = .next (s.takeTrap 0x2A 0 none)) ∧
        ((e.pr = true → st.pairIssued = true) → (s.tile t).mats = [] → (∀ k, (s.tile k).storeMarked = []) →
          ∃ u, exec e.instr s = .next u ∧ (u.matReady t = true →
            ∃ v, exec (.matRetire t) u = .next v ∧ (v.matReady t = true →
              ∃ w, exec (.matRetire t) v = .next w ∧ (w.tile t).mats = [] ∧ (w.tile t).sinceTest = (s.tile t).sinceTest + 1)))) ∧
    (∀ e ∈ matForms r1 r2 c1 c2 pr q sat sa sb el ec sl code tl, e.always = false → 2 ≤ (s.tile t).fences →
      exec e.instr s = .next (s.takeTrap 0x2A 0 none)) ∧
    (∀ e ∈ feedForms r1 r2 c1 c2 ec sl tl, ∀ f, (s.tile t).fences < 2 → st.feedBehind = false → (s.tile t).feed = some f → f.taken < f.count →
      ∃ u, exec e s = .next u ∧
        u.tile t = { s.tile t with feed := some { f with taken := f.taken + 1 },
                                   mats := (s.tile t).mats ++ [⟨e, tl.te, tl.tok, s.vecAcr t, some f.taken, st.cycle, none⟩] } ∧
        (∀ j, j ≠ t → u.tile j = s.tile j) ∧ u = { s with tiles := u.tiles }) ∧
    (∀ e ∈ feedForms r1 r2 c1 c2 ec sl tl, (s.tile t).fences < 2 → st.feedBehind = false → (s.tile t).feed = none →
      ∃ u, exec e s = .next u ∧
        u.tile t = { s.tile t with mats := (s.tile t).mats ++ [⟨e, tl.te, tl.tok, s.vecAcr t, none, st.cycle, none⟩] } ∧
        (∀ j, j ≠ t → u.tile j = s.tile j) ∧ u = { s with tiles := u.tiles }) ∧
    (∀ n, pairNeighbour t el = some n → n ∈ s.tileSet t → (s.tile n).fenced = 0 → (s.tile t).fenced = 0 → (s.tile t).fences < 2 →
      st.pairIssued = false → st.paired = none →
      ∃ u, exec (.mpair el tl) s = .next u ∧ (u.tile t).stream = some { st with pairIssued := true } ∧
        (u.tile t).mats = (s.tile t).mats ++ [⟨.mpair el tl, tl.te, tl.tok, s.vecAcr t, none, st.cycle, none⟩] ∧ u = { s with tiles := u.tiles }) ∧
    ((s.tile t).fences < 2 → ∃ u, exec (.mfree tl) s = .next u ∧ (u.tile t).stream = some { st with pairIssued := false } ∧
      (u.tile t).mats = (s.tile t).mats ++ [⟨.mfree tl, tl.te, tl.tok, s.vecAcr t, none, st.cycle, none⟩] ∧ u = { s with tiles := u.tiles })) ∧
  (∀ (s : State) (t : Nat) (e : MatEntry) (rest : List MatEntry), (s.tile t).mats = e :: rest →
    (s.matReady t = false → exec (.matRetire t) s = .next s) ∧
    (s.matReady t = true → e.start = none → s.readsMarked t e = true → exec (.matRetire t) s = .next (s.restartOnError t)) ∧
    (s.matReady t = true → e.start = none → s.readsMarked t e = false → ∃ u, exec (.matRetire t) s = .next u ∧
      u.tile t = { s.tile t with mats := { e with start := some (s.matViews t) } :: rest } ∧ (∀ j, j ≠ t → u.tile j = s.tile j) ∧
      u = { s with tiles := u.tiles }) ∧
    (∀ v, s.matReady t = true → e.start = some v → ∃ u, exec (.matRetire t) s = .next u ∧ (u.tile t).mats = rest ∧
      (u.tile t).sinceTest = (s.tile t).sinceTest + 1 ∧ (∀ pa, u.byte pa = s.byte pa) ∧ u.strands = s.strands ∧
      (∀ j, j ≠ t → s.follower t ≠ some j → (∀ tl, e.instr ≠ .mfree tl) → u.tile j = s.tile j))) ∧
  (∀ (s : State) (t n : Nat), s.claims t = some n → n ≠ t →
    ((s.tile t).fenced ≠ 0 ∨ (s.tile n).fenced ≠ 0 → exec (.mpairSlave t) s = .next (s.restart t)) ∧
    ((s.tile t).fenced = 0 → (s.tile n).fenced = 0 → s.claimReady t n = true →
      ∃ u, exec (.mpairSlave t) s = .next u ∧ (u.tile n).slavedTo = some t ∧
        (u.tile t).mats = (s.tile t).mats.drop 1 ∧
        (∀ st, (s.tile t).stream = some st → (u.tile t).stream = some { st with paired := some n, matSince := true })) ∧
    ((s.tile t).fenced = 0 → (s.tile n).fenced = 0 → s.claimReady t n = false → exec (.mpairSlave t) s = .next s)) ∧
  (∀ (s : State) (t : Nat) (failing : BitVec 4),
    (s.testDue t = false → exec (.matrixSelfTest t failing) s = .next s) ∧
    (s.testDue t = true → failing &&& ~~~(s.tile t).fenced = 0 →
      ∃ u, exec (.matrixSelfTest t failing) s = .next u ∧ (u.tile t).sinceTest = 0 ∧
        (u.tile t).failed = (s.tile t).failed ∧ (u.tile t).fenced = (s.tile t).fenced) ∧
    (s.testDue t = true → (s.tile t).failed = 0 → (s.tile t).fenced = 0 → (s.tile t).stream = none → (s.tile t).slavedTo = none →
      failing = 1 →
      ∃ u, exec (.matrixSelfTest t failing) s = .next u ∧ (u.tile t).failed = 1 ∧ (u.tile t).fenced = 0 ∧
        (u.tile t).sinceTest = 0))

namespace Sys2Proof.Claims

/-- The steps of the matrix engine, and what each multiplies: its format, K, rounding group, sparsity and integer flags (19
R311, R312). -/
noncomputable def stepForms (r1 r2 : BitVec 9) (c2 : BitVec 5) (pr sat sa sb : Bool) (el : BitVec 1) (ec : BitVec 2) (tl : MatTail) :
    List (Instr × StepSpec) :=
  [(.mmaBf16 r1 r2 c2 pr tl, floatSpec 0x03 16 16 false), (.mmaF16 r1 r2 c2 pr tl, floatSpec 0x02 16 16 false),
   (.mmaE4m3 r1 r2 c2 pr tl, floatSpec 0x04 32 32 false), (.mmaE5m2 r1 r2 c2 pr tl, floatSpec 0x05 32 32 false),
   (.mmaMx8 r1 r2 c2 pr ec tl, floatSpec (if ec = 0 then 0x06 else if ec = 1 then 0x07 else 0x0B) 32 32 false),
   (.mmaMx6 r1 r2 c2 pr el tl, floatSpec (if el = 0 then 0x08 else 0x09) 32 32 false),
   (.mmaMx4 r1 r2 c2 pr el tl, floatSpec (if el = 0 then 0x0A else 0x0C) 64 32 false),
   (.mmaI8 r1 r2 c2 pr sat sa sb tl, ⟨0x10, 8, 32, 32, false, sa, sb, sat⟩),
   (.mmaI4 r1 r2 c2 pr sat sa sb tl, ⟨0x18, 4, 64, 64, false, sa, sb, sat⟩),
   (.mmasMx4 r1 r2 c2 pr el tl, floatSpec (if el = 0 then 0x0A else 0x0C) 128 32 true),
   (.mmasMx8 r1 r2 c2 pr ec tl, floatSpec (if ec = 0 then 0x06 else if ec = 1 then 0x07 else 0x0B) 64 32 true)]

/-- The MMV steps. -/
noncomputable def mmvForms (r1 r2 : BitVec 9) (c1 c2 : BitVec 5) (pr : Bool) (ec : BitVec 2) (sl : BitVec 4) (tl : MatTail) :
    List (Instr × StepSpec) :=
  [(.mmvMx4 r1 c1 r2 c2 pr sl ec tl, floatSpec (if ec = 0 then 0x0A else 0x0C) 64 32 false),
   (.mmvMx8 r1 c1 r2 c2 pr sl ec tl, floatSpec (if ec = 0 then 0x06 else if ec = 1 then 0x07 else 0x0B) 32 32 false),
   (.mmvBf16 r1 c1 r2 c2 pr sl tl, floatSpec 0x03 16 16 false)]

/-- Word j of row r of a tile store. -/
def wordOf (m : Tbl Byte) (r j : Nat) : Nat := storeLE m r (4 * j) 4

/-- The started instruction at the head of tile t's queue retires: what the rule says of the state after it. -/
def Retires (s : State) (t : Nat) (i : Instr) (v : MatView × MatView) (acr : Dword) (blk : Option Nat) (after : State → Prop) : Prop :=
  ∀ (e : MatEntry) (rest : List MatEntry), (s.tile t).mats = e :: rest → e.instr = i → e.start = some v → e.acr = acr →
    e.block = blk → s.matReady t = true → s.follower t ≠ some t → ∃ u, exec (.matRetire t) s = .next u ∧ after u

end Sys2Proof.Claims

/-- What each MAT instruction leaves when it retires (19 R310-R316, 21 R335-R337), from what it read at its start and with ACR as its
place in the stream gives it. A step adds the products of row i and column j to C(i, j) in rounding groups, or the exact integer
sum, wrapped or clamped; with pr it does so on the follower too, with the leader's rows and the follower's B registers and C. MMV
takes its columns of A from the tile store or from a slot of the feed. MLDB fills the B columns, MZERO zeroes, MSCALE multiplies
each column by its word, MCVT converts, MTRN transposes, MCBK loads a codebook, MTEST writes its record, MFREE ends a pair. Bytes that
an instruction does not write stay. -/
def Obligations.MatrixResults : Prop :=
  (∀ (s : State) (t : Nat) (r1 r2 : BitVec 9) (c1 c2 : BitVec 5) (pr sat sa sb : Bool) (el : BitVec 1) (ec : BitVec 2) (sl : BitVec 4)
    (tl : MatTail) (v : MatView × MatView) (acr : Dword), r1.toNat ≤ 384 → r2.toNat ≤ 384 →
    (∀ e ∈ stepForms r1 r2 c2 pr sat sa sb el ec tl, ∀ blk, Retires s t e.1 v acr blk (fun u =>
      let rows (i : Nat) := aRowAt v.1.store e.2.sparse (r2.toNat + i) (16 * c2.toNat)
      (∀ i j : Nat, i < 128 → j < 128 → cellAt u t r1.toNat i j =
        (stepCell e.2 v.1.bookA v.1.bookB (acr.getLsbD 7) (rows i) (bLE v.1.b j 0 64) (bLE v.1.b j 64 16)
          (wordOf v.1.store (r1.toNat + i) j)).1 % 2 ^ 32) ∧
      (∀ r c : Nat, c < 512 → (r < r1.toNat ∨ r1.toNat + 128 ≤ r) → storeByte u t r c = storeByte s t r c) ∧
      (∀ n, pr = true → s.follower t = some n → ∀ i j : Nat, i < 128 → j < 128 → cellAt u n r1.toNat i j =
        (stepCell e.2 v.1.bookA v.2.bookB (acr.getLsbD 7) (rows i) (bLE v.2.b j 0 64) (bLE v.2.b j 64 16)
          (wordOf v.2.store (r1.toNat + i) j)).1 % 2 ^ 32) ∧
      (∀ n, pr = false → n ≠ t → u.tile n = s.tile n))) ∧
    (16 * c1.toNat + 32 ≤ 512 → ∀ e ∈ mmvForms r1 r2 c1 c2 pr ec sl tl, ∀ blk, Retires s t e.1 v acr blk (fun u =>
      ∀ i k : Nat, i < 128 → k < 8 → storeLE (u.tile t).store (r1.toNat + i) (16 * c1.toNat + 4 * k) 4 =
        (stepCell e.2 v.1.bookA v.1.bookB (acr.getLsbD 7)
          (if pr = false then aRowAt v.1.store false (r2.toNat + i) (16 * c2.toNat)
           else match blk, (s.tile t).feed with
             | some n, some f => aRowAt v.1.store false (f.row + i) (f.col + 64 * (n % 4))
             | _, _ => ⟨0, 0, 0⟩)
          (bLE v.1.b (16 * k + sl.toNat) 0 64) (bLE v.1.b (16 * k + sl.toNat) 64 16)
          (storeLE v.1.store (r1.toNat + i) (16 * c1.toNat + 4 * k) 4)).1 % 2 ^ 32))) ∧
  (∀ (sp : StepSpec) (bA bB : List Nat) (fz : Bool) (a : ARow) (bd bs c : Nat), sp.sparse = false → codeIsInt sp.fmt = true →
    let sum : Int := ((List.range sp.k).map (fun k => intVal sp.sa sp.width (a.data / 2 ^ (sp.width * k) % 2 ^ sp.width) *
      intVal sp.sb sp.width (bd / 2 ^ (sp.width * k) % 2 ^ sp.width))).sum
    (stepCell sp bA bB fz a bd bs c).1 = intCode 32 (if sp.sat = true then
      max (-(2 ^ 31)) (min (2 ^ 31 - 1) (intVal true 32 c + sum)) else intVal true 32 c + sum)) ∧
  (∀ (s : State) (t : Nat) (r1 r2 : BitVec 9) (c1 c2 : BitVec 5) (pr q : Bool) (el : BitVec 1) (wd : BitVec 2) (code : BitVec 5)
    (tl : MatTail) (v : MatView × MatView) (acr : Dword) (blk : Option Nat), r1.toNat ≤ 384 →
    (Retires s t (.mldb r2 c2 pr q tl) v acr blk (fun u => ∀ j i : Nat, j < 128 → i < 80 → Tbl.getD (u.tile t).b (80 * j + i) 0 =
      let at' (n : Nat) : Byte := Tbl.getD v.1.store (512 * (r2.toNat + j) + 16 * c2.toNat + n) 0
      if q = true ∨ i < 32 then at' i else if i < 64 then 0 else at' (i - 32))) ∧
    (16 * c1.toNat + 32 ≤ 512 → Retires s t (.mzero r1 c1 pr q tl) v acr blk (fun u => ∀ r c : Nat, c < 512 → storeByte u t r c =
      if r1.toNat ≤ r ∧ r < r1.toNat + 128 ∧ (q = true → 16 * c1.toNat ≤ c ∧ c < 16 * c1.toNat + 32) then 0
      else storeByte s t r c)) ∧
    (Retires s t (.mscale r1 r2 pr tl) v acr blk (fun u => ∀ i j : Nat, i < 128 → j < 128 → cellAt u t r1.toNat i j =
      (mulIn fmtFP32 .rne (acr.getLsbD 7) (wordOf v.1.store (r1.toNat + i) j) (wordOf v.1.store r2.toNat j)).1 % 2 ^ 32)) ∧
    (let n := codeWidth code.toNat / 8
     16 * c1.toNat + 128 * n ≤ 512 → Retires s t (.mcvt r1 c1 r2 pr code q tl) v acr blk (fun u => ∀ i j : Nat, i < 128 → j < 128 →
      storeLE (u.tile t).store (r1.toNat + i) (16 * c1.toNat + j * n) n =
        (mcvtElem ⟨.rne, acr.getLsbD 7, acr.getLsbD 8⟩ code.toNat q (wordOf v.1.store (r2.toNat + i) j)).1 % 2 ^ (8 * n))) ∧
    (let w := if wd = 0 then 8 else if wd = 1 then 16 else if wd = 2 then 32 else 4
     16 * c1.toNat + 16 * w ≤ 512 → Retires s t (.mtrn r1 c1 r2 c2 wd tl) v acr blk (fun u => ∀ i j : Nat, i < 128 → j < 128 →
      storeLE (u.tile t).store (r1.toNat + j) (16 * c1.toNat) (16 * w) / 2 ^ (w * i) % 2 ^ w =
        storeLE v.1.store (r2.toNat + i) (16 * c2.toNat + j * w / 8) ((w + 7) / 8) / 2 ^ (j * w % 8) % 2 ^ w)) ∧
    (Retires s t (.mcbk r2 c2 pr el tl) v acr blk (fun u =>
      let book := (List.range 16).map (fun e => storeLE v.1.store r2.toNat (16 * c2.toNat + 2 * e) 2)
      (u.tile t).bookA = (if el = 0 then book else (s.tile t).bookA) ∧ (u.tile t).bookB = if el = 0 then (s.tile t).bookB else book)) ∧
    (16 * c1.toNat + 16 ≤ 512 → Retires s t (.mtest r1 c1 tl) v acr blk (fun u => ∀ c : Nat, c < 16 →
      storeByte u t r1.toNat (16 * c1.toNat + c) =
        if c = 0 then (s.tile t).failed.setWidth 8 else if c = 1 then (s.tile t).fenced.setWidth 8 else 0)) ∧
    (Retires s t (.mfence tl) v acr blk (fun u => (u.tile t).store = (s.tile t).store ∧ (u.tile t).b = (s.tile t).b)) ∧
    (∀ n st, (s.tile t).stream = some st → st.paired = some n → (s.tile n).slavedTo = some t →
      Retires s t (.mfree tl) v acr blk (fun u => (u.tile n).slavedTo = none ∧ (u.tile n).store = (s.tile n).store ∧
        (u.tile t).stream = some { st with paired := none, matSince := true })))

namespace Sys2Proof.Claims

/-- A queue whose next entry the hub can take: it holds one, it is enabled, the package runs, and no launch of it waits (07 R147). -/
structure Takes (s : State) (c q : Nat) (p : Published) (rest : List Published) : Prop where
  head : (s.launchQueue c q).entries = p :: rest
  enabled : (s.launchQueue c q).size ≠ 0
  runs : s.boot = .running
  none : ∀ e ∈ s.launches, e.2.ctx = c → e.2.origin.queue = some q → e.2.phase ≠ .waiting

/-- The header of an entry, and the state once the hub has read it. -/
def entryHeader (s : State) (c q : Nat) (p : Published) : List Dword :=
  let x := s.launchQueue c q
  s.headerAt (x.qbase.toNat + (if p.fromHost then 0 else 80 * x.size) + 64 * p.slot)
def afterTake (s : State) (c q : Nat) (p : Published) (rest : List Published) : State :=
  let x := s.launchQueue c q
  s.setLaunchQueue c q (if p.fromHost then { x with entries := rest, qhead := (p.slot + 1) % x.size }
    else { x with entries := rest, devHead := (p.slot + 1) % x.size })

/-- PRIO of a cohort's launch. -/
def cohortPrio (s : State) (c : Cohort) : Nat :=
  hdrPrio (s.header (((Tbl.find? s.crews (s.cohortCrew c)).map (fun (y : Crew) => y.launch)).getD 0))

/-- Strand registers, flags, loops and places are untouched; only what arbitration keeps with a strand may differ. -/
def OnlyArbitration (s t : State) : Prop :=
  (∀ i, t.strand i = { s.strand i with waitCount := (t.strand i).waitCount, stamp := (t.strand i).stamp, held := (t.strand i).held,
                                       since := (t.strand i).since }) ∧
  t = { s with strands := t.strands, cores := t.cores }

/-! #### Launches (07 R145-R148, R161, 25 R376, R377) -/

/-- LAUNCH_DISPATCH, LAUNCH_COMPLETION and BATCH_TIMEOUT. -/
def LaunchesMove : Prop :=
  (∀ (s : State) (c q : Nat), (s.launchQueue c q).entries = [] → exec (.launchDispatch c q) s = .next s) ∧
  (∀ (s : State) (c q : Nat) (p : Published) (rest : List Published), Takes s c q p rest →
    let h := entryHeader s c q p
    let u := afterTake s c q p rest
    let code := u.headerCode c h false
    (u.headerWaits c h false = true → exec (.launchDispatch c q) s = .next s) ∧
    (u.headerWaits c h false = false → code ≠ 0 → p.fromHost = true → exec (.launchDispatch c q) s = .next (u.writeSlot c (.hostRing q p.slot) code 0 0)) ∧
    (u.headerWaits c h false = false → code ≠ 0 → p.fromHost = false →
      exec (.launchDispatch c q) s = .next (u.post c 8 [BitVec.ofNat 64 p.seq, BitVec.ofNat 64 code])) ∧
    (u.headerWaits c h false = false → code = 0 → hdrWaitBead h = 0xFFFF → ∃ t l, exec (.launchDispatch c q) s = .next t ∧
      Tbl.find? t.launches (Tbl.nextKey s.launches) = some l ∧ l.ctx = c ∧ l.seq = p.seq ∧ l.hdr = h ∧ l.phase = .running ∧
      l.origin = (if p.fromHost then .hostRing q p.slot else .deviceRing q) ∧ l.nextCrew = 0 ∧ l.tiles = [] ∧
      l.crewCount = (if hdrKind h = 1 then 0 else crewCountOf h) ∧
      (∀ k, k ≠ Tbl.nextKey s.launches → Tbl.find? t.launches k = Tbl.find? s.launches k) ∧
      t = { (u.readPlan c h).2 with launches := t.launches } ∧ (hdrPlan h = 0 → t = { u with launches := t.launches }))) ∧
  (∀ (s : State) (l q slot : Nat) (x : Launch), Tbl.find? s.launches l = some x → x.origin = .hostRing q slot →
    (s.workOver l x = false → exec (.launchCompletion l) s = .next s) ∧
    (s.workOver l x = true → s.owesBack x = true → exec (.launchCompletion l) s = .next (s.writeBackAll l x)) ∧
    (s.workOver l x = true → s.owesBack x = false → hdrDoneBead x.hdr = 0xFFFF → (∀ e ∈ s.channels, e.2.launch ≠ l) →
      exec (.launchCompletion l) s =
        .next ((s.setLaunch l { x with phase := .completed }).writeSlot x.ctx (.hostRing q slot) 0x80 x.seq 0))) ∧
  (∀ (s : State) (c n : Nat) (nd : Node), Tbl.find? (s.ctx c).nodes n = some nd →
    (nd.pending = [] → exec (.batchTimeout c n) s = .next s) ∧
    (∀ r v rest, nd.pending = (r, v) :: rest → nd.pending.length ≤ hdrBatch nd.hdr → hdrWaitBead nd.hdr = 0xFFFF →
      s.planWaits c nd.hdr = false →
      ∃ t l, exec (.batchTimeout c n) s = .next t ∧
        t.time = (if nd.pending.length < hdrBatch nd.hdr then max s.time (v + hdrTmo nd.hdr) else s.time) ∧
        Tbl.find? (t.ctx c).nodes n = some { nd with pending := [] } ∧
        Tbl.find? t.launches (Tbl.nextKey s.launches) = some l ∧ l.batch = nd.pending.map Prod.fst ∧ l.crewCount = 1 ∧
        l.origin = .node n ∧ l.hdr = nd.hdr ∧ l.phase = .running ∧ (hdrPlan nd.hdr = 0 → ∀ pa, t.byte pa = s.byte pa)))

/-! #### Crews (06 R122, R127, R128, 07 R149, R158, 03 R81) -/

/-- CREW_PLACEMENT, CREW_START and BUNDLE_END. -/
def CrewsMove : Prop :=
  (∀ s : State, s.nextUnit = none → exec .crewPlacement s = .next s) ∧
  (∀ (s : State) (l i k : Nat) (y : Launch), s.nextUnit = some (⟨l, [i], []⟩, [k]) → hdrGrove (s.header l) = false →
    Tbl.find? s.launches l = some y →
    ∃ t x, exec .crewPlacement s = .next t ∧ Tbl.find? t.crews (Tbl.nextKey s.crews) = some x ∧ x.launch = l ∧ x.index = i ∧
      x.core = some k ∧ x.seq = (s.core k).nextSeq ∧ x.started = false ∧ x.ended = false ∧ x.saved = false ∧ x.bundles = [] ∧
      x.scratch = [] ∧ x.absent = [] ∧ x.bars = [] ∧ x.flumes = [] ∧ x.records = y.batch ∧ x.meshes = [] ∧ x.stopping = false ∧
      (t.core k).nextSeq = (s.core k).nextSeq + 1 ∧ (∀ j, j ≠ k → t.core j = s.core j) ∧
      (∃ e ∈ t.stays, e.2.launch = l ∧ e.2.core = some k) ∧
      Tbl.find? t.launches l = some { y with nextCrew := y.nextCrew + 1 } ∧ t.lastContext = y.ctx ∧
      t.strands = s.strands ∧ t.owners = s.owners ∧ t.bundles = s.bundles ∧ (∀ pa, t.byte pa = s.byte pa)) ∧
  (∀ (s : State) (c k : Nat) (x : Crew) (y : Launch), Tbl.find? s.crews c = some x → x.core = some k → x.grove = none →
    x.ended = false →
    (x.started = true → exec (.crewStart c) s = .next s) ∧
    (x.started = false → x.records = [] → Tbl.find? s.launches x.launch = some y → (∀ n, y.origin ≠ .node n) →
      let h := s.header x.launch
      let b := s.nextBundle
      hdrExtent h 1 = 1 →
      ∃ t z, exec (.crewStart c) s = .next t ∧ t.nextBundle = b + 1 ∧ Tbl.find? t.bundles b = some z ∧ z.crew = c ∧
        z.index = x.index * 2 ^ hdrWidth h 1 ∧ z.rot = 17 * z.slot % 64 ∧ z.touched = [] ∧ z.mesh = [] ∧
        z.declared = (if hdrLease h = 0 then none else some (min (hdrLease h) (s.leaseMax (s.launchCtx x.launch)))) ∧
        Tbl.find? t.crews c = some { x with started := true, bundles := x.bundles ++ [b] } ∧
        Tbl.find? t.launches x.launch = some { y with begun := some (y.begun.getD s.writes) } ∧
        (∀ r, t.getS b r = if r = 1 then ⟨h.getD 1 0, none⟩ else .zero 64) ∧ t.acr b = 0 ∧
        (∀ i, i < hdrExtent h 0 →
          let j := strandKey b i
          (t.strand j).pc = h.getD 0 0 ∧ (t.strand j).stat = .ready ∧ (t.strand j).p = 1 ∧ (t.strand j).loops = [] ∧ (t.strand j).born = s.epoch ∧
            t.getD2 j 0 = ⟨BitVec.ofNat 64 (i + z.index * 2 ^ hdrWidth h 0), none⟩ ∧ (∀ n, 2 ≤ n → t.getV j n = .zero 32)) ∧
        (∀ o, o ≠ b → t.owner o = s.owner o) ∧ (∀ pa, t.byte pa = s.byte pa))) ∧
  (∀ (s : State) (b c : Nat) (x : Crew) (y : Bundle), s.crewOf b = some (c, x) → Tbl.find? s.bundles b = some y →
    (y.exited = false → x.bundles ≠ [] → exec (.bundleEnd b) s = .next s) ∧
    (y.exited = true → s.channelsOf b = 0 → x.bundles = [b] → x.started = true → x.ended = false → s.meshesPending c = false →
      ∃ t z, exec (.bundleEnd b) s = .next t ∧ Tbl.find? t.crews c = some z ∧ z.ended = true ∧ z.core = none ∧ z.bundles = [] ∧
        (∀ l, Tbl.find? s.launches x.launch = some l →
          Tbl.find? t.launches x.launch = some { l with endedCrews := l.endedCrews + 1 }) ∧
        t.strands = s.strands ∧ t.owners = s.owners ∧ (∀ pa, t.byte pa = s.byte pa)))

/-! #### The active set and arbitration (07 R152-R155, R159, R160, 03 R82) -/

/-- ACTIVE_SET_RECOMPUTE, LEASE_WINDOW_END, RUN_ARBITRATION and YIELD_HOLD_EXPIRY. -/
def CoresChoose : Prop :=
  (∀ (s : State) (k : Nat), ∃ t, exec (.activeSetRecompute k) s = .next t ∧ t = { s with cores := t.cores } ∧
    t.core k = { s.core k with active := (t.core k).active } ∧ (∀ j, j ≠ k → t.core j = s.core j) ∧
    (∀ e ∈ s.resident k, e.2.stopping = false → s.crewDormant e.2 = false → s.isLowest e.2 = true → e.1 ∈ (t.core k).active) ∧
    (∀ c ∈ (t.core k).active, ∃ x, (c, x) ∈ s.resident k ∧ x.stopping = false ∧ s.crewDormant x = false)) ∧
  (∀ (s : State) (b c k : Nat) (x : Bundle) (y : Crew), Tbl.find? s.bundles b = some x → s.crewOf b = some (c, y) →
    s.coreOf b = some k →
    let n := x.touched.length
    let m := s.leaseMax (s.launchCtx y.launch)
    (c ∉ s.activeSet k → exec (.leaseWindowEnd b) s = .next s) ∧
    (c ∈ s.activeSet k → ∃ t, exec (.leaseWindowEnd b) s = .next t ∧ t = { s with bundles := t.bundles, cores := t.cores } ∧
      Tbl.find? t.bundles b = some (match x.declared with
        | some _ => { x with touched := [] }
        | none => { x with touched := [], est := min (max (if x.est ≤ n then n else x.est - (x.est - n) / 4) 1) m }) ∧
      (∀ j, j ≠ b → Tbl.find? t.bundles j = Tbl.find? s.bundles j))) ∧
  (∀ (s : State) (k : Nat),
    let elig := (s.recompute k).eligible k
    ((s.core k).run ≠ none ∨ (s.core k).splitting ≠ none → exec (.runArbitration k) s = .next s) ∧
    ((s.core k).run = none → (s.core k).splitting = none →
      (elig = [] → ∃ t, exec (.runArbitration k) s = .next t ∧ (t.core k).run = none ∧ t = { s with cores := t.cores }) ∧
      (elig ≠ [] → ∃ t c r, exec (.runArbitration k) s = .next t ∧ c ∈ elig ∧ (t.core k).run = some r ∧
        r.pc = c.pc ∧ r.count = 0 ∧ (∀ i ∈ c.strands, i ∈ r.members) ∧
        (∀ i ∈ r.members, ∃ e ∈ elig, i ∈ e.strands ∧ e.pc = c.pc) ∧
        (∀ i ∈ r.members, (t.strand i).waitCount = 0 ∧ (t.strand i).stamp = none ∧ (t.strand i).held = false) ∧
        ((∃ e ∈ elig, 64 ≤ s.cohortWait e) → 64 ≤ s.cohortWait c) ∧
        ((∀ e ∈ elig, s.cohortWait e < 64) → ∀ e ∈ elig, cohortPrio s e ≤ cohortPrio s c) ∧
        (∀ j, j ≠ k → t.core j = s.core j) ∧ OnlyArbitration s t))) ∧
  (∀ (s : State) (k : Nat), ∃ t, exec (.yieldHoldExpiry k) s = .next t ∧
    (∀ c ∈ s.cohorts k, ∀ i ∈ c.strands, (t.strand i).held = false) ∧
    (∀ i, t.strand i = { s.strand i with held := (t.strand i).held }) ∧ t = { s with strands := t.strands })

/-! #### Waits, pages and late errors (03 R74, 06 R140, 15 R260, R261, 04 R120) -/

/-- WAITT_DEADLINE, GROVE_BARRIER_DONE_MESSAGE, PAGE_BACKING, PAGE_MIGRATION and REMOTE_ATOMIC_ERROR_RESPONSE. -/
def WaitsAndPages : Prop :=
  (∀ (s : State) (o st v : Nat),
    (288 ≤ o → (s.strand (strandKey o st)).stat = .parked (.deadline v) → ∃ t, exec (.waittDeadline o st) s = .next t ∧
      t.time = max s.time v ∧ (t.strand (strandKey o st)).since ≠ 0 ∧
      t.strand (strandKey o st) = { s.strand (strandKey o st) with since := (t.strand (strandKey o st)).since } ∧
      (∀ i, i ≠ strandKey o st → t.strand i = s.strand i) ∧ t = { s with time := t.time, strands := t.strands }) ∧
    (∀ x, o < 288 → (s.tile o).stream = some x → x.wait = some (.deadline v) →
      exec (.waittDeadline o st) s = .next { s with time := max s.time v })) ∧
  (∀ (s : State) (g n : Nat) (second : Bool) (x : Grove), Tbl.find? s.groves g = some x →
    (s.doneDue g n second = false → exec (.groveBarrierDoneMessage g n second) s = .next s) ∧
    (s.doneDue g n second = true → ∃ t y, exec (.groveBarrierDoneMessage g n second) s = .next t ∧
      Tbl.find? t.groves g = some y ∧ t = { s with groves := t.groves } ∧
      (let b := x.bar second n
       let here := s.groveLive g second
       y.bar second n = (if b.done = true ∨ b.arrivals = here then ⟨0, false, false, (b.gen + 1) % 2 ^ 32⟩
         else { b with heard := true })) ∧
      (∀ m, m ≠ n → y.bar second m = x.bar second m) ∧ (∀ m, y.bar (!second) m = x.bar (!second) m))) ∧
  (∀ (s : State) (c : Nat) (va : BitVec 64),
    ((∀ e a b l, s.walk c va.toNat ≠ .reserved e a b l) → exec (.pageBacking c va) s = .next s) ∧
    ((∀ e a b l, s.walk c va.toNat ≠ .inHost e a b l) → exec (.pageMigration c va) s = .next s) ∧
    (∀ e (a b : Dword), s.walk c va.toNat = .inHost e a b false → a.getLsbD 7 = true → exec (.pageMigration c va) s = .next s) ∧
    (∀ e (a b : Dword) f rest, s.smallPool.frames = f :: rest → s.smallPool.threshold ≤ rest.length → a.getLsbD 56 = false →
      (s.walk c va.toNat = .reserved e a b false → ∃ t, exec (.pageBacking c va) s = .next t ∧ t.smallPool.frames = rest ∧
        (∀ pa, t.byte pa = if e ≤ pa ∧ pa < e + 8 then BitVec.ofNat 8 ((backedE0 a f).toNat / 256 ^ (pa - e))
          else if f * 65536 ≤ pa ∧ pa < f * 65536 + 65536 then 0 else s.byte pa)) ∧
      (s.walk c va.toNat = .inHost e a b false → a.getLsbD 7 = false → heldAt a ≠ f * 65536 → ∃ t, exec (.pageMigration c va) s = .next t ∧ t.smallPool.frames = rest ∧
        (Memory.wf s.mem → ∀ pa, t.byte pa = if e ≤ pa ∧ pa < e + 8 then BitVec.ofNat 8 ((backedE0 a f).toNat / 256 ^ (pa - e))
          else if f * 65536 ≤ pa ∧ pa < f * 65536 + 65536 then s.byte (heldAt a + (pa - f * 65536)) else s.byte pa)))) ∧
  (∀ (s : State) (b st : Nat) (d : BitVec 6) (addr : BitVec 64),
    (s.strandLive b st = false ∨ (d.toNat, addr) ∉ (s.strand (strandKey b st)).remote →
      exec (.remoteAtomicErrorResponse b st d addr) s = .next s) ∧
    (s.strandLive b st = true → (d.toNat, addr) ∈ (s.strand (strandKey b st)).remote → ∃ t k, exec (.remoteAtomicErrorResponse b st d addr) s = .next t ∧
      t.getV (strandKey b st) d.toNat = ⟨0, some k⟩ ∧
      t.originAt b k = ⟨0x39, addr, false, 0, BitVec.ofNat 8 st⟩ ∧
      (∀ i n, ¬(i = strandKey b st ∧ n = d.toNat) → t.getV i n = s.getV i n) ∧
      (∃ x, t.errLog.getLast? = some x ∧ x.event.kind = 5 ∧ x.event.addr = addr.toNat) ∧ (∀ pa, t.byte pa = s.byte pa)))

end Sys2Proof.Claims

/-- Launches and their completion (07 R145-R148, R161, 25 R376, R377): the hub takes an entry's header, writes its refusal code to the
slot or an event, or enters the launch with its crews still to place; a launch whose work is over writes status 0x80; a batch
that has waited its timeout is taken whole. The crews (06 R122, R127, R128, 07 R158): a placed crew has its core and the core's
next start sequence; at its start its bundle's strands stand at ENTRY with their identifiers in d0 and ARG in s1; it ends with its last
bundle. -/
def Obligations.LaunchesAndCrews : Prop := LaunchesMove ∧ CrewsMove

/-- What a core runs (07 R152-R155, R159, R160, 03 R82), and what wakes strands or changes pages beside the instructions (03 R74,
06 R140, 15 R260, R261, 04 R120): the active set holds the launch's lowest crew and no dormant one; a measured lease rises to the
lines touched or falls by a quarter of the difference; arbitration grants an eligible cohort, a promoted one first, else one of
the highest PRIO; a deadline brings device time to it; the message of a grove barrier completes a phase whose own arrivals are
in; a reserved page takes a zeroed frame and a migrated one its copy; a late error of an atomic poisons its destination. -/
def Obligations.SchedulingAndPages : Prop := CoresChoose ∧ WaitsAndPages

namespace Sys2Proof.Claims

/-- Nothing a program can read differs but where strands stand: registers, predicates, flags and memory are as they were. -/
structure ProgramKept (s t : State) : Prop where
  strands : ∀ i, t.strand i = { s.strand i with stat := (t.strand i).stat }
  owners : t.owners = s.owners
  byte : ∀ pa, t.byte pa = s.byte pa

/-- PREEMPTION_REQUEST, SAVE_COMMIT, SAVE_SLOT_DRAIN and CREW_RESTORE (14 R246-R252). -/
def CrewsSaved : Prop :=
  (∀ (s : State) (k : Nat) (cs : List Nat), (s.core k).slotBusy = true → exec (.preemptionRequest k cs) s = .next s) ∧
  (∀ (s : State) (k c : Nat) (x : Crew), (s.core k).slotBusy = false → Tbl.find? s.crews c = some x → x.core = some k →
    x.ended = false → x.stopping = false → x.grove = none → (∀ e ∈ s.resident k, hdrExcl (s.header e.2.launch) = false) →
    (s.saveRoom [c] = false → exec (.preemptionRequest k [c]) s = .next s) ∧
    (s.saveRoom [c] = true → ∃ t, exec (.preemptionRequest k [c]) s = .next t ∧ Tbl.find? t.crews c = some { x with stopping := true } ∧
      c ∈ (t.core k).evict ∧ (∀ r, (t.core k).run = some r → ∀ i ∈ r.members, strandBundle i ∉ x.bundles) ∧
      (∀ m, (s.core k).mill = some m → m.holder ∈ x.bundles → (t.core k).mill = some { m with draining := true }) ∧
      (∀ j, j ≠ k → t.core j = s.core j) ∧ (∀ d, d ≠ c → Tbl.find? t.crews d = Tbl.find? s.crews d) ∧ ProgramKept s t)) ∧
  (∀ (s : State) (c k : Nat) (x : Crew), Tbl.find? s.crews c = some x → x.core = some k →
    (s.canSave x = false → exec (.saveCommit c) s = .next s) ∧
    (s.canSave x = true → (s.core k).mill = none → ∃ t ms, exec (.saveCommit c) s = .next t ∧
      Tbl.find? t.crews c = some { x with core := none, saved := true, stopping := false, meshes := x.meshes ++ ms } ∧
      (t.core k).slotBusy = true ∧ c ∉ (t.core k).evict ∧ (t.core k).victims = [] ∧ (∀ j, j ≠ k → t.core j = s.core j) ∧
      (∀ d, d ≠ c → Tbl.find? t.crews d = Tbl.find? s.crews d) ∧ t.bundles = s.bundles ∧ ProgramKept s t)) ∧
  (∀ (s : State) (k : Nat), ∃ t, exec (.saveSlotDrain k) s = .next t ∧ t = { s with cores := t.cores } ∧
    t.core k = { s.core k with slotBusy := (t.core k).slotBusy } ∧
    ((s.core k).evict = [] → (t.core k).slotBusy = false) ∧ (∀ j, j ≠ k → t.core j = s.core j)) ∧
  (∀ (s : State) (c : Nat), s.nextUnit = none → exec (.crewRestore c) s = .next s) ∧
  (∀ (s : State) (l c k b : Nat) (x : Crew) (y : Bundle), s.nextUnit = some (⟨l, [], [c]⟩, [k]) → Tbl.find? s.crews c = some x →
    x.heldSignals = [] → x.bundles = [b] → Tbl.find? s.bundles b = some y →
    ∃ t n, exec (.crewRestore c) s = .next t ∧ Tbl.find? t.crews c = some { x with core := some k, saved := false, meshes := [] } ∧
      Tbl.find? t.bundles b = some { y with slot := n } ∧ (∀ j, j ≠ b → Tbl.find? t.bundles j = Tbl.find? s.bundles j) ∧
      (∀ d, d ≠ c → Tbl.find? t.crews d = Tbl.find? s.crews d) ∧ ProgramKept s t)

/-- TILE_PREEMPTION_SAVE, TILE_SET_PLACEMENT, TASK_SEQUENCER_PART_START and LOOP_RECORD_DONE_SIGNAL (14 R253, 18 R301-R305). -/
def StreamsMove : Prop :=
  (∀ (s : State) (t : Nat) (st : Stream), (s.tile t).stream = some st →
    let x := s.tile t
    (x.preempt = false ∨ x.savePoint st = false → exec (.tilePreemptionSave t) s = .next s) ∧
    (x.preempt = true → x.savePoint st = true → x.fenceDue ≠ 0 → exec (.tilePreemptionSave t) s = .next (s.applyFences t)) ∧
    (x.preempt = true → x.savePoint st = true → x.fenceDue = 0 → ∃ u, exec (.tilePreemptionSave t) s = .next u ∧
      u.tile t = { x with preempt := false, stream := some { st with saved := true } } ∧
      (∀ j, j ≠ t → u.tile j = s.tile j) ∧ u = { s with tiles := u.tiles })) ∧
  (∀ s : State, s.tilesDue.find? s.tileDueOk = none → s.freshSets = [] → exec .tileSetPlacement s = .next s) ∧
  (∀ (s : State) (l t : Nat) (x : Launch), s.tilesDue.find? s.tileDueOk = some (.fresh l) → Tbl.find? s.launches l = some x →
    x.phase = .running → tileRec x.hdr = false → s.pickTiles x.ctx x.hdr = some [t] → (s.tile t).stream = none →
    ((s.tile t).owner = none ∨ (s.tile t).owner = some x.ctx) →
    ∃ u st, exec .tileSetPlacement s = .next u ∧ Tbl.find? u.launches l = some { x with tiles := [t] } ∧
      (u.tile t).owner = some x.ctx ∧ (u.tile t).stream = some st ∧ st.launch = l ∧ st.index = 0 ∧ st.pos = .plain ∧
      st.running = true ∧ st.halted = false ∧ st.head = some (x.hdr.getD 0 0) ∧ st.w = [] ∧ st.k = [] ∧ st.shape = 0x440 ∧
      (∀ r, u.getS t r = if r = 1 then ⟨x.hdr.getD 1 0, none⟩ else .zero 64) ∧ u.acr t = 0 ∧
      (u.tile t).map = [] ∧ (u.tile t).scratch = (s.tile t).copied ∧ (u.tile t).absent = [] ∧ (u.tile t).store = (s.tile t).store ∧
      (∀ j, j ≠ t → u.tile j = s.tile j ∧ u.owner j = s.owner j) ∧ (∀ pa, u.byte pa = s.byte pa)) ∧
  (∀ (s : State) (l t : Nat) (st : Stream), s.tilesDue.find? s.tileDueOk = some (.saved l t) → (s.tile t).stream = some st →
    ∃ u, exec .tileSetPlacement s = .next u ∧ u.tile t = { s.tile t with stream := some { st with saved := false } } ∧
      (∀ j, j ≠ t → u.tile j = s.tile j) ∧ u = { s with tiles := u.tiles, lastContext := s.launchCtx l }) ∧
  (∀ (s : State) (t : Nat) (st : Stream), (s.tile t).stream = some st →
    let x := s.tile t
    (x.settled st = false → exec (.taskSequencerPartStart t) s = .next s ∧ exec (.loopRecordDoneSignal t) s = .next s) ∧
    (x.settled st = true → x.fenceDue ≠ 0 → st.pos ≠ .plain → st.atPoint = true →
      exec (.taskSequencerPartStart t) s = .next (s.applyFences t)) ∧
    (x.settled st = true → x.fenceDue = 0 →
      (∀ r rc part n p k entry m, st.pos = .chain r rc part n → rc ≠ [] → nextPart rc part n = some (p, k, entry, m) →
        exec (.loopRecordDoneSignal t) s = .next s ∧
        (x.preempt = true → exec (.taskSequencerPartStart t) s = .next s) ∧
        (x.preempt = false → ∃ u y, exec (.taskSequencerPartStart t) s = .next u ∧ (u.tile t).stream = some y ∧
          y = { st with pos := y.pos, running := y.running, head := y.head, target := none, exq := [], acq := [], loops := [],
                        rotDue := 0, runCount := 0, shapeNext := none, flying := [], cycle := 0, wait := none, parked := [], restarts := 0,
                        check := y.check } ∧
          y.pos = .chain r rc p k ∧ y.running = true ∧ y.head = some entry ∧ y.check = ⟨entry, [], st.shape, s.acr t, st.pairIssued, y.pos⟩ ∧
          u.getS t 1 = ⟨recArg rc, none⟩ ∧ u.getS t 2 = ⟨BitVec.ofNat 64 m, none⟩ ∧
          (∀ o r, ¬(o = t ∧ (r = 1 ∨ r = 2)) → u.getS o r = s.getS o r) ∧ (∀ j, j ≠ t → u.tile j = s.tile j) ∧
          (∀ pa, u.byte pa = s.byte pa))) ∧
      (∀ r rc part n, st.pos = .chain r rc part n → rc ≠ [] → nextPart rc part n = none → s.channelsOf t = 0 →
        recDoneB rc = 0xFFFF → recNext rc ≠ 0 →
        exec (.loopRecordDoneSignal t) s =
          .next (s.setStream t (fun (y : Stream) => { y with pos := .chain (recNext rc) [] 3 0 }))) ∧
      (∀ r part n pa p, st.pos = .chain r [] part n → r ≠ 0 → x.preempt = false → s.cur.ctx = s.tileCtx t →
        Reach s r 64 64 false true pa p → s.isMarked pa 64 = false →
        let rc := (List.range 8).map (fun i => s.readDword (pa + 8 * i))
        (recordSound rc = true → s.launchBeadOk (s.tileCtx t) (recDoneB rc) = true →
          exec (.taskSequencerPartStart t) s = .next (s.runRecord t r rc 0 0)) ∧
        (recordSound rc = false → exec (.taskSequencerPartStart t) s = .next (s.trapTile t 0x0A r r))) ∧
      ((∃ part n, st.pos = .chain 0 [] part n) ∨ (st.pos = .plain ∧ s.channelsOf t = 0) →
        ∃ u, exec (.taskSequencerPartStart t) s = .next u ∧ (u.tile t).stream = none ∧ (u.tile t).scratch = x.scratch ∧
          (u.tile t).store = x.store ∧ (u.tile t).owner = x.owner ∧
          (∀ l, Tbl.find? s.launches st.launch = some l →
            Tbl.find? u.launches st.launch = some { l with endedTiles := l.endedTiles ++ [t] }) ∧
          u.owners = s.owners ∧ (∀ pa, u.byte pa = s.byte pa))))

end Sys2Proof.Claims

/-- Saving and restoring crews (14 R246-R252): a request stops its victims and their mills drain; a stopped crew that can be saved leaves
its core with every register, predicate, flag and status word as it stood, and the slot is busy until it has drained; restored,
it stands on its new core with the same. Streams (14 R253, 18 R301-R305): one that a request names is saved at a point between
parts; a tile set is given its tiles and starts at ENTRY with ARG in s1; the sequencer reads a sound record, starts each part with
s1 = the argument and s2 = the count, and goes on to the next record. -/
def Obligations.SavingAndStreams : Prop := CrewsSaved ∧ StreamsMove

namespace Sys2Proof.Claims

/-- The package runs and no command is under way (25 R380). -/
def CanCommand (s : State) : Prop := s.boot = .running ∧ s.command = .idle

/-- The command completes with a result, and progress advances. -/
def Finishes (s t : State) (r : Nat) : Prop := t.command = .idle ∧ t.cresult = r ∧ t.chead = s.chead + 1

/-- Context c becomes x, and the rest of the state is as it was. -/
def CtxIs (s t : State) (c : Nat) (x : Context) : Prop :=
  t.ctx c = x ∧ (∀ e, e ≠ c → t.ctx e = s.ctx e) ∧ t = { s with ctxs := t.ctxs }

/-- The commands of the ring, each at some operands. -/
noncomputable def commands (c n d st : Nat) (v w : BitVec 64) (b : Bool) (l : List Nat) (h : Option Nat) : List Instr :=
  [.createContext c v, .endContext c, .shootDown c v w, .addPoolFrames b l n, .dieBeadAllocate c n, .dieBeadFree c n,
   .linkStreamAllocate c d st, .linkStreamFree c d st, .debugRetry n st, .debugSkip n st, .debugAbort n, .writeMtcfg n v,
   .installNodeTable c v n, .installRecordPool c v n st, .hostCopyToDevice c n w st h, .hostCopyToHost c n w st h]

/-- Memory and registers as the host reaches them: what a write of BAR0 leaves, what a load of it then reads, and that neither has
an effect before the package has booted (25 R374-R378, R386, 26 R390). -/
def HostRegisters : Prop :=
  (∀ (s : State) (m : Bool) (pa : Nat) (bs : List Byte),
    (bs = [] → exec (.hostMemoryAccess m pa bs) s = .next s) ∧
    (bs ≠ [] → paExists pa = false ∨ paExists (pa + bs.length - 1) = false →
      exec (.hostMemoryAccess m pa bs) s = .fault (.noMemory pa)) ∧
    (bs ≠ [] → paExists pa = true → paExists (pa + bs.length - 1) = true → s.boot ≠ .running →
      exec (.hostMemoryAccess m pa bs) s = .next s) ∧
    (bs ≠ [] → paExists pa = true → paExists (pa + bs.length - 1) = true → s.boot = .running →
      exec (.hostMemoryAccess false pa bs) s = .next { s with hostData := (List.range bs.length).map (fun i => s.byte (pa + i)) } ∧
      ∃ t, exec (.hostMemoryAccess true pa bs) s = .next t ∧
        (∀ a, t.byte a = if pa ≤ a ∧ a < pa + bs.length then bs.getD (a - pa) 0 else s.byte a) ∧
        t = { s with mem := t.mem, marked := t.marked, stale := t.stale, oldMaps := t.oldMaps, epoch := t.epoch,
                     writes := t.writes })) ∧
  (∀ (s : State) (c q : Nat) (v : BitVec 64),
    (s.boot ≠ .running → ∀ i ∈ [Instr.qtailWrite c q v, .qctlWrite c q v, .mbxHostWrite c q v, .govdeadWrite c q v, .evheadWrite c v,
      .tsetWrite v, .hostRegisterWrite c v], exec i s = .next s) ∧
    (s.boot = .running → c < 512 → q < 8 →
      let x := s.launchQueue c q
      let n := x.size
      (n = 0 ∨ (s.ctx c).live = false → ∃ t, exec (.qtailWrite c q v) s = .next t ∧ t.launchQueue c q = { x with qtail := v.toNat } ∧
        (∀ e, e ≠ c → t.ctx e = s.ctx e) ∧ t = { s with ctxs := t.ctxs }) ∧
      (n ≠ 0 → (s.ctx c).live = true → ∃ t, exec (.qtailWrite c q v) s = .next t ∧
        (let m := (v.toNat % n + n - x.qtail % n) % n
         (t.launchQueue c q).entries =
           x.entries ++ (List.range m).map (fun j => ⟨true, (x.qtail + j) % n, (s.ctx c).nextSeq + j⟩) ∧
         (t.ctx c).nextSeq = (s.ctx c).nextSeq + m) ∧
        (t.launchQueue c q).qtail % n = v.toNat % n ∧ (t.launchQueue c q).qhead = x.qhead ∧
        (∀ e, e ≠ c → t.ctx e = s.ctx e) ∧ t = { s with ctxs := t.ctxs }) ∧
      (let y : LaunchQueue := { x with qctl := v &&& 0xF }
       ∃ t, exec (.qctlWrite c q v) s = .next t ∧ CtxIs s t c { s.ctx c with queues := (t.ctx c).queues } ∧
         t.launchQueue c q = if n = 0 ∧ y.size ≠ 0 then
           { y with qtail := x.qtail % y.size, qhead := x.qtail % y.size, devTail := x.qtail % y.size, devHead := x.qtail % y.size,
                    entries := [] }
           else y) ∧
      (∃ t, exec (.mbxHostWrite c q v) s = .next t ∧ CtxIs s t c { s.ctx c with mbx := (t.ctx c).mbx } ∧
        ∀ k, Tbl.getD (t.ctx c).mbx k 0 = if k = q then v else Tbl.getD (s.ctx c).mbx k 0) ∧
      (∃ t, exec (.govdeadWrite c q v) s = .next t ∧ CtxIs s t c { s.ctx c with gov := (t.ctx c).gov } ∧
        ∀ k, t.govStream c k = if k = q then { s.govStream c q with deadline := v } else s.govStream c k) ∧
      ((s.ctx c).ring.held = [] → ∃ t, exec (.evheadWrite c v) s = .next t ∧
        CtxIs s t c { s.ctx c with ring := { (s.ctx c).ring with head := v.toNat } }) ∧
      (∀ e, (s.ctx c).ring.held = [e] →
        let r := { (s.ctx c).ring with head := v.toNat }
        r.isFull = false → ∃ t, exec (.evheadWrite c v) s = .next t ∧
          (t.ctx c).ring = { r with tail := (r.tail + 1) % r.size, held := [] } ∧ t.mem = (s.ringWrite r e).mem)) ∧
    (s.boot = .running →
      (v.toNat < s.time → exec (.tsetWrite v) s = .next s) ∧
      (s.time ≤ v.toNat → ∃ t, exec (.tsetWrite v) s = .next t ∧ t.time = v.toNat ∧
        (∀ i, t.strand i = { s.strand i with since := (t.strand i).since }) ∧ t = { s with time := t.time, strands := t.strands }))) ∧
  (∀ (s : State) (c q : Nat) (v : BitVec 64), s.boot = .running → c < 512 → q < 8 →
    let page := 0x10000 + 0x1000 * c
    exec (.hostRegisterWrite (page + 0xC0 + 8 * q) v) s = exec (.qtailWrite c q v) s ∧
    exec (.hostRegisterWrite (page + 0x48 + 16 * q) v) s = exec (.qctlWrite c q v) s ∧
    exec (.hostRegisterWrite (page + 0x180 + 8 * q) v) s = exec (.mbxHostWrite c q v) s ∧
    exec (.hostRegisterWrite (page + 0x300 + 8 * q) v) s = exec (.govdeadWrite c q v) s ∧
    exec (.hostRegisterWrite (page + 0x210) v) s = exec (.evheadWrite c v) s ∧
    exec (.hostRegisterWrite 0x80 v) s = exec (.tsetWrite v) s ∧
    exec (.hostRegisterWrite 0x40 v) s = .next { s with ctail := v.toNat } ∧
    (∀ ofs, ofs % 8 ≠ 0 → exec (.hostRegisterWrite ofs v) s = .next s) ∧
    ((s.ctx c).live = true → exec (.hostRegisterWrite page v) s = .next s) ∧
    (∀ e ∈ [(0x220, { s.ctx c with hwbase := v &&& ~~~0xFFF#64 }), (0x228, { s.ctx c with hwsize := v &&& ~~~0xFFF#64 }),
            (0x400, { s.ctx c with dbgctl := v &&& 0xF })],
      ∃ t, exec (.hostRegisterWrite (page + e.1) v) s = .next t ∧ CtxIs s t c e.2) ∧
    (v &&& 0x1FFF ≠ 0 → ∃ t, exec (.hostRegisterWrite (page + 0x230) v) s = .next t ∧
      CtxIs s t c { s.ctx c with leasemax := v &&& 0x1FFF }) ∧
    (∃ t, exec (.hostRegisterWrite (page + 0x180 + 8 * q) v) s = .next t ∧ t.registerAt (page + 0x180 + 8 * q) = v) ∧
    (∃ t, exec (.hostRegisterWrite (page + 0x300 + 8 * q) v) s = .next t ∧ t.registerAt (page + 0x300 + 8 * q) = v) ∧
    (∃ t, exec (.hostRegisterWrite (page + 0x400) v) s = .next t ∧ t.registerAt (page + 0x400) = v &&& 0xF) ∧
    ((s.ctx c).live = false → ∃ t, exec (.hostRegisterWrite page v) s = .next t ∧ t.registerAt page = v) ∧
    exec (.hostRegisterWrite (page + 0x218) v) s = .next s ∧ exec (.hostRegisterWrite (page + 0x100 + 8 * q) v) s = .next s) ∧
  (∀ (s : State) (ofs : Nat), s.boot ≠ .running → s.registerAt ofs = 0)

/-- Contexts, shoot-downs, pools, beads, streams and test control (14 R245, 15 R260, R263, 25 R380). -/
def HostContexts : Prop :=
  (∀ (s : State) (c n d st : Nat) (v w : BitVec 64) (b : Bool) (l : List Nat) (h : Option Nat),
    s.boot ≠ .running ∨ s.command ≠ .idle → ∀ i ∈ commands c n d st v w b l h, exec i s = .next s) ∧
  (∀ (s : State) (c : Nat) (v : BitVec 64), CanCommand s →
    (c < 512 → (s.ctx c).live = false → v.toNat % 16384 = 0 → ∃ t, exec (.createContext c v) s = .next t ∧ Finishes s t 0 ∧
      (t.ctx c).live = true ∧ (t.ctx c).root = v ∧ (t.ctx c).nextSeq = 1 ∧ (t.ctx c).nodes = [] ∧ (t.ctx c).poolCount = 0 ∧
      (∀ e, e ≠ c → t.ctx e = s.ctx e)) ∧
    (512 ≤ c ∨ (s.ctx c).live = true ∨ v.toNat % 16384 ≠ 0 → exec (.createContext c v) s = .next (s.finishCommand 1)) ∧
    (c < 512 → (s.ctx c).live = true → ∃ t, exec (.endContext c) s = .next t ∧ Finishes s t 0 ∧ (t.ctx c).live = false ∧
      (∀ l x, Tbl.find? s.launches l = some x → x.ctx = c → x.phase = .running ∨ x.phase = .waiting →
        Tbl.find? t.launches l = some { x with phase := .aborted, frags := [] }) ∧
      (∀ k, (s.tile k).owner = some c → (t.tile k).owner = none ∧ (t.tile k).stream = none ∧ (t.tile k).scratch = []) ∧
      (∀ e ∈ t.copies, e.2.ctx ≠ c)) ∧
    (512 ≤ c ∨ (s.ctx c).live = false → exec (.endContext c) s = .next (s.finishCommand 1))) ∧
  (∀ (s : State) (c : Nat) (va len : BitVec 64), CanCommand s →
    (c < 512 → (s.ctx c).live = true → exec (.shootDown c va len) s =
      .next { s with command := .shootDown, shoot := some (c, va.toNat, len.toNat, shootUnits) }) ∧
    (512 ≤ c ∨ (s.ctx c).live = false → exec (.shootDown c va len) s = .next (s.finishCommand 1))) ∧
  (∀ (s : State) (u : Nat), (s.shoot = none → exec (.shootDownAcknowledge u) s = .next s) ∧
    (∀ c va len us, s.shoot = some (c, va, len, us) →
      ((∀ k ∈ us, k = u) → exec (.shootDownAcknowledge u) s =
        .next ({ s with shoot := none, oldMaps := s.droppedMaps shootAll c va len }.finishCommand 0)) ∧
      ((∃ k ∈ us, k ≠ u) → exec (.shootDownAcknowledge u) s =
        .next { s with shoot := some (c, va, len, us.filter (fun k => k != u)),
                       oldMaps := if u ∈ us then s.droppedMaps u c va len else s.oldMaps }))) ∧
  (∀ (s : State) (fs : List Nat) (n : Nat), CanCommand s →
    ((∀ f ∈ fs, (f + 1) * 65536 ≤ 576 * 2 ^ 30) →
      exec (.addPoolFrames false fs n) s = .next ({ s with smallPool := ⟨s.smallPool.frames ++ fs, n⟩ }.finishCommand 0)) ∧
    ((∀ f ∈ fs, f % 512 = 0 ∧ (f + 512) * 65536 ≤ 576 * 2 ^ 30) →
      exec (.addPoolFrames true fs n) s = .next ({ s with largePool := ⟨s.largePool.frames ++ fs, n⟩ }.finishCommand 0))) ∧
  (∀ (s : State) (c n p st t : Nat) (v : BitVec 64), CanCommand s →
    (c < 512 → n / 8192 < 7 → n % 8192 < 0x400 → Tbl.find? s.dieBeadOwner n = none →
      exec (.dieBeadAllocate c n) s = .next ({ s with dieBeadOwner := Tbl.insert s.dieBeadOwner n c }.finishCommand 0)) ∧
    (Tbl.find? s.dieBeadOwner n ≠ none → exec (.dieBeadAllocate c n) s = .next (s.finishCommand 1)) ∧
    (Tbl.find? s.dieBeadOwner n = some c → s.dieBeadBusy n = false →
      exec (.dieBeadFree c n) s = .next ({ s with dieBeadOwner := Tbl.erase s.dieBeadOwner n }.finishCommand 0)) ∧
    (Tbl.find? s.dieBeadOwner n ≠ some c ∨ s.dieBeadBusy n = true → exec (.dieBeadFree c n) s = .next (s.finishCommand 1)) ∧
    (c < 512 → p < 12 → st < 65536 → s.linkStream p st = none → ∃ u, exec (.linkStreamAllocate c p st) s = .next u ∧
      Finishes s u 0 ∧ u.linkStream p st = some ⟨c, 0, 0, [], [], 0, 0, 0, 0, []⟩) ∧
    (∀ x, s.linkStream p st = some x → x.ctx = c → s.streamBusy p st = false → ∃ u, exec (.linkStreamFree c p st) s = .next u ∧
      Finishes s u 0 ∧ u.linkStream p st = none) ∧
    (∀ x, s.linkStream p st = some x → x.ctx ≠ c → exec (.linkStreamFree c p st) s = .next (s.finishCommand 1)) ∧
    (t < 288 → ∃ u, exec (.writeMtcfg t v) s = .next u ∧ Finishes s u 0 ∧ u.tile t = { s.tile t with mtcfg := v &&& 0x1FFFF } ∧
      ∀ j, j ≠ t → u.tile j = s.tile j))

/-- Debugging, resets and power-off of a die, host copies, node tables and record pools (14 R239, 23 R363, R364, 25 R380, R381). -/
def HostWork : Prop :=
  (∀ (s : State) (o st : Nat), CanCommand s → 288 ≤ o → st < 64 →
    let i := strandKey o st
    let x := s.strand i
    (x.stat = .halted → (∀ l, s.launchOf o = some l → s.recordWaits l = false) →
      (∃ t, exec (.debugRetry o st) s = .next t ∧ Finishes s t 0 ∧
        t.strand i = { x with stat := .ready, since := 0, waitCount := 0, stamp := none } ∧
        (∀ j, j ≠ i → t.strand j = s.strand j) ∧ (∀ p, t.owner p = { s.owner p with dbgstat := (t.owner p).dbgstat }) ∧
        (∀ pa, t.byte pa = s.byte pa)) ∧
      (∀ a, s.afterTrapped (s.ownerCtx o) x.trapCause.toNat x.bpSkip x.pc = some a →
        ∃ t, exec (.debugSkip o st) s = .next t ∧ Finishes s t 0 ∧
          t.strand i = { x with stat := .ready, pc := a, since := 0, waitCount := 0, stamp := none, bpSkip := none } ∧
          (∀ j, j ≠ i → t.strand j = s.strand j)) ∧
      (x.trapCause ≠ 0x0F → x.trapCause ≠ 0x10 →
        exec (.debugSkip o st) s = .next (s.finishCommand 1))) ∧
    ((∃ l, s.launchOf o = some l ∧ s.recordWaits l = true) → exec (.debugRetry o st) s = .next (s.finishCommand 1) ∧
      exec (.debugSkip o st) s = .next (s.finishCommand 1)) ∧
    (x.isHalted = false → exec (.debugRetry o st) s = .next (s.finishCommand 1) ∧
      exec (.debugSkip o st) s = .next (s.finishCommand 1)) ∧
    (∀ l y, s.debugHalted o 64 = true → s.launchOf o = some l → Tbl.find? s.launches l = some y → ∃ t z,
      exec (.debugAbort o) s = .next t ∧ Finishes s t 0 ∧ Tbl.find? t.launches l = some z ∧ z.phase = .aborted)) ∧
  (∀ (s : State) (t : Nat) (st : Stream), CanCommand s → t < 288 → (s.tile t).stream = some st → st.halted = true →
    st.running = true → (∀ l, s.launchOf t = some l → s.recordWaits l = false) → ∃ u y, exec (.debugRetry t 0) s = .next u ∧ Finishes s u 0 ∧ (u.tile t).stream = some y ∧
      y.halted = false ∧ y.head = some st.check.pc ∧ y.loops = st.check.loops ∧ y.restarts = st.restarts) ∧
  (∀ (s : State) (d lim : Nat), CanCommand s →
    (6 ≤ d ∨ s.die d ≠ .running → exec (.computeReset d lim) s = .next (s.finishCommand 1) ∧
      exec (.powerOff d) s = .next (s.finishCommand 1)) ∧
    (d < 6 → s.die d = .running →
      (s.dieQuiet d = true → ∃ t, exec (.computeReset d lim) s = .next t ∧ Finishes s t 0 ∧ t.die d = .running ∧
        (∀ k, d < 3 → k / 48 = d → (t.core k).run = none ∧ (t.core k).mill = none ∧ (t.core k).granules = 0) ∧
        (∀ k ∈ dieTiles d, (s.tile k).stream = none → (t.tile k).scratch = [] ∧ (t.tile k).store = [] ∧ (t.tile k).owner = none) ∧
        (∀ k ∈ dieTiles d, (s.tile k).stream ≠ none → (t.tile k).scratch = (s.tile k).scratch ∧
          (t.tile k).stream = (s.tile k).stream)) ∧
      (s.dieQuiet d = false → ∃ t, exec (.computeReset d lim) s = .next t ∧ t.command = .dieReset d false ∧
        t.die d = .resetting (some (s.time + lim)) ∧
        (∀ k ∈ dieTiles d, ∀ st, (s.tile k).stream = some st → st.saved = false → (t.tile k).preempt = true)) ∧
      ((s.ctxs.all (fun e => !(e.2.live && s.backedOn d e.1))) = true → (∀ e ∈ s.dieBeadOwner, e.1 / 8192 ≠ d) →
        s.dieQuiet d = true → ∃ t, exec (.powerOff d) s = .next t ∧ Finishes s t 0 ∧ t.die d = .off) ∧
      ((∃ e ∈ s.dieBeadOwner, e.1 / 8192 = d) → exec (.powerOff d) s = .next (s.finishCommand 1)))) ∧
  (∀ (s : State) (d : Nat),
    ((∀ v, s.die d ≠ .resetting (some v)) → exec (.dieResetTimeLimit d) s = .next s) ∧
    (∀ v, s.die d = .resetting (some v) → ∃ t, exec (.dieResetTimeLimit d) s = .next t ∧ t.time = max s.time v ∧
      ∀ k ∈ dieTiles d, ∀ st, (s.tile k).stream = some st → st.saved = false → (t.ctx (s.launchCtx st.launch)).live = false)) ∧
  (∀ (s : State) (c host len : Nat) (v : BitVec 64), CanCommand s → c < 512 → (s.ctx c).live = true → v.toNat < 2 ^ 60 →
    len % 16 = 0 → host % 16 = 0 → v.toNat % 16 = 0 → host + len ≤ 2 ^ 51 → s.channelsOn (24 + c % 8) < 64 →
    let u := { s with command := .hostCopy s.nextCopy }
    let copy (p : CopyPart) : Copy :=
      { issuer := none, ctx := c, launch := none, kind := .plain, parts := [p], units := len / 16, done := [], tokens := [],
        bead := none, hostBead := none, cleared := [], skidder := 24 + c % 8, carry := false }
    exec (.hostCopyToDevice c host v len none) s = .next (u.issueCopy (copy ⟨.global c, v, .window 0, BitVec.ofNat 64 host, len⟩)) ∧
    exec (.hostCopyToHost c host v len none) s = .next (u.issueCopy (copy ⟨.window 0, BitVec.ofNat 64 host, .global c, v, len⟩))) ∧
  (∀ (s : State) (c n pa pb : Nat) (v : BitVec 64) (p q : PageInfo), CanCommand s → c < 512 → (s.ctx c).live = true →
    (s.liveLaunch c = true → exec (.installNodeTable c v n) s = .next (s.finishCommand 0x20)) ∧
    (s.liveLaunch c = false →
      (n = 0 ∨ 256 < n ∨ v.toNat % 8 ≠ 0 → exec (.installNodeTable c v n) s = .next (s.finishCommand 0x21)) ∧
      (s.cur.ctx = c → Reach s v 8 8 false true pa p → Reach s (s.readDword pa) 64 64 false true pb q → s.readDword pa ≠ 0 →
        (s.readDword pa).toNat % 64 = 0 → s.headerWaits c (s.headerAt pb) true = false →
        let code := s.headerCode c (s.headerAt pb) true
        (code ≠ 0 → exec (.installNodeTable c v 1) s = .next (s.finishCommand code)) ∧
        (code = 0 → hdrPlan (s.headerAt pb) = 0 → ∃ t, exec (.installNodeTable c v 1) s = .next t ∧ Finishes s t 0 ∧ (t.ctx c).nodeCount = 1 ∧
          Tbl.find? (t.ctx c).nodes 0 = some ⟨s.headerAt pb, [], false, false⟩)))) ∧
  (∀ (s : State) (c n m : Nat) (v : BitVec 64), CanCommand s → c < 512 → (s.ctx c).live = true →
    (s.liveLaunch c = true → exec (.installRecordPool c v n m) s = .next (s.finishCommand 0x20)) ∧
    (s.liveLaunch c = false →
      (v.toNat % 64 ≠ 0 ∨ n % 8 ≠ 0 ∨ n < 8 ∨ 4096 < n ∨ m = 0 ∨ 65536 < m →
        exec (.installRecordPool c v n m) s = .next (s.finishCommand 0x21)) ∧
      (v.toNat % 64 = 0 → n % 8 = 0 → 8 ≤ n → n ≤ 4096 → 0 < m → m ≤ 65536 →
        ((∃ e ∈ (s.ctx c).nodes, n < hdrRecSize e.2.hdr) → exec (.installRecordPool c v n m) s = .next (s.finishCommand 0x04)) ∧
        ((∀ e ∈ (s.ctx c).nodes, hdrRecSize e.2.hdr ≤ n) → s.writableRange c v.toNat (n * m) = true →
          ∃ t, exec (.installRecordPool c v n m) s = .next t ∧ Finishes s t 0 ∧
            (t.ctx c).freeSlots = (List.range m).map (fun j => v + BitVec.ofNat 64 (n * j))))))

end Sys2Proof.Claims

/-- What the host reaches (25 R374-R379, R386): memory that stands is stored to and loaded from, and elsewhere the access faults; a
doorbell publishes the entries up to it; registers are written at their offsets; held events flow when the ring has room; time is
only set forward. -/
def Obligations.HostReaches : Prop := HostRegisters

/-- The host's commands on contexts (14 R245, 15 R260, R263, 22 R351, 25 R380, R384): one is taken at a time while the package runs; a
context is created and ended, with its launches aborted and its tiles zeroed; a shoot-down waits for every unit; frames, die beads,
link streams and MTCFG change as asked. A refusal's result 1 is the model's own (log 54). -/
def Obligations.HostCommands : Prop := HostContexts

/-- Work the host directs (14 R239, 23 R363, R364, 25 R380, R381): a halted strand is retried at its pc or skips the instruction that
trapped; a die is reset once nothing runs on it and loses what its tiles held but saved images; host copies go through a skidder
of H; node tables and record pools are installed or refused with the codes of R145 and R381. -/
def Obligations.HostDirects : Prop := HostWork

namespace Sys2Proof.Claims

/-- Whether an always-on rail of a die is out of range. -/
def aonLost (s : State) (d : Nat) : Bool := s.power.badRails.contains (.vaon d)

/-- POWER_GOOD, POWER_LOSS and IMAGE_WRITE (26 R389-R391). -/
def BootMoves : Prop :=
  (∀ s : State, s.boot ≠ .off → exec .powerGood s = .next s) ∧
  (∀ s : State, s.boot = .off → aonLost s 6 = false →
    (s.flash.record = none ∨ s.flash.firmware = none → exec .powerGood s = .next { s with boot := .recovery }) ∧
    (∀ r f, s.flash.record = some r → s.flash.firmware = some f → ∃ t, exec .powerGood s = .next t ∧ t.boot = .running ∧
      t.usedRecord = some r ∧ t.usedFirmware = some f ∧
      t.power = { s.power with plim := min 3600 r.plim, rasterClock := max 2000 (min 2400 r.rasterLimit),
                               tensorClock := max 2000 (min 2400 r.tensorLimit) } ∧
      t.flash = { s.flash with cfgsvn := max s.flash.cfgsvn r.version, fwsvn := max s.flash.fwsvn f.version } ∧
      (∀ d, d < 6 → t.die d = if aonLost s d then .off else .running) ∧
      (∀ k, k < 288 → t.tile k = { s.tile k with fenced := (t.tile k).fenced }) ∧
      (∀ k m, k < 288 → (k, m) ∈ r.fenced ++ s.flash.addendum → m &&& (t.tile k).fenced = m) ∧ t.time = s.time ∧
      t.strands = s.strands ∧ (∀ pa, t.byte pa = s.byte pa))) ∧
  (∀ (f : Flash) (r : FlashImage), f.record = some r → r.verifies = true ∧ f.cfgsvn ≤ r.version ∧ (r = f.recordA ∨ r = f.recordB) ∧
    (f.recordA.verifies = true → f.cfgsvn ≤ f.recordA.version → r = f.recordA) ∧ f.counterOk = true) ∧
  (∀ (s : State) (m : Bool), ∃ t, exec (.powerLoss m) s = .next t ∧ t.boot = .off ∧ t.strands = [] ∧ t.owners = [] ∧ t.tiles = [] ∧
    t.ctxs = [] ∧ t.launches = [] ∧ t.time = 0 ∧ t.persistLog = s.persistLog ∧ t.errLog = [] ∧
    (∀ pa, t.byte pa = if isHostAddr pa then s.byte pa else 0) ∧ (m = false → t.flash = s.flash) ∧
    (s.flash.record ≠ none → t.flash.record = s.flash.record) ∧ (s.flash.firmware ≠ none → t.flash.firmware = s.flash.firmware)) ∧
  (∀ (s : State) (img : FlashImage), (s.boot = .off → exec (.imageWrite img) s = .next s) ∧
    (s.boot = .running → img.isRecord = true → img.slotB = false →
      let pass (i : FlashImage) : Prop := i.verifies = true ∧ (if s.flash.counterOk = true then s.flash.cfgsvn else 2 ^ 32 - 1) ≤ i.version
      (pass s.flash.recordA → ¬pass s.flash.recordB → exec (.imageWrite img) s = .next { s with doe := [1] }) ∧
      (pass s.flash.recordB → exec (.imageWrite img) s = .next { s with doe := [0], flash := { s.flash with
        recordA := img, addendum := if img.verifies then [] else s.flash.addendum } })) ∧
    (s.boot = .running → img.isRecord = false → img.slotB = true →
      s.flash.slotA.verifies = true → (if s.flash.counterOk = true then s.flash.fwsvn else 2 ^ 32 - 1) ≤ s.flash.slotA.version →
      exec (.imageWrite img) s = .next { s with doe := [0], flash := { s.flash with slotB := img } }))

/-- The DOE mailbox (26 R392, R393, R395, R396). -/
def MailboxAnswers : Prop :=
  (∀ (s : State) (nonce : List Byte), (s.boot = .off → exec (.attestationRequest nonce) s = .next s) ∧
    (s.boot ≠ .off → ∃ t b, exec (.attestationRequest nonce) s = .next t ∧ t = { s with doe := t.doe } ∧
      t.doe = b ++ sized 3309 (Config.signature siledAtt b) ∧ b.length = 240 ∧ b.take 32 = sized 32 nonce ∧ t.doe.length = 3549)) ∧
  (∀ s : State, s.boot ≠ .off → exec .identityCertificateRequest s = .next { s with doe := Config.certificate }) ∧
  (∀ (s : State) (k : Nat) (m : BitVec 4), s.boot ≠ .off → k < 288 → ∃ t, exec (.fenceAddendum k m) s = .next t ∧
    t.flash = { s.flash with addendum := s.flash.addendum ++ [(k, m)] } ∧
    ((s.tile k).stream ≠ none ∨ (s.tile k).slavedTo = none →
      t.tile k = (if (s.tile k).stream = none then
          { s.tile k with fenced := (s.tile k).fenced ||| ((s.tile k).fenceDue ||| m), fenceDue := 0 }
        else { s.tile k with fenceDue := (s.tile k).fenceDue ||| m }) ∧
      (∀ j, j ≠ k → t.tile j = s.tile j) ∧ t = { s with flash := t.flash, tiles := t.tiles, doe := t.doe })) ∧
  (∀ (s : State) (ofs n : Nat), s.boot ≠ .off → ∃ t, exec (.errorLogRead ofs n) s = .next t ∧ t = { s with doe := t.doe } ∧
    t.doe.length = 32 * min n (s.errLog.length - ofs) ∧
    (∀ e, s.errLog[ofs]? = some e → 0 < n → t.doe.take 8 = leBytes e.event.time 8 ∧ (t.doe.drop 8).take 8 = leBytes e.event.addr 8 ∧
      (t.doe.drop 16).take 4 = leBytes (e.count % 2 ^ 32) 4 ∧ t.doe[23]? = some (BitVec.ofNat 8 e.event.kind))) ∧
  (∀ (s : State) (c n : Nat) (v : BitVec 64), s.boot = .running → c < 512 →
    exec (.captureOn c v n) s = .next { s.setCtx c { s.ctx c with capture := some ⟨v, n, 0, true⟩ } with doe := [1] } ∧
    ∃ t, exec (.captureOff c) s = .next t ∧ (∀ b, (s.ctx c).capture = some b → (t.ctx c).capture = some { b with on := false }) ∧
      t = { s with ctxs := t.ctxs, doe := [0] })

/-- Errors (26 R394, R395). -/
def ErrorsStrike : Prop :=
  (∀ (s : State) (d l : Nat), exec (.patrolScrub d l) s = .next s) ∧
  (∀ (s : State) (e : SoftErrorAt), s.boot = .off → exec (.softError e) s = .next s) ∧
  (∀ s : State, s.boot ≠ .off →
    (∀ d c a, ∃ t x, exec (.softError (.corrected d c a)) s = .next t ∧ t.errLog.getLast? = some x ∧ x.event = ⟨s.time, a, 1, d, c, 0⟩ ∧
      t = { s with errLog := t.errLog, corrected := t.corrected, freeCtr := s.freeCtr + 1 } ∧
      x.count = min (2 ^ 32 - 1) (Tbl.getD s.corrected (65536 * d + c) 0 + 1)) ∧
    (∀ u, ∃ t x, exec (.softError (.memoryUnit u)) s = .next t ∧ u ∈ t.marked ∧ t.errLog.getLast? = some x ∧ x.event.kind = 2 ∧
      x.event.addr = 16 * u ∧ t.persistLog = s.persistLog ++ [x] ∧ (∀ pa, t.byte pa = s.byte pa)) ∧
    (∀ k ofs, ∃ t, exec (.softError (.tileScratch k ofs)) s = .next t ∧ ofs / 16 ∈ (t.tile k).marked ∧
      (t.tile k).scratch = (s.tile k).scratch) ∧
    (∀ k ofs, ∃ t, exec (.softError (.tileStore k ofs)) s = .next t ∧ ofs / 16 ∈ (t.tile k).storeMarked ∧
      (t.tile k).store = (s.tile k).store) ∧
    (∀ c x ofs, Tbl.find? s.crews c = some x → ∃ t y, exec (.softError (.rasterScratch c ofs)) s = .next t ∧
      Tbl.find? t.crews c = some y ∧ ofs / 16 ∈ y.marked ∧ y = { x with marked := y.marked }) ∧
    (∀ o r l, s.launchOf o = some l → r ≠ 0 → ∃ t k, exec (.softError (.scalarReg o r)) s = .next t ∧ t.getS o r = ⟨0, some k⟩ ∧
      (t.originAt o k).cause = 0x38 ∧ (∀ p q, ¬(p = o ∧ q = r) → t.getS p q = s.getS p q)) ∧
    (∀ i r x, Tbl.find? s.strands i = some x → x.live = true → ∃ t k, exec (.softError (.laneReg i r)) s = .next t ∧
      t.getV i r.toNat = ⟨0, some k⟩ ∧ (∀ j n, ¬(j = i ∧ n = r.toNat) → t.getV j n = s.getV j n)) ∧
    (∀ k r st, (s.tile k).stream = some st → ∃ t y g, exec (.softError (.vectorReg k r)) s = .next t ∧ (t.tile k).stream = some y ∧
      Tbl.find? y.w (st.phys r.toNat) = some ⟨0, some g⟩ ∧ y = { st with w := y.w }) ∧
    (∀ k st, (s.tile k).stream = some st → st.running = true → st.halted = false → st.restarts < 3 → ∃ t y, exec (.softError (.inFlight k)) s = .next t ∧
      (t.tile k).stream = some y ∧ y.restarts = st.restarts + 1 ∧ y.head = some st.check.pc ∧ y.flying = [] ∧ (t.tile k).mats = []) ∧
    (∀ pa, ∃ t, exec (.softError (.instructionWord pa true)) s = .next t ∧ pa / 16 ∈ t.marked) ∧
    (∀ o l x, s.launchOf o = some l → Tbl.find? s.launches l = some x → ∃ t, exec (.softError (.machineState o)) s = .next t ∧
      (t.ctx x.ctx).live = false) ∧
    (∀ b : BitVec 16, b.toNat % 8192 < 0x400 → b.toNat / 8192 < 7 → ∃ t, exec (.softError (.beadCounter b)) s = .next t ∧
      t.bead (.shared b.toNat) = { s.bead (.shared b.toNat) with bad := true }) ∧
    (∀ d ch, Tbl.find? s.channels d = some ch → exec (.softError (.channelCount d)) s = .next (s.desync d ch)))

/-- Power, rails, the test port and the discipline of time (25 R386, 27 R397-R400). -/
def PackageMoves : Prop :=
  (∀ (s : State) (w tw rw : Nat), s.boot = .running →
    (∃ t, exec (.powerManagerWindow w tw rw) s = .next t ∧ t = { s with power := t.power } ∧
      (s.power.plim < w → rw ≤ tw → 2000 < s.power.tensorClock →
        t.power = { s.power with tensorClock := max 2000 (s.power.tensorClock - 50), steps := .clock true :: s.power.steps }) ∧
      (s.power.plim < w → tw < rw → 2000 < s.power.rasterClock →
        t.power = { s.power with rasterClock := max 2000 (s.power.rasterClock - 50), steps := .clock false :: s.power.steps }) ∧
      (s.power.plim < w → s.power.rasterClock = 2000 → s.power.tensorClock = 2000 → s.power.idle < 16 →
        t.power = { s.power with idle := s.power.idle + 1, steps := .idle :: s.power.steps }) ∧
      (w ≤ s.power.plim → 20 * w < 19 * s.power.plim → s.power.steps = [] → t = s) ∧
      (∀ rest, w ≤ s.power.plim → 20 * w < 19 * s.power.plim → s.power.steps = .idle :: rest →
        t.power = { s.power with idle := s.power.idle - 1, steps := rest }) ∧
      (w ≤ s.power.plim → 19 * s.power.plim ≤ 20 * w → t = s))) ∧
  (∀ (s : State) (r : Rail),
    (r ∈ s.power.badRails → exec (.railOutOfRange r) s = .next s) ∧
    (r ∉ s.power.badRails →
      (s.boot = .off → exec (.railOutOfRange r) s = .next { s with power := { s.power with badRails := s.power.badRails ++ [r] } }) ∧
      (s.boot = .running →
        (∀ n, r = .vcore n → ∃ t, exec (.railOutOfRange r) s = .next t ∧
          (∀ k, coreIsland k = n → k < 144 → t.coreUp k = false) ∧ (∀ k, tileIsland k = n → k < 288 → t.tileUp k = false)) ∧
        (∀ d, r = .vaon d → d < 6 → ∃ t, exec (.railOutOfRange r) s = .next t ∧ t.die d = .off) ∧
        (r = .vaon 6 → ∃ t, exec (.railOutOfRange r) s = .next t ∧ t.boot = .off ∧ t.flash = s.flash) ∧
        (∀ b, r = .vio b → ∃ t, exec (.railOutOfRange r) s = .next t ∧ ∀ p, p < 12 → (t.port p).up = false))) ∧
    (∃ t, exec (.railInRange r) s = .next t ∧ t.power = { s.power with badRails := s.power.badRails.filter (fun x => x != r) } ∧
      (∀ d, r = .vaon d → d < 6 → r ∈ s.power.badRails → s.boot = .running → t.die d = .running) ∧
      t = { s with power := t.power, dies := t.dies })) ∧
  (∀ s : State, exec .bypass s = .next { s with tap := .bypass, tapData := 0 } ∧
    exec .idcode s = .next { s with tap := .idcode, tapData := Config.idcode.setWidth 64 } ∧
    (∃ v, exec .samplePreload s = .next { s with tap := .sample, tapData := v, freeCtr := s.freeCtr + 1 }) ∧
    (s.boot = .running → (∃ d, d < 6 ∧ s.die d = .running ∧ ∃ n ∈ computeIslands d, s.railsGood d n = true) → exec .extest s = .next { s with tap := .bypass, tapData := 0 }) ∧
    (s.boot ≠ .running ∨ (∀ d, d < 6 → s.die d = .inReset ∨ s.die d = .off ∨ ∀ n ∈ computeIslands d, s.railsGood d n = false) →
      ∃ v, exec .extest s = .next { s with tap := .extest, tapData := v, freeCtr := s.freeCtr + 1 })) ∧
  (∀ (s : State) (p : Nat) (a b : Int) (m : Bool),
    (s.boot ≠ .running ∨ s.ptpRole p ≠ 2 → exec (.ptpMessage p a b m) s = .next s) ∧
    (s.boot = .running → s.ptpRole p = 2 →
      (m = false ∨ s.tstatLock = true → exec (.ptpMessage p a b m) s = .next { s with tstatOffset := BitVec.ofInt 32 b }) ∧
      (m = true → s.tstatLock = false → exec (.ptpMessage p a b m) s = .next
        ({ s with tstatOffset := BitVec.ofInt 32 b, tstatLock := true }.postGlobal 0x11 [(BitVec.ofInt 32 b).setWidth 64]))) ∧
    (s.tstatLock = false → exec .timeLockLost s = .next s) ∧
    (s.tstatLock = true → exec .timeLockLost s =
      .next ({ s with tstatLock := false }.postGlobal 0x11 [s.tstatOffset.setWidth 64])))

end Sys2Proof.Claims

/-- Boot and the mailbox (26 R389-R393, R395, R396): boot takes the first record and firmware that pass, raises the counters, applies
the power limit, the clock limits and the fences, else stands in recovery; a loss of power keeps flash, one valid copy of each image, and the persistent log;
a report is signed over the nonce, the digests and the counters; fences are only added. What the spec leaves open of flash and of the
reports is the model's own (logs 14, 23, 26, 56). -/
def Obligations.BootAndMailbox : Prop := BootMoves ∧ MailboxAnswers

/-- Soft errors (26 R394, R395): a corrected one is counted and logged; an uncorrectable one marks the unit, poisons the register, restarts
the region, spoils a bead's parity or ends the context, and is logged; the patrol scrubber changes nothing. An error's address where the
spec gives none is the model's own (log 57). -/
def Obligations.SoftErrors : Prop := ErrorsStrike

/-- Power, the test port and device time's lock (25 R386, 27 R397-R400): over its limit the power manager steps the larger consumer's
clocks down by 50 MHz and not below 2,000, then adds idle shares, and under 95 percent undoes the last step; what a rail out of
range feeds does not run; EXTEST gives BYPASS while a compute island is out of reset. -/
def Obligations.PowerAndTestPort : Prop := PackageMoves

/-- State.reset (26 R389, R390, 25 R375, R386, 21 R340, 02 R37): the package is off with its compute islands held in reset and device
time 0; no context is live, and a register page holds its reset values; a tile holds the E2M1 books and MTCFG 0x10100; memory
keeps its canonical form. That memory reads as 0 is the model's choice (log 1). -/
def Obligations.ResetState : Prop :=
  State.reset.Inv ∧ State.reset.boot = .off ∧ State.reset.time = 0 ∧ (∀ d, d < 6 → State.reset.die d = .inReset) ∧
  (∀ c, (State.reset.ctx c).live = false ∧ (State.reset.ctx c).leasemax = 0x0F00 ∧ (State.reset.ctx c).dbgctl = 0 ∧
    ∀ n, State.reset.govStream c n = ⟨0, 1, 1, 0, 0, 0, []⟩) ∧
  (∀ t, (State.reset.tile t).mtcfg = 0x10100 ∧ (State.reset.tile t).fenced = 0 ∧ (State.reset.tile t).stream = none ∧
    (State.reset.tile t).bookV.length = 16 ∧ (State.reset.tile t).bookA = (State.reset.tile t).bookV ∧
    (State.reset.tile t).bookV.getD 7 0 = 0x40C0 ∧ (State.reset.tile t).bookV.getD 15 0 = 0xC0C0) ∧
  State.reset.strands = [] ∧ State.reset.launches = [] ∧ State.reset.inbox = [] ∧ ∀ pa, State.reset.byte pa = 0

/-- Every step keeps memory, and the tags of its granules, in canonical form (15 R257): equal memories are equal data. -/
def Obligations.StepKeepsInv : Prop := ∀ s t : State, s.Inv → step s = .next t → t.Inv

/-- Decode and encode agree (01 R11-R17, R24, R25): the words of every well-formed instruction of a profile, short or long, decode to
it with the words that follow left over; and words that decode are exactly the words of what they decode to. -/
def Obligations.EncodingRoundTrip : Prop :=
  (∀ (p : Profile) (it : Item) (rest : List Word), it.ok p = true → decodeWords p (encode it ++ rest) = .ok (it, rest)) ∧
  (∀ (p : Profile) (ws rest : List Word) (it : Item), decodeWords p ws = .ok (it, rest) → encode it ++ rest = ws ∧ it.ok p = true)

/-- Words written out in the spec decode to the instructions they are written for (01, 03, 04, 05, 22: the worked encodings). -/
def Obligations.DecodedWords : Prop :=
  decodeWords .raster [0x90006084] = .ok (⟨.iadd ⟨0, false⟩ 3 1 2 false, true, false, false⟩, []) ∧
  decodeWords .raster [0xD408E3AC, 0x50000002] = .ok (⟨.iaddi ⟨2, true⟩ 7 7 300, true, true, true⟩, []) ∧
  decodeWords .raster [0xC01037FB] = .ok (⟨.brac false 3 false (-5), true, true, false⟩, []) ∧
  decodeWords .tile [0xA4380000, 0x40100901] = .ok (⟨.mmaMx4 0 128 4 false 0 ⟨true, 1, 1⟩, true, false, true⟩, []) ∧
  decodeWords .raster [0xA4380000, 0x40100901] = .error .opcodeAbsent ∧
  decodeWords .raster [0x89688002] = .ok (⟨.mbx 4 0 2, true, false, false⟩, []) ∧
  decodeWords .tile [0x80300202] = .ok (⟨.loop 4 2, true, false, false⟩, []) ∧
  decodeWords .raster [0x8808C305] = .ok (⟨.addi 6 6 5, true, false, false⟩, []) ∧
  decodeWords .raster [0x90F14598] = .ok (⟨.ffmaF32 ⟨0, false⟩ 10 11 12, true, false, false⟩, []) ∧
  decodeWords .raster [0xA8108108] = .ok (⟨.ld32 ⟨0, false⟩ 4 2 false 8, true, false, false⟩, []) ∧
  decodeWords .raster [0xEC78A191, 0x01600040] = .ok (⟨.atomAdd ⟨0, false⟩ 5 3 8 true 5 2 false 0x40, true, true, true⟩, []) ∧
  decodeWords .raster [0xC0382011] = .ok (⟨.loopi 64 17, true, true, false⟩, []) ∧
  decodeWords .raster [0x80D94680] = .ok (⟨.reca 10 13, true, false, false⟩, []) ∧
  decodeWords .raster [0xAC50E2C0, 0x40000000] = .ok (⟨.st64 ⟨2, false⟩ 7 5 true 0, true, false, true⟩, []) ∧
  decodeWords .tile [0xB4680480, 0x08000000] = .ok (⟨.semSet 0 9 false ⟨2, false, false, 0, 0⟩, true, false, true⟩, []) ∧
  decodeWords .raster [0xFFFFFFFF, 0] = .error .illegalOpcode

namespace Sys2Proof.Claims

/-- Words stand as code at an address of a context, and no agent may still see older ones (01 R27, 15 R262, 08 R182). -/
def CodeAt (s : State) (c : Nat) (a : Dword) (ws : List Word) : Prop :=
  ∀ (j : Nat) (w : Word), ws[j]? = some w → s.oldWalks c (a + BitVec.ofNat 64 (4 * j)).toNat = [] ∧
    ∃ p, s.walk c (a + BitVec.ofNat 64 (4 * j)).toNat = .page p ∧ p.canExec = true ∧
    (let pa := p.pa (a + BitVec.ofNat 64 (4 * j)).toNat
     paExists pa = true ∧ s.isMarked pa 4 = false ∧ Tbl.find? s.stale pa = none ∧ BitVec.ofNat 32 (s.readLE pa 4) = w)

/-- The state an instruction of one group is handed over in: its conditions hold, and its place is named. -/
def handed (t : State) (a : Dword) (it : Item) : State :=
  { t with cur := { t.cur with cleared := true, pc := a, long := it.long }, last := none }

end Sys2Proof.Claims

/-- A step runs the decoded instruction (01 R20, R25-R27, 06 R134, 18 R292, R293). An event the outside has asked for is executed. Where a
run's members stand at words that decode to an instruction which ends its group, breaks no rule of its run, holds no breakpoint
and whose conditions hold, the step executes it and completes the group, or takes what stops it; a completed group leaves its
strands at the next address. On a tile the same holds of the access half, and of the execute half of the next group the access
processor has passed. Which agent issues is the model's own (log 2, 3). -/
def Obligations.StepRunsDecoded : Prop :=
  (∀ (s : State) (i : Instr) (rest : List Instr), s.inbox = i :: rest → step s = exec i { s with inbox := rest }) ∧
  (∀ (s : State) (is : List Nat), is.Nodup → (s.standRaster is).cur.strands.Nodup ∧ (s.standRaster is).cur.owners.Nodup ∧
    ∀ i, i ∈ (s.standRaster is).cur.strands ↔ i ∈ is) ∧
  (∀ (s t : State) (k : Nat) (r : Run) (it : Item) (ws : List Word), s.inbox = [] → s.focus = .raster k → (s.core k).run = some r →
    let s1 := ({ s with focus := .none }.standRaster r.members).heardRemote
    let a := s1.cur.gpc
    let x : Placed := ⟨a, it, ws⟩
    CodeAt s1 s1.cur.ctx a ws → decodeWords .raster ws = .ok (it, []) → it.stop = true →
    breaksRules .raster [] it r.count
      (((s1.cur.strands.map (fun i => (s1.strand i).loops.map (fun (l : Loop) => l.last))).flatten.eraseDups).contains a) = false →
    s1.breakAt x = none → convergent it.instr = false → s1.cur.strands ≠ [] → s1.allPoints [x] = (t, none) → t.cur.strands ≠ [] →
    (∀ u, exec it.instr (handed t a it) = .next u → u.last = none → step s = .next (u.commitRaster k [x])) ∧
    (∀ u y, exec it.instr (handed t a it) = .next u → u.last = some y → step s = .next (t.stopRaster k (elemInstr it.instr) y (s1.stopDetail [x] y a))) ∧
    (∀ f, exec it.instr (handed t a it) = .fault f → step s = .fault f)) ∧
  (∀ (u : State) (k i : Nat) (x : Placed), u.cur.strands.Nodup → i ∈ u.cur.strands → (u.strand i).stat = .ready →
    (u.strand i).stopDue = false →
    let v := u.commitRaster k [x]
    ((u.strand i).moved = true → v.strand i = { u.strand i with moved := false, bpSkip := none, since := 0 }) ∧
    ((u.strand i).moved = false → (∀ l ∈ (u.strand i).loops, l.last ≠ x.pc) →
      v.strand i = { u.strand i with moved := false, bpSkip := none, since := 0, pc := x.pc + (if x.item.long then 8 else 4) })) ∧
  (∀ (s v : State) (t : Nat) (st : Stream) (a : Dword) (it : Item) (ws : List Word), s.inbox = [] → s.focus = .access t →
    (s.tile t).stream = some st → st.halted = false → st.saved = false → st.acq = [] → st.head = some a →
    let s1 := { s with focus := .none }.standTile t a none
    let x : Placed := ⟨a, it, ws⟩
    CodeAt s1 s1.cur.ctx a ws → decodeWords .tile ws = .ok (it, []) → it.stop = true →
    breaksRules .tile [] it st.runCount ((st.loops.map (fun (l : Loop) => l.last)).contains a) = false →
    s1.breakIn st.bpSkip [x] = none → instrAccess it.instr = true → s1.allPoints [x] = (v, none) → v.cur.owners ≠ [] →
    ∀ u, exec it.instr (handed v a it) = .next u → u.last = none → step s = .next (u.commitAccess s1 t [x] true)) ∧
  (∀ (s : State) (t : Nat) (st : Stream) (p : PathGroup) (rest : List PathGroup) (x : Placed), s.inbox = [] → s.focus = .execute t →
    (s.tile t).stream = some st → st.halted = false → st.saved = false → st.exq = p :: rest → p.items = [x] →
    instrAccess x.item.instr = false →
    let s1 := { s with focus := .none }.beforeNext t
    let s2 := ((s1.tick t).setStream t (fun (y : Stream) => y.rotate p.rot)).standTile t p.pc p.acr
    ∀ u, exec x.item.instr (handed s2 x.pc x.item) = .next u →
      (u.last = none → step s = .next (u.commitExecute t)) ∧
      (∀ w, u.last = some (.wait w) → step s = .next { s with focus := .none }))

end Statements
end

