-- ==== Sys2Proof/Laws/Table.lean ====
section
/-! SUPPORT. Sparse tables: what a lookup finds after an insertion, a removal or a write, and that each keeps the canonical
form. The lookup laws hold of every table, sorted or not. -/

namespace Sys2Proof.Machine

variable {α : Type}

@[simp] theorem Tbl.find_nil (k : Nat) : Tbl.find? ([] : Tbl α) k = none := rfl

@[simp] theorem Tbl.getD_nil (k : Nat) (d : α) : Tbl.getD ([] : Tbl α) k d = d := rfl

theorem Tbl.find_insert (t : Tbl α) (k : Nat) (v : α) (j : Nat) :
    Tbl.find? (Tbl.insert t k v) j = if j = k then some v else Tbl.find? t j := by
  induction t with
  | nil => simp only [Tbl.insert, Tbl.find?]; split <;> simp_all [eq_comm]
  | cons e rest ih =>
    obtain ⟨i, w⟩ := e
    simp only [Tbl.insert]
    split
    · subst_vars; simp only [Tbl.find?]; split <;> simp_all [eq_comm]
    · split
      · simp only [Tbl.find?]; split <;> simp_all [eq_comm]
      · simp only [Tbl.find?, ih]; split <;> split <;> simp_all

theorem Tbl.find_erase (t : Tbl α) (k j : Nat) :
    Tbl.find? (Tbl.erase t k) j = if j = k then none else Tbl.find? t j := by
  induction t with
  | nil => simp [Tbl.erase]
  | cons e rest ih =>
    obtain ⟨i, w⟩ := e
    simp only [Tbl.erase]
    split
    · subst_vars; rw [ih]; simp only [Tbl.find?]; split <;> simp_all [eq_comm]
    · simp only [Tbl.find?, ih]; split <;> split <;> simp_all

@[simp] theorem Tbl.find_insert_self (t : Tbl α) (k : Nat) (v : α) : Tbl.find? (Tbl.insert t k v) k = some v := by
  simp [Tbl.find_insert]

theorem Tbl.find_insert_ne (t : Tbl α) {k j : Nat} (v : α) (h : j ≠ k) :
    Tbl.find? (Tbl.insert t k v) j = Tbl.find? t j := by simp [Tbl.find_insert, h]

theorem Tbl.getD_insert (t : Tbl α) (k : Nat) (v : α) (j : Nat) (d : α) :
    Tbl.getD (Tbl.insert t k v) j d = if j = k then v else Tbl.getD t j d := by
  simp only [Tbl.getD, Tbl.find_insert]; split <;> simp

theorem Tbl.getD_erase (t : Tbl α) (k j : Nat) (d : α) :
    Tbl.getD (Tbl.erase t k) j d = if j = k then d else Tbl.getD t j d := by
  simp only [Tbl.getD, Tbl.find_erase]; split <;> simp

/-- A write is what a later read gives, and leaves every other key alone. -/
theorem Tbl.getD_put [DecidableEq α] (d : α) (t : Tbl α) (k : Nat) (v : α) (j : Nat) :
    Tbl.getD (Tbl.put d t k v) j d = if j = k then v else Tbl.getD t j d := by
  unfold Tbl.put
  split
  · subst_vars; rw [Tbl.getD_erase]
  · rw [Tbl.getD_insert]

/-! ### The canonical form -/

theorem Tbl.risingFrom_mono {t : Tbl α} {lo lo' : Nat} (h : lo' ≤ lo) (ht : Tbl.risingFrom lo t = true) :
    Tbl.risingFrom lo' t = true := by
  cases t with
  | nil => rfl
  | cons e rest =>
    obtain ⟨k, v⟩ := e
    simp only [Tbl.risingFrom, Bool.and_eq_true, decide_eq_true_eq] at ht ⊢
    exact ⟨h.trans ht.1, ht.2⟩

theorem Tbl.risingFrom_insert {t : Tbl α} {lo k : Nat} (v : α) (hk : lo ≤ k) (ht : Tbl.risingFrom lo t = true) :
    Tbl.risingFrom lo (Tbl.insert t k v) = true := by
  induction t generalizing lo with
  | nil => simp [Tbl.insert, Tbl.risingFrom, hk]
  | cons e rest ih =>
    obtain ⟨i, w⟩ := e
    simp only [Tbl.risingFrom, Bool.and_eq_true, decide_eq_true_eq] at ht
    simp only [Tbl.insert]
    split
    · subst_vars; simpa [Tbl.risingFrom] using ht
    · split
      · simp only [Tbl.risingFrom, Bool.and_eq_true, decide_eq_true_eq]
        exact ⟨hk, by omega, ht.2⟩
      · simp only [Tbl.risingFrom, Bool.and_eq_true, decide_eq_true_eq]
        exact ⟨ht.1, ih (by omega) ht.2⟩

theorem Tbl.risingFrom_filter {t : Tbl α} {lo : Nat} (p : Nat × α → Bool) (ht : Tbl.risingFrom lo t = true) :
    Tbl.risingFrom lo (t.filter p) = true := by
  induction t generalizing lo with
  | nil => rfl
  | cons e rest ih =>
    obtain ⟨i, w⟩ := e
    simp only [Tbl.risingFrom, Bool.and_eq_true, decide_eq_true_eq] at ht
    simp only [List.filter]
    split
    · simp only [Tbl.risingFrom, Bool.and_eq_true, decide_eq_true_eq]; exact ⟨ht.1, ih ht.2⟩
    · exact Tbl.risingFrom_mono (by omega) (ih ht.2)

theorem Tbl.erase_eq_filter (t : Tbl α) (k : Nat) : Tbl.erase t k = t.filter (fun e => e.1 != k) := by
  induction t with
  | nil => rfl
  | cons e rest ih =>
    obtain ⟨i, w⟩ := e
    simp only [Tbl.erase, List.filter]
    by_cases h : i = k
    · simp [h, ih]
    · simp [h, ih, bne_iff_ne.2 h]

theorem Tbl.mem_insert {t : Tbl α} {k : Nat} {v : α} {e : Nat × α} (h : e ∈ Tbl.insert t k v) : e = (k, v) ∨ e ∈ t := by
  induction t with
  | nil => simp_all [Tbl.insert]
  | cons f rest ih =>
    obtain ⟨i, w⟩ := f
    simp only [Tbl.insert] at h
    split at h
    · simp_all; tauto
    · split at h
      · simp_all
      · rcases List.mem_cons.1 h with h | h
        · simp [h]
        · rcases ih h with h | h <;> simp [h]

variable [DecidableEq α]

/-- Writing a table keeps its canonical form. -/
theorem Tbl.canonical_put {d : α} {t : Tbl α} (k : Nat) (v : α) (ht : Tbl.canonical d t = true) :
    Tbl.canonical d (Tbl.put d t k v) = true := by
  simp only [Tbl.canonical, Bool.and_eq_true, List.all_eq_true] at ht ⊢
  unfold Tbl.put
  split
  · rw [Tbl.erase_eq_filter]
    exact ⟨Tbl.risingFrom_filter _ ht.1, fun e he => ht.2 e (List.mem_of_mem_filter he)⟩
  · next h =>
    refine ⟨Tbl.risingFrom_insert v (Nat.zero_le _) ht.1, fun e he => ?_⟩
    rcases Tbl.mem_insert he with rfl | he
    · simp [h]
    · exact ht.2 e he

theorem Tbl.canonical_filter {d : α} {t : Tbl α} (p : Nat × α → Bool) (ht : Tbl.canonical d t = true) :
    Tbl.canonical d (t.filter p) = true := by
  simp only [Tbl.canonical, Bool.and_eq_true, List.all_eq_true] at ht ⊢
  exact ⟨Tbl.risingFrom_filter _ ht.1, fun e he => ht.2 e (List.mem_of_mem_filter he)⟩

/-- A canonical table that lists k lists no default there. -/
theorem Tbl.canonical_nil {d : α} : Tbl.canonical d ([] : Tbl α) = true := rfl

end Sys2Proof.Machine
end

