-- ==== Sys2Proof/Laws/State.lean ====
section
/-! SUPPORT. What each update of the state leaves in every field, and what a lookup of a part finds after an update of it. -/

namespace Sys2Proof.Machine

/-! ### State.setOwner -/

@[simp] theorem State.setOwner_mem (s : State) (o : Nat) (x : Owner) : (s.setOwner o x).mem = s.mem := rfl
@[simp] theorem State.setOwner_tags (s : State) (o : Nat) (x : Owner) : (s.setOwner o x).tags = s.tags := rfl
@[simp] theorem State.setOwner_marked (s : State) (o : Nat) (x : Owner) : (s.setOwner o x).marked = s.marked := rfl
@[simp] theorem State.setOwner_stale (s : State) (o : Nat) (x : Owner) : (s.setOwner o x).stale = s.stale := rfl
@[simp] theorem State.setOwner_epoch (s : State) (o : Nat) (x : Owner) : (s.setOwner o x).epoch = s.epoch := rfl
@[simp] theorem State.setOwner_writes (s : State) (o : Nat) (x : Owner) : (s.setOwner o x).writes = s.writes := rfl
@[simp] theorem State.setOwner_roSeen (s : State) (o : Nat) (x : Owner) : (s.setOwner o x).roSeen = s.roSeen := rfl
@[simp] theorem State.setOwner_oldMaps (s : State) (o : Nat) (x : Owner) : (s.setOwner o x).oldMaps = s.oldMaps := rfl
@[simp] theorem State.setOwner_time (s : State) (o : Nat) (x : Owner) : (s.setOwner o x).time = s.time := rfl
@[simp] theorem State.setOwner_tstatLock (s : State) (o : Nat) (x : Owner) : (s.setOwner o x).tstatLock = s.tstatLock := rfl
@[simp] theorem State.setOwner_tstatOffset (s : State) (o : Nat) (x : Owner) : (s.setOwner o x).tstatOffset = s.tstatOffset := rfl
@[simp] theorem State.setOwner_freeCtr (s : State) (o : Nat) (x : Owner) : (s.setOwner o x).freeCtr = s.freeCtr := rfl
@[simp] theorem State.setOwner_owners (s : State) (o : Nat) (x : Owner) : (s.setOwner o x).owners = Tbl.insert s.owners o x := rfl
@[simp] theorem State.setOwner_strands (s : State) (o : Nat) (x : Owner) : (s.setOwner o x).strands = s.strands := rfl
@[simp] theorem State.setOwner_bundles (s : State) (o : Nat) (x : Owner) : (s.setOwner o x).bundles = s.bundles := rfl
@[simp] theorem State.setOwner_crews (s : State) (o : Nat) (x : Owner) : (s.setOwner o x).crews = s.crews := rfl
@[simp] theorem State.setOwner_groves (s : State) (o : Nat) (x : Owner) : (s.setOwner o x).groves = s.groves := rfl
@[simp] theorem State.setOwner_launches (s : State) (o : Nat) (x : Owner) : (s.setOwner o x).launches = s.launches := rfl
@[simp] theorem State.setOwner_stays (s : State) (o : Nat) (x : Owner) : (s.setOwner o x).stays = s.stays := rfl
@[simp] theorem State.setOwner_nextBundle (s : State) (o : Nat) (x : Owner) : (s.setOwner o x).nextBundle = s.nextBundle := rfl
@[simp] theorem State.setOwner_cores (s : State) (o : Nat) (x : Owner) : (s.setOwner o x).cores = s.cores := rfl
@[simp] theorem State.setOwner_tiles (s : State) (o : Nat) (x : Owner) : (s.setOwner o x).tiles = s.tiles := rfl
@[simp] theorem State.setOwner_savedTiles (s : State) (o : Nat) (x : Owner) : (s.setOwner o x).savedTiles = s.savedTiles := rfl
@[simp] theorem State.setOwner_ctxs (s : State) (o : Nat) (x : Owner) : (s.setOwner o x).ctxs = s.ctxs := rfl
@[simp] theorem State.setOwner_copies (s : State) (o : Nat) (x : Owner) : (s.setOwner o x).copies = s.copies := rfl
@[simp] theorem State.setOwner_nextCopy (s : State) (o : Nat) (x : Owner) : (s.setOwner o x).nextCopy = s.nextCopy := rfl
@[simp] theorem State.setOwner_requests (s : State) (o : Nat) (x : Owner) : (s.setOwner o x).requests = s.requests := rfl
@[simp] theorem State.setOwner_beads (s : State) (o : Nat) (x : Owner) : (s.setOwner o x).beads = s.beads := rfl
@[simp] theorem State.setOwner_dieBeadOwner (s : State) (o : Nat) (x : Owner) : (s.setOwner o x).dieBeadOwner = s.dieBeadOwner := rfl
@[simp] theorem State.setOwner_frontEnds (s : State) (o : Nat) (x : Owner) : (s.setOwner o x).frontEnds = s.frontEnds := rfl
@[simp] theorem State.setOwner_channels (s : State) (o : Nat) (x : Owner) : (s.setOwner o x).channels = s.channels := rfl
@[simp] theorem State.setOwner_ports (s : State) (o : Nat) (x : Owner) : (s.setOwner o x).ports = s.ports := rfl
@[simp] theorem State.setOwner_smallPool (s : State) (o : Nat) (x : Owner) : (s.setOwner o x).smallPool = s.smallPool := rfl
@[simp] theorem State.setOwner_largePool (s : State) (o : Nat) (x : Owner) : (s.setOwner o x).largePool = s.largePool := rfl
@[simp] theorem State.setOwner_globalRing (s : State) (o : Nat) (x : Owner) : (s.setOwner o x).globalRing = s.globalRing := rfl
@[simp] theorem State.setOwner_chead (s : State) (o : Nat) (x : Owner) : (s.setOwner o x).chead = s.chead := rfl
@[simp] theorem State.setOwner_ctail (s : State) (o : Nat) (x : Owner) : (s.setOwner o x).ctail = s.ctail := rfl
@[simp] theorem State.setOwner_command (s : State) (o : Nat) (x : Owner) : (s.setOwner o x).command = s.command := rfl
@[simp] theorem State.setOwner_cresult (s : State) (o : Nat) (x : Owner) : (s.setOwner o x).cresult = s.cresult := rfl
@[simp] theorem State.setOwner_hostData (s : State) (o : Nat) (x : Owner) : (s.setOwner o x).hostData = s.hostData := rfl
@[simp] theorem State.setOwner_doe (s : State) (o : Nat) (x : Owner) : (s.setOwner o x).doe = s.doe := rfl
@[simp] theorem State.setOwner_shoot (s : State) (o : Nat) (x : Owner) : (s.setOwner o x).shoot = s.shoot := rfl
@[simp] theorem State.setOwner_dies (s : State) (o : Nat) (x : Owner) : (s.setOwner o x).dies = s.dies := rfl
@[simp] theorem State.setOwner_boot (s : State) (o : Nat) (x : Owner) : (s.setOwner o x).boot = s.boot := rfl
@[simp] theorem State.setOwner_flash (s : State) (o : Nat) (x : Owner) : (s.setOwner o x).flash = s.flash := rfl
@[simp] theorem State.setOwner_errLog (s : State) (o : Nat) (x : Owner) : (s.setOwner o x).errLog = s.errLog := rfl
@[simp] theorem State.setOwner_persistLog (s : State) (o : Nat) (x : Owner) : (s.setOwner o x).persistLog = s.persistLog := rfl
@[simp] theorem State.setOwner_corrected (s : State) (o : Nat) (x : Owner) : (s.setOwner o x).corrected = s.corrected := rfl
@[simp] theorem State.setOwner_power (s : State) (o : Nat) (x : Owner) : (s.setOwner o x).power = s.power := rfl
@[simp] theorem State.setOwner_usedRecord (s : State) (o : Nat) (x : Owner) : (s.setOwner o x).usedRecord = s.usedRecord := rfl
@[simp] theorem State.setOwner_usedFirmware (s : State) (o : Nat) (x : Owner) : (s.setOwner o x).usedFirmware = s.usedFirmware := rfl
@[simp] theorem State.setOwner_tap (s : State) (o : Nat) (x : Owner) : (s.setOwner o x).tap = s.tap := rfl
@[simp] theorem State.setOwner_tapData (s : State) (o : Nat) (x : Owner) : (s.setOwner o x).tapData = s.tapData := rfl
@[simp] theorem State.setOwner_lastContext (s : State) (o : Nat) (x : Owner) : (s.setOwner o x).lastContext = s.lastContext := rfl
@[simp] theorem State.setOwner_inbox (s : State) (o : Nat) (x : Owner) : (s.setOwner o x).inbox = s.inbox := rfl
@[simp] theorem State.setOwner_focus (s : State) (o : Nat) (x : Owner) : (s.setOwner o x).focus = s.focus := rfl
@[simp] theorem State.setOwner_cur (s : State) (o : Nat) (x : Owner) : (s.setOwner o x).cur = s.cur := rfl
@[simp] theorem State.setOwner_last (s : State) (o : Nat) (x : Owner) : (s.setOwner o x).last = s.last := rfl

/-! ### State.setStrand -/

@[simp] theorem State.setStrand_mem (s : State) (i : Nat) (x : Strand) : (s.setStrand i x).mem = s.mem := rfl
@[simp] theorem State.setStrand_tags (s : State) (i : Nat) (x : Strand) : (s.setStrand i x).tags = s.tags := rfl
@[simp] theorem State.setStrand_marked (s : State) (i : Nat) (x : Strand) : (s.setStrand i x).marked = s.marked := rfl
@[simp] theorem State.setStrand_stale (s : State) (i : Nat) (x : Strand) : (s.setStrand i x).stale = s.stale := rfl
@[simp] theorem State.setStrand_epoch (s : State) (i : Nat) (x : Strand) : (s.setStrand i x).epoch = s.epoch := rfl
@[simp] theorem State.setStrand_writes (s : State) (i : Nat) (x : Strand) : (s.setStrand i x).writes = s.writes := rfl
@[simp] theorem State.setStrand_roSeen (s : State) (i : Nat) (x : Strand) : (s.setStrand i x).roSeen = s.roSeen := rfl
@[simp] theorem State.setStrand_oldMaps (s : State) (i : Nat) (x : Strand) : (s.setStrand i x).oldMaps = s.oldMaps := rfl
@[simp] theorem State.setStrand_time (s : State) (i : Nat) (x : Strand) : (s.setStrand i x).time = s.time := rfl
@[simp] theorem State.setStrand_tstatLock (s : State) (i : Nat) (x : Strand) : (s.setStrand i x).tstatLock = s.tstatLock := rfl
@[simp] theorem State.setStrand_tstatOffset (s : State) (i : Nat) (x : Strand) : (s.setStrand i x).tstatOffset = s.tstatOffset := rfl
@[simp] theorem State.setStrand_freeCtr (s : State) (i : Nat) (x : Strand) : (s.setStrand i x).freeCtr = s.freeCtr := rfl
@[simp] theorem State.setStrand_owners (s : State) (i : Nat) (x : Strand) : (s.setStrand i x).owners = s.owners := rfl
@[simp] theorem State.setStrand_strands (s : State) (i : Nat) (x : Strand) : (s.setStrand i x).strands = Tbl.insert s.strands i x := rfl
@[simp] theorem State.setStrand_bundles (s : State) (i : Nat) (x : Strand) : (s.setStrand i x).bundles = s.bundles := rfl
@[simp] theorem State.setStrand_crews (s : State) (i : Nat) (x : Strand) : (s.setStrand i x).crews = s.crews := rfl
@[simp] theorem State.setStrand_groves (s : State) (i : Nat) (x : Strand) : (s.setStrand i x).groves = s.groves := rfl
@[simp] theorem State.setStrand_launches (s : State) (i : Nat) (x : Strand) : (s.setStrand i x).launches = s.launches := rfl
@[simp] theorem State.setStrand_stays (s : State) (i : Nat) (x : Strand) : (s.setStrand i x).stays = s.stays := rfl
@[simp] theorem State.setStrand_nextBundle (s : State) (i : Nat) (x : Strand) : (s.setStrand i x).nextBundle = s.nextBundle := rfl
@[simp] theorem State.setStrand_cores (s : State) (i : Nat) (x : Strand) : (s.setStrand i x).cores = s.cores := rfl
@[simp] theorem State.setStrand_tiles (s : State) (i : Nat) (x : Strand) : (s.setStrand i x).tiles = s.tiles := rfl
@[simp] theorem State.setStrand_savedTiles (s : State) (i : Nat) (x : Strand) : (s.setStrand i x).savedTiles = s.savedTiles := rfl
@[simp] theorem State.setStrand_ctxs (s : State) (i : Nat) (x : Strand) : (s.setStrand i x).ctxs = s.ctxs := rfl
@[simp] theorem State.setStrand_copies (s : State) (i : Nat) (x : Strand) : (s.setStrand i x).copies = s.copies := rfl
@[simp] theorem State.setStrand_nextCopy (s : State) (i : Nat) (x : Strand) : (s.setStrand i x).nextCopy = s.nextCopy := rfl
@[simp] theorem State.setStrand_requests (s : State) (i : Nat) (x : Strand) : (s.setStrand i x).requests = s.requests := rfl
@[simp] theorem State.setStrand_beads (s : State) (i : Nat) (x : Strand) : (s.setStrand i x).beads = s.beads := rfl
@[simp] theorem State.setStrand_dieBeadOwner (s : State) (i : Nat) (x : Strand) : (s.setStrand i x).dieBeadOwner = s.dieBeadOwner := rfl
@[simp] theorem State.setStrand_frontEnds (s : State) (i : Nat) (x : Strand) : (s.setStrand i x).frontEnds = s.frontEnds := rfl
@[simp] theorem State.setStrand_channels (s : State) (i : Nat) (x : Strand) : (s.setStrand i x).channels = s.channels := rfl
@[simp] theorem State.setStrand_ports (s : State) (i : Nat) (x : Strand) : (s.setStrand i x).ports = s.ports := rfl
@[simp] theorem State.setStrand_smallPool (s : State) (i : Nat) (x : Strand) : (s.setStrand i x).smallPool = s.smallPool := rfl
@[simp] theorem State.setStrand_largePool (s : State) (i : Nat) (x : Strand) : (s.setStrand i x).largePool = s.largePool := rfl
@[simp] theorem State.setStrand_globalRing (s : State) (i : Nat) (x : Strand) : (s.setStrand i x).globalRing = s.globalRing := rfl
@[simp] theorem State.setStrand_chead (s : State) (i : Nat) (x : Strand) : (s.setStrand i x).chead = s.chead := rfl
@[simp] theorem State.setStrand_ctail (s : State) (i : Nat) (x : Strand) : (s.setStrand i x).ctail = s.ctail := rfl
@[simp] theorem State.setStrand_command (s : State) (i : Nat) (x : Strand) : (s.setStrand i x).command = s.command := rfl
@[simp] theorem State.setStrand_cresult (s : State) (i : Nat) (x : Strand) : (s.setStrand i x).cresult = s.cresult := rfl
@[simp] theorem State.setStrand_hostData (s : State) (i : Nat) (x : Strand) : (s.setStrand i x).hostData = s.hostData := rfl
@[simp] theorem State.setStrand_doe (s : State) (i : Nat) (x : Strand) : (s.setStrand i x).doe = s.doe := rfl
@[simp] theorem State.setStrand_shoot (s : State) (i : Nat) (x : Strand) : (s.setStrand i x).shoot = s.shoot := rfl
@[simp] theorem State.setStrand_dies (s : State) (i : Nat) (x : Strand) : (s.setStrand i x).dies = s.dies := rfl
@[simp] theorem State.setStrand_boot (s : State) (i : Nat) (x : Strand) : (s.setStrand i x).boot = s.boot := rfl
@[simp] theorem State.setStrand_flash (s : State) (i : Nat) (x : Strand) : (s.setStrand i x).flash = s.flash := rfl
@[simp] theorem State.setStrand_errLog (s : State) (i : Nat) (x : Strand) : (s.setStrand i x).errLog = s.errLog := rfl
@[simp] theorem State.setStrand_persistLog (s : State) (i : Nat) (x : Strand) : (s.setStrand i x).persistLog = s.persistLog := rfl
@[simp] theorem State.setStrand_corrected (s : State) (i : Nat) (x : Strand) : (s.setStrand i x).corrected = s.corrected := rfl
@[simp] theorem State.setStrand_power (s : State) (i : Nat) (x : Strand) : (s.setStrand i x).power = s.power := rfl
@[simp] theorem State.setStrand_usedRecord (s : State) (i : Nat) (x : Strand) : (s.setStrand i x).usedRecord = s.usedRecord := rfl
@[simp] theorem State.setStrand_usedFirmware (s : State) (i : Nat) (x : Strand) : (s.setStrand i x).usedFirmware = s.usedFirmware := rfl
@[simp] theorem State.setStrand_tap (s : State) (i : Nat) (x : Strand) : (s.setStrand i x).tap = s.tap := rfl
@[simp] theorem State.setStrand_tapData (s : State) (i : Nat) (x : Strand) : (s.setStrand i x).tapData = s.tapData := rfl
@[simp] theorem State.setStrand_lastContext (s : State) (i : Nat) (x : Strand) : (s.setStrand i x).lastContext = s.lastContext := rfl
@[simp] theorem State.setStrand_inbox (s : State) (i : Nat) (x : Strand) : (s.setStrand i x).inbox = s.inbox := rfl
@[simp] theorem State.setStrand_focus (s : State) (i : Nat) (x : Strand) : (s.setStrand i x).focus = s.focus := rfl
@[simp] theorem State.setStrand_cur (s : State) (i : Nat) (x : Strand) : (s.setStrand i x).cur = s.cur := rfl
@[simp] theorem State.setStrand_last (s : State) (i : Nat) (x : Strand) : (s.setStrand i x).last = s.last := rfl

/-! ### State.setCore -/

@[simp] theorem State.setCore_mem (s : State) (c : Nat) (x : CoreState) : (s.setCore c x).mem = s.mem := rfl
@[simp] theorem State.setCore_tags (s : State) (c : Nat) (x : CoreState) : (s.setCore c x).tags = s.tags := rfl
@[simp] theorem State.setCore_marked (s : State) (c : Nat) (x : CoreState) : (s.setCore c x).marked = s.marked := rfl
@[simp] theorem State.setCore_stale (s : State) (c : Nat) (x : CoreState) : (s.setCore c x).stale = s.stale := rfl
@[simp] theorem State.setCore_epoch (s : State) (c : Nat) (x : CoreState) : (s.setCore c x).epoch = s.epoch := rfl
@[simp] theorem State.setCore_writes (s : State) (c : Nat) (x : CoreState) : (s.setCore c x).writes = s.writes := rfl
@[simp] theorem State.setCore_roSeen (s : State) (c : Nat) (x : CoreState) : (s.setCore c x).roSeen = s.roSeen := rfl
@[simp] theorem State.setCore_oldMaps (s : State) (c : Nat) (x : CoreState) : (s.setCore c x).oldMaps = s.oldMaps := rfl
@[simp] theorem State.setCore_time (s : State) (c : Nat) (x : CoreState) : (s.setCore c x).time = s.time := rfl
@[simp] theorem State.setCore_tstatLock (s : State) (c : Nat) (x : CoreState) : (s.setCore c x).tstatLock = s.tstatLock := rfl
@[simp] theorem State.setCore_tstatOffset (s : State) (c : Nat) (x : CoreState) : (s.setCore c x).tstatOffset = s.tstatOffset := rfl
@[simp] theorem State.setCore_freeCtr (s : State) (c : Nat) (x : CoreState) : (s.setCore c x).freeCtr = s.freeCtr := rfl
@[simp] theorem State.setCore_owners (s : State) (c : Nat) (x : CoreState) : (s.setCore c x).owners = s.owners := rfl
@[simp] theorem State.setCore_strands (s : State) (c : Nat) (x : CoreState) : (s.setCore c x).strands = s.strands := rfl
@[simp] theorem State.setCore_bundles (s : State) (c : Nat) (x : CoreState) : (s.setCore c x).bundles = s.bundles := rfl
@[simp] theorem State.setCore_crews (s : State) (c : Nat) (x : CoreState) : (s.setCore c x).crews = s.crews := rfl
@[simp] theorem State.setCore_groves (s : State) (c : Nat) (x : CoreState) : (s.setCore c x).groves = s.groves := rfl
@[simp] theorem State.setCore_launches (s : State) (c : Nat) (x : CoreState) : (s.setCore c x).launches = s.launches := rfl
@[simp] theorem State.setCore_stays (s : State) (c : Nat) (x : CoreState) : (s.setCore c x).stays = s.stays := rfl
@[simp] theorem State.setCore_nextBundle (s : State) (c : Nat) (x : CoreState) : (s.setCore c x).nextBundle = s.nextBundle := rfl
@[simp] theorem State.setCore_cores (s : State) (c : Nat) (x : CoreState) : (s.setCore c x).cores = Tbl.insert s.cores c x := rfl
@[simp] theorem State.setCore_tiles (s : State) (c : Nat) (x : CoreState) : (s.setCore c x).tiles = s.tiles := rfl
@[simp] theorem State.setCore_savedTiles (s : State) (c : Nat) (x : CoreState) : (s.setCore c x).savedTiles = s.savedTiles := rfl
@[simp] theorem State.setCore_ctxs (s : State) (c : Nat) (x : CoreState) : (s.setCore c x).ctxs = s.ctxs := rfl
@[simp] theorem State.setCore_copies (s : State) (c : Nat) (x : CoreState) : (s.setCore c x).copies = s.copies := rfl
@[simp] theorem State.setCore_nextCopy (s : State) (c : Nat) (x : CoreState) : (s.setCore c x).nextCopy = s.nextCopy := rfl
@[simp] theorem State.setCore_requests (s : State) (c : Nat) (x : CoreState) : (s.setCore c x).requests = s.requests := rfl
@[simp] theorem State.setCore_beads (s : State) (c : Nat) (x : CoreState) : (s.setCore c x).beads = s.beads := rfl
@[simp] theorem State.setCore_dieBeadOwner (s : State) (c : Nat) (x : CoreState) : (s.setCore c x).dieBeadOwner = s.dieBeadOwner := rfl
@[simp] theorem State.setCore_frontEnds (s : State) (c : Nat) (x : CoreState) : (s.setCore c x).frontEnds = s.frontEnds := rfl
@[simp] theorem State.setCore_channels (s : State) (c : Nat) (x : CoreState) : (s.setCore c x).channels = s.channels := rfl
@[simp] theorem State.setCore_ports (s : State) (c : Nat) (x : CoreState) : (s.setCore c x).ports = s.ports := rfl
@[simp] theorem State.setCore_smallPool (s : State) (c : Nat) (x : CoreState) : (s.setCore c x).smallPool = s.smallPool := rfl
@[simp] theorem State.setCore_largePool (s : State) (c : Nat) (x : CoreState) : (s.setCore c x).largePool = s.largePool := rfl
@[simp] theorem State.setCore_globalRing (s : State) (c : Nat) (x : CoreState) : (s.setCore c x).globalRing = s.globalRing := rfl
@[simp] theorem State.setCore_chead (s : State) (c : Nat) (x : CoreState) : (s.setCore c x).chead = s.chead := rfl
@[simp] theorem State.setCore_ctail (s : State) (c : Nat) (x : CoreState) : (s.setCore c x).ctail = s.ctail := rfl
@[simp] theorem State.setCore_command (s : State) (c : Nat) (x : CoreState) : (s.setCore c x).command = s.command := rfl
@[simp] theorem State.setCore_cresult (s : State) (c : Nat) (x : CoreState) : (s.setCore c x).cresult = s.cresult := rfl
@[simp] theorem State.setCore_hostData (s : State) (c : Nat) (x : CoreState) : (s.setCore c x).hostData = s.hostData := rfl
@[simp] theorem State.setCore_doe (s : State) (c : Nat) (x : CoreState) : (s.setCore c x).doe = s.doe := rfl
@[simp] theorem State.setCore_shoot (s : State) (c : Nat) (x : CoreState) : (s.setCore c x).shoot = s.shoot := rfl
@[simp] theorem State.setCore_dies (s : State) (c : Nat) (x : CoreState) : (s.setCore c x).dies = s.dies := rfl
@[simp] theorem State.setCore_boot (s : State) (c : Nat) (x : CoreState) : (s.setCore c x).boot = s.boot := rfl
@[simp] theorem State.setCore_flash (s : State) (c : Nat) (x : CoreState) : (s.setCore c x).flash = s.flash := rfl
@[simp] theorem State.setCore_errLog (s : State) (c : Nat) (x : CoreState) : (s.setCore c x).errLog = s.errLog := rfl
@[simp] theorem State.setCore_persistLog (s : State) (c : Nat) (x : CoreState) : (s.setCore c x).persistLog = s.persistLog := rfl
@[simp] theorem State.setCore_corrected (s : State) (c : Nat) (x : CoreState) : (s.setCore c x).corrected = s.corrected := rfl
@[simp] theorem State.setCore_power (s : State) (c : Nat) (x : CoreState) : (s.setCore c x).power = s.power := rfl
@[simp] theorem State.setCore_usedRecord (s : State) (c : Nat) (x : CoreState) : (s.setCore c x).usedRecord = s.usedRecord := rfl
@[simp] theorem State.setCore_usedFirmware (s : State) (c : Nat) (x : CoreState) : (s.setCore c x).usedFirmware = s.usedFirmware := rfl
@[simp] theorem State.setCore_tap (s : State) (c : Nat) (x : CoreState) : (s.setCore c x).tap = s.tap := rfl
@[simp] theorem State.setCore_tapData (s : State) (c : Nat) (x : CoreState) : (s.setCore c x).tapData = s.tapData := rfl
@[simp] theorem State.setCore_lastContext (s : State) (c : Nat) (x : CoreState) : (s.setCore c x).lastContext = s.lastContext := rfl
@[simp] theorem State.setCore_inbox (s : State) (c : Nat) (x : CoreState) : (s.setCore c x).inbox = s.inbox := rfl
@[simp] theorem State.setCore_focus (s : State) (c : Nat) (x : CoreState) : (s.setCore c x).focus = s.focus := rfl
@[simp] theorem State.setCore_cur (s : State) (c : Nat) (x : CoreState) : (s.setCore c x).cur = s.cur := rfl
@[simp] theorem State.setCore_last (s : State) (c : Nat) (x : CoreState) : (s.setCore c x).last = s.last := rfl

/-! ### State.setTile -/

@[simp] theorem State.setTile_mem (s : State) (k : Nat) (x : Tile) : (s.setTile k x).mem = s.mem := rfl
@[simp] theorem State.setTile_tags (s : State) (k : Nat) (x : Tile) : (s.setTile k x).tags = s.tags := rfl
@[simp] theorem State.setTile_marked (s : State) (k : Nat) (x : Tile) : (s.setTile k x).marked = s.marked := rfl
@[simp] theorem State.setTile_stale (s : State) (k : Nat) (x : Tile) : (s.setTile k x).stale = s.stale := rfl
@[simp] theorem State.setTile_epoch (s : State) (k : Nat) (x : Tile) : (s.setTile k x).epoch = s.epoch := rfl
@[simp] theorem State.setTile_writes (s : State) (k : Nat) (x : Tile) : (s.setTile k x).writes = s.writes := rfl
@[simp] theorem State.setTile_roSeen (s : State) (k : Nat) (x : Tile) : (s.setTile k x).roSeen = s.roSeen := rfl
@[simp] theorem State.setTile_oldMaps (s : State) (k : Nat) (x : Tile) : (s.setTile k x).oldMaps = s.oldMaps := rfl
@[simp] theorem State.setTile_time (s : State) (k : Nat) (x : Tile) : (s.setTile k x).time = s.time := rfl
@[simp] theorem State.setTile_tstatLock (s : State) (k : Nat) (x : Tile) : (s.setTile k x).tstatLock = s.tstatLock := rfl
@[simp] theorem State.setTile_tstatOffset (s : State) (k : Nat) (x : Tile) : (s.setTile k x).tstatOffset = s.tstatOffset := rfl
@[simp] theorem State.setTile_freeCtr (s : State) (k : Nat) (x : Tile) : (s.setTile k x).freeCtr = s.freeCtr := rfl
@[simp] theorem State.setTile_owners (s : State) (k : Nat) (x : Tile) : (s.setTile k x).owners = s.owners := rfl
@[simp] theorem State.setTile_strands (s : State) (k : Nat) (x : Tile) : (s.setTile k x).strands = s.strands := rfl
@[simp] theorem State.setTile_bundles (s : State) (k : Nat) (x : Tile) : (s.setTile k x).bundles = s.bundles := rfl
@[simp] theorem State.setTile_crews (s : State) (k : Nat) (x : Tile) : (s.setTile k x).crews = s.crews := rfl
@[simp] theorem State.setTile_groves (s : State) (k : Nat) (x : Tile) : (s.setTile k x).groves = s.groves := rfl
@[simp] theorem State.setTile_launches (s : State) (k : Nat) (x : Tile) : (s.setTile k x).launches = s.launches := rfl
@[simp] theorem State.setTile_stays (s : State) (k : Nat) (x : Tile) : (s.setTile k x).stays = s.stays := rfl
@[simp] theorem State.setTile_nextBundle (s : State) (k : Nat) (x : Tile) : (s.setTile k x).nextBundle = s.nextBundle := rfl
@[simp] theorem State.setTile_cores (s : State) (k : Nat) (x : Tile) : (s.setTile k x).cores = s.cores := rfl
@[simp] theorem State.setTile_tiles (s : State) (k : Nat) (x : Tile) : (s.setTile k x).tiles = Tbl.insert s.tiles k x := rfl
@[simp] theorem State.setTile_savedTiles (s : State) (k : Nat) (x : Tile) : (s.setTile k x).savedTiles = s.savedTiles := rfl
@[simp] theorem State.setTile_ctxs (s : State) (k : Nat) (x : Tile) : (s.setTile k x).ctxs = s.ctxs := rfl
@[simp] theorem State.setTile_copies (s : State) (k : Nat) (x : Tile) : (s.setTile k x).copies = s.copies := rfl
@[simp] theorem State.setTile_nextCopy (s : State) (k : Nat) (x : Tile) : (s.setTile k x).nextCopy = s.nextCopy := rfl
@[simp] theorem State.setTile_requests (s : State) (k : Nat) (x : Tile) : (s.setTile k x).requests = s.requests := rfl
@[simp] theorem State.setTile_beads (s : State) (k : Nat) (x : Tile) : (s.setTile k x).beads = s.beads := rfl
@[simp] theorem State.setTile_dieBeadOwner (s : State) (k : Nat) (x : Tile) : (s.setTile k x).dieBeadOwner = s.dieBeadOwner := rfl
@[simp] theorem State.setTile_frontEnds (s : State) (k : Nat) (x : Tile) : (s.setTile k x).frontEnds = s.frontEnds := rfl
@[simp] theorem State.setTile_channels (s : State) (k : Nat) (x : Tile) : (s.setTile k x).channels = s.channels := rfl
@[simp] theorem State.setTile_ports (s : State) (k : Nat) (x : Tile) : (s.setTile k x).ports = s.ports := rfl
@[simp] theorem State.setTile_smallPool (s : State) (k : Nat) (x : Tile) : (s.setTile k x).smallPool = s.smallPool := rfl
@[simp] theorem State.setTile_largePool (s : State) (k : Nat) (x : Tile) : (s.setTile k x).largePool = s.largePool := rfl
@[simp] theorem State.setTile_globalRing (s : State) (k : Nat) (x : Tile) : (s.setTile k x).globalRing = s.globalRing := rfl
@[simp] theorem State.setTile_chead (s : State) (k : Nat) (x : Tile) : (s.setTile k x).chead = s.chead := rfl
@[simp] theorem State.setTile_ctail (s : State) (k : Nat) (x : Tile) : (s.setTile k x).ctail = s.ctail := rfl
@[simp] theorem State.setTile_command (s : State) (k : Nat) (x : Tile) : (s.setTile k x).command = s.command := rfl
@[simp] theorem State.setTile_cresult (s : State) (k : Nat) (x : Tile) : (s.setTile k x).cresult = s.cresult := rfl
@[simp] theorem State.setTile_hostData (s : State) (k : Nat) (x : Tile) : (s.setTile k x).hostData = s.hostData := rfl
@[simp] theorem State.setTile_doe (s : State) (k : Nat) (x : Tile) : (s.setTile k x).doe = s.doe := rfl
@[simp] theorem State.setTile_shoot (s : State) (k : Nat) (x : Tile) : (s.setTile k x).shoot = s.shoot := rfl
@[simp] theorem State.setTile_dies (s : State) (k : Nat) (x : Tile) : (s.setTile k x).dies = s.dies := rfl
@[simp] theorem State.setTile_boot (s : State) (k : Nat) (x : Tile) : (s.setTile k x).boot = s.boot := rfl
@[simp] theorem State.setTile_flash (s : State) (k : Nat) (x : Tile) : (s.setTile k x).flash = s.flash := rfl
@[simp] theorem State.setTile_errLog (s : State) (k : Nat) (x : Tile) : (s.setTile k x).errLog = s.errLog := rfl
@[simp] theorem State.setTile_persistLog (s : State) (k : Nat) (x : Tile) : (s.setTile k x).persistLog = s.persistLog := rfl
@[simp] theorem State.setTile_corrected (s : State) (k : Nat) (x : Tile) : (s.setTile k x).corrected = s.corrected := rfl
@[simp] theorem State.setTile_power (s : State) (k : Nat) (x : Tile) : (s.setTile k x).power = s.power := rfl
@[simp] theorem State.setTile_usedRecord (s : State) (k : Nat) (x : Tile) : (s.setTile k x).usedRecord = s.usedRecord := rfl
@[simp] theorem State.setTile_usedFirmware (s : State) (k : Nat) (x : Tile) : (s.setTile k x).usedFirmware = s.usedFirmware := rfl
@[simp] theorem State.setTile_tap (s : State) (k : Nat) (x : Tile) : (s.setTile k x).tap = s.tap := rfl
@[simp] theorem State.setTile_tapData (s : State) (k : Nat) (x : Tile) : (s.setTile k x).tapData = s.tapData := rfl
@[simp] theorem State.setTile_lastContext (s : State) (k : Nat) (x : Tile) : (s.setTile k x).lastContext = s.lastContext := rfl
@[simp] theorem State.setTile_inbox (s : State) (k : Nat) (x : Tile) : (s.setTile k x).inbox = s.inbox := rfl
@[simp] theorem State.setTile_focus (s : State) (k : Nat) (x : Tile) : (s.setTile k x).focus = s.focus := rfl
@[simp] theorem State.setTile_cur (s : State) (k : Nat) (x : Tile) : (s.setTile k x).cur = s.cur := rfl
@[simp] theorem State.setTile_last (s : State) (k : Nat) (x : Tile) : (s.setTile k x).last = s.last := rfl

/-! ### State.setCtx -/

@[simp] theorem State.setCtx_mem (s : State) (c : Nat) (x : Context) : (s.setCtx c x).mem = s.mem := rfl
@[simp] theorem State.setCtx_tags (s : State) (c : Nat) (x : Context) : (s.setCtx c x).tags = s.tags := rfl
@[simp] theorem State.setCtx_marked (s : State) (c : Nat) (x : Context) : (s.setCtx c x).marked = s.marked := rfl
@[simp] theorem State.setCtx_stale (s : State) (c : Nat) (x : Context) : (s.setCtx c x).stale = s.stale := rfl
@[simp] theorem State.setCtx_epoch (s : State) (c : Nat) (x : Context) : (s.setCtx c x).epoch = s.epoch := rfl
@[simp] theorem State.setCtx_writes (s : State) (c : Nat) (x : Context) : (s.setCtx c x).writes = s.writes := rfl
@[simp] theorem State.setCtx_roSeen (s : State) (c : Nat) (x : Context) : (s.setCtx c x).roSeen = s.roSeen := rfl
@[simp] theorem State.setCtx_oldMaps (s : State) (c : Nat) (x : Context) : (s.setCtx c x).oldMaps = s.oldMaps := rfl
@[simp] theorem State.setCtx_time (s : State) (c : Nat) (x : Context) : (s.setCtx c x).time = s.time := rfl
@[simp] theorem State.setCtx_tstatLock (s : State) (c : Nat) (x : Context) : (s.setCtx c x).tstatLock = s.tstatLock := rfl
@[simp] theorem State.setCtx_tstatOffset (s : State) (c : Nat) (x : Context) : (s.setCtx c x).tstatOffset = s.tstatOffset := rfl
@[simp] theorem State.setCtx_freeCtr (s : State) (c : Nat) (x : Context) : (s.setCtx c x).freeCtr = s.freeCtr := rfl
@[simp] theorem State.setCtx_owners (s : State) (c : Nat) (x : Context) : (s.setCtx c x).owners = s.owners := rfl
@[simp] theorem State.setCtx_strands (s : State) (c : Nat) (x : Context) : (s.setCtx c x).strands = s.strands := rfl
@[simp] theorem State.setCtx_bundles (s : State) (c : Nat) (x : Context) : (s.setCtx c x).bundles = s.bundles := rfl
@[simp] theorem State.setCtx_crews (s : State) (c : Nat) (x : Context) : (s.setCtx c x).crews = s.crews := rfl
@[simp] theorem State.setCtx_groves (s : State) (c : Nat) (x : Context) : (s.setCtx c x).groves = s.groves := rfl
@[simp] theorem State.setCtx_launches (s : State) (c : Nat) (x : Context) : (s.setCtx c x).launches = s.launches := rfl
@[simp] theorem State.setCtx_stays (s : State) (c : Nat) (x : Context) : (s.setCtx c x).stays = s.stays := rfl
@[simp] theorem State.setCtx_nextBundle (s : State) (c : Nat) (x : Context) : (s.setCtx c x).nextBundle = s.nextBundle := rfl
@[simp] theorem State.setCtx_cores (s : State) (c : Nat) (x : Context) : (s.setCtx c x).cores = s.cores := rfl
@[simp] theorem State.setCtx_tiles (s : State) (c : Nat) (x : Context) : (s.setCtx c x).tiles = s.tiles := rfl
@[simp] theorem State.setCtx_savedTiles (s : State) (c : Nat) (x : Context) : (s.setCtx c x).savedTiles = s.savedTiles := rfl
@[simp] theorem State.setCtx_ctxs (s : State) (c : Nat) (x : Context) : (s.setCtx c x).ctxs = Tbl.insert s.ctxs c x := rfl
@[simp] theorem State.setCtx_copies (s : State) (c : Nat) (x : Context) : (s.setCtx c x).copies = s.copies := rfl
@[simp] theorem State.setCtx_nextCopy (s : State) (c : Nat) (x : Context) : (s.setCtx c x).nextCopy = s.nextCopy := rfl
@[simp] theorem State.setCtx_requests (s : State) (c : Nat) (x : Context) : (s.setCtx c x).requests = s.requests := rfl
@[simp] theorem State.setCtx_beads (s : State) (c : Nat) (x : Context) : (s.setCtx c x).beads = s.beads := rfl
@[simp] theorem State.setCtx_dieBeadOwner (s : State) (c : Nat) (x : Context) : (s.setCtx c x).dieBeadOwner = s.dieBeadOwner := rfl
@[simp] theorem State.setCtx_frontEnds (s : State) (c : Nat) (x : Context) : (s.setCtx c x).frontEnds = s.frontEnds := rfl
@[simp] theorem State.setCtx_channels (s : State) (c : Nat) (x : Context) : (s.setCtx c x).channels = s.channels := rfl
@[simp] theorem State.setCtx_ports (s : State) (c : Nat) (x : Context) : (s.setCtx c x).ports = s.ports := rfl
@[simp] theorem State.setCtx_smallPool (s : State) (c : Nat) (x : Context) : (s.setCtx c x).smallPool = s.smallPool := rfl
@[simp] theorem State.setCtx_largePool (s : State) (c : Nat) (x : Context) : (s.setCtx c x).largePool = s.largePool := rfl
@[simp] theorem State.setCtx_globalRing (s : State) (c : Nat) (x : Context) : (s.setCtx c x).globalRing = s.globalRing := rfl
@[simp] theorem State.setCtx_chead (s : State) (c : Nat) (x : Context) : (s.setCtx c x).chead = s.chead := rfl
@[simp] theorem State.setCtx_ctail (s : State) (c : Nat) (x : Context) : (s.setCtx c x).ctail = s.ctail := rfl
@[simp] theorem State.setCtx_command (s : State) (c : Nat) (x : Context) : (s.setCtx c x).command = s.command := rfl
@[simp] theorem State.setCtx_cresult (s : State) (c : Nat) (x : Context) : (s.setCtx c x).cresult = s.cresult := rfl
@[simp] theorem State.setCtx_hostData (s : State) (c : Nat) (x : Context) : (s.setCtx c x).hostData = s.hostData := rfl
@[simp] theorem State.setCtx_doe (s : State) (c : Nat) (x : Context) : (s.setCtx c x).doe = s.doe := rfl
@[simp] theorem State.setCtx_shoot (s : State) (c : Nat) (x : Context) : (s.setCtx c x).shoot = s.shoot := rfl
@[simp] theorem State.setCtx_dies (s : State) (c : Nat) (x : Context) : (s.setCtx c x).dies = s.dies := rfl
@[simp] theorem State.setCtx_boot (s : State) (c : Nat) (x : Context) : (s.setCtx c x).boot = s.boot := rfl
@[simp] theorem State.setCtx_flash (s : State) (c : Nat) (x : Context) : (s.setCtx c x).flash = s.flash := rfl
@[simp] theorem State.setCtx_errLog (s : State) (c : Nat) (x : Context) : (s.setCtx c x).errLog = s.errLog := rfl
@[simp] theorem State.setCtx_persistLog (s : State) (c : Nat) (x : Context) : (s.setCtx c x).persistLog = s.persistLog := rfl
@[simp] theorem State.setCtx_corrected (s : State) (c : Nat) (x : Context) : (s.setCtx c x).corrected = s.corrected := rfl
@[simp] theorem State.setCtx_power (s : State) (c : Nat) (x : Context) : (s.setCtx c x).power = s.power := rfl
@[simp] theorem State.setCtx_usedRecord (s : State) (c : Nat) (x : Context) : (s.setCtx c x).usedRecord = s.usedRecord := rfl
@[simp] theorem State.setCtx_usedFirmware (s : State) (c : Nat) (x : Context) : (s.setCtx c x).usedFirmware = s.usedFirmware := rfl
@[simp] theorem State.setCtx_tap (s : State) (c : Nat) (x : Context) : (s.setCtx c x).tap = s.tap := rfl
@[simp] theorem State.setCtx_tapData (s : State) (c : Nat) (x : Context) : (s.setCtx c x).tapData = s.tapData := rfl
@[simp] theorem State.setCtx_lastContext (s : State) (c : Nat) (x : Context) : (s.setCtx c x).lastContext = s.lastContext := rfl
@[simp] theorem State.setCtx_inbox (s : State) (c : Nat) (x : Context) : (s.setCtx c x).inbox = s.inbox := rfl
@[simp] theorem State.setCtx_focus (s : State) (c : Nat) (x : Context) : (s.setCtx c x).focus = s.focus := rfl
@[simp] theorem State.setCtx_cur (s : State) (c : Nat) (x : Context) : (s.setCtx c x).cur = s.cur := rfl
@[simp] theorem State.setCtx_last (s : State) (c : Nat) (x : Context) : (s.setCtx c x).last = s.last := rfl

/-! ### State.setBundle -/

@[simp] theorem State.setBundle_mem (s : State) (b : Nat) (x : Bundle) : (s.setBundle b x).mem = s.mem := rfl
@[simp] theorem State.setBundle_tags (s : State) (b : Nat) (x : Bundle) : (s.setBundle b x).tags = s.tags := rfl
@[simp] theorem State.setBundle_marked (s : State) (b : Nat) (x : Bundle) : (s.setBundle b x).marked = s.marked := rfl
@[simp] theorem State.setBundle_stale (s : State) (b : Nat) (x : Bundle) : (s.setBundle b x).stale = s.stale := rfl
@[simp] theorem State.setBundle_epoch (s : State) (b : Nat) (x : Bundle) : (s.setBundle b x).epoch = s.epoch := rfl
@[simp] theorem State.setBundle_writes (s : State) (b : Nat) (x : Bundle) : (s.setBundle b x).writes = s.writes := rfl
@[simp] theorem State.setBundle_roSeen (s : State) (b : Nat) (x : Bundle) : (s.setBundle b x).roSeen = s.roSeen := rfl
@[simp] theorem State.setBundle_oldMaps (s : State) (b : Nat) (x : Bundle) : (s.setBundle b x).oldMaps = s.oldMaps := rfl
@[simp] theorem State.setBundle_time (s : State) (b : Nat) (x : Bundle) : (s.setBundle b x).time = s.time := rfl
@[simp] theorem State.setBundle_tstatLock (s : State) (b : Nat) (x : Bundle) : (s.setBundle b x).tstatLock = s.tstatLock := rfl
@[simp] theorem State.setBundle_tstatOffset (s : State) (b : Nat) (x : Bundle) : (s.setBundle b x).tstatOffset = s.tstatOffset := rfl
@[simp] theorem State.setBundle_freeCtr (s : State) (b : Nat) (x : Bundle) : (s.setBundle b x).freeCtr = s.freeCtr := rfl
@[simp] theorem State.setBundle_owners (s : State) (b : Nat) (x : Bundle) : (s.setBundle b x).owners = s.owners := rfl
@[simp] theorem State.setBundle_strands (s : State) (b : Nat) (x : Bundle) : (s.setBundle b x).strands = s.strands := rfl
@[simp] theorem State.setBundle_bundles (s : State) (b : Nat) (x : Bundle) : (s.setBundle b x).bundles = Tbl.insert s.bundles b x := rfl
@[simp] theorem State.setBundle_crews (s : State) (b : Nat) (x : Bundle) : (s.setBundle b x).crews = s.crews := rfl
@[simp] theorem State.setBundle_groves (s : State) (b : Nat) (x : Bundle) : (s.setBundle b x).groves = s.groves := rfl
@[simp] theorem State.setBundle_launches (s : State) (b : Nat) (x : Bundle) : (s.setBundle b x).launches = s.launches := rfl
@[simp] theorem State.setBundle_stays (s : State) (b : Nat) (x : Bundle) : (s.setBundle b x).stays = s.stays := rfl
@[simp] theorem State.setBundle_nextBundle (s : State) (b : Nat) (x : Bundle) : (s.setBundle b x).nextBundle = s.nextBundle := rfl
@[simp] theorem State.setBundle_cores (s : State) (b : Nat) (x : Bundle) : (s.setBundle b x).cores = s.cores := rfl
@[simp] theorem State.setBundle_tiles (s : State) (b : Nat) (x : Bundle) : (s.setBundle b x).tiles = s.tiles := rfl
@[simp] theorem State.setBundle_savedTiles (s : State) (b : Nat) (x : Bundle) : (s.setBundle b x).savedTiles = s.savedTiles := rfl
@[simp] theorem State.setBundle_ctxs (s : State) (b : Nat) (x : Bundle) : (s.setBundle b x).ctxs = s.ctxs := rfl
@[simp] theorem State.setBundle_copies (s : State) (b : Nat) (x : Bundle) : (s.setBundle b x).copies = s.copies := rfl
@[simp] theorem State.setBundle_nextCopy (s : State) (b : Nat) (x : Bundle) : (s.setBundle b x).nextCopy = s.nextCopy := rfl
@[simp] theorem State.setBundle_requests (s : State) (b : Nat) (x : Bundle) : (s.setBundle b x).requests = s.requests := rfl
@[simp] theorem State.setBundle_beads (s : State) (b : Nat) (x : Bundle) : (s.setBundle b x).beads = s.beads := rfl
@[simp] theorem State.setBundle_dieBeadOwner (s : State) (b : Nat) (x : Bundle) : (s.setBundle b x).dieBeadOwner = s.dieBeadOwner := rfl
@[simp] theorem State.setBundle_frontEnds (s : State) (b : Nat) (x : Bundle) : (s.setBundle b x).frontEnds = s.frontEnds := rfl
@[simp] theorem State.setBundle_channels (s : State) (b : Nat) (x : Bundle) : (s.setBundle b x).channels = s.channels := rfl
@[simp] theorem State.setBundle_ports (s : State) (b : Nat) (x : Bundle) : (s.setBundle b x).ports = s.ports := rfl
@[simp] theorem State.setBundle_smallPool (s : State) (b : Nat) (x : Bundle) : (s.setBundle b x).smallPool = s.smallPool := rfl
@[simp] theorem State.setBundle_largePool (s : State) (b : Nat) (x : Bundle) : (s.setBundle b x).largePool = s.largePool := rfl
@[simp] theorem State.setBundle_globalRing (s : State) (b : Nat) (x : Bundle) : (s.setBundle b x).globalRing = s.globalRing := rfl
@[simp] theorem State.setBundle_chead (s : State) (b : Nat) (x : Bundle) : (s.setBundle b x).chead = s.chead := rfl
@[simp] theorem State.setBundle_ctail (s : State) (b : Nat) (x : Bundle) : (s.setBundle b x).ctail = s.ctail := rfl
@[simp] theorem State.setBundle_command (s : State) (b : Nat) (x : Bundle) : (s.setBundle b x).command = s.command := rfl
@[simp] theorem State.setBundle_cresult (s : State) (b : Nat) (x : Bundle) : (s.setBundle b x).cresult = s.cresult := rfl
@[simp] theorem State.setBundle_hostData (s : State) (b : Nat) (x : Bundle) : (s.setBundle b x).hostData = s.hostData := rfl
@[simp] theorem State.setBundle_doe (s : State) (b : Nat) (x : Bundle) : (s.setBundle b x).doe = s.doe := rfl
@[simp] theorem State.setBundle_shoot (s : State) (b : Nat) (x : Bundle) : (s.setBundle b x).shoot = s.shoot := rfl
@[simp] theorem State.setBundle_dies (s : State) (b : Nat) (x : Bundle) : (s.setBundle b x).dies = s.dies := rfl
@[simp] theorem State.setBundle_boot (s : State) (b : Nat) (x : Bundle) : (s.setBundle b x).boot = s.boot := rfl
@[simp] theorem State.setBundle_flash (s : State) (b : Nat) (x : Bundle) : (s.setBundle b x).flash = s.flash := rfl
@[simp] theorem State.setBundle_errLog (s : State) (b : Nat) (x : Bundle) : (s.setBundle b x).errLog = s.errLog := rfl
@[simp] theorem State.setBundle_persistLog (s : State) (b : Nat) (x : Bundle) : (s.setBundle b x).persistLog = s.persistLog := rfl
@[simp] theorem State.setBundle_corrected (s : State) (b : Nat) (x : Bundle) : (s.setBundle b x).corrected = s.corrected := rfl
@[simp] theorem State.setBundle_power (s : State) (b : Nat) (x : Bundle) : (s.setBundle b x).power = s.power := rfl
@[simp] theorem State.setBundle_usedRecord (s : State) (b : Nat) (x : Bundle) : (s.setBundle b x).usedRecord = s.usedRecord := rfl
@[simp] theorem State.setBundle_usedFirmware (s : State) (b : Nat) (x : Bundle) : (s.setBundle b x).usedFirmware = s.usedFirmware := rfl
@[simp] theorem State.setBundle_tap (s : State) (b : Nat) (x : Bundle) : (s.setBundle b x).tap = s.tap := rfl
@[simp] theorem State.setBundle_tapData (s : State) (b : Nat) (x : Bundle) : (s.setBundle b x).tapData = s.tapData := rfl
@[simp] theorem State.setBundle_lastContext (s : State) (b : Nat) (x : Bundle) : (s.setBundle b x).lastContext = s.lastContext := rfl
@[simp] theorem State.setBundle_inbox (s : State) (b : Nat) (x : Bundle) : (s.setBundle b x).inbox = s.inbox := rfl
@[simp] theorem State.setBundle_focus (s : State) (b : Nat) (x : Bundle) : (s.setBundle b x).focus = s.focus := rfl
@[simp] theorem State.setBundle_cur (s : State) (b : Nat) (x : Bundle) : (s.setBundle b x).cur = s.cur := rfl
@[simp] theorem State.setBundle_last (s : State) (b : Nat) (x : Bundle) : (s.setBundle b x).last = s.last := rfl

/-! ### State.setCrew -/

@[simp] theorem State.setCrew_mem (s : State) (c : Nat) (x : Crew) : (s.setCrew c x).mem = s.mem := rfl
@[simp] theorem State.setCrew_tags (s : State) (c : Nat) (x : Crew) : (s.setCrew c x).tags = s.tags := rfl
@[simp] theorem State.setCrew_marked (s : State) (c : Nat) (x : Crew) : (s.setCrew c x).marked = s.marked := rfl
@[simp] theorem State.setCrew_stale (s : State) (c : Nat) (x : Crew) : (s.setCrew c x).stale = s.stale := rfl
@[simp] theorem State.setCrew_epoch (s : State) (c : Nat) (x : Crew) : (s.setCrew c x).epoch = s.epoch := rfl
@[simp] theorem State.setCrew_writes (s : State) (c : Nat) (x : Crew) : (s.setCrew c x).writes = s.writes := rfl
@[simp] theorem State.setCrew_roSeen (s : State) (c : Nat) (x : Crew) : (s.setCrew c x).roSeen = s.roSeen := rfl
@[simp] theorem State.setCrew_oldMaps (s : State) (c : Nat) (x : Crew) : (s.setCrew c x).oldMaps = s.oldMaps := rfl
@[simp] theorem State.setCrew_time (s : State) (c : Nat) (x : Crew) : (s.setCrew c x).time = s.time := rfl
@[simp] theorem State.setCrew_tstatLock (s : State) (c : Nat) (x : Crew) : (s.setCrew c x).tstatLock = s.tstatLock := rfl
@[simp] theorem State.setCrew_tstatOffset (s : State) (c : Nat) (x : Crew) : (s.setCrew c x).tstatOffset = s.tstatOffset := rfl
@[simp] theorem State.setCrew_freeCtr (s : State) (c : Nat) (x : Crew) : (s.setCrew c x).freeCtr = s.freeCtr := rfl
@[simp] theorem State.setCrew_owners (s : State) (c : Nat) (x : Crew) : (s.setCrew c x).owners = s.owners := rfl
@[simp] theorem State.setCrew_strands (s : State) (c : Nat) (x : Crew) : (s.setCrew c x).strands = s.strands := rfl
@[simp] theorem State.setCrew_bundles (s : State) (c : Nat) (x : Crew) : (s.setCrew c x).bundles = s.bundles := rfl
@[simp] theorem State.setCrew_crews (s : State) (c : Nat) (x : Crew) : (s.setCrew c x).crews = Tbl.insert s.crews c x := rfl
@[simp] theorem State.setCrew_groves (s : State) (c : Nat) (x : Crew) : (s.setCrew c x).groves = s.groves := rfl
@[simp] theorem State.setCrew_launches (s : State) (c : Nat) (x : Crew) : (s.setCrew c x).launches = s.launches := rfl
@[simp] theorem State.setCrew_stays (s : State) (c : Nat) (x : Crew) : (s.setCrew c x).stays = s.stays := rfl
@[simp] theorem State.setCrew_nextBundle (s : State) (c : Nat) (x : Crew) : (s.setCrew c x).nextBundle = s.nextBundle := rfl
@[simp] theorem State.setCrew_cores (s : State) (c : Nat) (x : Crew) : (s.setCrew c x).cores = s.cores := rfl
@[simp] theorem State.setCrew_tiles (s : State) (c : Nat) (x : Crew) : (s.setCrew c x).tiles = s.tiles := rfl
@[simp] theorem State.setCrew_savedTiles (s : State) (c : Nat) (x : Crew) : (s.setCrew c x).savedTiles = s.savedTiles := rfl
@[simp] theorem State.setCrew_ctxs (s : State) (c : Nat) (x : Crew) : (s.setCrew c x).ctxs = s.ctxs := rfl
@[simp] theorem State.setCrew_copies (s : State) (c : Nat) (x : Crew) : (s.setCrew c x).copies = s.copies := rfl
@[simp] theorem State.setCrew_nextCopy (s : State) (c : Nat) (x : Crew) : (s.setCrew c x).nextCopy = s.nextCopy := rfl
@[simp] theorem State.setCrew_requests (s : State) (c : Nat) (x : Crew) : (s.setCrew c x).requests = s.requests := rfl
@[simp] theorem State.setCrew_beads (s : State) (c : Nat) (x : Crew) : (s.setCrew c x).beads = s.beads := rfl
@[simp] theorem State.setCrew_dieBeadOwner (s : State) (c : Nat) (x : Crew) : (s.setCrew c x).dieBeadOwner = s.dieBeadOwner := rfl
@[simp] theorem State.setCrew_frontEnds (s : State) (c : Nat) (x : Crew) : (s.setCrew c x).frontEnds = s.frontEnds := rfl
@[simp] theorem State.setCrew_channels (s : State) (c : Nat) (x : Crew) : (s.setCrew c x).channels = s.channels := rfl
@[simp] theorem State.setCrew_ports (s : State) (c : Nat) (x : Crew) : (s.setCrew c x).ports = s.ports := rfl
@[simp] theorem State.setCrew_smallPool (s : State) (c : Nat) (x : Crew) : (s.setCrew c x).smallPool = s.smallPool := rfl
@[simp] theorem State.setCrew_largePool (s : State) (c : Nat) (x : Crew) : (s.setCrew c x).largePool = s.largePool := rfl
@[simp] theorem State.setCrew_globalRing (s : State) (c : Nat) (x : Crew) : (s.setCrew c x).globalRing = s.globalRing := rfl
@[simp] theorem State.setCrew_chead (s : State) (c : Nat) (x : Crew) : (s.setCrew c x).chead = s.chead := rfl
@[simp] theorem State.setCrew_ctail (s : State) (c : Nat) (x : Crew) : (s.setCrew c x).ctail = s.ctail := rfl
@[simp] theorem State.setCrew_command (s : State) (c : Nat) (x : Crew) : (s.setCrew c x).command = s.command := rfl
@[simp] theorem State.setCrew_cresult (s : State) (c : Nat) (x : Crew) : (s.setCrew c x).cresult = s.cresult := rfl
@[simp] theorem State.setCrew_hostData (s : State) (c : Nat) (x : Crew) : (s.setCrew c x).hostData = s.hostData := rfl
@[simp] theorem State.setCrew_doe (s : State) (c : Nat) (x : Crew) : (s.setCrew c x).doe = s.doe := rfl
@[simp] theorem State.setCrew_shoot (s : State) (c : Nat) (x : Crew) : (s.setCrew c x).shoot = s.shoot := rfl
@[simp] theorem State.setCrew_dies (s : State) (c : Nat) (x : Crew) : (s.setCrew c x).dies = s.dies := rfl
@[simp] theorem State.setCrew_boot (s : State) (c : Nat) (x : Crew) : (s.setCrew c x).boot = s.boot := rfl
@[simp] theorem State.setCrew_flash (s : State) (c : Nat) (x : Crew) : (s.setCrew c x).flash = s.flash := rfl
@[simp] theorem State.setCrew_errLog (s : State) (c : Nat) (x : Crew) : (s.setCrew c x).errLog = s.errLog := rfl
@[simp] theorem State.setCrew_persistLog (s : State) (c : Nat) (x : Crew) : (s.setCrew c x).persistLog = s.persistLog := rfl
@[simp] theorem State.setCrew_corrected (s : State) (c : Nat) (x : Crew) : (s.setCrew c x).corrected = s.corrected := rfl
@[simp] theorem State.setCrew_power (s : State) (c : Nat) (x : Crew) : (s.setCrew c x).power = s.power := rfl
@[simp] theorem State.setCrew_usedRecord (s : State) (c : Nat) (x : Crew) : (s.setCrew c x).usedRecord = s.usedRecord := rfl
@[simp] theorem State.setCrew_usedFirmware (s : State) (c : Nat) (x : Crew) : (s.setCrew c x).usedFirmware = s.usedFirmware := rfl
@[simp] theorem State.setCrew_tap (s : State) (c : Nat) (x : Crew) : (s.setCrew c x).tap = s.tap := rfl
@[simp] theorem State.setCrew_tapData (s : State) (c : Nat) (x : Crew) : (s.setCrew c x).tapData = s.tapData := rfl
@[simp] theorem State.setCrew_lastContext (s : State) (c : Nat) (x : Crew) : (s.setCrew c x).lastContext = s.lastContext := rfl
@[simp] theorem State.setCrew_inbox (s : State) (c : Nat) (x : Crew) : (s.setCrew c x).inbox = s.inbox := rfl
@[simp] theorem State.setCrew_focus (s : State) (c : Nat) (x : Crew) : (s.setCrew c x).focus = s.focus := rfl
@[simp] theorem State.setCrew_cur (s : State) (c : Nat) (x : Crew) : (s.setCrew c x).cur = s.cur := rfl
@[simp] theorem State.setCrew_last (s : State) (c : Nat) (x : Crew) : (s.setCrew c x).last = s.last := rfl

/-! ### State.setLaunch -/

@[simp] theorem State.setLaunch_mem (s : State) (l : Nat) (x : Launch) : (s.setLaunch l x).mem = s.mem := rfl
@[simp] theorem State.setLaunch_tags (s : State) (l : Nat) (x : Launch) : (s.setLaunch l x).tags = s.tags := rfl
@[simp] theorem State.setLaunch_marked (s : State) (l : Nat) (x : Launch) : (s.setLaunch l x).marked = s.marked := rfl
@[simp] theorem State.setLaunch_stale (s : State) (l : Nat) (x : Launch) : (s.setLaunch l x).stale = s.stale := rfl
@[simp] theorem State.setLaunch_epoch (s : State) (l : Nat) (x : Launch) : (s.setLaunch l x).epoch = s.epoch := rfl
@[simp] theorem State.setLaunch_writes (s : State) (l : Nat) (x : Launch) : (s.setLaunch l x).writes = s.writes := rfl
@[simp] theorem State.setLaunch_roSeen (s : State) (l : Nat) (x : Launch) : (s.setLaunch l x).roSeen = s.roSeen := rfl
@[simp] theorem State.setLaunch_oldMaps (s : State) (l : Nat) (x : Launch) : (s.setLaunch l x).oldMaps = s.oldMaps := rfl
@[simp] theorem State.setLaunch_time (s : State) (l : Nat) (x : Launch) : (s.setLaunch l x).time = s.time := rfl
@[simp] theorem State.setLaunch_tstatLock (s : State) (l : Nat) (x : Launch) : (s.setLaunch l x).tstatLock = s.tstatLock := rfl
@[simp] theorem State.setLaunch_tstatOffset (s : State) (l : Nat) (x : Launch) : (s.setLaunch l x).tstatOffset = s.tstatOffset := rfl
@[simp] theorem State.setLaunch_freeCtr (s : State) (l : Nat) (x : Launch) : (s.setLaunch l x).freeCtr = s.freeCtr := rfl
@[simp] theorem State.setLaunch_owners (s : State) (l : Nat) (x : Launch) : (s.setLaunch l x).owners = s.owners := rfl
@[simp] theorem State.setLaunch_strands (s : State) (l : Nat) (x : Launch) : (s.setLaunch l x).strands = s.strands := rfl
@[simp] theorem State.setLaunch_bundles (s : State) (l : Nat) (x : Launch) : (s.setLaunch l x).bundles = s.bundles := rfl
@[simp] theorem State.setLaunch_crews (s : State) (l : Nat) (x : Launch) : (s.setLaunch l x).crews = s.crews := rfl
@[simp] theorem State.setLaunch_groves (s : State) (l : Nat) (x : Launch) : (s.setLaunch l x).groves = s.groves := rfl
@[simp] theorem State.setLaunch_launches (s : State) (l : Nat) (x : Launch) : (s.setLaunch l x).launches = Tbl.insert s.launches l x := rfl
@[simp] theorem State.setLaunch_stays (s : State) (l : Nat) (x : Launch) : (s.setLaunch l x).stays = s.stays := rfl
@[simp] theorem State.setLaunch_nextBundle (s : State) (l : Nat) (x : Launch) : (s.setLaunch l x).nextBundle = s.nextBundle := rfl
@[simp] theorem State.setLaunch_cores (s : State) (l : Nat) (x : Launch) : (s.setLaunch l x).cores = s.cores := rfl
@[simp] theorem State.setLaunch_tiles (s : State) (l : Nat) (x : Launch) : (s.setLaunch l x).tiles = s.tiles := rfl
@[simp] theorem State.setLaunch_savedTiles (s : State) (l : Nat) (x : Launch) : (s.setLaunch l x).savedTiles = s.savedTiles := rfl
@[simp] theorem State.setLaunch_ctxs (s : State) (l : Nat) (x : Launch) : (s.setLaunch l x).ctxs = s.ctxs := rfl
@[simp] theorem State.setLaunch_copies (s : State) (l : Nat) (x : Launch) : (s.setLaunch l x).copies = s.copies := rfl
@[simp] theorem State.setLaunch_nextCopy (s : State) (l : Nat) (x : Launch) : (s.setLaunch l x).nextCopy = s.nextCopy := rfl
@[simp] theorem State.setLaunch_requests (s : State) (l : Nat) (x : Launch) : (s.setLaunch l x).requests = s.requests := rfl
@[simp] theorem State.setLaunch_beads (s : State) (l : Nat) (x : Launch) : (s.setLaunch l x).beads = s.beads := rfl
@[simp] theorem State.setLaunch_dieBeadOwner (s : State) (l : Nat) (x : Launch) : (s.setLaunch l x).dieBeadOwner = s.dieBeadOwner := rfl
@[simp] theorem State.setLaunch_frontEnds (s : State) (l : Nat) (x : Launch) : (s.setLaunch l x).frontEnds = s.frontEnds := rfl
@[simp] theorem State.setLaunch_channels (s : State) (l : Nat) (x : Launch) : (s.setLaunch l x).channels = s.channels := rfl
@[simp] theorem State.setLaunch_ports (s : State) (l : Nat) (x : Launch) : (s.setLaunch l x).ports = s.ports := rfl
@[simp] theorem State.setLaunch_smallPool (s : State) (l : Nat) (x : Launch) : (s.setLaunch l x).smallPool = s.smallPool := rfl
@[simp] theorem State.setLaunch_largePool (s : State) (l : Nat) (x : Launch) : (s.setLaunch l x).largePool = s.largePool := rfl
@[simp] theorem State.setLaunch_globalRing (s : State) (l : Nat) (x : Launch) : (s.setLaunch l x).globalRing = s.globalRing := rfl
@[simp] theorem State.setLaunch_chead (s : State) (l : Nat) (x : Launch) : (s.setLaunch l x).chead = s.chead := rfl
@[simp] theorem State.setLaunch_ctail (s : State) (l : Nat) (x : Launch) : (s.setLaunch l x).ctail = s.ctail := rfl
@[simp] theorem State.setLaunch_command (s : State) (l : Nat) (x : Launch) : (s.setLaunch l x).command = s.command := rfl
@[simp] theorem State.setLaunch_cresult (s : State) (l : Nat) (x : Launch) : (s.setLaunch l x).cresult = s.cresult := rfl
@[simp] theorem State.setLaunch_hostData (s : State) (l : Nat) (x : Launch) : (s.setLaunch l x).hostData = s.hostData := rfl
@[simp] theorem State.setLaunch_doe (s : State) (l : Nat) (x : Launch) : (s.setLaunch l x).doe = s.doe := rfl
@[simp] theorem State.setLaunch_shoot (s : State) (l : Nat) (x : Launch) : (s.setLaunch l x).shoot = s.shoot := rfl
@[simp] theorem State.setLaunch_dies (s : State) (l : Nat) (x : Launch) : (s.setLaunch l x).dies = s.dies := rfl
@[simp] theorem State.setLaunch_boot (s : State) (l : Nat) (x : Launch) : (s.setLaunch l x).boot = s.boot := rfl
@[simp] theorem State.setLaunch_flash (s : State) (l : Nat) (x : Launch) : (s.setLaunch l x).flash = s.flash := rfl
@[simp] theorem State.setLaunch_errLog (s : State) (l : Nat) (x : Launch) : (s.setLaunch l x).errLog = s.errLog := rfl
@[simp] theorem State.setLaunch_persistLog (s : State) (l : Nat) (x : Launch) : (s.setLaunch l x).persistLog = s.persistLog := rfl
@[simp] theorem State.setLaunch_corrected (s : State) (l : Nat) (x : Launch) : (s.setLaunch l x).corrected = s.corrected := rfl
@[simp] theorem State.setLaunch_power (s : State) (l : Nat) (x : Launch) : (s.setLaunch l x).power = s.power := rfl
@[simp] theorem State.setLaunch_usedRecord (s : State) (l : Nat) (x : Launch) : (s.setLaunch l x).usedRecord = s.usedRecord := rfl
@[simp] theorem State.setLaunch_usedFirmware (s : State) (l : Nat) (x : Launch) : (s.setLaunch l x).usedFirmware = s.usedFirmware := rfl
@[simp] theorem State.setLaunch_tap (s : State) (l : Nat) (x : Launch) : (s.setLaunch l x).tap = s.tap := rfl
@[simp] theorem State.setLaunch_tapData (s : State) (l : Nat) (x : Launch) : (s.setLaunch l x).tapData = s.tapData := rfl
@[simp] theorem State.setLaunch_lastContext (s : State) (l : Nat) (x : Launch) : (s.setLaunch l x).lastContext = s.lastContext := rfl
@[simp] theorem State.setLaunch_inbox (s : State) (l : Nat) (x : Launch) : (s.setLaunch l x).inbox = s.inbox := rfl
@[simp] theorem State.setLaunch_focus (s : State) (l : Nat) (x : Launch) : (s.setLaunch l x).focus = s.focus := rfl
@[simp] theorem State.setLaunch_cur (s : State) (l : Nat) (x : Launch) : (s.setLaunch l x).cur = s.cur := rfl
@[simp] theorem State.setLaunch_last (s : State) (l : Nat) (x : Launch) : (s.setLaunch l x).last = s.last := rfl

/-! ### State.setByte -/

@[simp] theorem State.setByte_mem (s : State) (a : Nat) (v : Byte) : (s.setByte a v).mem = Tbl.put 0 s.mem a v := rfl
@[simp] theorem State.setByte_tags (s : State) (a : Nat) (v : Byte) : (s.setByte a v).tags = s.tags := rfl
@[simp] theorem State.setByte_marked (s : State) (a : Nat) (v : Byte) : (s.setByte a v).marked = s.marked := rfl
@[simp] theorem State.setByte_stale (s : State) (a : Nat) (v : Byte) : (s.setByte a v).stale = s.stale := rfl
@[simp] theorem State.setByte_epoch (s : State) (a : Nat) (v : Byte) : (s.setByte a v).epoch = s.epoch := rfl
@[simp] theorem State.setByte_writes (s : State) (a : Nat) (v : Byte) : (s.setByte a v).writes = s.writes := rfl
@[simp] theorem State.setByte_roSeen (s : State) (a : Nat) (v : Byte) : (s.setByte a v).roSeen = s.roSeen := rfl
@[simp] theorem State.setByte_oldMaps (s : State) (a : Nat) (v : Byte) : (s.setByte a v).oldMaps = s.oldMaps := rfl
@[simp] theorem State.setByte_time (s : State) (a : Nat) (v : Byte) : (s.setByte a v).time = s.time := rfl
@[simp] theorem State.setByte_tstatLock (s : State) (a : Nat) (v : Byte) : (s.setByte a v).tstatLock = s.tstatLock := rfl
@[simp] theorem State.setByte_tstatOffset (s : State) (a : Nat) (v : Byte) : (s.setByte a v).tstatOffset = s.tstatOffset := rfl
@[simp] theorem State.setByte_freeCtr (s : State) (a : Nat) (v : Byte) : (s.setByte a v).freeCtr = s.freeCtr := rfl
@[simp] theorem State.setByte_owners (s : State) (a : Nat) (v : Byte) : (s.setByte a v).owners = s.owners := rfl
@[simp] theorem State.setByte_strands (s : State) (a : Nat) (v : Byte) : (s.setByte a v).strands = s.strands := rfl
@[simp] theorem State.setByte_bundles (s : State) (a : Nat) (v : Byte) : (s.setByte a v).bundles = s.bundles := rfl
@[simp] theorem State.setByte_crews (s : State) (a : Nat) (v : Byte) : (s.setByte a v).crews = s.crews := rfl
@[simp] theorem State.setByte_groves (s : State) (a : Nat) (v : Byte) : (s.setByte a v).groves = s.groves := rfl
@[simp] theorem State.setByte_launches (s : State) (a : Nat) (v : Byte) : (s.setByte a v).launches = s.launches := rfl
@[simp] theorem State.setByte_stays (s : State) (a : Nat) (v : Byte) : (s.setByte a v).stays = s.stays := rfl
@[simp] theorem State.setByte_nextBundle (s : State) (a : Nat) (v : Byte) : (s.setByte a v).nextBundle = s.nextBundle := rfl
@[simp] theorem State.setByte_cores (s : State) (a : Nat) (v : Byte) : (s.setByte a v).cores = s.cores := rfl
@[simp] theorem State.setByte_tiles (s : State) (a : Nat) (v : Byte) : (s.setByte a v).tiles = s.tiles := rfl
@[simp] theorem State.setByte_savedTiles (s : State) (a : Nat) (v : Byte) : (s.setByte a v).savedTiles = s.savedTiles := rfl
@[simp] theorem State.setByte_ctxs (s : State) (a : Nat) (v : Byte) : (s.setByte a v).ctxs = s.ctxs := rfl
@[simp] theorem State.setByte_copies (s : State) (a : Nat) (v : Byte) : (s.setByte a v).copies = s.copies := rfl
@[simp] theorem State.setByte_nextCopy (s : State) (a : Nat) (v : Byte) : (s.setByte a v).nextCopy = s.nextCopy := rfl
@[simp] theorem State.setByte_requests (s : State) (a : Nat) (v : Byte) : (s.setByte a v).requests = s.requests := rfl
@[simp] theorem State.setByte_beads (s : State) (a : Nat) (v : Byte) : (s.setByte a v).beads = s.beads := rfl
@[simp] theorem State.setByte_dieBeadOwner (s : State) (a : Nat) (v : Byte) : (s.setByte a v).dieBeadOwner = s.dieBeadOwner := rfl
@[simp] theorem State.setByte_frontEnds (s : State) (a : Nat) (v : Byte) : (s.setByte a v).frontEnds = s.frontEnds := rfl
@[simp] theorem State.setByte_channels (s : State) (a : Nat) (v : Byte) : (s.setByte a v).channels = s.channels := rfl
@[simp] theorem State.setByte_ports (s : State) (a : Nat) (v : Byte) : (s.setByte a v).ports = s.ports := rfl
@[simp] theorem State.setByte_smallPool (s : State) (a : Nat) (v : Byte) : (s.setByte a v).smallPool = s.smallPool := rfl
@[simp] theorem State.setByte_largePool (s : State) (a : Nat) (v : Byte) : (s.setByte a v).largePool = s.largePool := rfl
@[simp] theorem State.setByte_globalRing (s : State) (a : Nat) (v : Byte) : (s.setByte a v).globalRing = s.globalRing := rfl
@[simp] theorem State.setByte_chead (s : State) (a : Nat) (v : Byte) : (s.setByte a v).chead = s.chead := rfl
@[simp] theorem State.setByte_ctail (s : State) (a : Nat) (v : Byte) : (s.setByte a v).ctail = s.ctail := rfl
@[simp] theorem State.setByte_command (s : State) (a : Nat) (v : Byte) : (s.setByte a v).command = s.command := rfl
@[simp] theorem State.setByte_cresult (s : State) (a : Nat) (v : Byte) : (s.setByte a v).cresult = s.cresult := rfl
@[simp] theorem State.setByte_hostData (s : State) (a : Nat) (v : Byte) : (s.setByte a v).hostData = s.hostData := rfl
@[simp] theorem State.setByte_doe (s : State) (a : Nat) (v : Byte) : (s.setByte a v).doe = s.doe := rfl
@[simp] theorem State.setByte_shoot (s : State) (a : Nat) (v : Byte) : (s.setByte a v).shoot = s.shoot := rfl
@[simp] theorem State.setByte_dies (s : State) (a : Nat) (v : Byte) : (s.setByte a v).dies = s.dies := rfl
@[simp] theorem State.setByte_boot (s : State) (a : Nat) (v : Byte) : (s.setByte a v).boot = s.boot := rfl
@[simp] theorem State.setByte_flash (s : State) (a : Nat) (v : Byte) : (s.setByte a v).flash = s.flash := rfl
@[simp] theorem State.setByte_errLog (s : State) (a : Nat) (v : Byte) : (s.setByte a v).errLog = s.errLog := rfl
@[simp] theorem State.setByte_persistLog (s : State) (a : Nat) (v : Byte) : (s.setByte a v).persistLog = s.persistLog := rfl
@[simp] theorem State.setByte_corrected (s : State) (a : Nat) (v : Byte) : (s.setByte a v).corrected = s.corrected := rfl
@[simp] theorem State.setByte_power (s : State) (a : Nat) (v : Byte) : (s.setByte a v).power = s.power := rfl
@[simp] theorem State.setByte_usedRecord (s : State) (a : Nat) (v : Byte) : (s.setByte a v).usedRecord = s.usedRecord := rfl
@[simp] theorem State.setByte_usedFirmware (s : State) (a : Nat) (v : Byte) : (s.setByte a v).usedFirmware = s.usedFirmware := rfl
@[simp] theorem State.setByte_tap (s : State) (a : Nat) (v : Byte) : (s.setByte a v).tap = s.tap := rfl
@[simp] theorem State.setByte_tapData (s : State) (a : Nat) (v : Byte) : (s.setByte a v).tapData = s.tapData := rfl
@[simp] theorem State.setByte_lastContext (s : State) (a : Nat) (v : Byte) : (s.setByte a v).lastContext = s.lastContext := rfl
@[simp] theorem State.setByte_inbox (s : State) (a : Nat) (v : Byte) : (s.setByte a v).inbox = s.inbox := rfl
@[simp] theorem State.setByte_focus (s : State) (a : Nat) (v : Byte) : (s.setByte a v).focus = s.focus := rfl
@[simp] theorem State.setByte_cur (s : State) (a : Nat) (v : Byte) : (s.setByte a v).cur = s.cur := rfl
@[simp] theorem State.setByte_last (s : State) (a : Nat) (v : Byte) : (s.setByte a v).last = s.last := rfl

/-! ### Lookups after updates -/

theorem State.owner_setOwner (s : State) (o : Nat) (x : Owner) (j : Nat) :
    (s.setOwner o x).owner j = if j = o then x else s.owner j := Tbl.getD_insert ..
theorem State.strand_setStrand (s : State) (i : Nat) (x : Strand) (j : Nat) :
    (s.setStrand i x).strand j = if j = i then x else s.strand j := Tbl.getD_insert ..
theorem State.core_setCore (s : State) (c : Nat) (x : CoreState) (j : Nat) :
    (s.setCore c x).core j = if j = c then x else s.core j := Tbl.getD_insert ..
theorem State.tile_setTile (s : State) (k : Nat) (x : Tile) (j : Nat) :
    (s.setTile k x).tile j = if j = k then x else s.tile j := Tbl.getD_insert ..
theorem State.ctx_setCtx (s : State) (c : Nat) (x : Context) (j : Nat) :
    (s.setCtx c x).ctx j = if j = c then x else s.ctx j := Tbl.getD_insert ..

/-- A byte after a write: the value written there, every other byte as it was. -/
theorem State.byte_setByte (s : State) (a : Nat) (v : Byte) (j : Nat) :
    (s.setByte a v).byte j = if j = a then v else s.byte j := Tbl.getD_put ..

@[simp] theorem State.owner_setStrand (s : State) (i : Nat) (x : Strand) (o : Nat) : (s.setStrand i x).owner o = s.owner o := rfl
@[simp] theorem State.strand_setOwner (s : State) (o : Nat) (x : Owner) (i : Nat) : (s.setOwner o x).strand i = s.strand i := rfl
@[simp] theorem State.byte_setOwner (s : State) (o : Nat) (x : Owner) (a : Nat) : (s.setOwner o x).byte a = s.byte a := rfl
@[simp] theorem State.byte_setStrand (s : State) (i : Nat) (x : Strand) (a : Nat) : (s.setStrand i x).byte a = s.byte a := rfl

/-- s(r) after a write of s(d): s0 stays zero, every other register of every other owner stays (03 R56). -/
theorem State.getS_setS (s : State) (o : Nat) (d : BitVec 6) (x : Tagged 64) (j : Nat) (r : BitVec 6) :
    (s.setS o d x).getS j r = if j = o ∧ r = d ∧ d ≠ 0 then x else s.getS j r := by
  unfold State.setS State.getS
  by_cases hd : d = 0
  · subst hd; simp
  · simp only [hd, if_false, State.owner_setOwner]
    by_cases hr : r = 0
    · subst hr
      rw [if_pos rfl, if_pos rfl, if_neg (fun h => hd h.2.1.symm)]
    · by_cases hj : j = o
      · subst hj
        simp only [hr, if_false, if_true, Tbl.getD_put, true_and, ne_eq, hd, not_false_eq_true, and_true]
        by_cases h : r = d
        · simp [h]
        · rw [if_neg (fun e => h (BitVec.eq_of_toNat_eq e)), if_neg h]
      · simp [hj]

/-- v(n) after a write of a lane register. -/
theorem State.getV_setV (s : State) (i n : Nat) (x : Tagged 32) (j m : Nat) :
    (s.setV i n x).getV j m = if j = i ∧ m = n then x else s.getV j m := by
  unfold State.setV State.getV
  rw [State.strand_setStrand]
  by_cases hj : j = i
  · subst hj; simp [Tbl.getD_put]
  · simp [hj]

/-- A lane write leaves every scalar register alone, and a scalar write every lane register. -/
@[simp] theorem State.getS_setV (s : State) (i n : Nat) (x : Tagged 32) (o : Nat) (r : BitVec 6) :
    (s.setV i n x).getS o r = s.getS o r := rfl
@[simp] theorem State.getV_setS (s : State) (o : Nat) (d : BitVec 6) (x : Tagged 64) (i n : Nat) :
    (s.setS o d x).getV i n = s.getV i n := by unfold State.setS; split <;> rfl

/-! ### Writes of several bytes -/

/-- A little-endian write reads back as it was written at the addresses it covers, and leaves every other byte alone. -/
theorem State.byte_writeLE (s : State) (pa n v j : Nat) :
    (s.writeLE pa n v).byte j = if pa ≤ j ∧ j < pa + n then BitVec.ofNat 8 (v / 256 ^ (j - pa)) else s.byte j := by
  induction n generalizing s pa v with
  | zero => rw [State.writeLE]; split <;> [omega; rfl]
  | succ n ih =>
    rw [State.writeLE, ih, State.byte_setByte]
    by_cases h1 : pa + 1 ≤ j ∧ j < pa + 1 + n
    · have e : j - pa = (j - (pa + 1)) + 1 := by omega
      rw [if_pos h1, if_pos (by omega), e, Nat.pow_succ', Nat.div_div_eq_div_mul]
    · rw [if_neg h1]
      by_cases h2 : j = pa
      · subst h2; simp
      · rw [if_neg h2, if_neg (by omega)]

/-- A little-endian write changes memory alone. -/
theorem State.writeLE_rest (s : State) (pa n v : Nat) : s.writeLE pa n v = { s with mem := (s.writeLE pa n v).mem } := by
  induction n generalizing s pa v with
  | zero => rfl
  | succ n ih => rw [State.writeLE]; rw [ih]; rfl

/-- Writes keep the canonical form of memory. -/
theorem State.setByte_canonical (s : State) (a : Nat) (v : Byte) (h : Tbl.canonical (0 : Byte) s.mem = true) :
    Tbl.canonical (0 : Byte) (s.setByte a v).mem = true := Tbl.canonical_put a v h

theorem State.writeLE_canonical (s : State) (pa n v : Nat) (h : Tbl.canonical (0 : Byte) s.mem = true) :
    Tbl.canonical (0 : Byte) (s.writeLE pa n v).mem = true := by
  induction n generalizing s pa v with
  | zero => exact h
  | succ n ih => exact ih _ _ _ (State.setByte_canonical s _ _ h)

theorem State.writeBytes_canonical (s : State) (pa : Nat) (bs : List Byte) (h : Tbl.canonical (0 : Byte) s.mem = true) :
    Tbl.canonical (0 : Byte) (s.writeBytes pa bs).mem = true := by
  induction bs generalizing s pa with
  | nil => exact h
  | cons b rest ih => exact ih _ _ (State.setByte_canonical s _ _ h)

theorem State.hubWrite_canonical (s : State) (pa n v : Nat) (h : Tbl.canonical (0 : Byte) s.mem = true) :
    Tbl.canonical (0 : Byte) (s.hubWrite pa n v).mem = true := by
  unfold State.hubWrite; split
  · exact State.writeLE_canonical s pa n v h
  · exact h

end Sys2Proof.Machine
end

