-- ==== Sys2Proof/Laws/Forms.lean ====
section
/-! SUPPORT. The operand forms: everything that a scalar, lane or floating result can do, said once for each form. -/

namespace Sys2Proof.Machine

open Sys2Proof (Guard)

/-! ### Frames are reflexive and compose -/

theorem ScalarFrame.refl (s : State) (os : List Nat) (d : BitVec 6) : ScalarFrame s s os d :=
  ⟨rfl, fun _ => rfl, fun _ _ _ => rfl, fun _ => rfl⟩

theorem ScalarFrame.trans {s t u : State} {os ps qs : List Nat} {d : BitVec 6} (h : ScalarFrame s t os d)
    (k : ScalarFrame t u ps d) (ho : ∀ o, o ∈ os → o ∈ qs) (hp : ∀ o, o ∈ ps → o ∈ qs) : ScalarFrame s u qs d where
  rest := by rw [k.rest, h.rest]
  owner o := by rw [k.owner o, h.owner o]
  reg o r hr := by
    rw [k.reg o r (fun e => hr ⟨hp o e.1, e.2⟩), h.reg o r (fun e => hr ⟨ho o e.1, e.2⟩)]
  byte a := (k.byte a).trans (h.byte a)

theorem LaneFrame.refl (s : State) (is : List Nat) (ns : Nat → Prop) : LaneFrame s s is ns :=
  ⟨rfl, fun _ => rfl, fun _ _ _ => rfl, fun _ => rfl⟩

theorem LaneFrame.trans {s t u : State} {os ps qs : List Nat} {ns : Nat → Prop} (h : LaneFrame s t os ns)
    (k : LaneFrame t u ps ns) (ho : ∀ o, o ∈ os → o ∈ qs) (hp : ∀ o, o ∈ ps → o ∈ qs) : LaneFrame s u qs ns where
  rest := by rw [k.rest, h.rest]
  strand o := by rw [k.strand o, h.strand o]
  reg o r hr := by
    rw [k.reg o r (fun e => hr ⟨hp o e.1, e.2⟩), h.reg o r (fun e => hr ⟨ho o e.1, e.2⟩)]
  byte a := (k.byte a).trans (h.byte a)

/-! ### One write -/

theorem State.setS_frame (s : State) (o : Nat) (d : BitVec 6) (x : Tagged 64) : ScalarFrame s (s.setS o d x) [o] d where
  rest := by unfold State.setS; split <;> rfl
  owner j := by
    unfold State.setS; split
    · rfl
    · rw [State.owner_setOwner]; split
      · subst_vars; rfl
      · rfl
  reg j r h := by
    rw [State.getS_setS, if_neg]
    exact fun e => h ⟨by simp [e.1], e.2.1⟩
  byte a := by unfold State.setS; split <;> rfl

theorem State.setV_frame (s : State) (i n : Nat) (x : Tagged 32) : LaneFrame s (s.setV i n x) [i] (fun m => m = n) where
  rest := rfl
  strand j := by
    unfold State.setV; rw [State.strand_setStrand]; split
    · subst_vars; rfl
    · rfl
  reg j m h := by
    rw [State.getV_setV, if_neg]
    exact fun e => h ⟨by simp [e.1], e.2⟩
  byte a := rfl

/-! ### Scalar results -/

/-- Each owner of the list receives its own value, computed from what the state held before any write. -/
theorem foldl_setS (d : BitVec 6) (f : Nat → State → Tagged 64)
    (hf : ∀ o j s x, j ≠ o → f o (s.setS j d x) = f o s) (os : List Nat) (hn : os.Nodup) (s : State) :
    let t := os.foldl (fun u o => u.setS o d (f o u)) s
    (∀ o, o ∈ os → t.getS o d = if d = 0 then .zero 64 else f o s) ∧ ScalarFrame s t os d := by
  induction os generalizing s with
  | nil => exact ⟨fun o h => by simp at h, ScalarFrame.refl ..⟩
  | cons o os ih =>
    obtain ⟨ho, hn⟩ := List.nodup_cons.1 hn
    obtain ⟨hv, hr⟩ := ih hn (s.setS o d (f o s))
    refine ⟨fun j hj => ?_, (State.setS_frame s o d _).trans hr (by simp) (by intro j hj; simp [hj])⟩
    rw [List.foldl_cons]
    by_cases h : j = o
    · subst h
      rw [hr.reg j d (fun e => ho e.1), State.getS_setS]
      by_cases hd : d = 0
      · subst hd; rw [if_pos rfl, if_neg (by simp)]; rfl
      · rw [if_pos ⟨rfl, rfl, hd⟩, if_neg hd]
    · rw [hv j (by simpa [h] using hj), hf j o s _ (Ne.symm h)]

/-- What `scalar0` writes and leaves. -/
theorem scalar0_spec (s : State) (d : BitVec 6) (v : Dword) (hn : s.cur.owners.Nodup) :
    (∀ o, o ∈ s.cur.owners → (scalar0 s d v).getS o d = if d = 0 then .zero 64 else ⟨v, none⟩) ∧
      ScalarFrame s (scalar0 s d v) s.cur.owners d :=
  foldl_setS d (fun _ _ => ⟨v, none⟩) (fun _ _ _ _ _ => rfl) _ hn s

/-- What `scalar1` writes and leaves. -/
theorem scalar1_spec (s : State) (d a : BitVec 6) (f : Dword → Dword) (hn : s.cur.owners.Nodup) :
    (∀ o, o ∈ s.cur.owners → (scalar1 s d a f).getS o d = if d = 0 then .zero 64 else (s.getS o a).map1 f) ∧
      ScalarFrame s (scalar1 s d a f) s.cur.owners d :=
  foldl_setS d (fun o t => (t.getS o a).map1 f)
    (fun o j s x h => by simp [State.getS_setS, Ne.symm h]) _ hn s

/-- What `scalar2` writes and leaves. -/
theorem scalar2_spec (s : State) (d a b : BitVec 6) (f : Dword → Dword → Dword) (hn : s.cur.owners.Nodup) :
    (∀ o, o ∈ s.cur.owners → (scalar2 s d a b f).getS o d =
      if d = 0 then .zero 64 else Tagged.map2 f (s.getS o a) (s.getS o b)) ∧
      ScalarFrame s (scalar2 s d a b f) s.cur.owners d :=
  foldl_setS d (fun o t => Tagged.map2 f (t.getS o a) (t.getS o b))
    (fun o j s x h => by simp [State.getS_setS, Ne.symm h]) _ hn s

/-- What `scalar3` writes and leaves. -/
theorem scalar3_spec (s : State) (d a b : BitVec 6) (f : Dword → Dword → Dword → Dword) (hn : s.cur.owners.Nodup) :
    (∀ o, o ∈ s.cur.owners → (scalar3 s d a b f).getS o d =
      if d = 0 then .zero 64 else Tagged.map3 f (s.getS o a) (s.getS o b) (s.getS o d)) ∧
      ScalarFrame s (scalar3 s d a b f) s.cur.owners d :=
  foldl_setS d (fun o t => Tagged.map3 f (t.getS o a) (t.getS o b) (t.getS o d))
    (fun o j s x h => by simp [State.getS_setS, Ne.symm h]) _ hn s

/-! ### Lane results -/

/-- Each strand of the list receives its own value, computed from what the state held before any write. -/
theorem foldl_setV (n : Nat) (f : Nat → State → Tagged 32)
    (hf : ∀ i j s x, j ≠ i → f i (s.setV j n x) = f i s) (is : List Nat) (hn : is.Nodup) (s : State) :
    let t := is.foldl (fun u i => u.setV i n (f i u)) s
    (∀ i, i ∈ is → t.getV i n = f i s) ∧ LaneFrame s t is (fun m => m = n) := by
  induction is generalizing s with
  | nil => exact ⟨fun o h => by simp at h, LaneFrame.refl ..⟩
  | cons i is ih =>
    obtain ⟨hi, hn⟩ := List.nodup_cons.1 hn
    obtain ⟨hv, hr⟩ := ih hn (s.setV i n (f i s))
    refine ⟨fun j hj => ?_, (State.setV_frame s i n _).trans hr (by simp) (by intro j hj; simp [hj])⟩
    rw [List.foldl_cons]
    by_cases h : j = i
    · subst h
      rw [hr.reg j n (fun e => hi e.1), State.getV_setV]; simp
    · rw [hv j (by simpa [h] using hj), hf j i s _ (Ne.symm h)]

/-- What `lane0` writes and leaves. -/
theorem lane0_spec (g : Guard) (s : State) (d : BitVec 6) (v : Word) (hn : (actingStrands s g).Nodup) :
    (∀ i, i ∈ actingStrands s g → (lane0 g s d v).laneV i d = ⟨v, none⟩) ∧
      LaneFrame s (lane0 g s d v) (actingStrands s g) (fun n => n = d.toNat) :=
  foldl_setV d.toNat (fun _ _ => ⟨v, none⟩) (fun _ _ _ _ _ => rfl) _ hn s

/-- What `lane1` writes and leaves. -/
theorem lane1_spec (g : Guard) (s : State) (d a : BitVec 6) (f : Word → Word) (hn : (actingStrands s g).Nodup) :
    (∀ i, i ∈ actingStrands s g → (lane1 g s d a f).laneV i d = (s.laneV i a).map1 f) ∧
      LaneFrame s (lane1 g s d a f) (actingStrands s g) (fun n => n = d.toNat) :=
  foldl_setV d.toNat (fun i t => (t.laneV i a).map1 f)
    (fun i j s x h => by simp [State.laneV, State.getV_setV, Ne.symm h]) _ hn s

/-- What `lane2` writes and leaves. -/
theorem lane2_spec (g : Guard) (s : State) (d a b : BitVec 6) (f : Word → Word → Word) (hn : (actingStrands s g).Nodup) :
    (∀ i, i ∈ actingStrands s g → (lane2 g s d a b f).laneV i d = Tagged.map2 f (s.laneV i a) (s.laneV i b)) ∧
      LaneFrame s (lane2 g s d a b f) (actingStrands s g) (fun n => n = d.toNat) :=
  foldl_setV d.toNat (fun i t => Tagged.map2 f (t.laneV i a) (t.laneV i b))
    (fun i j s x h => by simp [State.laneV, State.getV_setV, Ne.symm h]) _ hn s

/-- What `lane3` writes and leaves. -/
theorem lane3_spec (g : Guard) (s : State) (d a b : BitVec 6) (f : Word → Word → Word → Word)
    (hn : (actingStrands s g).Nodup) :
    (∀ i, i ∈ actingStrands s g →
      (lane3 g s d a b f).laneV i d = Tagged.map3 f (s.laneV i a) (s.laneV i b) (s.laneV i d)) ∧
      LaneFrame s (lane3 g s d a b f) (actingStrands s g) (fun n => n = d.toNat) :=
  foldl_setV d.toNat (fun i t => Tagged.map3 f (t.laneV i a) (t.laneV i b) (t.laneV i d))
    (fun i j s x h => by simp [State.laneV, State.getV_setV, Ne.symm h]) _ hn s

/-! ### Floating results -/

/-- Flags occupy ACR bits [4:0], and joining flags joins their bits (02 R40). -/
theorem FFlags.toNat_or (x y : FFlags) :
    BitVec.ofNat 64 (x.or y).toNat = BitVec.ofNat 64 x.toNat ||| BitVec.ofNat 64 y.toNat := by
  obtain ⟨a, b, c, d, e⟩ := x
  obtain ⟨a', b', c', d', e'⟩ := y
  revert a b c d e a' b' c' d' e'
  decide +kernel

theorem FFlags.toNat_none : FFlags.none.toNat = 0 := rfl

/-- What raising flags leaves in each owner. -/
theorem State.owner_raise (s : State) (o : Nat) (f : FFlags) (j : Nat) :
    (s.raise o f).owner j = { s.owner j with
      acr := (s.owner j).acr ||| BitVec.ofNat 64 (if o = j then f else FFlags.none).toNat,
      acrNext := (s.owner j).acrNext.map (fun x => x ||| BitVec.ofNat 64 (if o = j then f else FFlags.none).toNat) } := by
  unfold State.raise
  split
  · subst_vars
    have : (if o = j then FFlags.none else FFlags.none) = FFlags.none := by split <;> rfl
    rw [this]
    cases h : s.owner j; simp [FFlags.toNat_none]
  · rw [State.owner_setOwner]
    by_cases h : j = o
    · subst h; simp
    · rw [if_neg h, if_neg (fun e => h e.symm)]
      cases h : s.owner j; simp [FFlags.toNat_none]

/-- Raising flags leaves the rounding mode and the flush bit (02 R40). -/
theorem acr_bits_or_flags (a : Dword) (f : FFlags) :
    acrMode (a ||| BitVec.ofNat 64 f.toNat) = acrMode a ∧ acrFz (a ||| BitVec.ofNat 64 f.toNat) = acrFz a ∧
      acrOfs (a ||| BitVec.ofNat 64 f.toNat) = acrOfs a := by
  have h : f.toNat < 32 := by
    obtain ⟨a, b, c, d, e⟩ := f
    revert a b c d e; decide
  refine ⟨?_, ?_, ?_⟩
  · unfold acrMode
    congr 1
    rw [BitVec.toNat_or, BitVec.toNat_ofNat, Nat.mod_eq_of_lt (by omega : f.toNat < 2 ^ 64)]
    have e : ∀ n : Nat, n / 32 = n >>> 5 := fun n => by rw [Nat.shiftRight_eq_div_pow]
    rw [e, e, Nat.shiftRight_or_distrib, ← e f.toNat, Nat.div_eq_of_lt h]; simp
  · unfold acrFz
    rw [BitVec.getLsbD_or, BitVec.getLsbD_ofNat, Nat.testBit_lt_two_pow (by omega)]; simp
  · unfold acrOfs
    rw [BitVec.getLsbD_or, BitVec.getLsbD_ofNat, Nat.testBit_lt_two_pow (by omega)]; simp

end Sys2Proof.Machine
end

