-- ==== Sys2Proof/Laws/Memory.lean ====
section
/-! SUPPORT. Memory: what a read finds after a write, and that every operation on memory and on the tags of its granules keeps
the canonical form. -/

namespace Sys2Proof.Machine

/-! ### One byte and several -/

/-- What is written little-endian is what the same read finds, as far as it fits. -/
theorem State.readLE_writeLE_self (s : State) (pa n v : Nat) : (s.writeLE pa n v).readLE pa n = v % 256 ^ n := by
  have h : ∀ (k : Nat), ∀ q, pa ≤ q → q + k ≤ pa + n →
      (s.writeLE pa n v).readLE q k = v / 256 ^ (q - pa) % 256 ^ k := by
    intro k
    induction k with
    | zero => intro q _ _; simp [State.readLE, Nat.mod_one]
    | succ k ih =>
      intro q hq hk
      rw [State.readLE, ih (q + 1) (by omega) (by omega), State.byte_writeLE, if_pos (by omega), BitVec.toNat_ofNat,
        show q + 1 - pa = (q - pa) + 1 from by omega, Nat.pow_succ 256 (q - pa), ← Nat.div_div_eq_div_mul,
        Nat.pow_succ' (n := k), Nat.mod_mul]
  simpa using h n pa le_rfl le_rfl

/-- A read of bytes that a write leaves alone finds what it found before. -/
theorem State.readLE_congr {s t : State} {pa n : Nat} (h : ∀ a, pa ≤ a → a < pa + n → t.byte a = s.byte a) :
    t.readLE pa n = s.readLE pa n := by
  induction n generalizing pa with
  | zero => rfl
  | succ n ih =>
    rw [State.readLE, State.readLE, h pa le_rfl (by omega), ih (fun a h1 h2 => h a (by omega) (by omega))]

theorem State.readLE_writeLE_apart (s : State) (pa n v q k : Nat) (h : q + k ≤ pa ∨ pa + n ≤ q) :
    (s.writeLE pa n v).readLE q k = s.readLE q k :=
  State.readLE_congr fun a h1 h2 => by rw [State.byte_writeLE, if_neg (by omega)]

theorem Tbl.find_eraseRange {α : Type} (t : Tbl α) (lo hi j : Nat) :
    Tbl.find? (Tbl.eraseRange t lo hi) j = if lo ≤ j ∧ j < hi then none else Tbl.find? t j := by
  induction t with
  | nil => simp [Tbl.eraseRange]
  | cons e rest ih =>
    obtain ⟨k, v⟩ := e
    simp only [Tbl.eraseRange]
    by_cases h : lo ≤ k ∧ k < hi
    · rw [if_pos h, ih]; by_cases e : k = j
      · subst e; rw [if_pos h, if_pos h]
      · simp [Tbl.find?, e]
    · rw [if_neg h]; simp only [Tbl.find?]; by_cases e : k = j
      · subst e; simp [h]
      · simp [e, ih]

/-! ### The canonical form -/

theorem Tbl.eraseRange_eq_filter {α : Type} (t : Tbl α) (lo hi : Nat) :
    Tbl.eraseRange t lo hi = t.filter (fun e => !(decide (lo ≤ e.1) && decide (e.1 < hi))) := by
  induction t with
  | nil => rfl
  | cons e rest ih =>
    obtain ⟨k, v⟩ := e
    simp only [Tbl.eraseRange, List.filter]
    by_cases h : lo ≤ k ∧ k < hi
    · simp [h.1, h.2, ih]
    · rw [if_neg h, ih]
      have : (!(decide (lo ≤ k) && decide (k < hi))) = true := by simp; omega
      rw [this]

/-- A state whose memory and tags are those of a state in canonical form is in canonical form. -/
theorem State.Inv.of_eq {s t : State} (h : s.Inv) (hm : t.mem = s.mem) (ht : t.tags = s.tags) : t.Inv :=
  ⟨by rw [hm]; exact h.mem, by rw [ht]; exact h.tags⟩

theorem State.Inv.setByte {s : State} (h : s.Inv) (pa : Nat) (v : Byte) : (s.setByte pa v).Inv :=
  ⟨Tbl.canonical_put _ _ h.mem, h.tags⟩

theorem State.Inv.writeLE {s : State} (h : s.Inv) (pa n v : Nat) : (s.writeLE pa n v).Inv := by
  induction n generalizing s pa v with
  | zero => exact h
  | succ n ih => exact ih (h.setByte pa _) ..

theorem State.Inv.writeBytes {s : State} (h : s.Inv) (pa : Nat) (bs : List Byte) : (s.writeBytes pa bs).Inv := by
  induction bs generalizing s pa with
  | nil => exact h
  | cons b bs ih => exact ih (h.setByte pa b) _

theorem State.Inv.hubWrite {s : State} (h : s.Inv) (pa n v : Nat) : (s.hubWrite pa n v).Inv := by
  unfold State.hubWrite; split
  · exact h.writeLE ..
  · exact h

theorem State.Inv.zeroMem {s : State} (h : s.Inv) (pa n : Nat) : (s.zeroMem pa n).Inv :=
  ⟨by simpa [State.zeroMem, Memory.wf, Tbl.eraseRange_eq_filter] using Tbl.canonical_filter _ h.mem,
   by simpa [State.zeroMem, Tbl.eraseRange_eq_filter] using Tbl.canonical_filter _ h.tags⟩

/-- What holds of a state and is kept by each step of a fold holds of the fold. -/
theorem foldl_keeps {α σ : Type} (P : σ → Prop) (f : σ → α → σ) (hf : ∀ s a, P s → P (f s a)) (l : List α) (s : σ)
    (h : P s) : P (l.foldl f s) := by
  induction l generalizing s with
  | nil => exact h
  | cons a l ih => exact ih _ (hf s a h)

/-- Keeping replaced words changes nothing but what is kept (08 R181, R182). -/
theorem State.noteFold_eq {α : Type} (x : State → OldWord) (w : α → Nat) (l : List α) (s : State) :
    l.foldl (fun t a => t.noteWord (x t) (w a)) s = { s with stale := (l.foldl (fun t a => t.noteWord (x t) (w a)) s).stale } :=
  foldl_keeps (fun t : State => t = { s with stale := t.stale }) (fun t a => t.noteWord (x t) (w a)) (fun t a h => by
    show ({ t with stale := (t.noteWord (x t) (w a)).stale } : State) = _
    generalize (t.noteWord (x t) (w a)).stale = z
    rw [h]) l s rfl

/-- Keeping the words of a frame that is overwritten changes nothing but what is kept (08 R178). -/
theorem State.noteFrame_eq (s : State) (ws : List Nat) : s.noteFrame ws = { s with stale := (s.noteFrame ws).stale } :=
  State.noteFold_eq (fun _ => { s.oldWord 1 with gone := 0 }) id ws s

/-- Keeping the words that a store replaces changes nothing but what is kept, and counts the store (08 R181). -/
theorem State.noteStore_eq (s : State) (x : OldWord) (pa n : Nat) :
    s.noteStore x pa n = { s with stale := (s.noteStore x pa n).stale, writes := (s.noteStore x pa n).writes } := by
  unfold State.noteStore; split
  · rfl
  · rw [State.noteFold_eq (fun _ => x) (fun i => 4 * (pa / 4 + i))]

theorem State.Inv.copyMem {s : State} (h : s.Inv) (dst src n : Nat) : (s.copyMem dst src n).Inv :=
  foldl_keeps State.Inv _ (fun _ _ k => k.setByte _ _) _ _
    ⟨by simpa [Memory.wf, Tbl.eraseRange_eq_filter] using Tbl.canonical_filter _ h.mem, by rw [State.noteFrame_eq]; exact h.tags⟩

theorem State.Inv.ringWrite {s : State} (h : s.Inv) (r : EventRing) (ds : List Dword) : (s.ringWrite r ds).Inv :=
  foldl_keeps State.Inv _ (fun _ _ k => k.hubWrite _ _ _) _ _ h

/-- Remembering the table entries that a store replaces changes nothing else (15 R263, log 12). -/
theorem State.noteEntries_eq (s : State) (pa n : Nat) :
    s.noteEntries pa n = { s with oldMaps := (s.noteEntries pa n).oldMaps } := by
  unfold State.noteEntries; split
  · rfl
  · refine foldl_keeps (fun t : State => t = { s with oldMaps := t.oldMaps }) _ (fun t i h => ?_) _ _ rfl
    unfold State.noteEntry; dsimp only; split
    · rw [h]
    · exact h

/-- Remembering the words that a store replaces leaves memory and its tags (log 11). -/
theorem State.noteWords_keeps (s : State) (pa n stage : Nat) :
    (s.noteWords pa n stage).mem = s.mem ∧ (s.noteWords pa n stage).tags = s.tags := by
  unfold State.noteWords
  rw [State.noteEntries_eq, State.noteStore_eq]
  exact ⟨rfl, rfl⟩

/-- Where no older form of an entry is held, an access uses the present translation (15 R263). -/
theorem State.translate_settled {s : State} {ctx va : Nat} (h : s.oldWalks ctx va = []) :
    s.translate ctx va = (s.walk ctx va, s) := by
  simp [State.translate, h]

theorem State.oldWalks_nil {s : State} (h : s.oldMaps = []) (ctx va : Nat) : s.oldWalks ctx va = [] := by
  simp [State.oldWalks, h]

theorem State.Inv.noteWords {s : State} (h : s.Inv) (pa n stage : Nat) : (s.noteWords pa n stage).Inv :=
  h.of_eq (s.noteWords_keeps ..).1 (s.noteWords_keeps ..).2

/-- Setting a granule's tag keeps the canonical form of the tags (04 R119). -/
theorem State.Inv.setTag {s : State} (h : s.Inv) (g : Nat) (v : BitVec 4) : State.Inv { s with tags := Tbl.put 0 s.tags g v } :=
  ⟨h.mem, Tbl.canonical_put _ _ h.tags⟩

/-- The state after reset lists no byte and no tag. -/
theorem reset_inv : State.reset.Inv := ⟨rfl, rfl⟩

end Sys2Proof.Machine
end

