-- ==== Sys2Proof/Tests/Slice0.lean ====
section
/-! SUPPORT. Tests: ill-formed terms that the well-formedness check refuses, words of the spec's own encodings, a few single
steps against the spec's worked examples, and for every statement a state that meets its hypotheses. -/

namespace Sys2Proof.Tests

set_option Elab.async false

open Sys2Proof Sys2Proof.Machine Sys2Proof.Claims

/-! ### Well-formedness: one ill-formed term for each check -/

def g0 : Guard := ⟨0, false⟩
def gNot0 : Guard := ⟨0, true⟩
def g2 : Guard := ⟨2, false⟩
def noTail : CopyTail := ⟨0, false, false, 0, 0⟩
def noMat : MatTail := ⟨false, 0, 0⟩

theorem test_smoke_guard : ∀ e ∈ [(Profile.raster, Instr.iadd gNot0 1 2 3 false), (.tile, .lds g2 1 2 false 0)],
    WellFormed e.1 e.2 = false := by decide +kernel

theorem test_smoke_base : ∀ e ∈ [(Profile.raster, Instr.ld32 g0 1 32 true 0), (.tile, .lds g0 1 2 true 0)],
    WellFormed e.1 e.2 = false := by decide +kernel

theorem test_smoke_profile : ∀ e ∈ [(Profile.tile, Instr.ld32 g0 1 2 false 0), (.tile, .iadd g0 1 2 3 false), (.tile, .barCrew 0),
    (.tile, .millEnter), (.raster, .region 0), (.raster, .vadd 1 2 3 0 false), (.raster, .mfence noMat), (.raster, .ldq g0 1 2 false 0),
    (.tile, .meshDone g0 1 2), (.tile, .guideBind 1 2 3 noTail), (.raster, .cpyWb 0 noTail), (.raster, .push 1 2 3 false 0 noTail)],
    WellFormed e.1 e.2 = false := by decide +kernel

theorem test_smoke_control : ∀ e ∈ [(Profile.raster, Instr.brac false 8 false 4), (.tile, .brac false 1 false 4), (.tile, .brx 1 true),
    (.raster, .brx 32 true), (.raster, .ret 32), (.raster, .barCrew 8), (.raster, .barGrove 4), (.raster, .barArrive 1 2 7),
    (.raster, .barArrive 1 2 16), (.raster, .barWait 1 2 7), (.raster, .fence 32), (.raster, .fence 7), (.raster, .fencePromote 7),
    (.raster, .chk 3 1), (.tile, .chk 1 1), (.raster, .chk 2 32), (.tile, .chk 3 32), (.raster, .chk 4 0), (.raster, .split 1 16),
    (.raster, .sread 0x50 1), (.tile, .sread 0x12 1), (.raster, .sread 0x13 1), (.raster, .sread 0x42 1), (.raster, .swrite 1 1)],
    WellFormed e.1 e.2 = false := by decide +kernel

theorem test_smoke_scalar_lane : ∀ e ∈ [(Profile.raster, Instr.cmpp 6 1 1 2), (.raster, .mbx 1 2 8), (.raster, .wid 1 6), (.raster, .wid 1 22),
    (.tile, .wid 1 0), (.raster, .icmp g0 6 1 1 2), (.raster, .fcmpF32 g0 7 1 1 2), (.raster, .frndF32 g0 1 2 5),
    (.raster, .cvtI32F32 g0 1 2 5), (.raster, .cvtN32F32 g0 1 2 7), (.raster, .v2s g0 1 32 0 true)],
    WellFormed e.1 e.2 = false := by decide +kernel

theorem test_smoke_vector : ∀ e ∈ [(Profile.tile, Instr.vcmp 6 1 2 0), (.tile, .vqnt 1 2 5 0 false), (.tile, .vdqnt 1 2 13 0 false),
    (.tile, .vcvt 1 2 6 0 false), (.tile, .vpush 3 1), (.tile, .vpush 6 1), (.tile, .vpushs 6 1 1), (.tile, .vpushs 7 1 1),
    (.tile, .vpushs 5 0 0), (.tile, .vshape 6 0 0 0 false), (.tile, .vshape 1 0 0 2 false), (.tile, .vshape 1 2 1 0 false),
    (.tile, .vshape 1 2 1 0 true), (.tile, .vrnd 1 2 5 0 false), (.tile, .vsat 1 2 13 0 false)],
    WellFormed e.1 e.2 = false := by decide +kernel

theorem test_smoke_matrix : ∀ e ∈ [(Profile.tile, Instr.mldb 385 0 false false noMat), (.tile, .mldb 0 30 false false noMat),
    (.tile, .mldb 0 28 false true noMat), (.tile, .mmaBf16 385 0 0 false noMat), (.tile, .mmaBf16 0 385 0 false noMat),
    (.tile, .mmaBf16 0 0 30 false noMat), (.tile, .mmaMx8 0 0 0 false 3 noMat), (.tile, .mmasMx4 0 0 29 false 0 noMat),
    (.tile, .mmasMx8 0 0 0 false 3 noMat), (.tile, .mmvMx4 0 31 0 0 false 0 0 noMat), (.tile, .mmvMx4 0 0 1 0 true 0 0 noMat),
    (.tile, .mmvMx4 0 0 0 0 false 0 2 noMat), (.tile, .mmvMx8 0 0 0 0 false 0 3 noMat), (.tile, .mmvBf16 0 0 0 30 false 0 noMat),
    (.tile, .mzero 0 31 false true noMat), (.tile, .mzero 0 1 false false noMat), (.tile, .mscale 385 0 false noMat),
    (.tile, .mcvt 0 0 128 false 6 false noMat), (.tile, .mcvt 0 1 0 false 3 false noMat), (.tile, .mcvt 0 1 128 false 1 false noMat),
    (.tile, .mcbk 0 31 false 0 noMat), (.tile, .mtrn 0 0 64 0 0 noMat), (.tile, .mtrn 0 25 128 0 0 noMat)],
    WellFormed e.1 e.2 = false := by decide +kernel

theorem test_smoke_memory : ∀ e ∈ [(Profile.raster, Instr.ld64 g0 32 1 false 0), (.raster, .ld128 g0 1 1 false 0),
    (.raster, .ld128 g0 32 1 false 0), (.raster, .st64 g0 32 1 false 0), (.raster, .st128 g0 3 1 false 0),
    (.raster, .atomAdd g0 1 2 3 false 7 0 false 0), (.raster, .atomAdd g0 1 2 3 false 4 0 true 0),
    (.raster, .atomMin g0 1 2 3 false 7 0 true 0), (.tile, .atomsCas g0 1 2 3 false 2 0 true 0), (.raster, .probe g0 32 1 true),
    (.tile, .probe g0 1 1 true), (.tile, .ldq g0 4 1 false 0), (.tile, .stq g0 3 1 false 0), (.raster, .cwb g0 32 1 true),
    (.tile, .icinv g0 1 1 true), (.raster, .pres g0 8 1 false 0), (.raster, .ldS g0 32 1 false 0)],
    WellFormed e.1 e.2 = false := by decide +kernel

theorem test_smoke_copy : ∀ e ∈ [(Profile.raster, Instr.cpyTen 1 2 61 false 0 noTail),
    (.tile, .cpyFeed 1 2 3 385 0 noTail), (.tile, .cpyFeed 1 2 3 0 9 noTail), (.raster, .semSig 1 2 false noTail),
    (.raster, .semWait 1 2 true ⟨3, false, false, 0, 0⟩), (.raster, .semTry 0 2 3 false ⟨3, true, false, 0, 0⟩),
    (.raster, .semRead 0 3 false ⟨3, false, true, 0, 0⟩), (.raster, .semSet 0 3 false ⟨3, false, false, 1, 0⟩),
    (.raster, .cpyRed 1 2 3 2 0 noTail), (.raster, .cpyRed 1 2 3 1 3 noTail), (.raster, .cpyGath 1 2 63 0 noTail),
    (.raster, .cpyScat 1 2 63 0 noTail), (.raster, .cpyAbort ⟨0, false, true, 0, 1⟩), (.raster, .cpyAbort ⟨0, false, false, 1, 1⟩)],
    WellFormed e.1 e.2 = false := by decide +kernel

theorem test_smoke_graphics : ∀ e ∈ [(Profile.raster, Instr.meshOut g0 1 61 2), (.raster, .pixIn g0 1 6), (.raster, .pixBary g0 1 18 false),
    (.raster, .omWrite g0 61 0), (.raster, .omWrite g0 1 8), (.raster, .guideOut g0 61), (.raster, .texSample g0 61 1 2),
    (.raster, .texQuery g0 1 2 5), (.raster, .rayBox g0 60 1 2), (.raster, .rayBox g0 1 53 2), (.raster, .rayTri g0 1 2 32),
    (.raster, .rayInit g0 53 1), (.raster, .rayInit g0 1 57), (.raster, .rayXform g0 1 2 32 true), (.raster, .rayStkPush g0 59 1),
    (.raster, .rayStkPop g0 1 59), (.raster, .rayHit g0 1 61), (.raster, .imgLd g0 61 1 false 0), (.raster, .quadDeriv g0 1 2 4)],
    WellFormed e.1 e.2 = false := by decide +kernel

/-- An event is never code. -/
theorem test_smoke_event : ∀ p ∈ [Profile.raster, Profile.tile], WellFormed p (.matRetire 0) = false := by decide +kernel

/-! ### Decoding and encoding: words written out from the layouts of 01 R16 and the opcode map of R24 -/

/-- BAR.ARRIVE s1, s4, #8 and BAR.WAIT s2, s3, #8 (03 R72): opcodes 0x0C and 0x0D, Format I. -/
theorem test_decode_control :
    decodeWords .raster [0x80602208] = .ok (⟨.barArrive 1 4 8, true, false, false⟩, []) ∧
    decodeWords .raster [0x80684188] = .ok (⟨.barWait 2 3 8, true, false, false⟩, []) := by decide +kernel

/-- Format V: d in [18:14], a in [13:9], b in [8:4], k in [3:1], m in [0]. VADD w1, w2, w3; VQNT to 0x0A; VCVT to FP32; VPUSH q4;
VPUSHS q6; VSHAPE of FP32 with 64 elements. -/
theorem test_decode_vector :
    decodeWords .tile [0x98004430] = .ok (⟨.vadd 1 2 3 0 false, true, false, false⟩, []) ∧
    decodeWords .tile [0x98D844A0] = .ok (⟨.vqnt 1 2 10 0 false, true, false, false⟩, []) ∧
    decodeWords .tile [0x98E84410] = .ok (⟨.vcvt 1 2 1 0 false, true, false, false⟩, []) ∧
    decodeWords .tile [0x99090400] = .ok (⟨.vpush 4 2, true, false, false⟩, []) ∧
    decodeWords .tile [0x99198400] = .ok (⟨.vpushs 6 2 0, true, false, false⟩, []) ∧
    decodeWords .tile [0x99204400] = .ok (⟨.vshape 1 2 0 0 false, true, false, false⟩, []) := by decide +kernel

/-- Class 7: RAY.INIT v10, v2 in Format A, IMG.LD v4, [s2 + 3] in Format D. -/
theorem test_decode_graphics :
    decodeWords .raster [0xB8914100] = .ok (⟨.rayInit g0 10 2, true, false, false⟩, []) ∧
    decodeWords .raster [0xB8B88103] = .ok (⟨.imgLd g0 4 2 false 3, true, false, false⟩, []) := by decide +kernel

/-- STQ q4, [s4 + 0] on a tile, and the same word where the opcode is absent. -/
theorem test_decode_queue :
    decodeWords .tile [0xA8E08200] = .ok (⟨.stq g0 4 4 false 0, true, false, false⟩, []) ∧
    decodeWords .raster [0xA8E08200] = .error .opcodeAbsent := by decide +kernel

/-- What is refused (01 R25): an unassigned opcode, an extension where the format has none, one missing, a bit that must be 0, and
loops whose body ends before it begins (03 R67). -/
theorem test_decode_refused :
    decodeWords .raster [0x81480000] = .error .illegalOpcode ∧ decodeWords .tile [0x9C004430, 0] = .error .illegalLength ∧
    decodeWords .raster [0xD408E3AC] = .error .truncated ∧ decodeWords .raster [0x80000001] = .error .illegalField ∧
    decodeWords .tile [0x80300200] = .error .illegalField := by decide +kernel

/-- The encoder gives the spec's words: IADDI with its guard in the long form (01), ATOM.ADD (04 R112), SEM.SET (22 R353). -/
theorem test_encode :
    encode ⟨.iaddi ⟨2, true⟩ 7 7 300, true, true, true⟩ = [0xD408E3AC, 0x50000002] ∧
    encode ⟨.atomAdd g0 5 3 8 true 5 2 false 0x40, true, true, true⟩ = [0xEC78A191, 0x01600040] ∧
    encode ⟨.semSet 0 9 false ⟨2, false, false, 0, 0⟩, true, false, true⟩ = [0xB4680480, 0x08000000] := by decide +kernel

/-- Every opcode row decodes to itself by number: the row of MMA.MX4 as the opcode table numbers its 64 bits (19). -/
theorem test_table_word : decodeTableWord 64 0x40100901A4380000 = some (.mmaMx4 0 128 4 false 0 ⟨true, 1, 1⟩) := by decide +kernel

/-! ### Small states -/

/-- The conditions that can hold the group back have been found over. -/
def handedOver (s : State) : State := { s with cur := { s.cur with cleared := true } }

/-- One strand of one bundle on core 0, its group handed over; the 64 KiB at virtual address 0 stand at 0x10000. -/
def rs : State := handedOver ((State.reset.place [0x80000000]).standRaster [18432])

/-- The stream of tile 0, its group handed over. -/
def ts : State := handedOver ((State.reset.place [0x98004430]).standTile 0 0 none)

/-- The stream of `ts`. -/
def st0 : Stream := { Stream.fresh 0 0 .plain 0 with running := true, head := some 0 }

/-- What a walk of virtual address 0 finds. -/
def page0 : PageInfo := ⟨0x10000, 65536, 0, 32, false, 0, false, true, true, true⟩

/-- A register of an owner, or of a strand, set. -/
def withS (s : State) (o : Nat) (r : BitVec 6) (v : Dword) : State := s.setS o r ⟨v, none⟩
def withV (s : State) (i n : Nat) (v : Word) : State := s.setV i n ⟨v, none⟩

theorem rs_shape : rs.cur.owners = [288] ∧ rs.cur.owners.Nodup ∧ rs.cur.strands = [18432] ∧ rs.cur.strands.Nodup ∧
    rs.cur.profile = .raster ∧ actingStrands rs g0 = [18432] ∧ (actingStrands rs g0).Nodup ∧ rs.cur.cleared = true := by decide +kernel

theorem rs_one : OneStrand rs g0 18432 := ⟨rs_shape.2.2.2.2.1, rs_shape.2.2.2.2.2.1⟩
theorem rs_raster : OnRaster rs := ⟨rs_shape.2.2.2.2.1, rs_shape.2.2.2.1⟩
theorem ts_tile : OnTile ts 0 st0 := ⟨by decide +kernel, by decide +kernel, by decide +kernel⟩

theorem rs_live : LiveDelivery rs 288 :=
  .inr ⟨0, (Tbl.find? rs.launches 0).getD ((Tbl.find? rs.launches 0).get (by decide +kernel)), by decide +kernel, by decide +kernel,
    by decide +kernel, by decide +kernel⟩
theorem ts_live : LiveDelivery ts 0 :=
  .inr ⟨0, (Tbl.find? ts.launches 0).getD ((Tbl.find? ts.launches 0).get (by decide +kernel)), by decide +kernel, by decide +kernel,
    by decide +kernel, by decide +kernel⟩

/-- An access at the start of the page, and at its end. -/
theorem rs_reach (w t : Bool) : Reach rs 0 16 16 w t 0x10000 page0 ∧ Reach rs 0xFFFF 1 1 w t 0x1FFFF page0 := by
  cases w <;> cases t <;>
    exact ⟨⟨by decide, by decide, by decide +kernel, by decide +kernel, by decide, by decide, by decide, by decide⟩,
           ⟨by decide, by decide, by decide +kernel, by decide +kernel, by decide, by decide, by decide, by decide⟩⟩

/-! ### Witnesses: states that meet the hypotheses of the statements -/

theorem witness_ScalarArithmetic : rs.cur.owners = [288] ∧ rs.cur.owners.Nodup := ⟨rs_shape.1, rs_shape.2.1⟩

theorem witness_LaneIntegers : actingStrands rs g0 = [18432] ∧ (actingStrands rs g0).Nodup :=
  ⟨rs_shape.2.2.2.2.2.1, rs_shape.2.2.2.2.2.2.1⟩

theorem witness_LaneFloats : actingStrands rs ⟨1, true⟩ = [18432] ∧ (actingStrands rs ⟨1, true⟩).Nodup := by decide +kernel

theorem witness_LaneCompares : (actingStrands rs g0).Nodup ∧ (5 : BitVec 3).toNat < 6 ∧
    ∀ i ∈ actingStrands rs g0, (rs.laneV i 1).poison = none ∧ (rs.laneV i 2).poison = none := by decide +kernel

theorem witness_ScalarComparePredicate : rs.cur.owners.Nodup ∧ (5 : BitVec 3).toNat < 6 ∧
    (∀ o ∈ rs.cur.owners, (rs.getS o 1).poison = none ∧ (rs.getS o 2).poison = none) ∧
    ts.cur.owners.Nodup ∧ ∀ o ∈ ts.cur.owners, (ts.getS o 1).poison = none ∧ (ts.getS o 2).poison = none := by decide +kernel

/-- A launch with REPLAY set whose buffer holds the value of its first delivery. -/
def launchR : Launch :=
  { ctx := 0, seq := 1, hdr := [0, 0, 0, 0x0002400000000001, 0, 0, 0x0000FFFF0000FFFF, 0], origin := .hostRing 0 0,
    phase := .running, nextCrew := 1, crewCount := 1, endedCrews := 0, plan := [], book := [], tiles := [], endedTiles := [],
    frags := [], meshes := 0, ordinals := [], replay := some (0x20000, 32), batch := [], trapSeq := 0, begun := none }
def replayed : State := rs.setLaunch 0 launchR

theorem witness_DeliveredScalars :
    (rs.cur.owners = [288] ∧ (7 : BitVec 32).toNat < 8 ∧ (rs.getS 288 1).poison = none) ∧ LiveDelivery rs 288 ∧
    (∀ n ∈ [5, 8, 13, 16, 21], (BitVec.ofNat 32 n).toNat = n ∧ (n < 6 ∨ 8 ≤ n ∧ n < 14 ∨ 16 ≤ n ∧ n < 22)) ∧
    (Tbl.find? rs.bundles 288).isSome = true :=
  ⟨by decide +kernel, rs_live, by decide +kernel, by decide +kernel⟩

theorem witness_DeliveredScalars_replay : replayed.launchOf 288 = some 0 ∧ Tbl.find? replayed.launches 0 = some launchR ∧
    hdrReplay launchR.hdr = true ∧ launchR.replay = some (0x20000, 32) ∧
    replayed.replayEntry (0x20000 : Dword).toNat (replayed.reporterIndex 288) 0
      (Tbl.getD launchR.ordinals (64 * replayed.reporterIndex 288) 0) (32 / 32) = some 0 := by decide +kernel

theorem witness_Shuffles : rs.cur.owners.Nodup ∧ ∃ o ∈ rs.cur.owners, 18432 ∈ rs.liveStrands o ∧ rs.guardOn g0 18432 = true := by
  decide +kernel

theorem witness_StrandToScalar : rs.cur.owners.Nodup ∧ strandKey 288 0 ∈ rs.liveStrands 288 ∧ strandKey 288 63 ∉ rs.liveStrands 288 := by
  decide +kernel

/-! ### Control -/

theorem witness_RasterControl : OnRaster rs ∧ GoodTarget (wordsOn rs 0x100) ∧
    (∀ i ∈ rs.cur.strands, (rs.getS (strandBundle i) 1).poison = none ∧ GoodTarget (rs.getS (strandBundle i) 1).val) ∧
    (∀ i ∈ rs.cur.strands, (rs.getD2 i 1).poison = none ∧ GoodTarget (rs.getD2 i 1).val) ∧
    (∀ i ∈ rs.cur.strands, (rs.strand i).loops.length < 2) ∧
    (∀ i ∈ (withS rs 288 3 0xFFFFFFFF).cur.strands, ((withS rs 288 3 0xFFFFFFFF).strand i).loops.length < 2 ∧
      0 < ((withS rs 288 3 0xFFFFFFFF).getS (strandBundle i) 3).val.toNat ∧
      ((withS rs 288 3 0xFFFFFFFF).getS (strandBundle i) 3).val.toNat < 2 ^ 32) :=
  ⟨rs_raster, by unfold GoodTarget; decide +kernel, by unfold GoodTarget; decide +kernel, by unfold GoodTarget; decide +kernel,
    by decide +kernel, by decide +kernel⟩

/-- A loop of no iterations goes on past its last word: at 0 that word is one word long. -/
theorem witness_RasterControl_skip : rs.afterWord (.strand 18432) (wordsOn rs 0) = .ok (4, rs) := by decide +kernel

theorem witness_TileControl : OnTile ts 0 st0 ∧ GoodTarget (wordsOn ts 0x100) ∧ (ts.getS 0 1).poison = none ∧
    GoodTarget (ts.getS 0 1).val ∧ st0.loops.length < 2 ∧
    (let s := ts.setStream 0 (fun y => { y with queues := [(7, [1, 0])] })
     ∃ y, OnTile s 0 y ∧ Tbl.getD y.queues 7 [] = [1, 0]) ∧
    (let s := withS ts 0 3 0xFFFFFFFF
     OnTile s 0 st0 ∧ 0 < (s.getS 0 3).val.toNat ∧ (s.getS 0 3).val.toNat < 2 ^ 32) :=
  ⟨ts_tile, by unfold GoodTarget; decide +kernel, by decide +kernel, by unfold GoodTarget; decide +kernel, by decide +kernel,
    ⟨{ st0 with queues := [(7, [1, 0])] }, ⟨by decide +kernel, by decide +kernel, by decide +kernel⟩, by decide +kernel⟩,
    ⟨by decide +kernel, by decide +kernel, by decide +kernel⟩, by decide +kernel, by decide +kernel⟩

/-- A strand inside two loops. -/
def looping : State := rs.setStrand 18432 { rs.strand 18432 with loops := [⟨0, 0, 1⟩, ⟨0, 0, 1⟩] }

theorem witness_TrapsTaken :
    (rs.actors ≠ [] ∧ ¬GoodTarget (wordsOn { rs with cur := { rs.cur with pc := 2 } } 0)) ∧
    (looping.actors ≠ [] ∧ (∀ w ∈ looping.actors, (looping.loopsOf w).length = 2)) ∧
    (∃ k, (baseOf (rs.setS 288 2 ⟨0, some 1⟩) 18432 2 false).poison = some k) ∧
    (let s := withS rs 288 2 0x1000000000000000
     (baseOf s 18432 2 false).poison = none ∧ 2 ^ 60 ≤ (addressOf s 18432 2 false (0 : BitVec 31)).toNat) ∧
    (let s := withS rs 288 2 2
     (addressOf s 18432 2 false (1 : BitVec 31)).toNat < 2 ^ 60 ∧ (addressOf s 18432 2 false (1 : BitVec 31)).toNat % 2 ≠ 0) ∧
    OneStrand rs g0 18432 ∧ 288 ∈ rs.cur.allOwners ∧ (rs.ctx rs.cur.ctx).dbgctl.getLsbD 3 = false ∧
    (rs.ctx 0).ring.held.length + rs.cur.allOwners.length ≤ 64 :=
  ⟨⟨by decide +kernel, by unfold GoodTarget; decide +kernel⟩, by decide +kernel, ⟨1, by decide +kernel⟩, by decide +kernel,
    by decide +kernel, rs_one, by decide +kernel, by decide +kernel⟩

/-- A strand whose v3 is poisoned, its bundle's s2 a bad address. -/
def tainted : State := (withS rs 288 2 0x1000000000000000).setV 18432 3 ⟨0, some 1⟩

/-- A store of poisoned data whose base is plain; of plain data at a bad address, and at a misaligned one. -/
theorem witness_TrapsTaken_stores : OneStrand tainted g0 18432 ∧ (baseOf tainted 18432 2 false).poison = none ∧
    (tainted.laneV 18432 3).poison = some 1 ∧ (tainted.getD2 18432 1).poison = some 1 ∧
    (tainted.laneV 18432 4).poison = none ∧ (tainted.getD2 18432 2).poison = none ∧ (tainted.getD2 18432 3).poison = none ∧
    2 ^ 60 ≤ (addressOf tainted 18432 2 false (0 : BitVec 31)).toNat ∧
    (baseOf tainted 18432 0 false).poison = none ∧ (addressOf tainted 18432 0 false (1 : BitVec 31)).toNat = 1 :=
  ⟨⟨by decide +kernel, by decide +kernel⟩, by decide +kernel, by decide +kernel, by decide +kernel, by decide +kernel, by decide +kernel,
    by decide +kernel, by decide +kernel, by decide +kernel, by decide +kernel⟩

theorem witness_Votes : rs.cur.owners.Nodup ∧ (wordClass 0x80480001 = 0 ∧ wordLong 0x80480001 = false ∧ wordOp 0x80480001 = 9 ∧
    (0x80480001 : Word).getLsbD 0 = true) ∧ wordOp 0x80400400 = 8 ∧ 8 ≤ ((0x80400400 : Word).extractLsb' 7 6).toNat := by decide +kernel

/-! ### Barriers, regions and system registers -/

/-- The crew, the stay and the bundle of `rs`. -/
def crew0 : Crew :=
  { launch := 0, index := 0, grove := none, core := some 0, saved := false, started := true, ended := false, seq := 0, bundles := [288],
    scratch := [], absent := [], marked := [], heldSignals := [], bars := [], flumes := [], mill := none, records := [],
    meshes := [], stopping := false }
def stay0 : Stay := ⟨0, some 0, [], [], none⟩
def bundle0 : Bundle :=
  { crew := 0, index := 0, f1 := 0, slot := 0, rot := 0, declared := none, est := 64, touched := [], copyOrd := 0, meshOrd := 0,
    mesh := [], raster := none, rasterRec := none, exited := false }

/-- A group whose conditions have yet to be looked at; and with a second live strand in its bundle. -/
def fresh1 : State := { rs with cur := { rs.cur with cleared := false } }
def fresh2 : State := fresh1.setStrand 18433 (Strand.fresh 0)

theorem rs_tables : rs.crewOf 288 = some (0, crew0) ∧ Tbl.find? rs.crews 0 = some crew0 ∧ Tbl.find? rs.bundles 288 = some bundle0 ∧
    rs.stayOf 288 = some (0, stay0) ∧ Tbl.find? rs.stays 0 = some stay0 ∧ rs.coreOf 288 = some 0 ∧ rs.launchOf 288 = some 0 ∧
    rs.crewId 18432 = 0 := by decide +kernel

theorem witness_BarriersAndWaits_crew :
    fresh1.cur.profile = .raster ∧ fresh1.cur.strands.Nodup ∧ fresh1.cur.strands ≠ [] ∧ fresh1.cur.cleared = false ∧
    (∀ i ∈ fresh1.cur.strands, fresh1.crewOf (strandBundle i) = some (0, crew0) ∧ arrivedGen (fresh1.strand i) false 7 = none ∧
      (fresh1.strand i).stat = .ready) ∧
    (Tbl.getD crew0.bars 7 Barrier.zero).count + fresh1.cur.strands.length = fresh1.crewLive 0 ∧
    (Tbl.getD crew0.bars 7 Barrier.zero).count + fresh2.cur.strands.length < fresh2.crewLive 0 ∧
    (∀ i ∈ fresh2.cur.strands, fresh2.crewOf (strandBundle i) = some (0, crew0) ∧ arrivedGen (fresh2.strand i) false 7 = none ∧
      (fresh2.strand i).stat = .ready) := by decide +kernel

theorem witness_BarriersAndWaits_waits : rs.cur.cleared = true ∧ ts.cur.profile = .tile ∧
    ∀ o ∈ ts.cur.owners, ∀ j : Nat, j < 8 → (0xFF : BitVec 32).getLsbD j = true → ts.tokenBusy o (BitVec.ofNat 3 j) = false := by
  decide +kernel

/-- BAR.ARRIVE on barriers 8 and 15 without a target, and with the target 1 in s4. -/
theorem witness_BarriersAndWaits_core : rs.cur.owners = [288] ∧ rs.stayOf 288 = some (0, stay0) ∧ Tbl.find? rs.stays 0 = some stay0 ∧
    1 = (Tbl.getD stay0.bars 8 Barrier.zero).target.getD (rs.liveBundles stay0.launch (stay0.core.getD 0)) ∧
    (let s := withS rs 288 4 1
     s.stayOf 288 = some (0, stay0) ∧ (s.getS 288 4).poison = none ∧ (s.getS 288 4).val.toNat = 1 ∧
       (Tbl.getD stay0.bars 15 Barrier.zero).target = none) := by decide +kernel

theorem witness_FencesAndChecks : OnRaster rs ∧ OnTile ts 0 st0 ∧ (∀ o ∈ rs.cur.owners, (rs.getS o 1).poison = none) ∧
    (∀ i ∈ rs.cur.strands, (rs.getV i 1).poison = none ∧ (rs.getD2 i 31).poison = none) ∧
    (Tbl.getD st0.w 31 (.zero 2048)).poison = none ∧ ts.cur.cleared = true ∧ (rs.ctx rs.cur.ctx).dbgctl.getLsbD 1 = false :=
  ⟨rs_raster, ts_tile, by decide +kernel, by decide +kernel, by decide +kernel, by decide +kernel, by decide +kernel⟩

/-- CHK of a poisoned register of each file, and BKPT where breakpoints are enabled. -/
theorem witness_FencesAndChecks_traps :
    (let s := rs.setS 288 2 ⟨0, some 1⟩
     s.cur.owners = [288] ∧ (s.getS 288 2).poison = some 1) ∧
    (tainted.cur.strands = [18432] ∧ (tainted.getV 18432 3).poison = some 1 ∧ (tainted.getD2 18432 1).poison = some 1) ∧
    (let s := ts.setStream 0 (fun y => { y with w := [(3, ⟨0, some 1⟩)] })
     s.cur.cleared = true ∧ ∃ y, OnTile s 0 y ∧ (Tbl.getD y.w (y.phys 3) (.zero 2048)).poison = some 1) ∧
    (let s := rs.setCtx 0 { rs.ctx 0 with dbgctl := 2 }
     (s.ctx s.cur.ctx).dbgctl.getLsbD 1 = true ∧ s.actors = [.strand 18432] ∧ s.skipOf (.strand 18432) = none) :=
  ⟨by decide +kernel, by decide +kernel,
    ⟨by decide +kernel, { st0 with w := [(3, ⟨0, some 1⟩)] }, ⟨by decide +kernel, by decide +kernel, by decide +kernel⟩, by decide +kernel⟩,
    by decide +kernel⟩

/-- A strand that runs for a pixel of the launch. -/
def pixel0 : PixelIn :=
  { x := 3, y := 5, coverage := 1, prim := 0, front := true, depth := 0, invW := 0, persp := [], linear := [], sampleDepths := [0],
    launch := 0, record := [], key := [0], guide := true, die := 0 }
def pixelling : State := rs.setStrand 18432 { rs.strand 18432 with pixel := some pixel0 }

theorem witness_RegionAndExit : OnTile ts 0 st0 ∧ ts.cur.cleared = true ∧
    (rs.cur.profile = .raster ∧ rs.cur.strands = [18432] ∧ (rs.strand 18432).pixel = none) ∧
    (pixelling.cur.profile = .raster ∧ pixelling.cur.strands = [18432] ∧ (pixelling.strand 18432).pixel = some pixel0 ∧
      pixel0.launch = 0 ∧ (Tbl.find? pixelling.launches 0).isSome = true) := ⟨ts_tile, by decide +kernel, by decide +kernel, by decide +kernel⟩

theorem witness_SystemRegisters : rs.cur.owners = [288] ∧ rs.cur.cleared = true ∧ LiveDelivery rs 288 ∧ rs.coreOf 288 = some 0 ∧
    (rs.getS 288 1).poison = none ∧ (8 ≤ (15 : BitVec 12).toNat ∧ (15 : BitVec 12).toNat < 16) ∧
    (let s := ts.setStream 0 (fun y => { y with queues := [(6, [7])] })
     ∃ y, OnTile s 0 y ∧ Tbl.getD y.queues 6 [] = [7]) :=
  ⟨by decide +kernel, by decide +kernel, rs_live, by decide +kernel, by decide +kernel, by decide +kernel,
    ⟨{ st0 with queues := [(6, [7])] }, ⟨by decide +kernel, by decide +kernel, by decide +kernel⟩, by decide +kernel⟩⟩

/-! ### Memory -/

theorem witness_GlobalLoads : OneStrand rs g0 18432 ∧ (baseOf rs 18432 0 false).poison = none ∧
    (baseOf rs 18432 1 true).poison = none ∧ addressOf rs 18432 0 false (0 : BitVec 31) = 0 ∧
    Reach rs 0 16 16 false true 0x10000 page0 ∧ Reach rs 0 4 4 false true 0x10000 page0 ∧ rs.isMarked 0x10000 16 = false ∧
    ({ rs with marked := [0x1000] } : State).isMarked 0x10000 4 = true ∧
    Reach { rs with marked := [0x1000] } 0 4 4 false true 0x10000 page0 :=
  ⟨rs_one, by decide +kernel, by decide +kernel, by decide +kernel, (rs_reach false true).1,
    ⟨by decide, by decide, by decide +kernel, by decide +kernel, by decide, by decide, by decide, by decide⟩, by decide +kernel, by decide +kernel,
    ⟨by decide, by decide, by decide +kernel, by decide +kernel, by decide, by decide, by decide, by decide⟩⟩

theorem witness_GlobalStores : OneStrand rs g0 18432 ∧ (baseOf rs 18432 0 false).poison = none ∧ (rs.laneV 18432 3).poison = none ∧
    (rs.getD2 18432 30).poison = none ∧ (rs.getD2 18432 31).poison = none ∧ Reach rs 0 16 16 true true 0x10000 page0 ∧
    Reach rs 0xFFFF 1 1 true true 0x1FFFF page0 ∧ addressOf rs 18432 0 false (0x7FFFFFFF : BitVec 31) = -1#64 :=
  ⟨rs_one, by decide +kernel, by decide +kernel, by decide +kernel, by decide +kernel, (rs_reach true true).1, (rs_reach true true).2,
    by decide +kernel⟩

theorem witness_FormatAccesses : OneStrand rs g0 18432 ∧ (baseOf rs 18432 0 false).poison = none ∧
    (∃ x, rs.elemAccess rs.cur.ctx (baseOf rs 18432 0 false).val (65535 : Int) false = .ok (x, rs) ∧ rs.elemMarked x = false) ∧
    (∃ x, rs.elemAccess rs.cur.ctx (baseOf rs 18432 0 false).val (65535 : Int) true = .ok (x, rs)) ∧ (rs.laneV 18432 1).poison = none ∧
    Reach rs 0 4 4 false true 0x10000 page0 ∧ rs.isMarked 0x10000 4 = false ∧ Tbl.getD rs.stale 0x10000 [] = [] ∧ page0.room 0x10000 4 = 4 := by
  refine ⟨rs_one, by decide +kernel, ⟨⟨0x1FFFF, 65535, page0⟩, by decide +kernel, by decide +kernel⟩, ⟨⟨0x1FFFF, 65535, page0⟩, by decide +kernel⟩,
    by decide +kernel, ⟨by decide, by decide, by decide +kernel, by decide +kernel, by decide, by decide, by decide, by decide⟩, by decide +kernel,
    by decide +kernel⟩

/-- A crew with 128 bytes of scratchpad asked for. -/
def scratched : State := rs.setLaunch 0 { launchR with hdr := [0, 0, 0, 0x0000400000000001, 128, 0, 0x0000FFFF0000FFFF, 0], replay := none }

theorem witness_Scratchpads_raster :
    (let s := withS scratched 288 2 124
     s.cur.cleared = true ∧ (baseOf s 18432 2 false).poison = none ∧ (addressOf s 18432 2 false (0 : BitVec 31)).toNat % 4 = 0 ∧
     s.scratchAt (s.crewId 18432) (addressOf s 18432 2 false (0 : BitVec 31)) = some (0, 124, false) ∧ Tbl.find? s.crews 0 = some crew0 ∧
     s.crewLineAbsent 0 124 = false ∧ s.crewMarked 0 124 4 = false ∧ (s.laneV 18432 1).poison = none ∧ actingStrands s g0 = [18432]) := by
  decide +kernel

theorem witness_Scratchpads_tile : OnTile ts 0 st0 ∧ ts.cur.cleared = true ∧ LiveDelivery ts 0 ∧
    (let s := withS ts 0 2 524280
     (s.getS 0 2).poison = none ∧ (s.getS 0 2).val.toNat % 8 = 0 ∧ (s.getS 0 2).val.toNat + 8 ≤ 524288 ∧
     (s.getS 0 2).val.toNat / 128 ∉ (s.tile 0).absent ∧ (s.tile 0).isMarked (s.getS 0 2).val.toNat 8 = false) ∧
    (let s := withS ts 0 2 524032
     (s.getS 0 2).val.toNat % 32 = 0 ∧ (s.getS 0 2).val.toNat + 256 ≤ 524288 ∧ (Tbl.getD st0.queues 3 []).length < 8) ∧
    (let s := ts.setStream 0 (fun y => { y with queues := [(4, [1])] })
     ∃ y, OnTile s 0 y ∧ Tbl.getD y.queues 4 [] = [1]) :=
  ⟨ts_tile, by decide +kernel, ts_live, by decide +kernel, by decide +kernel,
    ⟨{ st0 with queues := [(4, [1])] }, ⟨by decide +kernel, by decide +kernel, by decide +kernel⟩, by decide +kernel⟩⟩

theorem witness_SpeculativeLoads : OneStrand rs g0 18432 ∧ (baseOf rs 18432 0 false).poison = none ∧
    Reach rs 0 8 8 false true 0x10000 page0 ∧ rs.isMarked 0x10000 8 = false ∧
    (2 ^ 60 ≤ (addressOf (withS rs 288 2 0x1000000000000000) 18432 2 false (0 : BitVec 31)).toNat) ∧
    (addressOf rs 18432 0 false (1 : BitVec 31)).toNat % 8 ≠ 0 ∧ rs.walk 0 0x10000 = .absent ∧
    (addressOf rs 18432 0 false (0x10000 : BitVec 31)) = 0x10000 ∧
    OnTile ts 0 st0 ∧ (ts.getS 0 0).poison = none ∧ ((ts.getS 0 0).val + (1 : BitVec 31).signExtend 64).toNat % 8 = 1 ∧
    ((ts.getS 0 0).val + (524288 : BitVec 31).signExtend 64).toNat = 524288 :=
  ⟨rs_one, by decide +kernel, ⟨by decide, by decide, by decide +kernel, by decide +kernel, by decide, by decide, by decide, by decide⟩, by decide +kernel,
    by decide +kernel, by decide +kernel, by decide +kernel, by decide +kernel, ts_tile, by decide +kernel, by decide +kernel, by decide +kernel⟩

/-- The page at address 0 without R, and with TAG = 1 where the address carries the tag 5 and memory the tag 0. -/
theorem witness_SpeculativeLoads_page :
    (let s := rs.writeBytes 0xC000 (entryBytes (leafE0 1 - 4))
     OneStrand s g0 18432 ∧ s.oldWalks 0 0 = [] ∧ s.walk 0 0 = .page { page0 with canRead := false }) ∧
    (let s := (withS rs 288 2 0x0500000000000000).writeBytes 0xC000 (entryBytes (leafE0 1 ||| 0x80))
     (addressOf s 18432 2 false (0 : BitVec 31)) = 0x0500000000000000 ∧ s.oldWalks 0 0x0500000000000000 = [] ∧
     s.walk 0 0x0500000000000000 = .page { page0 with tagged := true } ∧ Tbl.getD s.tags (0x10000 / 32) 0 = 0) :=
  ⟨⟨⟨by decide +kernel, by decide +kernel⟩, by decide +kernel, by decide +kernel⟩, by decide +kernel⟩

theorem witness_CacheAndTags : OneStrand rs g0 18432 ∧ rs.coreOf (strandBundle 18432) = some 0 ∧
    (rs.getS (strandBundle 18432) 1).poison = none ∧ (rs.getS (strandBundle 18432) 1).val.toNat < 2 ^ 60 ∧
    (∀ o ∈ rs.cur.owners, 288 ≤ o) ∧ Reach rs 0 32 32 true false 0x10000 page0 ∧ Reach rs 0 32 32 false false 0x10000 page0 ∧
    (rs.getD2 18432 31).poison = none ∧ (rs.getD2 18432 31).val.toNat < 2 ^ 60 ∧ (rs.getV 18432 63).poison = none ∧
    (∀ j : Nat, 65536 * j < 65536 → ∃ p, rs.walk 0 (65536 * j) = .page p) :=
  ⟨rs_one, by decide +kernel, by decide +kernel, by decide +kernel, by decide +kernel,
    ⟨by decide, by decide, by decide +kernel, by decide +kernel, by decide, by decide, by decide, by decide⟩,
    ⟨by decide, by decide, by decide +kernel, by decide +kernel, by decide, by decide, by decide, by decide⟩,
    by decide +kernel, by decide +kernel, by decide +kernel,
    fun j h => ⟨page0, by
      obtain rfl : j = 0 := by omega
      decide +kernel⟩⟩

theorem witness_Atomics : OneStrand rs g0 18432 ∧ (rs.laneV 18432 3).poison = none ∧ Reach rs 0 4 4 true true 0x10000 page0 ∧
    rs.isMarked 0x10000 4 = false ∧
    (let s := withS scratched 288 2 124
     s.cur.cleared = true ∧ s.scratchAt (s.crewId 18432) (addressOf s 18432 2 false (0 : BitVec 19)) = some (0, 124, false) ∧
     s.crewLineAbsent 0 124 = false ∧ s.crewMarked 0 124 4 = false) ∧
    (OnTile ts 0 st0 ∧ ts.cur.cleared = true ∧ (ts.getS 0 1).poison = none ∧ ((ts.getS 0 1).val + (524284 : BitVec 64)).toNat + 4 ≤ 524288 ∧
      (524284 / 128) ∉ (ts.tile 0).absent ∧ (ts.tile 0).isMarked 524284 4 = false) ∧
    strandKey 288 0 ∈ rs.liveStrands 288 :=
  ⟨rs_one, by decide +kernel, ⟨by decide, by decide, by decide +kernel, by decide +kernel, by decide, by decide, by decide, by decide⟩, by decide +kernel,
    by decide +kernel, ⟨ts_tile, by decide +kernel, by decide +kernel, by decide +kernel, by decide +kernel, by decide +kernel⟩,
    by decide +kernel⟩

/-- An outcome that is a next state in which nothing has stopped the group. -/
def goesOn (o : Host.Outcome State Fault Refusal) : Bool :=
  match o with
  | .next u => u.last.isNone
  | _ => false

theorem next_of_goesOn {o : Host.Outcome State Fault Refusal} (h : goesOn o = true) : ∃ u, o = .next u ∧ u.last = none := by
  cases o with
  | next u => exact ⟨u, rfl, by simpa [goesOn] using h⟩
  | fault f => simp [goesOn] at h
  | refused f => simp [goesOn] at h

/-- A group of two strands, and a store that completes for the first of them alone. -/
def pair2 : State := { fresh2 with cur := { fresh2.cur with cleared := true, strands := [18432, 18433] } }
theorem witness_GroupsActInOrder :
    (pair2.cur.profile = .raster ∧ pair2.cur.owners ≠ [] ∧ pair2.cur.cleared = true ∧ pair2.last = none ∧
      pair2.cur.strands = [18432] ++ [18433]) ∧
    (∃ u, exec (.st32 g0 1 0 false 0) { pair2 with cur := { pair2.cur with strands := [18432] } } = .next u ∧ u.last = none) :=
  ⟨by decide +kernel, next_of_goesOn (by decide +kernel)⟩

/-- An effect that a Boolean test of its result accepts gives such a result. -/
theorem ok_of_check {ε α : Type} {e : Except ε α} (q : α → Bool)
    (h : (match e with | .ok x => q x | .error _ => false) = true) : ∃ x, e = .ok x ∧ q x = true := by
  cases e with
  | ok x => exact ⟨x, rfl, h⟩
  | error e => simp at h

/-- An access that lies in the placed page. -/
theorem reach0 {s : State} {addr : Dword} {n al : Nat} (w t : Bool) (h : addr.toNat < 65536 ∧ addr.toNat % al = 0)
    (hw : s.walk s.cur.ctx addr.toNat = .page page0) (ho : s.oldMaps = []) : Reach s addr n al w t (0x10000 + addr.toNat % 65536) page0 :=
  ⟨by omega, h.2, hw, State.oldWalks_nil ho _ _, by cases w <;> decide, rfl, by intro k; exact absurd k (by decide), by
    have h1 := h.1
    have h2 : 0x10000 + addr.toNat % 65536 < Config.deviceBytes := by unfold Config.deviceBytes; omega
    unfold paExists
    rw [decide_eq_true h2, Bool.true_or]⟩

/-- Words read from memory that is not uncorrectable. -/
def sound {α : Type} (r : α × Bool × State) : Bool := !r.2.1

/-! ### Beads, leases, launches and records -/

def tail5 : CopyTail := ⟨5, false, false, 0, 0⟩

/-- Bead 5 of the core with a launch that waits at it. -/
def beaded : State :=
  ({ rs with stays := [(0, { stay0 with beads := [(5, ⟨0, false, false, false, [(.launch 1, 0xFFFFFFFF)]⟩)] })] }).setLaunch 1
    { launchR with phase := .waiting }

theorem witness_Beads :
    (let s := withS rs 288 2 0xFFFFFFFF
     s.cur.owners = [288] ∧ s.cur.cleared = true ∧ s.semBead 288 1 false tail5.bead = .ok (.stay 0 5) ∧ s.bead (.stay 0 5) = Bead.zero ∧
       (s.getS 288 2).poison = none ∧ (s.bead (.stay 0 5)).count + (s.getS 288 2).val.toNat % 2 ^ 32 < 2 ^ 32 ∧
       ∀ v ∈ [false, true], s.ownerWait 288 ≠ some (.bead v)) ∧
    (let s := withS beaded 288 2 0xFFFFFFFF
     s.cur.owners = [288] ∧ s.cur.cleared = true ∧ s.semBead 288 1 false tail5.bead = .ok (.stay 0 5) ∧ (s.getS 288 2).poison = none ∧
       s.bead (.stay 0 5) = ⟨0, false, false, false, [(.launch 1, 0xFFFFFFFF)]⟩ ∧
       Tbl.find? s.launches 1 = some { launchR with phase := .waiting }) ∧
    (let s := { withS ts 0 1 0x6400 with dieBeadOwner := [] }
     s.semBead 0 1 true 0 = .ok (.shared 0x6400) ∧ s.semBead 0 1 false 63 = .ok (.shared 0x643F)) ∧
    LiveDelivery rs 288 :=
  ⟨by decide +kernel, by decide +kernel, by decide +kernel, rs_live⟩

/-- Core 0 with a SPLIT to phase 1 whose drain of 300 cycles is under way. -/
def splitting : State := rs.setCore 0 { rs.core 0 with splitting := some (1, 300) }

theorem witness_LeaseAndSplit : rs.cur.owners = [288] ∧ (rs.getS 288 1).poison = none ∧ Tbl.find? rs.bundles 288 = some bundle0 ∧
    LiveDelivery rs 288 ∧ rs.cur.cleared = true ∧ rs.coreOf 288 = some 0 ∧ (splitting.core 0).splitting = some (1, 300) ∧
    (∀ f ∈ splitting.crews, f.2.core = some 0 → f.2.ended = false → f.2.launch = 0) ∧ (0, crew0) ∈ splitting.crews ∧
    (Tbl.find? splitting.launches 0).isSome = true :=
  ⟨by decide +kernel, by decide +kernel, by decide +kernel, rs_live, by decide +kernel, by decide +kernel, by decide +kernel,
    by decide +kernel, by decide +kernel, by decide +kernel⟩

/-- Queue 0 of context 0 with two entries, of which the next is free. -/
def queued : State := rs.setLaunchQueue 0 0 { LaunchQueue.reset with qctl := 1, devTail := 1, devHead := 1 }

theorem witness_LaunchPublishes :
    (rs.cur.owners = [288] ∧ (rs.getS 288 1).poison = none ∧ LiveDelivery rs 288 ∧ Reach rs 0 64 64 false true 0x10000 page0 ∧
      (rs.launchQueue 0 0).size = 0) ∧
    (let s := withS queued 288 1 65472
     s.cur.owners = [288] ∧ (s.getS 288 1).poison = none ∧ LiveDelivery s 288 ∧ (s.getS 288 1).val.toNat % 64 = 0 ∧
     Reach s (s.getS 288 1).val 64 64 false true 0x1FFC0 page0 ∧ ((s.headerAt 0x1FFC0).getD 3 0).toNat / 2 ^ 44 % 8 = 0 ∧
     (s.launchQueue 0 0).size = 2 ∧ (s.ctx 0).live = true ∧ ((s.launchQueue 0 0).devTail + 1) % 2 ≠ (s.launchQueue 0 0).devHead) :=
  ⟨⟨by decide +kernel, by decide +kernel, rs_live, reach0 false true (by decide) (by decide +kernel) (by decide +kernel), by decide +kernel⟩,
   by decide +kernel, by decide +kernel,
   .inr ⟨0, (Tbl.find? rs.launches 0).get (by decide +kernel), by decide +kernel, by decide +kernel, by decide +kernel, by decide +kernel⟩,
   by decide +kernel, reach0 false true (by decide +kernel) (by decide +kernel) (by decide +kernel), by decide +kernel, by decide +kernel, by decide +kernel,
   by decide +kernel⟩

/-- Context 0 with one node of batch 2 and a pool of two slots. -/
def node0 : Node := ⟨[0, 0, 0, 0, 0, 0, 0, 0x20010], [], false, false⟩
def pooled : State :=
  rs.setCtx 0 { rs.ctx 0 with nodes := [(3, node0)], nodeCount := 4, poolBase := 0x100, poolSize := 16, poolCount := 2 }

theorem witness_Records :
    (let s := withS pooled 288 1 3
     s.cur.owners = [288] ∧ s.cur.cleared = true ∧ (s.getS 288 1).poison = none ∧ s.isNode 0 (s.getS 288 1).val.toNat = true ∧
       (s.ctx 0).freeSlots ≠ []) ∧
    (let s := (withS pooled 288 1 0x110).setRecord 0 0x110 (.committable 3)
     s.cur.owners = [288] ∧ (s.getS 288 1).poison = none ∧
       Tbl.find? (s.ctx s.cur.ctx).records (s.getS 288 1).val.toNat = some (.committable 3) ∧
       Tbl.find? (s.ctx s.cur.ctx).nodes 3 = some node0 ∧ node0.aborted = false ∧ node0.pending.length + 1 < hdrBatch node0.hdr) := by
  decide +kernel

/-- Stream 15 of the governor with a step that the reporter began. -/
def governing : State := rs.setGov 0 15 { GovStream.reset with opens := [((rs.reporterLaunch 288, 0), 0)] }

theorem witness_Governor :
    (let s := withS rs 288 1 15
     s.cur.owners = [288] ∧ (s.getS 288 1).poison = none ∧ (s.getS 288 1).val.toNat ≤ 15 ∧ s.replays 288 = false ∧
       (s.govStream 0 15).opens = []) ∧ LiveDelivery rs 288 ∧
    (let s := withS governing 288 1 15
     s.cur.owners = [288] ∧ s.replays 288 = false ∧ s.reporterIndex 288 = 0 ∧
       List.find? (fun e => e.1 == (s.reporterLaunch 288, s.reporterIndex 288)) (s.govStream 0 15).opens =
         some ((s.reporterLaunch 288, s.reporterIndex 288), 0)) ∧
    (let x : GovRequest := ⟨0, 15, 1, 0, 0, 0, .query 288 3⟩
     let y : GovRequest := ⟨0, 15, 1, 0, 0, 0, .start⟩
     (∃ o d, x.kind = .query o d) ∧ y.kind = .start ∧
     ∃ u t, exec (.governorRequestArrival [y]) rs = .next u ∧ exec (.governorRequestArrival [x]) u = .next t) :=
  ⟨by decide +kernel, rs_live, by decide +kernel, ⟨288, 3, rfl⟩, rfl, _, _, rfl, rfl⟩

/-! ### The ray unit and textures -/

/-- A ray stack at v8 of n entries, whose scratchpad place is 0. -/
def stacked (n : Word) : State := withV scratched 18432 8 n

theorem witness_RayUnit : OneStrand rs g0 18432 ∧ rs.blockPoison 18432 52 12 = none ∧ rs.blockPoison 18432 0 8 = none ∧
    (∃ k, (rs.setV 18432 3 ⟨0, some 7⟩).blockPoison 18432 0 8 = some k) ∧ (rs.getD2 18432 4).poison = none ∧
    (∃ r, rs.unitRead 18432 (rs.getD2 18432 4).val 64 2 = .ok r ∧ sound r = true) ∧
    (∃ r, rs.unitRead 18432 (rs.getD2 18432 4).val 16 3 = .ok r ∧ sound r = true) ∧
    Reach rs 0 64 64 false true 0x10000 page0 ∧ rs.isMarked 0x10000 64 = false ∧ rs.stale = [] ∧
    ((stacked 3).getV 18432 8).val.toNat < 4 ∧
    (let s := stacked 36
     OneStrand s g0 18432 ∧ (s.getV 18432 8).poison = none ∧ (s.getV 18432 13).poison = none ∧ (s.getV 18432 9).poison = none ∧
     s.scratchAt (s.crewId 18432) (4 * (36 - 5)) = some (0, 124, false) ∧
     Tbl.find? s.crews 0 = some crew0 ∧ s.crewLineAbsent 0 124 = false ∧ s.crewMarked 0 124 4 = false ∧ s.cur.cleared = true) ∧
    65535 ≤ ((stacked 65535).getV 18432 8).val.toNat ∧ 65536 ≤ ((stacked 65536).getV 18432 8).val.toNat :=
  ⟨rs_one, by decide +kernel, by decide +kernel, ⟨7, by decide +kernel⟩, by decide +kernel,
    ok_of_check sound (by decide +kernel), ok_of_check sound (by decide +kernel),
    reach0 false true (by decide) (by decide +kernel) (by decide +kernel), by decide +kernel, by decide +kernel, by decide +kernel,
    ⟨⟨by decide +kernel, by decide +kernel⟩, by decide +kernel⟩, by decide +kernel, by decide +kernel⟩

/-- The binding of a 4 x 4 texture of raw bytes with four channels and two levels, at virtual address 0x1000 in s2, and what 16 words
of it read as. -/
def textured : State := withS (rs.writeBytes 0x11000 (wordBytes [0x2000, 0, 0x00030003, 0x01910000])) 288 2 0x1000
def binding0 : Binding :=
  { base := 0x2000, fmt := 0, channels := 4, dim := 1, levels := 2, depth := 1, height := 4, width := 4, gcomp := 0, nomip := false,
    mip := false, min := false, mag := false, modes := [0, 0, 0], bias := 0, maxl := 0, minl := 0 }

theorem bound0 (a : BitVec 6) (n : Nat) (h : a.toNat + n ≤ 64) (hp : textured.blockPoison 18432 a.toNat n = none) :
    ∃ u, Bound textured u 18432 a 2 binding0 n := by
  obtain ⟨⟨x, bad, u⟩, e, q⟩ := ok_of_check (e := textured.readBinding 18432 (textured.getS 288 2).val)
    (fun r => decide (r.1 = binding0) && !r.2.1) (by decide +kernel)
  simp only [Bool.and_eq_true, decide_eq_true_eq, Bool.not_eq_true'] at q
  obtain ⟨rfl, rfl⟩ := q
  exact ⟨u, by decide +kernel, e, h, hp⟩

/-- Every form finds the binding; the texels of each can be read. -/
theorem witness_Textures : OneStrand textured g0 18432 ∧
    (∃ u, Bound textured u 18432 62 2 binding0 binding0.coords) ∧ (∃ u, Bound textured u 18432 58 2 binding0 (binding0.coords + 2 * binding0.spatial)) ∧
    (∃ u, Bound textured u 18432 61 2 binding0 (binding0.coords + 1)) ∧ (∃ u, Bound textured u 18432 2 2 binding0 0) ∧
    (textured.coordDerivs 18432 62 2 2 ++ textured.coordDerivs 18432 62 2 3).findSome? Prod.fst = none ∧
    (textured.getV 18432 63).val.toNat < binding0.levels ∧ binding0.levels ≤ ((withV textured 18432 63 2).getV 18432 63).val.toNat ∧
    (∃ r, (textured.readTaps 18432 binding0 (sampleTaps binding0 256 (binding0.sampleAt false [0x3F800000, 0]))) = .ok r ∧ sound r = true) ∧
    (∃ r, (textured.readTaps 18432 binding0 (gatherTaps binding0 (binding0.sampleAt false [0x3F800000, 0]))) = .ok r ∧ sound r = true) ∧
    (∃ r, textured.texel 18432 binding0 1 (fetchIndex binding0 1 [3, 0xFFFFFFFF] 0, fetchIndex binding0 1 [3, 0xFFFFFFFF] 1, some 0) = .ok r ∧
      sound r = true) :=
  ⟨⟨by decide +kernel, by decide +kernel⟩, bound0 62 _ (by decide) (by decide +kernel), bound0 58 _ (by decide) (by decide +kernel),
    bound0 61 _ (by decide) (by decide +kernel), bound0 2 _ (by decide) (by decide +kernel), by decide +kernel, by decide +kernel,
    by decide +kernel, ok_of_check sound (by decide +kernel), ok_of_check sound (by decide +kernel),
    ok_of_check sound (by decide +kernel)⟩

/-! ### Images, meshes, pixels and guide tiles -/

/-- The four elements of the last texel of the page. -/
theorem witness_ImagesAndQuads : OneStrand rs g0 18432 ∧ (baseOf rs 18432 0 false).poison = none ∧
    (∃ e0 e1 e2 e3, rs.imgElems (baseOf rs 18432 0 false).val 16383 false = .ok ([e0, e1, e2, e3], rs) ∧
      ∀ e ∈ [e0, e1, e2, e3], rs.elemMarked e = false) ∧
    (∃ e0 e1 e2 e3, rs.imgElems (baseOf rs 18432 0 false).val 16383 true = .ok ([e0, e1, e2, e3], rs)) ∧
    rs.blockPoison 18432 60 4 = none ∧ (actingStrands rs g0).Nodup :=
  ⟨rs_one, by decide +kernel,
    ⟨⟨0x1FFFC, 65532, page0⟩, ⟨0x1FFFD, 65533, page0⟩, ⟨0x1FFFE, 65534, page0⟩, ⟨0x1FFFF, 65535, page0⟩, by decide +kernel, by decide +kernel⟩,
    ⟨⟨0x1FFFC, 65532, page0⟩, ⟨0x1FFFD, 65533, page0⟩, ⟨0x1FFFE, 65534, page0⟩, ⟨0x1FFFF, 65535, page0⟩, by decide +kernel⟩,
    by decide +kernel, by decide +kernel⟩

/-- A raster record at 0x1000 of a 1 x 1 target, bound to the bundle, and one vertex and primitive named. -/
def recorded : State :=
  withS (rs.writeBytes 0x11000 (wordBytes [0, 0, 0, 0, 0x10001, 0, 0, 0, 1])) 288 2 1
def bound : State := recorded.setBundle 288 { bundle0 with raster := some 0x1000 }

theorem witness_Meshes :
    (let s := withV (withV rs 18432 8 255) 18432 9 4
     OneStrand s g0 18432 ∧ Tbl.find? s.bundles (strandBundle 18432) = some bundle0 ∧ (s.getV 18432 8).poison = none ∧
       (s.getV 18432 9).poison = none ∧ s.blockPoison 18432 60 4 = none ∧ (s.getV 18432 8).val.toNat < 256 ∧
       (s.getV 18432 9).val.toNat ≤ 4) ∧
    (let s := withV (withV rs 18432 8 511) 18432 9 0x1FFFFFF
     256 ≤ (s.getV 18432 8).val.toNat ∧ (s.getV 18432 8).val.toNat < 512 ∧ (s.getV 18432 9).val.toNat < 2 ^ 25) ∧
    (let s := withV (withV rs 18432 8 512) 18432 9 0x2000000
     512 ≤ (s.getV 18432 8).val.toNat ∧ 2 ^ 25 ≤ (s.getV 18432 9).val.toNat) ∧
    (rs.cur.owners = [288] ∧ (∃ i ∈ rs.liveStrands 288, rs.guardOn g0 i = true) ∧ (rs.getS 288 1).poison = none ∧
      ((rs.getS 288 1).val + (256 : BitVec 32).signExtend 64).toNat % 256 = 0 ∧
      ((rs.getS 288 1).val + (255 : BitVec 32).signExtend 64).toNat % 256 ≠ 0 ∧ bundle0.raster = none) ∧
    (bound.cur.owners = [288] ∧ bound.cur.cleared = true ∧ (bound.getS 288 2).val.toNat = 1 ∧ bound.launchOf 288 = some 0 ∧
      (Tbl.find? bound.launches 0).isSome = true ∧ Reach bound 0x1000 256 256 false true 0x11000 page0 ∧
      rasterOk ((List.range 32).map (fun k => bound.readDword (0x11000 + 8 * k))) = true) :=
  ⟨⟨⟨by decide +kernel, by decide +kernel⟩, by decide +kernel⟩, by decide +kernel, by decide +kernel, by decide +kernel,
    by decide +kernel, by decide +kernel, by decide +kernel, by decide +kernel, by decide +kernel,
    reach0 false true (by decide) (by decide +kernel) (by decide +kernel), by decide +kernel⟩

theorem witness_Pixels : OneStrand pixelling g0 18432 ∧ (pixelling.strand 18432).pixel = some pixel0 ∧
    pixelling.blockPoison 18432 60 4 = none ∧ pixel0.guide = true ∧ (pixelling.getV 18432 60).poison = none ∧
    (let s := rs.setStrand 18432 { rs.strand 18432 with pixel := some { pixel0 with guide := false } }
     OneStrand s g0 18432 ∧ ∃ p, (s.strand 18432).pixel = some p ∧ p.guide = false) ∧
    OneStrand rs g0 18432 ∧ (rs.strand 18432).pixel = none :=
  ⟨⟨by decide +kernel, by decide +kernel⟩, by decide +kernel, by decide +kernel, by decide +kernel, by decide +kernel,
    ⟨⟨by decide +kernel, by decide +kernel⟩, { pixel0 with guide := false }, by decide +kernel⟩, rs_one, by decide +kernel⟩

/-- A mesh of the launch without primitives; a front end that has it to rasterise, and one with a pixel of it to start. -/
def mesh0 : Mesh :=
  { launch := 0, bundle := 288, index := 0, ordinal := 0, vertices := 1, prims := 0, area := [], record := [], fz := false, guide := false, die := 0, packed := 0 }
def meshed : State := rs.setFrontEnd 0 ⟨[mesh0], none, [], 0⟩
def packing : State := rs.setFrontEnd 0 ⟨[], some mesh0, [pixel0], 0⟩

/-- A fragment of the launch whose bundles have all exited; its depth 1 fails LESS against the stored 0. -/
def record0 : List Dword := [0, 0, 0x0000022000010001, 0x2000, 1]
def fragment0 : Fragment := ⟨[1], { pixel0 with x := 0, y := 0, record := record0 }, ⟨[], some 0x3F800000, none, false⟩, false⟩
def merging : State :=
  ({ rs with strands := [] }.setBundle 288 { bundle0 with exited := true }).setLaunch 0 { launchR with frags := [fragment0], replay := none }

theorem witness_RasterEvents :
    ((meshed.frontEnd 0).meshes = [mesh0] ∧ (meshed.frontEnd 0).pixels = [] ∧ (Tbl.find? meshed.launches mesh0.launch).isSome = true) ∧
    (rs.frontEnd 2).meshes = [] ∧
    ((packing.frontEnd 0).current = some mesh0 ∧ (packing.frontEnd 0).pixels ≠ [] ∧ Tbl.find? packing.bundles 288 = some bundle0 ∧
      Tbl.find? packing.crews 0 = some crew0 ∧ packing.freeSlot 0 = some 1 ∧ packing.slotsFree 0 ≠ 0 ∧
      packing.granulesOn 0 + hdrRegs (packing.header 0) / 8 ≤ 256) ∧
    (∃ x, Tbl.find? merging.launches 0 = some x ∧ lowestFragment x.frags = some fragment0) ∧ merging.earlierWork 0 fragment0.key = false ∧
    (let s := merging.setFrontEnd 1 ⟨[], none, [pixel0], 0⟩
     s.earlierWork 0 fragment0.key = true) ∧
    (recSamples record0 = 1 ∧ recField record0 2 41 1 = 1 ∧ record0.getD 3 0 ≠ 0 ∧
      depthPass (recField record0 2 37 3) 0x3F800000 0 false = false ∧
      ∃ r, merging.readDepth 0 (0x2000 + 4 * (0 * recPitch record0 + 0)) = .ok r ∧ decide (r.1 = 0) = true) ∧
    (∃ t, merging.mergeOne 0 0 fragment0 = .ok t ∧ true = true) :=
  ⟨by decide +kernel, by decide +kernel, by decide +kernel, ⟨{ launchR with frags := [fragment0], replay := none }, by decide +kernel⟩,
    by decide +kernel, by decide +kernel,
    ⟨by decide +kernel, by decide +kernel, by decide +kernel, by decide +kernel,
      ok_of_check (fun (r : Nat × State) => decide (r.1 = 0)) (by decide +kernel)⟩, ok_of_check (fun _ => true) (by decide +kernel)⟩

/-- Two tiles of the issuer's own die, 64 slots from 262,144 on, beads 63 and 0. -/
def rect2 : Dword := 0xA030001000040000
def channel0 : GuideChannel :=
  { launch := 7, ctx := 0, endpoint := rect2, slots := 64, fill := 63, free := 0, issued := [], observed := [], next := 0, records := [],
    width := 32, height := 16, served := false, done := false }

theorem witness_GuideTiles :
    (let s := withS (withS (withS rs 288 1 rect2) 288 2 64) 288 3 63
     s.cur.owners = [288] ∧ s.cur.cleared = true ∧ (s.getS 288 1).poison = none ∧ (s.getS 288 2).poison = none ∧
     (s.getS 288 3).poison = none ∧ endpointOf (s.getS 288 1).val = some (.rect 0 0 0 1 2 262144) ∧ s.dieOf 288 = 0 ∧
     Tbl.find? s.channels 0 = none ∧ 262144 + 4096 * 64 ≤ 524288 ∧ (s.getS 288 3).val.toNat = 63 % 64 + 2 ^ 16 * (63 / 2 ^ 16 % 64) ∧
     ∀ k ∈ rectTiles 0 0 0 1 2, (s.tile k).owner = none) ∧
    (let s := rs.setChannel 0 channel0
     Tbl.find? s.channels 0 = some channel0 ∧ channel0.next + 1 < channel0.total ∧ s.guidePending channel0 0 = false ∧
     0 / (rectTiles 0 0 0 1 2).length < channel0.slots ∧ s.bead (tileBead 0 63) = Bead.zero) := by decide +kernel

/-- The tile of a guide tile belongs to the context and no image of it is kept. -/
theorem witness_GuideTiles_owned : (let s := (rs.setChannel 0 channel0).setTile 0 { rs.tile 0 with owner := some 0 }
     (s.tile 0).owner = some channel0.ctx ∧ s.lastImage channel0.ctx 0 = none ∧ (s.bead (tileBead 0 63)).bad = false ∧
       channel0.done = false) := by decide +kernel

/-- A fragment that one plain target of 16 bytes receives, at 0x2000 of the page; no depth surface. -/
def record1 : List Dword := [0, 0, 0, 0, 0x0000000000010001, 0, 0, 0, 0x2000, 0, 0, 0, 0, 0, 0, 0, 0xF00]
def fragment1 : Fragment := ⟨[1], { pixel0 with x := 0, y := 0, record := record1 }, ⟨[(0, [1, 2, 3, 4])], none, none, false⟩, false⟩
def painting : State :=
  ({ rs with strands := [] }.setBundle 288 { bundle0 with exited := true }).setLaunch 0 { launchR with frags := [fragment1], replay := none }

theorem witness_RasterEvents_target :
    lowestFragment [fragment1] = some fragment1 ∧ painting.earlierWork 0 fragment1.key = false ∧ recSamples record1 = 1 ∧
    record1.getD 3 0 = 0 ∧ targetBase record1 0 = 0x2000 ∧ targetAny record1 0 = true ∧ targetAll record1 0 = true ∧
    targetBlends record1 0 = false ∧ targetBytes (targetFmt record1 0) = 16 ∧
    painting.globalAccess 0 (BitVec.ofNat 64 0x2000) 16 16 true true = .ok (0x12000, page0, painting) ∧ page0.room 0x12000 16 = 16 ∧
    Memory.wf painting.mem ∧ ∀ k, k < 16 → paExists (0x12000 + k) = true := by decide +kernel

/-! ### Copies and links -/

/-- s1, s2 and s3 of an owner. -/
def with3 (s : State) (o : Nat) (x y z : Dword) : State := withS (withS (withS s o 1 x) o 2 y) o 3 z

theorem copyOf0 {s : State} {o : Nat} (h : s.cur.owners = [o] ∧ s.cur.cleared = true ∧ (s.getS o 1).poison = none ∧
    (s.getS o 2).poison = none ∧ (s.getS o 3).poison = none) : CopyOf s o 1 2 3 := ⟨h.1, h.2.1, h.2.2.1, h.2.2.2.1, h.2.2.2.2⟩

/-- The page as the place of a copy, and 4,096 bytes of it at 0x1000 copied to 0x2000. -/
def lin0 : State := with3 rs 288 0x2000 0x1000 0x1000
def part0 : CopyPart := ⟨.global 0, 0x2000, .global 0, 0x1000, 4096⟩
def copy0 : Copy := copyOf rs 288 tail5 false .plain [part0] 256 (.crew 0)

/-- An inline list, a shape of one dimension and a box of four 32-bit elements. -/
def shape0 : Shape := ⟨1, true, [(4, 4)]⟩
def boxed : State :=
  let s := with3 rs 288 0x2000 0x1000 0
  withS (s.setOwner 288 { s.owner 288 with shapes := [(7, shape0)] }) 288 6 3

theorem witness_CopiesIssue :
    copy0.units ≠ 0 ∧ CopyOf lin0 288 1 2 3 ∧
    ((lin0.getS 288 2).val.toNat + (lin0.getS 288 3).val.toNat ≤ (lin0.getS 288 1).val.toNat ∧ (lin0.getS 288 3).val.toNat < 2 ^ 32) ∧
    PairOk lin0 288 1 2 3 part0 ∧
    (Tbl.find? lin0.bundles 288 = some bundle0 ∧ lin0.copies = []) ∧
    (let s := with3 scratched 288 0x8000000000000070 0 16
     CopyOf s 288 1 2 3 ∧ ∃ d rs, endpointOf (s.getS 288 1).val = some d ∧ s.receivers 288 d = some rs ∧ rs = [(.crew 0, 112)] ∧
       s.shareRangeOk 288 d 16 = true ∧ Side s 288 (s.getS 288 2).val 16 16 (.global 0) 0) ∧
    (let s := (with3 rs 288 0 0xFF0 16).setCtx 0 { rs.ctx 0 with hwsize := 0x1000 }
     CopyOf s 288 1 2 3 ∧ Side s 288 (s.getS 288 1).val 16 16 (.global 0) 0 ∧ (s.getS 288 2).val.toNat + 16 ≤ (s.ctx 0).hwsize.toNat) ∧
    (let s := withS (with3 rs 288 0 0x1000 0x2000) 288 4 2
     CopyOf s 288 1 2 3 ∧ (s.getS 288 4).poison = none ∧ Side s 288 (s.getS 288 3).val 8 4 (.global 0) 0x2000 ∧
       Side s 288 (s.getS 288 1).val (2 * 4096) 16 (.global 0) 0 ∧ Side s 288 (s.getS 288 2).val 0 16 (.global 0) 0x1000) ∧
    (CopyOf boxed 288 1 2 3 ∧ (boxed.getS 288 4).poison = none ∧ (boxed.getS 288 5).poison = none ∧ (boxed.getS 288 6).poison = none ∧
      Tbl.find? (boxed.owner 288).shapes 7 = some shape0 ∧ 4 * 4 % 16 = 0 ∧
      Side boxed 288 (boxed.getS 288 2).val 0 16 (.global 0) 0x1000 ∧ Side boxed 288 (boxed.getS 288 1).val 16 16 (.global 0) 0x2000) ∧
    (let s := with3 rs 288 0 65536 0
     (s.getS 288 1).val.toNat + (s.getS 288 2).val.toNat ≤ 2 ^ 56 ∧ s.wholePages 0 0 65536 = true ∧ (s.ctx 0).shadows = []) := by
  refine ⟨by decide, copyOf0 (by decide +kernel), by decide +kernel, ⟨.global 0x2000, .global 0x1000, by decide +kernel⟩, by decide +kernel,
    ⟨copyOf0 (by decide +kernel), .own 112, [(.crew 0, 112)], by decide +kernel, by decide +kernel, rfl, by decide +kernel,
      ⟨⟨.global 0, by decide +kernel⟩, by decide +kernel, by decide +kernel⟩⟩,
    ⟨copyOf0 (by decide +kernel), ⟨⟨.global 0, by decide +kernel⟩, by decide +kernel, by decide +kernel⟩, by decide +kernel⟩,
    ⟨copyOf0 (by decide +kernel), by decide +kernel, ⟨⟨.global 0x2000, by decide +kernel⟩, by decide +kernel, by decide +kernel⟩,
      ⟨⟨.global 0, by decide +kernel⟩, by decide +kernel, by decide +kernel⟩,
      ⟨⟨.global 0x1000, by decide +kernel⟩, by decide +kernel, by decide +kernel⟩⟩,
    ⟨copyOf0 (by decide +kernel), by decide +kernel, by decide +kernel, by decide +kernel, by decide +kernel, by decide,
      ⟨⟨.global 0x1000, by decide +kernel⟩, by decide +kernel, by decide +kernel⟩,
      ⟨⟨.global 0x2000, by decide +kernel⟩, by decide +kernel, by decide +kernel⟩⟩, by decide +kernel⟩

/-- The last 64 bytes of the tile's scratchpad hold a shape of one dimension. -/
def shaped : State :=
  let s := with3 ts 0 0x800000000007FFC0 0 0
  s.setTile 0 { s.tile 0 with scratch := [(524224, 1), (524226, 1), (524232, 4), (524236, 4)] }

theorem witness_CopiesIssue_shape : CopyOf shaped 0 1 2 3 ∧ endpointOf (shaped.getS 0 1).val = some (.own 524224) ∧
    shaped.placeOf 0 (shaped.getS 0 1).val (.own 524224) = .ok (.tile 0, 524224) ∧ shaped.placeRangeOk (.tile 0) 524224 64 = true ∧
    ∃ bs, shaped.readPlace (.tile 0) 524224 64 = .ok (bs, false, shaped) ∧ (shapeOf (dwordsOf bs)).isSome = true :=
  ⟨copyOf0 (by decide +kernel), by decide +kernel, by decide +kernel, by decide +kernel,
    (List.range 64).map (fun i => (shaped.tile 0).byte (524224 + i)), by decide +kernel, by decide +kernel⟩

/-- Tile 0 with the page of virtual address 0 mapped as MXFP4 over its first 512 lines. -/
def mapped (x y z : Dword) : State :=
  let s := with3 ts 0 x y z
  s.setTile 0 { s.tile 0 with map := [(5, (0, 0x5000000201FF0000))] }

theorem witness_TileCopies :
    (let s := with3 ts 0 0 0x7FFF0 16
     CopyOf s 0 1 2 3 ∧ s.launchOf 0 = some 0 ∧ neighbour 0 1 = some 1 ∧ s.tileFree 0 1 = true) ∧
    (let s := (with3 ts 0 0 16 16).setLaunch 0 { launchR with tiles := [0, 1] }
     CopyOf s 0 1 2 3 ∧ s.launchOf 0 = some 0 ∧ 1 ∈ ({ launchR with tiles := [0, 1] } : Launch).tiles ∧ s.tileFree 0 1 = true) ∧
    (let s := with3 ts 0 0x8000000000000000 512 0x0000020000000200
     CopyOf s 0 1 2 3 ∧ endpointOf (s.getS 0 1).val = some (.own 0) ∧ (s.tile 0).operandEntry 0 = none ∧
       0 + 511 * 512 + 512 ≤ 524288) ∧
    (let s := mapped 0x8000000000000000 128 64
     let r := (s.tile 0).region 5
     CopyOf s 0 1 2 3 ∧ (s.tile 0).operandEntry 0 = some 5 ∧ r.fmt = 0x0A ∧ r.csc = false ∧ s.regionPage 0 r = (65536, 0) ∧
       127 * 64 + 64 ≤ pageElems 65536 0x0A r.geo false ∧
       elemByte 0x0A (127 * 64 + 63) + elemBytes 0x0A (127 * 64 + 63) ≤ 128 * r.lines ∧
       inlineScale 65536 0x0A r.geo ((127 * 64 + 63) / r.geo) < 128 * r.lines) ∧
    (let s := with3 ts 0 0 1 6144
     CopyOf s 0 1 2 3 ∧ s.feedLeft 0 = false ∧ s.feedBusy 0 = false ∧ (s.tile 0).feed = none) ∧
    (let s := with3 ts 0 0 0x5000000201FF0E00 0
     CopyOf s 0 1 2 3 ∧ (s.tile 0).entryBad 15 (s.getS 0 1).val (s.getS 0 2).val = false ∧ ((s.tile 0).region 15).valid = false) ∧
    (let s := mapped 0x8000000000000000 0 128
     CopyOf s 0 1 2 3 ∧ s.copies = [] ∧ ((s.tile 0).regionAt 0).isSome = true) :=
  ⟨⟨copyOf0 (by decide +kernel), by decide +kernel⟩, ⟨copyOf0 (by decide +kernel), by decide +kernel⟩,
   ⟨copyOf0 (by decide +kernel), by decide +kernel⟩, ⟨copyOf0 (by decide +kernel), by decide +kernel⟩,
   ⟨copyOf0 (by decide +kernel), by decide +kernel⟩, ⟨copyOf0 (by decide +kernel), by decide +kernel⟩,
   ⟨copyOf0 (by decide +kernel), by decide +kernel⟩⟩

/-! A block of a feed: every move of it succeeds. -/

theorem walkFrom_low (s : State) (va : Nat) (h : va < 65536) : ∀ n table, s.walkFrom va n table = s.walkFrom 0 n table
  | 0, table => by simp only [State.walkFrom, State.walkL0, Nat.div_eq_of_lt h, Nat.zero_div]
  | n + 1, table => by
    have h2 : va / 2 ^ (16 + 10 * (n + 1)) = 0 :=
      Nat.div_eq_of_lt (Nat.lt_of_lt_of_le h (Nat.pow_le_pow_right (n := 2) (by decide) (by omega : 16 ≤ 16 + 10 * (n + 1))))
    simp only [State.walkFrom, h2, Nat.zero_div, walkFrom_low s va h n]

/-- Addresses below 65,536 lie in the page of address 0. -/
theorem walk_low (s : State) (c va : Nat) (h : va < 65536) : s.walk c va = s.walk c 0 := by
  unfold State.walk
  rw [Nat.mod_eq_of_lt (by omega), walkFrom_low s va h, Nat.zero_mod]

theorem walkFrom_tiles (s : State) (x : Tbl Tile) (va : Nat) : ∀ n table,
    ({ s with tiles := x } : State).walkFrom va n table = s.walkFrom va n table
  | 0, table => rfl
  | n + 1, table => by
    unfold State.walkFrom
    simp only [walkFrom_tiles s x va n]
    rfl

/-- Effects that each succeed and keep a property succeed one after another. -/
theorem foldlM_ok {α β : Type} (f : α → β → Eff α) (I : α → Prop) : ∀ (l : List β) (w : α), I w →
    (∀ u, I u → ∀ k ∈ l, ∃ v, f u k = .ok v ∧ I v) → ∃ v, (l.foldlM f w : Eff α) = .ok v
  | [], w, _, _ => ⟨w, rfl⟩
  | k :: rest, w, hw, h => by
    obtain ⟨v, e, hv⟩ := h w hw k (by simp)
    obtain ⟨r, er⟩ := foldlM_ok f I rest v hv (fun u hu j hj => h u hu j (by simp [hj]))
    exact ⟨r, by rw [List.foldlM_cons, e]; exact er⟩

/-- Sixteen bytes of the placed page can be written to a tile store. -/
theorem feed_step (w : State) (a d : Dword) (h : w.walk 0 0 = .page page0 ∧ w.oldMaps = []) (ha : a.toNat < 65536) (h16 : a.toNat % 16 = 0) :
    ∃ v, w.movePlace (.store 0) d (.global 0) a 16 = .ok v ∧ v.walk 0 0 = .page page0 ∧ v.oldMaps = [] := by
  have h60 : a.extractLsb' 60 4 = 0 := by
    apply BitVec.eq_of_toNat_eq
    rw [BitVec.extractLsb'_toNat, Nat.shiftRight_eq_div_pow, Nat.div_eq_of_lt (by omega)]
    rfl
  have hpage : w.pageFor 0 a false = .ok (page0, w) := by
    unfold State.pageFor
    rw [State.translate_settled (State.oldWalks_nil h.2 _ _), walk_low w 0 _ ha, h.1]
    rfl
  have he : paExists (page0.pa a.toNat) = true := by
    have h2 : page0.pa a.toNat < Config.deviceBytes := by
      simp only [PageInfo.pa, page0, Config.deviceBytes]
      omega
    unfold paExists
    rw [decide_eq_true h2, Bool.true_or]
  have hr : ∃ bs bad, w.readPlace (.global 0) a 16 = .ok (bs, bad, w) := by
    simp [State.readPlace, State.readNear, State.globalAccess, h60, h16, hpage, he, show page0.tagged = false from rfl]
  obtain ⟨bs, bad, e⟩ := hr
  obtain ⟨v, ev, hv⟩ : ∃ v, w.writePlace (.store 0) d bs bad = .ok v ∧ v.walk 0 0 = w.walk 0 0 ∧ v.oldMaps = w.oldMaps :=
    ⟨_, rfl, walkFrom_tiles w _ _ _ _, rfl⟩
  exact ⟨v, by rw [State.movePlace, e]; exact ev, hv.1.trans h.1, hv.2.trans h.2⟩

/-- A tile with a feed of one block of the placed page. -/
def feed0 : Feed := ⟨0, 1, 6144, 0, 0, 0, 0, 0, none, false⟩
def fed : State := ts.setTile 0 { ts.tile 0 with feed := some feed0 }

theorem fed_written : ∃ u, ((List.range 384).foldlM (fun (w : State) k => w.movePlace (.store 0)
    (BitVec.ofNat 64 (512 * (feed0.row + k / 3) + (feed0.col + 64 * (feed0.written % 4)) + 16 * (k % 3))) (.global (fed.tileCtx 0))
    (feed0.src + BitVec.ofNat 64 (feed0.written * feed0.stride) + BitVec.ofNat 64 (16 * k)) 16) fed : Eff State) = .ok u := by
  have hc : fed.tileCtx 0 = 0 := by decide +kernel
  rw [hc]
  refine foldlM_ok _ (fun w => w.walk 0 0 = .page page0 ∧ w.oldMaps = []) _ fed (by decide +kernel) (fun w hw k hk => ?_)
  have hk : k < 384 := List.mem_range.mp hk
  have h1 : (BitVec.ofNat 64 (16 * k)).toNat = 16 * k := by
    rw [BitVec.toNat_ofNat]
    omega
  refine feed_step w _ _ hw ?_ ?_
  · simp [feed0]
    omega
  · simp [feed0]

def copying (c : Copy) : State := { rs with copies := [(9, c)] }

/-- A copy to two tiles of 16 bytes each, and a fill of line 0 of a mapped tile. -/
def shares0 : Copy := { copyOf rs 288 tail5 false (.shares []) [⟨.tile 0, 0, .global 0, 0, 16⟩, ⟨.tile 1, 0, .global 0, 0, 16⟩] 2 (.crew 0) with
  done := [1], bead := some (.crew 0, 5) }
def fill0 : Copy := copyOf ts 0 tail5 false (.fills [0]) [⟨.tile 0, 0, .tile 0, 0, 0⟩] 0 (.tile 0)
def filling : State :=
  let s := mapped 0 0 0
  { s.setTile 0 { s.tile 0 with absent := [0] } with copies := [(9, fill0)] }

theorem witness_CopyEvents :
    (let s := copying copy0
     Tbl.find? s.copies 9 = some copy0 ∧ copy0.isLink = false ∧ s.copyStarted copy0 = true ∧ 255 < copy0.units ∧ 255 ∉ copy0.done ∧
     copy0.kind = .plain ∧ partAt copy0.parts 255 = some (part0, 4080) ∧ s.cur.ctx = copy0.ctx ∧ s.shadowOf 0 0x2FF0 = none ∧
     Reach s 0x1FF0 16 16 false true 0x11FF0 page0 ∧ Reach s 0x2FF0 16 16 true true 0x12FF0 page0) ∧
    (let c : Copy := { copy0 with done := List.range 256 }
     (copying c).copyDone c = true ∧ 255 ∈ c.done) ∧
    (shares0.kind = .shares [] ∧ 1 ∉ ([] : List Nat) ∧ 1 < shares0.parts.length ∧
      ∀ i, i < shares0.head.len / 16 → 1 * (shares0.head.len / 16) + i ∈ shares0.done) ∧
    ((fed.tile 0).feed = some feed0 ∧ feed0.written < feed0.count ∧ feed0.written < feed0.retired + 4 ∧
      ∃ u, ((List.range 384).foldlM (fun (w : State) k => w.movePlace (.store 0)
        (BitVec.ofNat 64 (512 * (feed0.row + k / 3) + (feed0.col + 64 * (feed0.written % 4)) + 16 * (k % 3))) (.global (fed.tileCtx 0))
        (feed0.src + BitVec.ofNat 64 (feed0.written * feed0.stride) + BitVec.ofNat 64 (16 * k)) 16) fed : Eff State) = .ok u) ∧
    (let f : Feed := { feed0 with count := 5, written := 4 }
     f.retired + 4 ≤ f.written ∧ f.written < f.count) ∧
    (filling.copies = [(9, fill0)] ∧ ∃ u, filling.needLine 0 0 = .ok u ∧ true = true) ∧
    (let h : Shadow := ⟨0, 65536, [], [], [288]⟩
     let s := rs.setCtx 0 { rs.ctx 0 with shadows := [h] }
     (s.ctx 0).shadows = [h] ∧ h.base = (0 : BitVec 64).toNat ∧ h.pending ≠ []) := by
  refine ⟨⟨by decide +kernel, by decide +kernel, by decide +kernel, by decide +kernel, by decide +kernel, by decide +kernel, by decide +kernel,
      by decide +kernel, by decide +kernel, reach0 false true (by decide) (by decide +kernel) (by decide +kernel), reach0 true true (by decide) (by decide +kernel) (by decide +kernel)⟩,
    by decide +kernel, ⟨rfl, by decide, by decide, fun i hi => ?_⟩, ⟨by decide +kernel, by decide, by decide, fed_written⟩,
    by decide, ⟨by decide +kernel, ok_of_check (fun _ => true) (by decide +kernel)⟩, by decide +kernel⟩
  have h : i = 0 := by
    have : shares0.head.len / 16 = 1 := by decide
    omega
  subst h
  decide

/-- Port 11 with stream 65535 bound to context 0, and a frame in flight on it. -/
def frame0 : LinkFrame := ⟨65535, 0, 0, 0, true, false, true, []⟩
def stream0 (n : Nat) : LinkStream := { LinkStream.fresh 0 with unacked := [⟨frame0, 9, n⟩] }
def linked (x : LinkStream) (a b c : Dword) : State := (with3 rs 288 a b c).setLink2 11 65535 x

theorem witness_Links :
    (let s := linked (.fresh 0) 0xFFFF000B 0 16
     CopyOf s 288 1 2 3 ∧ s.linkStream 11 65535 = some (.fresh 0) ∧ (LinkStream.fresh 0).ctx = s.cur.ctx ∧ (s.port 11).up = true ∧
     (s.getS 288 1).val.toNat = 11 + 2 ^ 16 * 65535 ∧ Side s 288 (s.getS 288 2).val 16 16 (.global 0) 0) ∧
    (let s := linked (.fresh 0) 0 0xFFFF000B 16
     CopyOf s 288 1 2 3 ∧ (s.getS 288 2).val.toNat = 11 + 2 ^ 16 * 65535 ∧ Side s 288 (s.getS 288 1).val 16 16 (.global 0) 0) ∧
    (let s := linked (stream0 7) 0 0 0
     s.linkStream 11 frame0.stream = some (stream0 7) ∧ frame0.good = true ∧ (s.port 11).up = true ∧ frame0.payload.length % 16 = 0 ∧
     frame0.sq = (stream0 7).recvData % 2 ^ 32 ∧ frame0.sq = (stream0 7).recvCredit % 2 ^ 32 ∧
     (stream0 7).unacked = [⟨frame0, 9, 7⟩] ∧ (7 < 8)) ∧
    (let f : LinkFrame := { frame0 with good := false, sq := 1 }
     f.good = false ∧ f.sq ≠ (stream0 8).recvData % 2 ^ 32 ∧ (stream0 8).unacked = [⟨frame0, 9, 8⟩]) :=
  ⟨⟨copyOf0 (by decide +kernel), by decide +kernel, rfl, by decide +kernel, by decide +kernel,
      ⟨⟨.global 0, by decide +kernel⟩, by decide +kernel, by decide +kernel⟩⟩,
   ⟨copyOf0 (by decide +kernel), by decide +kernel, ⟨⟨.global 0, by decide +kernel⟩, by decide +kernel, by decide +kernel⟩⟩,
   by decide +kernel, by decide +kernel⟩

/-! ### Mills, flumes, vectors and the matrix engine -/

/-- A mill image at 0x3000: one stage, IADD with the guard p1, and flume 15 from bundle 0 to itself; two units, lease 1. -/
def imaged : State := withS (rs.writeBytes 0x13000 (wordBytes ([0x01000101, 0x00004001] ++ List.replicate 14 0 ++
  [0x14000000, 0x20000000, 0x0000000F]))) 288 1 0x3000
def image0 : MillImage := ⟨[0x0000400101000101, 0, 0, 0, 0, 0, 0, 0], [(0x14000000, 0x20000000)], [0xF]⟩

/-- The mill of `image0` on core 0 held by a bundle, and running with strand 0 to admit. -/
def milling (o : Nat) : State := imaged.setMill 0 (some (Mill.fresh o 0x3000 image0))
def mill1 : Mill := { Mill.fresh 288 0x3000 image0 with running := true, toAdmit := [0] }
def mill2 : Mill := { Mill.fresh 288 0x3000 image0 with running := true }
def saved0 : State :=
  (imaged.setCrew 0 { crew0 with mill := some mill2 }).setStrand 18432 { rs.strand 18432 with stat := .milled }

theorem witness_Mills :
    (imaged.cur.owners = [288] ∧ imaged.coreOf 288 = some 0 ∧ (imaged.getS 288 1).poison = none ∧
      (∃ r, imaged.readImage 288 (imaged.getS 288 1).val false = .ok r ∧ decide (r.1 = image0) = true) ∧ LiveDelivery imaged 288 ∧
      imaged.crewOf 288 = some (0, crew0) ∧ crew0.mill = none ∧ image0.stages ≠ [] ∧ (imaged.core 0).mill = none ∧
      imaged.savedMill 288 = none) ∧
    ((milling 400).crewOf 288 = some (0, crew0) ∧ ∃ m, ((milling 400).core 0).mill = some m ∧ m.holder ≠ 288) ∧
    (∃ m, ((milling 288).core 0).mill = some m ∧ m.holder = 288 ∧ m.first = none ∧ m.npois < 2 ^ 16) ∧
    (let s := imaged.setMill 0 (some mill1)
     (s.core 0).mill = some mill1 ∧ mill1.toAdmit = 0 :: [] ∧ mill1.inFlight = [] ∧ mill1.aside = [] ∧ mill1.draining = false ∧
       mill1.stages = (0x14000000, 0x20000000) :: [] ∧ (s.admitToken mill1 0).pred 1 = false ∧
       guardOf (wordLong 0x14000000) 0x20000000 = ⟨1, false⟩ ∧ ∃ t, s.millStep 0 = .ok t ∧ true = true) ∧
    (let s := imaged.setMill 0 (some mill2)
     (s.core 0).mill = some mill2 ∧ mill2.toAdmit = [] ∧ mill2.inFlight = [] ∧ mill2.reorder = [] ∧ mill2.aside = [] ∧ millArr mill2.m = false) ∧
    (let m : Mill := { mill1 with draining := true }
     let s := imaged.setMill 0 (some m)
     (s.core 0).mill = some m ∧ s.crewOf m.holder = some (0, crew0)) ∧
    (saved0.savedMill 288 = some mill2 ∧ saved0.coreOf 288 = some 0 ∧ (saved0.core 0).mill = none ∧
      ∃ r, (saved0.atEnter 288 mill2).readImage 288 mill2.image true = .ok r ∧ decide (r.1 = image0) = true) := by
  refine ⟨⟨by decide +kernel, by decide +kernel, by decide +kernel,
      ok_of_check (fun (r : MillImage × State) => decide (r.1 = image0)) (by decide +kernel),
      .inr ⟨0, (Tbl.find? rs.launches 0).get (by decide +kernel), by decide +kernel, by decide +kernel, by decide +kernel, by decide +kernel⟩,
      by decide +kernel⟩,
    ⟨by decide +kernel, Mill.fresh 400 0x3000 image0, by decide +kernel⟩, ⟨Mill.fresh 288 0x3000 image0, by decide +kernel⟩,
    ⟨by decide +kernel, rfl, rfl, rfl, rfl, rfl, by decide +kernel, by decide +kernel, ok_of_check (fun _ => true) (by decide +kernel)⟩,
    by decide +kernel, by decide +kernel,
    ⟨by decide +kernel, by decide +kernel, by decide +kernel,
      ok_of_check (fun (r : MillImage × State) => decide (r.1 = image0)) (by decide +kernel)⟩⟩

/-- A saved mill is reloaded where its crew goes on, and stays saved where it stops; its holder's core holds no other; another bundle's
mill, running or saved, is held. -/
theorem witness_Mills_saved :
    (saved0.crewOf 288 = some (0, { crew0 with mill := some mill2 }) ∧ mill2.running = true ∧ crew0.stopping = false ∧
      (∃ i ∈ saved0.liveStrands 288, (saved0.strand i).stat = .milled) ∧ image0.stages ≠ [] ∧ mill2.inFlight = []) ∧
    (let s := saved0.setCrew 0 { crew0 with mill := some mill2, stopping := true }
     s.savedMill 288 = some mill2 ∧ s.coreOf 288 = some 0 ∧ (s.core 0).mill = none ∧
       s.crewOf 288 = some (0, { crew0 with mill := some mill2, stopping := true }) ∧
       ∃ i ∈ s.liveStrands 288, (s.strand i).stat = .milled) ∧
    imaged.millHeld 288 = false ∧ (milling 400).millHeld 288 = true ∧
    (let s := (milling 288).setMill 0 (some mill2)
     ∀ i ∈ s.liveStrands mill2.holder, (s.strand i).stopDue = false) := by decide +kernel

/-- Flume 15 of the crew with n of 4 entries and an operation presented, or a result of the bundle's. -/
def flume0 (n : Nat) (op : FlumeOp) : Flume := ⟨4, 0, 0, List.replicate n [(63, 9)], [op], []⟩
def flumed (y : Flume) : State := rs.setCrew 0 { crew0 with flumes := [(15, y)] }
def flume1 : Flume := ⟨4, 0, 0, [], [], [(288, (true, [(0, 9)]))]⟩

theorem witness_Flumes :
    (∀ n ∈ [0, 3, 4], ∀ op ∈ [(⟨288, false, false, []⟩ : FlumeOp), ⟨288, true, false, [(0, 1)]⟩, ⟨288, true, true, [(0, 1)]⟩],
      ∃ x, Tbl.find? (flumed (flume0 n op)).crews 0 = some x ∧ x.core ≠ none ∧ Tbl.find? x.flumes 15 = some (flume0 n op)) ∧
    ((flumed flume1).cur.owners = [288] ∧ (flumed flume1).cur.cleared = true ∧ ((flumed flume1).liveStrands 288).Nodup ∧
      (∃ x, (flumed flume1).crewOf 288 = some (0, x) ∧ Tbl.find? x.flumes 15 = some flume1) ∧
      Tbl.find? flume1.results 288 = some (true, [(0, 9)])) ∧
    LiveDelivery (flumed flume1) 288 ∧ (rs.crewOf 288 = some (0, crew0) ∧ Tbl.find? crew0.flumes 15 = none) := by
  refine ⟨fun n _ op _ => ⟨{ crew0 with flumes := [(15, flume0 n op)] }, ?_, by simp [crew0], rfl⟩,
    ⟨by decide +kernel, by decide +kernel, by decide +kernel, ⟨{ crew0 with flumes := [(15, flume1)] }, by decide +kernel⟩, by decide +kernel⟩,
    .inr ⟨0, (Tbl.find? rs.launches 0).get (by decide +kernel), by decide +kernel, by decide +kernel, by decide +kernel, by decide +kernel⟩,
    by decide +kernel⟩
  exact Tbl.find_insert_self _ _ _

/-- A flume whose ends are another bundle's. -/
theorem witness_Flumes_ends : (let y : Flume := ⟨4, 1, 1, [], [], []⟩
     let s := { flumed y with cur := { rs.cur with cleared := false } }
     s.cur.owners = [288] ∧ s.cur.cleared = false ∧ (∃ x, s.crewOf 288 = some (0, x) ∧ Tbl.find? x.flumes 15 = some y) ∧
       Tbl.find? s.bundles 288 = some bundle0 ∧ y.prod ≠ bundle0.f1 ∧ y.cons ≠ bundle0.f1) :=
  ⟨by decide +kernel, by decide +kernel, ⟨{ crew0 with flumes := [(15, ⟨4, 1, 1, [], [], []⟩)] }, by decide +kernel⟩, by decide +kernel⟩

/-- The stream with a TYPE and a COUNT, and a change of it. -/
def stv (ty count : Nat) : Stream := { st0 with shape := shapeWord ty count false }
def tv (st : Stream) : State := ts.setTile 0 { ts.tile 0 with stream := some st }

theorem onTile0 (st : Stream) : OnTile (tv st) 0 st := 
  ⟨ts_tile.1, ts_tile.2.1, by simp [tv, State.tile, State.setTile, Tbl.getD]⟩

theorem witness_VectorElements :
    OnTile (tv (stv 3 128)) 0 (stv 3 128) ∧ OnTile (tv (stv 1 64)) 0 (stv 1 64) ∧
    (∀ ty ∈ [1, 2, 3], (⟨true, false, false⟩ : TypeSet).admits ty = true) ∧ (∀ ty ∈ [0x11, 0x12, 0x16], (⟨true, false, true⟩ : TypeSet).admits ty = true) ∧
    (⟨true, false, false⟩ : TypeSet).admits 0x12 = false ∧ (⟨true, false, true⟩ : TypeSet).admits 4 = false ∧
    (⟨true, true, true⟩ : TypeSet).admits 4 = true ∧ shapeType (stv 3 128).shape = 3 ∧ ((stv 3 128).wreg 31).poison = none ∧
    (let st : Stream := { stv 3 128 with w := [(31, ⟨0, some 7⟩)] }
     OnTile (tv st) 0 st ∧ (st.wreg 31).poison = some 7) ∧ codeIsInt 0x13 = true :=
  ⟨onTile0 _, onTile0 _, by decide, by decide, by decide, by decide, by decide, by decide +kernel, by decide +kernel,
    ⟨onTile0 _, by decide +kernel⟩, by decide⟩

theorem witness_VectorOthers : OnTile (tv (stv 3 128)) 0 (stv 3 128) ∧ ((stv 3 128).wreg 31).poison = none ∧
    typeIsByte (shapeType (stv 3 128).shape) = false ∧ typeIsFloat (shapeType (stv 3 128).shape) = true ∧
    (∀ b ∈ [2, 5], satPair 3 b = true) ∧ (∀ b ∈ [6, 0xC], (codeEmax b ((tv (stv 3 128)).tile 0).bookV).isSome = true) ∧
    (let st : Stream := { stv 3 128 with queues := [(3, [1]), (0, List.replicate 7 2), (6, List.replicate 7 2), (7, List.replicate 7 1)] }
     OnTile (tv st) 0 st ∧ Tbl.getD st.queues 3 [] = [1] ∧ (Tbl.getD st.queues 0 []).length < 8 ∧ (Tbl.getD st.queues 6 []).length < 8 ∧
       (Tbl.getD st.queues 7 []).length < 8) ∧
    (let st : Stream := { stv 3 2 with k := [(1, 3)] }
     OnTile (tv st) 0 st ∧ 0 < shapeCount st.shape ∧ shapeCount st.shape = 2 ∧ st.mask 1 = 3 ∧ st.mask 2 = 0) ∧
    (let st : Stream := { stv 3 128 with flying := [⟨1, .reg 31 5 none (2 ^ 2048 - 1)⟩] }
     OnTile (tv st) 0 st ∧ st.exq = [] ∧ st.flying ≠ [] ∧ st.cycle = 0) :=
  ⟨onTile0 _, by decide +kernel, by decide +kernel, by decide +kernel, by decide, by decide +kernel,
    ⟨onTile0 _, by decide +kernel⟩, ⟨onTile0 _, by decide +kernel⟩, ⟨onTile0 _, by decide +kernel⟩⟩

/-- A byte TYPE, an entry that a group before has pushed, and a result that is due, or that flies with a group ready to go on. -/
theorem witness_VectorOthers_types : OnTile (tv (stv 4 128)) 0 (stv 4 128) ∧ typeIsByte (shapeType (stv 4 128).shape) = true ∧
    (let st : Stream := { stv 3 128 with queues := [(3, [1, 2])], hidden := [(3, 1)] }
     OnTile (tv st) 0 st ∧ Tbl.getD st.queues 3 [] = 1 :: [2] ∧ (tv st).hiddenIn 0 3 ≤ [2].length) ∧
    (tv (stv 3 128)).landingDue 0 = false ∧
    (let st : Stream := { stv 3 128 with flying := [⟨1, .reg 31 5 none (2 ^ 2048 - 1)⟩], running := false, head := none }
     OnTile (tv st) 0 st ∧ (tv st).landingDue 0 = true) :=
  ⟨onTile0 _, by decide +kernel, ⟨onTile0 _, by decide +kernel⟩, by decide +kernel, ⟨onTile0 _, by decide +kernel⟩⟩

def matTail0 : MatTail := ⟨false, 0, 0⟩

/-- Tile 0 with MAT entries queued, in a set with tile 1. -/
def queueing (st : Stream) (es : List Instr) : State :=
  (tv st).setTile 0 { (tv st).tile 0 with mats := es.map (fun i => ⟨i, false, 0, 0, none, 0, none⟩) }
def pairing : State := (queueing st0 [.mpair 0 matTail0]).setLaunch 0 { launchR with tiles := [0, 1] }

theorem witness_Matrix :
    (OnTile ts 0 st0 ∧ ts.matMaskBusy 0 0xFF = false ∧ (ts.tile 0).mats = [] ∧ (ts.tile 0).slavedTo = none ∧ (ts.tile 0).fences < 2 ∧
      st0.pairIssued = false ∧ st0.paired = none) ∧
    (let st : Stream := { st0 with pairIssued := true }
     OnTile (tv st) 0 st ∧ st.pairIssued = true ∧ ((tv st).tile 0).mats.length < 8 ∧ ((tv st).tile 0).fences < 2) ∧
    (2 ≤ (ts.setTile 0 { ts.tile 0 with fenced := 3 } |>.tile 0).fences) ∧
    ((fed.tile 0).feed = some feed0 ∧ feed0.ended = false ∧ feed0.taken < feed0.count ∧ (fed.tile 0).fences < 2) ∧
    (let s := ts.setLaunch 0 { launchR with tiles := [0, 1] }
     pairNeighbour 0 0 = some 1 ∧ 1 ∈ s.tileSet 0 ∧ (s.tile 1).fenced = 0 ∧ (s.tile 0).fenced = 0) ∧
    (∀ i ∈ [Instr.mzero 384 30 false false matTail0, .mldb 384 8 false true matTail0, .mmaBf16 384 0 28 false matTail0,
        .mmaI8 384 0 28 false true true false matTail0, .mfence matTail0],
      ((queueing st0 [i]).tile 0).mats = [⟨i, false, 0, 0, none, 0, none⟩] ∧ (queueing st0 [i]).matReady 0 = true) ∧
    (pairing.claims 0 = some 1 ∧ pairing.claimReady 0 1 = true) ∧
    (let s := pairing.setTile 1 { pairing.tile 1 with slavedTo := some 13 }
     s.claims 0 = some 1 ∧ s.claimReady 0 1 = false) ∧
    (let s := queueing st0 [.mtest 0 0 matTail0]
     s.testDue 0 = true ∧ (2 : BitVec 4) &&& ~~~((s.setTile 0 { s.tile 0 with fenced := 2 }).tile 0).fenced = 0) ∧
    (let s := ts.setTile 0 { ts.tile 0 with stream := none, sinceTest := 0xFFFFFFFF, mtcfg := 0x10001 }
     s.testDue 0 = true ∧ (s.tile 0).failed = 0 ∧ (s.tile 0).fenced = 0 ∧ (s.tile 0).stream = none ∧ (s.tile 0).slavedTo = none) ∧
    ts.testDue 0 = false := by
  refine ⟨⟨ts_tile, by decide +kernel⟩, ⟨onTile0 _, by decide +kernel⟩, by decide +kernel, by decide +kernel, by decide +kernel, ?_,
    by decide +kernel, by decide +kernel, by decide +kernel, by decide +kernel, by decide +kernel⟩
  simp only [List.mem_cons, List.not_mem_nil, or_false, forall_eq_or_imp, forall_eq]
  refine ⟨⟨rfl, by decide +kernel⟩, ⟨rfl, by decide +kernel⟩, ⟨rfl, by decide +kernel⟩, ⟨rfl, by decide +kernel⟩, ⟨rfl, by decide +kernel⟩⟩

/-- MAT instructions that have started on what the tile held, alone and with a follower; one that no feed is before; and a claim that
a fence meets. -/
def starting (st : Stream) (i : Instr) : State :=
  (tv st).setTile 0 { (tv st).tile 0 with mats := [⟨i, false, 0, 0, none, 0, some ((tv st).matViews 0)⟩] }

theorem witness_Matrix_started :
    (∀ i ∈ [Instr.mmaBf16 384 0 28 false matTail0, .mmvMx4 0 0 4 28 false 0 0 matTail0, .mzero 0 0 false false matTail0,
        .mldb 384 8 false true matTail0, .mtest 0 0 matTail0, .mfree matTail0],
      (starting st0 i).matReady 0 = (match i with | .mtest .. => false | _ => true) ∧ (starting st0 i).follower 0 ≠ some 0 ∧
      ((starting st0 i).tile 0).mats.length = 1) ∧
    (let s := starting st0 (.mtest 0 0 matTail0)
     let u := s.setTile 0 { s.tile 0 with fenced := 3 }
     u.matReady 0 = true) ∧
    (let st : Stream := { st0 with paired := some 1 }
     let s := starting st (.mmaI8 384 0 28 true true true false matTail0)
     let u := s.setTile 1 { s.tile 1 with slavedTo := some 0 }
     u.matReady 0 = true ∧ u.follower 0 = some 1 ∧ (u.tile 1).slavedTo = some 0) ∧
    (st0.feedBehind = false ∧ (ts.tile 0).feed = none) ∧
    (let s := pairing.setTile 1 { pairing.tile 1 with fenced := 1 }
     s.claims 0 = some 1 ∧ (s.tile 1).fenced ≠ 0) := by decide +kernel

/-- No tile store of `ts` holds a marked unit; one whose first unit is marked makes MLDB of row 0 restart. -/
theorem ts_unmarked (k : Nat) : (ts.tile k).storeMarked = [] := by
  have h : ∀ (l : Tbl Tile) (j : Nat), (∀ e ∈ l, e.2.storeMarked = []) → (Tbl.getD l j Tile.reset).storeMarked = [] := by
    intro l j
    induction l with
    | nil => intro _; rfl
    | cons e rest ih =>
      obtain ⟨i, x⟩ := e
      intro h
      by_cases c : i = j
      · simpa [Tbl.getD, Tbl.find?, c] using h (i, x) (by simp)
      · simpa [Tbl.getD, Tbl.find?, c] using ih (fun e he => h e (by simp [he]))
  exact h ts.tiles k (by decide +kernel)

theorem witness_Matrix_marked :
    (let s := queueing st0 [.mldb 0 0 false false matTail0]
     let u := s.setTile 0 { s.tile 0 with storeMarked := [0] }
     let e : MatEntry := ⟨.mldb 0 0 false false matTail0, false, 0, 0, none, 0, none⟩
     s.matReady 0 = true ∧ s.readsMarked 0 e = false ∧ u.matReady 0 = true ∧ (u.tile 0).mats = [e] ∧ u.readsMarked 0 e = true) := by
  decide +kernel

theorem witness_MatrixResults : (384 : BitVec 9).toNat ≤ 384 ∧ (∃ e ∈ stepForms 384 0 28 false true true false 0 0 matTail0, e.2.k = 32) ∧
    16 * (30 : BitVec 5).toNat + 32 ≤ 512 ∧ 16 * (24 : BitVec 5).toNat + 128 * (codeWidth 4 / 8) ≤ 512 ∧
    (floatSpec 0x03 16 16 false).sparse = false ∧ (∃ e ∈ stepForms 384 0 28 false true true false 0 0 matTail0,
      e.2.sparse = false ∧ codeIsInt e.2.fmt = true) ∧
    (let st : Stream := { st0 with paired := some 1 }
     let s := (starting st (.mfree matTail0)).setTile 1 { (tv st).tile 1 with slavedTo := some 0 }
     (s.tile 0).stream = some st ∧ st.paired = some 1 ∧ (s.tile 1).slavedTo = some 0 ∧ s.matReady 0 = true) := by
  refine ⟨by decide, ⟨(.mmaI8 384 0 28 false true true false matTail0, ⟨0x10, 8, 32, 32, false, true, false, true⟩), ?_, rfl⟩, by decide,
    by decide, rfl, ⟨(.mmaI8 384 0 28 false true true false matTail0, ⟨0x10, 8, 32, 32, false, true, false, true⟩), ?_, rfl, by decide⟩,
    by decide +kernel⟩ <;> simp [stepForms]

/-! ### Launches, crews, cores, saving and streams -/

/-- Queue 0 holds one entry whose header asks for one crew, or one with a reserved bit set, in the host's or the device's ring. -/
def header0 : List Dword := [0, 0, 0, 0x0000400000000001, 0, 0, 0x0000FFFF0000FFFF, 0]
def entered (host : Bool) (h : List Dword) : State :=
  (rs.writeBytes (0x20000 + if host then 0 else 160) ((h.map (fun d => wordBytes [d.extractLsb' 0 32, d.extractLsb' 32 32])).flatten)).setLaunchQueue
    0 0 { LaunchQueue.reset with qbase := 0x20000, qctl := 1, entries := [⟨host, 0, 5⟩] }

theorem entered_takes (host : Bool) (h : List Dword) (hq : ((entered host h).launchQueue 0 0).entries = [⟨host, 0, 5⟩] ∧
    ((entered host h).launchQueue 0 0).size ≠ 0 ∧ (entered host h).boot = .running ∧
    ∀ e ∈ (entered host h).launches, e.2.ctx = 0 → e.2.origin.queue = some 0 → e.2.phase ≠ .waiting) :
    Takes (entered host h) 0 0 ⟨host, 0, 5⟩ [] := ⟨hq.1, hq.2.1, hq.2.2.1, hq.2.2.2⟩

/-- Whether an entry's header is accepted. -/
def codeOf (host : Bool) (h : List Dword) : Nat :=
  let s := entered host h
  (afterTake s 0 0 ⟨host, 0, 5⟩ []).headerCode 0 (entryHeader s 0 0 ⟨host, 0, 5⟩) false

/-- A node with one record pending since time 9, and a launch whose one crew has ended. -/
def node1 : Node := ⟨[0, 0, 0, 0x0000400000000001, 0, 0, 0x0000FFFF0000FFFF, 0x0000000500010010], [(0x100, 9)], false, true⟩
def overLaunch : Launch := { launchR with endedCrews := 1, replay := none }
def finished : State := ({ rs with crews := [(0, { crew0 with ended := true, core := none, bundles := [] })] }).setLaunch 0 overLaunch

theorem witness_LaunchesAndCrews_launches :
    (rs.launchQueue 0 0).entries = [] ∧
    (∀ host ∈ [true, false], Takes (entered host header0) 0 0 ⟨host, 0, 5⟩ []) ∧ (∀ host ∈ [true, false], codeOf host header0 = 0) ∧
    (∀ host ∈ [true, false], codeOf host (header0.set 7 1) ≠ 0) ∧ hdrWaitBead header0 = 0xFFFF ∧
    (∃ x, Tbl.find? rs.launches 0 = some x ∧ x.origin = .hostRing 0 0 ∧ rs.workOver 0 x = false) ∧
    (Tbl.find? finished.launches 0 = some overLaunch ∧ overLaunch.origin = .hostRing 0 0 ∧ finished.workOver 0 overLaunch = true ∧
      hdrDoneBead overLaunch.hdr = 0xFFFF ∧ finished.channels = []) ∧
    (let s := rs.setCtx 0 { rs.ctx 0 with nodes := [(3, node1)], nodeCount := 4 }
     Tbl.find? (s.ctx 0).nodes 3 = some node1 ∧ node1.pending.length ≤ hdrBatch node1.hdr ∧ hdrWaitBead node1.hdr = 0xFFFF) := by
  refine ⟨by decide +kernel, ?_, by decide +kernel, by decide +kernel, by decide +kernel,
    ⟨(Tbl.find? rs.launches 0).get (by decide +kernel), by decide +kernel⟩, by decide +kernel, by decide +kernel⟩
  simp only [List.mem_cons, List.not_mem_nil, or_false, forall_eq_or_imp, forall_eq]
  exact ⟨entered_takes _ _ (by decide +kernel), entered_takes _ _ (by decide +kernel)⟩

/-- A header whose PLAN lies on a reserved page while no frame is free waits, and one without a plan does not; a tile launch that is
over owes a dirty unit of its map. -/
def owing : State :=
  let s := (mapped 0 0 0).setLaunch 0 { launchR with hdr := [0, 0, 0, 0x0000440000000000, 0, 0, 0x0000FFFF0000FFFF, 0], tiles := [0],
                                                     endedTiles := [0], replay := none }
  s.setTile 0 { s.tile 0 with map := [(5, (0, 0x5000000301FF0000))], dirty := [0], stream := none, owner := some 0 }

theorem witness_LaunchesAndCrews_waits :
    (let h := header0.set 5 0x10000
     let s := { entered true h with smallPool := ⟨[], 0⟩ }.writeBytes 0xC010 [0x2E]
     s.planWaits 0 h = true) ∧
    (let s := entered true header0
     (afterTake s 0 0 ⟨true, 0, 5⟩ []).headerWaits 0 (entryHeader s 0 0 ⟨true, 0, 5⟩) false = false ∧
       hdrPlan (entryHeader s 0 0 ⟨true, 0, 5⟩) = 0) ∧
    finished.owesBack overLaunch = false ∧
    (∃ x, Tbl.find? owing.launches 0 = some x ∧ x.origin = .hostRing 0 0 ∧ owing.workOver 0 x = true ∧ owing.owesBack x = true) ∧
    rs.planWaits 0 node1.hdr = false :=
  ⟨by decide +kernel, by decide +kernel, by decide +kernel, ⟨(Tbl.find? owing.launches 0).get (by decide +kernel), by decide +kernel⟩,
    by decide +kernel⟩

/-- A launch with one crew still to place; a crew placed and not started; and one whose only bundle has exited. -/
def placing : State := ({ rs with crews := [], stays := [] }).setLaunch 0 { launchR with nextCrew := 0, replay := none }
def placed : State := rs.setCrew 0 { crew0 with started := false, bundles := [] }
def exiting : State := rs.setBundle 288 { bundle0 with exited := true }

theorem witness_LaunchesAndCrews_crews : rs.nextUnit = none ∧
    (placing.nextUnit = some (⟨0, [0], []⟩, [0]) ∧ hdrGrove (placing.header 0) = false ∧ (Tbl.find? placing.launches 0).isSome = true) ∧
    (Tbl.find? rs.crews 0 = some crew0 ∧ crew0.core = some 0 ∧ crew0.grove = none ∧ crew0.ended = false ∧ crew0.started = true) ∧
    (Tbl.find? placed.crews 0 = some { crew0 with started := false, bundles := [] } ∧ hdrExtent (placed.header 0) 1 = 1 ∧
      ∃ y, Tbl.find? placed.launches 0 = some y ∧ y.origin = .hostRing 0 0) ∧
    (rs.crewOf 288 = some (0, crew0) ∧ bundle0.exited = false ∧ crew0.bundles ≠ []) ∧
    (exiting.crewOf 288 = some (0, crew0) ∧ Tbl.find? exiting.bundles 288 = some { bundle0 with exited := true } ∧
      exiting.channelsOf 288 = 0 ∧ exiting.meshesPending 0 = false) :=
  ⟨by decide +kernel, by decide +kernel, by decide +kernel,
    ⟨by decide +kernel, by decide +kernel, (Tbl.find? placed.launches 0).get (by decide +kernel), by decide +kernel⟩, by decide +kernel,
    by decide +kernel⟩

/-- A core with no run; a strand and a stream that wait for a time; a grove whose other die is ahead by a phase; and entries of the
page table that are reserved or name a page in host memory. -/
def idleCore : State := rs.setCore 0 { rs.core 0 with run := none }
def timed : State := rs.setStrand 18432 { rs.strand 18432 with stat := .parked (.deadline 77) }
def grove0 : Grove := ⟨0, 0, [(15, ⟨0, false, false, 0xFFFFFFFF⟩)], [(15, ⟨0, false, false, 0⟩)]⟩
def grove1 : Grove := ⟨0, 0, [(15, ⟨0, false, true, 0xFFFFFFFF⟩)], [(15, ⟨0, false, false, 0⟩)]⟩
def unbacked (e0 : List Byte) : State := { rs.writeBytes 0xC010 e0 with smallPool := ⟨[7], 0⟩ }

theorem witness_SchedulingAndPages :
    (∃ e, e ∈ rs.resident 0 ∧ e.2.stopping = false ∧ rs.crewDormant e.2 = false ∧ rs.isLowest e.2 = true) ∧
    (Tbl.find? rs.bundles 288 = some bundle0 ∧ rs.crewOf 288 = some (0, crew0) ∧ rs.coreOf 288 = some 0) ∧
    (rs.core 0).run ≠ none ∧
    ((idleCore.core 0).run = none ∧ (idleCore.core 0).splitting = none ∧ idleCore.eligible 0 ≠ []) ∧
    (let s := timed.setCore 0 { timed.core 0 with run := none }
     (s.core 0).run = none ∧ (s.core 0).splitting = none ∧ s.eligible 0 = []) ∧
    ((timed.strand (strandKey 288 0)).stat = .parked (.deadline 77)) ∧
    (let st : Stream := { st0 with wait := some (.deadline 77) }
     ((tv st).tile 0).stream = some st ∧ st.wait = some (.deadline 77)) ∧
    (let s := { rs with groves := [(4, grove0)] }
     Tbl.find? s.groves 4 = some grove0 ∧ s.doneDue 4 15 false = true) ∧
    (let s := { rs with groves := [(4, grove1)] }
     s.doneDue 4 15 false = false) ∧
    (rs.walk 0 (0 : BitVec 64).toNat = .page page0) ∧
    (let s := unbacked [0x2E]
     s.walk 0 (0x10000 : BitVec 64).toNat = .reserved 0xC010 0x2E 0 false ∧ s.smallPool.frames = 7 :: [] ∧ s.smallPool.threshold ≤ 0) ∧
    (let s := unbacked [0x4E, 0, 9]
     s.walk 0 (0x10000 : BitVec 64).toNat = .inHost 0xC010 0x9004E 0 false ∧ leafFrame 0x9004E ≠ 7 ∧ Memory.wf s.mem) ∧
    (let s := unbacked [0xCE, 0, 9]
     s.walk 0 (0x10000 : BitVec 64).toNat = .inHost 0xC010 0x900CE 0 false ∧ (0x900CE : Dword).getLsbD 7 = true) ∧
    rs.strandLive 288 0 = true ∧ rs.strandLive 288 63 = false := by
  refine ⟨⟨(0, crew0), by decide +kernel⟩, by decide +kernel, by decide +kernel, by decide +kernel, by decide +kernel, by decide +kernel, ?_,
    by decide +kernel, by decide +kernel, by decide +kernel, by decide +kernel, by decide +kernel, by decide +kernel, by decide +kernel,
    by decide +kernel⟩
  exact ⟨(onTile0 _).2.2, rfl⟩

/-- A page in host memory whose TAG is set; an atomic that a strand has outstanding, and one it has not. -/
theorem witness_SchedulingAndPages_remote :
    (let s := rs.setStrand 18432 { rs.strand 18432 with remote := [(63, 0x1000)] }
     s.strandLive 288 0 = true ∧ ((63 : BitVec 6).toNat, (0x1000 : BitVec 64)) ∈ (s.strand (strandKey 288 0)).remote) ∧
    ((0 : BitVec 6).toNat, (0 : BitVec 64)) ∉ (rs.strand (strandKey 288 0)).remote := by decide +kernel

/-- A core whose save slot has not drained; a crew that a request names; and one that is saved, with the core free. -/
def busy : State := rs.setCore 0 { rs.core 0 with slotBusy := true }
def evicted : State := rs.setCrew 0 { crew0 with stopping := true }
def savedCrew : Crew := { crew0 with core := none, saved := true }
def restoring : State := ({ rs with stays := [(0, { stay0 with core := none })] }).setCrew 0 savedCrew

theorem witness_SavingAndStreams_crews :
    (busy.core 0).slotBusy = true ∧
    ((rs.core 0).slotBusy = false ∧ Tbl.find? rs.crews 0 = some crew0 ∧ crew0.core = some 0 ∧ crew0.ended = false ∧ crew0.stopping = false ∧
      crew0.grove = none ∧ ∀ e ∈ rs.resident 0, hdrExcl (rs.header e.2.launch) = false) ∧
    rs.canSave crew0 = false ∧
    (Tbl.find? evicted.crews 0 = some { crew0 with stopping := true } ∧ evicted.canSave { crew0 with stopping := true } = true ∧
      (evicted.core 0).mill = none) ∧ rs.nextUnit = none ∧
    (restoring.nextUnit = some (⟨0, [], [0]⟩, [0]) ∧ Tbl.find? restoring.crews 0 = some savedCrew ∧ savedCrew.heldSignals = [] ∧
      savedCrew.bundles = [288] ∧ Tbl.find? restoring.bundles 288 = some bundle0) := by decide +kernel

/-- The context's save area has room for the crew, or none. -/
theorem witness_SavingAndStreams_room : rs.saveRoom [0] = true ∧
    (let s := rs.setCtx 0 { rs.ctx 0 with saveArea := 0 }
     s.saveRoom [0] = false ∧ (s.core 0).slotBusy = false ∧ Tbl.find? s.crews 0 = some crew0 ∧
       ∀ e ∈ s.resident 0, hdrExcl (s.header e.2.launch) = false) := by decide +kernel

/-- A stream between parts of a record; the launch of a stream without tiles; a saved stream; and the last position of a record. -/
def recordC : List Dword := [0x40, 0x80, 0, 7, 2, 0x1000, 0x0000FFFF00000000, 0]
def resting (pos : SeqPos) : Stream := { st0 with running := false, head := none, pos := pos }
def freshTile : State :=
  ({ ts with tiles := [] }).setLaunch 0 { launchR with hdr := [0, 0, 0x70000, 0x0000440000000000, 0, 0, 0x0000FFFF0000FFFF, 0], replay := none }
def sleeping : State := tv { st0 with saved := true }

theorem witness_SavingAndStreams_streams :
    ((ts.tile 0).preempt = false ∧ (ts.tile 0).stream = some st0) ∧
    (let st := resting (.chain 0x1000 recordC 1 1)
     let s := tv st
     let x := { s.tile 0 with preempt := true }
     ((s.setTile 0 x).tile 0).preempt = true ∧ x.savePoint st = true ∧ x.settled st = true ∧ nextPart recordC 1 1 = some (1, 1, 0x80, 1) ∧
       recordC ≠ []) ∧
    (ts.tilesDue.find? ts.tileDueOk = none ∧ ts.freshSets = []) ∧
    (∃ x, freshTile.tilesDue.find? freshTile.tileDueOk = some (.fresh 0) ∧ Tbl.find? freshTile.launches 0 = some x ∧ x.phase = .running ∧
      tileRec x.hdr = false ∧ freshTile.pickTiles x.ctx x.hdr = some [0] ∧ (freshTile.tile 0).stream = none ∧ (freshTile.tile 0).owner = none) ∧
    (sleeping.tilesDue.find? sleeping.tileDueOk = some (.saved 0 0) ∧ (sleeping.tile 0).stream = some { st0 with saved := true }) ∧
    (ts.tile 0).settled st0 = false ∧
    (let st := resting (.chain 0x1000 recordC 2 0)
     let s := tv st
     (s.tile 0).stream = some st ∧ (s.tile 0).settled st = true ∧ nextPart recordC 2 0 = none ∧ s.channelsOf 0 = 0 ∧
       recDoneB recordC = 0xFFFF ∧ recNext recordC ≠ 0) ∧
    (let st := resting (.chain 0x1000 [] 0 0)
     let s := (tv st).writeBytes 0x11000 ((recordC.map (fun d => wordBytes [d.extractLsb' 0 32, d.extractLsb' 32 32])).flatten)
     (s.tile 0).stream = some st ∧ (s.tile 0).settled st = true ∧ (s.tile 0).preempt = false ∧ s.cur.ctx = s.tileCtx 0 ∧
       Reach s 0x1000 64 64 false true 0x11000 page0 ∧ s.isMarked 0x11000 64 = false ∧
       recordSound ((List.range 8).map (fun i => s.readDword (0x11000 + 8 * i))) = true ∧
       s.launchBeadOk (s.tileCtx 0) (recDoneB ((List.range 8).map (fun i => s.readDword (0x11000 + 8 * i)))) = true) ∧
    (let st := resting (.chain 0x1000 [] 0 0)
     recordSound ((List.range 8).map (fun i => (tv st).readDword (0x11000 + 8 * i))) = false) ∧
    (let st := resting .plain
     let s := tv st
     (s.tile 0).stream = some st ∧ (s.tile 0).settled st = true ∧ s.channelsOf 0 = 0 ∧ ∀ e, e < 16 → ((s.tile 0).region e).wb = false) := by
  refine ⟨by decide +kernel, by decide +kernel, by decide +kernel, ⟨(Tbl.find? freshTile.launches 0).get (by decide +kernel), by decide +kernel⟩,
    by decide +kernel, by decide +kernel, by decide +kernel,
    ⟨by decide +kernel, by decide +kernel, by decide +kernel, by decide +kernel, reach0 false true (by decide) (by decide +kernel) (by decide +kernel),
      by decide +kernel, by decide +kernel, by decide +kernel⟩, by decide +kernel, by decide +kernel⟩

/-- A fence that waits takes effect between parts. -/
theorem witness_SavingAndStreams_fence : (let st := resting (.chain 0x1000 recordC 1 1)
     let s := tv st
     let x : Tile := { s.tile 0 with preempt := true, fenceDue := 1 }
     ((s.setTile 0 x).tile 0).preempt = true ∧ x.savePoint st = true ∧ x.fenceDue ≠ 0 ∧ x.settled st = true ∧ st.pos ≠ .plain ∧
       st.atPoint = true) ∧ (ts.tile 0).fenceDue = 0 := by decide +kernel

/-! ### The host, boot, errors and power -/

/-- Context 511 live, whose queue 7 has two entries; and its event ring of 16 entries, full with one event held. -/
def lq7 : LaunchQueue := { LaunchQueue.reset with qctl := 1, qtail := 3 }
def hosted : State := (rs.setCtx 511 { rs.ctx 511 with live := true, ring := ⟨0x30000, 4, 0, 15, 1, [[1, 2, 3, 4]]⟩ }).setLaunchQueue 511 7 lq7

theorem witness_HostReaches :
    (paExists (618475290624 - 1) = true ∧ paExists 618475290624 = false ∧ paExists (2 ^ 51) = true ∧ paExists (2 ^ 52) = false) ∧
    State.reset.boot ≠ .running ∧ rs.boot = .running ∧
    ((rs.launchQueue 511 7).size = 0 ∧ (rs.ctx 511).live = false ∧ (rs.ctx 511).ring.held = []) ∧
    ((hosted.launchQueue 511 7).size = 2 ∧ (hosted.ctx 511).live = true ∧ (hosted.ctx 511).ring.held = [[1, 2, 3, 4]] ∧
      ({ (hosted.ctx 511).ring with head := (1 : BitVec 64).toNat } : EventRing).isFull = false) ∧
    ((0 : BitVec 64).toNat < { rs with time := 1 }.time ∧ rs.time ≤ (0 : BitVec 64).toNat) ∧ (0x1FFF : BitVec 64) &&& 0x1FFF ≠ 0 := by
  decide +kernel

theorem witness_HostCommands :
    (CanCommand rs ∧ (rs.ctx 511).live = false ∧ (0x4000 : BitVec 64).toNat % 16384 = 0) ∧
    ((rs.ctx 0).live = true ∧ (0x2000 : BitVec 64).toNat % 16384 ≠ 0 ∧ (Tbl.find? rs.launches 0).isSome = true ∧
      (ts.tile 0).owner = some 0) ∧
    (rs.shoot = none ∧ (let s := { rs with shoot := some (0, 0, 65536, [469]) }
      s.shoot = some (0, 0, 65536, [469]) ∧ (∀ k ∈ [469], k = 469) ∧ ∃ k ∈ [469], k ≠ 0)) ∧
    ((9437183 + 1) * 65536 ≤ 576 * 2 ^ 30 ∧ 9436672 % 512 = 0 ∧ (9436672 + 512) * 65536 ≤ 576 * 2 ^ 30) ∧
    (50175 / 8192 < 7 ∧ 50175 % 8192 < 0x400 ∧ Tbl.find? rs.dieBeadOwner 50175 = none) ∧
    (let s := { rs with dieBeadOwner := [(50175, 0)] }
     Tbl.find? s.dieBeadOwner 50175 = some 0 ∧ s.dieBeadBusy 50175 = false ∧ Tbl.find? s.dieBeadOwner 50175 ≠ some 1) ∧
    (rs.linkStream 11 65535 = none ∧ (let s := linked (.fresh 0) 0 0 0
      s.linkStream 11 65535 = some (.fresh 0) ∧ (LinkStream.fresh 0).ctx = 0 ∧ s.streamBusy 11 65535 = false)) := by
  refine ⟨⟨⟨by decide +kernel, by decide +kernel⟩, by decide +kernel⟩, by decide +kernel, by decide +kernel, by decide, by decide +kernel,
    by decide +kernel, by decide +kernel⟩

/-- The strand halted at TRAP 0, the word at its pc; a tile stream halted; a die that is quiet, one whose reset waits, and a node table
with one entry. -/
def halted0 : State :=
  let s := (rs.writeBytes 0x10000 (wordBytes [0x80980000])).setStrand 18432 { rs.strand 18432 with stat := .halted, trapCause := 0x0F }
  s.setOwner 288 { s.owner 288 with tcause := 0x0F, dbgstat := 1 }
def haltedTile : State := tv { st0 with halted := true }
def resetting : State := { ts with dies := [(3, .resetting (some 99))] }
def noded : State :=
  { rs.writeBytes 0x11000 (wordBytes ([0x2000, 0] ++ List.replicate 14 0)) with launches := [] }

theorem witness_HostDirects :
    (CanCommand halted0 ∧ (halted0.strand (strandKey 288 0)).stat = .halted ∧ halted0.debugHalted 288 64 = true ∧
      halted0.launchOf 288 = some 0 ∧ (Tbl.find? halted0.launches 0).isSome = true ∧ (halted0.strand 18432).trapCause = 0x0F ∧
      halted0.afterTrapped 0 (halted0.strand 18432).trapCause.toNat (halted0.strand 18432).bpSkip (halted0.strand 18432).pc = some 4) ∧
    (halted0.recordWaits 0 = false ∧ haltedTile.launchOf 0 = some 0 ∧ haltedTile.recordWaits 0 = false ∧
      (let c := halted0.ctx 0
       let e : List Dword := [2 ^ 56, ((Tbl.find? halted0.launches 0).map launchWord).getD 0]
       (halted0.setCtx 0 { c with ring := { c.ring with held := List.replicate 65 e } }).recordWaits 0 = true)) ∧
    (rs.strand (strandKey 288 0)).isHalted = false ∧
    (∃ st, CanCommand haltedTile ∧ (haltedTile.tile 0).stream = some st ∧ st.halted = true ∧ st.running = true) ∧
    (rs.die 5 = .running ∧ rs.dieQuiet 5 = true ∧ rs.dieQuiet 0 = false ∧ (∀ e ∈ rs.dieBeadOwner, e.1 / 8192 ≠ 5) ∧
      rs.ctxs.all (fun e => !(e.2.live && rs.backedOn 5 e.1)) = true) ∧
    resetting.die 3 = .resetting (some 99) ∧ ({ rs with dieBeadOwner := [(40960, 0)] } : State).dieBeadOwner = [(40960, 0)] ∧
    ((rs.ctx 0).live = true ∧ rs.channelsOn (24 + 0 % 8) < 64 ∧ 2251799813685232 + 16 ≤ 2 ^ 51) ∧
    rs.liveLaunch 0 = true ∧
    (CanCommand noded ∧ (noded.ctx 0).live = true ∧ noded.liveLaunch 0 = false ∧ noded.cur.ctx = 0 ∧
      Reach noded 0x1000 8 8 false true 0x11000 page0 ∧ noded.readDword 0x11000 = 0x2000 ∧
      Reach noded 0x2000 64 64 false true 0x12000 page0 ∧ noded.headerCode 0 (noded.headerAt 0x12000) true ≠ 0) ∧
    (noded.writableRange 0 0x40 (4096 * 8) = true ∧ (noded.ctx 0).nodes = []) := by
  refine ⟨⟨⟨by decide +kernel, by decide +kernel⟩, by decide +kernel⟩, by decide +kernel, by decide +kernel,
    ⟨{ st0 with halted := true }, ⟨by decide +kernel, by decide +kernel⟩, by decide +kernel⟩, by decide +kernel, by decide +kernel, rfl,
    by decide +kernel, by decide +kernel,
    ⟨⟨by decide +kernel, by decide +kernel⟩, by decide +kernel, by decide +kernel, by decide +kernel,
      reach0 false true (by decide) (by decide +kernel) (by decide +kernel), by decide +kernel, reach0 false true (by decide) (by decide +kernel) (by decide +kernel),
      by decide +kernel⟩, by decide +kernel⟩

/-- A node's header that the hub accepts, with a pool for its records. -/
def nodeHeader : List Dword := [0, 0, 0, 0x0000480000000001, 0, 0, 0x0000FFFF0000FFFF, 0x0000000100010010]
def accepting : State :=
  let s := noded.writeBytes 0x12000 ((nodeHeader.map (fun d => wordBytes [d.extractLsb' 0 32, d.extractLsb' 32 32])).flatten)
  s.setCtx 0 { s.ctx 0 with poolBase := 0x4000, poolSize := 64, poolCount := 4 }
theorem witness_HostDirects_waits : accepting.headerWaits 0 (accepting.headerAt 0x12000) true = false ∧
    hdrPlan (accepting.headerAt 0x12000) = 0 ∧ noded.headerWaits 0 (noded.headerAt 0x12000) true = false := by decide +kernel

theorem witness_HostDirects_node : accepting.headerCode 0 (accepting.headerAt 0x12000) true = 0 := by decide +kernel

/-- Flash with a passing record and firmware in their second places. -/
def img (rec_ b : Bool) : FlashImage := ⟨rec_, b, true, 3, 4000, [(287, 8)], [], [(2, 2)], 0x88B5, false, 2300, 2500, 1, [143], [286], []⟩
def bad (rec_ b : Bool) : FlashImage := { img rec_ b with verifies := false }
def flash0 : Flash := ⟨bad true false, img true true, img false false, bad false true, 3, 3, true, [(0, 1)]⟩
def started : State := { State.reset with flash := flash0 }

theorem witness_BootAndMailbox :
    (rs.boot ≠ .off ∧ State.reset.boot = .off ∧ aonLost started 6 = false ∧ started.flash.record = some (img true true) ∧
      started.flash.firmware = some (img false false)) ∧
    (let s := { started with flash := { flash0 with counterOk := false } }
     aonLost s 6 = false ∧ s.flash.record = none) ∧
    (let s := { rs with flash := flash0 }
     s.boot = .running ∧ (img true false).isRecord = true ∧ (img true false).slotB = false ∧
       ((img true true).verifies = true ∧ flash0.cfgsvn ≤ (img true true).version) ∧ (bad true false).verifies = false ∧
       (img false true).isRecord = false ∧ (img false true).slotB = true ∧ s.flash.slotA.verifies = true ∧ s.flash.fwsvn ≤ s.flash.slotA.version) ∧
    (∃ e, ({ rs with errLog := [⟨⟨1, 2, 3, 4, 5, 6⟩, 7, 8⟩] } : State).errLog[0]? = some e) :=
  ⟨by decide +kernel, by decide +kernel, by decide +kernel, ⟨_, rfl⟩⟩

theorem witness_SoftErrors : State.reset.boot = .off ∧ rs.boot ≠ .off ∧ Tbl.find? rs.crews 0 = some crew0 ∧ rs.launchOf 288 = some 0 ∧
    (∃ x, Tbl.find? rs.strands 18432 = some x ∧ x.live = true) ∧ ((ts.tile 0).stream = some st0 ∧ st0.running = true ∧ st0.restarts < 3) ∧
    (Tbl.find? rs.launches 0).isSome = true ∧ (0xC3FF : BitVec 16).toNat % 8192 < 0x400 :=
  ⟨by decide +kernel, by decide +kernel, by decide +kernel, by decide +kernel,
    ⟨(Tbl.find? rs.strands 18432).get (by decide +kernel), by decide +kernel⟩, by decide +kernel, by decide +kernel, by decide⟩

theorem witness_PowerAndTestPort :
    (let s := { rs with power := ⟨3600, 2050, 2050, 0, [], []⟩ }
     s.boot = .running ∧ s.power.plim < 3601 ∧ 2000 < s.power.tensorClock ∧ 2000 < s.power.rasterClock ∧ 20 * 3419 < 19 * s.power.plim ∧
       19 * s.power.plim ≤ 20 * 3420 ∧ s.power.steps = []) ∧
    (let s := { rs with power := ⟨3600, 2000, 2000, 15, [.idle], [.vaon 5]⟩ }
     s.power.rasterClock = 2000 ∧ s.power.idle < 16 ∧ s.power.steps = .idle :: [] ∧ Rail.vaon 5 ∈ s.power.badRails ∧
       Rail.vaon 6 ∉ s.power.badRails) ∧
    (∃ d, d < 6 ∧ rs.die d = .running ∧ ∃ n ∈ computeIslands d, rs.railsGood d n = true) ∧
    (∀ d, d < 6 → State.reset.die d = .inReset) ∧ 10 + 24 ∈ computeIslands 3 ∧
    (let s := { rs with usedRecord := some (img true true) }
     s.boot = .running ∧ s.ptpRole 2 = 2 ∧ s.ptpRole 3 ≠ 2 ∧ s.tstatLock = false) ∧
    ({ rs with tstatLock := true } : State).tstatLock = true :=
  ⟨by decide +kernel, by decide +kernel, ⟨5, by decide +kernel⟩, by decide +kernel, by decide, by decide +kernel, rfl⟩

/-! ### Steps and encodings -/

theorem witness_ResetState : State.reset.Inv := reset_inv

/-- A placed instruction: the state the host steps from keeps the invariant and answers a next state. -/
def placedAdd : State := State.reset.place [0x90006084]
def itemAdd : Item := ⟨.iadd ⟨0, false⟩ 3 1 2 false, true, false, false⟩

theorem placedAdd_step : goesOn (step placedAdd) = true := by decide +kernel
theorem witness_StepKeepsInv : placedAdd.Inv ∧ ∃ t, step placedAdd = .next t :=
  ⟨⟨by decide +kernel, by decide +kernel⟩, (next_of_goesOn placedAdd_step).elim (fun t h => ⟨t, h.1⟩)⟩

theorem witness_EncodingRoundTrip : itemAdd.ok .raster = true ∧ decodeWords .raster [0x90006084] = .ok (itemAdd, []) ∧
    (⟨.iaddi ⟨2, true⟩ 7 7 300, true, true, true⟩ : Item).ok .raster = true := by decide +kernel

/-- The group of `placedAdd`, and one that the execute processor takes. -/
def standing : State := { placedAdd with focus := .none }.standRaster [18432]
def group0 : Placed := ⟨0, itemAdd, [0x90006084]⟩
def path0 : PathGroup := ⟨0, [0x98004430], 0, none, 4, [], 0⟩
def executing : State := tv { st0 with head := none, exq := [path0] }

theorem witness_StepRunsDecoded :
    ({ rs with inbox := [.nop] } : State).inbox = .nop :: [] ∧
    (placedAdd.inbox = [] ∧ placedAdd.focus = .raster 0 ∧ (placedAdd.core 0).run = some ⟨[18432], 0, 0⟩ ∧
      CodeAt standing standing.cur.ctx 0 [0x90006084] ∧ decodeWords .raster [0x90006084] = .ok (itemAdd, []) ∧ itemAdd.stop = true ∧
      standing.cur.gpc = 0 ∧ breaksRules .raster [] itemAdd 0
        (((standing.cur.strands.map (fun i => (standing.strand i).loops.map (fun (l : Loop) => l.last))).flatten.eraseDups).contains 0) = false ∧
      standing.breakAt group0 = none ∧ convergent itemAdd.instr = false ∧ standing.cur.strands ≠ [] ∧
      (standing.allPoints [group0]).2 = none ∧ (standing.allPoints [group0]).1.cur.strands ≠ [] ∧
      goesOn (exec itemAdd.instr (handed (standing.allPoints [group0]).1 0 itemAdd)) = true) ∧
    (rs.cur.strands.Nodup ∧ 18432 ∈ rs.cur.strands ∧ (rs.strand 18432).stat = .ready ∧ (rs.strand 18432).moved = false ∧
      (rs.strand 18432).loops = []) ∧
    (∃ x st, (executing.tile 0).stream = some st ∧ st.exq = path0 :: [] ∧ st.halted = false ∧ st.saved = false ∧ path0.items = [x] ∧
      instrAccess x.item.instr = false ∧ { executing with focus := .execute 0 }.focus = .execute 0 ∧ executing.inbox = []) := by
  refine ⟨rfl, ⟨by decide +kernel, by decide +kernel, by decide +kernel, ?_, by decide +kernel, by decide, by decide +kernel, by decide +kernel,
    by decide +kernel, by decide +kernel, by decide +kernel, by decide +kernel, by decide +kernel, by decide +kernel⟩, by decide +kernel,
    ⟨path0.items.headD group0, { st0 with head := none, exq := [path0] }, by decide +kernel⟩⟩
  intro j w h
  match j with
  | 0 =>
    obtain rfl : (0x90006084 : Word) = w := by simpa using h
    exact ⟨by decide +kernel, page0, by decide +kernel⟩
  | n + 1 => simp at h

/-! ### Behaviour: expected results from the spec's worked examples -/

/-- The state an instruction leaves, where it answers one. -/
def run1 (i : Instr) (s : State) : State :=
  match exec i s with
  | .next t => t
  | _ => s

/-- 03 R58's example: a = -7, b = 2. -/
def divided : State := with3 rs 288 (-7) 2 0
theorem test_div : ((run1 (.divI 4 1 2) divided).getS 288 4).val = -3 ∧ ((run1 (.remI 4 1 2) divided).getS 288 4).val = -1 ∧
    ((run1 (.divN 4 1 2) divided).getS 288 4).val = 0x7FFFFFFFFFFFFFFC := by decide +kernel

/-- 04, element 37 of an MXFP4 page: STX of 2.5 rounds to code 2 and keeps the neighbour's A; LDX delivers 2.0. -/
def mxfp4 : State :=
  withV (((rs.setByte 0xC007 0x50).setByte 0x10012 0x7A).setByte 0x1F0F1 0x80) 18432 3 0x40200000
theorem test_stx_mxfp4 : (run1 (.stx g0 3 2 false 37) mxfp4).byte 0x10012 = 0x2A := by decide +kernel
theorem test_ldx_mxfp4 : ((run1 (.ldx g0 5 2 false 37) (run1 (.stx g0 3 2 false 37) mxfp4)).getV 18432 5).val = 0x40000000 := by
  decide +kernel

/-- 09's ray stack at v40: five pushes leave E, B, C, D and 5 with A in the scratchpad; a pop returns E and restores A. -/
def stack0 : State := (List.range 5).foldl (fun s k => withV s 18432 (10 + k) (BitVec.ofNat 32 (0xA + k)))
  (withV (scratched.setLaunch 0 { launchR with hdr := [0, 0, 0, 0x0000400000000001, 512, 0, 0x0000FFFF0000FFFF, 0], replay := none }) 18432 45 0x100)
def pushed : State := (List.range 5).foldl (fun s k => run1 (.rayStkPush g0 40 (BitVec.ofNat 6 (10 + k))) s) stack0
theorem test_ray_push : (List.range 5).map (fun k => (pushed.getV 18432 (40 + k)).val.toNat) = [5, 0xE, 0xB, 0xC, 0xD] ∧
    pushed.scratchLE 0 0x100 4 = 0xA := by decide +kernel
theorem test_ray_pop : (let t := run1 (.rayStkPop g0 50 40) pushed
    (t.getV 18432 50).val = 0xE ∧ (t.getV 18432 41).val = 0xA ∧ (t.getV 18432 40).val = 4) := by decide +kernel

/-- 11's bilinear example: a 2 x 2 FP32 texture holding 1, 2, 3, 4 at u = 0.3, v = 0.5. -/
def bilinear : State :=
  withS (withV (withV ((rs.setByte 0xC007 0x08).writeBytes 0x11000
    (wordBytes [0x2000, 0, 0x00010001, 0x02100000, 0, 0, 0, 0, 0x200])) 18432 8 0x3E99999A) 18432 9 0x3F000000) 288 2 0x1000
theorem test_tex_sample : ((run1 (.texSample g0 10 8 2)
    (bilinear.writeBytes 0x12000 (wordBytes [0x3F800000, 0x40000000, 0x40400000, 0x40800000]))).getV 18432 10).val = 0x40068000 := by
  decide +kernel

/-- 14's poison trace in strand 5: LD.S of a page that is not resident, IADD of the poison, CHK of the sum. -/
def strand5 : State :=
  let s := withS (rs.setStrand 18437 (Strand.fresh 0)) 288 2 0x10000
  { s with cur := { s.cur with strands := [18437] } }
theorem test_poison_trace : (let t := run1 (.chk 1 10) (run1 (.iadd g0 10 8 1 false) (run1 (.ldS g0 4 2 false 0) strand5))
    ((t.owner 288).tcause, (t.owner 288).taddr) = (0x0000004000050009, 0x10000)) := by decide +kernel

/-- 15's region example: a store to an absent line stays when the line fills from global memory. -/
def absentLine : State :=
  let s := withS (((mapped 0 0 0).setByte 0x11000 0x55).setByte 0x11008 0x66) 0 5 7
  s.setTile 0 { s.tile 0 with map := [(5, (0, 0x0000000301FF0000))], absent := [0x20] }
theorem test_region_fill : (let t := run1 (.lds g0 6 2 false 0x1000) (run1 (.sts g0 5 2 false 0x1008) absentLine)
    (t.getS 0 6).val = 0x55 ∧ (t.tile 0).readLE 0x1008 8 = 7 ∧ 0x1008 / 8 ∈ (t.tile 0).dirty) := by decide +kernel

/-- 02's examples: MXFP4 code B at scale 0x81 is -6; E4M3 01 at scale 0x76 under FZ is kept, at 0x01 flushed. -/
theorem test_ldx_values : (ldxValue 0x0A resetBook false 0x81 0xB).1 = 0xC0C00000 ∧ (ldxValue 0x06 resetBook true 0x76 0x01).1 = 0x36800000 ∧
    (ldxValue 0x06 resetBook true 0x01 0x01).1 = 0 := by decide +kernel

/-- 19's encodings of MLDB and CPY.LIN decode. -/
theorem test_decode_copies :
    decodeWords .tile [0xA4000000, 0x80001000] = .ok (⟨.mldb 256 0 false true ⟨false, 0, 0⟩, true, false, true⟩, []) ∧
    decodeWords .raster [0xB400828C, 0x16000A00] = .ok (⟨.cpyLin 4 5 6 false ⟨5, true, true, 2, 0⟩, true, false, true⟩, []) := by
  decide +kernel

/-! A changed table entry (15 R263): the old form and the new one may be used until the last unit acknowledges a shoot-down. -/

/-- The host has cleared the leaf of page 0. -/
def unmapped : State := rs.storeHost 0xC000 (List.replicate 16 0)

theorem test_old_translation : unmapped.walk 0 0 = .absent ∧ unmapped.oldWalks 0 0 = [.page page0] ∧ unmapped.oldWalks 0 65536 = [] := by
  decide +kernel

/-- The last acknowledgement of a shoot-down of that page drops the old form; that of another page leaves it. -/
theorem test_shoot_down :
    ({ unmapped with oldMaps := unmapped.droppedMaps shootAll 0 0 65536 } : State).oldWalks 0 0 = [] ∧
    ({ unmapped with oldMaps := unmapped.droppedMaps shootAll 0 65536 65536 } : State).oldWalks 0 0 = [.page page0] := by
  decide +kernel

end Sys2Proof.Tests
end

namespace Sys2Proof.Machine
open Host (Outcome)

/-! ## Every step keeps the canonical form (15 R257)

Memory and the tags of its granules are written by a few operations alone: `setByte`, `zeroMem`, `copyMem` and `setTag`, which Laws/Memory
treats, and the loss of power, which keeps the host's bytes. `State.Inv.f` says that the function `f` of the model keeps the form: of the
state that `f` answers, or, where `f` answers `.ok u` or `.next u`, of that `u`. Each follows the body of `f`, in the order of the model's
own files, so that `h.f.g` is the proof for a state that `g` makes of what `f` made. -/

section KeepsInv
variable {s u : State}

/-! ### Lists, pairs and outcomes that keep it -/

theorem State.Inv.ite {c : Prop} [Decidable c] {t : State} (h : s.Inv) (h' : t.Inv) : (if c then s else t).Inv := by
  split
  · exact h
  · exact h'

theorem State.Inv.getD {o : Option State} (h : s.Inv) (ho : ∀ {t}, o = some t → t.Inv) : (o.getD s).Inv := by
  cases o with
  | none => exact h
  | some t => exact ho rfl

theorem State.Inv.setCur {c} (h : s.Inv) : State.Inv { s with cur := c } :=
  ⟨h.mem, h.tags⟩

theorem State.Inv.foldl {α : Type} {f : State → α → State} {l : List α} (h : s.Inv)
    (hf : ∀ {t a}, t.Inv → (f t a).Inv) : (l.foldl f s).Inv :=
  foldl_keeps State.Inv f (fun _ _ k => hf k) l s h

/-- What each application keeps, a fold that succeeds keeps. -/
theorem foldlM_keeps {σ α ε : Type} (p : σ → Prop) {f : σ → α → Except ε σ} {l : List α} {x y : σ} (hx : p x)
    (hf : ∀ {x a y}, p x → f x a = .ok y → p y) (e : l.foldlM f x = .ok y) : p y := by
  induction l generalizing x with
  | nil => cases e; exact hx
  | cons a l ih =>
    rw [List.foldlM_cons] at e
    cases e' : f x a with
    | error => rw [e'] at e; cases e
    | ok z => rw [e'] at e; exact ih (hf hx e') e

theorem State.Inv.foldlM {α ε : Type} {f : State → α → Except ε State} {l : List α} (h : s.Inv)
    (hf : ∀ {t a v}, t.Inv → f t a = .ok v → v.Inv) (e : l.foldlM f s = .ok u) : u.Inv :=
  foldlM_keeps State.Inv h hf e

theorem State.Inv.of_next (h : s.Inv) (e : Outcome.next s = (.next u : Outcome State Fault Refusal)) : u.Inv := by
  cases e; exact h

theorem State.Inv.of_ok {ε : Type} (h : s.Inv) (e : (Except.ok s : Except ε State) = .ok u) : u.Inv := by
  cases e; exact h

theorem State.Inv.of_ok_pair {ε α : Type} {a b : α} (h : s.Inv)
    (e : (Except.ok (a, s) : Except ε (α × State)) = .ok (b, u)) : u.Inv := by
  cases e; exact h

theorem State.Inv.of_fst {α : Type} {x : State × α} {a : α} (h : x.1.Inv) (e : x = (u, a)) : u.Inv := by
  subst e; exact h

theorem State.Inv.of_snd {α : Type} {x : α × State} {a : α} (h : x.2.Inv) (e : x = (a, u)) : u.Inv := by
  subst e; exact h

theorem State.Inv.of_snd_snd {α β : Type} {x : α × β × State} {a : α} {b : β} (h : x.2.2.Inv) (e : x = (a, b, u)) : u.Inv := by
  subst e; exact h

/-- What a group clears before its instructions act is not checked again. -/
theorem State.Inv.unlessCleared {c : Bool} {x : Eff State} (h : s.Inv) (hx : ∀ {t}, x = .ok t → t.Inv)
    (e : (if c then .ok s else x) = .ok u) : u.Inv := by
  split at e
  · cases e; exact h
  · exact hx e

theorem ok_of_ite {ε α : Type} {c p : Prop} [Decidable c] {x y : Except ε α} {a : α} (e : (if c then x else y) = .ok a)
    (hx : x = .ok a → p) (hy : y = .ok a → p) : p := by
  split at e
  · exact hx e
  · exact hy e

theorem ok_of_map {ε α β : Type} {f : α → β} {x : Except ε α} {b : β} (e : x.map f = .ok b) :
    ∃ a, x = .ok a ∧ f a = b := by
  cases x with
  | error _ => cases e
  | ok a => exact ⟨a, rfl, Except.ok.inj e⟩

theorem ok_of_bind {ε α β : Type} {f : α → Except ε β} {x : Except ε α} {b : β} (e : x >>= f = .ok b) :
    ∃ a, x = .ok a ∧ f a = .ok b := by
  cases x with
  | error _ => cases e
  | ok a => exact ⟨a, rfl, e⟩

/-! ### The state's own operations -/

theorem State.Inv.setOwner {o w} (h : s.Inv) : (s.setOwner o w).Inv := h.of_eq rfl rfl

theorem State.Inv.setStrand {i x} (h : s.Inv) : (s.setStrand i x).Inv := h.of_eq rfl rfl

theorem State.Inv.setCore {c x} (h : s.Inv) : (s.setCore c x).Inv := h.of_eq rfl rfl

theorem State.Inv.setTile {t x} (h : s.Inv) : (s.setTile t x).Inv := h.of_eq rfl rfl

theorem State.Inv.setCtx {c x} (h : s.Inv) : (s.setCtx c x).Inv := h.of_eq rfl rfl

theorem State.Inv.setBundle {b x} (h : s.Inv) : (s.setBundle b x).Inv := h.of_eq rfl rfl

theorem State.Inv.setCrew {c x} (h : s.Inv) : (s.setCrew c x).Inv := h.of_eq rfl rfl

theorem State.Inv.setLaunch {l x} (h : s.Inv) : (s.setLaunch l x).Inv := h.of_eq rfl rfl

theorem State.Inv.setS {o r x} (h : s.Inv) : (s.setS o r x).Inv := .ite h h.setOwner

theorem State.Inv.putS {o r x} (h : s.Inv) : (s.putS o r x).Inv := h.setS

theorem State.Inv.setV {i n x} (h : s.Inv) : (s.setV i n x).Inv := h.setStrand

theorem State.Inv.putV {i n x} (h : s.Inv) : (s.putV i n x).Inv := h.setV

theorem State.Inv.setD2 {i n x} (h : s.Inv) : (s.setD2 i n x).Inv := h.setV.setV

theorem State.Inv.setP {i n v} (h : s.Inv) : (s.setP i n v).Inv := .ite h h.setStrand

theorem State.Inv.raise {o f} (h : s.Inv) : (s.raise o f).Inv := .ite h h.setOwner

theorem State.Inv.newOrigin {o x} (h : s.Inv) : (s.newOrigin o x).2.Inv := h.setOwner

theorem State.Inv.free (h : s.Inv) : s.free.2.Inv := h.of_eq rfl rfl

theorem State.Inv.readTime (h : s.Inv) : s.readTime.2.Inv := h.of_eq rfl rfl

theorem State.Inv.noteWord {x w} (h : s.Inv) : (s.noteWord x w).Inv := h.of_eq rfl rfl

theorem State.Inv.noteEntry {x} (h : s.Inv) : (s.noteEntry x).Inv := .ite (h.of_eq rfl rfl) h

theorem State.Inv.noteEntries {pa n} (h : s.Inv) : (s.noteEntries pa n).Inv := .ite h (h.foldl .noteEntry)

theorem State.Inv.noteStore {x pa n} (h : s.Inv) : (s.noteStore x pa n).Inv :=
  .ite h ((h.foldl .noteWord).of_eq rfl rfl)

theorem State.Inv.ringPost {r kind ops} (h : s.Inv) : (s.ringPost r kind ops).2.Inv := by
  unfold State.ringPost
  extract_lets e r1 h' left
  split
  · split <;> exact h
  · exact h.ringWrite ..

theorem State.Inv.post {ctx kind ops} (h : s.Inv) : (s.post ctx kind ops).Inv := h.ringPost.setCtx

theorem State.Inv.postGlobal {kind ops} (h : s.Inv) : (s.postGlobal kind ops).Inv := h.ringPost.of_eq rfl rfl

theorem State.Inv.finishCommand {r} (h : s.Inv) : (s.finishCommand r).Inv := h.of_eq rfl rfl

theorem State.Inv.countCorrected {die unit} (h : s.Inv) : (s.countCorrected die unit).Inv := h.of_eq rfl rfl

theorem State.Inv.log {x} (h : s.Inv) : (s.log x).Inv := h.free.of_eq rfl rfl

theorem State.Inv.captureValue {c seq idx st ord kind v} (h : s.Inv) : (s.captureValue c seq idx st ord kind v).Inv := by
  unfold State.captureValue
  extract_lets x
  split
  · exact h
  · exact .ite h (.ite h.setCtx.log (((((h.hubWrite ..).hubWrite ..).hubWrite ..).hubWrite ..).setCtx))

theorem State.Inv.deliverWith {o st kind live} (h : s.Inv) : (s.deliverWith o st kind live).2.Inv := by
  unfold State.deliverWith
  split
  · exact h
  · split
    · exact h
    · extract_lets idx key ord s1
      have h1 : s1.Inv := h.setLaunch
      split
      · exact h1
      · exact h1.captureValue

theorem State.Inv.deliver {o st kind live} (h : s.Inv) : (s.deliver o st kind live).2.Inv := by
  unfold State.deliver
  split
  · exact h.deliverWith.of_snd ‹_›
  · exact (h.deliverWith.of_snd ‹_›).log

theorem State.Inv.writeSlot {ctx from_ status seq evseq} (h : s.Inv) : (s.writeSlot ctx from_ status seq evseq).Inv := by
  unfold State.writeSlot
  split
  · extract_lets qq n at0
    exact (h.hubWrite ..).hubWrite ..
  · exact h

theorem State.Inv.killStrand {i} (h : s.Inv) : (s.killStrand i).Inv := h.setStrand

theorem State.Inv.setStream {t f} (h : s.Inv) : (s.setStream t f).Inv := h.setTile

theorem State.Inv.markServed {o} (h : s.Inv) : (s.markServed o).Inv := by
  unfold State.markServed
  split
  · exact h.setStream
  · refine h.foldl fun k => ?_
    split
    · exact k.setStrand
    · exact k.setStrand
    · exact k

theorem State.Inv.serveWaiter {w} (h : s.Inv) : (s.serveWaiter w).Inv := by
  unfold State.serveWaiter
  split
  · exact h.markServed
  · split
    · split
      · exact h.setLaunch
      · exact h
    · exact h
  · split
    · exact h.of_eq rfl rfl
    · exact h

theorem State.Inv.leaveBeads {gone} (h : s.Inv) : (s.leaveBeads gone).Inv := by
  unfold State.leaveBeads
  extract_lets served t
  have ht : t.Inv := h.of_eq rfl rfl
  exact ht.foldl .serveWaiter

theorem State.Inv.forgetWaits {o} (h : s.Inv) : (s.forgetWaits o).Inv := h.leaveBeads

theorem State.Inv.dropMeshes {c} (h : s.Inv) : (s.dropMeshes c).Inv := h.of_eq rfl rfl

theorem State.Inv.stopCrew {c} (h : s.Inv) : (s.stopCrew c).Inv := by
  unfold State.stopCrew
  split
  · exact h
  · extract_lets s1 s2 gone s3
    have h1 : s1.Inv := h.dropMeshes.foldl fun k => k.foldl .killStrand
    have h2 : s2.Inv := h1.foldl .forgetWaits
    have h3 : s3.Inv := by
      unfold s3
      split
      · exact h2
      · extract_lets cs run mill
        exact h2.setCore
    exact h3.setCrew

theorem State.Inv.freeRecords {ctx rs} (h : s.Inv) : (s.freeRecords ctx rs).Inv := h.setCtx

theorem State.Inv.dropStream {t} (h : s.Inv) : (s.dropStream t).Inv := by
  unfold State.dropStream
  extract_lets x s1 s2
  have h1 : s1.Inv := h.forgetWaits
  have h2 : s2.Inv := h1.setTile
  exact h2.of_eq rfl rfl

theorem State.Inv.abortLaunch {l evseq} (h : s.Inv) : (s.abortLaunch l evseq).Inv := by
  unfold State.abortLaunch
  split
  · exact h
  · extract_lets same ids crews unplaced held s1 s2 s3 c
    have h1 : s1.Inv := h.leaveBeads.foldl .stopCrew
    have h2 : s2.Inv := by
      unfold s2
      refine .foldl (.of_eq h1 rfl rfl) fun k => ?_
      split
      · exact k.dropStream
      · exact k
    have h3 : s3.Inv := by
      unfold s3
      refine h2.foldl fun k => ?_
      split
      · exact k.setLaunch
      · exact k
    split
    · extract_lets nd
      exact h3.setCtx.freeRecords
    · exact h3.writeSlot

theorem State.Inv.trapOwner {cause addr x pc o} (h : s.Inv) : (s.trapOwner cause addr x pc o).Inv := h.setOwner

theorem State.Inv.haltStrand {pc cause i} (h : s.Inv) : (s.haltStrand pc cause i).Inv := h.setStrand

theorem State.Inv.markStopped {b} (h : s.Inv) : (s.markStopped b).Inv := .ite h h.setOwner

theorem State.Inv.stopStrand {i} (h : s.Inv) : (s.stopStrand i).Inv := by
  unfold State.stopStrand
  extract_lets x
  split
  · exact .ite h.setStrand h.setStrand.markStopped
  · exact h.setStrand.markStopped
  · exact h.setStrand
  · exact h

theorem State.Inv.stopNow {i} (h : s.Inv) : (s.stopNow i).Inv := by
  unfold State.stopNow
  extract_lets x stop
  have hstop : ∀ {i : Option Wait}, (stop i).Inv := by
    intro i'
    unfold stop
    exact h.setStrand.markStopped
  split
  · split
    · exact hstop
    · exact hstop
    · exact h
  · exact h

theorem State.Inv.postRecord {ctx crew l os is} (h : s.Inv) : (s.postRecord ctx crew l os is).Inv := by
  unfold State.postRecord
  split
  · exact h
  · exact h.foldl .post

theorem State.Inv.postTraps {ctx os is} (h : s.Inv) : (s.postTraps ctx os is).Inv := h.foldl .postRecord

theorem State.Inv.takeTrapWith {cause addr x detail} (h : s.Inv) : (s.takeTrapWith cause addr x detail).Inv := by
  unfold State.takeTrapWith
  extract_lets c os s1 s2 s3 ev ls s4 s4' ctl crews others rest s5
  have h1 : s1.Inv := h.foldl .trapOwner
  have h2 : s2.Inv := h1.foldl .haltStrand
  have h3 : s3.Inv := by
    unfold s3
    refine h2.foldl fun k => ?_
    split
    · exact k.setTile
    · exact k
  have h4 : s4.Inv := h3.postTraps
  have hs4' : s4'.Inv := h4.of_eq rfl rfl
  have h5 : s5.Inv := by
    unfold s5
    split
    · split
      · exact hs4'
      · exact hs4'.foldl .stopStrand
    · refine hs4'.foldl fun k => ?_
      split
      · exact k
      · exact k.abortLaunch
  exact h5.of_eq rfl rfl

theorem State.Inv.takeTrap {cause addr x} (h : s.Inv) : (s.takeTrap cause addr x).Inv := h.takeTrapWith

theorem State.Inv.endContext {c cause addr} (h : s.Inv) : (s.endContext c cause addr).Inv := by
  unfold State.endContext
  extract_lets ids crews s1 tiles s2 s2' s3 ev s4 s5 s6 x s7 s8
  have h1 : s1.Inv := h.leaveBeads.foldl .stopCrew
  have h2 : s2.Inv := by
    unfold s2
    refine h1.foldl fun k => ?_
    extract_lets d
    have hd : d.Inv := k.dropStream
    exact hd.setTile
  have hs2' : s2'.Inv := h2.of_eq rfl rfl
  have h3 : s3.Inv := hs2'.of_eq rfl rfl
  have h4 : s4.Inv := h3.post
  have h5 : s5.Inv := by
    unfold s5
    refine h4.foldl fun k => ?_
    split
    · exact k.writeSlot.setLaunch
    · exact k
  have h6 : s6.Inv := by
    unfold s6
    refine h5.foldl fun k => ?_
    refine k.foldl fun k' => ?_
    split
    · exact k'.writeSlot
    · exact k'
  have h7 : s7.Inv := h6.setCtx
  have h8 : s8.Inv := h7.of_eq rfl rfl
  split
  · split
    · exact h8.finishCommand
    · exact h8
  · exact h8

theorem State.Inv.splitFetched {addr o} (h : s.Inv) : (s.splitFetched addr o).Inv := h.setOwner

theorem State.Inv.fatalError {cause addr} (h : s.Inv) : (s.fatalError cause addr).Inv := by
  unfold State.fatalError
  extract_lets t u
  have ht : t.Inv := h.endContext
  have hu : u.Inv := by
    unfold u
    split
    · exact ht.foldl .splitFetched
    · exact ht
  exact hu.of_eq rfl rfl

theorem State.Inv.parkStrand {pc w i} (h : s.Inv) : (s.parkStrand pc w i).Inv := h.setStrand

theorem State.Inv.parkGroup {w} (h : s.Inv) : (s.parkGroup w).Inv := by
  unfold State.parkGroup
  extract_lets s1 s2
  have h1 : s1.Inv := h.foldl .parkStrand
  have h2 : s2.Inv := by
    unfold s2
    split
    · exact h1
    · refine h1.foldl fun k => ?_
      extract_lets k'
      exact k.setTile
  exact h2.of_eq rfl rfl

theorem State.Inv.conclude {r} (h : s.Inv) (hr : ∀ {t : State}, r = .ok t → t.Inv) (e : conclude s r = .next u) :
    u.Inv := by
  unfold Machine.conclude at e
  split at e
  · cases e; exact hr rfl
  · cases e; exact h.takeTrap
  · cases e; exact h.fatalError
  · cases e; exact h.parkGroup
  · cases e

theorem State.Inv.forOwners {f} (h : s.Inv) (hf : ∀ {i : ℕ} {t u : State}, t.Inv → f i t = .ok u → u.Inv)
    (e : forOwners s f = .ok u) : u.Inv :=
  h.foldlM hf e

theorem State.Inv.forStrands {g f} (h : s.Inv) (hf : ∀ {i : ℕ} {t u : State}, t.Inv → f i t = .ok u → u.Inv)
    (e : forStrands g s f = .ok u) : u.Inv :=
  h.foldlM hf e

/-! ### Memory, translation and pages (08, 15) -/

theorem State.Inv.translate {ctx va} (h : s.Inv) : (s.translate ctx va).2.Inv := by
  unfold State.translate
  split
  · exact h
  · extract_lets f
    exact h.free

theorem State.Inv.noteFrame {ws} (h : s.Inv) : (s.noteFrame ws).Inv := h.foldl .noteWord

theorem State.Inv.hideOlds {pa n} (h : s.Inv) : (s.hideOlds pa n).Inv := h.of_eq rfl rfl

theorem State.Inv.takeFrame {large r} (h : s.Inv) (e : s.takeFrame large = some (r, u)) : u.Inv := by
  unfold State.takeFrame at e
  extract_lets pool at e
  split at e
  · cases e
  · extract_lets p s1 low at e
    have h1 : s1.Inv := by
      unfold s1
      split <;> exact h.of_eq rfl rfl
    cases e
    split
    · exact h1.postGlobal
    · exact h1

theorem State.Inv.backPage {entry e0 e1 large} (h : s.Inv) (e : s.backPage entry e0 e1 large = some u) : u.Inv := by
  unfold State.backPage at e
  split at e
  · cases e
  · extract_lets s2 at e
    have h2 : s2.Inv := (h.takeFrame ‹_›).zeroMem ..
    split at e
    · split at e
      · cases e
      · extract_lets s4 e1' at e
        have h4 : s4.Inv := (h2.takeFrame ‹_›).zeroMem ..
        cases e; exact (h4.writeLE ..).writeLE ..
    · cases e; exact h2.writeLE ..

theorem State.Inv.migratePage {entry e0 e1 large} (h : s.Inv) (e : s.migratePage entry e0 e1 large = some u) : u.Inv := by
  unfold State.migratePage at e
  split at e
  · cases e
  · extract_lets n s2 at e
    have h2 : s2.Inv := ((h.takeFrame ‹_›).zeroMem ..).copyMem ..
    split at e
    · split at e
      · cases e
      · extract_lets s4 e1' at e
        have h4 : s4.Inv := ((h2.takeFrame ‹_›).zeroMem ..).copyMem ..
        cases e; exact (h4.writeLE ..).writeLE ..
    · cases e; exact h2.writeLE ..

theorem State.Inv.pageFor {ctx addr write q} (h : s.Inv) (e : s.pageFor ctx addr write = .ok (q, u)) : u.Inv := by
  unfold State.pageFor at e
  extract_lets allow r at e
  have hallow : ∀ {i : PageInfo} {t : State} {q : PageInfo} {u : State}, t.Inv → allow i t = Except.ok (q, u) → u.Inv := by
    intro i t r5' u' k e
    unfold allow at e
    split at e
    · split at e
      · cases e
        exact k
      · cases e
    · split at e
      · cases e
        exact k
      · cases e
  split at e
  · exact hallow h.translate e
  · split at e
    · cases e
    · split at e
      · exact hallow (h.translate.backPage ‹_›) e
      · cases e
  · cases e
  · cases e

theorem State.Inv.globalAccess {ctx addr n align write tagCheck r q} (h : s.Inv)
    (e : s.globalAccess ctx addr n align write tagCheck = .ok (r, q, u)) : u.Inv := by
  unfold State.globalAccess at e
  split at e
  · cases e
  · split at e
    · cases e
    · split at e
      · cases e
      · extract_lets pa at e
        split at e
        · cases e
        · split at e
          · exact (h.pageFor ‹_›).of_snd_snd (Except.ok.inj e)
          · cases e

theorem State.Inv.backIfReserved {ctx addr} (h : s.Inv) : (s.backIfReserved ctx addr).Inv := by
  unfold State.backIfReserved
  split
  · exact h.getD h.backPage
  · exact h

theorem State.Inv.keepBacking {elem x} (h : s.Inv) : (s.keepBacking elem x).Inv := by
  unfold State.keepBacking
  split
  · exact h.backIfReserved
  · exact h

theorem State.Inv.concludeAccess {elem r} (h : s.Inv) (hr : ∀ {u : State}, r = .ok u → u.Inv)
    (e : concludeAccess elem s r = .next u) : u.Inv := by
  unfold Machine.concludeAccess at e
  split at e
  · refine h.keepBacking.conclude (fun e => ?_) e
    cases e
  · exact h.conclude hr e

theorem State.Inv.touch {b pa} (h : s.Inv) : (s.touch b pa).Inv := by
  unfold State.touch
  split
  · exact h
  · extract_lets bit x1
    split
    · exact h.setBundle
    · extract_lets c
      split
      · exact h.setCore.setBundle
      · exact h.setBundle

theorem State.Inv.laneGlobal {i addr n align write tagCheck r q} (h : s.Inv)
    (e : s.laneGlobal i addr n align write tagCheck = .ok (r, q, u)) : u.Inv := by
  unfold State.laneGlobal at e
  obtain ⟨⟨_, _, _⟩, _, e⟩ := ok_of_map e
  cases e; exact (h.globalAccess ‹_›).touch

theorem State.Inv.storeData {pa n v} (h : s.Inv) : (s.storeData pa n v).Inv := (h.noteWords ..).writeLE ..

theorem State.Inv.storeEngine {pa n v} (h : s.Inv) : (s.storeEngine pa n v).Inv := (h.noteWords ..).writeLE ..

theorem State.Inv.loaded {w o st addr pa bad} {v : BitVec w} (h : s.Inv) :
    (s.loaded o st addr pa bad v).2.Inv := by
  unfold State.loaded
  split
  · extract_lets r
    exact h.newOrigin.log
  · exact h

theorem State.Inv.setScratchByte {c a v} (h : s.Inv) : (s.setScratchByte c a v).Inv := by
  unfold State.setScratchByte
  split
  · exact h.setCrew
  · exact h

theorem State.Inv.writeScratch {c a n v} (h : s.Inv) : (s.writeScratch c a n v).Inv := by
  induction n generalizing s a v with
  | zero => exact h
  | succ n ih => exact ih h.setScratchByte

theorem State.Inv.fillLine {t line r} (h : s.Inv) (e : s.fillLine t line r = .ok u) : u.Inv := by
  unfold State.fillLine at e
  extract_lets va at e
  split at e
  · cases e
  · extract_lets x x1 bad at e
    cases e; exact (h.globalAccess ‹_›).setTile

theorem State.Inv.needLine {t line} (h : s.Inv) (e : s.needLine t line = .ok u) : u.Inv := by
  unfold State.needLine at e
  extract_lets x at e
  split at e
  · cases e; exact h
  · split at e
    · cases e
    · split at e
      · cases e
      · exact h.fillLine e

theorem State.Inv.fetchMem {pa seen} (h : s.Inv) : (s.fetchMem pa seen).2.Inv := by
  unfold State.fetchMem
  extract_lets now f
  split
  · exact h
  · exact h.free

theorem State.Inv.fetchWord {ctx a seen cause tag q} (h : s.Inv) (e : s.fetchWord ctx a seen cause tag = .ok (q, u)) :
    u.Inv := by
  unfold State.fetchWord at e
  extract_lets r at e
  split at e
  · split at e
    · extract_lets pa at e
      split at e
      · cases e
      · split at e
        · cases e
        · exact h.translate.fetchMem.of_snd (Except.ok.inj e)
    · cases e
  · cases e

/-! ### Sticky flags -/

theorem State.Inv.raiseOf {i f} (h : s.Inv) : (s.raiseOf i f).Inv := h.raise

/-! ### Operands and results -/

theorem State.Inv.eachOwner {f} (h : s.Inv) (hf : ∀ {i : ℕ} {t : State}, t.Inv → (f i t).Inv) : (eachOwner s f).Inv :=
  h.foldl hf

theorem State.Inv.scalar0 {d v} (h : s.Inv) : (scalar0 s d v).Inv := h.eachOwner .putS

theorem State.Inv.scalar1 {d a f} (h : s.Inv) : (scalar1 s d a f).Inv := h.eachOwner .setS

theorem State.Inv.scalar2 {d a b f} (h : s.Inv) : (scalar2 s d a b f).Inv := h.eachOwner .setS

theorem State.Inv.scalar3 {d a b f} (h : s.Inv) : (scalar3 s d a b f).Inv := h.eachOwner .setS

theorem State.Inv.eachStrand {g f} (h : s.Inv) (hf : ∀ {i : ℕ} {t : State}, t.Inv → (f i t).Inv) :
    (eachStrand g s f).Inv :=
  h.foldl hf

theorem State.Inv.lane0 {g d v} (h : s.Inv) : (lane0 g s d v).Inv := h.eachStrand .putV

theorem State.Inv.lane1 {g d a f} (h : s.Inv) : (lane1 g s d a f).Inv := h.eachStrand .setV

theorem State.Inv.lane2 {g d a b f} (h : s.Inv) : (lane2 g s d a b f).Inv := h.eachStrand .setV

theorem State.Inv.lane3 {g d a b f} (h : s.Inv) : (lane3 g s d a b f).Inv := h.eachStrand .setV

theorem State.Inv.setFloat {i d p r} (h : s.Inv) : (s.setFloat i d p r).Inv := by
  unfold State.setFloat
  split
  · exact h.setV
  · exact h.putV.raiseOf

theorem State.Inv.laneF1 {g d a f} (h : s.Inv) : (laneF1 g s d a f).Inv := h.eachStrand .setFloat

theorem State.Inv.laneF2 {g d a b f} (h : s.Inv) : (laneF2 g s d a b f).Inv := h.eachStrand .setFloat

theorem State.Inv.laneF3 {g d a b f} (h : s.Inv) : (laneF3 g s d a b f).Inv := h.eachStrand .setFloat

/-! ### Scalar instructions -/

theorem State.Inv.setCond {o tg v} (h : s.Inv) : (s.setCond o tg v).Inv := .ite h.putS (h.foldl .setP)

theorem State.Inv.cmppOwner {cc tg a b o} (h : s.Inv) (e : cmppOwner cc tg a b o s = .ok u) : u.Inv := by
  unfold Machine.cmppOwner at e
  split at e
  · cases e; exact h.setCond
  · cases e

theorem State.Inv.setMbx {c n v} (h : s.Inv) : (s.setMbx c n v).Inv := h.setCtx

theorem State.Inv.mbxOwner {d a n o} (h : s.Inv) (e : mbxOwner d a n o s = .ok u) : u.Inv := by
  unfold Machine.mbxOwner at e
  extract_lets old at e
  split at e
  · cases e; exact h.putS
  · split at e
    · cases e; exact h.setMbx.putS
    · cases e

theorem State.Inv.timeOwner {d o} (h : s.Inv) : (timeOwner d o s).Inv := h.readTime.deliver.putS

/-! ### Control flow and barriers (03) -/

theorem State.Inv.forActors {f} (h : s.Inv) (hf : ∀ {i : Who} {t u : State}, t.Inv → f i t = .ok u → u.Inv)
    (e : forActors s f = .ok u) : u.Inv :=
  h.foldlM hf e

theorem State.Inv.setLoops {w ls} (h : s.Inv) : (s.setLoops w ls).Inv := by
  unfold State.setLoops
  split
  · exact h.setStrand
  · exact h.setStream

theorem State.Inv.jump {w a} (h : s.Inv) (e : s.jump w a = .ok u) : u.Inv := by
  unfold State.jump at e
  split at e
  · cases e
    split
    · exact h.setStrand
    · exact h.setStream
  · cases e

theorem State.Inv.branch {w a} (h : s.Inv) (e : s.branch w a = .ok u) : u.Inv := h.setLoops.jump e

theorem State.Inv.setQueue {t q es} (h : s.Inv) : (s.setQueue t q es).Inv := h.setStream

theorem State.Inv.popQueue {t q r} (h : s.Inv) (e : s.popQueue t q = .ok (r, u)) : u.Inv := by
  unfold State.popQueue at e
  split at e
  · cases e
  · split at e
    · cases e
    · cases e; exact h.setQueue

theorem State.Inv.bracTest {w kind c r} (h : s.Inv) (e : s.bracTest w kind c = .ok (r, u)) : u.Inv := by
  unfold State.bracTest at e
  split at e
  · split at e
    · cases e; exact h
    · cases e
  · split at e
    · cases e; exact h
    · split at e
      · cases e; exact h.popQueue ‹_›
      · cases e

theorem State.Inv.bracActor {kind c n a w} (h : s.Inv) (e : bracActor kind c n a w s = .ok u) : u.Inv := by
  unfold Machine.bracActor at e
  split at e
  · split at e
    · exact (h.bracTest ‹_›).branch e
    · cases e; exact h.bracTest ‹_›
  · cases e

theorem State.Inv.brxActor {a m w} (h : s.Inv) (e : brxActor a m w s = .ok u) : u.Inv := by
  unfold Machine.brxActor at e
  dsimp only at e
  split at e
  · exact h.branch e
  · cases e

theorem State.Inv.setLink {w a} (h : s.Inv) : (s.setLink w a).Inv := by
  unfold State.setLink
  split
  · exact h.setD2
  · exact h.putS

theorem State.Inv.retActor {a w} (h : s.Inv) (e : retActor a w s = .ok u) : u.Inv := by
  unfold Machine.retActor at e
  dsimp only at e
  split at e
  · exact h.jump e
  · cases e

theorem State.Inv.afterWord {w a r} (h : s.Inv) (e : s.afterWord w a = .ok (r, u)) : u.Inv := by
  unfold State.afterWord at e
  split at e
  · cases e; exact h.fetchWord ‹_›
  · cases e

theorem State.Inv.loopActor {n imm w} (h : s.Inv) (e : loopActor n imm w s = .ok u) : u.Inv := by
  unfold Machine.loopActor at e
  extract_lets last at e
  split at e
  · split at e
    · exact (h.afterWord ‹_›).jump e
    · cases e
  · split at e
    · cases e
    · cases e; exact h.setLoops

theorem State.Inv.loopRegActor {a imm w} (h : s.Inv) (e : loopRegActor a imm w s = .ok u) : u.Inv := by
  unfold Machine.loopRegActor at e
  split at e
  · split at e
    · cases e
    · exact h.loopActor e
  · cases e

theorem State.Inv.parkOut {w} (h : s.Inv) : (s.parkOut w).Inv := by
  unfold State.parkOut
  extract_lets s1 stay
  have h1 : s1.Inv := by
    unfold s1
    refine h.foldl fun k => ?_
    split
    · exact k.parkStrand
    · exact k
  exact h1.of_eq rfl rfl

theorem State.Inv.stall {w} (h : s.Inv) : (s.stall w).Inv := (h.foldl .setStream).of_eq rfl rfl

theorem State.Inv.ownerPoint {w} (h : s.Inv) : (s.ownerPoint w).Inv := by
  unfold State.ownerPoint
  split
  · exact h.parkOut
  · split
    · exact h
    · exact h.stall

theorem State.Inv.settleCrewBar {c n} (h : s.Inv) : (s.settleCrewBar c n).Inv := by
  unfold State.settleCrewBar
  split
  · extract_lets b
    split
    · exact h
    · exact h.setCrew
  · exact h

theorem State.Inv.settleGroveBar {g n second} (h : s.Inv) : (s.settleGroveBar g n second).Inv := by
  unfold State.settleGroveBar
  split
  · exact h
  · extract_lets b live b1 b2
    exact h.of_eq rfl rfl

theorem State.Inv.arrive {grove n i} (h : s.Inv) : (s.arrive grove n i).Inv := by
  unfold State.arrive
  split
  · exact h
  · split
    · exact h
    · split
      · split
        · exact h
        · split
          · exact h
          · extract_lets second b s1
            have h1 : s1.Inv := h.of_eq rfl rfl
            exact h1.setStrand.settleGroveBar
      · extract_lets b s1
        have h1 : s1.Inv := h.setCrew
        exact h1.setStrand.settleCrewBar

theorem State.Inv.barPoint {grove n} (h : s.Inv) : (s.barPoint grove n).Inv :=
  (h.foldl .arrive).parkOut.foldl .setStrand

theorem State.Inv.execBarCrew {imm} (h : s.Inv) (e : execBarCrew imm s = .next u) : u.Inv :=
  State.Inv.of_next (.ite h h.barPoint) e

theorem State.Inv.groveCheck (h : s.Inv) (e : groveCheck s = .ok u) : u.Inv := by
  unfold Machine.groveCheck at e
  split at e
  · cases e; exact h
  · cases e

theorem State.Inv.execBarGrove {imm} (h : s.Inv) (e : execBarGrove imm s = .next u) : u.Inv := by
  unfold Machine.execBarGrove at e
  refine h.conclude (fun e => ?_) e
  split at e
  · cases e; exact h
  · obtain ⟨_, _, rfl⟩ := ok_of_map e
    exact (h.groveCheck ‹_›).barPoint

theorem State.Inv.coreArrive {m n target} (h : s.Inv) : (s.coreArrive m n target).Inv := by
  unfold State.coreArrive
  split
  · exact h
  · extract_lets b b1
    exact h.of_eq rfl rfl

theorem State.Inv.barArriveOwner {d a n o} (h : s.Inv) (e : barArriveOwner d a n o s = .ok u) : u.Inv := by
  unfold Machine.barArriveOwner at e
  split at e
  · cases e; exact h
  · extract_lets b w done at e
    have hdone : ∀ {i : ℕ}, (done i).Inv := by
      intro i
      unfold done
      exact h.setOwner.coreArrive.putS
    split at e
    · cases e; exact hdone
    · split at e
      · cases e
      · split at e
        · cases e
        · cases e; exact hdone

theorem State.Inv.barWaitPoint {a n} (h : s.Inv) (e : s.barWaitPoint a n = .ok u) : u.Inv := by
  unfold State.barWaitPoint at e
  split at e
  · cases e
  · cases e; exact h.ownerPoint

theorem State.Inv.execBarWait {d a imm} (h : s.Inv) (e : execBarWait d a imm s = .next u) : u.Inv := by
  refine h.conclude (fun e => ?_) e
  obtain ⟨t, e₁, rfl⟩ := ok_of_map e
  exact (h.unlessCleared h.barWaitPoint e₁).eachOwner .putS

theorem State.Inv.tokenPoint {mask} (h : s.Inv) : (s.tokenPoint mask).Inv := h.ownerPoint

theorem State.Inv.execWait {imm} (h : s.Inv) (e : execWait imm s = .next u) : u.Inv :=
  State.Inv.of_next (.ite h h.tokenPoint) e

theorem State.Inv.waittPoint {a m} (h : s.Inv) (e : s.waittPoint a m = .ok u) : u.Inv := by
  unfold State.waittPoint at e
  extract_lets r at e
  split at e
  · split at e
    · cases e
    · split at e
      · cases e; exact h.readTime.stall
      · cases e; exact h.readTime
  · split at e
    · cases e
    · cases e; exact h.readTime.parkOut

theorem State.Inv.wakePoint (h : s.Inv) : s.wakePoint.Inv := by
  unfold State.wakePoint
  split <;> exact h.foldl .deliver

theorem State.Inv.execWaitt {a m} (h : s.Inv) (e : execWaitt a m s = .next u) : u.Inv := by
  refine h.conclude (fun e => ?_) e
  obtain ⟨t, e₁, rfl⟩ := ok_of_map e
  exact (h.unlessCleared h.waittPoint e₁).wakePoint

theorem State.Inv.fenceFetch {w} (h : s.Inv) : (s.fenceFetch w).Inv := by
  unfold State.fenceFetch
  split
  · exact h.setStrand
  · exact h.setStream

theorem State.Inv.execTrap {imm} (h : s.Inv) (e : execTrap imm s = .next u) : u.Inv := by
  unfold Machine.execTrap at e
  refine h.conclude (fun e => ?_) e
  cases e

theorem State.Inv.breakTrap {code bpn} (h : s.Inv) : (s.breakTrap code bpn).Inv := (h.foldl .setOwner).takeTrap

theorem State.Inv.execBkpt {imm} (h : s.Inv) (e : execBkpt imm s = .next u) : u.Inv := by
  unfold Machine.execBkpt at e
  split at e
  · cases e; exact h.breakTrap
  · cases e; exact h

theorem State.Inv.drainPoint {mats} (h : s.Inv) (e : s.drainPoint mats = .ok u) : u.Inv := by
  unfold State.drainPoint at e
  split at e
  · cases e; exact h
  · cases e

theorem State.Inv.commitPoint (h : s.Inv) (e : s.commitPoint = .ok u) : u.Inv := by
  unfold State.commitPoint at e
  split at e
  · cases e
  · split at e
    · cases e
    · cases e; exact h.drainPoint ‹_›

theorem State.Inv.execChk {d a} (h : s.Inv) (e : execChk d a s = .next u) : u.Inv := by
  unfold Machine.execChk at e
  refine h.conclude (fun e => ?_) e
  split at e
  · cases e
  next e₁ =>
    split at e
    · cases e
    · cases e
      split at e₁
      · exact h.drainPoint e₁
      · cases e₁; exact h

theorem State.Inv.checkpoint {t a} (h : s.Inv) : (s.checkpoint t a).Inv := h.setStream

theorem State.Inv.execRegion {off} (h : s.Inv) (e : execRegion off s = .next u) : u.Inv := by
  refine h.conclude (fun e => ?_) e
  obtain ⟨t, e₁, rfl⟩ := ok_of_map e
  exact (h.unlessCleared h.commitPoint e₁).eachOwner .checkpoint

theorem State.Inv.retirePixel {i} (h : s.Inv) : (s.retirePixel i).Inv := by
  unfold State.retirePixel
  extract_lets x
  split
  · exact h
  · split
    · exact h
    · exact h.setLaunch

theorem State.Inv.startSplit {o} (h : s.Inv) : (s.startSplit o).Inv := by
  unfold State.startSplit
  split
  · extract_lets y f lines
    split
    · split
      · exact h.free.setCore
      · exact h
    · exact h
  · exact h

theorem State.Inv.endRecords {c} (h : s.Inv) : (s.endRecords c).Inv := by
  unfold State.endRecords
  split
  · exact h
  · split
    · exact h.freeRecords.setCrew
    · exact h

theorem State.Inv.exitStrand {i} (h : s.Inv) : (s.exitStrand i).Inv := by
  unfold State.exitStrand
  extract_lets b _ s1 s2
  have h1 : s1.Inv := h.retirePixel.setStrand
  have h2 : s2.Inv := by
    unfold s2
    split
    · exact h1.of_eq rfl rfl
    · exact h1
  split
  · exact h2
  · extract_lets s3 s4
    have h3 : s3.Inv := h2.endRecords.foldl .settleCrewBar
    have h4 : s4.Inv := by
      unfold s4
      split
      · exact h3
      · exact h3.foldl .settleGroveBar
    exact h4.startSplit

theorem State.Inv.releasePair {t} (h : s.Inv) : (s.releasePair t).Inv := by
  unfold State.releasePair
  extract_lets s1
  have h1 : s1.Inv := h.setStream
  exact h1.of_eq rfl rfl

theorem State.Inv.exitPart {t} (h : s.Inv) : (s.exitPart t).Inv := h.releasePair.setStream

theorem State.Inv.execExit (h : s.Inv) (e : execExit s = .next u) : u.Inv := by
  unfold Machine.execExit at e
  split at e
  · cases e; exact h.foldl .exitStrand
  · refine h.conclude (fun e => ?_) e
    obtain ⟨t, e₁, rfl⟩ := ok_of_map e
    exact (h.unlessCleared h.commitPoint e₁).eachOwner .exitPart

theorem State.Inv.sysRead {o n v} (h : s.Inv) (e : s.sysRead o n = .ok (v, u)) : u.Inv := by
  unfold State.sysRead at e
  extract_lets w c r at e
  refine ok_of_ite e (fun e => ?_) fun e => ok_of_ite e h.of_ok_pair fun e => ok_of_ite e h.of_ok_pair fun e =>
    ok_of_ite e h.of_ok_pair fun e => ok_of_ite e h.of_ok_pair fun e =>
    ok_of_ite e (fun e => h.readTime.deliver.of_snd (Except.ok.inj e)) fun e => ok_of_ite e h.of_ok_pair fun e =>
    ok_of_ite e (fun e => h.deliver.of_snd (Except.ok.inj e)) fun e => ok_of_ite e h.of_ok_pair fun e =>
    ok_of_ite e (fun e => h.deliver.of_snd (Except.ok.inj e)) fun e => ok_of_ite e h.of_ok_pair fun e =>
    ok_of_ite e (fun e => h.deliver.of_snd (Except.ok.inj e)) fun e => ok_of_ite e h.of_ok_pair fun e => ?_
  · obtain ⟨_, e₁, e₂⟩ := ok_of_map e
    cases e₂
    exact ok_of_ite e₁ h.drainPoint h.of_ok
  · split at e
    next e₁ => cases e; exact h.popQueue e₁
    · cases e

theorem State.Inv.sreadOwner {n d o} (h : s.Inv) (e : sreadOwner n d o s = .ok u) : u.Inv := by
  unfold Machine.sreadOwner at e
  split at e
  · cases e; exact (h.sysRead ‹_›).putS
  · cases e

theorem State.Inv.swriteOwner {n a o} (h : s.Inv) (e : swriteOwner n a o s = .ok u) : u.Inv := by
  unfold Machine.swriteOwner at e
  split at e
  · cases e
  · split at e
    · cases e; exact h.setOwner
    · cases e; exact h.setMbx

/-! ### Beads (21) -/

theorem State.Inv.setImage {l t f} (h : s.Inv) : (s.setImage l t f).Inv := h.of_eq rfl rfl

theorem State.Inv.setBead {a x} (h : s.Inv) : (s.setBead a x).Inv := by
  unfold State.setBead
  split
  · exact h.of_eq rfl rfl
  · split
    · exact h.of_eq rfl rfl
    · exact h
  · exact h.setImage

theorem State.Inv.setChannel {d c} (h : s.Inv) : (s.setChannel d c).Inv := h.of_eq rfl rfl

theorem State.Inv.breakBead {a} (h : s.Inv) : (s.breakBead a).Inv := by
  unfold State.breakBead
  extract_lets x s1 n
  have h1 : s1.Inv := h.setBead
  split
  · exact h1
  · split
    · exact h1.post
    · exact h1.postGlobal

theorem State.Inv.desync {d c} (h : s.Inv) : (s.desync d c).Inv := by
  unfold State.desync
  extract_lets s1 s2 word ws
  have h1 : s1.Inv := h.of_eq rfl rfl
  have h2 : s2.Inv := h1.foldl fun k => k.breakBead.breakBead
  exact h2.foldl .post

theorem State.Inv.checkBead {a} (h : s.Inv) : (s.checkBead a).Inv := by
  unfold State.checkBead
  split
  · extract_lets s1
    have h1 : s1.Inv := h.breakBead
    split
    · exact h1.desync
    · exact h1
  · exact h

theorem State.Inv.serveBead {a n} (h : s.Inv) : (s.serveBead a n).Inv := by
  induction n generalizing s with
  | zero => exact h
  | succ n ih =>
    rw [State.serveBead]
    split
    · exact h
    · split
      · exact ih h.setBead.serveWaiter
      · exact h

theorem State.Inv.signal {ctx a n} (h : s.Inv) : (s.signal ctx a n).Inv := by
  unfold State.signal
  extract_lets s' x sum full s1 s2
  have hs' : s'.Inv := h.checkBead
  have h1 : s1.Inv := hs'.setBead
  have h2 : s2.Inv := by
    unfold s2
    split
    · exact h1.post
    · exact h1
  exact .ite hs'.log h2.serveBead

theorem State.Inv.setCount {a n} (h : s.Inv) : (s.setCount a n).Inv := by
  unfold State.setCount
  extract_lets s' x
  have hs' : s'.Inv := h.checkBead
  exact hs'.setBead.serveBead

theorem State.Inv.maskPoint {t} (h : s.Inv) : (s.maskPoint t).Inv := .ite h h.tokenPoint

theorem State.Inv.afterMask {t f} (h : s.Inv) (hf : ∀ {i : ℕ} {t u : State}, t.Inv → f i t = .ok u → u.Inv)
    (e : afterMask s t f = .next u) : u.Inv :=
  h.conclude (fun e => h.maskPoint.forOwners hf e) e

theorem State.Inv.semSigOwner {a b m bead o} (h : s.Inv) (e : semSigOwner a b m bead o s = .ok u) : u.Inv := by
  unfold Machine.semSigOwner at e
  obtain ⟨⟨_, _⟩, e, rfl⟩ := ok_of_map e
  exact h.signal

theorem State.Inv.semSetOwner {a b m bead o} (h : s.Inv) (e : semSetOwner a b m bead o s = .ok u) : u.Inv := by
  unfold Machine.semSetOwner at e
  obtain ⟨⟨_, _⟩, e, rfl⟩ := ok_of_map e
  exact h.setCount

theorem State.Inv.beadPoison {o c a} (h : s.Inv) : (s.beadPoison o c a).Inv := h.newOrigin.setS

theorem State.Inv.semTryOwner {a b c m bead o} (h : s.Inv) (e : semTryOwner a b c m bead o s = .ok u) : u.Inv := by
  unfold Machine.semTryOwner at e
  obtain ⟨⟨_, _⟩, e, rfl⟩ := ok_of_map e
  extract_lets s' y ok s1 v
  have hs' : s'.Inv := h.checkBead
  have h1 : s1.Inv := by
    unfold s1
    split
    · exact hs'.setBead
    · exact hs'
  exact .ite hs'.beadPoison h1.deliver.putS

theorem State.Inv.semReadOwner {a c m bead o} (h : s.Inv) (e : semReadOwner a c m bead o s = .ok u) : u.Inv := by
  unfold Machine.semReadOwner at e
  obtain ⟨_, e, rfl⟩ := ok_of_map e
  extract_lets s' y v
  have hs' : s'.Inv := h.checkBead
  exact .ite hs'.beadPoison hs'.deliver.putS

theorem State.Inv.enqueue {o x} (h : s.Inv) : (s.enqueue o x).Inv := by
  unfold State.enqueue
  split
  · exact h
  · extract_lets y
    exact h.setBead

theorem State.Inv.semWaitEach {a b m bead taken l r} (h : s.Inv) (e : s.semWaitEach a b m bead taken l = .ok (u, r)) :
    u.Inv := by
  induction l generalizing s taken r with
  | nil => cases e; exact h
  | cons o l ih =>
    rw [State.semWaitEach] at e
    split at e
    · cases e
    · dsimp only at e
      split at e
      · exact ih h.checkBead e
      · split at e
        · obtain ⟨_, e₁, e₂⟩ := ok_of_map e
          cases e₂
          exact ih h.checkBead e₁
        · obtain ⟨_, e₁, e₂⟩ := ok_of_map e
          cases e₂
          exact ih h.checkBead.enqueue e₁

theorem State.Inv.semWaitPoint {a b m bead} (h : s.Inv) (e : s.semWaitPoint a b m bead = .ok u) : u.Inv := by
  unfold State.semWaitPoint at e
  obtain ⟨⟨_, _⟩, _, rfl⟩ := ok_of_map e
  exact (h.semWaitEach ‹_›).ownerPoint

theorem State.Inv.semWaitOwner {a b m bead o} (h : s.Inv) (e : semWaitOwner a b m bead o s = .ok u) : u.Inv := by
  unfold Machine.semWaitOwner at e
  obtain ⟨⟨_, _⟩, e, rfl⟩ := ok_of_map e
  split
  · exact h
  · exact h.setBead

theorem State.Inv.execSemWait {a b m t} (h : s.Inv) (e : execSemWait a b m t s = .next u) : u.Inv := by
  refine h.conclude (fun e => ?_) e
  split at e
  · cases e
  next e₁ => exact (h.unlessCleared h.maskPoint.semWaitPoint e₁).forOwners .semWaitOwner e

/-! ### Leases, launches and records -/

theorem State.Inv.leaseOwner {d a imm o} (h : s.Inv) (e : leaseOwner d a imm o s = .ok u) : u.Inv := by
  unfold Machine.leaseOwner at e
  split at e
  · cases e
  · split at e
    · cases e; exact h
    · extract_lets v old r b1 at e
      have hr : r.2.Inv := by
        unfold r
        split
        · exact h
        · exact h.deliver
      cases e; exact hr.setBundle.putS

theorem State.Inv.splitArrive {n o} (h : s.Inv) (e : s.splitArrive n o = .ok u) : u.Inv := by
  unfold State.splitArrive at e
  split at e
  · cases e; exact h
  · split at e
    · split at e
      · cases e; exact h.of_eq rfl rfl
      · cases e
    · cases e

theorem State.Inv.splitPoint {n} (h : s.Inv) (e : s.splitPoint n = .ok u) : u.Inv := by
  unfold State.splitPoint at e
  obtain ⟨_, _, rfl⟩ := ok_of_map e
  exact ((h.foldlM .splitArrive ‹_›).ownerPoint).foldl .startSplit

theorem State.Inv.execSplit {d imm} (h : s.Inv) (e : execSplit d imm s = .next u) : u.Inv := by
  refine h.conclude (fun e => ?_) e
  obtain ⟨t, e₁, rfl⟩ := ok_of_map e
  exact (h.unlessCleared h.splitPoint e₁).eachOwner fun k => k.deliver.putS

theorem State.Inv.splitDone {c} (h : s.Inv) : (s.splitDone c).Inv := by
  unfold State.splitDone
  extract_lets y here wake
  have hwake : ∀ {t : State} {i : ℕ}, t.Inv → (wake t i).Inv := by
    intro t i k
    unfold wake
    split
    · exact k.setStrand
    · exact k.setStrand
    · exact k
  split
  · exact h
  · extract_lets g s1 s2 s3
    have h1 : s1.Inv := h.setCore
    have h2 : s2.Inv := by
      unfold s2
      refine h1.foldl fun k => ?_
      extract_lets lim
      exact k.setCrew
    have h3 : s3.Inv := h2.foldl fun k => k.foldl fun k' => k'.foldl hwake
    exact h3.of_eq rfl rfl

theorem State.Inv.setLaunchQueue {ctx q x} (h : s.Inv) : (s.setLaunchQueue ctx q x).Inv := h.setCtx

theorem State.Inv.submit {ctx hd} (h : s.Inv) : (s.submit ctx hd).2.Inv := by
  unfold State.submit
  extract_lets q x n at0 s1 seq s2
  have h1 : s1.Inv := h.foldl fun k => k.hubWrite ..
  have h2 : s2.Inv := h1.setLaunchQueue
  split
  · exact h
  · exact h2.setCtx

theorem State.Inv.launchOwner {d a o} (h : s.Inv) (e : launchOwner d a o s = .ok u) : u.Inv := by
  unfold Machine.launchOwner at e
  split at e
  · cases e
  · split at e
    · cases e
    · split at e
      · cases e
      · extract_lets r w at e
        cases e; exact (((h.globalAccess ‹_›).submit).deliver).putS

theorem State.Inv.setRecord {ctx r x} (h : s.Inv) : (s.setRecord ctx r x).Inv := h.setCtx

theorem State.Inv.recaOwner {d a o} (h : s.Inv) (e : recaOwner d a o s = .ok u) : u.Inv := by
  unfold Machine.recaOwner at e
  split at e
  · cases e
  · split at e
    · cases e
    · extract_lets f all x at e
      cases e; exact h.free.setRecord.putS

theorem State.Inv.recaPoint {a} (h : s.Inv) (e : s.recaPoint a = .ok u) : u.Inv := by
  unfold State.recaPoint at e
  split at e
  · cases e
  · extract_lets fits at e
    cases e; exact h.ownerPoint

theorem State.Inv.execReca {d a} (h : s.Inv) (e : execReca d a s = .next u) : u.Inv := by
  refine h.conclude (fun e => ?_) e
  split at e
  · cases e
  next e₁ => exact (h.unlessCleared h.recaPoint e₁).forOwners .recaOwner e

theorem State.Inv.planBytes {ctx hd r} (h : s.Inv) (e : s.planBytes ctx hd = .ok (r, u)) : u.Inv := by
  unfold State.planBytes at e
  split at e
  · cases e; exact h
  · split at e
    · cases e
    · extract_lets pa at e
      split at e
      · cases e; exact h.pageFor ‹_›
      · cases e

theorem State.Inv.readPlan {ctx hd} (h : s.Inv) : (s.readPlan ctx hd).2.Inv := by
  unfold State.readPlan
  split
  · exact h
  · exact h.planBytes ‹_›

theorem State.Inv.awaitLaunch {l} (h : s.Inv) : (s.awaitLaunch l).Inv := by
  unfold State.awaitLaunch
  split
  · exact h
  · split
    · exact h
    · split
      · exact h
      · extract_lets b
        exact h.setLaunch.setBead.serveBead

theorem State.Inv.addLaunch {ctx seq hd origin crews batch} (h : s.Inv) :
    (s.addLaunch ctx seq hd origin crews batch).Inv := by
  unfold State.addLaunch
  extract_lets l r plan s' replay x
  have hs' : s'.Inv := h.readPlan
  exact hs'.setLaunch.awaitLaunch

theorem State.Inv.takeBatch {ctx n m} (h : s.Inv) : (s.takeBatch ctx n m).Inv :=
  .ite h (h.setCtx.foldl .setRecord).addLaunch

theorem State.Inv.remitOwner {a o} (h : s.Inv) (e : remitOwner a o s = .ok u) : u.Inv := by
  unfold Machine.remitOwner at e
  split at e
  · cases e
  · extract_lets ctx t at e
    split at e
    · extract_lets nd s1 nd1 _ s2 at e
      have h1 : s1.Inv := h.readTime.setRecord
      have h2 : s2.Inv := h1.setCtx
      split at e
      · cases e; exact h.freeRecords
      · cases e; exact .ite h2.takeBatch h2
    · cases e

theorem State.Inv.returnRecord {ctx r} (h : s.Inv) : (s.returnRecord ctx r).Inv := by
  unfold State.returnRecord
  extract_lets s1 drop
  have h1 : s1.Inv := h.freeRecords
  exact h1.of_eq rfl rfl

theorem State.Inv.rdoneOwner {a o} (h : s.Inv) (e : rdoneOwner a o s = .ok u) : u.Inv := by
  unfold Machine.rdoneOwner at e
  split at e
  · cases e
  · split at e
    · cases e; exact h.returnRecord
    · cases e

theorem State.Inv.setGov {ctx n g} (h : s.Inv) : (s.setGov ctx n g).Inv := h.setCtx

theorem State.Inv.govQuery {ctx n o d} (h : s.Inv) : (s.govQuery ctx n o d).Inv := by
  unfold State.govQuery
  extract_lets t g a u
  split
  · split
    · exact (h.readTime.deliverWith.of_snd ‹_›).putS
    · exact ((h.readTime.deliverWith.of_snd ‹_›).post).putS
  · exact h.readTime.setGov.deliver.putS

theorem State.Inv.govqOwner {d a o} (h : s.Inv) (e : govqOwner d a o s = .ok u) : u.Inv := by
  unfold Machine.govqOwner at e
  obtain ⟨_, e, rfl⟩ := ok_of_map e
  exact h.govQuery

theorem State.Inv.govReport {ctx n who fin} (h : s.Inv) : (s.govReport ctx n who fin).Inv := h.readTime.setGov

theorem State.Inv.govrOwner {a m o} (h : s.Inv) (e : govrOwner a m o s = .ok u) : u.Inv := by
  unfold Machine.govrOwner at e
  obtain ⟨_, e, rfl⟩ := ok_of_map e
  exact .ite h h.govReport

theorem State.Inv.govApply {r} (h : s.Inv) : (s.govApply r).Inv := by
  unfold State.govApply
  split
  · exact h.govQuery
  · exact .ite h h.govReport
  · exact .ite h h.govReport

/-! ### Lane instructions -/

theorem State.Inv.icmpStrand {cc tg a b i} (h : s.Inv) (e : icmpStrand cc tg a b i s = .ok u) : u.Inv := by
  unfold Machine.icmpStrand at e
  split at e
  · cases e
  · split at e
    · cases e
    · cases e; exact h.setP

theorem State.Inv.shuffle {g d f} (h : s.Inv) : (shuffle g s d f).Inv := h.eachOwner fun k => k.foldl .setV

theorem State.Inv.v2sOwner {g d a b m o} (h : s.Inv) : (v2sOwner g d a b m o s).Inv :=
  .ite (.ite h.setS h) (.ite h.putS h)

/-! ### What a copy reads and writes -/

theorem State.Inv.claimTile {ctx t} (h : s.Inv) : (s.claimTile ctx t).Inv := by
  unfold State.claimTile
  split
  · exact h.setTile
  · exact h

theorem State.Inv.dropRequest {n o} (h : s.Inv) : (s.dropRequest n o).Inv := h.of_eq rfl rfl

theorem State.Inv.askChannel {n o} (h : s.Inv) : (s.askChannel n o).Inv := h.of_eq rfl rfl

theorem State.Inv.channelWaits {t hub masked col given opened l} (h : s.Inv) :
    (s.channelWaits t hub masked col given opened l).1.Inv := by
  induction l generalizing s given opened with
  | nil => exact h
  | cons o l ih =>
    rw [State.channelWaits]
    dsimp only
    generalize (if hub then hubSkidder s.cur.ctx else s.ownSkidder o) = k
    generalize (if col then s.collectiveKey o else none) = key
    split
    · exact ih h
    · split
      · exact ih h
      · split
        · exact ih h
        · split
          · exact ih h.askChannel
          · exact ih h.dropRequest

theorem State.Inv.channelPoint {t hub masked col} (h : s.Inv) : (s.channelPoint t hub masked col).Inv :=
  .ite h h.channelWaits.ownerPoint

theorem State.Inv.copyPoint {t hub masked} (h : s.Inv) : (s.copyPoint t hub masked).Inv := h.channelPoint

theorem State.Inv.afterChannel {t hub f} (h : s.Inv) (hf : ∀ {i : ℕ} {t u : State}, t.Inv → f i t = .ok u → u.Inv)
    (e : afterChannel s t hub f = .next u) : u.Inv :=
  h.conclude (fun e => h.copyPoint.forOwners hf e) e

theorem State.Inv.clearLine {x} (h : s.Inv) : (s.clearLine x).Inv := by
  unfold State.clearLine
  split
  · split
    · split
      · exact h
      · exact h.setCrew
    · exact h
  · exact h.setTile
  · exact h.setImage
  · exact h

theorem State.Inv.presentLine {x} (h : s.Inv) : (s.presentLine x).Inv := by
  unfold State.presentLine
  split
  · split
    · exact h.setCrew
    · exact h
  · exact h.setTile
  · exact h.setImage
  · exact h

theorem State.Inv.swapImage {l t} (h : s.Inv) : (s.swapImage l t).Inv := by
  unfold State.swapImage
  split
  · exact h
  · refine .setTile ?_
    extract_lets src
    have hsrc : src.Inv := h.setImage
    exact hsrc.of_eq rfl rfl

theorem State.Inv.setShadow {ctx x} (h : s.Inv) : (s.setShadow ctx x).Inv := h.setCtx

theorem State.Inv.shadowFrame {ctx sh va p r} (h : s.Inv) (e : s.shadowFrame ctx sh va p = some (r, u)) : u.Inv := by
  unfold State.shadowFrame at e
  extract_lets page at e
  split at e
  · cases e; exact h
  · split at e
    · cases e
    · exact ((((h.takeFrame ‹_›).zeroMem ..).copyMem ..).setShadow).of_snd (Option.some.inj e)

theorem State.Inv.freeBytes {n} (h : s.Inv) : (freeBytes s n).2.2.Inv := h.free.free

theorem State.Inv.readNear {p a n r q} (h : s.Inv) (e : s.readNear p a n = .ok (r, q, u)) : u.Inv := by
  unfold State.readNear at e
  split at e
  · split at e
    · cases e
    · cases e; exact h.globalAccess ‹_›
  · split at e
    · cases e; exact h.free.free
    · split at e
      · cases e
      · cases e; exact h
  · split at e
    · cases e; exact h.free.free
    · split at e
      · cases e
      · cases e; exact h.needLine ‹_›
  · cases e; exact h
  · extract_lets pa at e
    cases e; exact h
  · cases e; exact h.free.free

theorem State.Inv.readPlace {p a n r q} (h : s.Inv) (e : s.readPlace p a n = .ok (r, q, u)) : u.Inv := by
  unfold State.readPlace at e
  extract_lets there at e
  have hthere : ∀ {i x : ℕ} {y : Place} {r : List Byte} {q : Bool} {u : State}, there i x y = Except.ok (r, q, u) → u.Inv := by
    intro i x y r4' r5' u' e
    unfold there at e
    split at e
    · obtain ⟨⟨_, _, _⟩, _, e⟩ := ok_of_map e
      cases e
      exact (h.swapImage.readNear ‹_›).swapImage
    · cases e
      exact h.free.free
  split at e
  · exact hthere e
  · exact hthere e
  · exact h.readNear e

theorem State.Inv.changeNear {p a n f} (h : s.Inv) (e : s.changeNear p a n f = .ok u) : u.Inv := by
  unfold State.changeNear at e
  split at e
  · split at e
    · cases e
    · split at e
      · extract_lets r m src at e
        have hsrc : src.Inv := ((h.globalAccess ‹_›).noteWords ..).writeBytes ..
        cases e; exact hsrc.of_eq rfl rfl
      · split at e
        · cases e
        · extract_lets at0 m r v src at e
          have hv : v.Inv := ((h.globalAccess ‹_›).shadowFrame ‹_›).noteFrame
          have hsrc : src.Inv := hv.writeBytes ..
          cases e; exact hsrc.of_eq rfl rfl
  · split at e
    · cases e; exact h
    · split at e
      · cases e; exact h
      · extract_lets r t at e
        have ht : t.Inv := h.foldl .setScratchByte
        cases e
        split
        · exact ht.setCrew
        · exact ht
  · split at e
    · cases e; exact h
    · extract_lets y r x at e
      cases e; exact h.setTile
  · extract_lets x r at e
    cases e; exact h.setTile
  · extract_lets pa r src at e
    have hsrc : src.Inv := h.writeBytes ..
    cases e; exact hsrc.of_eq rfl rfl
  · cases e; exact h

theorem State.Inv.changePlace {p a n f} (h : s.Inv) (e : s.changePlace p a n f = .ok u) : u.Inv := by
  unfold State.changePlace at e
  extract_lets there at e
  have hthere : ∀ {i x : ℕ} {y : Place} {u : State}, there i x y = Except.ok u → u.Inv := by
    intro i x y u' e
    unfold there at e
    split at e
    · obtain ⟨_, _, rfl⟩ := ok_of_map e
      exact (h.swapImage.changeNear ‹_›).swapImage
    · cases e
      exact h
  split at e
  · exact hthere e
  · exact hthere e
  · exact h.changeNear e

theorem State.Inv.writePlace {p a bs bad} (h : s.Inv) (e : s.writePlace p a bs bad = .ok u) : u.Inv := h.changePlace e

theorem State.Inv.movePlace {dp d sp a n} (h : s.Inv) (e : s.movePlace dp d sp a n = .ok u) : u.Inv := by
  unfold State.movePlace at e
  split at e
  · cases e
  · exact (h.readPlace ‹_›).writePlace e

theorem State.Inv.listIndex {p a r q} (h : s.Inv) (e : s.listIndex p a r = .ok (q, u)) : u.Inv := by
  unfold State.listIndex at e
  split at e
  · cases e
  · cases e; exact h.readPlace ‹_›

theorem State.Inv.scatterUnit {c row p first n} (h : s.Inv) (e : s.scatterUnit c row p first n = .ok u) : u.Inv := by
  unfold State.scatterUnit at e
  extract_lets k r at e
  split at e
  · cases e
  · split at e
    · cases e; exact h.listIndex ‹_›
    · extract_lets later at e
      split at e
      · cases e; exact h.listIndex ‹_›
      · exact (h.listIndex ‹_›).movePlace e

theorem State.Inv.canRead {p a n} (h : s.Inv) (e : s.canRead p a n = .ok u) : u.Inv := by
  unfold State.canRead at e
  split at e
  · obtain ⟨⟨_, _, _⟩, _, rfl⟩ := ok_of_map e
    exact h.globalAccess ‹_›
  · cases e; exact h

theorem State.Inv.moveUnit {c j} (h : s.Inv) (e : s.moveUnit c j = .ok u) : u.Inv := by
  unfold State.moveUnit at e
  split at e
  · split at e
    · cases e; exact h
    · exact h.movePlace e
  · split at e
    · cases e; exact h
    · exact h.movePlace e
  · split at e
    · cases e; exact h
    · exact h.movePlace e
  · split at e
    extract_lets dense at e
    split at e
    · split at e
      · exact h.movePlace e
      · cases e; exact h
    · split at e
      · exact h.movePlace e
      · exact h.writePlace e
  · split at e
    · cases e
    · extract_lets d at e
      split at e
      · exact (h.listIndex ‹_›).writePlace e
      · exact (h.listIndex ‹_›).movePlace e
  · exact h.scatterUnit e
  · extract_lets n d at e
    split at e
    · cases e
    · split at e
      · cases e
      · exact ((h.readPlace ‹_›).canRead ‹_›).changePlace e
  · exact h.movePlace e
  · exact h.movePlace e
  · split at e
    · extract_lets r w k e' pg lo hi sc at e
      split at e
      · cases e
      · exact (h.foldlM .needLine ‹_›).writePlace e
    · cases e; exact h
  · split at e
    · extract_lets x r un va at e
      split at e
      · cases e
      · cases e; exact (h.writePlace ‹_›).setTile
    · cases e; exact h
  · cases e; exact h

theorem State.Inv.finishLines {c n} (h : s.Inv) : (s.finishLines c n).Inv := by
  unfold State.finishLines
  split
  · exact h
  · refine h.foldl fun k => ?_
    split
    · exact k.presentLine
    · exact k

theorem State.Inv.viewOf {c} (h : s.Inv) : (s.viewOf c).Inv := by
  unfold State.viewOf
  split
  · exact h.swapImage
  · exact h

theorem State.Inv.moveOne {id k} (h : s.Inv) (e : s.moveOne id k = .ok u) : u.Inv := by
  have h₀ : State.Inv { s with cur := .idle } := h.of_eq rfl rfl
  unfold State.moveOne at e
  split at e
  · cases e; exact h
  · obtain ⟨t, e₁, rfl⟩ := ok_of_map e
    exact .finishLines ((h₀.moveUnit e₁).of_eq rfl rfl)

theorem State.Inv.transferUnit {id n} (h : s.Inv) : (s.transferUnit id n).Inv := by
  unfold State.transferUnit
  split
  · exact h
  · split
    · exact h
    · split
      · exact (h.viewOf.moveOne ‹_›).viewOf
      · exact h
      · exact h
      · exact h.endContext
      · exact h.endContext

theorem State.Inv.signalPlace {ctx p b} (h : s.Inv) : (s.signalPlace ctx p b).Inv := by
  unfold State.signalPlace
  split
  · exact h.signal
  · exact h.signal
  · exact h.signal
  · split
    · exact h
    · split
      · exact .ite h.setCrew h
      · split
        · exact h.signal
        · exact h
  · exact h

theorem State.Inv.setTileOf {p x} (h : s.Inv) : (s.setTileOf p x).Inv := by
  unfold State.setTileOf
  split
  · exact h.setTile
  · exact h.setImage
  · exact h

theorem State.Inv.carryAttr {p} (h : s.Inv) : (s.carryAttr p).Inv := by
  unfold State.carryAttr
  split
  · split
    · exact h
    · extract_lets r
      exact h.setTileOf
  · exact h

theorem State.Inv.releaseCopy {id} (h : s.Inv) : (s.releaseCopy id).Inv := by
  unfold State.releaseCopy
  split
  · exact h
  · extract_lets s1 s2
    have h1 : s1.Inv := by
      unfold s1
      split
      · exact h.foldl .carryAttr
      · exact h
    have h2 : s2.Inv := by
      unfold s2
      split
      · extract_lets x
        exact h1.setTile
      · exact h1.setTile
      · exact h1
    split
    · exact .foldl (.of_eq h2 rfl rfl) .presentLine
    · exact .foldl (.of_eq h2 rfl rfl) .presentLine
    · exact h2.of_eq rfl rfl

theorem State.Inv.completeCopy {id} (h : s.Inv) : (s.completeCopy id).Inv := by
  unfold State.completeCopy
  split
  · exact h
  · extract_lets s3 s4 s5
    have h3 : s3.Inv := h.viewOf.releaseCopy.viewOf
    have h4 : s4.Inv := by
      unfold s4
      split
      · split
        · exact h3
        · exact h3.signalPlace
      · exact h3
    have h5 : s5.Inv := by
      unfold s5
      split
      · split
        · exact h4.signal
        · exact h4
      · exact h4
    exact .ite h5.finishCommand h5

theorem State.Inv.issueCopy {c} (h : s.Inv) : (s.issueCopy c).Inv := by
  unfold State.issueCopy
  extract_lets id lines s1 c1 s2
  have h1 : s1.Inv := h.foldl .clearLine
  have h2 : s2.Inv := h1.of_eq rfl rfl
  split
  · exact h2.completeCopy
  · exact h2

theorem State.Inv.stopCopy {id} (h : s.Inv) : (s.stopCopy id).Inv := by
  unfold State.stopCopy
  split
  · exact h
  · extract_lets s1 s2
    have h1 : s1.Inv := h.of_eq rfl rfl
    have h2 : s2.Inv := by
      unfold s2
      split
      · exact h1.setTile
      · exact h1
    exact h2.foldl fun k => .ite k k.presentLine

/-! ### Loads and stores (04) -/

theorem State.Inv.byProfile {g raster tile} (h : s.Inv)
    (hf : ∀ {i : ℕ} {t u : State}, t.Inv → raster i t = .ok u → u.Inv)
    (hg : ∀ {i : ℕ} {t u : State}, t.Inv → tile i t = .ok u → u.Inv) (e : byProfile g s raster tile = .ok u) : u.Inv := by
  unfold Machine.byProfile at e
  split at e
  · exact h.forStrands hf e
  · exact h.forOwners hg e

theorem State.Inv.loadGlobal {i addr n w r} (h : s.Inv) (e : s.loadGlobal i addr n w = .ok (r, u)) : u.Inv := by
  unfold State.loadGlobal at e
  split at e
  · cases e
  · exact ((h.laneGlobal ‹_›).loaded).of_snd (Except.ok.inj e)

theorem State.Inv.loadStrand {n d a lb off i} (h : s.Inv) (e : loadStrand n d a lb off i s = .ok u) : u.Inv := by
  unfold Machine.loadStrand at e
  split at e
  · cases e
  · obtain ⟨⟨_, _⟩, _, rfl⟩ := ok_of_map e
    exact (h.loadGlobal ‹_›).setV

theorem State.Inv.load64Strand {d a lb off i} (h : s.Inv) (e : load64Strand d a lb off i s = .ok u) : u.Inv := by
  unfold Machine.load64Strand at e
  split at e
  · cases e
  · obtain ⟨⟨_, _⟩, _, rfl⟩ := ok_of_map e
    exact (h.loadGlobal ‹_›).setD2

theorem State.Inv.load128Strand {d a lb off i} (h : s.Inv) (e : load128Strand d a lb off i s = .ok u) : u.Inv := by
  unfold Machine.load128Strand at e
  split at e
  · cases e
  · obtain ⟨⟨_, _⟩, _, rfl⟩ := ok_of_map e
    exact ((h.loadGlobal ‹_›).setD2).setD2

theorem State.Inv.storeMarked {pa n v} (h : s.Inv) : (s.storeMarked pa n v).Inv := h.storeData.of_eq rfl rfl

theorem State.Inv.storeGlobal {i addr n v} (h : s.Inv) (e : s.storeGlobal i addr n v = .ok u) : u.Inv := by
  unfold State.storeGlobal at e
  split at e
  · cases e
  · cases e; exact (h.laneGlobal ‹_›).storeMarked

theorem State.Inv.storeStrand {n d a lb off i} (h : s.Inv) (e : storeStrand n d a lb off i s = .ok u) : u.Inv := by
  unfold Machine.storeStrand at e
  split at e
  · cases e
  · split at e
    · cases e
    · exact h.storeGlobal e

theorem State.Inv.store64Strand {d a lb off i} (h : s.Inv) (e : store64Strand d a lb off i s = .ok u) : u.Inv := by
  unfold Machine.store64Strand at e
  split at e
  · cases e
  · split at e
    · cases e
    · exact h.storeGlobal e

theorem State.Inv.store128Strand {d a lb off i} (h : s.Inv) (e : store128Strand d a lb off i s = .ok u) : u.Inv := by
  unfold Machine.store128Strand at e
  split at e
  · cases e
  · split at e
    · cases e
    · split at e
      · cases e
      · exact h.storeGlobal e

theorem State.Inv.elemAccess {ctx base off write r} (h : s.Inv) (e : s.elemAccess ctx base off write = .ok (r, u)) :
    u.Inv := by
  unfold State.elemAccess at e
  split at e
  · cases e
  · split at e
    · cases e
    · obtain ⟨_, _, e⟩ := ok_of_map e
      cases e; exact h.pageFor ‹_›

theorem State.Inv.touchElem {b x} (h : s.Inv) : (s.touchElem b x).Inv := .ite h.touch.touch h.touch

theorem State.Inv.ldxStrand {d a lb off i} (h : s.Inv) (e : ldxStrand d a lb off i s = .ok u) : u.Inv := by
  unfold Machine.ldxStrand at e
  split at e
  · cases e
  · split at e
    · cases e
    · extract_lets r bad v at e
      cases e; exact ((((h.elemAccess ‹_›).loaded).setV).raiseOf).touchElem

theorem State.Inv.stxStrand {d a lb off i} (h : s.Inv) (e : stxStrand d a lb off i s = .ok u) : u.Inv := by
  unfold Machine.stxStrand at e
  split at e
  · cases e
  · split at e
    · cases e
    · split at e
      · cases e
      · extract_lets r n at e
        cases e; exact (((h.elemAccess ‹_›).storeMarked).raiseOf).touchElem

theorem State.Inv.readOnlyWord {p i pa} (h : s.Inv) : (s.readOnlyWord p i pa).2.Inv := by
  unfold State.readOnlyWord
  extract_lets now f src r
  have hsrc : src.Inv := h.free
  have hr : r.2.Inv := by
    unfold r
    split
    · exact h
    · split <;> exact hsrc.of_eq rfl rfl
  exact hr

theorem State.Inv.ldroStrand {d a lb off i} (h : s.Inv) (e : ldroStrand d a lb off i s = .ok u) : u.Inv := by
  unfold Machine.ldroStrand at e
  split at e
  · cases e
  · split at e
    · cases e
    · extract_lets r v at e
      cases e; exact (((h.laneGlobal ‹_›).readOnlyWord).loaded).setV

theorem State.Inv.execInvRo {g} (h : s.Inv) (e : execInvRo g s = .next u) : u.Inv := by
  unfold Machine.execInvRo at e
  cases e
  refine h.eachStrand fun k => ?_
  split
  · exact k.setCore
  · exact k

theorem State.Inv.presencePoint {g : Guard} {a : BitVec 6} {lb : Bool} {w : ℕ} {off : BitVec w} (h : s.Inv) :
    (s.presencePoint g a lb off).Inv := by
  unfold State.presencePoint
  split
  · exact h.parkOut
  · exact h

theorem State.Inv.afterPresence {g a lb w} {off : BitVec w} {raster tile} (h : s.Inv)
    (hf : ∀ {i : ℕ} {t u : State}, t.Inv → raster i t = .ok u → u.Inv)
    (hg : ∀ {i : ℕ} {t u : State}, t.Inv → tile i t = .ok u → u.Inv)
    (e : afterPresence g a lb off s raster tile = .next u) : u.Inv :=
  h.concludeAccess (fun e => (.byProfile (.ite h h.presencePoint) hf hg e)) e

theorem State.Inv.scratchLoad {i addr n w r} (h : s.Inv) (e : s.scratchLoad i addr n w = .ok (r, u)) : u.Inv := by
  unfold State.scratchLoad at e
  split at e
  · cases e
  · split at e
    · cases e
    · exact h.loaded.of_snd (Except.ok.inj e)

theorem State.Inv.storeScratch {c a n v} (h : s.Inv) : (s.storeScratch c a n v).Inv :=
  .ite (h.foldl fun k => .ite k k.setScratchByte) h.writeScratch

theorem State.Inv.storeTile {t a n v} (h : s.Inv) : (s.storeTile t a n v).Inv := by
  unfold State.storeTile
  split <;> exact h.setTile

theorem State.Inv.scratchStore {i addr n v} (h : s.Inv) (e : s.scratchStore i addr n v = .ok u) : u.Inv := by
  unfold State.scratchStore at e
  split at e
  · cases e
  · cases e; exact .ite h h.storeScratch

theorem State.Inv.tileLoad {t addr n w r} (h : s.Inv) (e : s.tileLoad t addr n w = .ok (r, u)) : u.Inv := by
  unfold State.tileLoad at e
  split at e
  · cases e
  · split at e
    · cases e
    · exact ((h.needLine ‹_›).loaded).of_snd (Except.ok.inj e)

theorem State.Inv.tileStore {t addr n v} (h : s.Inv) (e : s.tileStore t addr n v = .ok u) : u.Inv := by
  unfold State.tileStore at e
  split at e
  · cases e
  · cases e; exact h.storeTile

theorem State.Inv.ldsStrand {d a lb off i} (h : s.Inv) (e : ldsStrand d a lb off i s = .ok u) : u.Inv := by
  unfold Machine.ldsStrand at e
  split at e
  · cases e
  · obtain ⟨⟨_, _⟩, _, rfl⟩ := ok_of_map e
    exact (h.scratchLoad ‹_›).setV

theorem State.Inv.ldsTile {d a off t} (h : s.Inv) (e : ldsTile d a off t s = .ok u) : u.Inv := by
  unfold Machine.ldsTile at e
  split at e
  · cases e
  · obtain ⟨⟨_, _⟩, _, rfl⟩ := ok_of_map e
    exact (h.tileLoad ‹_›).setS

theorem State.Inv.stsStrand {d a lb off i} (h : s.Inv) (e : stsStrand d a lb off i s = .ok u) : u.Inv := by
  unfold Machine.stsStrand at e
  split at e
  · cases e
  · split at e
    · cases e
    · exact h.scratchStore e

theorem State.Inv.stsTile {d a off t} (h : s.Inv) (e : stsTile d a off t s = .ok u) : u.Inv := by
  unfold Machine.stsTile at e
  split at e
  · cases e
  · split at e
    · cases e
    · exact h.tileStore e

theorem State.Inv.presStrand {d a lb off i} (h : s.Inv) (e : presStrand d a lb off i s = .ok u) : u.Inv := by
  unfold Machine.presStrand at e
  split at e
  · cases e
  · split at e
    · cases e
    · extract_lets r at e
      cases e; exact h.deliver.setP

theorem State.Inv.presTile {d a off t} (h : s.Inv) (e : presTile d a off t s = .ok u) : u.Inv := by
  unfold Machine.presTile at e
  split at e
  · cases e
  · split at e
    · extract_lets r at e
      cases e; exact h.deliver.putS
    · cases e

theorem State.Inv.specPoison {o st cause addr} (h : s.Inv) : (s.specPoison o st cause addr).2.Inv := h.newOrigin

theorem State.Inv.ldSStrand {d a lb off i} (h : s.Inv) (e : ldSStrand d a lb off i s = .ok u) : u.Inv := by
  unfold Machine.ldSStrand at e
  split at e
  · cases e
  · split at e
    · cases e; exact (h.loadGlobal ‹_›).setD2
    · extract_lets p at e
      cases e; exact h.keepBacking.specPoison.setD2
    · extract_lets p at e
      cases e; exact h.keepBacking.specPoison.setD2
    · cases e

theorem State.Inv.ldSTile {d a off t} (h : s.Inv) (e : ldSTile d a off t s = .ok u) : u.Inv := by
  unfold Machine.ldSTile at e
  split at e
  · cases e
  · split at e
    · cases e; exact (h.tileLoad ‹_›).setS
    · extract_lets p at e
      cases e; exact h.keepBacking.specPoison.setS
    · extract_lets p at e
      cases e; exact h.keepBacking.specPoison.setS
    · cases e

theorem State.Inv.ldqTile {d a off t} (h : s.Inv) (e : ldqTile d a off t s = .ok u) : u.Inv := by
  unfold Machine.ldqTile at e
  split at e
  · cases e
  · split at e
    · cases e
    · split at e
      · cases e
      · split at e
        · cases e
        · cases e; exact (h.foldlM .needLine ‹_›).setQueue

theorem State.Inv.stqTile {d a off t} (h : s.Inv) (e : stqTile d a off t s = .ok u) : u.Inv := by
  unfold Machine.stqTile at e
  split at e
  · cases e
  · split at e
    · cases e
    · obtain ⟨⟨_, _⟩, _, rfl⟩ := ok_of_map e
      exact (h.popQueue ‹_›).storeTile

theorem State.Inv.makeResident {ctx va} (h : s.Inv) : (s.makeResident ctx va).1.Inv := by
  unfold State.makeResident
  split
  · exact h
  · split
    · exact h.backPage ‹_›
    · exact h
  · split
    · exact h
    · split
      · exact h.migratePage ‹_›
      · exact h
  · exact h

theorem State.Inv.probePages {ctx va n} (h : s.Inv) : (s.probePages ctx va n).1.Inv := by
  induction n generalizing s va with
  | zero => exact h
  | succ n ih =>
    rw [State.probePages]
    split
    next e => exact ih (h.makeResident.of_fst e)
    · exact h.makeResident

theorem State.Inv.probeRange {ctx x} (h : s.Inv) : (s.probeRange ctx x).1.Inv := by
  unfold State.probeRange
  split
  split
  · exact h
  · extract_lets first
    exact h.probePages

theorem State.Inv.probeAll {found ctx l} (h : s.Inv) (h' : found.Inv) : (s.probeAll found ctx l).1.Inv := by
  induction l generalizing s with
  | nil => exact h
  | cons x rest ih =>
    cases x with
    | error => exact h'
    | ok x =>
      rw [State.probeAll]
      split
      · exact h'
      · split
        next e => exact ih (h.probeRange.of_fst e)
        · exact h.probeRange

theorem State.Inv.probeWork {g a b m} (h : s.Inv) : (s.probeWork g a b m).1.Inv := by
  unfold State.probeWork
  split
  · exact h
  · exact (h.drainPoint ‹_›).probeAll (h.drainPoint ‹_›)

theorem State.Inv.execProbe {g a b m} (h : s.Inv) (e : execProbe g a b m s = .next u) : u.Inv := by
  unfold Machine.execProbe at e
  split at e
  · cases e; exact h.probeWork.of_fst ‹_›
  · refine (h.probeWork.of_fst ‹_›).conclude (fun e => ?_) e
    cases e

theorem State.Inv.mapStale {ctx rs f} (h : s.Inv) : (s.mapStale ctx rs f).Inv := h.of_eq rfl rfl

theorem State.Inv.cleanRanges {g a b m} (h : s.Inv) (e : s.cleanRanges g a b m = .ok u) : u.Inv := by
  unfold State.cleanRanges at e
  obtain ⟨_, e, rfl⟩ := ok_of_map e
  exact h.mapStale

theorem State.Inv.execIcinv {g a b m} (h : s.Inv) (e : execIcinv g a b m s = .next u) : u.Inv := by
  unfold Machine.execIcinv at e
  refine h.conclude (fun e => ?_) e
  obtain ⟨_, e, rfl⟩ := ok_of_map e
  extract_lets src
  have hsrc : src.Inv := h.mapStale
  exact hsrc.of_eq rfl rfl

theorem State.Inv.tagsetStrand {a lb off i} (h : s.Inv) (e : tagsetStrand a lb off i s = .ok u) : u.Inv := by
  unfold Machine.tagsetStrand at e
  split at e
  · cases e
  · split at e
    · cases e
    next e₁ =>
      cases e
      split
      · exact (h.globalAccess e₁).setTag _ _
      · exact h.globalAccess e₁

theorem State.Inv.taggetStrand {d a lb off i} (h : s.Inv) (e : taggetStrand d a lb off i s = .ok u) : u.Inv := by
  unfold Machine.taggetStrand at e
  split at e
  · cases e
  · split at e
    · cases e
    · cases e; exact (h.globalAccess ‹_›).putV

/-! ### Atomics -/

theorem State.Inv.outstanding {i d addr pa} (h : s.Inv) : (s.outstanding i d addr pa).Inv := .ite h h.setStrand

theorem State.Inv.atomStrand {f useOld d a b lb off i} (h : s.Inv) (e : atomStrand f useOld d a b lb off i s = .ok u) :
    u.Inv := by
  unfold Machine.atomStrand at e
  split at e
  · cases e
  · split at e
    · cases e
    · split at e
      · cases e
      · split at e
        · cases e
        · extract_lets old v at e
          cases e; exact ((((h.laneGlobal ‹_›).storeData).loaded).setV).outstanding

theorem State.Inv.atomGroup {f useOld g d a b lb off} (h : s.Inv) (e : atomGroup f useOld g d a b lb off s = .next u) :
    u.Inv :=
  h.concludeAccess (fun e => h.forStrands .atomStrand e) e

theorem State.Inv.atomsStrand {f useOld d a b lb off i} (h : s.Inv) (e : atomsStrand f useOld d a b lb off i s = .ok u) :
    u.Inv := by
  unfold Machine.atomsStrand at e
  split at e
  · cases e
  · split at e
    · cases e
    · split at e
      · cases e
      · split at e
        · cases e
        · obtain ⟨_, _, rfl⟩ := ok_of_map e
          exact ((h.scratchLoad ‹_›).scratchStore ‹_›).setV

theorem State.Inv.atomsTile {f useOld d a b off o} (h : s.Inv) (e : atomsTile f useOld d a b off o s = .ok u) :
    u.Inv := by
  unfold Machine.atomsTile at e
  split at e
  · cases e
  · split at e
    · cases e
    · split at e
      · cases e
      · split at e
        · cases e
        · obtain ⟨_, _, rfl⟩ := ok_of_map e
          exact ((h.tileLoad ‹_›).tileStore ‹_›).setS

theorem State.Inv.execRemoteAtomicErrorResponse {b st d addr} (h : s.Inv)
    (e : execRemoteAtomicErrorResponse b st d addr s = .next u) : u.Inv := by
  unfold Machine.execRemoteAtomicErrorResponse at e
  extract_lets i r t _ u' at e
  have ht : t.Inv := h.newOrigin.setV
  have hu' : u'.Inv := ht.setStrand
  split at e
  · cases e; exact hu'.log
  · cases e; exact h

/-! ### Floating lane instructions -/

theorem State.Inv.laneNarrow {g d a f n} (h : s.Inv) : (laneNarrow g s d a f n).Inv := h.eachStrand .setFloat

theorem State.Inv.fcmpStrand {cc tg a b i} (h : s.Inv) (e : fcmpStrand cc tg a b i s = .ok u) : u.Inv := by
  unfold Machine.fcmpStrand at e
  split at e
  · cases e
  · split at e
    · cases e
    · extract_lets r at e
      cases e; exact h.setP.raiseOf

/-! ### Mill stages -/

theorem State.Inv.stageExec {i} (h : s.Inv) (e : stageExec i s = .next u) : u.Inv := by
  cases i with
  | iadd | isub | imul | imulhI | imulhN | iminI | iminN | imaxI | imaxN | iand | ior | ixor | ishl | ishrI | ishrN |
    ibfxI | ibfxN =>
    exact h.lane2.of_next e
  | iaddi | ipopc | iclz | imov => exact h.lane1.of_next e
  | imad | ibfi | isel | idot4I8 | idot4N8 => exact h.lane3.of_next e
  | icmp => exact h.conclude (fun e => h.forStrands .icmpStrand e) e
  | imovi => exact h.lane0.of_next e
  | faddF32 | fmulF32 | fminF32 | fmaxF32 | faddH2 | fmulH2 | faddB2 | fmulB2 | cvtH2F32 | cvtB2F32 =>
    exact h.laneF2.of_next e
  | ffmaF32 | ffmaH2 | ffmaB2 => exact h.laneF3.of_next e
  | fcmpF32 => exact h.conclude (fun e => h.forStrands .fcmpStrand e) e
  | frndF32 | frcp | frsq | fsqrt | fexp2 | flog2 | fsin | fcos | cvtF32I32 | cvtF32N32 | cvtI32F32 | cvtN32F32 |
    cvtF32H2 | cvtF32B2 | cvtF32E4m3 | cvtF32E5m2 =>
    exact h.laneF1.of_next e
  | cvtE4m3F32 | cvtE5m2F32 => exact h.laneNarrow.of_next e
  | ld8 | ld16 | ld32 => exact h.concludeAccess (fun e => h.forStrands .loadStrand e) e
  | ldx => exact h.concludeAccess (fun e => h.forStrands .ldxStrand e) e
  | ldro => exact h.concludeAccess (fun e => h.forStrands .ldroStrand e) e
  | st8 | st16 | st32 => exact h.concludeAccess (fun e => h.forStrands .storeStrand e) e
  | stx => exact h.concludeAccess (fun e => h.forStrands .stxStrand e) e
  | lds => exact h.afterPresence .ldsStrand .ldsTile e
  | sts => exact h.conclude (fun e => h.byProfile .stsStrand .stsTile e) e
  | atomAdd | atomMin | atomMax | atomAnd | atomOr | atomXor | atomXchg | atomCas | atomInc => exact h.atomGroup e
  | atomFadd => exact h.concludeAccess (fun e => h.forStrands .atomStrand e) e
  | atomsAdd | atomsCas => exact h.afterPresence .atomsStrand .atomsTile e
  | lda => exact h.concludeAccess (fun e => h.byProfile .loadStrand .ldsTile e) e
  | sta => exact h.concludeAccess (fun e => h.byProfile .storeStrand .stsTile e) e
  | pres => exact h.conclude (fun e => h.byProfile .presStrand .presTile e) e
  | _ => exact h.of_next e

/-! ### Mills and flumes -/

theorem State.Inv.readUnits {a n r} (h : s.Inv) (e : s.readUnits a n = .ok (r, u)) : u.Inv := by
  induction n generalizing s a r with
  | zero => cases e; exact h
  | succ n ih =>
    rw [State.readUnits] at e
    split at e
    · cases e
    next e₁ =>
      obtain ⟨_, e₂, e₃⟩ := ok_of_map e
      cases e₃
      exact ih (h.globalAccess e₁) e₂

theorem State.Inv.readImage {o a again r} (h : s.Inv) (e : s.readImage o a again = .ok (r, u)) : u.Inv := by
  unfold State.readImage at e
  split at e
  · cases e
  · split at e
    · cases e
    · extract_lets n stages fl at e
      split at e
      · cases e; exact (h.readUnits ‹_›).readUnits ‹_›
      · cases e

theorem State.Inv.bindFlumes {o es} (h : s.Inv) : (s.bindFlumes o es).Inv := by
  unfold State.bindFlumes
  split
  · exact h
  · exact h.setCrew

theorem State.Inv.setMill {n m} (h : s.Inv) : (s.setMill n m).Inv := h.setCore

theorem State.Inv.dropSavedMill {o} (h : s.Inv) : (s.dropSavedMill o).Inv := by
  unfold State.dropSavedMill
  split
  · split
    · exact h.setCrew
    · exact h
  · exact h

theorem State.Inv.millCfgOwner {d a o} (h : s.Inv) (e : millCfgOwner d a o s = .ok u) : u.Inv := by
  unfold Machine.millCfgOwner at e
  split at e
  · cases e
  · split at e
    · cases e
    · extract_lets refused t1 r at e
      have ht1 : t1.Inv := by
        unfold t1
        split
        · exact h.readImage ‹_›
        · split
          · exact (h.readImage ‹_›).bindFlumes
          · exact (((h.readImage ‹_›).dropSavedMill).bindFlumes).setMill
      cases e; exact ht1.deliver.putS

theorem State.Inv.reloadMill {o m} (h : s.Inv) (e : s.reloadMill o m = .ok u) : u.Inv := by
  unfold State.reloadMill at e
  split at e
  · cases e
  · split at e
    · cases e; exact ((h.readImage ‹_›).dropSavedMill).setMill
    · cases e

theorem State.Inv.startMill {o m} (h : s.Inv) : (s.startMill o m).Inv := h.setMill.foldl .setStrand

theorem State.Inv.millEnterOwner {o} (h : s.Inv) (e : millEnterOwner o s = .ok u) : u.Inv := by
  unfold Machine.millEnterOwner at e
  split at e
  · split at e
    · cases e; exact h.startMill
    · split at e <;> cases e
  · split at e
    · cases e
    · split at e
      · cases e
      · split at e
        · cases e; exact (h.reloadMill ‹_›).foldl .setStrand
        · cases e
          split
          · exact (h.reloadMill ‹_›).startMill
          · exact h.reloadMill ‹_›

theorem State.Inv.millExitOwner {d o} (h : s.Inv) (e : millExitOwner d o s = .ok u) : u.Inv := by
  unfold Machine.millExitOwner at e
  split at e
  · split at e
    · cases e; exact h.setMill.putS
    · split at e
      · cases e; exact h.dropSavedMill.putS
      · cases e
  · cases e; exact h.dropSavedMill.putS
  · cases e

theorem State.Inv.stageView {m stage t} (h : s.Inv) : (s.stageView m stage t).Inv := h.of_eq rfl rfl

theorem State.Inv.keepVictims {x b} (h : s.Inv) : (s.keepVictims x b).Inv := by
  unfold State.keepVictims
  split
  · exact h.setCore
  · exact h

theorem State.Inv.stageResult {m stage t v r} (h : s.Inv) (hv : v.Inv) (e : s.stageResult m stage t v = some (r, u)) :
    u.Inv := by
  unfold State.stageResult at e
  extract_lets i x w y src at e
  have hsrc : src.Inv := hv.keepVictims
  split at e
  · cases e; exact h
  · cases e; exact h
  · cases e
  · cases e; exact hsrc.of_eq rfl rfl

theorem State.Inv.actStage {m stage t r} (h : s.Inv) (e : s.actStage m stage t = .ok (some (r, u))) : u.Inv := by
  unfold State.actStage at e
  dsimp only at e
  split at e
  · cases e; exact h
  · split at e
    · cases e; exact h
    · split at e
      · cases e; exact h
      · split at e
        next e₁ => exact h.stageResult (h.stageView.stageExec e₁) (Except.ok.inj e)
        · cases e
        · cases e; exact h

theorem State.Inv.sinkArrive {m} (h : s.Inv) : (s.sinkArrive m).Inv := by
  unfold State.sinkArrive
  split
  · exact h
  · exact h.coreArrive

theorem State.Inv.writeOuts {m t l seen} (h : s.Inv) : (s.writeOuts m t l seen).Inv := by
  induction l generalizing s seen with
  | nil => exact h
  | cons x l ih =>
    rw [State.writeOuts]
    dsimp only
    split
    · exact ih h.putV
    · split
      · exact ih h.setV
      · exact ih h.newOrigin.setV

theorem State.Inv.finishToken {m t} (h : s.Inv) : (s.finishToken m t).2.Inv := by
  unfold State.finishToken
  extract_lets i outs s1 r
  have hr : r.2.Inv := by
    unfold r
    split
    · exact h.newOrigin.foldl .setV
    · exact h.writeOuts.foldl .setP
  split
  · split
    · exact hr.sinkArrive
    · exact hr
  · exact hr

theorem State.Inv.drainReorder {m n} (h : s.Inv) : (s.drainReorder m n).2.Inv := by
  induction n generalizing s m with
  | zero => exact h
  | succ n ih =>
    rw [State.drainReorder]
    split
    · exact h
    · split
      · exact ih h.finishToken
      · exact h

theorem State.Inv.sinkToken {m t} (h : s.Inv) : (s.sinkToken m t).2.Inv := by
  unfold State.sinkToken
  split
  · extract_lets m1
    exact h.drainReorder
  · exact h.finishToken

theorem State.Inv.endMill {m} (h : s.Inv) : (s.endMill m).2.Inv := by
  unfold State.endMill
  split
  · extract_lets s1
    have h1 : s1.Inv := by
      unfold s1
      split
      · exact h.sinkArrive
      · exact h
    dsimp only
    refine h1.foldl fun k => ?_
    split
    · exact k.setStrand.stopNow
    · exact k
  · exact h

theorem State.Inv.actStages {m n r} (h : s.Inv) (e : s.actStages m n = .ok (r, u)) : u.Inv := by
  induction n generalizing s m with
  | zero => cases e; exact h
  | succ n ih =>
    rw [State.actStages] at e
    split at e
    · exact ih h e
    · split at e
      · exact ih h e
      · split at e
        · cases e
        · cases e; exact h
        next e₁ => exact ih (h.actStage e₁) e

theorem State.Inv.moveMill {m} (h : s.Inv) : (s.moveMill m).2.Inv := by
  unfold State.moveMill
  extract_lets n last m1 c again lo enter m3
  clear_value last
  split
  · split
    · exact h
    · extract_lets r m2 m3'
      have hr : r.2.Inv := by
        unfold r
        split
        · exact h
        · exact h.sinkToken
      split
      · exact hr
      · split <;> exact hr
  · split
    · exact h
    · split <;> exact h

theorem State.Inv.millStep {k} (h : s.Inv) (e : s.millStep k = .ok u) : u.Inv := by
  unfold State.millStep at e
  split at e
  · cases e; exact h
  · split at e
    · cases e; exact h
    · extract_lets r at e
      have hr : r.2.Inv := by
        unfold r
        split
        · exact h
        · exact h.moveMill
      split at e
      · cases e
      next e₁ => cases e; exact (hr.actStages e₁).endMill.setMill

theorem State.Inv.execMillStep {core} (h : s.Inv) (e : execMillStep core s = .next u) : u.Inv := by
  unfold Machine.execMillStep at e
  split at e
  · cases e; exact h.millStep ‹_›
  · cases e

theorem State.Inv.stowMill {n} (h : s.Inv) : (s.stowMill n).Inv := by
  unfold State.stowMill
  split
  · exact h
  · split
    · exact h
    · extract_lets order
      exact h.setMill.setCrew

theorem State.Inv.execMillDrainTimeLimit {core} (h : s.Inv) (e : execMillDrainTimeLimit core s = .next u) : u.Inv := by
  unfold Machine.execMillDrainTimeLimit at e
  cases e
  split
  · split
    · exact h.stowMill
    · exact h
  · exact h

theorem State.Inv.atEnter {o m} (h : s.Inv) : (s.atEnter o m).Inv := h.of_eq rfl rfl

theorem State.Inv.execMillReload {core b} (h : s.Inv) (e : execMillReload core b s = .next u) : u.Inv := by
  unfold Machine.execMillReload at e
  split at e
  · cases e; exact h
  · dsimp only at e
    split at e
    · split at e
      · cases e; exact h
      · exact h.atEnter.conclude h.atEnter.reloadMill e
    · cases e; exact h

theorem State.Inv.setFlume {c f y} (h : s.Inv) : (s.setFlume c f y).Inv := by
  unfold State.setFlume
  split
  · exact h.setCrew
  · exact h

theorem State.Inv.present {f push nb a o} (h : s.Inv) (e : s.present f push nb a o = .ok u) : u.Inv := by
  unfold State.present at e
  split at e
  · cases e
  · split at e
    · cases e; exact h
    · split at e
      · cases e
      · cases e; exact h.setFlume

theorem State.Inv.flumePoint {f push nb a} (h : s.Inv) (e : s.flumePoint f push nb a = .ok u) : u.Inv := by
  unfold State.flumePoint at e
  obtain ⟨_, _, rfl⟩ := ok_of_map e
  exact (h.foldlM .present ‹_›).ownerPoint

theorem State.Inv.flumeOwner {f act o} (h : s.Inv)
    (hf : ∀ {i : ℕ} {x : Bool × Tbl Word} {t : State}, t.Inv → (act i x t).Inv) (e : flumeOwner f act o s = .ok u) :
    u.Inv := by
  unfold Machine.flumeOwner at e
  split at e
  · cases e
  · split at e
    · cases e
    · split at e
      · cases e
      · cases e; exact hf h.setFlume

theorem State.Inv.execFsend {d a} (h : s.Inv) (e : execFsend d a s = .next u) : u.Inv := by
  refine h.conclude (fun e => ?_) e
  split at e
  · cases e
  next e₁ => exact (h.unlessCleared h.flumePoint e₁).forOwners (fun k e => k.flumeOwner id e) e

theorem State.Inv.setEvery {b o r} (h : s.Inv) : (setEvery b o r s).Inv := h.deliver.foldl .setP

theorem State.Inv.execFsendNb {d a b} (h : s.Inv) (e : execFsendNb d a b s = .next u) : u.Inv := by
  refine h.conclude (fun e => ?_) e
  split at e
  · cases e
  next e₁ => exact (h.unlessCleared h.flumePoint e₁).forOwners (fun k e => k.flumeOwner .setEvery e) e

theorem State.Inv.takeEntry {d o r} (h : s.Inv) : (takeEntry d o r s).Inv := h.foldl .putV

theorem State.Inv.execFtake {d a} (h : s.Inv) (e : execFtake d a s = .next u) : u.Inv := by
  refine h.conclude (fun e => ?_) e
  split at e
  · cases e
  next e₁ => exact (h.unlessCleared h.flumePoint e₁).forOwners (fun k e => k.flumeOwner .takeEntry e) e

theorem State.Inv.execFlumeStep {crew f} (h : s.Inv) (e : execFlumeStep crew f s = .next u) : u.Inv := by
  unfold Machine.execFlumeStep at e
  cases e
  split
  · exact h
  · split
    · exact h.setFlume
    · exact h

/-! ### Arbitration -/

theorem State.Inv.recompute {n} (h : s.Inv) : (s.recompute n).Inv := h.setCore

theorem State.Inv.execLeaseWindowEnd {b} (h : s.Inv) (e : execLeaseWindowEnd b s = .next u) : u.Inv := by
  unfold Machine.execLeaseWindowEnd at e
  cases e
  split
  · split
    · exact h.setBundle.recompute
    · exact h
  · exact h

theorem State.Inv.passOver {arb c} (h : s.Inv) : (s.passOver arb c).Inv := h.foldl .setStrand

theorem State.Inv.grantStrand {i} (h : s.Inv) : (s.grantStrand i).Inv := h.setStrand

theorem State.Inv.unhold {n granted} (h : s.Inv) : (s.unhold n granted).Inv := h.foldl .setStrand

theorem State.Inv.arbitrate {n} (h : s.Inv) : (s.arbitrate n).Inv := by
  unfold State.arbitrate
  extract_lets s' y tags elig
  have hs' : s'.Inv := h.recompute
  split
  · exact h
  · split
    · exact hs'.setCore
    · extract_lets group members s1 s2
      have h1 : s1.Inv := hs'.foldl .passOver
      have h2 : s2.Inv := h1.unhold.foldl .grantStrand
      exact h2.setCore

theorem State.Inv.timeReaches {t} (h : s.Inv) : (s.timeReaches t).Inv := h.of_eq rfl rfl

theorem State.Inv.execWaittDeadline {o st} (h : s.Inv) (e : execWaittDeadline o st s = .next u) : u.Inv := by
  unfold Machine.execWaittDeadline at e
  cases e
  split
  · split
    · split
      · exact h.timeReaches
      · exact h
    · exact h
  · extract_lets i
    split
    · extract_lets u
      have hu : u.Inv := h.timeReaches
      exact hu.setStrand
    · exact h.timeReaches
    · exact h

theorem State.Inv.execGroveBarrierDoneMessage {grove bar second} (h : s.Inv)
    (e : execGroveBarrierDoneMessage grove bar second s = .next u) : u.Inv := by
  unfold Machine.execGroveBarrierDoneMessage at e
  cases e
  split
  · split
    · exact h
    · extract_lets b
      exact .settleGroveBar (.of_eq h rfl rfl)
  · exact h

/-! ### Copy instructions -/

theorem State.Inv.signalTail {o t} (h : s.Inv) : (s.signalTail o t).Inv := .ite h.signalPlace h

theorem State.Inv.claimPlace {p} (h : s.Inv) : (s.claimPlace p).Inv := by
  unfold State.claimPlace
  split
  · exact h.claimTile
  · exact h

theorem State.Inv.claimPart {p} (h : s.Inv) : (s.claimPart p).Inv := h.claimPlace.claimPlace

theorem State.Inv.cpyLinOwner {a b c m t o} (h : s.Inv) (e : cpyLinOwner a b c m t o s = .ok u) : u.Inv := by
  unfold Machine.cpyLinOwner at e
  obtain ⟨⟨_, _⟩, _, e⟩ := ok_of_bind e
  split at e
  extract_lets s1 _ jp at e
  have h1 : s1.Inv := h.claimPart
  split at e
  · cases e
  · unfold jp at e
    cases e; exact h1.issueCopy

theorem State.Inv.cpyMcOwner {a b c m t o} (h : s.Inv) (e : cpyMcOwner a b c m t o s = .ok u) : u.Inv := by
  unfold Machine.cpyMcOwner at e
  obtain ⟨⟨_, _, _⟩, _, e⟩ := ok_of_bind e
  split at e
  extract_lets len at e
  obtain ⟨⟨_, _⟩, _, e⟩ := ok_of_bind e
  split at e
  extract_lets jp jp' jp'' at e
  split at e
  · cases e
  · unfold jp'' at e
    split at e
    · cases e
    · unfold jp' at e
      split at e
      · cases e
      · unfold jp at e
        obtain ⟨_, _, e⟩ := ok_of_bind e
        obtain ⟨⟨_, _⟩, _, e⟩ := ok_of_bind e
        split at e
        split at e
        · cases e
        · split at e
          · cases e
          · extract_lets parts s1 at e
            have h1 : s1.Inv := h.foldl .claimPart
            split at e
            · cases e
            · cases e; exact h1.issueCopy

theorem State.Inv.tellShare {id m} (h : s.Inv) : (s.tellShare id m).Inv := by
  unfold State.tellShare
  split
  · exact h
  · split
    · extract_lets n s1
      have h1 : s1.Inv := h.of_eq rfl rfl
      split
      · exact h
      · split
        · exact h1.signalPlace
        · exact h1
    · exact h

theorem State.Inv.cpyColOwner {a b c t o} (h : s.Inv) (e : cpyColOwner a b c t o s = .ok u) : u.Inv := by
  unfold Machine.cpyColOwner at e
  obtain ⟨⟨_, _⟩, _, e⟩ := ok_of_bind e
  split at e
  split at e
  · cases e; exact h
  · extract_lets k src s1 at e
    have hsrc : src.Inv := h.claimPart
    have h1 : s1.Inv := hsrc.of_eq rfl rfl
    split at e
    · cases e; exact h1.issueCopy
    · split at e
      split at e
      · cases e
      · extract_lets y1 lines s2 at e
        have h2 : s2.Inv := h1.foldl .clearLine
        cases e; exact h2.of_eq rfl rfl

theorem State.Inv.cpyHostOwner {a b c m t o} (h : s.Inv) (e : cpyHostOwner a b c m t o s = .ok u) : u.Inv := by
  unfold Machine.cpyHostOwner at e
  obtain ⟨⟨_, _, _⟩, _, e⟩ := ok_of_bind e
  split at e
  extract_lets len host at e
  split at e
  split at e
  · cases e
  · extract_lets jp jp' at e
    split at e
    · cases e
    · unfold jp' at e
      split at e
      · cases e
      · unfold jp at e
        obtain ⟨_, _, e⟩ := ok_of_bind e
        obtain ⟨⟨_, _⟩, _, e⟩ := ok_of_bind e
        split at e
        split at e
        · cases e
        · extract_lets part s1 at e
          have h1 : s1.Inv := h.claimPart
          cases e; exact h1.issueCopy

theorem State.Inv.pushOwner {a b c m dir t o} (h : s.Inv) (e : pushOwner a b c m dir t o s = .ok u) : u.Inv := by
  unfold Machine.pushOwner at e
  obtain ⟨⟨_, _, _⟩, _, e⟩ := ok_of_bind e
  split at e
  extract_lets len set jp jp' jp'' jp''' at e
  split at e
  · cases e
  · unfold jp''' at e
    split at e
    · cases e
    · unfold jp'' at e
      split at e
      · cases e
      · unfold jp' at e
        split at e
        · cases e
        · unfold jp at e
          split at e
          · cases e
          · extract_lets there p s1 at e
            have h1 : s1.Inv := h.claimPart
            split at e
            · cases e
            · split at e
              · cases e
              · cases e; exact h1.issueCopy

theorem State.Inv.shapeOwner {a slot t o} (h : s.Inv) (e : shapeOwner a slot t o s = .ok u) : u.Inv := by
  unfold Machine.shapeOwner at e
  obtain ⟨⟨v, x⟩, -, e⟩ := ok_of_bind e
  dsimp only at e
  split at e
  · obtain ⟨_, e₁, -⟩ := ok_of_bind e
    cases e₁
  · obtain ⟨_, -, e⟩ := ok_of_bind e
    obtain ⟨⟨p, w⟩, -, e⟩ := ok_of_bind e
    obtain ⟨⟨bs, _, s1⟩, e₁, e⟩ := ok_of_bind e
    have h₁ := h.readPlace e₁
    dsimp only at e
    split at e
    · cases e
    · cases e; exact h₁.setOwner.signalTail

theorem State.Inv.cpyTenOwner {a b c m slot t o} (h : s.Inv) (e : cpyTenOwner a b c m slot t o s = .ok u) : u.Inv := by
  unfold Machine.cpyTenOwner at e
  obtain ⟨⟨_, _, _⟩, _, e⟩ := ok_of_bind e
  split at e
  obtain ⟨_, _, e⟩ := ok_of_bind e
  obtain ⟨_, _, e⟩ := ok_of_bind e
  obtain ⟨_, _, e⟩ := ok_of_bind e
  obtain ⟨⟨_, _⟩, _, e⟩ := ok_of_bind e
  split at e
  split at e
  extract_lets origin box jp jp' at e
  split at e
  · cases e
  · unfold jp' at e
    split at e
    · cases e
    · unfold jp at e
      split at e
      · cases e
      · extract_lets n count span jp'' at e
        split at e
        · cases e
        · unfold jp'' at e
          obtain ⟨_, _, e⟩ := ok_of_bind e
          obtain ⟨_, _, e⟩ := ok_of_bind e
          obtain ⟨⟨_, _⟩, _, e⟩ := ok_of_bind e
          split at e
          obtain ⟨⟨_, _⟩, _, e⟩ := ok_of_bind e
          split at e
          extract_lets part s1 jp''' jp'''' at e
          have h1 : s1.Inv := h.claimPart
          split at e
          · cases e
          · unfold jp'''' at e
            split at e
            · cases e
            · unfold jp''' at e
              cases e; exact h1.issueCopy

theorem State.Inv.rowCopy {a b c rl scatter t o} (h : s.Inv) (e : rowCopy a b c rl scatter t o s = .ok u) : u.Inv := by
  unfold Machine.rowCopy at e
  obtain ⟨⟨_, _, _⟩, _, e⟩ := ok_of_bind e
  split at e
  obtain ⟨_, _, e⟩ := ok_of_bind e
  obtain ⟨⟨_, _⟩, _, e⟩ := ok_of_bind e
  split at e
  split at e
  · cases e
  · extract_lets n row ranged at e
    split at e
    extract_lets jp jp' jp'' at e
    split at e
    · cases e
    · unfold jp'' at e
      split at e
      · cases e
      · unfold jp' at e
        split at e
        · cases e
        · unfold jp at e
          obtain ⟨_, _, e⟩ := ok_of_bind e
          obtain ⟨_, _, e⟩ := ok_of_bind e
          obtain ⟨_, _, e⟩ := ok_of_bind e
          obtain ⟨⟨_, _⟩, _, e⟩ := ok_of_bind e
          split at e
          obtain ⟨⟨_, _⟩, _, e⟩ := ok_of_bind e
          split at e
          obtain ⟨⟨_, _⟩, _, e⟩ := ok_of_bind e
          split at e
          extract_lets part s1 kind at e
          have h1 : s1.Inv := h.claimPart.claimPlace
          cases e; exact h1.issueCopy

theorem State.Inv.cpyRedOwner {a b c ty rop t o} (h : s.Inv) (e : cpyRedOwner a b c ty rop t o s = .ok u) : u.Inv := by
  unfold Machine.cpyRedOwner at e
  obtain ⟨⟨_, _⟩, _, e⟩ := ok_of_bind e
  split at e
  extract_lets s1 at e
  have h1 : s1.Inv := h.claimPart
  cases e; exact h1.issueCopy

theorem State.Inv.cpyTsOwner {a b c m row col t o} (h : s.Inv) (e : cpyTsOwner a b c m row col t o s = .ok u) :
    u.Inv := by
  unfold Machine.cpyTsOwner at e
  obtain ⟨⟨_, _, _⟩, _, e⟩ := ok_of_bind e
  split at e
  extract_lets n pitch width r cb units at e
  split at e
  · cases e
  · extract_lets here jp jp' jp'' at e
    split at e
    · cases e
    · unfold jp'' at e
      split at e
      · extract_lets rg w k pg off e0 top limit jp''' at e
        split at e
        · cases e
        · unfold jp''' at e
          split at e
          · cases e
          · cases e; exact h.issueCopy
      · split at e
        · cases e
        · unfold jp' at e
          split at e
          · cases e
          · unfold jp at e
            split at e
            · cases e
            · split at e
              · cases e; exact h.issueCopy
              · cases e; exact h.issueCopy
  · cases e

theorem State.Inv.endFeed {t} (h : s.Inv) : (s.endFeed t).Inv := by
  unfold State.endFeed
  split
  · split
    · exact h.completeCopy
    · exact h
  · exact h

theorem State.Inv.cpyFeedOwner {a b c row col t o} (h : s.Inv) (e : cpyFeedOwner a b c row col t o s = .ok u) :
    u.Inv := by
  unfold Machine.cpyFeedOwner at e
  obtain ⟨⟨_, _, _⟩, _, e⟩ := ok_of_bind e
  split at e
  split at e
  · cases e
  · extract_lets s0 f _ s1 jp at e
    have h0 : s0.Inv := h.endFeed
    have h1 : s1.Inv := h0.setTile
    split at e
    · cases e
    · unfold jp at e
      split at e
      · cases e
      · split at e
        · cases e
        · cases e; exact h1.issueCopy
  · cases e

theorem State.Inv.feedBlock {t} (h : s.Inv) : (s.feedBlock t).Inv := by
  unfold State.feedBlock
  split
  · exact h
  · split
    · exact h
    · dsimp only
      split
      next e => exact (h.foldlM .movePlace e).setTile
      · exact h.endContext
      · exact h.endContext
      · exact h

theorem State.Inv.mapSetOwner {a b ent t o} (h : s.Inv) (e : mapSetOwner a b ent t o s = .ok u) : u.Inv := by
  unfold Machine.mapSetOwner at e
  obtain ⟨⟨_, _, _⟩, _, e⟩ := ok_of_bind e
  split at e
  extract_lets k e' k1 at e
  split at e
  · cases e
  · cases e; exact h.setTile.signalTail

theorem State.Inv.writeBack {o t x clear} (h : s.Inv) : (s.writeBack o t x clear).Inv := h.issueCopy

theorem State.Inv.execMapClr {ent t} (h : s.Inv) (e : execMapClr ent t s = .next u) : u.Inv := by
  unfold Machine.execMapClr at e
  refine h.afterChannel (fun k e => ?_) e
  cases e; exact k.writeBack

theorem State.Inv.execCpyWb {ent t} (h : s.Inv) (e : execCpyWb ent t s = .next u) : u.Inv := by
  unfold Machine.execCpyWb at e
  refine h.afterChannel (fun k e => ?_) e
  cases e; exact k.writeBack

theorem State.Inv.cpyFillOwner {a c t o} (h : s.Inv) (e : cpyFillOwner a c t o s = .ok u) : u.Inv := by
  unfold Machine.cpyFillOwner at e
  obtain ⟨⟨_, _, _⟩, _, e⟩ := ok_of_bind e
  split at e
  extract_lets len k at e
  split at e
  · cases e
  · extract_lets ls jp at e
    split at e
    · cases e
    · unfold jp at e
      split at e
      · cases e
      · cases e; exact h.issueCopy
  · cases e

theorem State.Inv.fillDone {t line} (h : s.Inv) : (s.fillDone t line).Inv := by
  unfold State.fillDone
  split
  · exact h
  · extract_lets rest finish
    have hfinish : ∀ {t : State}, t.Inv → (finish t).Inv := by
      intro t' k
      unfold finish
      exact k.of_eq rfl rfl
    split
    · exact hfinish (h.needLine ‹_›)
    · exact h
    · exact hfinish h

theorem State.Inv.shadowOwner {a b t o} (h : s.Inv) (e : shadowOwner a b t o s = .ok u) : u.Inv := by
  unfold Machine.shadowOwner at e
  obtain ⟨⟨_, _, _⟩, _, e⟩ := ok_of_bind e
  split at e
  extract_lets base len c jp at e
  split at e
  · cases e
  · unfold jp at e
    split at e
    · cases e
    · cases e; exact h.setCtx.signalTail

theorem State.Inv.remapPage {ctx va frame} (h : s.Inv) : (s.remapPage ctx va frame).Inv := by
  unfold State.remapPage
  extract_lets large entry e0 old mask s1
  have h1 : s1.Inv := h.writeLE ..
  split <;> exact h1.of_eq rfl rfl

theorem State.Inv.publishSwap {ctx base} (h : s.Inv) : (s.publishSwap ctx base).Inv := by
  unfold State.publishSwap
  split
  · exact h
  · extract_lets s1 c s2
    have h1 : s1.Inv := h.foldl .remapPage
    have h2 : s2.Inv := h1.setCtx
    exact h2.foldl .markServed

theorem State.Inv.askPublish {ctx base o} (h : s.Inv) : (s.askPublish ctx base o).Inv := by
  unfold State.askPublish
  split
  · exact h.setShadow
  · exact h

theorem State.Inv.publishPoint {a} (h : s.Inv) (e : s.publishPoint a = .ok u) : u.Inv := by
  unfold State.publishPoint at e
  split at e
  · cases e
  · split at e
    · cases e
    · extract_lets open_ s1 at e
      have h1 : s1.Inv := by
        unfold s1
        refine h.foldl fun k => ?_
        split
        · split
          · exact k
          · exact k.askPublish
        · exact k
      cases e; exact h1.ownerPoint

theorem State.Inv.execPublish {a t} (h : s.Inv) (e : execPublish a t s = .next u) : u.Inv := by
  refine h.conclude (fun e => ?_) e
  split at e
  · cases e
  next e₁ => cases e; exact (h.unlessCleared h.maskPoint.publishPoint e₁).eachOwner .signalTail

theorem State.Inv.execTokq {t} (h : s.Inv) (e : execTokq t s = .next u) : u.Inv :=
  State.Inv.of_next (h.copyPoint.eachOwner fun k => k.issueCopy) e

theorem State.Inv.cutFeed {t} (h : s.Inv) : (s.cutFeed t).Inv := by
  unfold State.cutFeed
  extract_lets x
  split
  · extract_lets late taken
    exact h.setTile
  · exact h

theorem State.Inv.abortCopies {o t} (h : s.Inv) : (s.abortCopies o t).Inv := by
  unfold State.abortCopies
  extract_lets named cut
  have hcut : cut.Inv := by
    unfold cut
    split
    · exact h.cutFeed
    · exact h
  exact (hcut.foldl .stopCopy).signalTail

/-! ### Ray tests -/

theorem State.Inv.putBlock {i r l} (h : s.Inv) : (s.putBlock i r l).Inv := by
  induction l generalizing s r with
  | nil => exact h
  | cons x l ih => exact ih h.putV

theorem State.Inv.poisonBlock {i r n m} (h : s.Inv) : (s.poisonBlock i r n m).Inv := h.foldl .setV

theorem State.Inv.roWords {p i pa n} (h : s.Inv) : (s.roWords p i pa n).2.Inv := by
  induction n generalizing s pa with
  | zero => exact h
  | succ n ih => exact ih h.readOnlyWord

theorem State.Inv.unitPages {ctx addr size n r} (h : s.Inv) (e : s.unitPages ctx addr size n = .ok (r, u)) : u.Inv := by
  induction n generalizing s addr r with
  | zero => cases e; exact h
  | succ n ih =>
    rw [State.unitPages] at e
    split at e
    · cases e
    · obtain ⟨_, e₁, e₂⟩ := ok_of_map e
      cases e₂
      exact ih (h.pageFor ‹_›) e₁

theorem State.Inv.unitRead {i addr size parts r bad} (h : s.Inv) (e : s.unitRead i addr size parts = .ok (r, bad, u)) :
    u.Inv := by
  unfold State.unitRead at e
  split at e
  · cases e
  · split at e
    · cases e
    · split at e
      · cases e
      next ps t e₁ =>
        have ht : (ps.foldl (fun (u : State) x => u.touch (strandBundle i) x.1) t).Inv := (h.unitPages e₁).foldl .touch
        split at e
        · cases e
        · split at e
          · cases e
          · cases e
            refine foldl_keeps (fun acc : List Nat × State => acc.2.Inv) _ (fun _ _ k => ?_) _ _ ht
            exact k.roWords

theorem State.Inv.unitResult {i addr bad d ws} (h : s.Inv) : (s.unitResult i addr bad d ws).Inv := by
  unfold State.unitResult
  split
  · extract_lets r
    split
    · exact h.loaded.poisonBlock
    · exact h.loaded.putBlock
  · exact h.putBlock

theorem State.Inv.rayInitStrand {d a i} (h : s.Inv) (e : rayInitStrand d a i s = .ok u) : u.Inv := by
  unfold Machine.rayInitStrand at e
  split at e
  · cases e; exact h.poisonBlock
  · extract_lets w at e
    cases e; exact h.putBlock

theorem State.Inv.rayXformStrand {d a b m i} (h : s.Inv) (e : rayXformStrand d a b m i s = .ok u) : u.Inv := by
  unfold Machine.rayXformStrand at e
  split at e
  · cases e
  · split at e
    · cases e
    · split at e
      · cases e; exact (h.unitRead ‹_›).poisonBlock
      · cases e; exact (h.unitRead ‹_›).unitResult

theorem State.Inv.rayTest {d a b size parts outs f i} (h : s.Inv) (e : rayTest d a b size parts outs f i s = .ok u) :
    u.Inv := by
  unfold Machine.rayTest at e
  split at e
  · cases e
  · split at e
    · cases e
    · split at e
      · cases e; exact (h.unitRead ‹_›).poisonBlock
      · cases e; exact (h.unitRead ‹_›).unitResult

theorem State.Inv.rayHitStrand {d a i} (h : s.Inv) : (rayHitStrand d a i s).Inv := by
  unfold Machine.rayHitStrand
  split
  · exact h.setV.setV
  · extract_lets v
    split
    · exact h.setV.setV
    · exact h

theorem State.Inv.raySpillOut {i m n b} (h : s.Inv) (e : s.raySpillOut i m n b = .ok u) : u.Inv := by
  unfold State.raySpillOut at e
  split at e
  · split at e
    · cases e
    · exact h.scratchStore e
  · cases e; exact h

theorem State.Inv.rayPushStrand {d a i} (h : s.Inv) (e : rayPushStrand d a i s = .ok u) : u.Inv := by
  unfold Machine.rayPushStrand at e
  extract_lets k at e
  split at e
  · cases e
  · split at e
    · cases e
    · obtain ⟨_, _, rfl⟩ := ok_of_map e
      exact ((h.raySpillOut ‹_›).setV).putV

theorem State.Inv.rayPopStrand {d a i} (h : s.Inv) (e : rayPopStrand d a i s = .ok u) : u.Inv := by
  unfold Machine.rayPopStrand at e
  extract_lets k at e
  split at e
  · cases e
  · cases e; exact h.putV
  · extract_lets top at e
    split at e
    · cases e
    next r e₁ =>
      cases e
      refine .setV (.putV ?_)
      split at e₁
      · obtain ⟨_, e₂, rfl⟩ := ok_of_map e₁
        exact (h.scratchLoad e₂).setV
      · cases e₁; exact h

theorem State.Inv.rayPopPoint {g a} (h : s.Inv) : (s.rayPopPoint g a).Inv := h.parkOut

theorem State.Inv.execRayStkPop {g d a} (h : s.Inv) (e : execRayStkPop g d a s = .next u) : u.Inv :=
  h.concludeAccess (fun e => (.forStrands (.ite h h.rayPopPoint) .rayPopStrand e)) e

/-! ### Graphics -/

theorem State.Inv.modBundle {b f} (h : s.Inv) : (s.modBundle b f).Inv := h.of_eq rfl rfl

theorem State.Inv.rastBindOwner {a imm o} (h : s.Inv) (e : rastBindOwner a imm o s = .ok u) : u.Inv := by
  unfold Machine.rastBindOwner at e
  split at e
  · cases e
  · extract_lets addr at e
    split at e
    · cases e
    · cases e; exact h.modBundle

theorem State.Inv.guardedOwners {g f} (h : s.Inv) (hf : ∀ {i : ℕ} {t u : State}, t.Inv → f i t = .ok u → u.Inv)
    (e : guardedOwners g s f = .ok u) : u.Inv :=
  h.foldlM hf e

theorem State.Inv.meshOutStrand {d a b i} (h : s.Inv) (e : meshOutStrand d a b i s = .ok u) : u.Inv := by
  unfold Machine.meshOutStrand at e
  split at e
  · cases e
  · split at e
    · cases e
    · split at e
      · cases e
      · split at e
        · cases e
        · cases e; exact h.modBundle

theorem State.Inv.meshPrimStrand {d a i} (h : s.Inv) (e : meshPrimStrand d a i s = .ok u) : u.Inv := by
  unfold Machine.meshPrimStrand at e
  split at e
  · cases e
  · split at e
    · cases e
    · split at e
      · cases e
      · cases e; exact h.modBundle

theorem State.Inv.setFrontEnd {d x} (h : s.Inv) : (s.setFrontEnd d x).Inv := h.of_eq rfl rfl

theorem State.Inv.readRecord {addr r} (h : s.Inv) (e : s.readRecord addr = .ok (r, u)) : u.Inv := by
  unfold State.readRecord at e
  split at e
  · cases e
  · cases e; exact h.globalAccess ‹_›

theorem State.Inv.meshArgs {a b o r q v} (h : s.Inv) (e : s.meshArgs a b o = .ok (r, q, v, u)) : u.Inv := by
  unfold State.meshArgs at e
  split at e
  · cases e
  · split at e
    · cases e
    · split at e
      · cases e
      · split at e
        · cases e
        · cases e; exact h
        · split at e
          · cases e
          · split at e
            · cases e; exact h.readRecord ‹_›
            · cases e

theorem State.Inv.guideFrame {d l r} (h : s.Inv) : (s.guideFrame d l r).Inv := by
  unfold State.guideFrame
  split
  · split
    · exact h.of_eq rfl rfl
    · exact h
  · exact h

theorem State.Inv.meshDoneOwner {a b o} (h : s.Inv) (e : meshDoneOwner a b o s = .ok u) : u.Inv := by
  unfold Machine.meshDoneOwner at e
  split at e
  · cases e
  · split at e
    · extract_lets d m fe u' at e
      have hu' : u'.Inv := (((h.meshArgs ‹_›).guideFrame).setFrontEnd).setBundle
      cases e
      split
      · exact hu'.setLaunch
      · exact hu'
    · cases e; exact h.meshArgs ‹_›

theorem State.Inv.meshPoint {g a b} (h : s.Inv) (e : s.meshPoint g a b = .ok u) : u.Inv := by
  unfold State.meshPoint at e
  extract_lets acts at e
  split at e
  · cases e
  · cases e; exact h.ownerPoint

theorem State.Inv.execMeshDone {g a b} (h : s.Inv) (e : execMeshDone g a b s = .next u) : u.Inv := by
  refine h.conclude (fun e => ?_) e
  split at e
  · cases e
  next e₁ => exact (h.unlessCleared h.meshPoint e₁).guardedOwners .meshDoneOwner e

theorem State.Inv.pixInStrand {d n i} (h : s.Inv) (e : pixInStrand d n i s = .ok u) : u.Inv := by
  unfold Machine.pixInStrand at e
  obtain ⟨_, e, rfl⟩ := ok_of_map e
  exact h.putV

theorem State.Inv.pixBaryStrand {d c lin i} (h : s.Inv) (e : pixBaryStrand d c lin i s = .ok u) : u.Inv := by
  unfold Machine.pixBaryStrand at e
  obtain ⟨_, e, rfl⟩ := ok_of_map e
  exact h.putV

theorem State.Inv.setOut {i f} (h : s.Inv) : (s.setOut i f).Inv := .ite h h.setStrand

theorem State.Inv.pixDiscardStrand {i} (h : s.Inv) (e : pixDiscardStrand i s = .ok u) : u.Inv := by
  unfold Machine.pixDiscardStrand at e
  obtain ⟨_, e, rfl⟩ := ok_of_map e
  exact h.setOut

theorem State.Inv.omWriteStrand {a t i} (h : s.Inv) (e : omWriteStrand a t i s = .ok u) : u.Inv := by
  unfold Machine.omWriteStrand at e
  split at e
  · cases e
  · obtain ⟨_, e, rfl⟩ := ok_of_map e
    exact h.setOut

theorem State.Inv.omDepthStrand {a i} (h : s.Inv) (e : omDepthStrand a i s = .ok u) : u.Inv := by
  unfold Machine.omDepthStrand at e
  split at e
  · cases e
  · obtain ⟨_, e, rfl⟩ := ok_of_map e
    exact h.setOut

theorem State.Inv.guideOutStrand {a i} (h : s.Inv) (e : guideOutStrand a i s = .ok u) : u.Inv := by
  unfold Machine.guideOutStrand at e
  split at e
  · cases e
  · split at e
    · cases e
    · obtain ⟨_, e, rfl⟩ := ok_of_map e
      exact h.setOut

theorem State.Inv.rasterise {d} (h : s.Inv) : (s.rasterise d).Inv := by
  unfold State.rasterise
  extract_lets fe
  split
  · exact h
  · split
    · exact h
    · exact h.setFrontEnd

theorem State.Inv.meshGone {l} (h : s.Inv) : (s.meshGone l).Inv := by
  unfold State.meshGone
  split
  · exact h.setLaunch
  · exact h

theorem State.Inv.execMeshRasterise {die} (h : s.Inv) (e : execMeshRasterise die s = .next u) : u.Inv := by
  unfold Machine.execMeshRasterise at e
  extract_lets fe t at e
  have ht : t.Inv := h.rasterise
  cases e
  split
  · exact h
  · exact .ite h (.ite ht.meshGone ht)

theorem State.Inv.startPixels {d} (h : s.Inv) : (s.startPixels d).Inv := by
  unfold State.startPixels
  extract_lets fe u ps left
  split
  · split
    · exact h
    · split
      · exact h
      · split
        · exact h
        · split
          · exact h
          · split
            · exact h
            · extract_lets h' lease x s1 s2 s3 s4 s5
              have h1 : s1.Inv := h.of_eq rfl rfl
              have h2 : s2.Inv := h1.setOwner.putS
              have h3 : s3.Inv := h2.foldl .setStrand
              have h4 : s4.Inv := h3.setCrew
              have h5 : s5.Inv := h4.setFrontEnd
              exact .ite h5.meshGone h5
  · exact h

theorem State.Inv.mergeWord {ctx addr n reads whole f} (h : s.Inv) (e : s.mergeWord ctx addr n reads whole f = .ok u) :
    u.Inv := by
  unfold State.mergeWord at e
  split at e
  · cases e
  · split at e
    · cases e
    · extract_lets u' at e
      have hu' : u'.Inv := (h.globalAccess ‹_›).storeEngine
      cases e
      split
      · exact hu'.of_eq rfl rfl
      · exact hu'

theorem State.Inv.readDepth {ctx addr r} (h : s.Inv) (e : s.readDepth ctx addr = .ok (r, u)) : u.Inv := by
  unfold State.readDepth at e
  split at e
  · cases e
  · cases e; exact h.globalAccess ‹_›

theorem State.Inv.mergeSample {ctx f k b} (h : s.Inv) (e : s.mergeSample ctx f k = .ok (b, u)) : u.Inv := by
  unfold State.mergeSample at e
  extract_lets r place depth dbase tested at e
  have h₁ {b t} (e : tested = .ok (b, t)) : t.Inv := by
    unfold tested at e
    split at e
    · obtain ⟨_, e₁, e₂⟩ := ok_of_map e
      cases e₂
      exact h.readDepth e₁
    · cases e; exact h
  clear_value tested
  rcases tested with _ | ⟨_ | _, t⟩
  · cases e
  · cases e; exact h₁ rfl
  · dsimp only at e
    split at e
    · cases e
    next v e₂ =>
      have hv : v.Inv := by
        split at e₂
        · exact (h₁ rfl).mergeWord e₂
        · cases e₂; exact h₁ rfl
      obtain ⟨_, e₃, e₄⟩ := ok_of_map e
      cases e₄
      refine hv.foldlM (fun k e => ?_) e₃
      split at e
      · cases e; exact k
      · exact k.mergeWord e

theorem State.Inv.mergeGuide {l f} (h : s.Inv) : (s.mergeGuide l f).Inv := by
  unfold State.mergeGuide
  split
  · exact h
  · exact h.of_eq rfl rfl

theorem State.Inv.mergeOne {ctx l f} (h : s.Inv) (e : s.mergeOne ctx l f = .ok u) : u.Inv := by
  unfold State.mergeOne at e
  split at e
  · cases e; exact h
  · obtain ⟨x, e₁, rfl⟩ := ok_of_map e
    have hx : x.2.Inv := by
      refine foldlM_keeps (fun x : Bool × State => x.2.Inv) (x := (false, s)) h (fun k e => ?_) e₁
      obtain ⟨_, e₂, rfl⟩ := ok_of_map e
      exact k.mergeSample e₂
    exact .ite hx.mergeGuide hx

theorem State.Inv.execFragmentMerge {l} (h : s.Inv) (e : execFragmentMerge l s = .next u) : u.Inv := by
  unfold Machine.execFragmentMerge at e
  split at e
  · cases e; exact h
  · split at e
    · cases e; exact h
    · split at e
      · cases e; exact h
      · extract_lets s1 at e
        have h1 : s1.Inv := h.setLaunch
        split at e
        · cases e; exact h1.mergeOne ‹_›
        · cases e
        · cases e; exact h1.endContext
        · cases e; exact h1.endContext
        · cases e; exact h

/-! ### Guides -/

theorem State.Inv.bindChannel {d c} (h : s.Inv) : (s.bindChannel d c).Inv := by
  unfold State.bindChannel
  split
  · exact h.setChannel
  · extract_lets s1 keep
    have h1 : s1.Inv := by
      unfold s1
      split
      · exact h
      · exact h.desync
    exact h1.setChannel

theorem State.Inv.guideBindOwner {a b c t o} (h : s.Inv) (e : guideBindOwner a b c t o s = .ok u) : u.Inv := by
  unfold Machine.guideBindOwner at e
  obtain ⟨⟨_, _, _⟩, _, e⟩ := ok_of_bind e
  split at e
  extract_lets slots fill free d l at e
  split at e
  · cases e
  · extract_lets jp at e
    split at e
    · cases e
    · unfold jp at e
      split at e
      · extract_lets tiles s1 jp' at e
        have h1 : s1.Inv := h.foldl .claimTile
        split at e
        · cases e
        · unfold jp' at e
          split at e
          · cases e
          · cases e; exact h1.bindChannel.signalTail
      · cases e

theorem State.Inv.sendGuide {d c t i slot} (h : s.Inv) : (s.sendGuide d c t i slot).Inv := by
  unfold State.sendGuide
  extract_lets at0 bytes p s1 s2 s3 seen c1
  have h1 : s1.Inv := h.foldl .clearLine
  have h2 : s2.Inv := by
    unfold s2
    split
    · exact h1.writePlace ‹_›
    · exact h1
  have h3 : s3.Inv := (h2.foldl .presentLine).checkBead
  exact .ite h3 h3.setChannel.signal

theorem State.Inv.frameAudit {d} (h : s.Inv) : (s.frameAudit d).Inv := by
  unfold State.frameAudit
  split
  · split
    · exact h.setChannel
    · exact h.desync
  · exact h

theorem State.Inv.guideStep {d} (h : s.Inv) : (s.guideStep d).Inv := by
  unfold State.guideStep
  split
  · exact h
  · extract_lets ts i t m free go b
    have hgo : ∀ {t : State}, t.Inv → (go t).Inv := by
      intro t' k
      unfold go
      extract_lets v
      have hv : v.Inv := k.sendGuide
      split
      · exact hv.frameAudit
      · exact hv
    exact .ite h (.ite (hgo h) (.ite h (.ite h.checkBead (.ite (hgo h.setBead) h.setBead))))

/-! ### Links and transfers -/

theorem State.Inv.setPort {p x} (h : s.Inv) : (s.setPort p x).Inv := h.of_eq rfl rfl

theorem State.Inv.setLink2 {p st x} (h : s.Inv) : (s.setLink2 p st x).Inv := h.setPort

theorem State.Inv.emit {p kind f} (h : s.Inv) : (s.emit p kind f).Inv := h.setPort

theorem State.Inv.emitTracked {p st copy f} (h : s.Inv) : (s.emitTracked p st copy f).Inv := by
  unfold State.emitTracked
  split
  · exact h
  · exact h.setLink2.emit

theorem State.Inv.acknowledge {p st cred} (h : s.Inv) : (s.acknowledge p st cred).Inv := by
  unfold State.acknowledge
  split
  · exact h
  · extract_lets n
    split
    · exact h
    · exact h.emit

theorem State.Inv.startSends {p st} (h : s.Inv) : (s.startSends p st).Inv := by
  unfold State.startSends
  split
  · exact h.of_eq rfl rfl
  · exact h

theorem State.Inv.linkSendOwner {a b c t o} (h : s.Inv) (e : linkSendOwner a b c t o s = .ok u) : u.Inv := by
  unfold Machine.linkSendOwner at e
  obtain ⟨⟨_, _, _⟩, _, e⟩ := ok_of_bind e
  split at e
  obtain ⟨⟨_, _, _, _⟩, _, e⟩ := ok_of_bind e
  split at e
  extract_lets s1 at e
  have h1 : s1.Inv := h.claimPlace
  split at e
  · exact Except.ok.inj e ▸ h1
  · split at e
    · exact Except.ok.inj e ▸ h1
    · extract_lets cp at e
      cases e; exact h1.setLink2.issueCopy.startSends

theorem State.Inv.linkRecvOwner {a b c t o} (h : s.Inv) (e : linkRecvOwner a b c t o s = .ok u) : u.Inv := by
  unfold Machine.linkRecvOwner at e
  obtain ⟨⟨_, _, _⟩, _, e⟩ := ok_of_bind e
  split at e
  obtain ⟨⟨_, _, _, _⟩, _, e⟩ := ok_of_bind e
  split at e
  extract_lets s1 id at e
  have h1 : s1.Inv := h.claimPlace
  split at e
  · exact Except.ok.inj e ▸ h1
  · split at e
    · exact Except.ok.inj e ▸ h1
    · extract_lets cp s2 at e
      have h2 : s2.Inv := h1.setLink2.issueCopy
      cases e; exact h2.emitTracked

theorem State.Inv.readPieces {p a n r} (h : s.Inv) (e : s.readPieces p a n = .ok (r, u)) : u.Inv := by
  induction n generalizing s a r with
  | zero => cases e; exact h
  | succ n ih =>
    rw [State.readPieces] at e
    split at e
    · cases e
    · obtain ⟨_, e₁, e₂⟩ := ok_of_map e
      cases e₂
      exact ih (h.readPlace ‹_›) e₁

theorem State.Inv.sendFrame {id c p st m n} (h : s.Inv) (e : s.sendFrame id c p st m n = .ok u) : u.Inv := by
  unfold State.sendFrame at e
  extract_lets u' len last at e
  split at e
  · cases e; exact h
  · obtain ⟨⟨_, _⟩, _, rfl⟩ := ok_of_map e
    extract_lets src t t1
    have hsrc : src.Inv := h.readPieces ‹_›
    have ht : t.Inv := hsrc.of_eq rfl rfl
    have ht1 : t1.Inv := ht.setLink2.emitTracked
    exact .ite ht1.log ht1

theorem State.Inv.transfer {id n} (h : s.Inv) : (s.transfer id n).Inv := by
  unfold State.transfer
  split
  · exact h
  · split
    · split
      · exact h
      · split
        · exact h.sendFrame ‹_›
        · exact h
        · exact h
        · exact h.endContext
        · exact h.endContext
    · exact h.transferUnit

theorem State.Inv.execCopyCompletion {copy} (h : s.Inv) (e : execCopyCompletion copy s = .next u) : u.Inv := by
  unfold Machine.execCopyCompletion at e
  cases e
  split
  · split
    · exact h.completeCopy
    · exact h
  · exact h

theorem State.Inv.execPublishSwap {ctx va} (h : s.Inv) (e : execPublishSwap ctx va s = .next u) : u.Inv := by
  unfold Machine.execPublishSwap at e
  cases e
  split
  · split
    · exact h
    · exact h.publishSwap
  · exact h

theorem State.Inv.settle {id} (h : s.Inv) : (s.settle id).Inv := by
  unfold State.settle
  split
  · exact h.of_eq rfl rfl
  · exact h

theorem State.Inv.receiveUnits {id ofs bytes n} (h : s.Inv) (e : s.receiveUnits id ofs bytes n = .ok u) : u.Inv := by
  induction n generalizing u with
  | zero => cases e; exact h
  | succ n ih =>
    rw [State.receiveUnits] at e
    split at e
    · cases e
    next t e₁ =>
      split at e
      · cases e; exact ih e₁
      · dsimp only at e
        split at e
        · cases e; exact ih e₁
        · obtain ⟨v, e₂, rfl⟩ := ok_of_map e
          have hv : v.Inv := (ih e₁).writePlace e₂
          exact .finishLines (hv.of_eq rfl rfl)

theorem State.Inv.acceptData {p f x} (h : s.Inv) : (s.acceptData p f x).Inv := by
  unfold State.acceptData
  split
  · exact h
  · split
    · extract_lets y t1
      have ht1 : t1.Inv := (h.receiveUnits ‹_›).setLink2
      exact .acknowledge (.ite ht1.settle ht1)
    · exact h
    · exact h
    · exact h.endContext
    · exact h.endContext

theorem State.Inv.execLinkDataFrame {port f} (h : s.Inv) (e : execLinkDataFrame port f s = .next u) : u.Inv := by
  unfold Machine.execLinkDataFrame at e
  cases e
  split
  · exact h
  · split
    · exact h
    · split
      · exact h.acceptData
      · exact h.acknowledge

theorem State.Inv.execLinkAckFrame {port f} (h : s.Inv) (e : execLinkAckFrame port f s = .next u) : u.Inv := by
  unfold Machine.execLinkAckFrame at e
  cases e
  split
  · exact h
  · split
    · exact h
    · extract_lets hit gone t
      have ht : t.Inv := h.setLink2
      exact ht.foldl .settle

theorem State.Inv.execLinkCreditFrame {port f} (h : s.Inv) (e : execLinkCreditFrame port f s = .next u) : u.Inv := by
  unfold Machine.execLinkCreditFrame at e
  cases e
  split
  · exact h
  · split
    · exact h
    · split
      · exact h.setLink2.startSends.acknowledge
      · exact h.acknowledge

theorem State.Inv.portDown {p} (h : s.Inv) : (s.portDown p).Inv := (h.foldl .stopCopy).setPort.postGlobal

theorem State.Inv.execLinkRetransmitTimeout {port stream} (h : s.Inv)
    (e : execLinkRetransmitTimeout port stream s = .next u) : u.Inv := by
  unfold Machine.execLinkRetransmitTimeout at e
  cases e
  split
  · exact h
  · split
    · exact h
    · split
      · exact h.portDown
      · exact h.setLink2.emit

theorem State.Inv.execPortUp {port} (h : s.Inv) (e : execPortUp port s = .next u) : u.Inv :=
  State.Inv.of_next (.ite h.setPort h) e

theorem State.Inv.execForeignFrame {port} (h : s.Inv) (e : execForeignFrame port s = .next u) : u.Inv :=
  State.Inv.of_next (.ite h.setPort h) e

/-! ### Vector instructions -/

theorem State.Inv.fly {t lat x} (h : s.Inv) : (s.fly t lat x).Inv := h.setStream

theorem State.Inv.flyReg {t lat d v bits} (h : s.Inv) : (s.flyReg t lat d v bits).Inv := h.setStream

theorem State.Inv.flyPoison {t lat d n} (h : s.Inv) : (s.flyPoison t lat d n).Inv := h.setStream

theorem State.Inv.landDue {t} (h : s.Inv) : (s.landDue t).Inv := by
  unfold State.landDue
  extract_lets x
  split
  · exact h
  · extract_lets due st1 x1
    exact h.setTile

theorem State.Inv.tick {t} (h : s.Inv) : (s.tick t).Inv := h.setStream.landDue

theorem State.Inv.vecRaise {t f} (h : s.Inv) : (s.vecRaise t f).Inv := .ite h h.raise

theorem State.Inv.forStreams {ts f} (h : s.Inv)
    (hf : ∀ {i : ℕ} {x : Stream} {t u : State}, t.Inv → f i x t = .ok u → u.Inv) (e : forStreams s ts f = .next u) :
    u.Inv := by
  unfold Machine.forStreams at e
  refine h.conclude (fun e => ?_) e
  refine h.forOwners (fun k e => ?_) e
  split at e
  · cases e; exact k
  · split at e
    · exact hf k e
    · cases e

theorem State.Inv.vecWrite {d n m lat ty srcs t st res} (h : s.Inv) : (vecWrite d n m lat ty srcs t st res s).Inv := by
  unfold Machine.vecWrite
  split
  · exact h.flyPoison
  · extract_lets out r
    exact h.flyReg.vecRaise

theorem State.Inv.vecMap {ts d n m lat srcs f} (h : s.Inv) (e : vecMap ts d n m lat srcs f s = .next u) : u.Inv := by
  unfold Machine.vecMap at e
  refine h.forStreams (fun k e => ?_) e
  extract_lets ty w vals at e
  cases e; exact k.vecWrite

theorem State.Inv.vecWhole {d lat srcs t st r} (h : s.Inv) : (vecWhole d lat srcs t st r s).Inv := by
  unfold Machine.vecWhole
  split
  · exact h.flyPoison
  · exact h.flyReg.vecRaise

theorem State.Inv.execVmov {d a n m} (h : s.Inv) (e : execVmov d a n m s = .next u) : u.Inv := h.vecMap e

theorem State.Inv.vcmpStream {cc a b n t st} (h : s.Inv) (e : vcmpStream cc a b n t st s = .ok u) : u.Inv := by
  unfold Machine.vcmpStream at e
  extract_lets ty w at e
  split at e
  · cases e
  · split at e
    · cases e
    · split at e
      · cases e
      · extract_lets r v fl at e
        cases e
        refine .vecRaise ?_
        split
        · exact h
        · exact h.fly

theorem State.Inv.execVsel {d a b n m} (h : s.Inv) (e : execVsel d a b n m s = .next u) : u.Inv := by
  unfold Machine.execVsel at e
  refine h.forStreams (fun k e => ?_) e
  extract_lets ty w at e
  cases e; exact k.vecWrite

theorem State.Inv.execVkmov {op t a b} (h : s.Inv) (e : execVkmov op t a b s = .next u) : u.Inv := by
  unfold Machine.execVkmov at e
  refine h.forStreams (fun k e => ?_) e
  cases e
  split
  · exact k
  · exact k.fly

theorem State.Inv.execVradd {d a n} (h : s.Inv) (e : execVradd d a n s = .next u) : u.Inv := by
  unfold Machine.execVradd at e
  refine h.forStreams (fun k e => ?_) e
  extract_lets ty at e
  cases e; exact k.vecWhole

theorem State.Inv.execVrmax {d a n} (h : s.Inv) (e : execVrmax d a n s = .next u) : u.Inv := by
  unfold Machine.execVrmax at e
  refine h.forStreams (fun k e => ?_) e
  extract_lets ty xs at e
  cases e; exact k.vecWhole

theorem State.Inv.execVpsum {d a n m} (h : s.Inv) (e : execVpsum d a n m s = .next u) : u.Inv := by
  unfold Machine.execVpsum at e
  refine h.forStreams (fun k e => ?_) e
  extract_lets ty xs at e
  cases e; exact k.vecWrite

theorem State.Inv.execVamax {d a n} (h : s.Inv) (e : execVamax d a n s = .next u) : u.Inv := by
  unfold Machine.execVamax at e
  refine h.forStreams (fun k e => ?_) e
  extract_lets ms r at e
  have hr : r.Inv := k.vecWhole
  cases e
  split
  · exact hr
  · exact hr.fly

theorem State.Inv.vtbllStream {a n t st} (h : s.Inv) (e : vtbllStream a n t st s = .ok u) : u.Inv := by
  unfold Machine.vtbllStream at e
  obtain ⟨_, e, rfl⟩ := ok_of_map e
  exact h.setTile

theorem State.Inv.execVtbli {d a b n m} (h : s.Inv) (e : execVtbli d a b n m s = .next u) : u.Inv := by
  unfold Machine.execVtbli at e
  refine h.forStreams (fun k e => ?_) e
  extract_lets ty bv av at e
  cases e; exact k.vecWrite

theorem State.Inv.permute {d a srcs n m src} (h : s.Inv) (e : permute d a srcs n m src s = .next u) : u.Inv := by
  unfold Machine.permute at e
  refine h.forStreams (fun k e => ?_) e
  extract_lets ty w av at e
  cases e; exact k.vecWrite

theorem State.Inv.execVperm {d a b n m} (h : s.Inv) (e : execVperm d a b n m s = .next u) : u.Inv := h.permute e

theorem State.Inv.execVslide {d a b n m} (h : s.Inv) (e : execVslide d a b n m s = .next u) : u.Inv := h.permute e

theorem State.Inv.execVrot {d a b n m} (h : s.Inv) (e : execVrot d a b n m s = .next u) : u.Inv := h.permute e

theorem State.Inv.execVbcast {d a b n m} (h : s.Inv) (e : execVbcast d a b n m s = .next u) : u.Inv := h.permute e

theorem State.Inv.vqntStream {d a fmt n byp t st} (h : s.Inv) (e : vqntStream d a fmt n byp t st s = .ok u) :
    u.Inv := by
  unfold Machine.vqntStream at e
  extract_lets ty book fz v ms at e
  split at e
  · cases e
  · extract_lets bs src at e
    have hsrc : src.Inv := h.vecWhole
    cases e; exact hsrc.of_eq rfl rfl

theorem State.Inv.vdqntStream {d a fmt n m t st} (h : s.Inv) (e : vdqntStream d a fmt n m t st s = .ok u) : u.Inv := by
  unfold Machine.vdqntStream at e
  extract_lets ty book v w at e
  split at e
  · cases e
  · cases e; exact h.vecWrite

theorem State.Inv.execVcvt {d a b n m} (h : s.Inv) (e : execVcvt d a b n m s = .next u) : u.Inv := by
  unfold Machine.execVcvt at e
  refine h.forStreams (fun k e => ?_) e
  extract_lets ty v at e
  cases e; exact k.vecWrite

theorem State.Inv.execVsat {d a b n m} (h : s.Inv) (e : execVsat d a b n m s = .next u) : u.Inv := by
  unfold Machine.execVsat at e
  refine h.forStreams (fun k e => ?_) e
  extract_lets ty at e
  split at e
  · cases e; exact .vecWrite (.of_eq k rfl rfl)
  · cases e

theorem State.Inv.vcbkStream {a t st} (h : s.Inv) (e : vcbkStream a t st s = .ok u) : u.Inv := by
  unfold Machine.vcbkStream at e
  obtain ⟨_, e, rfl⟩ := ok_of_map e
  exact h.setTile

theorem State.Inv.vpopStream {d q t x} (h : s.Inv) (e : vpopStream d q t x s = .ok u) : u.Inv := by
  unfold Machine.vpopStream at e
  obtain ⟨⟨_, _⟩, _, rfl⟩ := ok_of_map e
  exact (h.popQueue ‹_›).flyReg

theorem State.Inv.pushQueue {t q v} (h : s.Inv) (e : s.pushQueue t q v = .ok u) : u.Inv := by
  unfold State.pushQueue at e
  split at e
  · cases e
  · cases e; exact h.setQueue

theorem State.Inv.vpushStream {q a t st} (h : s.Inv) (e : vpushStream q a t st s = .ok u) : u.Inv := by
  unfold Machine.vpushStream at e
  split at e
  · cases e
  · exact h.pushQueue e

theorem State.Inv.vpopkStream {n q t x} (h : s.Inv) (e : vpopkStream n q t x s = .ok u) : u.Inv := by
  unfold Machine.vpopkStream at e
  obtain ⟨⟨_, _⟩, _, rfl⟩ := ok_of_map e
  exact .ite (h.popQueue ‹_›) ((h.popQueue ‹_›).fly)

theorem State.Inv.vpushsStream {d a m t st} (h : s.Inv) (e : vpushsStream d a m t st s = .ok u) : u.Inv := by
  unfold Machine.vpushsStream at e
  split at e
  · extract_lets n on at e
    split at e
    · exact h.pushQueue e
    · split at e
      · exact h.pushQueue e
      · cases e
  · split at e
    · cases e
    · exact h.pushQueue e

theorem State.Inv.vshapeStream {d a b rot m t st} (h : s.Inv) (e : vshapeStream d a b rot m t st s = .ok u) : u.Inv := by
  unfold Machine.vshapeStream at e
  extract_lets n set c at e
  have hset : ∀ {i : ℕ}, (set i).Inv := by
    intro i
    unfold set
    exact h.setStream
  split at e
  · obtain ⟨_, e, rfl⟩ := ok_of_map e
    exact hset
  · cases e; exact hset

/-! ### Matrix instructions -/

theorem State.Inv.matIssue {t i tail always pr} (h : s.Inv) (e : s.matIssue t i tail always pr = .ok u) : u.Inv := by
  unfold State.matIssue at e
  extract_lets x blk feed at e
  split at e
  · cases e; exact h
  · split at e
    · cases e
    · split at e
      · cases e
      · split at e
        · cases e
        · cases e; exact h.setTile

theorem State.Inv.forMat {f} (h : s.Inv) (hf : ∀ {i : ℕ} {x : Stream} {t u : State}, t.Inv → f i x t = .ok u → u.Inv)
    (e : forMat s f = .next u) : u.Inv := by
  unfold Machine.forMat at e
  refine h.conclude (fun e => ?_) e
  refine h.forOwners (fun k e => ?_) e
  split at e
  · cases e; exact k
  · exact hf k e

theorem State.Inv.queueMat {i tail always pr} (h : s.Inv) (e : queueMat i tail always pr s = .next u) : u.Inv :=
  h.forMat .matIssue e

theorem State.Inv.mpairStream {el tail t st} (h : s.Inv) (e : mpairStream el tail t st s = .ok u) : u.Inv := by
  unfold Machine.mpairStream at e
  extract_lets x bad at e
  split at e
  · cases e
  · split at e
    · cases e
    · obtain ⟨_, _, rfl⟩ := ok_of_map e
      exact (h.matIssue ‹_›).setStream

theorem State.Inv.execMfree {t} (h : s.Inv) (e : execMfree t s = .next u) : u.Inv := by
  unfold Machine.execMfree at e
  refine h.forMat (fun k e => ?_) e
  obtain ⟨_, _, rfl⟩ := ok_of_map e
  exact (k.matIssue ‹_›).setStream

theorem State.Inv.onPair {t pair v f} (h : s.Inv) : (s.onPair t pair v f).Inv := by
  unfold State.onPair
  extract_lets s1
  have h1 : s1.Inv := h.setTile
  split
  · split
    · exact h1.setTile
    · exact h1
  · exact h1

theorem State.Inv.matStep {t v sp fz r q c2 pair} (h : s.Inv) : (s.matStep t v sp fz r q c2 pair).Inv := by
  unfold State.matStep
  extract_lets rows own _ s1
  have h1 : s1.Inv := h.setTile.raise
  split
  · split
    · extract_lets other
      exact h1.setTile.raise
    · exact h1
  · exact h1

theorem State.Inv.mmvStep {t v sp fz r c1 q c2 sl feed blk} (h : s.Inv) :
    (s.mmvStep t v sp fz r c1 q c2 sl feed blk).Inv :=
  h.setTile.raise

theorem State.Inv.popMat {t} (h : s.Inv) : (s.popMat t).Inv := h.setTile

theorem State.Inv.blockOnPair {t pair v f} (h : s.Inv) : (s.blockOnPair t pair v f).Inv := h.onPair.raise

theorem State.Inv.matEffect {t v i acr blk} (h : s.Inv) : (s.matEffect t v i acr blk).Inv := by
  cases i with
  | mmaBf16 | mmaF16 | mmaE4m3 | mmaE5m2 | mmaMx8 | mmaMx6 | mmaMx4 | mmaI8 | mmaI4 | mmasMx4 | mmasMx8 => exact h.matStep
  | mmvMx4 | mmvMx8 | mmvBf16 => exact h.mmvStep
  | mldb | mcbk => exact h.onPair
  | mzero => unfold State.matEffect; exact h.onPair
  | mscale | mcvt => exact h.blockOnPair
  | mtest | mtrn => exact h.setTile
  | mfree =>
    unfold State.matEffect
    dsimp only
    split
    · split
      · exact h.of_eq rfl rfl
      · exact h
    · exact h
  | _ => exact h

theorem State.Inv.unmarkStore {t x} (h : s.Inv) : (s.unmarkStore t x).Inv := by
  unfold State.unmarkStore
  extract_lets out clear s1
  have h1 : s1.Inv := h.setTile
  split
  · split
    · exact h1.setTile
    · exact h1
  · exact h1

theorem State.Inv.matStart {t} (h : s.Inv) : (s.matStart t).Inv := by
  unfold State.matStart
  extract_lets x
  split
  · exact h
  · exact h.setTile

theorem State.Inv.trapTileFrom {t cause addr x pc} (h : s.Inv) : (s.trapTileFrom t cause addr x pc).Inv := by
  unfold State.trapTileFrom
  extract_lets s1 src
  have h1 : s1.Inv := h.of_eq rfl rfl
  have hsrc : src.Inv := h1.takeTrap
  exact hsrc.of_eq rfl rfl

theorem State.Inv.trapTile {t cause addr pc} (h : s.Inv) : (s.trapTile t cause addr pc).Inv := h.trapTileFrom

theorem State.Inv.restart {t} (h : s.Inv) : (s.restart t).Inv := by
  unfold State.restart
  extract_lets x s1 s2
  have h1 : s1.Inv := h.forgetWaits
  have h2 : s2.Inv := h1.setTile
  split
  · exact h2.setOwner
  · exact h2

theorem State.Inv.restartOnError {t} (h : s.Inv) : (s.restartOnError t).Inv := by
  unfold State.restartOnError
  split
  · exact h
  · split
    · exact h
    · split
      · exact h.trapTile
      · exact h.restart

theorem State.Inv.execMatRetire {tile} (h : s.Inv) (e : execMatRetire tile s = .next u) : u.Inv := by
  unfold Machine.execMatRetire at e
  split at e
  · split at e
    · cases e; exact h
    · split at e
      · cases e; exact .ite h.restartOnError h.matStart
      · cases e; exact h.matEffect.unmarkStore.popMat
  · cases e; exact h

theorem State.Inv.breakPair {t} (h : s.Inv) : (s.breakPair t).Inv := h.releasePair.setTile.restartOnError

theorem State.Inv.applyFences {t} (h : s.Inv) : (s.applyFences t).Inv := .ite h (.ite h.setTile.breakPair h.setTile)

theorem State.Inv.execMpairSlave {tile} (h : s.Inv) (e : execMpairSlave tile s = .next u) : u.Inv := by
  unfold Machine.execMpairSlave at e
  split at e
  · cases e; exact h
  · split at e
    · cases e; exact h.restart
    · split at e
      · extract_lets _ s1 at e
        have h1 : s1.Inv := h.setTile
        cases e; exact h1.setStream.popMat
      · cases e; exact h

theorem State.Inv.failQuarter {t q} (h : s.Inv) : (s.failQuarter t q).Inv := by
  unfold State.failQuarter
  extract_lets x bit entry
  split <;> exact h.setTile.log

theorem State.Inv.tested {t} (h : s.Inv) : (s.tested t).Inv := h.setTile

theorem State.Inv.failTest {t failing} (h : s.Inv) : (s.failTest t failing).Inv := by
  unfold State.failTest
  extract_lets before s1
  have h1 : s1.Inv := (h.foldl .failQuarter).tested
  exact .ite h1.breakPair h1.restartOnError

theorem State.Inv.passTest {t} (h : s.Inv) : (s.passTest t).Inv := by
  unfold State.passTest
  extract_lets owe
  have howe : ∀ {t : State}, t.Inv → (owe t).Inv := by
    intro t' k
    unfold owe
    split
    · split
      · exact k.setTile
      · exact k
    · exact k
  split
  · split
    · split
      · exact h.tested
      · exact h.matEffect.popMat.tested
    · exact howe h.tested
  · exact h.tested

theorem State.Inv.execMatrixSelfTest {tile failing} (h : s.Inv) (e : execMatrixSelfTest tile failing s = .next u) :
    u.Inv := by
  unfold Machine.execMatrixSelfTest at e
  split at e
  · extract_lets bad at e
    cases e
    split
    · exact h.passTest
    · exact h.failTest
  · cases e; exact h

/-! ### Placement and preemption -/

theorem State.Inv.dispatch {ctx q} (h : s.Inv) : (s.dispatch ctx q).Inv := by
  unfold State.dispatch
  extract_lets x waits n
  split
  · exact h
  · split
    · exact h
    · extract_lets at0 h' x1 s1 code from_
      have h1 : s1.Inv := h.setLaunchQueue
      exact .ite h (.ite (.ite h1.writeSlot h1.post) h1.addLaunch)

theorem State.Inv.execBatchTimeout {ctx node} (h : s.Inv) (e : execBatchTimeout ctx node s = .next u) : u.Inv := by
  unfold Machine.execBatchTimeout at e
  cases e
  split
  · exact h
  · split
    · exact h
    · refine .takeBatch ?_
      split
      · exact h
      · exact h.timeReaches

theorem State.Inv.resizeScratch {n l} (h : s.Inv) : (s.resizeScratch n l).Inv := h.setCore

theorem State.Inv.openStay {l n} (h : s.Inv) : (s.openStay l n).Inv := by
  unfold State.openStay
  split
  · exact h
  · split <;> exact h.of_eq rfl rfl

theorem State.Inv.hostCrew {c x n} (h : s.Inv) : (s.hostCrew c x n).Inv := by
  unfold State.hostCrew
  extract_lets s1 src
  have h1 : s1.Inv := h.resizeScratch.openStay
  have hsrc : src.Inv := h1.setCrew.recompute
  exact hsrc.of_eq rfl rfl

theorem State.Inv.placeCrew {l i grove n} (h : s.Inv) : (s.placeCrew l i grove n).Inv := h.setCore.hostCrew

theorem State.Inv.placeFresh {n ks} (h : s.Inv) : (s.placeFresh n ks).Inv := by
  unfold State.placeFresh
  extract_lets h' g s1 grove s2
  have h1 : s1.Inv := by
    unfold s1
    split
    · exact h.of_eq rfl rfl
    · exact h
  have h2 : s2.Inv := h1.foldl .placeCrew
  split
  · exact h2.setLaunch
  · exact h2

theorem State.Inv.execCrewPlacement (h : s.Inv) (e : execCrewPlacement s = .next u) : u.Inv := by
  unfold Machine.execCrewPlacement at e
  cases e
  split
  · split
    · exact h.placeFresh
    · exact h
  · exact h

theorem State.Inv.startStrand {b pc records x} (h : s.Inv) : (s.startStrand b pc records x).Inv := by
  unfold State.startStrand
  extract_lets i _ s1
  have h1 : s1.Inv := h.setStrand.setD2
  split
  · extract_lets v
    exact h1.deliver.setD2
  · exact h1

theorem State.Inv.startBundle {c f1} (h : s.Inv) : (s.startBundle c f1).Inv := by
  unfold State.startBundle
  split
  · exact h
  · extract_lets h' index batch live b lease
    split
    · extract_lets slot y s1 s2
      have h1 : s1.Inv := .setCrew (.of_eq h rfl rfl)
      have h2 : s2.Inv := h1.setOwner.putS
      exact h2.foldl .startStrand
    · exact h

theorem State.Inv.startCrew {c} (h : s.Inv) : (s.startCrew c).Inv := by
  unfold State.startCrew
  split
  · exact h
  · split
    · exact h
    · extract_lets s1 s2
      have h1 : s1.Inv := h.setCrew
      have h2 : s2.Inv := h1.of_eq rfl rfl
      exact (h2.foldl .startBundle).recompute

theorem State.Inv.execCrewStart {crew} (h : s.Inv) (e : execCrewStart crew s = .next u) : u.Inv := by
  unfold Machine.execCrewStart at e
  cases e
  split
  · exact h
  · split
    · exact h
    · exact h.foldl .startCrew

theorem State.Inv.leaveStay {l n} (h : s.Inv) : (s.leaveStay l n).Inv := by
  unfold State.leaveStay
  split
  · exact h
  · split
    · exact h
    · split <;> exact h.of_eq rfl rfl

theorem State.Inv.endCrew {c} (h : s.Inv) : (s.endCrew c).Inv := by
  unfold State.endCrew
  split
  · exact h
  · extract_lets s1 s2
    have h1 : s1.Inv := h.freeRecords.setCrew
    have h2 : s2.Inv := by
      unfold s2
      split
      · exact h1.setLaunch
      · exact h1
    split
    · exact h2
    · exact h2.setCore.leaveStay.recompute

theorem State.Inv.freeMill {n b} (h : s.Inv) : (s.freeMill n b).Inv := by
  unfold State.freeMill
  extract_lets s1
  have h1 : s1.Inv := by
    unfold s1
    split
    · exact h.setMill
    · exact h
  exact h1.dropSavedMill

theorem State.Inv.endBundle {b} (h : s.Inv) : (s.endBundle b).Inv := by
  unfold State.endBundle
  split
  · extract_lets t s1
    have ht : t.Inv := h.setCrew
    have h1 : s1.Inv := by
      unfold s1
      split
      · split
        · exact ht.freeMill.recompute
        · exact ht.freeMill
      · exact h
    exact .ite h1.endCrew h1
  · exact h

theorem State.Inv.signalDone {ctx seq bead n} (h : s.Inv) : (s.signalDone ctx seq bead n).Inv := by
  unfold State.signalDone
  split
  · exact h
  · split
    · exact h.signal
    · exact h.post

theorem State.Inv.auditEmpty {l} (h : s.Inv) : (s.auditEmpty l).Inv := h.foldl .frameAudit

theorem State.Inv.writeBackAll {l x} (h : s.Inv) : (s.writeBackAll l x).Inv := h.foldl fun k => k.issueCopy

theorem State.Inv.completeLaunch {l} (h : s.Inv) : (s.completeLaunch l).Inv := by
  unfold State.completeLaunch
  split
  · exact h
  · split
    · extract_lets s1
      have h1 : s1.Inv := by
        unfold s1
        split
        · exact h.setLaunch
        · exact h
      split
      · split
        · extract_lets s2
          have h2 : s2.Inv := h1.setCtx
          exact h2.signalDone
        · exact h1
      · exact h1
    · split
      · split
        · exact h.writeBackAll
        · extract_lets s1
          have h1 : s1.Inv := h.auditEmpty.setLaunch
          exact h1.signalDone.writeSlot
      · exact h

theorem State.Inv.without {cs} (h : s.Inv) : (s.without cs).Inv := h.of_eq rfl rfl

theorem State.Inv.evictionOn {l needs all r} (h : s.Inv) (e : s.evictionOn l needs all = some (r, u)) : u.Inv := by
  unfold State.evictionOn at e
  extract_lets ks es t at e
  have ht : t.Inv := h.foldl .without
  split at e
  · exact ht.of_snd (Option.some.inj e)
  · cases e

theorem State.Inv.stopVictim {c} (h : s.Inv) : (s.stopVictim c).Inv := by
  unfold State.stopVictim
  split
  · exact h
  · split
    · exact h
    · split
      · exact h
      · extract_lets y mill s1
        have h1 : s1.Inv := h.setCore
        exact h1.setCrew.recompute

theorem State.Inv.execPreemptionRequest {core crews} (h : s.Inv) (e : execPreemptionRequest core crews s = .next u) :
    u.Inv :=
  State.Inv.of_next (.ite h (h.foldl .stopVictim)) e

theorem State.Inv.requeueWaits {x i} (h : s.Inv) : (s.requeueWaits x i).Inv := by
  unfold State.requeueWaits
  extract_lets bs gone forget again
  have hagain : ∀ {t : State} {i : ℕ}, t.Inv → (again t i).Inv := by
    intro t i' k
    unfold again
    split
    · exact k.setStrand
    · exact k.setStrand
    · exact k
  split
  · exact h
  · extract_lets left s1
    have h1 : s1.Inv := h.of_eq rfl rfl
    exact h1.foldl fun k => k.foldl hagain

theorem State.Inv.stowMeshes {c} (h : s.Inv) : (s.stowMeshes c).Inv := by
  unfold State.stowMeshes
  extract_lets mine ms t
  have ht : t.Inv := h.dropMeshes
  split
  · exact h
  · exact ht.of_eq rfl rfl

theorem State.Inv.returnMeshes {c n} (h : s.Inv) : (s.returnMeshes c n).Inv := by
  unfold State.returnMeshes
  split
  · exact h
  · split
    · exact h
    · extract_lets fe
      exact h.setFrontEnd.setCrew

theorem State.Inv.saveCrew {c} (h : s.Inv) : (s.saveCrew c).Inv := by
  unfold State.saveCrew
  split
  · exact h
  · split
    · exact h
    · split
      · exact h
      · extract_lets s0 s1 _ s2 y s3
        have h0 : s0.Inv := by
          unfold s0
          split
          · split
            · exact h.stowMill
            · exact h
          · exact h
        have h1 : s1.Inv := h0.stowMeshes
        have h2 : s2.Inv := h1.setCrew
        have h3 : s3.Inv := h2.setCore
        exact h3.leaveStay.recompute

theorem State.Inv.reslot {k c bs} (h : s.Inv) : (s.reslot k c bs).Inv := by
  induction bs generalizing s with
  | nil => rw [State.reslot]; exact h
  | cons b bs ih => rw [State.reslot]; exact ih (h.of_eq rfl rfl)

theorem State.Inv.arriveAgain {x} (h : s.Inv) : (s.arriveAgain x).Inv := by
  unfold State.arriveAgain
  refine h.foldl fun k => ?_
  refine k.foldl fun k' => ?_
  split
  · exact k'.setStrand
  · exact k'.setStrand
  · exact k'

theorem State.Inv.restoreCrew {x} (h : s.Inv) : (s.restoreCrew x).Inv := by
  unfold State.restoreCrew
  split
  · exact h
  · extract_lets s1 s2
    have h1 : s1.Inv := h.hostCrew.reslot.arriveAgain
    have h2 : s2.Inv := by
      unfold s2
      split
      · extract_lets away
        exact (h1.foldl .requeueWaits).foldl .signal
      · exact h1
    exact h2.returnMeshes.recompute

theorem State.Inv.execCrewRestore {crew} (h : s.Inv) (e : execCrewRestore crew s = .next u) : u.Inv := by
  unfold Machine.execCrewRestore at e
  cases e
  split
  · split
    · exact h.foldl .restoreCrew
    · exact h
  · exact h

/-! ### Tile streams -/

theorem State.Inv.execExecuteResultLanding {tile} (h : s.Inv) (e : execExecuteResultLanding tile s = .next u) : u.Inv :=
  State.Inv.of_next (.ite h.tick h) e

theorem State.Inv.startPart {t pos entry arg n} (h : s.Inv) : (s.startPart t pos entry arg n).Inv :=
  h.putS.putS.setStream

theorem State.Inv.runRecord {t r rc part n} (h : s.Inv) : (s.runRecord t r rc part n).Inv := by
  unfold State.runRecord
  split
  · exact h.startPart
  · exact h.setStream

theorem State.Inv.endStream {t} (h : s.Inv) : (s.endStream t).Inv := by
  unfold State.endStream
  split
  · exact h
  · extract_lets _ s1 s2
    have h1 : s1.Inv := h.setTile.forgetWaits
    have h2 : s2.Inv := by
      unfold s2
      split
      · exact h1.setLaunch
      · exact h1
    exact .applyFences (.of_eq h2 rfl rfl)

theorem State.Inv.recordStop {t r x} (h : s.Inv) (e : s.recordStop t r x = .next u) : u.Inv := by
  unfold State.recordStop at e
  split at e
  · cases e
  · cases e; exact h
  · cases e; exact h.endContext
  · cases e; exact h.trapTile

theorem State.Inv.loadRecord {t r} (h : s.Inv) (e : s.loadRecord t r = .next u) : u.Inv := by
  unfold State.loadRecord at e
  split at e
  · exact h.recordStop e
  next e₁ =>
    have h₁ := h.globalAccess e₁
    dsimp only at e
    split at e
    · cases e; exact h₁.trapTileFrom
    · split at e
      · cases e; exact h₁.trapTile
      · cases e; exact h₁.runRecord

theorem State.Inv.execTaskSequencerPartStart {tile} (h : s.Inv) (e : execTaskSequencerPartStart tile s = .next u) :
    u.Inv := by
  unfold Machine.execTaskSequencerPartStart at e
  extract_lets x at e
  split at e
  · cases e; exact h
  · split at e
    · cases e; exact h
    · split at e
      · cases e; exact h.applyFences
      · split at e
        · cases e; exact .ite h.endStream h
        · split at e
          · cases e; exact h.endStream
          · split at e
            · cases e; exact h
            · exact h.loadRecord e
        · cases e; exact .ite h h.runRecord

theorem State.Inv.execLoopRecordDoneSignal {tile} (h : s.Inv) (e : execLoopRecordDoneSignal tile s = .next u) :
    u.Inv := by
  unfold Machine.execLoopRecordDoneSignal at e
  extract_lets x c at e
  split at e
  · cases e; exact h
  · split at e
    · cases e; exact h
    · split at e
      · cases e; exact h
      · extract_lets seq s1 at e
        have h1 : s1.Inv := h.signalDone.setStream
        cases e
        split
        · exact h1.endStream
        · exact h1

theorem State.Inv.execTilePreemptionSave {tile} (h : s.Inv) (e : execTilePreemptionSave tile s = .next u) : u.Inv := by
  unfold Machine.execTilePreemptionSave at e
  extract_lets x at e
  cases e
  split
  · exact .ite h (.ite h.applyFences h.setTile.setStream)
  · exact h

theorem State.Inv.passTile {ctx t} (h : s.Inv) : (s.passTile ctx t).Inv := by
  unfold State.passTile
  extract_lets x _ s1
  have h1 : s1.Inv := h.setTile
  split
  · exact h.setTile
  · split
    · exact h
    · exact h1.foldl .setBead

theorem State.Inv.setAside {t} (h : s.Inv) : (s.setAside t).Inv := by
  unfold State.setAside
  extract_lets x
  split
  · exact h
  · exact .setTile (.of_eq h rfl rfl)

theorem State.Inv.putStream {t l i pos} (h : s.Inv) : (s.putStream t l i pos).Inv := h.setTile.setOwner

theorem State.Inv.startStream {l hd t i} (h : s.Inv) (e : s.startStream l hd t i = .next u) : u.Inv := by
  unfold State.startStream at e
  dsimp only at e
  split at e
  · split at e
    · cases e; exact h.putStream
    · exact h.putStream.recordStop e
    next e₁ =>
      have h₁ := h.putStream.globalAccess e₁
      split at e
      · cases e; exact h₁.trapTileFrom
      · cases e; exact h₁.setStream
  · cases e; exact h.putStream.putS.setStream

theorem State.Inv.startStreams {l hd ts} (h : s.Inv) (e : s.startStreams l hd ts = .next u) : u.Inv := by
  induction ts generalizing s with
  | nil => cases e; exact h
  | cons x ts ih =>
    rw [State.startStreams] at e
    split at e
    · cases e; exact h
    · split at e
      next e₁ => exact ih (h.startStream e₁) e
      · exact h.startStream e

theorem State.Inv.putImage {t kept x} (h : s.Inv) : (s.putImage t kept x).Inv := by
  unfold State.putImage
  extract_lets now c _ image s1 s2
  have h1 : s1.Inv := .setOwner (.setTile (.of_eq h rfl rfl))
  have h2 : s2.Inv := by
    unfold s2
    split
    · exact h1
    · exact h1.foldl .setBead
  exact h2.setStream

theorem State.Inv.restoreTile {l t} (h : s.Inv) : (s.restoreTile l t).Inv := by
  unfold State.restoreTile
  split
  · exact h.setStream
  · split
    · exact h
    · exact h.putImage

theorem State.Inv.takeTiles {c ts} (h : s.Inv) : (s.takeTiles c ts).Inv := h.foldl fun k => k.setAside.passTile

theorem State.Inv.moveStreams {l x ts} (h : s.Inv) : (s.moveStreams l x ts).Inv := by
  unfold State.moveStreams
  extract_lets c mine gone s1 s2
  have hgone : gone.Inv := by
    unfold gone
    refine h.foldl fun k => ?_
    split
    · exact k.setAside
    · exact k
  have h1 : s1.Inv := hgone.takeTiles
  have h2 : s2.Inv := by
    unfold s2
    refine h1.foldl fun k => ?_
    split
    · exact k.putImage
    · exact k
  exact h2.setLaunch

theorem State.Inv.placeDue {d} (h : s.Inv) (e : s.placeDue d = .next u) : u.Inv := by
  have h₀ : State.Inv { s with lastContext := s.launchCtx d.launch } := h.of_eq rfl rfl
  unfold State.placeDue at e
  dsimp only at e
  split at e
  · cases e; exact h₀.restoreTile
  · split at e
    · cases e; exact h₀.moveStreams
    · cases e; exact h
  · split at e
    · exact h₀.takeTiles.setLaunch.startStreams e
    · cases e; exact h

theorem State.Inv.requestTiles (h : s.Inv) : s.requestTiles.Inv := by
  unfold State.requestTiles
  split
  · exact h
  · extract_lets youngest
    refine h.foldl fun k => ?_
    split
    · exact k.setTile
    · exact k

theorem State.Inv.execTileSetPlacement (h : s.Inv) (e : execTileSetPlacement s = .next u) : u.Inv := by
  unfold Machine.execTileSetPlacement at e
  split at e
  · exact h.placeDue e
  · cases e; exact h.requestTiles

/-! ### Host registers and commands -/

theorem State.Inv.storeHost {pa bs} (h : s.Inv) : (s.storeHost pa bs).Inv :=
  (h.noteStore.noteEntries.writeBytes ..).of_eq rfl rfl

theorem State.Inv.execHostMemoryAccess {write pa bytes} (h : s.Inv)
    (e : execHostMemoryAccess write pa bytes s = .next u) : u.Inv := by
  unfold Machine.execHostMemoryAccess at e
  extract_lets n at e
  split at e
  · cases e; exact h
  · split at e
    · cases e
    · split at e
      · cases e; exact h
      · split at e
        · cases e; exact h.storeHost
        · cases e; exact h.of_eq rfl rfl

theorem State.Inv.publishTo {ctx q n k} (h : s.Inv) : (s.publishTo ctx q n k).Inv := by
  induction k generalizing s with
  | zero => exact h
  | succ k ih => exact ih h.setLaunchQueue.setCtx

theorem State.Inv.writeQtail {ctx q v} (h : s.Inv) : (s.writeQtail ctx q v).Inv := .ite h.setLaunchQueue h.publishTo

theorem State.Inv.writeQctl {ctx q v} (h : s.Inv) : (s.writeQctl ctx q v).Inv := h.setLaunchQueue

theorem State.Inv.execQtailWrite {ctx q v} (h : s.Inv) (e : execQtailWrite ctx q v s = .next u) : u.Inv :=
  State.Inv.of_next (.ite h.writeQtail h) e

theorem State.Inv.execQctlWrite {ctx q v} (h : s.Inv) (e : execQctlWrite ctx q v s = .next u) : u.Inv :=
  State.Inv.of_next (.ite h.writeQctl h) e

theorem State.Inv.writeMbx {ctx n v} (h : s.Inv) : (s.writeMbx ctx n v).Inv := h.setCtx

theorem State.Inv.writeGovdead {ctx n v} (h : s.Inv) : (s.writeGovdead ctx n v).Inv := h.setGov

theorem State.Inv.execMbxHostWrite {ctx n v} (h : s.Inv) (e : execMbxHostWrite ctx n v s = .next u) : u.Inv :=
  State.Inv.of_next (.ite h.writeMbx h) e

theorem State.Inv.execGovdeadWrite {ctx n v} (h : s.Inv) (e : execGovdeadWrite ctx n v s = .next u) : u.Inv :=
  State.Inv.of_next (.ite h.writeGovdead h) e

theorem State.Inv.flowEvents {r k} (h : s.Inv) : (s.flowEvents r k).2.Inv := by
  induction k generalizing s r with
  | zero => exact h
  | succ k ih =>
    rw [State.flowEvents]
    split
    · exact h
    · split
      · exact h
      · exact ih (h.ringWrite _ _)

theorem State.Inv.abortPosted {ctx words} (h : s.Inv) : (s.abortPosted ctx words).Inv :=
  .ite h (h.foldl fun k => .ite k k.abortLaunch)

theorem State.Inv.updateRing {ctx f} (h : s.Inv) : (s.updateRing ctx f).Inv :=
  .ite (h.flowEvents.of_eq rfl rfl) h.flowEvents.setCtx.abortPosted

theorem State.Inv.writeEvhead {ctx v} (h : s.Inv) : (s.writeEvhead ctx v).Inv := h.updateRing

theorem State.Inv.execEvheadWrite {ctx v} (h : s.Inv) (e : execEvheadWrite ctx v s = .next u) : u.Inv :=
  State.Inv.of_next (.ite h.writeEvhead h) e

theorem State.Inv.wakeDeadline {i} (h : s.Inv) : (s.wakeDeadline i).Inv := by
  unfold State.wakeDeadline
  split
  · split
    · exact h.setStrand
    · exact h
  · exact h

theorem State.Inv.writeTset {v} (h : s.Inv) : (s.writeTset v).Inv := .ite (.foldl (.of_eq h rfl rfl) .wakeDeadline) h

theorem State.Inv.execTsetWrite {v} (h : s.Inv) (e : execTsetWrite v s = .next u) : u.Inv :=
  State.Inv.of_next (.ite h.writeTset h) e

theorem State.Inv.writeContextReg {ctx ofs v} (h : s.Inv) : (s.writeContextReg ctx ofs v).Inv :=
  .ite (.ite h h.setCtx) <| .ite (.ite h.setLaunchQueue h.writeQctl) <| .ite h.writeQtail <| .ite h.writeMbx <|
  .ite h.updateRing <| .ite h.updateRing <| .ite h.writeEvhead <| .ite h.setCtx <| .ite h.setCtx <| .ite h.setCtx <|
  .ite h.writeGovdead <| .ite h.setGov <| .ite h.setCtx <| .ite h.setCtx h

theorem State.Inv.writeGlobalReg {ofs v} (h : s.Inv) : (s.writeGlobalReg ofs v).Inv :=
  .ite (h.of_eq rfl rfl) (.ite h.writeTset (.ite h.updateRing (.ite h.updateRing (.ite h.writeEvhead h))))

theorem State.Inv.execHostRegisterWrite {ofs v} (h : s.Inv) (e : execHostRegisterWrite ofs v s = .next u) : u.Inv :=
  State.Inv.of_next (.ite h (.ite h.writeGlobalReg (.ite h.writeContextReg h))) e

theorem State.Inv.command1 {f} (h : s.Inv) (hf : ∀ {t : State}, t.Inv → (f t).Inv) (e : s.command1 f = .next u) : u.Inv :=
  State.Inv.of_next (.ite (hf h) h) e

theorem State.Inv.doneIf {ok t} (h : s.Inv) (h' : t.Inv) : (s.doneIf ok t).Inv := .ite h'.finishCommand h.finishCommand

theorem State.Inv.createContext {ctx root} (h : s.Inv) : (s.createContext ctx root).Inv := h.setCtx

theorem State.Inv.execShootDown {ctx va len} (h : s.Inv) (e : execShootDown ctx va len s = .next u) : u.Inv := by
  unfold Machine.execShootDown at e
  refine h.command1 (fun k => ?_) e
  split
  · exact k.of_eq rfl rfl
  · exact k.finishCommand

theorem State.Inv.execShootDownAcknowledge {unit} (h : s.Inv) (e : execShootDownAcknowledge unit s = .next u) :
    u.Inv := by
  unfold Machine.execShootDownAcknowledge at e
  cases e
  split
  · exact h
  · split
    · exact .finishCommand (.of_eq h rfl rfl)
    · exact h.of_eq rfl rfl

theorem State.Inv.execAddPoolFrames {large frames threshold} (h : s.Inv)
    (e : execAddPoolFrames large frames threshold s = .next u) : u.Inv := by
  unfold Machine.execAddPoolFrames at e
  refine h.command1 (fun k => ?_) e
  extract_lets grow
  refine k.doneIf ?_
  split <;> exact k.of_eq rfl rfl

theorem State.Inv.execDieBeadAllocate {ctx bead} (h : s.Inv) (e : execDieBeadAllocate ctx bead s = .next u) : u.Inv := by
  refine h.command1 (fun k => k.doneIf ?_) e
  exact k.of_eq rfl rfl

theorem State.Inv.execDieBeadFree {ctx bead} (h : s.Inv) (e : execDieBeadFree ctx bead s = .next u) : u.Inv := by
  refine h.command1 (fun k => k.doneIf ?_) e
  exact k.of_eq rfl rfl

theorem State.Inv.resumeStrand {pc i} (h : s.Inv) : (s.resumeStrand pc i).Inv := by
  unfold State.resumeStrand
  extract_lets x
  split <;> exact h.setStrand

theorem State.Inv.restateDebug {o} (h : s.Inv) : (s.restateDebug o).Inv := h.setOwner

theorem State.Inv.retryTile {t skip} (h : s.Inv) : (s.retryTile t skip).Inv := by
  unfold State.retryTile
  extract_lets clear
  have hclear : ∀ {t : State}, t.Inv → (clear t).Inv := by
    intro t' k
    unfold clear
    exact k.setOwner
  split
  · exact h
  · split
    · exact hclear h.setStream
    · split
      · exact hclear h.restart.setStream
      · exact hclear h.setStream

theorem State.Inv.execDebugRetry {o st} (h : s.Inv) (e : execDebugRetry o st s = .next u) : u.Inv :=
  h.command1 (fun k => (k.doneIf (.ite k.retryTile ((k.foldl .resumeStrand).foldl .restateDebug)))) e

theorem State.Inv.skipTile {t} (h : s.Inv) : (s.skipTile t).Inv := by
  unfold State.skipTile
  extract_lets broke
  split
  · exact h.doneIf h.retryTile
  · exact h.finishCommand

theorem State.Inv.execDebugSkip {o st} (h : s.Inv) (e : execDebugSkip o st s = .next u) : u.Inv :=
  h.command1 (fun k => (.ite k.skipTile (k.doneIf ((k.foldl .resumeStrand).foldl .restateDebug)))) e

theorem State.Inv.execDebugAbort {o} (h : s.Inv) (e : execDebugAbort o s = .next u) : u.Inv := by
  unfold Machine.execDebugAbort at e
  refine h.command1 (fun k => ?_) e
  split
  · exact k.doneIf k.abortLaunch
  · exact k.finishCommand

theorem State.Inv.resetTile {t} (h : s.Inv) : (s.resetTile t).Inv := .ite h.setTile (h.setTile.foldl .setBead)

theorem State.Inv.desyncDie {d} (h : s.Inv) : (s.desyncDie d).Inv := h.foldl .desync

theorem State.Inv.resetDie {d st} (h : s.Inv) : (s.resetDie d st).Inv :=
  ((h.desyncDie.foldl .setCore).foldl .resetTile).of_eq rfl rfl

theorem State.Inv.finishReset (h : s.Inv) : s.finishReset.Inv := by
  unfold State.finishReset
  split
  · split
    · exact h.resetDie.finishCommand
    · exact h
  · exact h

theorem State.Inv.stopDie {d} (h : s.Inv) : (s.stopDie d).Inv := by
  unfold State.stopDie
  extract_lets cs all s1
  have h1 : s1.Inv := h.foldl .stopVictim
  refine h1.foldl fun k => ?_
  split
  · split
    · exact k
    · exact k.setTile
  · exact k

theorem State.Inv.beginReset {d limit off} (h : s.Inv) : (s.beginReset d limit off).Inv :=
  .finishReset (h.stopDie.of_eq rfl rfl)

theorem State.Inv.execComputeReset {die limit} (h : s.Inv) (e : execComputeReset die limit s = .next u) : u.Inv := by
  unfold Machine.execComputeReset at e
  split at e
  · cases e; exact h.finishReset
  · exact h.command1 (fun k => (.ite k.beginReset k.finishCommand)) e

theorem State.Inv.execPowerOff {die} (h : s.Inv) (e : execPowerOff die s = .next u) : u.Inv := by
  unfold Machine.execPowerOff at e
  split at e
  · cases e; exact h.finishReset
  · exact h.command1 (fun k => (.ite k.beginReset k.finishCommand)) e

theorem State.Inv.execDieResetTimeLimit {die} (h : s.Inv) (e : execDieResetTimeLimit die s = .next u) : u.Inv := by
  unfold Machine.execDieResetTimeLimit at e
  cases e
  split
  · extract_lets late
    exact (h.timeReaches.foldl .endContext).finishReset
  · exact h

theorem State.Inv.hostCopy {ctx host dev len bead toHost} (h : s.Inv) :
    (s.hostCopy ctx host dev len bead toHost).Inv := by
  unfold State.hostCopy
  extract_lets place beadOk h'
  clear_value place
  split
  · exact h.finishCommand
  · extract_lets fits part s1 c
    have h1 : s1.Inv := by
      unfold s1
      split
      · exact h.claimTile
      · exact h
    exact .ite (.issueCopy (.of_eq h1 rfl rfl)) h.finishCommand

theorem State.Inv.hostCopyTurn {ctx f} (h : s.Inv) (hf : ∀ {t : State}, t.Inv → (f t).Inv)
    (e : s.hostCopyTurn ctx f = .next u) : u.Inv := by
  unfold State.hostCopyTurn at e
  split at e
  · cases e; exact h
  · exact h.command1 hf e

theorem State.Inv.readNodes {ctx table n i got r} (h : s.Inv) (e : s.readNodes ctx table n i got = .done r u) :
    u.Inv := by
  induction n generalizing s i got with
  | zero => cases e; exact h
  | succ n ih =>
    rw [State.readNodes] at e
    split at e
    · cases e
    · cases e
    next e₁ =>
      have h₁ := h.globalAccess e₁
      dsimp only at e
      split at e
      · exact ih h₁ e
      · split at e
        · cases e
        · split at e
          · cases e
          · cases e
          next e₂ =>
            split at e
            · cases e
            · split at e
              · cases e
              · exact ih (h₁.globalAccess e₂).readPlan e

theorem State.Inv.execInstallNodeTable {ctx table n} (h : s.Inv) (e : execInstallNodeTable ctx table n s = .next u) :
    u.Inv := by
  refine h.command1 (fun k => ?_) e
  split
  · exact k.finishCommand
  · split
    · exact k.finishCommand
    · split
      · exact k.finishCommand
      · split
        · exact k
        · exact k.finishCommand
        next e₁ => exact (k.readNodes e₁).setCtx.finishCommand

theorem State.Inv.execInstallRecordPool {ctx base size count} (h : s.Inv)
    (e : execInstallRecordPool ctx base size count s = .next u) : u.Inv := by
  unfold Machine.execInstallRecordPool at e
  refine h.command1 (fun k => ?_) e
  extract_lets c
  split
  · exact k.finishCommand
  · split
    · exact k.finishCommand
    · exact .ite k.finishCommand (.ite k.finishCommand (.ite k.finishCommand k.setCtx.finishCommand))

theorem State.Inv.execPageBacking {ctx va} (h : s.Inv) (e : execPageBacking ctx va s = .next u) : u.Inv := by
  unfold Machine.execPageBacking at e
  cases e
  split
  · exact h.getD h.backPage
  · exact h

theorem State.Inv.execPageMigration {ctx va} (h : s.Inv) (e : execPageMigration ctx va s = .next u) : u.Inv := by
  unfold Machine.execPageMigration at e
  cases e
  split
  · split
    · exact h
    · exact h.getD h.migratePage
  · exact h

/-! ### Start, errors and power -/

theorem State.Inv.bootWith {r fw} (h : s.Inv) : (s.bootWith r fw).Inv := by
  unfold State.bootWith
  extract_lets fences tiles _ f _ s1
  have h1 : s1.Inv := h.of_eq rfl rfl
  exact h1.foldl .setTile

theorem State.Inv.bootNow (h : s.Inv) : s.bootNow.Inv := by
  unfold State.bootNow
  split
  · exact h.bootWith
  · exact h.of_eq rfl rfl

theorem State.Inv.execPowerGood (h : s.Inv) (e : execPowerGood s = .next u) : u.Inv :=
  State.Inv.of_next (.ite h.bootNow h) e

theorem State.Inv.powerDown {f} (h : s.Inv) : (s.powerDown f).Inv :=
  ⟨Tbl.canonical_filter _ h.mem, reset_inv.tags⟩

theorem State.Inv.execPowerLoss {writing} (h : s.Inv) (e : execPowerLoss writing s = .next u) : u.Inv :=
  State.Inv.of_next (.ite h.free.powerDown h.powerDown) e

theorem State.Inv.doeAnswer {bs} (h : s.Inv) : (s.doeAnswer bs).Inv := .ite h (h.of_eq rfl rfl)

theorem State.Inv.execAttestationRequest {nonce} (h : s.Inv) (e : execAttestationRequest nonce s = .next u) : u.Inv :=
  h.doeAnswer.of_next e

theorem State.Inv.execFenceAddendum {tile mask} (h : s.Inv) (e : execFenceAddendum tile mask s = .next u) : u.Inv := by
  unfold Machine.execFenceAddendum at e
  split at e
  · cases e; exact h.doeAnswer
  · extract_lets l x _ s1 s2 b at e
    have h1 : s1.Inv := .setTile (.of_eq h rfl rfl)
    have h2 : s2.Inv := by
      unfold s2
      split
      · exact h1
      · exact h1.applyFences
    cases e; exact h2.doeAnswer

theorem State.Inv.execCaptureOn {ctx base size} (h : s.Inv) (e : execCaptureOn ctx base size s = .next u) : u.Inv :=
  State.Inv.of_next (.ite h.setCtx.doeAnswer h.doeAnswer) e

theorem State.Inv.execCaptureOff {ctx} (h : s.Inv) (e : execCaptureOff ctx s = .next u) : u.Inv :=
  State.Inv.of_next (.ite h.setCtx.doeAnswer h.doeAnswer) e

theorem State.Inv.execImageWrite {img} (h : s.Inv) (e : execImageWrite img s = .next u) : u.Inv := by
  unfold Machine.execImageWrite at e
  extract_lets svn p s1 at e
  have h1 : s1.Inv := .doeAnswer (.of_eq h rfl rfl)
  cases e
  split
  · exact h
  · exact .ite h.doeAnswer (.ite h1.bootNow h1)

theorem State.Inv.logUncorrectable {addr die unit ctx} (h : s.Inv) : (s.logUncorrectable addr die unit ctx).Inv := h.log

theorem State.Inv.logOwner {o addr} (h : s.Inv) : (s.logOwner o addr).Inv := h.logUncorrectable

theorem State.Inv.softOrigin {o strand} (h : s.Inv) : (s.softOrigin o strand).2.Inv := h.newOrigin

theorem State.Inv.spoilBead {n} (h : s.Inv) : (s.spoilBead n).Inv := by
  unfold State.spoilBead
  extract_lets die idx spoil k
  have hspoil : ∀ {t : State} {i : BeadAt}, t.Inv → (spoil t i).Inv := by
    intro t i k'
    unfold spoil
    exact k'.setBead
  exact .ite (hspoil h) (.ite h (h.foldl hspoil))

theorem State.Inv.softError {y} (h : s.Inv) : (s.softError y).Inv := by
  unfold State.softError
  split
  · exact h.countCorrected.log
  · extract_lets a
    exact .logUncorrectable (.of_eq h rfl rfl)
  · split
    · extract_lets s1
      have h1 : s1.Inv := h.setCrew
      split
      · exact h1.logUncorrectable
      · exact h1
    · exact h
  · exact h.setTile.logUncorrectable
  · exact h.setTile.logUncorrectable
  · split
    · exact h
    · extract_lets x
      exact h.softOrigin.setS.logOwner
  · extract_lets b x
    split
    · exact h
    · exact h.softOrigin.setV.logOwner
  · split
    · exact h
    · extract_lets x
      exact h.softOrigin.setStream.logOwner
  · split
    · exact h.logOwner.restartOnError
    · exact h
  · refine .logUncorrectable ?_
    split
    · exact h.of_eq rfl rfl
    · exact h
  · split
    · exact h.logOwner.endContext
    · exact h
  · exact h.spoilBead
  · split
    · exact h.desync
    · exact h

theorem State.Inv.execSoftError {x} (h : s.Inv) (e : execSoftError x s = .next u) : u.Inv :=
  State.Inv.of_next (.ite h h.softError) e

theorem State.Inv.execPowerManagerWindow {total tensor raster} (h : s.Inv)
    (e : execPowerManagerWindow total tensor raster s = .next u) : u.Inv := by
  unfold Machine.execPowerManagerWindow at e
  cases e; exact .ite h (.ite (h.of_eq rfl rfl) (.ite (h.of_eq rfl rfl) h))

theorem State.Inv.loseContexts {cs} (h : s.Inv) : (s.loseContexts cs).Inv := h.foldl fun k => .ite k.endContext k

theorem State.Inv.portsDown (h : s.Inv) : s.portsDown.Inv := h.foldl fun k => .ite k.portDown k

theorem State.Inv.loseIsland {n} (h : s.Inv) : (s.loseIsland n).Inv := by
  unfold State.loseIsland
  split
  · extract_lets d s1 s1'
    have h1 : s1.Inv := h.loseContexts
    have hs1' : s1'.Inv := h.loseContexts
    split
    · split
      · exact h1.desync
      · exact h1
    · exact hs1'.foldl .setCore
  · split
    · extract_lets d s1
      have h1 : s1.Inv := h.loseContexts
      split
      · exact h.loseContexts
      · exact h1.foldl .resetTile
    · split
      · exact h.loseContexts
      · split
        · exact h.portsDown
        · exact h

theorem State.Inv.loseDie {d} (h : s.Inv) : (s.loseDie d).Inv := by
  unfold State.loseDie
  extract_lets here pages s1
  have h1 : s1.Inv := h.loseContexts.resetDie
  split
  · split
    · exact h1.finishCommand
    · exact h1
  · exact h1

theorem State.Inv.execRailOutOfRange {rail} (h : s.Inv) (e : execRailOutOfRange rail s = .next u) : u.Inv := by
  unfold Machine.execRailOutOfRange at e
  split at e
  · cases e; exact h
  · extract_lets _ s1 at e
    have h1 : s1.Inv := h.of_eq rfl rfl
    cases e
    split
    · exact h1
    · split
      · exact h1.loseIsland
      · exact .ite h1.powerDown (.ite h1.loseDie h1)
      · exact h1.portsDown
      · exact h1

theorem State.Inv.execRailInRange {rail} (h : s.Inv) (e : execRailInRange rail s = .next u) : u.Inv := by
  unfold Machine.execRailInRange at e
  extract_lets _ s1 at e
  have h1 : s1.Inv := h.of_eq rfl rfl
  cases e
  split
  · exact .ite (h1.of_eq rfl rfl) h1
  · exact h1

theorem State.Inv.execExtest (h : s.Inv) (e : execExtest s = .next u) : u.Inv := by
  unfold Machine.execExtest at e
  cases e
  split <;> exact h.of_eq rfl rfl

theorem State.Inv.execPtpMessage {port x offset lock} (h : s.Inv) (e : execPtpMessage port x offset lock s = .next u) :
    u.Inv := by
  unfold Machine.execPtpMessage at e
  cases e; exact .ite (.ite (.postGlobal (.of_eq (h.of_eq rfl rfl) rfl rfl)) (h.of_eq rfl rfl)) h

theorem State.Inv.execTimeLockLost (h : s.Inv) (e : execTimeLockLost s = .next u) : u.Inv := by
  unfold Machine.execTimeLockLost at e
  cases e; exact .ite (.postGlobal (.of_eq h rfl rfl)) h

/-! ### Textures -/

theorem State.Inv.readBinding {i addr r q} (h : s.Inv) (e : s.readBinding i addr = .ok (r, q, u)) : u.Inv := by
  unfold State.readBinding at e
  split at e
  · cases e
  · split at e
    · split at e
      · cases e; exact h.unitRead ‹_›
      · cases e
    · cases e

theorem State.Inv.roBytes {p i pa n} (h : s.Inv) : (s.roBytes p i pa n).2.Inv := h.roWords

theorem State.Inv.roElement {i x} (h : s.Inv) : (s.roElement i x).2.Inv := by
  unfold State.roElement
  dsimp only
  split
  · exact h.roBytes.roBytes
  · exact h.roBytes

theorem State.Inv.texElement {i b el v bad} (h : s.Inv) (e : s.texElement i b el = .ok (v, bad, u)) : u.Inv := by
  unfold State.texElement at e
  split at e
  · cases e
  · split at e
    · cases e
    next p t e₁ =>
      have ht : t.Inv := h.pageFor e₁
      extract_lets w rel n k page at e
      split at e
      · cases e
      · split at e
        · cases e
        · split at e
          · cases e
          next q t' e₂ =>
            have ht' : t'.Inv := by
              split at e₂
              · cases e₂; exact ht
              · exact ht.pageFor e₂
            split at e
            · cases e
            · split at e
              · cases e
              · split at e
                · cases e
                · cases e; exact ht'.roElement

theorem State.Inv.texelFrom {i b x c n r bad} (h : s.Inv) (e : s.texelFrom i b x c n = .ok (r, bad, u)) : u.Inv := by
  induction n generalizing s c r bad with
  | zero => cases e; exact h
  | succ n ih =>
    rw [State.texelFrom] at e
    split at e
    · cases e
    next t e₁ =>
      have ht : t.Inv := by
        split at e₁
        · exact h.texElement e₁
        · cases e₁; exact h
      split at e
      · cases e
      next e₂ => cases e; exact ih ht e₂

theorem State.Inv.texel {i b l at3 r q} (h : s.Inv) (e : s.texel i b l at3 = .ok (r, q, u)) : u.Inv := by
  unfold State.texel at e
  split at e
  · exact h.texelFrom e
  · cases e; exact h

theorem State.Inv.readTaps {i b l r bad} (h : s.Inv) (e : s.readTaps i b l = .ok (r, bad, u)) : u.Inv := by
  induction l generalizing s r bad with
  | nil => cases e; exact h
  | cons x l ih =>
    rw [State.readTaps] at e
    split at e
    · exact ih h e
    · split at e
      · cases e
      next e₁ =>
        split at e
        · cases e
        next e₂ => cases e; exact ih (h.texel e₁) e₂

theorem State.Inv.sample {d i addr b lam cs} (h : s.Inv) (e : s.sample d i addr b lam cs = .ok u) : u.Inv := by
  unfold State.sample at e
  extract_lets fz at e
  split at e
  · cases e
  · cases e; exact (h.readTaps ‹_›).unitResult

theorem State.Inv.withBinding {d a b n f i} (h : s.Inv)
    (hf : ∀ {i : Dword} {x : Binding} {y : List ℕ} {t u : State}, t.Inv → f i x y t = .ok u → u.Inv)
    (e : withBinding d a b n f i s = .ok u) : u.Inv := by
  unfold Machine.withBinding at e
  split at e
  · cases e
  · split at e
    · cases e
    · split at e
      · cases e
      · split at e
        · cases e; exact (h.readBinding ‹_›).poisonBlock
        · split at e
          · cases e; exact (h.readBinding ‹_›).unitResult
          · exact hf (h.readBinding ‹_›) e

theorem State.Inv.quadSwzStrand {d a imm i t} (h : t.Inv) : (quadSwzStrand s d a imm i t).Inv :=
  h.setV

theorem State.Inv.quadDerivStrand {d a n i t} (h : t.Inv) : (quadDerivStrand s d a n i t).Inv :=
  h.setFloat

theorem State.Inv.texSampleStrand {d a b i t} (h : t.Inv) (e : texSampleStrand s d a b i t = .ok u) : u.Inv := by
  unfold Machine.texSampleStrand at e
  refine h.withBinding (fun k e => ?_) e
  extract_lets dx dy at e
  split at e
  · cases e; exact k.poisonBlock
  · exact k.sample e

theorem State.Inv.texLodStrand {d a b x} (h : s.Inv) (e : texLodStrand d a b x s = .ok u) : u.Inv :=
  h.withBinding .sample e

theorem State.Inv.texGradStrand {d a b x} (h : s.Inv) (e : texGradStrand d a b x s = .ok u) : u.Inv :=
  h.withBinding (fun k e => (k.sample e)) e

theorem State.Inv.texFetchStrand {d a b x} (h : s.Inv) (e : texFetchStrand d a b x s = .ok u) : u.Inv := by
  unfold Machine.texFetchStrand at e
  refine h.withBinding (fun k e => ?_) e
  extract_lets l at e
  split at e
  · cases e; exact k.putBlock
  · split at e
    · cases e
    · cases e; exact (k.texel ‹_›).unitResult

theorem State.Inv.texGatherStrand {d a b x} (h : s.Inv) (e : texGatherStrand d a b x s = .ok u) : u.Inv := by
  unfold Machine.texGatherStrand at e
  refine h.withBinding (fun k e => ?_) e
  split at e
  · cases e
  · cases e; exact (k.readTaps ‹_›).unitResult

theorem State.Inv.texQueryStrand {d a n i} (h : s.Inv) (e : texQueryStrand d a n i s = .ok u) : u.Inv := by
  unfold Machine.texQueryStrand at e
  split at e
  · cases e
  · split at e
    · cases e
    · cases e; exact (h.readBinding ‹_›).unitResult

theorem State.Inv.imgElems {base off write r} (h : s.Inv) (e : s.imgElems base off write = .ok (r, u)) : u.Inv := by
  unfold State.imgElems at e
  split at e
  · cases e
  · split at e
    · cases e
    · extract_lets w rel e' plain at e
      split at e
      · cases e
      · obtain ⟨_, _, e⟩ := ok_of_map e
        cases e; exact h.pageFor ‹_›

theorem State.Inv.imgLdStrand {d a lb off i} (h : s.Inv) (e : imgLdStrand d a lb off i s = .ok u) : u.Inv := by
  unfold Machine.imgLdStrand at e
  split at e
  · cases e
  · split at e
    · cases e
    · cases e; exact (h.imgElems ‹_›).foldl fun k => k.loaded.setV.raiseOf.touchElem

theorem State.Inv.imgStStrand {d a lb off i} (h : s.Inv) (e : imgStStrand d a lb off i s = .ok u) : u.Inv := by
  unfold Machine.imgStStrand at e
  split at e
  · cases e
  · split at e
    · cases e
    · split at e
      · cases e
      · cases e; exact (h.imgElems ‹_›).foldl fun k => k.storeMarked.raiseOf.touchElem

/-! ### One instruction or event -/

theorem State.Inv.exec {i} (h : s.Inv) (e : exec i s = .next u) : u.Inv := by
  cases i with
  | nop | fence | fencePromote | patrolScrub => exact h.of_next e
  | bra => exact h.conclude (fun e => h.forActors .branch e) e
  | brac => exact h.conclude (fun e => h.forActors .bracActor e) e
  | brx => exact h.conclude (fun e => h.forActors .brxActor e) e
  | call => exact h.conclude (fun e => h.forActors (fun k e => k.setLink.jump e) e) e
  | ret => exact h.conclude (fun e => h.forActors .retActor e) e
  | loop => exact h.conclude (fun e => h.forActors .loopRegActor e) e
  | loopi => exact h.conclude (fun e => h.forActors .loopActor e) e
  | voteAny | voteAll | wid => exact State.Inv.of_next (h.eachOwner .putS) e
  | barCrew => exact h.execBarCrew e
  | barGrove => exact h.execBarGrove e
  | barArrive => exact h.conclude (fun e => h.forOwners .barArriveOwner e) e
  | barWait => exact h.execBarWait e
  | wait => exact h.execWait e
  | waitt => exact h.execWaitt e
  | fenceI => exact State.Inv.of_next (h.foldl .fenceFetch) e
  | trap => exact h.execTrap e
  | chk => exact h.execChk e
  | region => exact h.execRegion e
  | exit => exact h.execExit e
  | yield => exact State.Inv.of_next (h.foldl .setStrand) e
  | lease => exact h.conclude (fun e => h.forOwners .leaseOwner e) e
  | split => exact h.execSplit e
  | launch => exact h.conclude (fun e => h.forOwners .launchOwner e) e
  | reca => exact h.execReca e
  | remit => exact h.conclude (fun e => h.forOwners .remitOwner e) e
  | rdone => exact h.conclude (fun e => h.forOwners .rdoneOwner e) e
  | millCfg => exact h.conclude (fun e => h.forOwners .millCfgOwner e) e
  | millEnter => exact h.conclude (fun e => h.forOwners .millEnterOwner e) e
  | millExit => exact h.conclude (fun e => h.forOwners .millExitOwner e) e
  | fsend => exact h.execFsend e
  | fsendNb => exact h.execFsendNb e
  | ftake => exact h.execFtake e
  | sread => exact h.conclude (fun e => h.forOwners .sreadOwner e) e
  | swrite => exact h.conclude (fun e => h.forOwners .swriteOwner e) e
  | govq => exact h.conclude (fun e => h.forOwners .govqOwner e) e
  | govr => exact h.conclude (fun e => h.forOwners .govrOwner e) e
  | bkpt => exact h.execBkpt e
  | add | sub | mul | mulhI | mulhN | divI | divN | remI | remN | and | or | xor | shl | shrI | shrN | rot | minI |
    minN | maxI | maxN | cmp | lea | bfxI | bfxN | addsI | addsN | subsI | subsN =>
    exact h.scalar2.of_next e
  | addi | andi | ori | xori | abs | neg | mov | movh | popc | clz | ctz | brev => exact h.scalar1.of_next e
  | cmpp => exact h.conclude (fun e => h.forOwners .cmppOwner e) e
  | sel | bfi | mad => exact h.scalar3.of_next e
  | movi => exact h.scalar0.of_next e
  | mbx => exact h.conclude (fun e => h.forOwners .mbxOwner e) e
  | time => exact State.Inv.of_next (h.eachOwner .timeOwner) e
  | iadd | isub | imul | imulhI | imulhN | iminI | iminN | imaxI | imaxN | iand | ior | ixor | ishl | ishrI | ishrN |
    ibfxI | ibfxN =>
    exact h.lane2.of_next e
  | iaddi | ipopc | iclz | imov => exact h.lane1.of_next e
  | imad | ibfi | isel | idot4I8 | idot4N8 => exact h.lane3.of_next e
  | icmp => exact h.conclude (fun e => h.forStrands .icmpStrand e) e
  | imovi => exact h.lane0.of_next e
  | faddF32 | fmulF32 | fminF32 | fmaxF32 | faddH2 | fmulH2 | faddB2 | fmulB2 | cvtH2F32 | cvtB2F32 =>
    exact h.laneF2.of_next e
  | ffmaF32 | ffmaH2 | ffmaB2 => exact h.laneF3.of_next e
  | fcmpF32 => exact h.conclude (fun e => h.forStrands .fcmpStrand e) e
  | frndF32 | frcp | frsq | fsqrt | fexp2 | flog2 | fsin | fcos | cvtF32I32 | cvtF32N32 | cvtI32F32 | cvtN32F32 |
    cvtF32H2 | cvtF32B2 | cvtF32E4m3 | cvtF32E5m2 =>
    exact h.laneF1.of_next e
  | cvtE4m3F32 | cvtE5m2F32 => exact h.laneNarrow.of_next e
  | shflIdx | shflXor | s2v => exact h.shuffle.of_next e
  | v2s => exact State.Inv.of_next (h.eachOwner .v2sOwner) e
  | ld8 | ld16 | ld32 => exact h.concludeAccess (fun e => h.forStrands .loadStrand e) e
  | ld64 => exact h.concludeAccess (fun e => h.forStrands .load64Strand e) e
  | ld128 => exact h.concludeAccess (fun e => h.forStrands .load128Strand e) e
  | ldx => exact h.concludeAccess (fun e => h.forStrands .ldxStrand e) e
  | ldro => exact h.concludeAccess (fun e => h.forStrands .ldroStrand e) e
  | st8 | st16 | st32 => exact h.concludeAccess (fun e => h.forStrands .storeStrand e) e
  | st64 => exact h.concludeAccess (fun e => h.forStrands .store64Strand e) e
  | st128 => exact h.concludeAccess (fun e => h.forStrands .store128Strand e) e
  | stx => exact h.concludeAccess (fun e => h.forStrands .stxStrand e) e
  | lds => exact h.afterPresence .ldsStrand .ldsTile e
  | sts => exact h.conclude (fun e => h.byProfile .stsStrand .stsTile e) e
  | atomAdd | atomMin | atomMax | atomAnd | atomOr | atomXor | atomXchg | atomCas | atomInc => exact h.atomGroup e
  | atomFadd => exact h.concludeAccess (fun e => h.forStrands .atomStrand e) e
  | atomsAdd | atomsCas => exact h.afterPresence .atomsStrand .atomsTile e
  | probe => exact h.execProbe e
  | ldq => exact h.concludeAccess (fun e => h.forOwners .ldqTile e) e
  | stq => exact h.conclude (fun e => h.forOwners .stqTile e) e
  | lda => exact h.concludeAccess (fun e => h.byProfile .loadStrand .ldsTile e) e
  | sta => exact h.concludeAccess (fun e => h.byProfile .storeStrand .stsTile e) e
  | cwb | cinv => exact h.conclude h.cleanRanges e
  | icinv => exact h.execIcinv e
  | invRo => exact h.execInvRo e
  | tagset => exact h.concludeAccess (fun e => h.forStrands .tagsetStrand e) e
  | tagget => exact h.concludeAccess (fun e => h.forStrands .taggetStrand e) e
  | pres => exact h.conclude (fun e => h.byProfile .presStrand .presTile e) e
  | ldS => exact h.concludeAccess (fun e => h.byProfile .ldSStrand .ldSTile e) e
  | mldb | mmaBf16 | mmaF16 | mmaE4m3 | mmaE5m2 | mmaMx8 | mmaMx6 | mmaMx4 | mmaI8 | mmaI4 | mmasMx4 | mmasMx8 |
    mmvMx4 | mmvMx8 | mmvBf16 | mzero | mscale | mcvt | mtest | mfence | mcbk | mtrn =>
    exact h.queueMat e
  | mpair => exact h.forMat .mpairStream e
  | mfree => exact h.execMfree e
  | meshOut => exact h.conclude (fun e => h.forStrands .meshOutStrand e) e
  | meshPrim => exact h.conclude (fun e => h.forStrands .meshPrimStrand e) e
  | meshDone => exact h.execMeshDone e
  | rastBind => exact h.conclude (fun e => h.guardedOwners .rastBindOwner e) e
  | pixIn => exact h.conclude (fun e => h.forStrands .pixInStrand e) e
  | pixBary => exact h.conclude (fun e => h.forStrands .pixBaryStrand e) e
  | pixDiscard => exact h.conclude (fun e => h.forStrands .pixDiscardStrand e) e
  | omWrite => exact h.conclude (fun e => h.forStrands .omWriteStrand e) e
  | omDepth => exact h.conclude (fun e => h.forStrands .omDepthStrand e) e
  | guideOut => exact h.conclude (fun e => h.forStrands .guideOutStrand e) e
  | texSample => exact h.concludeAccess (fun e => h.forStrands .texSampleStrand e) e
  | texLod => exact h.concludeAccess (fun e => h.forStrands .texLodStrand e) e
  | texGrad => exact h.concludeAccess (fun e => h.forStrands .texGradStrand e) e
  | texFetch => exact h.concludeAccess (fun e => h.forStrands .texFetchStrand e) e
  | texGather4 => exact h.concludeAccess (fun e => h.forStrands .texGatherStrand e) e
  | texQuery => exact h.concludeAccess (fun e => h.forStrands .texQueryStrand e) e
  | rayBox | rayTri => exact h.concludeAccess (fun e => h.forStrands .rayTest e) e
  | rayInit => exact h.concludeAccess (fun e => h.forStrands .rayInitStrand e) e
  | rayXform => exact h.concludeAccess (fun e => h.forStrands .rayXformStrand e) e
  | rayStkPush => exact h.concludeAccess (fun e => h.forStrands .rayPushStrand e) e
  | rayStkPop => exact h.execRayStkPop e
  | rayHit => exact State.Inv.of_next (h.eachStrand .rayHitStrand) e
  | imgLd => exact h.concludeAccess (fun e => h.forStrands .imgLdStrand e) e
  | imgSt => exact h.concludeAccess (fun e => h.forStrands .imgStStrand e) e
  | quadSwz => exact State.Inv.of_next (h.eachStrand .quadSwzStrand) e
  | quadDeriv => exact State.Inv.of_next (h.eachStrand .quadDerivStrand) e
  | cpyLin => exact h.afterChannel .cpyLinOwner e
  | cpyTen => exact h.afterChannel .cpyTenOwner e
  | cpyMc => exact h.afterChannel .cpyMcOwner e
  | cpyCol => exact h.conclude (fun e => h.channelPoint.forOwners .cpyColOwner e) e
  | cpyFill => exact h.afterChannel .cpyFillOwner e
  | cpyWb => exact h.execCpyWb e
  | cpyTs => exact h.afterChannel .cpyTsOwner e
  | cpyFeed => exact h.afterChannel .cpyFeedOwner e
  | publish => exact h.execPublish e
  | shadow => exact h.afterMask .shadowOwner e
  | semSig => exact h.afterMask .semSigOwner e
  | semWait => exact h.execSemWait e
  | semTry => exact h.afterMask .semTryOwner e
  | semSet => exact h.afterMask .semSetOwner e
  | semRead => exact h.afterMask .semReadOwner e
  | push => exact h.afterChannel .pushOwner e
  | shape => exact h.afterMask .shapeOwner e
  | tokq => exact h.execTokq e
  | mapSet => exact h.afterMask .mapSetOwner e
  | mapClr => exact h.execMapClr e
  | cpyRed => exact h.afterChannel .cpyRedOwner e
  | cpyGath | cpyScat => exact h.afterChannel .rowCopy e
  | guideBind => exact h.afterMask .guideBindOwner e
  | linkSend => exact h.afterChannel .linkSendOwner e
  | linkRecv => exact h.afterChannel .linkRecvOwner e
  | cpyAbort => exact State.Inv.of_next (h.eachOwner .abortCopies) e
  | cpyHost => exact h.afterChannel .cpyHostOwner e
  | vadd | vsub | vmul | vfma | vmin | vmax | vabs | vneg | vand | vor | vxor | vshl | vshrI | vshrN | vrcp | vrsq |
    vexp2 | vlog2 | vscale | vrnd | vsqrt | vmadI | vclamp | vfrac =>
    exact h.vecMap e
  | vcmp => exact h.forStreams .vcmpStream e
  | vsel => exact h.execVsel e
  | vmov => exact h.execVmov e
  | vbcast => exact h.execVbcast e
  | vtbli => exact h.execVtbli e
  | vtbll => exact h.forStreams .vtbllStream e
  | vrmax => exact h.execVrmax e
  | vradd => exact h.execVradd e
  | vamax => exact h.execVamax e
  | vqnt => exact h.forStreams .vqntStream e
  | vdqnt => exact h.forStreams .vdqntStream e
  | vcvt => exact h.execVcvt e
  | vperm => exact h.execVperm e
  | vslide => exact h.execVslide e
  | vpop => exact h.forStreams .vpopStream e
  | vpush => exact h.forStreams .vpushStream e
  | vpopk => exact h.forStreams .vpopkStream e
  | vpushs => exact h.forStreams .vpushsStream e
  | vshape => exact h.forStreams .vshapeStream e
  | vrot => exact h.execVrot e
  | vsat => exact h.execVsat e
  | vpsum => exact h.execVpsum e
  | vcbk => exact h.forStreams .vcbkStream e
  | vkmov => exact h.execVkmov e
  | launchDispatch => exact h.dispatch.of_next e
  | crewPlacement => exact h.execCrewPlacement e
  | crewStart => exact h.execCrewStart e
  | bundleEnd => exact h.endBundle.of_next e
  | launchCompletion => exact h.completeLaunch.of_next e
  | activeSetRecompute => exact h.recompute.of_next e
  | leaseWindowEnd => exact h.execLeaseWindowEnd e
  | runArbitration => exact h.arbitrate.of_next e
  | yieldHoldExpiry => exact h.unhold.of_next e
  | batchTimeout => exact h.execBatchTimeout e
  | groveBarrierDoneMessage => exact h.execGroveBarrierDoneMessage e
  | pageBacking => exact h.execPageBacking e
  | pageMigration => exact h.execPageMigration e
  | copyUnitTransfer => exact h.transfer.of_next e
  | copyCompletion => exact h.execCopyCompletion e
  | multicastShareWritten => exact h.tellShare.of_next e
  | feedBlockWrite => exact h.feedBlock.of_next e
  | regionFillCompletion => exact h.fillDone.of_next e
  | publishSwap => exact h.execPublishSwap e
  | remoteAtomicErrorResponse => exact h.execRemoteAtomicErrorResponse e
  | matRetire => exact h.execMatRetire e
  | matrixSelfTest => exact h.execMatrixSelfTest e
  | mpairSlave => exact h.execMpairSlave e
  | executeResultLanding => exact h.execExecuteResultLanding e
  | scaleLatchDelivery => exact h.landDue.of_next e
  | taskSequencerPartStart => exact h.execTaskSequencerPartStart e
  | loopRecordDoneSignal => exact h.execLoopRecordDoneSignal e
  | tilePreemptionSave => exact h.execTilePreemptionSave e
  | tileSetPlacement => exact h.execTileSetPlacement e
  | meshRasterise => exact h.execMeshRasterise e
  | pixelBundleStart => exact h.startPixels.of_next e
  | fragmentMerge => exact h.execFragmentMerge e
  | guideTileSend => exact h.guideStep.of_next e
  | millStep => exact h.execMillStep e
  | millDrainTimeLimit => exact h.execMillDrainTimeLimit e
  | millReload => exact h.execMillReload e
  | flumeStep => exact h.execFlumeStep e
  | preemptionRequest => exact h.execPreemptionRequest e
  | saveCommit => exact h.saveCrew.of_next e
  | saveSlotDrain => exact h.setCore.of_next e
  | crewRestore => exact h.execCrewRestore e
  | splitDrainComplete => exact h.splitDone.of_next e
  | governorRequestArrival => exact State.Inv.of_next (h.foldl .govApply) e
  | waittDeadline => exact h.execWaittDeadline e
  | softError => exact h.execSoftError e
  | powerManagerWindow => exact h.execPowerManagerWindow e
  | dieResetTimeLimit => exact h.execDieResetTimeLimit e
  | hostMemoryAccess => exact h.execHostMemoryAccess e
  | qtailWrite => exact h.execQtailWrite e
  | qctlWrite => exact h.execQctlWrite e
  | mbxHostWrite => exact h.execMbxHostWrite e
  | govdeadWrite => exact h.execGovdeadWrite e
  | evheadWrite => exact h.execEvheadWrite e
  | tsetWrite => exact h.execTsetWrite e
  | hostRegisterWrite => exact h.execHostRegisterWrite e
  | createContext => exact h.command1 (fun k => k.doneIf k.createContext) e
  | endContext => exact h.command1 (fun k => k.doneIf k.endContext) e
  | shootDown => exact h.execShootDown e
  | shootDownAcknowledge => exact h.execShootDownAcknowledge e
  | addPoolFrames => exact h.execAddPoolFrames e
  | dieBeadAllocate => exact h.execDieBeadAllocate e
  | dieBeadFree => exact h.execDieBeadFree e
  | linkStreamAllocate => exact h.command1 (fun k => k.doneIf k.setLink2) e
  | linkStreamFree => exact h.command1 (fun k => k.doneIf k.setPort) e
  | debugRetry => exact h.execDebugRetry e
  | debugSkip => exact h.execDebugSkip e
  | debugAbort => exact h.execDebugAbort e
  | computeReset => exact h.execComputeReset e
  | powerOff => exact h.execPowerOff e
  | writeMtcfg => exact h.command1 (fun k => k.doneIf k.setTile) e
  | hostCopyToDevice | hostCopyToHost => exact h.hostCopyTurn .hostCopy e
  | installNodeTable => exact h.execInstallNodeTable e
  | installRecordPool => exact h.execInstallRecordPool e
  | attestationRequest => exact h.execAttestationRequest e
  | identityCertificateRequest | errorLogRead => exact h.doeAnswer.of_next e
  | fenceAddendum => exact h.execFenceAddendum e
  | captureOn => exact h.execCaptureOn e
  | captureOff => exact h.execCaptureOff e
  | imageWrite => exact h.execImageWrite e
  | powerGood => exact h.execPowerGood e
  | ptpMessage _ slew => exact h.execPtpMessage (x := slew) e
  | linkDataFrame => exact h.execLinkDataFrame e
  | linkAckFrame => exact h.execLinkAckFrame e
  | linkCreditFrame => exact h.execLinkCreditFrame e
  | linkRetransmitTimeout => exact h.execLinkRetransmitTimeout e
  | foreignFrame => exact h.execForeignFrame e
  | railOutOfRange => exact h.execRailOutOfRange e
  | bypass | idcode | samplePreload => cases e; exact h.of_eq rfl rfl
  | extest => exact h.execExtest e
  | portUp => exact h.execPortUp e
  | railInRange => exact h.execRailInRange e
  | powerLoss => exact h.execPowerLoss e
  | timeLockLost => exact h.execTimeLockLost e

/-! ### Issue of groups -/

theorem State.Inv.readItem {p epoch a r} (h : s.Inv) (e : s.readItem p epoch a = .ok (r, u)) : u.Inv := by
  unfold State.readItem at e
  split at e
  · cases e
  · split at e
    · cases e
    · split at e
      · split at e
        · cases e
        · split at e
          · cases e
          · cases e; exact (h.fetchWord ‹_›).fetchWord ‹_›
      · split at e
        · cases e
        · cases e; exact h.fetchWord ‹_›

theorem State.Inv.readGroup {p epoch lasts before n a got r} (h : s.Inv)
    (e : s.readGroup p epoch lasts before n a got = .ok (r, u)) : u.Inv := by
  induction n generalizing s a got with
  | zero => cases e
  | succ n ih =>
    rw [State.readGroup] at e
    split at e
    · cases e
    next e₁ =>
      split at e
      · cases e
      · split at e
        · cases e; exact h.readItem e₁
        · exact ih (h.readItem e₁) e

theorem State.Inv.converge (h : s.Inv) : s.converge.Inv := (h.foldl .parkStrand).of_eq rfl rfl

theorem State.Inv.plainPoint {i} (h : s.Inv) (e : s.plainPoint i = .ok u) : u.Inv := by
  cases i with
  | wait => exact h.tokenPoint.of_ok e
  | semSig | semWait | semTry | semSet | semRead | shape | shadow | mapSet | guideBind | publish => exact h.maskPoint.of_ok e
  | tokq | cpyHost | linkSend | linkRecv | cpyLin | cpyTen | cpyMc | cpyFill | cpyWb | cpyTs | cpyFeed | push | mapClr |
    cpyRed | cpyGath | cpyScat => exact h.copyPoint.of_ok e
  | cpyCol => exact h.channelPoint.of_ok e
  | lds | atomsAdd | atomsCas => exact h.presencePoint.of_ok e
  | rayStkPop => exact h.rayPopPoint.of_ok e
  | meshDone => exact h.meshPoint e
  | chk | sread =>
    rcases ite_eq_iff.1 e with ⟨-, e⟩ | ⟨-, e⟩
    · exact h.drainPoint e
    · exact h.of_ok e
  | region | exit => exact h.commitPoint e
  | _ => exact h.of_ok e

theorem State.Inv.actingPoint {i} (h : s.Inv) : (s.actingPoint i).1.Inv := by
  unfold State.actingPoint
  extract_lets keep
  have hkeep {r : Eff State} (hr : ∀ {t}, r = .ok t → t.Inv) : (keep r).1.Inv := by
    cases r with
    | error => exact h
    | ok t => exact hr rfl
  cases i with
  | barCrew => exact h.barPoint
  | barGrove =>
    refine hkeep fun e => ?_
    obtain ⟨_, e₁, rfl⟩ := ok_of_map e
    exact (h.groveCheck e₁).barPoint
  | barWait => exact hkeep h.barWaitPoint
  | waitt => exact hkeep h.waittPoint
  | semWait => exact hkeep h.semWaitPoint
  | split => exact hkeep h.splitPoint
  | reca => exact hkeep h.recaPoint
  | fsend | fsendNb | ftake => exact hkeep h.flumePoint
  | publish => exact hkeep h.publishPoint
  | probe => exact h.probeWork
  | _ => exact h

theorem State.Inv.plainPointAs {i} (h : s.Inv) : (s.plainPointAs i).1.Inv := by
  unfold State.plainPointAs
  split
  · exact h.plainPoint ‹_›
  · exact h

theorem State.Inv.points {f n l} (h : s.Inv) (hf : ∀ {t i}, t.Inv → (f t i).1.Inv) : (s.points f n l).1.Inv := by
  induction l generalizing s n with
  | nil => exact h
  | cons x l ih =>
    have hx : (f { s with cur := { s.cur with pc := x.pc } } x.item.instr).1.Inv := hf (h.of_eq rfl rfl)
    rw [State.points]
    split
    next e => exact ih (hx.of_fst e)
    next e => exact hx.of_fst e

theorem State.Inv.allPoints {g} (h : s.Inv) : (s.allPoints g).1.Inv := by
  unfold State.allPoints
  split
  · exact (h.points .plainPointAs).of_fst ‹_›
  · exact ((h.points .plainPointAs).of_fst ‹_›).points .actingPoint

theorem State.Inv.runItems {g} (h : s.Inv) (e : s.runItems g = .done u) : u.Inv := by
  induction g generalizing s with
  | nil => cases e; exact h
  | cons x g ih =>
    rw [State.runItems] at e
    split at e
    · cases e
    · cases e
    next e₁ =>
      split at e
      · cases e
      · refine ih (State.Inv.exec ?_ e₁) e
        exact h.of_eq rfl rfl

theorem State.Inv.takeStop {x} (h : s.Inv) : (s.takeStop x).Inv := by
  unfold State.takeStop
  extract_lets t
  have ht : t.Inv := h.keepBacking
  split
  · exact ht.takeTrap
  · exact ht.fatalError
  · exact ht.parkGroup

theorem State.Inv.runGroup {stop g} (h : s.Inv) (e : s.runGroup stop g = .done u) : u.Inv := by
  have h' : State.Inv { s with cur := { s.cur with cleared := true } } := h.of_eq rfl rfl
  unfold State.runGroup at e
  dsimp only at e
  split at e
  · exact h'.runItems e
  · cases e
  · cases e
  · split at e
    · cases e
    · cases e
    next hd _ => exact absurd e (hd u)

theorem State.Inv.leave (h : s.Inv) : s.leave.Inv := h.of_eq rfl rfl

theorem State.Inv.settleAcr {o} (h : s.Inv) : (s.settleAcr o).Inv := by
  unfold State.settleAcr
  split
  · exact h.setOwner
  · exact h

theorem State.Inv.standRaster {is} (h : s.Inv) : (s.standRaster is).Inv := h.of_eq rfl rfl

theorem State.Inv.heardRemote (h : s.Inv) : s.heardRemote.Inv := h.foldl fun k => .ite k k.setStrand

theorem State.Inv.readRaster {before r} (h : s.Inv) (e : s.readRaster before = .ok (r, u)) : u.Inv := h.readGroup e

theorem State.Inv.rasterPoints {g} (h : s.Inv) : (s.rasterPoints g).1.Inv := by
  unfold State.rasterPoints
  extract_lets t
  have ht : t.Inv := by
    unfold t
    split
    · exact h.converge
    · exact h
  split
  · exact ht
  · exact ht.allPoints

theorem State.Inv.advanceStrand {last next i} (h : s.Inv) : (s.advanceStrand last next i).Inv := by
  unfold State.advanceStrand
  extract_lets x e y
  split
  · exact h
  · exact h
  · exact h
  · exact h.setStrand

theorem State.Inv.nextRun {m n ends} (h : s.Inv) : (s.nextRun m n ends).Inv := h.setCore.foldl .stopNow

theorem State.Inv.commitRaster {n g} (h : s.Inv) : (s.commitRaster n g).Inv := by
  unfold State.commitRaster
  split
  · exact h
  · extract_lets s1 s2
    have h1 : s1.Inv := h.foldl .settleAcr
    have h2 : s2.Inv := h1.foldl .advanceStrand
    exact h2.nextRun.leave

theorem State.Inv.endRun {n} (h : s.Inv) : (s.endRun n).Inv := (h.setCore.foldl .stopNow).leave

theorem State.Inv.onlyStrands {is} (h : s.Inv) : (s.onlyStrands is).Inv := h.of_eq rfl rfl

theorem State.Inv.breakRaster {g l} (h : s.Inv) : (State.breakRaster g l s).Inv := by
  induction l generalizing s with
  | nil => exact h
  | cons x l ih =>
    rw [State.breakRaster]
    split
    · exact ih h
    · extract_lets hit h₁ _ t left
      have h₂ : h₁.Inv := h.onlyStrands
      have ht : t.Inv := .breakTrap (h₂.of_eq rfl rfl)
      split
      · exact ih h
      · refine ih ?_
        exact ht.of_eq rfl rfl

theorem State.Inv.stopRaster {n elem x detail} (h : s.Inv) : (s.stopRaster n elem x detail).Inv := by
  unfold State.stopRaster
  refine .endRun ?_
  split
  · exact h.keepBacking.takeTrapWith
  · exact h.takeStop

theorem State.Inv.issueRaster {k} (h : s.Inv) (e : s.issueRaster k = .next u) : u.Inv := by
  unfold State.issueRaster at e
  dsimp only at e
  split at e
  · cases e; exact h
  next r _ =>
    have h₁ : ((s.standRaster r.members).heardRemote).Inv := h.standRaster.heardRemote
    split at e
    · cases e
    · cases e; exact h₁.takeStop.endRun
    next e₁ =>
      have h₂ := h₁.readRaster e₁
      split at e
      · cases e; exact h₂.breakRaster.endRun
      · split at e
        · cases e; exact h₂.breakRaster.rasterPoints.endRun
        · split at e
          next e₂ => cases e; exact (h₂.breakRaster.rasterPoints.runGroup e₂).commitRaster
          · cases e; exact h₂.breakRaster.rasterPoints.stopRaster
          · cases e
          · cases e

theorem State.Inv.standTile {t pc acr} (h : s.Inv) : (s.standTile t pc acr).Inv :=
  h.of_eq rfl rfl

theorem State.Inv.readTile {st r} (h : s.Inv) (e : s.readTile st = .ok (r, u)) : u.Inv := h.readGroup e

theorem State.Inv.commitAccess {s0 t g fetched} (h : s.Inv) : (s.commitAccess s0 t g fetched).Inv := by
  unfold State.commitAccess
  split
  · exact h.leave
  · extract_lets old s1 s2
    have h1 : s1.Inv := by
      unfold s1
      clear_value old
      split
      · exact h.setStream
      · exact h
    have h2 : s2.Inv := h1.settleAcr
    exact h2.setStream.leave

theorem State.Inv.leaveTile {t} (h : s.Inv) : (s.leaveTile t).Inv := h.setStream.leave

theorem State.Inv.stopTile {t x} (h : s.Inv) : (s.stopTile t x).Inv := h.takeStop.leaveTile

theorem State.Inv.runAccess {t g fetched} (h : s.Inv) (e : s.runAccess t g fetched = .next u) : u.Inv := by
  unfold State.runAccess at e
  dsimp only at e
  split at e
  · cases e; exact h.allPoints.leaveTile
  · split at e
    next e₁ => cases e; exact (h.allPoints.runGroup e₁).commitAccess
    · cases e; exact h.allPoints.stopTile
    · cases e
    · cases e

theorem State.Inv.runStopped {t g x pc} (h : s.Inv) (e : s.runStopped t g x pc = .next u) : u.Inv := by
  unfold State.runStopped at e
  extract_lets half early p e' at e
  split at e
  · cases e; exact h.allPoints.leaveTile
  · split at e
    · cases e; exact h.allPoints.stopTile
    · cases e; exact h.allPoints.stopTile
    · cases e
    · cases e

theorem State.Inv.tryExecute {t pc g rot acr} (h : s.Inv) (e : s.tryExecute t pc g rot acr = .done u) : u.Inv :=
  h.tick.setStream.standTile.setCur.runItems e

theorem State.Inv.commitExecute {t} (h : s.Inv) : (s.commitExecute t).Inv := h.setStream.leave

theorem State.Inv.beforeNext {t} (h : s.Inv) : (s.beforeNext t).Inv := h.setStream

theorem State.Inv.unstalled {t} (h : s.Inv) : (s.unstalled t).Inv := .setTile (.of_eq h rfl rfl)

theorem State.Inv.throughQueue {t l} (h : s.Inv) (e : State.throughQueue t l s = some u) : u.Inv := by
  induction l generalizing s with
  | nil => cases e; exact h.unstalled
  | cons p l ih =>
    rw [State.throughQueue] at e
    split at e
    next e₁ => exact ih (h.unstalled.beforeNext.tryExecute e₁).commitExecute e
    · cases e

theorem State.Inv.issueAccess {t} (h : s.Inv) (e : s.issueAccess t = .next u) : u.Inv := by
  unfold State.issueAccess at e
  dsimp only at e
  split at e
  · cases e; exact h
  · split at e
    · cases e; exact h
    · split at e
      · exact h.setStream.standTile.runAccess e
      · cases e; exact h
      · split at e
        · cases e
        · cases e; exact h.standTile.stopTile
        next e₁ =>
          have h₁ := h.standTile.readTile e₁
          split at e
          · cases e; exact .leave (.breakTrap (h₁.of_eq rfl rfl))
          · split at e
            · exact h₁.runAccess e
            · split at e
              · exact h₁.runStopped e
              · cases e; exact h

theorem State.Inv.aheadGroup {t st r q} (h : s.Inv) (e : s.aheadGroup t st = some (r, q, u)) : u.Inv := by
  unfold State.aheadGroup at e
  split at e
  · cases e
  · extract_lets s1 at e
    have h1 : s1.Inv := h.standTile
    split at e
    · cases e
    · split at e
      · cases e
      · split at e
        · cases e
        · cases e; exact h1.readTile ‹_›

theorem State.Inv.issueExecute {t} (h : s.Inv) (e : s.issueExecute t = .next u) : u.Inv := by
  unfold State.issueExecute at e
  split at e
  · cases e; exact h
  · split at e
    · cases e; exact h
    · split at e
      · split at e
        next e₁ => cases e; exact (h.beforeNext.tryExecute e₁).commitExecute
        · cases e; exact h
        · cases e; exact h.standTile.stopTile
        · cases e
        · cases e
      · split at e
        · cases e; exact h
        next e₁ =>
          split at e
          next e₂ => cases e; exact ((h.aheadGroup e₁).setStream.tryExecute e₂).setStream.commitExecute
          · cases e; exact h
          · cases e
          · cases e

/-! ### What is due -/

theorem State.Inv.wakeCohort {n c} (h : s.Inv) : (s.wakeCohort n c).Inv :=
  .ite h (h.foldl fun k => .ite k k.setStrand)

theorem State.Inv.wakeCore {n} (h : s.Inv) : (s.wakeCore n).Inv := (h.foldl .wakeCohort).recompute

theorem State.Inv.issueAgent {a} (h : s.Inv) (e : s.issueAgent a = .next u) : u.Inv := by
  unfold State.issueAgent at e
  split at e
  · cases e; exact h
  · exact h.issueRaster e
  · exact h.issueAccess e
  · exact h.issueExecute e

theorem State.Inv.evictLine (h : s.Inv) : s.evictLine.Inv := by
  unfold State.evictLine
  extract_lets f g ks line
  split
  · exact h.free.free
  · extract_lets vs
    exact h.free.free.setCore

theorem State.Inv.chooseNext (h : s.Inv) (e : s.chooseNext = .next u) : u.Inv := by
  have hf : s.free.2.Inv := h.free
  have h₁ : (s.liveCores.foldl State.wakeCore s).Inv := h.foldl .wakeCore
  unfold State.chooseNext at e
  dsimp only at e
  split at e
  · cases e; exact h
  · exact h₁.free.evictLine.exec e
  · cases e; exact h₁.free.evictLine.of_eq rfl rfl

/-! ### One step -/

theorem State.Inv.step (h : s.Inv) (e : step s = .next u) : u.Inv := by
  unfold Machine.step at e
  split at e
  · refine State.Inv.exec ?_ e
    exact h.of_eq rfl rfl
  · split at e
    · exact h.chooseNext e
    · refine State.Inv.issueAgent ?_ e
      exact h.of_eq rfl rfl

end KeepsInv

/-- Settles O56: a step is one event or the issue of one agent's group, and each keeps the canonical form. -/
theorem stepKeepsInv : Obligations.StepKeepsInv :=
  fun _ _ => State.Inv.step

end Sys2Proof.Machine

namespace Sys2Proof.Machine
open Host (Outcome)
open Sys2Proof.Claims

/-! ### The trace of an access (07 R152, R154) -/

theorem State.touch_rest (s : State) (b pa : Nat) :
    s.touch b pa = { s with bundles := (s.touch b pa).bundles, cores := (s.touch b pa).cores } := by
  unfold State.touch
  split
  · rfl
  · dsimp only
    split
    · rfl
    · split <;> rfl

@[simp] theorem State.touch_mem (s : State) (b pa : Nat) : (s.touch b pa).mem = s.mem := by rw [State.touch_rest]
@[simp] theorem State.touch_marked (s : State) (b pa : Nat) : (s.touch b pa).marked = s.marked := by rw [State.touch_rest]
@[simp] theorem State.byte_touch (s : State) (b pa x : Nat) : (s.touch b pa).byte x = s.byte x := by
  rw [State.byte, State.touch_mem]; rfl
@[simp] theorem State.isMarked_touch (s : State) (b pa q n : Nat) : (s.touch b pa).isMarked q n = s.isMarked q n := by
  rw [State.isMarked, State.touch_marked]; rfl
@[simp] theorem State.pageLE_touch (s : State) (b pa : Nat) (p : PageInfo) (q n : Nat) :
    (s.touch b pa).pageLE p q n = s.pageLE p q n :=
  State.readLE_congr fun x _ _ => s.byte_touch b pa x

/-! ### Pairs of lanes, and frames -/

theorem State.getV_setD2 (s : State) (i n : Nat) (x : Tagged 64) (j m : Nat) :
    (s.setD2 i n x).getV j m =
      if j = i ∧ m / 2 = n then ⟨x.val.extractLsb' (32 * (m % 2)) 32, x.poison⟩ else s.getV j m := by
  rw [State.setD2, State.getV_setV, State.getV_setV]
  by_cases hj : j = i
  · rcases Nat.mod_two_eq_zero_or_one m with h | h
    · simp [hj, h, show (m = 2 * n + 1) = False from eq_false (by omega), show (m = 2 * n) = (m / 2 = n) from propext (by omega)]
    · simp [hj, h, show (m = 2 * n) = False from eq_false (by omega), show (m = 2 * n + 1) = (m / 2 = n) from propext (by omega)]
  · simp [hj]

theorem LaneFrame.mono {s t : State} {is : List Nat} {ns ms : Nat → Prop} (h : LaneFrame s t is ns)
    (hm : ∀ n, ns n → ms n) : LaneFrame s t is ms :=
  ⟨h.rest, h.strand, fun i n k => h.reg i n fun e => k ⟨e.1, hm n e.2⟩, h.byte⟩

theorem State.setD2_frame (s : State) (i n : Nat) (x : Tagged 64) : LaneFrame s (s.setD2 i n x) [i] (fun m => m / 2 = n) :=
  LaneFrame.trans ((State.setV_frame s i (2 * n) _).mono (by intro m h; omega))
    ((State.setV_frame _ i (2 * n + 1) _).mono (by intro m h; omega)) (fun _ h => h) (fun _ h => h)

theorem extractLsb'_ofNat {w k l : Nat} (x : Nat) (h : k + l ≤ w) :
    (BitVec.ofNat w x).extractLsb' k l = BitVec.ofNat l (x / 2 ^ k) := by
  refine BitVec.eq_of_getLsbD_eq fun j hj => ?_
  rw [BitVec.getLsbD_extractLsb', BitVec.getLsbD_ofNat, BitVec.getLsbD_ofNat, Nat.testBit_div_two_pow, Nat.add_comm k j]
  simp [hj, show j + k < w by omega]

/-! ### Poison of a marked word (26 R395) -/

@[simp] theorem State.originAt_setV (s : State) (i n : Nat) (x : Tagged 32) (o : Nat) (k : BitVec 3) :
    (s.setV i n x).originAt o k = s.originAt o k := rfl
@[simp] theorem State.originAt_log (s : State) (e : LogEvent) (o : Nat) (k : BitVec 3) :
    (s.log e).originAt o k = s.originAt o k := rfl
@[simp] theorem State.byte_log (s : State) (e : LogEvent) (x : Nat) : (s.log e).byte x = s.byte x := rfl
@[simp] theorem State.byte_newOrigin (s : State) (o : Nat) (x : Origin) (a : Nat) : (s.newOrigin o x).2.byte a = s.byte a := rfl
@[simp] theorem State.byte_setV (s : State) (i n : Nat) (x : Tagged 32) (a : Nat) : (s.setV i n x).byte a = s.byte a := rfl
@[simp] theorem State.errLog_setV (s : State) (i n : Nat) (x : Tagged 32) : (s.setV i n x).errLog = s.errLog := rfl

theorem State.originAt_newOrigin (s : State) (o : Nat) (x : Origin) :
    (s.newOrigin o x).2.originAt o (s.newOrigin o x).1 = x := by
  rw [State.newOrigin, State.originAt, State.owner_setOwner, if_pos rfl]
  exact (Tbl.getD_insert ..).trans (if_pos rfl)

theorem State.errLog_log_getLast (s : State) (e : LogEvent) : (s.log e).errLog.getLast?.map (fun x => x.event) = some e := by
  simp [State.log]

/-! ### What a store changes (08 R181, 15 R263) -/

theorem State.storeMarked_rest (s : State) (pa n v : Nat) :
    s.storeMarked pa n v = { s with
      mem := (s.storeMarked pa n v).mem, stale := (s.storeMarked pa n v).stale, writes := (s.storeMarked pa n v).writes,
      oldMaps := (s.storeMarked pa n v).oldMaps, marked := markUnits s.marked pa n false } := by
  unfold State.storeMarked State.storeData
  rw [State.writeLE_rest]
  unfold State.noteWords
  rw [State.noteEntries_eq, State.noteStore_eq]

theorem PageInfo.room_le (p : PageInfo) (pa n : Nat) : p.room pa n ≤ n := Nat.min_le_left ..

theorem markUnits_small {us : List Nat} {pa n : Nat} (hn : n < 16) : markUnits us pa n false = us := by
  simp [markUnits, hn]

theorem mem_markUnits {us : List Nat} {pa n u : Nat} (hn : n ≤ 16) :
    u ∈ markUnits us pa n false ↔ u ∈ us ∧ ¬(n = 16 ∧ pa / 16 ≤ u ∧ u ≤ (pa + 15) / 16) := by
  rcases hn.lt_or_eq with h | rfl
  · rw [markUnits_small h]
    simp [h.ne]
  · simp only [markUnits, Bool.false_eq_true, if_false, lt_irrefl, List.mem_filter, Bool.not_eq_true', Bool.and_eq_false_iff,
      decide_eq_false_iff_not, true_and]
    exact and_congr_right fun _ => by omega

end Sys2Proof.Machine

namespace Sys2Proof.Claims
open Sys2Proof.Machine
open Host (Outcome)

section Access
variable {s t u : State} {g : Guard} {i : Nat} {d a : BitVec 6} {lb : Bool} {off : BitVec 31} {addr : Dword} {n align : Nat}
  {write tagCheck : Bool} {pa : Nat} {p : PageInfo}

/-! ### What one strand's access finds (04 R101-R103) -/

theorem OneStrand.forStrands_eq (h : OneStrand s g i) (f : Nat → State → Eff State) : forStrands g s f = f i s := by
  have hs : s.cur.strands.filter (fun j => s.guardOn g j) = [i] := h.2
  rw [forStrands, hs, List.foldlM_cons]
  cases f i s <;> rfl

theorem OneStrand.byProfile_eq (h : OneStrand s g i) (f k : Nat → State → Eff State) : byProfile g s f k = f i s := by
  rw [byProfile, h.1]
  exact h.forStrands_eq f

theorem laneAddr_eq (h : (baseOf s i a lb).poison = none) : s.laneAddr i a lb off = .ok (addressOf s i a lb off) := by
  unfold baseOf at h
  unfold State.laneAddr State.laneBase addressOf baseOf
  cases lb
  · simp only [Bool.false_eq_true, if_false] at h ⊢
    rw [State.useS, h]
  · simp only [if_true] at h ⊢
    rw [State.useD, h]

theorem useV_eq (h : (s.laneV i d).poison = none) : s.useV i d.toNat = .ok (s.laneV i d).val := by
  rw [State.laneV] at h
  rw [State.useV, h, State.laneV]

theorem useD_eq {r : Nat} (h : (s.getD2 i r).poison = none) : s.useD i r = .ok (s.getD2 i r).val := by
  rw [State.useD, h]

theorem Reach.pageFor_eq (h : Reach s addr n align write tagCheck pa p) : s.pageFor s.cur.ctx addr write = .ok (p, s) := by
  rw [State.pageFor, State.translate_settled h.settled, h.page]
  exact if_pos h.allowed

theorem Reach.tagsMatch (h : Reach s addr n align write tagCheck pa p) (hn : 0 < n) :
    (p.tagged && tagCheck && !s.tagsMatch pa n (addrTag addr)) = false := by
  cases ht : p.tagged
  · rfl
  cases hc : tagCheck
  · rfl
  have hm : s.tagsMatch pa n (addrTag addr) = true := by
    rw [State.tagsMatch, List.all_eq_true]
    intro k hk
    rw [List.mem_range] at hk
    exact beq_iff_eq.2 (h.tag ht hc (pa / 32 + k) (by omega) (by omega))
  rw [hm]; rfl

theorem Reach.globalAccess_eq (h : Reach s addr n align write tagCheck pa p) (hn : 0 < n) :
    s.globalAccess s.cur.ctx addr n align write tagCheck = .ok (pa, p, s) := by
  have htop : (addr.extractLsb' 60 4 != 0) = false := by
    have := h.top
    rw [bne_eq_false_iff_eq]
    exact BitVec.eq_of_toNat_eq (by simp [BitVec.extractLsb'_toNat, Nat.shiftRight_eq_div_pow]; omega)
  have hal : (addr.toNat % align != 0) = false := by rw [h.aligned]; rfl
  have hpa : p.pa addr.toNat = pa := h.place.symm
  simp only [State.globalAccess, htop, hal, h.pageFor_eq, hpa, h.tagsMatch hn, h.exist, Bool.false_eq_true, if_false, if_true]

theorem Reach.laneGlobal_eq (h : Reach s addr n align write tagCheck pa p) (hn : 0 < n) :
    s.laneGlobal i addr n align write tagCheck = .ok (pa, p, s.touch (strandBundle i) pa) := by
  rw [State.laneGlobal, h.globalAccess_eq hn]; rfl

/-! ### What an access leaves in the lease filter (07 R152, R154) -/

theorem LeaseTrace.refl (s : State) (b : Nat) : LeaseTrace s s b :=
  ⟨fun _ _ => rfl, fun x h => ⟨x.touched, x.est, h⟩, fun _ => rfl⟩

theorem LeaseTrace.congr {b : Nat} (h : LeaseTrace s t b) (hb : u.bundles = t.bundles) (hc : u.cores = t.cores) :
    LeaseTrace s u b where
  others := by rw [hb]; exact h.others
  own := by rw [hb]; exact h.own
  cores k := by
    have hk : u.core k = t.core k := by rw [State.core, hc]; rfl
    rw [hk]; exact h.cores k

theorem LeaseTrace.setBundle {b e : Nat} {x : Bundle} {ls : List Nat} (h : LeaseTrace s t b)
    (hx : Tbl.find? s.bundles b = some x) : LeaseTrace s (t.setBundle b { x with touched := ls, est := e }) b where
  others j hj := (Tbl.find_insert_ne _ _ hj).trans (h.others j hj)
  own y hy := by
    rw [hx] at hy
    cases hy
    exact ⟨ls, e, Tbl.find_insert_self ..⟩
  cores := h.cores

theorem leaseTrace_setCore (s : State) (b k : Nat) (v : List Nat) :
    LeaseTrace s (s.setCore k { s.core k with victims := v }) b where
  others _ _ := rfl
  own x hx := ⟨x.touched, x.est, hx⟩
  cores j := by
    rw [State.core_setCore]
    split
    · subst_vars; rfl
    · rfl

theorem leaseTrace_touch (s : State) (b pa : Nat) : LeaseTrace s (s.touch b pa) b := by
  unfold State.touch
  split
  · exact .refl s b
  next x hx =>
    dsimp only
    split
    · exact (LeaseTrace.refl s b).setBundle hx
    · split
      · split
        · exact (leaseTrace_setCore s b _ _).setBundle hx
        · exact (leaseTrace_setCore s b _ _).setBundle hx
      · exact (LeaseTrace.refl s b).setBundle hx

/-- What follows a trace and changes lanes alone changes, seen from before the trace, lanes, bundles and cores. -/
theorem frame_of_touch {b : Nat} {is : List Nat} {ns : Nat → Prop} (h : LaneFrame (s.touch b pa) t is ns) :
    LaneFrame { s with bundles := t.bundles, cores := t.cores } t is ns ∧ LeaseTrace s t b := by
  have hb : t.bundles = (s.touch b pa).bundles := by rw [h.rest]
  have hc : t.cores = (s.touch b pa).cores := by rw [h.rest]
  refine ⟨?_, (leaseTrace_touch s b pa).congr hb hc⟩
  rw [hb, hc, ← State.touch_rest]
  exact h

/-! ### Loads (04 R105, R114) -/

theorem Reach.loadGlobal_eq {w : Nat} (h : Reach s addr n n false true pa p) (hn : 0 < n) (hm : s.isMarked pa n = false) :
    s.loadGlobal i addr n w = .ok (⟨BitVec.ofNat w (s.pageLE p pa n), none⟩, s.touch (strandBundle i) pa) := by
  simp only [State.loadGlobal, h.laneGlobal_eq hn, State.isMarked_touch, hm, State.pageLE_touch]
  rfl

theorem wordLoads_pos {e : Nat × Instr} (he : e ∈ wordLoads g d a lb off) : 0 < e.1 := by
  simp only [wordLoads, List.mem_cons, List.not_mem_nil, or_false] at he
  rcases he with rfl | rfl | rfl | rfl <;> simp

/-- Each load of a word, where one strand acts, is the strand's own load. -/
theorem exec_wordLoad (h : OneStrand s g i) {e : Nat × Instr} (he : e ∈ wordLoads g d a lb off) :
    exec e.2 s = concludeAccess false s (loadStrand e.1 d a lb off i s) := by
  simp only [wordLoads, List.mem_cons, List.not_mem_nil, or_false] at he
  rcases he with rfl | rfl | rfl | rfl
  · exact congrArg (concludeAccess false s) (h.forStrands_eq _)
  · exact congrArg (concludeAccess false s) (h.forStrands_eq _)
  · exact congrArg (concludeAccess false s) (h.forStrands_eq _)
  · exact congrArg (concludeAccess false s) (h.byProfile_eq _ _)

theorem wordLoad_unmarked (hs : OneStrand s g i) (hb : (baseOf s i a lb).poison = none) {e : Nat × Instr}
    (he : e ∈ wordLoads g d a lb off) (hr : Reach s (addressOf s i a lb off) e.1 e.1 false true pa p)
    (hm : s.isMarked pa e.1 = false) :
    ∃ t, exec e.2 s = .next t ∧ t.laneV i d = ⟨BitVec.ofNat 32 (s.pageLE p pa e.1), none⟩ ∧
      LaneFrame { s with bundles := t.bundles, cores := t.cores } t [i] (fun n => n = d.toNat) ∧
      LeaseTrace s t (strandBundle i) := by
  refine ⟨_, ?_, ?_, frame_of_touch (pa := pa) (State.setV_frame _ i d.toNat ⟨BitVec.ofNat 32 (s.pageLE p pa e.1), none⟩)⟩
  · rw [exec_wordLoad hs he, loadStrand, laneAddr_eq hb]
    simp only [hr.loadGlobal_eq (wordLoads_pos he) hm]
    rfl
  · rw [State.laneV, State.getV_setV, if_pos ⟨rfl, rfl⟩]

theorem wordLoad_marked (hs : OneStrand s g i) (hb : (baseOf s i a lb).poison = none) {e : Nat × Instr}
    (he : e ∈ wordLoads g d a lb off) (hr : Reach s (addressOf s i a lb off) e.1 e.1 false true pa p)
    (hm : s.isMarked pa e.1 = true) :
    ∃ t k, exec e.2 s = .next t ∧ t.laneV i d = ⟨0, some k⟩ ∧
      t.originAt (strandBundle i) k = ⟨0x38, addressOf s i a lb off, false, 0, BitVec.ofNat 8 (i % 64)⟩ ∧
      (t.errLog.getLast?).map (fun x => (x.event.addr, x.event.kind)) = some (pa, 2) ∧ ∀ x, t.byte x = s.byte x := by
  let v := s.touch (strandBundle i) pa
  let r := v.newOrigin (strandBundle i) ⟨0x38, addressOf s i a lb off, false, 0, BitVec.ofNat 8 (i % 64)⟩
  let l : LogEvent := ⟨v.time, pa, 2, v.dieOf (strandBundle i), v.unitOf (strandBundle i), v.cur.ctx⟩
  refine ⟨(r.2.log l).setV i d.toNat ⟨0, some r.1⟩, r.1, ?_, ?_, ?_, ?_, ?_⟩
  · rw [exec_wordLoad hs he, loadStrand, laneAddr_eq hb]
    simp only [State.loadGlobal, hr.laneGlobal_eq (wordLoads_pos he), State.isMarked_touch, hm]
    rfl
  · rw [State.laneV, State.getV_setV, if_pos ⟨rfl, rfl⟩]
  · rw [State.originAt_setV, State.originAt_log]
    exact v.originAt_newOrigin _ _
  · simpa using congrArg (Option.map fun x => (x.addr, x.kind)) (r.2.errLog_log_getLast l)
  · intro x
    rw [State.byte_setV, State.byte_log, State.byte_newOrigin, State.byte_touch]

theorem ld64_spec (hs : OneStrand s g i) (hb : (baseOf s i a lb).poison = none)
    (hr : Reach s (addressOf s i a lb off) 8 8 false true pa p) (hm : s.isMarked pa 8 = false) :
    ∃ t, exec (.ld64 g d a lb off) s = .next t ∧
      (∀ j : Nat, j < 2 → t.getV i (2 * d.toNat + j) = ⟨BitVec.ofNat 32 (s.pageLE p pa 8 / 2 ^ (32 * j)), none⟩) ∧
      LaneFrame { s with bundles := t.bundles, cores := t.cores } t [i] (fun n => n / 2 = d.toNat) ∧
      LeaseTrace s t (strandBundle i) := by
  refine ⟨_, ?_, ?_, frame_of_touch (pa := pa) (State.setD2_frame _ i d.toNat ⟨BitVec.ofNat 64 (s.pageLE p pa 8), none⟩)⟩
  · refine (congrArg (concludeAccess false s) (hs.forStrands_eq _)).trans ?_
    rw [load64Strand, laneAddr_eq hb]
    simp only [hr.loadGlobal_eq (by decide) hm]
    rfl
  · intro j hj
    rw [State.getV_setD2, if_pos ⟨rfl, by omega⟩, extractLsb'_ofNat _ (by omega), show (2 * d.toNat + j) % 2 = j by omega]

theorem ld128_spec (hs : OneStrand s g i) (hb : (baseOf s i a lb).poison = none)
    (hr : Reach s (addressOf s i a lb off) 16 16 false true pa p) (hm : s.isMarked pa 16 = false) :
    ∃ t, exec (.ld128 g d a lb off) s = .next t ∧
      (∀ j : Nat, j < 4 → t.getV i (2 * d.toNat + j) = ⟨BitVec.ofNat 32 (s.pageLE p pa 16 / 2 ^ (32 * j)), none⟩) ∧
      LaneFrame { s with bundles := t.bundles, cores := t.cores } t [i] (fun n => 2 * d.toNat ≤ n ∧ n < 2 * d.toNat + 4) ∧
      LeaseTrace s t (strandBundle i) := by
  let v := BitVec.ofNat 128 (s.pageLE p pa 16)
  let t₁ := (s.touch (strandBundle i) pa).setD2 i d.toNat ⟨v.extractLsb' 0 64, none⟩
  have hf : LaneFrame (s.touch (strandBundle i) pa) (t₁.setD2 i (d.toNat + 1) ⟨v.extractLsb' 64 64, none⟩) [i]
      (fun n => 2 * d.toNat ≤ n ∧ n < 2 * d.toNat + 4) :=
    LaneFrame.trans ((State.setD2_frame _ i d.toNat _).mono (by intro m h; omega))
      ((State.setD2_frame _ i (d.toNat + 1) _).mono (by intro m h; omega)) (fun _ h => h) (fun _ h => h)
  refine ⟨_, ?_, ?_, frame_of_touch hf⟩
  · refine (congrArg (concludeAccess false s) (hs.forStrands_eq _)).trans ?_
    rw [load128Strand, laneAddr_eq hb]
    simp only [hr.loadGlobal_eq (by decide) hm]
    rfl
  · intro j hj
    rw [State.getV_setD2]
    by_cases h : 2 ≤ j
    · rw [if_pos ⟨rfl, by omega⟩, show (2 * d.toNat + j) % 2 = j - 2 by omega, extractLsb'_ofNat _ (by omega),
        extractLsb'_ofNat _ (by omega), Nat.div_div_eq_div_mul, ← Nat.pow_add, show 64 + 32 * (j - 2) = 32 * j by omega]
    · rw [if_neg (by omega), State.getV_setD2, if_pos ⟨rfl, by omega⟩, show (2 * d.toNat + j) % 2 = j by omega,
        extractLsb'_ofNat _ (by omega), extractLsb'_ofNat _ (by omega), pow_zero, Nat.div_one]

/-- Settles O16: the access ends in the trace alone, and the lanes named receive what memory holds there. -/
theorem globalLoads : Obligations.GlobalLoads :=
  fun _ _ _ _ _ _ _ _ _ hs hb =>
    ⟨fun _ he hr => ⟨wordLoad_unmarked hs hb he hr, wordLoad_marked hs hb he hr⟩, ld64_spec hs hb, ld128_spec hs hb⟩

/-! ### Stores (04 R105, R114) -/

/-- What a store leaves: the bytes it names, the trace, and what memory keeps beside its bytes; it unmarks the units it fills. -/
structure StoreEnds (s t : State) (b pa n v : Nat) : Prop where
  stored : Stored s t pa n v
  rest : t = { s with mem := t.mem, stale := t.stale, writes := t.writes, oldMaps := t.oldMaps,
                      marked := markUnits s.marked pa n false, bundles := t.bundles, cores := t.cores }
  trace : LeaseTrace s t b

theorem storeEnds (s : State) (b pa n v : Nat) : StoreEnds s ((s.touch b pa).storeMarked pa n v) b pa n v where
  stored x := by
    refine (State.byte_writeLE ..).trans ?_
    rw [State.byte, ((s.touch b pa).noteWords_keeps pa n 0).1, State.touch_mem]
    rfl
  rest := by rw [State.storeMarked_rest, State.touch_rest]
  trace := (leaseTrace_touch s b pa).congr (by rw [State.storeMarked_rest]) (by rw [State.storeMarked_rest])

theorem Reach.storeGlobal_eq (h : Reach s addr n n true true pa p) (hn : 0 < n) (v : Nat) :
    s.storeGlobal i addr n v = .ok ((s.touch (strandBundle i) pa).storeMarked pa (p.room pa n) v) := by
  rw [State.storeGlobal, h.laneGlobal_eq hn]

theorem wordStores_size {e : Nat × Instr} (he : e ∈ wordStores g d a lb off) : 0 < e.1 ∧ e.1 < 16 := by
  simp only [wordStores, List.mem_cons, List.not_mem_nil, or_false] at he
  rcases he with rfl | rfl | rfl | rfl <;> simp

/-- Each store of a word, where one strand acts, is the strand's own store. -/
theorem exec_wordStore (h : OneStrand s g i) {e : Nat × Instr} (he : e ∈ wordStores g d a lb off) :
    exec e.2 s = concludeAccess false s (storeStrand e.1 d a lb off i s) := by
  simp only [wordStores, List.mem_cons, List.not_mem_nil, or_false] at he
  rcases he with rfl | rfl | rfl | rfl
  · exact congrArg (concludeAccess false s) (h.forStrands_eq _)
  · exact congrArg (concludeAccess false s) (h.forStrands_eq _)
  · exact congrArg (concludeAccess false s) (h.forStrands_eq _)
  · exact congrArg (concludeAccess false s) (h.byProfile_eq _ _)

theorem wordStore_ends (hs : OneStrand s g i) (hb : (baseOf s i a lb).poison = none) {e : Nat × Instr}
    (he : e ∈ wordStores g d a lb off) (hd : (s.laneV i d).poison = none)
    (hr : Reach s (addressOf s i a lb off) e.1 e.1 true true pa p) :
    ∃ t, exec e.2 s = .next t ∧ StoreEnds s t (strandBundle i) pa (p.room pa e.1) (s.laneV i d).val.toNat := by
  refine ⟨_, ?_, storeEnds ..⟩
  rw [exec_wordStore hs he, storeStrand, laneAddr_eq hb]
  simp only [useV_eq hd, hr.storeGlobal_eq (wordStores_size he).1]
  rfl

theorem st64_ends (hs : OneStrand s g i) (hb : (baseOf s i a lb).poison = none) (hd : (s.getD2 i d.toNat).poison = none)
    (hr : Reach s (addressOf s i a lb off) 8 8 true true pa p) :
    ∃ t, exec (.st64 g d a lb off) s = .next t ∧
      StoreEnds s t (strandBundle i) pa (p.room pa 8) (s.getD2 i d.toNat).val.toNat := by
  refine ⟨_, ?_, storeEnds ..⟩
  refine (congrArg (concludeAccess false s) (hs.forStrands_eq _)).trans ?_
  rw [store64Strand, laneAddr_eq hb]
  simp only [useD_eq hd, hr.storeGlobal_eq (by decide)]
  rfl

theorem st128_ends (hs : OneStrand s g i) (hb : (baseOf s i a lb).poison = none) (hd : (s.getD2 i d.toNat).poison = none)
    (hd' : (s.getD2 i (d.toNat + 1)).poison = none) (hr : Reach s (addressOf s i a lb off) 16 16 true true pa p) :
    ∃ t, exec (.st128 g d a lb off) s = .next t ∧ StoreEnds s t (strandBundle i) pa (p.room pa 16)
      ((s.getD2 i d.toNat).val.toNat + 2 ^ 64 * (s.getD2 i (d.toNat + 1)).val.toNat) := by
  refine ⟨_, ?_, storeEnds ..⟩
  refine (congrArg (concludeAccess false s) (hs.forStrands_eq _)).trans ?_
  rw [store128Strand, laneAddr_eq hb]
  simp only [useD_eq hd, useD_eq hd', hr.storeGlobal_eq (by decide)]
  rfl

/-- A store of less than a unit leaves the marks. -/
theorem StoreEnds.of_small {b v : Nat} (h : StoreEnds s t b pa n v) (hn : n < 16) :
    Stored s t pa n v ∧
      t = { s with mem := t.mem, stale := t.stale, writes := t.writes, oldMaps := t.oldMaps, bundles := t.bundles, cores := t.cores } ∧
      LeaseTrace s t b := by
  have hr := h.rest
  rw [markUnits_small hn] at hr
  exact ⟨h.stored, hr, h.trace⟩

/-- Settles O17: each store is the strand's own, ends as `StoreEnds` says, and unmarks only where it fills whole units. -/
theorem globalStores : Obligations.GlobalStores := by
  intro s g i d a lb off pa p hs hb
  refine ⟨fun e he hd hr => ?_, fun hd hr => ?_, fun hd hd' hr => ?_⟩
  · obtain ⟨t, ht, hk⟩ := wordStore_ends hs hb he hd hr
    exact ⟨t, ht, hk.of_small ((PageInfo.room_le ..).trans_lt (wordStores_size he).2)⟩
  · obtain ⟨t, ht, hk⟩ := st64_ends hs hb hd hr
    exact ⟨t, ht, hk.of_small ((PageInfo.room_le ..).trans_lt (by decide))⟩
  · obtain ⟨t, ht, hk⟩ := st128_ends hs hb hd hd' hr
    have hm : t.marked = markUnits s.marked pa (p.room pa 16) false := by rw [hk.rest]
    refine ⟨t, ht, hk.stored, by rw [hm]; exact hk.rest, fun u => ?_, hk.trace⟩
    rw [hm]
    exact mem_markUnits (PageInfo.room_le ..)

end Access

end Sys2Proof.Claims

namespace Sys2Proof

/-! ## Decode and encode agree (01 R11-R17, R24, R25)

The layouts of 01 R15 and R16 are said once: a word is a packing of some operands exactly where each field of the word is the operand that
stands in it. `Instr.Stands i l w x` says that `w` and `x` hold the operands of `i` in the form of length `l`. Words in which an instruction
stands read back as it; words that read as an instruction, with every unused bit zero, hold it. -/

section Encoding

/-! ### Fields of words -/

section Fields
variable {n m k w : Nat} {x : BitVec n} {y : BitVec m} {u : BitVec w}

theorem field_eq_append : u.extractLsb' k (n + m) = x ++ y ↔ u.extractLsb' (k + m) n = x ∧ u.extractLsb' k m = y := by
  rw [← BitVec.extractLsb'_append_extractLsb'_eq_extractLsb' (rfl : k + m = k + m)]
  constructor
  · intro h
    exact ⟨by simpa only [BitVec.extractLsb'_append_eq_left] using congrArg (BitVec.extractLsb' m n) h,
      by simpa only [BitVec.extractLsb'_append_eq_right] using congrArg (BitVec.extractLsb' 0 m) h⟩
  · rintro ⟨rfl, rfl⟩
    rfl

theorem eq_append {v : BitVec (n + m)} : v = x ++ y ↔ v.extractLsb' m n = x ∧ v.extractLsb' 0 m = y := by
  have h := field_eq_append (x := x) (y := y) (k := 0) (u := v)
  rwa [BitVec.extractLsb'_eq_self, Nat.zero_add] at h

theorem field_eq_ofBool {b : Bool} : u.extractLsb' k 1 = BitVec.ofBool b ↔ u.getLsbD k = b := by
  rw [BitVec.getLsbD_eq_extractLsb' u k]
  generalize u.extractLsb' k 1 = v
  revert v b
  decide

theorem field_of_field {j : Nat} (h : j + n ≤ m) : (u.extractLsb' k m).extractLsb' j n = u.extractLsb' (k + j) n := by
  ext i hi
  simp only [BitVec.getElem_extractLsb', BitVec.getLsbD_extractLsb', show j + i < m by omega, decide_true, Bool.true_and,
    Nat.add_assoc]

theorem setWidth_signExtend_low {v : BitVec n} (h : n ≤ m) : (v.signExtend m).setWidth n = v := by
  ext i hi
  rw [BitVec.getElem_setWidth, BitVec.getLsbD_signExtend, if_pos hi, BitVec.getLsbD_eq_getElem hi]
  simp [show i < m by omega]

/-! What a mask of zero bits says of a field, and of a packing. -/

theorem bit_eq_false_of_mask {z : BitVec w} (h : u &&& z = 0) (hz : z.getLsbD k = true) : u.getLsbD k = false := by
  have hk := congrArg (fun v => v.getLsbD k) h
  simpa [hz] using hk

theorem field_eq_zero_of_mask {z : BitVec w} (h : u &&& z = 0) (hz : z.extractLsb' k m = BitVec.allOnes m) :
    u.extractLsb' k m = 0 := by
  have hu := congrArg (BitVec.extractLsb' k m) h
  rw [BitVec.extractLsb'_and, hz, BitVec.and_allOnes] at hu
  simpa using hu

theorem append_and_eq_zero {z : BitVec w} : (x ++ y) &&& z.extractLsb' k (n + m) = 0#(n + m) ↔
    x &&& z.extractLsb' (k + m) n = 0#n ∧ y &&& z.extractLsb' k m = 0#m := by
  rw [← BitVec.extractLsb'_append_extractLsb'_eq_extractLsb' (rfl : k + m = k + m), BitVec.and_append,
    eq_comm (b := 0#(n + m)), eq_append, BitVec.extractLsb'_zero, BitVec.extractLsb'_zero, eq_comm, eq_comm (a := 0#m)]

theorem ofBool_and_eq_zero {b : Bool} {z : BitVec w} :
    BitVec.ofBool b &&& z.extractLsb' k 1 = 0#1 ↔ (b && z.getLsbD k) = false := by
  rw [BitVec.getLsbD_eq_extractLsb' z k]
  generalize z.extractLsb' k 1 = v
  revert v b
  decide

end Fields

/-! ### The layouts: where each operand stands (01 R11, R15, R16) -/

section Layout
variable {w x : Word}

theorem eq_packWord {s e l : Bool} {c : BitVec 3} {op : BitVec 7} {v : BitVec 19} : w = packWord s e c l op v ↔
    wordStop w = s ∧ wordRunEnd w = e ∧ wordClass w = c ∧ wordLong w = l ∧ wordOp w = op ∧ wordOperands w = v := by
  have h : w = packWord s e c l op v ↔ w.extractLsb' 0 (1 + 1 + 3 + 1 + 7 + 19) =
      BitVec.ofBool s ++ BitVec.ofBool e ++ c ++ BitVec.ofBool l ++ op ++ v := by
    rw [BitVec.extractLsb'_eq_self]; rfl
  simp only [h, field_eq_append, field_eq_ofBool, and_assoc, wordStop, wordRunEnd, wordClass, wordLong, wordOp, wordOperands]

theorem operands_eq_packA {d a b : BitVec 6} {m : Bool} : wordOperands w = packA d a b m ↔
    w.extractLsb' 13 6 = d ∧ w.extractLsb' 7 6 = a ∧ w.extractLsb' 1 6 = b ∧ w.getLsbD 0 = m := by
  change w.extractLsb' 0 (6 + 6 + 6 + 1) = d ++ a ++ b ++ BitVec.ofBool m ↔ _
  simp only [field_eq_append, field_eq_ofBool, and_assoc]

theorem operands_eq_packI {d a : BitVec 6} {v : BitVec 7} : wordOperands w = packI d a v ↔
    w.extractLsb' 13 6 = d ∧ w.extractLsb' 7 6 = a ∧ w.extractLsb' 0 7 = v := by
  change w.extractLsb' 0 (6 + 6 + 7) = d ++ a ++ v ↔ _
  simp only [field_eq_append, and_assoc]

theorem operands_eq_packC {kind n : Bool} {c : BitVec 6} {v : BitVec 11} : wordOperands w = packC kind c n v ↔
    w.getLsbD 18 = kind ∧ w.extractLsb' 12 6 = c ∧ w.getLsbD 11 = n ∧ w.extractLsb' 0 11 = v := by
  change w.extractLsb' 0 (1 + 6 + 1 + 11) = BitVec.ofBool kind ++ c ++ BitVec.ofBool n ++ v ↔ _
  simp only [field_eq_append, field_eq_ofBool, and_assoc]

theorem operands_eq_packD {d a : BitVec 6} {lb : Bool} {v : BitVec 6} : wordOperands w = packD d a lb v ↔
    w.extractLsb' 13 6 = d ∧ w.extractLsb' 7 6 = a ∧ w.getLsbD 6 = lb ∧ w.extractLsb' 0 6 = v := by
  change w.extractLsb' 0 (6 + 6 + 1 + 6) = d ++ a ++ BitVec.ofBool lb ++ v ↔ _
  simp only [field_eq_append, field_eq_ofBool, and_assoc]

theorem operands_eq_packE {reg : BitVec 12} {s : BitVec 6} : wordOperands w = packE reg s ↔
    w.extractLsb' 7 12 = reg ∧ w.extractLsb' 1 6 = s ∧ w.extractLsb' 0 1 = 0 := by
  change w.extractLsb' 0 (12 + 6 + 1) = reg ++ s ++ (0 : BitVec 1) ↔ _
  simp only [field_eq_append, and_assoc]

theorem operands_eq_packV {d a b : BitVec 5} {k : BitVec 3} {m : Bool} : wordOperands w = packV d a b k m ↔
    w.extractLsb' 14 5 = d ∧ w.extractLsb' 9 5 = a ∧ w.extractLsb' 4 5 = b ∧ w.extractLsb' 1 3 = k ∧ w.getLsbD 0 = m := by
  change w.extractLsb' 0 (5 + 5 + 5 + 3 + 1) = d ++ a ++ b ++ k ++ BitVec.ofBool m ↔ _
  simp only [field_eq_append, field_eq_ofBool, and_assoc]

theorem operands_eq_packM {row1 : BitVec 9} {col1 : BitVec 5} {pr sat sa sb : Bool} :
    wordOperands w = packM row1 col1 pr sat sa sb ↔ w.extractLsb' 10 9 = row1 ∧ w.extractLsb' 5 5 = col1 ∧ w.getLsbD 4 = pr ∧
      w.getLsbD 3 = sat ∧ w.getLsbD 2 = sa ∧ w.getLsbD 1 = sb ∧ w.extractLsb' 0 1 = 0 := by
  change w.extractLsb' 0 (9 + 5 + 1 + 1 + 1 + 1 + 1) =
    row1 ++ col1 ++ BitVec.ofBool pr ++ BitVec.ofBool sat ++ BitVec.ofBool sa ++ BitVec.ofBool sb ++ (0 : BitVec 1) ↔ _
  simp only [field_eq_append, field_eq_ofBool, and_assoc]

theorem eq_packGuard {g : Guard} {hi : BitVec 25} :
    x = packGuard g hi ↔ guardOf true x = g ∧ x.extractLsb' 25 3 = 0 ∧ x.extractLsb' 0 25 = hi := by
  obtain ⟨pg, neg⟩ := g
  have h : x = packGuard ⟨pg, neg⟩ hi ↔ x.extractLsb' 0 (3 + 1 + 3 + 25) = pg ++ BitVec.ofBool neg ++ (0 : BitVec 3) ++ hi := by
    rw [BitVec.extractLsb'_eq_self]; rfl
  simp only [h, field_eq_append, field_eq_ofBool, and_assoc, guardOf, if_true, Guard.mk.injEq]

theorem field_eq_packT {sc : BitVec 3} {ord : BitVec 2} {un : Bool} {off : BitVec 19} :
    x.extractLsb' 0 25 = packT sc ord un off ↔ scopeOf true x = sc ∧ orderOf true x = ord ∧ unOf true x = un ∧ offT true x = off := by
  change x.extractLsb' 0 (3 + 2 + 1 + 19) = sc ++ ord ++ BitVec.ofBool un ++ off ↔ _
  simp only [field_eq_append, field_eq_ofBool, and_assoc, scopeOf, orderOf, unOf, offT, if_true]

theorem eq_packMX {row2 : BitVec 9} {col2 : BitVec 5} {aux : BitVec 6} {t : MatTail} : x = packMX row2 col2 aux t ↔
    x.extractLsb' 23 9 = row2 ∧ x.extractLsb' 18 5 = col2 ∧ x.extractLsb' 12 6 = aux ∧ matTailOf x = t := by
  obtain ⟨te, tok, wm⟩ := t
  have h : x = packMX row2 col2 aux ⟨te, tok, wm⟩ ↔
      x.extractLsb' 0 (9 + 5 + 6 + 1 + 3 + 8) = row2 ++ col2 ++ aux ++ BitVec.ofBool te ++ tok ++ wm := by
    rw [BitVec.extractLsb'_eq_self]; rfl
  simp only [h, field_eq_append, field_eq_ofBool, and_assoc, matTailOf, MatTail.mk.injEq]

theorem eq_packYX {t : CopyTail} {aux : BitVec 13} : x = packYX t aux ↔ x.extractLsb' 12 13 = aux ∧ copyTailOf x = t := by
  obtain ⟨bead, bs, te, tok, wm⟩ := t
  have h : x = packYX ⟨bead, bs, te, tok, wm⟩ aux ↔ x.extractLsb' 0 (6 + 1 + 13 + 1 + 3 + 8) =
      bead ++ BitVec.ofBool bs ++ aux ++ BitVec.ofBool te ++ tok ++ wm := by
    rw [BitVec.extractLsb'_eq_self]; rfl
  simp only [h, field_eq_append, field_eq_ofBool, copyTailOf, CopyTail.mk.injEq]
  tauto

/-- LOOPI's count stands in both register fields of Format I (01 R16). -/
theorem operands_eq_packI_count {cnt : BitVec 12} {v : BitVec 7} :
    wordOperands w = packI (cnt.extractLsb' 6 6) (cnt.extractLsb' 0 6) v ↔ w.extractLsb' 7 12 = cnt ∧ w.extractLsb' 0 7 = v := by
  rw [operands_eq_packI, ← and_assoc]
  refine and_congr_left' ((field_eq_append (n := 6) (m := 6) (k := 7)).symm.trans ?_)
  rw [BitVec.extractLsb'_append_extractLsb']

end Layout

/-! ### What the short form can hold (01 R16) -/

section Short
variable {l : Bool} {w x : Word} {imm : BitVec 32} {g : Guard}

theorem immShort_iff : immShort imm = true ↔ (imm.setWidth 7).signExtend 32 = imm := beq_iff_eq
theorem offShort_iff {n : Nat} : offShort n imm = true ↔ (imm.setWidth n).signExtend 32 = imm := beq_iff_eq
theorem offDShort_iff {off : BitVec 31} : offDShort off = true ↔ (off.setWidth 6).signExtend 31 = off := beq_iff_eq

theorem Guard.absent_iff : g.absent = true ↔ g = ⟨0, false⟩ := by
  obtain ⟨pg, neg⟩ := g
  simp [Guard.absent]

theorem shortT_iff {sc : BitVec 3} {ord : BitVec 2} {un : Bool} {off : BitVec 19} :
    shortT sc ord un off = true ↔ sc = 4 ∧ ord = 0 ∧ un = false ∧ off = 0 := by
  simp [shortT, and_assoc]

end Short

/-- The words `w` and `x` hold the operands of `i` in its form of length `l`; a short form has no second word, and must fit. -/
structure Instr.Stands (i : Instr) (l : Bool) (w x : Word) : Prop where
  operands : wordOperands w = i.operands l
  extension : if l = true then x = i.extension else i.fitsShort = true

/-! ### Reading an immediate, a guard or a tail where it stands -/

section Read
variable {l : Bool} {w x : Word} {imm : BitVec 32} {off : BitVec 31} {g : Guard}

theorem immPlain_eq (hw : w.extractLsb' 0 7 = shortPlain 7 l imm) (hx : if l = true then x = imm else immShort imm = true) :
    immPlain l w x = imm := by
  cases l
  · exact (congrArg (BitVec.signExtend 32) hw).trans (immShort_iff.mp hx)
  · exact hx

theorem offC_eq (hw : w.extractLsb' 0 11 = shortPlain 11 l imm) (hx : if l = true then x = imm else offShort 11 imm = true) :
    offC l w x = imm := by
  cases l
  · exact (congrArg (BitVec.signExtend 32) hw).trans (offShort_iff.mp hx)
  · exact hx

theorem offB_eq (hw : wordOperands w = shortPlain 19 l imm) (hx : if l = true then x = imm else offShort 19 imm = true) :
    offB l w x = imm := by
  cases l
  · exact (congrArg (BitVec.signExtend 32) hw).trans (offShort_iff.mp hx)
  · exact hx

theorem guardOf_eq {hi : BitVec 25} (hx : if l = true then x = packGuard g hi else g.absent = true) : guardOf l x = g := by
  cases l
  · exact (Guard.absent_iff.mp hx).symm
  · exact (eq_packGuard.mp hx).1

theorem immGuarded_eq (hw : w.extractLsb' 0 7 = imm.extractLsb' 0 7)
    (hx : if l = true then x = packGuard g (imm.extractLsb' 7 25) else (g.absent && immShort imm) = true) :
    guardOf l x = g ∧ immGuarded l w x = imm := by
  cases l
  · obtain ⟨hg, hs⟩ := Bool.and_eq_true_iff.mp hx
    refine ⟨guardOf_eq (hi := 0) hg, Eq.trans (congrArg (BitVec.signExtend 32) hw) ?_⟩
    rw [← BitVec.setWidth_eq_extractLsb' (by decide)]
    exact immShort_iff.mp hs
  · obtain ⟨hg, -, hi⟩ := eq_packGuard.mp hx
    refine ⟨hg, Eq.trans (congrArg₂ HAppend.hAppend hi hw) ?_⟩
    exact BitVec.extractLsb'_append_extractLsb'

theorem offD_eq (hw : w.extractLsb' 0 6 = off.extractLsb' 0 6)
    (hx : if l = true then x = packGuard g (off.extractLsb' 6 25) else (g.absent && offDShort off) = true) :
    guardOf l x = g ∧ offD l w x = off := by
  cases l
  · obtain ⟨hg, hs⟩ := Bool.and_eq_true_iff.mp hx
    refine ⟨guardOf_eq (hi := 0) hg, Eq.trans (congrArg (BitVec.signExtend 31) hw) ?_⟩
    rw [← BitVec.setWidth_eq_extractLsb' (by decide)]
    exact offDShort_iff.mp hs
  · obtain ⟨hg, -, hi⟩ := eq_packGuard.mp hx
    refine ⟨hg, Eq.trans (congrArg₂ HAppend.hAppend hi hw) ?_⟩
    exact BitVec.extractLsb'_append_extractLsb'

theorem formatT_eq {sc : BitVec 3} {ord : BitVec 2} {un : Bool} {off : BitVec 19}
    (hx : if l = true then x = packGuard g (packT sc ord un off) else (g.absent && shortT sc ord un off) = true) :
    guardOf l x = g ∧ scopeOf l x = sc ∧ orderOf l x = ord ∧ unOf l x = un ∧ offT l x = off := by
  cases l
  · obtain ⟨hg, hs⟩ := Bool.and_eq_true_iff.mp hx
    obtain ⟨rfl, rfl, rfl, rfl⟩ := shortT_iff.mp hs
    exact ⟨guardOf_eq (hi := 0) hg, rfl, rfl, rfl, rfl⟩
  · obtain ⟨hg, -, hi⟩ := eq_packGuard.mp hx
    exact ⟨hg, field_eq_packT.mp hi⟩

/-- MAT and CPY have no short form. -/
theorem extension_of_tail {P : Prop} (hx : if l = true then P else false = true) : P := by
  cases l
  · cases hx
  · exact hx

end Read

/-- Words in which an instruction stands read as that instruction: format by format, the fields of the words are its operands. -/
theorem buildInstr_of_stands {i : Instr} {c : BitVec 3} {op : BitVec 7} {l : Bool} {w x : Word} (hc : i.code = some (c, op))
    (h : i.Stands l w x) : buildInstr c op l w x = some i := by
  obtain ⟨hw, hx⟩ := h
  cases i with
  -- Format A without a guard
  | nop | brx | ret | waitt | fenceI | chk | exit | yield | launch | reca | remit | rdone | millCfg | millEnter | millExit |
    govq | govr | add | sub | mul | mulhI | mulhN | divI | divN | remI | remN | and | or | xor | shl | shrI | shrN | rot |
    minI | minN | maxI | maxN | abs | neg | cmp | sel | mov | lea | popc | clz | ctz | bfxI | bfxN | bfi | brev | mad |
    addsI | addsN | subsI | subsN | time =>
    cases hc
    change some _ = some _
    have h := operands_eq_packA.mp hw
    simp only [h]
  -- Format A without a guard, with operands of less than a field
  | voteAny | voteAll | fsend | fsendNb | ftake | cmpp =>
    cases hc
    change some _ = some _
    have h := operands_eq_packA.mp hw
    simp only [field_eq_append (n := 3) (m := 3), field_eq_append (n := 2) (m := 4)] at h
    simp only [h]
  -- Format B
  | bra | call | region =>
    cases hc
    change some _ = some _
    simp only [offB_eq hw hx]
  -- Format C
  | brac =>
    cases hc
    change some _ = some _
    obtain ⟨hk, ha, hn, hv⟩ := operands_eq_packC.mp hw
    simp only [hk, ha, hn, offC_eq hv hx]
  -- Format I without a guard
  | loop | barCrew | barGrove | barArrive | barWait | wait | fence | fencePromote | trap | lease | split | bkpt | addi |
    andi | ori | xori | movi | movh | mbx | wid =>
    cases hc
    change some _ = some _
    obtain ⟨hd, ha, hv⟩ := operands_eq_packI.mp hw
    simp only [hd, ha, immPlain_eq hv hx]
  | loopi =>
    cases hc
    change some _ = some _
    obtain ⟨hn, hv⟩ := operands_eq_packI_count.mp hw
    simp only [hn, immPlain_eq hv hx]
  -- Format E
  | sread | swrite =>
    cases hc
    change some _ = some _
    have h := operands_eq_packE.mp hw
    simp only [h]
  -- Format V
  | vadd | vsub | vmul | vfma | vmin | vmax | vabs | vneg | vcmp | vsel | vand | vor | vxor | vshl | vshrI | vshrN | vmov |
    vbcast | vrcp | vrsq | vexp2 | vlog2 | vtbli | vrmax | vradd | vamax | vqnt | vdqnt | vcvt | vperm | vslide | vpush |
    vpushs | vshape | vrot | vscale | vrnd | vsqrt | vmadI | vsat | vpsum | vclamp | vfrac | vcbk =>
    cases hc
    change some _ = some _
    have h := operands_eq_packV.mp hw
    simp only [h]
  -- Format V, with operands of less than a field
  | vtbll | vpop | vpopk | vkmov =>
    cases hc
    change some _ = some _
    have h := operands_eq_packV.mp hw
    simp only [field_eq_append (n := 2) (m := 3), field_eq_append (n := 3) (m := 2)] at h
    simp only [h]
  -- Format A with a guard
  | iadd | isub | imul | imad | imulhI | imulhN | iminI | iminN | imaxI | imaxN | iand | ior | ixor | ishl | ishrI | ishrN |
    ibfxI | ibfxN | ibfi | ipopc | iclz | isel | imov | idot4I8 | idot4N8 | faddF32 | fmulF32 | ffmaF32 | fminF32 | fmaxF32
    | frcp | frsq | fsqrt | fexp2 | flog2 | fsin | fcos | faddH2 | fmulH2 | ffmaH2 | faddB2 | fmulB2 | ffmaB2 | cvtF32I32 |
    cvtF32N32 | cvtF32H2 | cvtH2F32 | cvtF32B2 | cvtB2F32 | shflIdx | shflXor | s2v | v2s | probe | cwb | cinv | icinv |
    invRo | meshOut | meshPrim | meshDone | pixBary | pixDiscard | omDepth | guideOut | texSample | texLod | texGrad |
    texFetch | texGather4 | rayBox | rayTri | rayInit | rayXform | rayStkPush | rayStkPop | rayHit =>
    cases hc
    change some _ = some _
    have h := operands_eq_packA.mp hw
    simp only [h, guardOf_eq hx]
  -- Format A with a guard, with operands of less than a field
  | icmp | fcmpF32 | frndF32 | cvtI32F32 | cvtN32F32 | cvtF32E4m3 | cvtE4m3F32 | cvtF32E5m2 | cvtE5m2F32 =>
    cases hc
    change some _ = some _
    have h := operands_eq_packA.mp hw
    simp only [field_eq_append (n := 3) (m := 3), field_eq_append (n := 4) (m := 2)] at h
    simp only [h, guardOf_eq hx]
  -- Format I with a guard
  | iaddi | imovi | rastBind | pixIn | omWrite | texQuery | quadSwz | quadDeriv =>
    cases hc
    change some _ = some _
    obtain ⟨hd, ha, hv⟩ := operands_eq_packI.mp hw
    simp only [hd, ha, immGuarded_eq hv hx]
  -- Format D
  | ld8 | ld16 | ld32 | ld64 | ld128 | ldx | ldro | st8 | st16 | st32 | st64 | st128 | stx | lds | sts | ldq | stq | lda |
    sta | tagset | tagget | pres | ldS | imgLd | imgSt =>
    cases hc
    change some _ = some _
    obtain ⟨hd, ha, hb, hv⟩ := operands_eq_packD.mp hw
    simp only [hd, ha, hb, offD_eq hv hx]
  -- Format T
  | atomAdd | atomMin | atomMax | atomAnd | atomOr | atomXor | atomXchg | atomCas | atomFadd | atomsAdd | atomsCas | atomInc
    =>
    cases hc
    change some _ = some _
    have h := operands_eq_packA.mp hw
    simp only [h, formatT_eq hx]
  -- Format M
  | mmaBf16 | mmaF16 | mmaE4m3 | mmaE5m2 | mmaI8 | mmaI4 | mscale | mtest | mfence | mfree =>
    cases hc
    change some _ = some _
    have h := operands_eq_packM.mp hw
    have hx := eq_packMX.mp (extension_of_tail hx)
    simp only [h, hx]
  -- Format M, with an auxiliary field
  | mldb | mmaMx8 | mmaMx6 | mmaMx4 | mmasMx4 | mmasMx8 | mmvMx4 | mmvMx8 | mmvBf16 | mzero | mcvt | mcbk | mtrn | mpair =>
    cases hc
    change some _ = some _
    have h := operands_eq_packM.mp hw
    have hx := eq_packMX.mp (extension_of_tail hx)
    simp only [field_eq_append (n := 5) (m := 1), field_eq_append (n := 4) (m := 2), field_eq_append (n := 2) (m := 4),
      field_eq_append (n := 1) (m := 5), field_eq_ofBool] at hx
    simp only [h, hx]
  -- Format Y
  | cpyLin | cpyMc | cpyCol | cpyFill | publish | shadow | semSig | semWait | semTry | semSet | semRead | tokq | guideBind |
    linkSend | linkRecv | cpyAbort | cpyHost =>
    cases hc
    change some _ = some _
    have h := operands_eq_packA.mp hw
    have hx := eq_packYX.mp (extension_of_tail hx)
    simp only [h, hx]
  -- Format Y, with an auxiliary field
  | cpyTen | cpyWb | cpyTs | cpyFeed | push | shape | mapSet | mapClr | cpyRed | cpyGath | cpyScat =>
    cases hc
    change some _ = some _
    have h := operands_eq_packA.mp hw
    have hx := eq_packYX.mp (extension_of_tail hx)
    simp only [field_eq_append (n := 11) (m := 2), field_eq_append (n := 10) (m := 3), field_eq_append (n := 9) (m := 4),
      field_eq_append (n := 5) (m := 8), field_eq_append (n := 6 + 2) (m := 5), field_eq_append (n := 6) (m := 2)] at hx
    simp only [h, hx]
  | _ => cases hc

/-! ### The unused bits (01 R17) -/

section Unused
variable {z : BitVec 19} {u : Word}

theorem packA_and_eq_zero {d a b : BitVec 6} {m : Bool} : packA d a b m &&& z = 0#19 ↔
    d &&& z.extractLsb' 13 6 = 0#6 ∧ a &&& z.extractLsb' 7 6 = 0#6 ∧ b &&& z.extractLsb' 1 6 = 0#6 ∧
      (m && z.getLsbD 0) = false := by
  have h : packA d a b m &&& z = 0#19 ↔
      (d ++ a ++ b ++ BitVec.ofBool m) &&& z.extractLsb' 0 (6 + 6 + 6 + 1) = 0#(6 + 6 + 6 + 1) := by
    rw [BitVec.extractLsb'_eq_self]; rfl
  simp only [h, append_and_eq_zero, ofBool_and_eq_zero, and_assoc]

theorem packI_and_eq_zero {d a : BitVec 6} {v : BitVec 7} : packI d a v &&& z = 0#19 ↔
    d &&& z.extractLsb' 13 6 = 0#6 ∧ a &&& z.extractLsb' 7 6 = 0#6 ∧ v &&& z.extractLsb' 0 7 = 0#7 := by
  have h : packI d a v &&& z = 0#19 ↔
      (d ++ a ++ v) &&& z.extractLsb' 0 (6 + 6 + 7) = 0#(6 + 6 + 7) := by
    rw [BitVec.extractLsb'_eq_self]; rfl
  simp only [h, append_and_eq_zero, and_assoc]

theorem packD_and_eq_zero {d a : BitVec 6} {lb : Bool} {v : BitVec 6} : packD d a lb v &&& z = 0#19 ↔
    d &&& z.extractLsb' 13 6 = 0#6 ∧ a &&& z.extractLsb' 7 6 = 0#6 ∧ (lb && z.getLsbD 6) = false ∧
      v &&& z.extractLsb' 0 6 = 0#6 := by
  have h : packD d a lb v &&& z = 0#19 ↔
      (d ++ a ++ BitVec.ofBool lb ++ v) &&& z.extractLsb' 0 (6 + 6 + 1 + 6) = 0#(6 + 6 + 1 + 6) := by
    rw [BitVec.extractLsb'_eq_self]; rfl
  simp only [h, append_and_eq_zero, ofBool_and_eq_zero, and_assoc]

theorem packE_and_eq_zero {reg : BitVec 12} {s : BitVec 6} : packE reg s &&& z = 0#19 ↔
    reg &&& z.extractLsb' 7 12 = 0#12 ∧ s &&& z.extractLsb' 1 6 = 0#6 ∧ (0 : BitVec 1) &&& z.extractLsb' 0 1 = 0#1 := by
  have h : packE reg s &&& z = 0#19 ↔
      (reg ++ s ++ (0 : BitVec 1)) &&& z.extractLsb' 0 (12 + 6 + 1) = 0#(12 + 6 + 1) := by
    rw [BitVec.extractLsb'_eq_self]; rfl
  simp only [h, append_and_eq_zero, and_assoc]

theorem packV_and_eq_zero {d a b : BitVec 5} {k : BitVec 3} {m : Bool} : packV d a b k m &&& z = 0#19 ↔
    d &&& z.extractLsb' 14 5 = 0#5 ∧ a &&& z.extractLsb' 9 5 = 0#5 ∧ b &&& z.extractLsb' 4 5 = 0#5 ∧
      k &&& z.extractLsb' 1 3 = 0#3 ∧ (m && z.getLsbD 0) = false := by
  have h : packV d a b k m &&& z = 0#19 ↔
      (d ++ a ++ b ++ k ++ BitVec.ofBool m) &&& z.extractLsb' 0 (5 + 5 + 5 + 3 + 1) = 0#(5 + 5 + 5 + 3 + 1) := by
    rw [BitVec.extractLsb'_eq_self]; rfl
  simp only [h, append_and_eq_zero, ofBool_and_eq_zero, and_assoc]

theorem packM_and_eq_zero {row1 : BitVec 9} {col1 : BitVec 5} {pr sat sa sb : Bool} : packM row1 col1 pr sat sa sb &&& z = 0#19 ↔
    row1 &&& z.extractLsb' 10 9 = 0#9 ∧ col1 &&& z.extractLsb' 5 5 = 0#5 ∧ (pr && z.getLsbD 4) = false ∧
      (sat && z.getLsbD 3) = false ∧ (sa && z.getLsbD 2) = false ∧ (sb && z.getLsbD 1) = false ∧
      (0 : BitVec 1) &&& z.extractLsb' 0 1 = 0#1 := by
  have h : packM row1 col1 pr sat sa sb &&& z = 0#19 ↔
      (row1 ++ col1 ++ BitVec.ofBool pr ++ BitVec.ofBool sat ++ BitVec.ofBool sa ++ BitVec.ofBool sb ++ (0 : BitVec 1)) &&&
        z.extractLsb' 0 (9 + 5 + 1 + 1 + 1 + 1 + 1) = 0#(9 + 5 + 1 + 1 + 1 + 1 + 1) := by
    rw [BitVec.extractLsb'_eq_self]; rfl
  simp only [h, append_and_eq_zero, ofBool_and_eq_zero, and_assoc]

theorem packGuard_and_eq_zero {g : Guard} {hi : BitVec 25} : packGuard g hi &&& u = 0#32 ↔
    g.pg &&& u.extractLsb' 29 3 = 0#3 ∧ (g.neg && u.getLsbD 28) = false ∧ (0 : BitVec 3) &&& u.extractLsb' 25 3 = 0#3 ∧
      hi &&& u.extractLsb' 0 25 = 0#25 := by
  have h : packGuard g hi &&& u = 0#32 ↔
      (g.pg ++ BitVec.ofBool g.neg ++ (0 : BitVec 3) ++ hi) &&& u.extractLsb' 0 (3 + 1 + 3 + 25) = 0#(3 + 1 + 3 + 25) := by
    rw [BitVec.extractLsb'_eq_self]; rfl
  simp only [h, append_and_eq_zero, ofBool_and_eq_zero, and_assoc]

theorem packMX_and_eq_zero {row2 : BitVec 9} {col2 : BitVec 5} {aux : BitVec 6} {t : MatTail} :
    packMX row2 col2 aux t &&& u = 0#32 ↔
    row2 &&& u.extractLsb' 23 9 = 0#9 ∧ col2 &&& u.extractLsb' 18 5 = 0#5 ∧ aux &&& u.extractLsb' 12 6 = 0#6 ∧
      (t.te && u.getLsbD 11) = false ∧ t.tok &&& u.extractLsb' 8 3 = 0#3 ∧ t.wm &&& u.extractLsb' 0 8 = 0#8 := by
  have h : packMX row2 col2 aux t &&& u = 0#32 ↔
      (row2 ++ col2 ++ aux ++ BitVec.ofBool t.te ++ t.tok ++ t.wm) &&&
        u.extractLsb' 0 (9 + 5 + 6 + 1 + 3 + 8) = 0#(9 + 5 + 6 + 1 + 3 + 8) := by
    rw [BitVec.extractLsb'_eq_self]; rfl
  simp only [h, append_and_eq_zero, ofBool_and_eq_zero, and_assoc]

theorem packYX_and_eq_zero {t : CopyTail} {aux : BitVec 13} : packYX t aux &&& u = 0#32 ↔
    t.bead &&& u.extractLsb' 26 6 = 0#6 ∧ (t.bs && u.getLsbD 25) = false ∧ aux &&& u.extractLsb' 12 13 = 0#13 ∧
      (t.te && u.getLsbD 11) = false ∧ t.tok &&& u.extractLsb' 8 3 = 0#3 ∧ t.wm &&& u.extractLsb' 0 8 = 0#8 := by
  have h : packYX t aux &&& u = 0#32 ↔
      (t.bead ++ BitVec.ofBool t.bs ++ aux ++ BitVec.ofBool t.te ++ t.tok ++ t.wm) &&&
        u.extractLsb' 0 (6 + 1 + 13 + 1 + 3 + 8) = 0#(6 + 1 + 13 + 1 + 3 + 8) := by
    rw [BitVec.extractLsb'_eq_self]; rfl
  simp only [h, append_and_eq_zero, ofBool_and_eq_zero, and_assoc]

end Unused

/-- The operand field of an instruction is zero in every bit that its opcode does not use. -/
theorem operands_unused_zero {i : Instr} {c : BitVec 3} {op : BitVec 7} {r : OpRow} (hc : i.code = some (c, op)) (hr : opRow c op = some r)
    (l : Bool) : i.operands l &&& r.zero = 0#19 := by
  cases i <;> cases hc <;> cases hr
  all_goals
    unfold Instr.operands
    simp only [packA_and_eq_zero, packI_and_eq_zero, packD_and_eq_zero, packE_and_eq_zero, packV_and_eq_zero,
      packM_and_eq_zero, BitVec.reduceExtractLsb', BitVec.reduceGetLsb, BitVec.ofNat_eq_ofNat, BitVec.and_zero, BitVec.zero_and,
      Bool.and_false, Bool.false_and, and_true, true_and]
  all_goals decide +revert

/-- The extension of an instruction is zero in every bit that its opcode does not use. -/
theorem extension_unused_zero {i : Instr} {c : BitVec 3} {op : BitVec 7} {r : OpRow} (hc : i.code = some (c, op)) (hr : opRow c op = some r) :
    i.extension &&& r.zeroExt = 0#32 := by
  cases i <;> cases hc <;> cases hr
  all_goals
    unfold Instr.extension
    simp only [packGuard_and_eq_zero, packMX_and_eq_zero, packYX_and_eq_zero, BitVec.reduceExtractLsb', BitVec.reduceGetLsb,
      BitVec.ofNat_eq_ofNat, BitVec.and_zero, BitVec.zero_and, Bool.and_false, and_true, true_and]
  all_goals decide +revert

/-! ### Words that read as an instruction hold it -/

theorem code_of_buildInstr {i : Instr} {c : BitVec 3} {op : BitVec 7} {l : Bool} {w x : Word} (hb : buildInstr c op l w x = some i) :
    i.code = some (c, op) := by
  have hc : c = 0 ∨ c = 1 ∨ c = 2 ∨ c = 3 ∨ c = 4 ∨ c = 5 ∨ c = 6 ∨ c = 7 := by
    clear hb
    revert c
    decide
  unfold buildInstr at hb
  generalize hn : op.toNat = n at hb
  obtain rfl : op = BitVec.ofNat 7 n := by rw [← hn]; simp
  rcases hc with rfl | rfl | rfl | rfl | rfl | rfl | rfl | rfl
  on_goal 1 => change buildCtl n l w x = some i at hb; unfold buildCtl at hb
  on_goal 2 => change buildScl n l w x = some i at hb; unfold buildScl at hb
  on_goal 3 => change buildLan n l w x = some i at hb; unfold buildLan at hb
  on_goal 4 => change buildVec n l w x = some i at hb; unfold buildVec at hb
  on_goal 5 => change buildMat n l w x = some i at hb; unfold buildMat at hb
  on_goal 6 => change buildMem n l w x = some i at hb; unfold buildMem at hb
  on_goal 7 => change buildCpy n l w x = some i at hb; unfold buildCpy at hb
  on_goal 8 => change buildGfx n l w x = some i at hb; unfold buildGfx at hb
  all_goals split at hb <;> cases hb <;> rfl

section Zero
variable {l : Bool} {w x : Word}

theorem operands_bit_eq_false {z : BitVec 19} (h : wordOperands w &&& z = 0) {k : Nat} (hz : z.getLsbD k = true) :
    w.getLsbD k = false := by
  simpa [wordOperands, BitVec.lt_of_getLsbD hz] using bit_eq_false_of_mask h hz

theorem operands_field_eq_zero {z : BitVec 19} (h : wordOperands w &&& z = 0) {k m : Nat} (hk : k + m ≤ 19)
    (hz : z.extractLsb' k m = BitVec.allOnes m) : w.extractLsb' k m = 0 := by
  rw [← BitVec.extractLsb'_extractLsb'_of_le (len' := 19) hk]
  exact field_eq_zero_of_mask h hz

theorem immPlain_short (hs : l = true → w.extractLsb' 0 7 = 0) : shortPlain 7 l (immPlain l w x) = w.extractLsb' 0 7 := by
  cases l
  · exact setWidth_signExtend_low (by decide : 7 ≤ 32)
  · exact (hs rfl).symm

theorem offC_short (hs : l = true → w.extractLsb' 0 11 = 0) : shortPlain 11 l (offC l w x) = w.extractLsb' 0 11 := by
  cases l
  · exact setWidth_signExtend_low (by decide : 11 ≤ 32)
  · exact (hs rfl).symm

theorem offB_short (hs : l = true → wordOperands w = 0) : shortPlain 19 l (offB l w x) = wordOperands w := by
  cases l
  · exact setWidth_signExtend_low (by decide : 19 ≤ 32)
  · exact (hs rfl).symm

theorem immGuarded_low : (immGuarded l w x).extractLsb' 0 7 = w.extractLsb' 0 7 := by
  cases l
  · exact (BitVec.setWidth_eq_extractLsb' (by decide)).symm.trans (setWidth_signExtend_low (by decide))
  · exact BitVec.extractLsb'_append_eq_right

theorem offD_low : (offD l w x).extractLsb' 0 6 = w.extractLsb' 0 6 := by
  cases l
  · exact (BitVec.setWidth_eq_extractLsb' (by decide)).symm.trans (setWidth_signExtend_low (by decide))
  · exact BitVec.extractLsb'_append_eq_right

theorem immGuarded_high : (immGuarded true w x).extractLsb' 7 25 = x.extractLsb' 0 25 := BitVec.extractLsb'_append_eq_left
theorem offD_high : (offD true w x).extractLsb' 6 25 = x.extractLsb' 0 25 := BitVec.extractLsb'_append_eq_left

end Zero

/-- Under a plain extension the short field of a format is zero (01 R15). -/
def OpRow.shortClear (r : OpRow) (w : Word) : Prop :=
  match r.format with
  | .fmtI => w.extractLsb' 0 7 = 0
  | .fmtB => wordOperands w = 0
  | .fmtC => w.extractLsb' 0 11 = 0
  | _ => True

theorem operands_of_buildInstr {i : Instr} {c : BitVec 3} {op : BitVec 7} {r : OpRow} {l : Bool} {w x : Word}
    (hc : i.code = some (c, op)) (hr : opRow c op = some r) (hb : buildInstr c op l w x = some i)
    (hz : wordOperands w &&& r.zero = 0) (hs : l = true → classGuarded c = false → r.shortClear w) :
    wordOperands w = i.operands l := by
  cases i <;> cases hc <;> cases hr <;> cases hb
  all_goals
    unfold Instr.operands
    simp (disch := decide) only [operands_eq_packA, operands_eq_packI, operands_eq_packC, operands_eq_packD, operands_eq_packE,
      operands_eq_packV, operands_eq_packM, operands_field_eq_zero hz, operands_bit_eq_false hz, field_of_field, Nat.reduceAdd,
      field_eq_append (n := 3) (m := 3), field_eq_append (n := 2) (m := 4), field_eq_append (n := 4) (m := 2),
      field_eq_append (n := 2) (m := 3), field_eq_append (n := 3) (m := 2), immGuarded_low, offD_low, and_self, true_and]
  case bra | call | region => exact (offB_short fun h => hs h rfl).symm
  case brac => exact (offC_short fun h => hs h rfl).symm
  all_goals exact (immPlain_short fun h => hs h rfl).symm

theorem immShort_signExtend {v : BitVec 7} : immShort (v.signExtend 32) = true :=
  immShort_iff.mpr (congrArg _ (setWidth_signExtend_low (by decide)))

theorem offShort_signExtend {n : Nat} {v : BitVec n} (h : n ≤ 32) : offShort n (v.signExtend 32) = true :=
  offShort_iff.mpr (congrArg _ (setWidth_signExtend_low h))

theorem offDShort_signExtend {v : BitVec 6} : offDShort (v.signExtend 31) = true :=
  offDShort_iff.mpr (congrArg _ (setWidth_signExtend_low (by decide)))

theorem fitsShort_of_buildInstr {i : Instr} {c : BitVec 3} {op : BitVec 7} {r : OpRow} {w x : Word}
    (hc : i.code = some (c, op)) (hr : opRow c op = some r) (hl : lengthOk c r.format false = true)
    (hb : buildInstr c op false w x = some i) : i.fitsShort = true := by
  cases i with
  | bra | call | region => cases hc; cases hb; exact offShort_signExtend (by decide : 19 ≤ 32)
  | brac => cases hc; cases hb; exact offShort_signExtend (by decide : 11 ≤ 32)
  | loop | loopi | barCrew | barGrove | barArrive | barWait | wait | fence | fencePromote | trap | lease | split | bkpt | addi | andi |
    ori | xori | movi | movh | mbx | wid | iaddi | imovi | rastBind | pixIn | omWrite | texQuery | quadSwz | quadDeriv =>
    cases hc; cases hb; exact immShort_signExtend
  | ld8 | ld16 | ld32 | ld64 | ld128 | ldx | ldro | st8 | st16 | st32 | st64 | st128 | stx | lds | sts | ldq | stq | lda | sta | tagset |
    tagget | pres | ldS | imgLd | imgSt =>
    cases hc; cases hb; exact offDShort_signExtend
  | _ => cases hc <;> cases hr <;> cases hl <;> cases hb <;> rfl

theorem extension_of_buildInstr {i : Instr} {c : BitVec 3} {op : BitVec 7} {r : OpRow} {w x : Word}
    (hc : i.code = some (c, op)) (hr : opRow c op = some r) (hl : lengthOk c r.format true = true)
    (hb : buildInstr c op true w x = some i) (hz : x &&& r.zeroExt = 0) : x = i.extension := by
  cases i <;> cases hc <;> cases hr <;> cases hl <;> cases hb
  all_goals
    unfold Instr.extension
    simp (disch := decide) only [eq_packGuard, eq_packMX, eq_packYX, field_eq_packT, field_eq_append (n := 5) (m := 1),
      field_eq_append (n := 4) (m := 2), field_eq_append (n := 2) (m := 4), field_eq_append (n := 1) (m := 5),
      field_eq_append (n := 11) (m := 2), field_eq_append (n := 10) (m := 3), field_eq_append (n := 9) (m := 4),
      field_eq_append (n := 6 + 2) (m := 5), field_eq_append (n := 6) (m := 2), field_eq_append (n := 5) (m := 8), field_eq_ofBool,
      field_eq_zero_of_mask hz, immGuarded_high, offD_high, immPlain, offB, offC, if_true, Nat.reduceAdd, and_self]

/-! ### Words and instructions of a profile -/

/-- A well-formed instruction's opcode is present on the profile (01 R24). -/
theorem presence_of_wellFormed {p : Profile} {i : Instr} {c : BitVec 3} {op : BitVec 7} {r : OpRow} (hc : i.code = some (c, op))
    (hr : opRow c op = some r) (hwf : WellFormed p i = true) : r.presence.on p = true := by
  by_contra hp
  rw [Bool.not_eq_true] at hp
  suffices h : WellFormed p i = false from absurd (h.symm.trans hwf) Bool.false_ne_true
  clear hwf
  cases i <;> cases hc <;> cases hr <;> cases p <;> cases hp <;> rfl

/-- A plain long form leaves the short field of its format zero. -/
theorem shortClear_of_operands {i : Instr} {c : BitVec 3} {op : BitVec 7} {r : OpRow} {w : Word} (hc : i.code = some (c, op))
    (hr : opRow c op = some r) (hg : classGuarded c = false) (hw : wordOperands w = i.operands true) : r.shortClear w := by
  cases i with
  | bra | call | region => cases hc; cases hr; exact hw
  | brac => cases hc; cases hr; exact (operands_eq_packC.mp hw).2.2.2
  | loop | loopi | barCrew | barGrove | barArrive | barWait | wait | fence | fencePromote | trap | lease | split | bkpt | addi | andi |
    ori | xori | movi | movh | mbx | wid => cases hc; cases hr; exact (operands_eq_packI.mp hw).2.2
  | _ => cases hc <;> cases hr <;> cases hg <;> exact trivial

theorem zeroOk_iff {r : OpRow} {w x : Word} : zeroOk r w x = true ↔ wordOperands w &&& r.zero = 0 ∧
    (wordLong w = true → x &&& r.zeroExt = 0) ∧ (wordLong w = true → classGuarded (wordClass w) = false → r.shortClear w) := by
  unfold zeroOk OpRow.shortClear
  cases wordLong w <;> cases classGuarded (wordClass w) <;> cases r.format <;> simp [wordOperands, and_assoc]

theorem Item.ok_iff {p : Profile} {it : Item} : it.ok p = true ↔ ∃ c op r, it.instr.code = some (c, op) ∧ opRow c op = some r ∧
    lengthOk c r.format it.long = true ∧ (it.long = false → it.instr.fitsShort = true) ∧ WellFormed p it.instr = true ∧
    loopOk it.instr it.long = true := by
  unfold Item.ok
  cases hc : it.instr.code with
  | none => simp
  | some k =>
    obtain ⟨c, op⟩ := k
    cases hr : opRow c op with
    | none => simp [hr]
    | some r => cases it.long <;> simp [hr, and_assoc]

theorem decodeHead_ok_iff {p : Profile} {w : Word} {r : OpRow} : decodeHead p w = .ok r ↔
    opRow (wordClass w) (wordOp w) = some r ∧ r.presence.on p = true ∧ lengthOk (wordClass w) r.format (wordLong w) = true := by
  unfold decodeHead
  cases opRow (wordClass w) (wordOp w) with
  | none => simp
  | some q =>
    by_cases hp : q.presence.on p = true <;> by_cases hl : lengthOk (wordClass w) q.format (wordLong w) = true <;>
      simp [hp, hl] <;> rintro rfl <;> simp [hp, hl]

theorem decodeBody_ok_iff {p : Profile} {r : OpRow} {w x : Word} {it : Item} : decodeBody p r w x = .ok it ↔
    buildInstr (wordClass w) (wordOp w) (wordLong w) w x = some it.instr ∧ zeroOk r w x = true ∧
      WellFormed p it.instr = true ∧ loopOk it.instr (wordLong w) = true ∧
      wordStop w = it.stop ∧ wordRunEnd w = it.runEnd ∧ wordLong w = it.long := by
  obtain ⟨i, s, e, l⟩ := it
  unfold decodeBody
  cases buildInstr (wordClass w) (wordOp w) (wordLong w) w x with
  | none => simp
  | some j =>
    by_cases h : (zeroOk r w x && WellFormed p j && loopOk j (wordLong w)) = true
    · simp only [h, if_true, Except.ok.injEq, Item.mk.injEq, Option.some.injEq]
      constructor
      · rintro ⟨rfl, hs, he, hl⟩
        simp_all
      · rintro ⟨rfl, -, -, -, hs, he, hl⟩
        exact ⟨rfl, hs, he, hl⟩
    · simp only [h, Bool.false_eq_true, if_false, reduceCtorEq, Option.some.injEq, false_iff]
      rintro ⟨rfl, hz, hwf, hlo, -⟩
      exact h (by simp [hz, hwf, hlo])

/-- The first word and the extension of an item. -/
structure Item.Words (it : Item) (c : BitVec 3) (op : BitVec 7) (w x : Word) : Prop where
  code : it.instr.code = some (c, op)
  word : w = packWord it.stop it.runEnd c it.long op (it.instr.operands it.long)
  extension : it.long = true → x = it.instr.extension

/-- Words decode exactly where they are the words of an item of the profile. -/
theorem decode_ok_iff {p : Profile} {w x : Word} {it : Item} :
    (∃ r, decodeHead p w = .ok r ∧ decodeBody p r w x = .ok it) ↔ it.ok p = true ∧ ∃ c op, it.Words c op w x := by
  simp only [decodeHead_ok_iff, decodeBody_ok_iff, zeroOk_iff, Item.ok_iff]
  constructor
  · rintro ⟨r, ⟨hr, -, hl⟩, hb, ⟨hz, hzx, hs⟩, hwf, hlo, hstop, hend, hlong⟩
    rw [hlong] at hl hb hzx hs hlo
    have hc := code_of_buildInstr hb
    have hw := operands_of_buildInstr hc hr hb hz hs
    refine ⟨⟨_, _, r, hc, hr, hl, fun h => ?_, hwf, hlo⟩, _, _, hc, eq_packWord.mpr ⟨hstop, hend, rfl, hlong, rfl, hw⟩, fun h => ?_⟩
    · exact fitsShort_of_buildInstr hc hr (h ▸ hl) (h ▸ hb)
    · exact extension_of_buildInstr hc hr (h ▸ hl) (h ▸ hb) (hzx h)
  · rintro ⟨⟨c, op, r, hc, hr, hl, hfit, hwf, hlo⟩, c', op', hc', hw, hx⟩
    obtain ⟨rfl, rfl⟩ := Prod.mk.inj (Option.some.inj (hc.symm.trans hc'))
    obtain ⟨hstop, hend, hcl, hlong, hop, hops⟩ := eq_packWord.mp hw
    have hst : it.instr.Stands it.long w x := by
      refine ⟨hops, ?_⟩
      split
      · exact hx ‹_›
      · exact hfit (by simpa using ‹¬it.long = true›)
    rw [hcl, hop, hlong, hops]
    refine ⟨r, ⟨hr, presence_of_wellFormed hc hr hwf, hl⟩, buildInstr_of_stands hc hst, ⟨operands_unused_zero hc hr _, ?_, ?_⟩, hwf, hlo,
      hstop, hend, rfl⟩
    · intro h
      rw [hx h]
      exact extension_unused_zero hc hr
    · intro h hg
      exact shortClear_of_operands hc hr hg (h ▸ hops)

theorem encode_of_words {it : Item} {c : BitVec 3} {op : BitVec 7} {w x : Word} (h : it.Words c op w x) :
    encode it = if it.long = true then [w, x] else [w] := by
  rw [h.word]
  by_cases hl : it.long = true
  · simp only [encode, h.code, hl, if_true, h.extension hl]
  · simp only [encode, h.code, hl, if_false, Bool.false_eq_true]

/-- Decoding reads a first word, and its extension where the word has one, and leaves what follows. -/
theorem decodeWords_ok_iff {p : Profile} {ws rest : List Word} {it : Item} : decodeWords p ws = .ok (it, rest) ↔
    ∃ w x, (∃ r, decodeHead p w = .ok r ∧ decodeBody p r w x = .ok it) ∧
      if it.long = true then ws = w :: x :: rest else ws = w :: rest ∧ x = 0 := by
  have hlong : ∀ {r w x}, decodeBody p r w x = .ok it → wordLong w = it.long := fun h => by
    obtain ⟨-, -, -, -, -, -, hl⟩ := decodeBody_ok_iff.mp h
    exact hl
  constructor
  · intro h
    cases ws with
    | nil => cases h
    | cons w tail =>
      unfold decodeWords at h
      cases hr : decodeHead p w with
      | error e => simp [hr] at h
      | ok r =>
        cases hl : wordLong w with
        | false =>
          cases hb : decodeBody p r w 0 with
          | error e => simp only [hr, hl, hb, Except.map, Bool.false_eq_true, if_false, reduceCtorEq] at h
          | ok it' =>
            simp only [hr, hl, hb, Except.map, Bool.false_eq_true, if_false, Except.ok.injEq, Prod.mk.injEq] at h
            obtain ⟨rfl, rfl⟩ := h
            exact ⟨w, 0, ⟨r, hr, hb⟩, by simp [← hlong hb, hl]⟩
        | true =>
          cases tail with
          | nil => simp [hr, hl] at h
          | cons x tail =>
            cases hb : decodeBody p r w x with
            | error e => simp [hr, hl, hb, Except.map] at h
            | ok it' =>
              simp only [hr, hl, hb, Except.map, if_true, Except.ok.injEq, Prod.mk.injEq] at h
              obtain ⟨rfl, rfl⟩ := h
              exact ⟨w, x, ⟨r, hr, hb⟩, by simp [← hlong hb, hl]⟩
  · rintro ⟨w, x, ⟨r, hr, hb⟩, hws⟩
    split at hws
    · next hl => simp only [hws, decodeWords, hr, hlong hb, hl, if_true, hb, Except.map]
    · next hl =>
      obtain ⟨rfl, rfl⟩ := hws
      simp only [decodeWords, hr, hlong hb, hl, if_false, Bool.false_eq_true, hb, Except.map]

/-- Settles O57: words decode exactly where they are the words of an item of the profile, and those are what `encode` writes. -/
theorem encodingRoundTrip : Obligations.EncodingRoundTrip := by
  refine ⟨fun p it rest hok => ?_, fun p ws rest it h => ?_⟩
  · obtain ⟨c, op, r, hc, -⟩ := Item.ok_iff.mp hok
    have hw : it.Words c op _ (if it.long = true then it.instr.extension else 0) := ⟨hc, rfl, fun h => if_pos h⟩
    refine decodeWords_ok_iff.mpr ⟨_, _, decode_ok_iff.mpr ⟨hok, c, op, hw⟩, ?_⟩
    rw [encode_of_words hw]
    split
    · rfl
    · exact ⟨rfl, rfl⟩
  · obtain ⟨w, x, hd, hws⟩ := decodeWords_ok_iff.mp h
    obtain ⟨hok, c, op, hw⟩ := decode_ok_iff.mp hd
    refine ⟨?_, hok⟩
    rw [encode_of_words hw]
    split at hws
    · next hl => rw [if_pos hl, hws]; rfl
    · next hl => rw [if_neg hl, hws.1]; rfl

end Encoding

end Sys2Proof

namespace Sys2Proof

/-! ## The worked encodings (01, 03, 04, 05, 22) -/

/-- Settles O58: the decoder, run on each of the sixteen encodings, gives the instruction or the error that stands beside it. -/
theorem decodedWords : Obligations.DecodedWords :=
  ⟨rfl, rfl, rfl, rfl, rfl, rfl, rfl, rfl, rfl, rfl, rfl, rfl, rfl, rfl, rfl, rfl⟩

end Sys2Proof

namespace Sys2Proof.Machine
open Host (Outcome)

/-! ## A group acts strand by strand (01 R15, 04 R104)

An access by one strand reads of the group being issued what does not depend on which strands are in it, and it writes no predicate. So a
state, and the same state with other strands in the group, go through the access alike. `Twins` says that of two states, `Both` of what
two computations answer; `Twins.f` says that the function `f` of the model keeps them alike. -/

/-- The state as it is with the strands `l` in the group being issued. -/
def State.among (s : State) (l : List Nat) : State := { s with cur := { s.cur with strands := l } }

/-- `t` is `s` with the strands `l` in its group; `s` stands at the issue `c`, which has a complete owner, with predicates `p`. -/
structure Twins (c : Issue) (p : Nat → BitVec 8) (l : List Nat) (s t : State) : Prop where
  cur : s.cur = c
  owned : c.owners ≠ []
  preds : ∀ i, (s.strand i).p = p i
  among : t = s.among l

/-- Two computations stop alike, or answer the same `a` about states that are twins. -/
def Both {α β : Type} (k : α → State → β) (c : Issue) (p : Nat → BitVec 8) (l : List Nat) (x y : Eff β) : Prop :=
  (∃ e, x = .error e ∧ y = .error e) ∨ ∃ a u v, x = .ok (k a u) ∧ y = .ok (k a v) ∧ Twins c p l u v

/-- Two computations end in twins, or stop alike. -/
abbrev BothEnd := Both (fun (_ : Unit) (s : State) => s)
/-- Two computations answer the same value with twins. -/
abbrev BothGive {α : Type} := Both (fun (a : α) (s : State) => (a, s))
/-- Two accesses find the same place with twins. -/
abbrev BothFind {α β : Type} := Both (fun (a : α × β) (s : State) => (a.1, a.2, s))

section Twins
variable {c : Issue} {p : Nat → BitVec 8} {l : List Nat} {s t : State}

theorem Both.error {α β : Type} {k : α → State → β} (e : Stop) : Both k c p l (.error e) (.error e) := .inl ⟨e, rfl, rfl⟩

theorem Twins.ends (h : Twins c p l s t) : BothEnd c p l (.ok s) (.ok t) := .inr ⟨(), s, t, rfl, rfl, h⟩

theorem Twins.gives {α : Type} (h : Twins c p l s t) (a : α) : BothGive c p l (.ok (a, s)) (.ok (a, t)) :=
  .inr ⟨a, s, t, rfl, rfl, h⟩

theorem Both.give {α : Type} {x y : α × State} (h : y.1 = x.1 ∧ Twins c p l x.2 y.2) : BothGive c p l (.ok x) (.ok y) := by
  obtain ⟨a, u⟩ := x
  obtain ⟨b, v⟩ := y
  obtain ⟨rfl, k⟩ := h
  exact k.gives _

theorem Twins.finds {α β : Type} (h : Twins c p l s t) (a : α) (b : β) : BothFind c p l (.ok (a, b, s)) (.ok (a, b, t)) :=
  .inr ⟨(a, b), s, t, rfl, rfl, h⟩

/-- What reads the group's strands nowhere, and leaves the group and the strands, keeps twins. -/
theorem Twins.map {f : State → State} (h : Twins c p l s t) (hcur : (f s).cur = s.cur) (hs : (f s).strands = s.strands)
    (hf : f (s.among l) = (f s).among l) : Twins c p l (f s) (f t) := by
  obtain ⟨rfl, ho, hp, rfl⟩ := h
  exact ⟨hcur, ho, fun i => by rw [← hp i, State.strand, hs]; rfl, hf⟩

theorem Twins.congr {u v : State} (h : Twins c p l s t) (hcur : u.cur = s.cur) (hs : u.strands = s.strands)
    (hv : v = u.among l) : Twins c p l u v :=
  ⟨hcur.trans h.cur, h.owned, fun i => by rw [← h.preds i, State.strand, hs]; rfl, hv⟩

/-- What reads the group's strands nowhere reads the same of twins. -/
theorem Twins.read {α : Type} {f : State → α} (h : Twins c p l s t) (hf : f (s.among l) = f s) : f t = f s := by
  rw [h.among, hf]

theorem Twins.foldl {α : Type} {f : State → α → State} {as : List α} (h : Twins c p l s t)
    (hf : ∀ u v a, Twins c p l u v → Twins c p l (f u a) (f v a)) : Twins c p l (as.foldl f s) (as.foldl f t) := by
  induction as generalizing s t with
  | nil => exact h
  | cons a as ih => exact ih (hf _ _ a h)

theorem Both.ite {α β : Type} {k : α → State → β} {q : Prop} [Decidable q] {x y x' y' : Eff β} (h : Both k c p l x y)
    (h' : Both k c p l x' y') : Both k c p l (if q then x else x') (if q then y else y') := by
  split
  · exact h
  · exact h'

theorem Twins.ite {q : Prop} [Decidable q] {u v : State} (h : Twins c p l s t) (k : Twins c p l u v) :
    Twins c p l (if q then s else u) (if q then t else v) := by
  split
  · exact h
  · exact k

/-! ### Registers, poison and the log -/

theorem Twins.setStrand {i : Nat} {x : Strand} (h : Twins c p l s t) (hx : x.p = (s.strand i).p) :
    Twins c p l (s.setStrand i x) (t.setStrand i x) := by
  obtain ⟨hc, ho, hp, rfl⟩ := h
  refine ⟨hc, ho, fun j => ?_, rfl⟩
  rw [State.strand_setStrand]
  split
  · next e => rw [hx, hp, e]
  · exact hp j

theorem Twins.strand (h : Twins c p l s t) (i : Nat) : t.strand i = s.strand i := h.read (f := fun s => s.strand i) rfl

theorem Twins.setV {i n : Nat} {x : Tagged 32} (h : Twins c p l s t) : Twins c p l (s.setV i n x) (t.setV i n x) := by
  unfold State.setV
  rw [h.strand]
  exact h.setStrand rfl

theorem Twins.setD2 {i n : Nat} {x : Tagged 64} (h : Twins c p l s t) : Twins c p l (s.setD2 i n x) (t.setD2 i n x) :=
  h.setV.setV

theorem Twins.setOwner {o : Nat} {x : Owner} (h : Twins c p l s t) : Twins c p l (s.setOwner o x) (t.setOwner o x) :=
  h.map (f := fun s => s.setOwner o x) rfl rfl rfl

theorem Twins.raiseOf {i : Nat} {f : FFlags} (h : Twins c p l s t) : Twins c p l (s.raiseOf i f) (t.raiseOf i f) := by
  unfold State.raiseOf State.raise
  rw [h.read (f := fun s => s.owner (strandBundle i)) rfl]
  exact h.ite h.setOwner

theorem Twins.newOrigin {o : Nat} {x : Origin} (h : Twins c p l s t) :
    (t.newOrigin o x).1 = (s.newOrigin o x).1 ∧ Twins c p l (s.newOrigin o x).2 (t.newOrigin o x).2 :=
  ⟨h.read (f := fun s => (s.newOrigin o x).1) rfl, h.map (f := fun s => (s.newOrigin o x).2) rfl rfl rfl⟩

theorem Twins.log {e : LogEvent} (h : Twins c p l s t) : Twins c p l (s.log e) (t.log e) :=
  h.map (f := fun s => s.log e) rfl rfl rfl

theorem Twins.free (h : Twins c p l s t) : t.free.1 = s.free.1 ∧ Twins c p l s.free.2 t.free.2 :=
  ⟨h.read (f := fun s => s.free.1) rfl, h.map (f := fun s => s.free.2) rfl rfl rfl⟩

/-! ### Memory, and the words and entries that a store replaces (08 R181, R182, 15 R263) -/

theorem Twins.setByte {pa : Nat} {v : Byte} (h : Twins c p l s t) : Twins c p l (s.setByte pa v) (t.setByte pa v) :=
  h.map (f := fun s => s.setByte pa v) rfl rfl rfl

theorem Twins.readLE (h : Twins c p l s t) (pa n : Nat) : t.readLE pa n = s.readLE pa n :=
  State.readLE_congr fun _ _ _ => h.read (f := fun s => s.byte _) rfl

theorem Twins.readDword (h : Twins c p l s t) (pa : Nat) : t.readDword pa = s.readDword pa :=
  congrArg (BitVec.ofNat 64) (h.readLE pa 8)

theorem Twins.isMarked (h : Twins c p l s t) (pa n : Nat) : t.isMarked pa n = s.isMarked pa n :=
  h.read (f := fun s => s.isMarked pa n) rfl

theorem Twins.writeLE {pa n v : Nat} (h : Twins c p l s t) : Twins c p l (s.writeLE pa n v) (t.writeLE pa n v) := by
  induction n generalizing s t pa v with
  | zero => exact h
  | succ n ih => exact ih h.setByte

theorem Twins.hubWrite {pa n v : Nat} (h : Twins c p l s t) : Twins c p l (s.hubWrite pa n v) (t.hubWrite pa n v) :=
  h.writeLE.ite h

/-- The core that a store is noted for is that of the first owner, whichever strands are in the group. -/
theorem Twins.oldWord (h : Twins c p l s t) (stage : Nat) : t.oldWord stage = s.oldWord stage := by
  obtain ⟨rfl, ho, hp, rfl⟩ := h
  have hd : ({ s.cur with strands := l } : Issue).allOwners.headD 0 = s.cur.allOwners.headD 0 := by
    obtain ⟨o, os, hos⟩ := List.exists_cons_of_ne_nil ho
    simp [Issue.allOwners, hos, List.eraseDups_cons]
  change OldWord.mk .. = OldWord.mk ..
  rw [State.among, hd]
  rfl

theorem Twins.noteWord {x : OldWord} {w : Nat} (h : Twins c p l s t) : Twins c p l (s.noteWord x w) (t.noteWord x w) := by
  unfold State.noteWord
  rw [h.readLE]
  cases h.among
  exact h.congr rfl rfl rfl

theorem Twins.noteFrame {ws : List Nat} (h : Twins c p l s t) : Twins c p l (s.noteFrame ws) (t.noteFrame ws) := by
  unfold State.noteFrame
  rw [h.oldWord]
  exact h.foldl fun _ _ _ k => k.noteWord

theorem Twins.setWrites {n : Nat} (h : Twins c p l s t) : Twins c p l { s with writes := n } { t with writes := n } :=
  h.map (f := fun u => { u with writes := n }) rfl rfl rfl

theorem Twins.noteStore {x : OldWord} {pa n : Nat} (h : Twins c p l s t) :
    Twins c p l (s.noteStore x pa n) (t.noteStore x pa n) := by
  unfold State.noteStore
  rw [h.read (f := fun s => s.writes) rfl]
  refine h.ite (Twins.setWrites ?_)
  exact h.foldl fun _ _ _ k => k.noteWord

theorem Twins.noteEntry {e : Nat} (h : Twins c p l s t) : Twins c p l (s.noteEntry e) (t.noteEntry e) := by
  unfold State.noteEntry
  rw [h.readDword, h.readDword]
  refine Twins.ite ?_ h
  cases h.among
  exact h.congr rfl rfl rfl

theorem Twins.noteWords {pa n stage : Nat} (h : Twins c p l s t) :
    Twins c p l (s.noteWords pa n stage) (t.noteWords pa n stage) := by
  unfold State.noteWords
  rw [h.oldWord]
  exact .ite h.noteStore (h.noteStore.foldl fun _ _ _ k => k.noteEntry)

theorem Twins.storeData {pa n v : Nat} (h : Twins c p l s t) : Twins c p l (s.storeData pa n v) (t.storeData pa n v) :=
  h.noteWords.writeLE

theorem Twins.storeMarked {pa n v : Nat} (h : Twins c p l s t) : Twins c p l (s.storeMarked pa n v) (t.storeMarked pa n v) := by
  unfold State.storeMarked
  rw [h.read (f := fun s => s.marked) rfl]
  exact h.storeData.map (f := fun u => { u with marked := markUnits s.marked pa n false }) rfl rfl rfl

/-! ### Translation and backing (15 R257-R261, R263) -/

theorem Twins.walkFrom (h : Twins c p l s t) (va n table : Nat) : t.walkFrom va n table = s.walkFrom va n table := by
  induction n generalizing table with
  | zero => simp only [State.walkFrom, State.walkL0, h.readDword, h.isMarked]
  | succ n ih => simp only [State.walkFrom, ih, h.readDword, h.isMarked]

theorem Twins.walk (h : Twins c p l s t) (ctx va : Nat) : t.walk ctx va = s.walk ctx va :=
  (h.walkFrom ..).trans (h.read (f := fun u => s.walkFrom (va % 2 ^ 56) 3 (u.ctx ctx).root.toNat) rfl)

theorem Twins.accessUnit (h : Twins c p l s t) : t.accessUnit = s.accessUnit := h.read (f := State.accessUnit) rfl

theorem Twins.entryForms (h : Twins c p l s t) (ctx va size e : Nat) :
    t.entryForms ctx va size e = s.entryForms ctx va size e := by
  unfold State.entryForms
  rw [h.accessUnit, h.readDword, h.readDword, h.read (f := fun s => s.oldMaps) rfl]

theorem Twins.formsFrom (h : Twins c p l s t) (ctx va n table : Nat) :
    t.formsFrom ctx va n table = s.formsFrom ctx va n table := by
  induction n generalizing table with
  | zero => simp only [State.formsFrom, State.formsL0, h.entryForms, h.isMarked]
  | succ n ih => simp only [State.formsFrom, ih, h.entryForms, h.isMarked]

theorem Twins.oldWalks (h : Twins c p l s t) (ctx va : Nat) : t.oldWalks ctx va = s.oldWalks ctx va := by
  unfold State.oldWalks
  rw [h.formsFrom, h.walk, h.read (f := fun s => s.oldMaps) rfl, h.read (f := fun s => (s.ctx ctx).root) rfl]

theorem Twins.translate (h : Twins c p l s t) (ctx va : Nat) :
    (t.translate ctx va).1 = (s.translate ctx va).1 ∧ Twins c p l (s.translate ctx va).2 (t.translate ctx va).2 := by
  unfold State.translate
  rw [h.oldWalks, h.walk]
  split
  · exact ⟨rfl, h⟩
  · exact ⟨by simp only [h.free.1], h.free.2⟩

theorem Twins.setMem {m : Tbl Byte} {g : Tbl (BitVec 4)} {us : List Nat} (h : Twins c p l s t) :
    Twins c p l { s with mem := m, tags := g, marked := us } { t with mem := m, tags := g, marked := us } :=
  h.map (f := fun u => { u with mem := m, tags := g, marked := us }) rfl rfl rfl

theorem Twins.zeroMem {pa n : Nat} (h : Twins c p l s t) : Twins c p l (s.zeroMem pa n) (t.zeroMem pa n) := by
  have hh : Twins c p l (s.hideOlds pa n) (t.hideOlds pa n) := h.map (f := fun s => s.hideOlds pa n) rfl rfl rfl
  unfold State.zeroMem
  rw [h.read (f := fun s => s.mem) rfl, h.read (f := fun s => s.tags) rfl, h.read (f := fun s => s.marked) rfl]
  exact hh.noteFrame.setMem

theorem Twins.ringPost (h : Twins c p l s t) (r : EventRing) (kind : Nat) (ops : List Dword) :
    (t.ringPost r kind ops).1 = (s.ringPost r kind ops).1 ∧
      Twins c p l (s.ringPost r kind ops).2 (t.ringPost r kind ops).2 := by
  unfold State.ringPost
  split
  · dsimp only
    split <;> exact ⟨rfl, h⟩
  · exact ⟨rfl, h.foldl fun _ _ _ k => k.hubWrite⟩

theorem Twins.postGlobal {kind : Nat} {ops : List Dword} (h : Twins c p l s t) :
    Twins c p l (s.postGlobal kind ops) (t.postGlobal kind ops) := by
  obtain ⟨hr, hs⟩ := h.ringPost s.globalRing kind ops
  simp only [State.postGlobal, h.read (f := fun s => s.globalRing) rfl, hr]
  exact hs.map (f := fun u => { u with globalRing := (s.ringPost s.globalRing kind ops).1 }) rfl rfl rfl

/-- What takes from the pools answers none of both twins, or the same with twins. -/
def BothTake {α β : Type} (k : α → State → β) (c : Issue) (p : Nat → BitVec 8) (l : List Nat) (x y : Option β) : Prop :=
  (x = none ∧ y = none) ∨ ∃ a u v, x = some (k a u) ∧ y = some (k a v) ∧ Twins c p l u v

theorem Twins.takeFrame (h : Twins c p l s t) (large : Bool) :
    BothTake Prod.mk c p l (s.takeFrame large) (t.takeFrame large) := by
  unfold State.takeFrame
  have hp (x : FramePool) : Twins c p l (if large = true then { s with largePool := x } else { s with smallPool := x })
      (if large = true then { t with largePool := x } else { t with smallPool := x }) :=
    (h.map (f := fun u => { u with largePool := x }) rfl rfl rfl).ite
      (h.map (f := fun u => { u with smallPool := x }) rfl rfl rfl)
  dsimp only
  rw [h.read (f := fun s => if large = true then s.largePool else s.smallPool) rfl]
  generalize (if large = true then s.largePool else s.smallPool) = pool
  cases pool.frames with
  | nil => exact .inl ⟨rfl, rfl⟩
  | cons f rest => exact .inr ⟨f, _, _, rfl, rfl, (hp _).postGlobal.ite (hp _)⟩

theorem Twins.backPage (h : Twins c p l s t) (entry : Nat) (e0 e1 : Dword) (large : Bool) :
    BothTake (fun (_ : Unit) u => u) c p l (s.backPage entry e0 e1 large) (t.backPage entry e0 e1 large) := by
  unfold State.backPage
  obtain ⟨hx, hy⟩ | ⟨f, u, v, hx, hy, k⟩ := h.takeFrame large
  · simp only [hx, hy]
    exact .inl ⟨rfl, rfl⟩
  simp only [hx, hy]
  split
  · have hz : Twins c p l (u.zeroMem (f * 65536) (if large then 2 ^ 25 else 65536)) _ := k.zeroMem
    obtain ⟨hx, hy⟩ | ⟨g, u', v', hx, hy, k'⟩ := hz.takeFrame false
    · simp only [hx, hy]
      exact .inl ⟨rfl, rfl⟩
    · simp only [hx, hy]
      exact .inr ⟨(), _, _, rfl, rfl, k'.zeroMem.writeLE.writeLE⟩
  · exact .inr ⟨(), _, _, rfl, rfl, k.zeroMem.writeLE⟩

theorem Twins.pageFor (h : Twins c p l s t) (ctx : Nat) (addr : Dword) (write : Bool) :
    BothGive c p l (s.pageFor ctx addr write) (t.pageFor ctx addr write) := by
  obtain ⟨hw, k⟩ := h.translate ctx addr.toNat
  unfold State.pageFor
  simp only [hw]
  have allow {q : PageInfo} {u v : State} (hu : Twins c p l u v) : BothGive c p l
      (if (if write = true then q.canWrite else q.canRead) = true then .ok (q, u) else fatalWith causePermission addr)
      (if (if write = true then q.canWrite else q.canRead) = true then .ok (q, v) else fatalWith causePermission addr) :=
    (hu.gives q).ite (.error _)
  split
  · exact allow k
  · next e a b large _ =>
    obtain ⟨hx, hy⟩ | ⟨_, u, v, hx, hy, hu⟩ := k.backPage e a b large
    · simp only [hx, hy]
      exact .error _
    · simp only [hx, hy, hu.walk]
      split
      · exact allow hu
      · exact .error _
  · exact .error _
  · exact .error _

/-! ### Accesses of global memory (04 R102, R103, R106) -/

theorem Twins.globalAccess (h : Twins c p l s t) (ctx : Nat) (addr : Dword) (n align : Nat) (write tagCheck : Bool) :
    BothFind c p l (s.globalAccess ctx addr n align write tagCheck) (t.globalAccess ctx addr n align write tagCheck) := by
  unfold State.globalAccess
  refine (Both.error _).ite ((Both.error _).ite ?_)
  obtain ⟨e, hx, hy⟩ | ⟨q, u, v, hx, hy, k⟩ := h.pageFor ctx addr write
  · simp only [hx, hy]
    exact .error e
  · simp only [hx, hy, k.read (f := fun s => s.tagsMatch (q.pa addr.toNat) n (addrTag addr)) rfl]
    exact (Both.error _).ite ((k.finds _ _).ite (.error _))

theorem Twins.touch {b pa : Nat} (h : Twins c p l s t) : Twins c p l (s.touch b pa) (t.touch b pa) := by
  refine h.map (f := fun s => s.touch b pa) (by rw [State.touch_rest]) (by rw [State.touch_rest]) ?_
  dsimp only [State.touch, State.among]
  split
  · rfl
  · rw [show State.coreOf { s with cur := { s.cur with strands := l } } b = s.coreOf b from rfl]
    split
    · rfl
    · rw [show State.core { s with cur := { s.cur with strands := l } } _ = s.core _ from rfl]
      split <;> rfl

theorem Twins.laneGlobal (h : Twins c p l s t) (i : Nat) (addr : Dword) (n align : Nat) (write tagCheck : Bool) :
    BothFind c p l (s.laneGlobal i addr n align write tagCheck) (t.laneGlobal i addr n align write tagCheck) := by
  unfold State.laneGlobal
  rw [h.read (f := fun s => s.cur.ctx) rfl]
  obtain ⟨e, hx, hy⟩ | ⟨a, u, v, hx, hy, k⟩ := h.globalAccess s.cur.ctx addr n align write tagCheck
  · rw [hx, hy]
    exact .error e
  · rw [hx, hy]
    exact k.touch.finds _ _

theorem Twins.loaded {w o st : Nat} {addr : Dword} {pa : Nat} {bad : Bool} {x : BitVec w} (h : Twins c p l s t) :
    (t.loaded o st addr pa bad x).1 = (s.loaded o st addr pa bad x).1 ∧
      Twins c p l (s.loaded o st addr pa bad x).2 (t.loaded o st addr pa bad x).2 := by
  unfold State.loaded
  split
  · have k := h.newOrigin (o := o) (x := ⟨BitVec.ofNat 8 causeSoftError, addr, false, 0, BitVec.ofNat 8 st⟩)
    refine ⟨by simp only [k.1], ?_⟩
    rw [h.read (f := fun s => (LogEvent.mk s.time pa 2 (s.dieOf o) (s.unitOf o) s.cur.ctx)) rfl]
    exact k.2.log
  · exact ⟨rfl, h⟩

theorem Twins.loadGlobal (h : Twins c p l s t) (i : Nat) (addr : Dword) (n w : Nat) :
    BothGive c p l (s.loadGlobal i addr n w) (t.loadGlobal i addr n w) := by
  unfold State.loadGlobal
  obtain ⟨e, hx, hy⟩ | ⟨⟨pa, q⟩, u, v, hx, hy, k⟩ := h.laneGlobal i addr n n false true
  · simp only [hx, hy]
    exact .error e
  · simp only [hx, hy, State.pageLE, k.readLE, k.isMarked]
    exact Both.give k.loaded

theorem Twins.storeGlobal (h : Twins c p l s t) (i : Nat) (addr : Dword) (n v : Nat) :
    BothEnd c p l (s.storeGlobal i addr n v) (t.storeGlobal i addr n v) := by
  unfold State.storeGlobal
  obtain ⟨e, hx, hy⟩ | ⟨⟨pa, q⟩, u, v, hx, hy, k⟩ := h.laneGlobal i addr n n true true
  · simp only [hx, hy]
    exact .error e
  · simp only [hx, hy]
    exact k.storeMarked.ends

theorem Twins.elemAccess (h : Twins c p l s t) (ctx : Nat) (base : Dword) (off : Int) (write : Bool) :
    BothGive c p l (s.elemAccess ctx base off write) (t.elemAccess ctx base off write) := by
  unfold State.elemAccess
  refine (Both.error _).ite ?_
  obtain ⟨e, hx, hy⟩ | ⟨q, u, v, hx, hy, k⟩ := h.pageFor ctx base write
  · simp only [hx, hy]
    exact .error e
  · simp only [hx, hy, k.read (f := fun s => s.elemIn q base off) rfl]
    cases u.elemIn q base off with
    | error e => exact .error e
    | ok x => exact k.gives x

theorem Twins.touchElem {b : Nat} {x : ElemAt} (h : Twins c p l s t) : Twins c p l (s.touchElem b x) (t.touchElem b x) :=
  .ite h.touch.touch h.touch

theorem Twins.readOnlyWord (h : Twins c p l s t) (q : PageInfo) (i pa : Nat) :
    (t.readOnlyWord q i pa).1 = (s.readOnlyWord q i pa).1 ∧
      Twins c p l (s.readOnlyWord q i pa).2 (t.readOnlyWord q i pa).2 := by
  unfold State.readOnlyWord
  rw [h.readLE, h.read (f := fun s => (Tbl.getD s.stale pa []).filter fun x => decide (s.roFloor i pa < x.gone)) rfl]
  dsimp only
  split
  · exact ⟨rfl, h⟩
  · rw [h.free.1]
    split
    · cases h.among
      exact ⟨rfl, h.congr rfl rfl rfl⟩
    · cases h.among
      exact ⟨rfl, h.congr rfl rfl rfl⟩

theorem Twins.backIfReserved {ctx : Nat} {addr : Dword} (h : Twins c p l s t) :
    Twins c p l (s.backIfReserved ctx addr) (t.backIfReserved ctx addr) := by
  unfold State.backIfReserved
  rw [h.walk]
  split
  · next e a b large _ =>
    obtain ⟨hx, hy⟩ | ⟨_, u, v, hx, hy, k⟩ := h.backPage e a b large
    · rw [hx, hy]
      exact h
    · rw [hx, hy]
      exact k
  · exact h

theorem Twins.keepBacking {elem : Bool} {x : Stopped} (h : Twins c p l s t) :
    Twins c p l (s.keepBacking elem x) (t.keepBacking elem x) := by
  unfold State.keepBacking
  rw [h.read (f := fun s => s.cur.ctx) rfl]
  cases x.translated elem with
  | none => exact h
  | some a => exact h.backIfReserved

/-! ### Scratchpads, and what copies in flight have written there (04 R109, 08 R176) -/

theorem Twins.fillLine (h : Twins c p l s t) (k line : Nat) (r : Region) :
    BothEnd c p l (s.fillLine k line r) (t.fillLine k line r) := by
  unfold State.fillLine
  rw [h.read (f := fun s => s.tileCtx k) rfl]
  obtain ⟨e, hx, hy⟩ | ⟨⟨pa, q⟩, u, v, hx, hy, hk⟩ :=
    h.globalAccess (s.tileCtx k) (r.va + BitVec.ofNat 64 (128 * (line - r.sline))) 128 128 false true
  · simp only [hx, hy]
    exact .error e
  · simp only [hx, hy]
    cases hk.among
    refine Twins.ends ?_
    exact hk.congr rfl rfl rfl

theorem Twins.needLine (h : Twins c p l s t) (k line : Nat) : BothEnd c p l (s.needLine k line) (t.needLine k line) := by
  unfold State.needLine
  rw [h.read (f := fun s => s.tile k) rfl, h.read (f := fun s => s.lineInFlight (.tile k) line) rfl]
  refine h.ends.ite ?_
  cases (s.tile k).regionAt line with
  | none => exact .error _
  | some e => exact (Both.error _).ite (h.fillLine ..)

theorem Twins.free_bytes (h : Twins c p l s t) (n : Nat) : BothFind c p l (.ok (freeBytes s n)) (.ok (freeBytes t n)) := by
  cases h.among
  have hu : Twins c p l (freeBytes s n).2.2 (freeBytes (s.among l) n).2.2 := h.congr rfl rfl rfl
  exact hu.finds (freeBytes s n).1 (freeBytes s n).2.1

theorem Twins.readNear (h : Twins c p l s t) (q : Place) (a : Dword) (n : Nat) :
    BothFind c p l (s.readNear q a n) (t.readNear q a n) := by
  cases q with
  | global ctx =>
    obtain ⟨e, hx, hy⟩ | ⟨⟨pa, q⟩, u, v, hx, hy, k⟩ := h.globalAccess ctx a n n false true
    · simp only [State.readNear, hx, hy]
      exact .error e
    · simp only [State.readNear, hx, hy]
      cases k.among
      exact k.finds _ _
  | crew d =>
    unfold State.readNear
    dsimp only
    rw [h.read (f := fun s => s.scratchAt d a) rfl]
    split
    · exact h.free_bytes n
    · cases h.among
      exact (Both.error _).ite (h.finds _ _)
  | tile k =>
    refine (h.free_bytes n).ite ?_
    obtain ⟨e, hx, hy⟩ | ⟨_, u, v, hx, hy, hk⟩ := h.needLine k (a.toNat / 128)
    · simp only [hx, hy]
      exact .error e
    · simp only [hx, hy]
      cases hk.among
      exact hk.finds _ _
  | store k =>
    cases h.among
    exact h.finds _ _
  | window base =>
    unfold State.readNear
    dsimp only
    rw [h.isMarked, h.read (f := fun s => s.readBytes (2 ^ 51 + (base + a.toNat) % 2 ^ 51) n) rfl]
    exact h.finds _ _
  | image | imageStore => exact h.free_bytes n

theorem Twins.swapImage {k m : Nat} (h : Twins c p l s t) : Twins c p l (s.swapImage k m) (t.swapImage k m) := by
  unfold State.swapImage
  rw [h.read (f := fun s => s.imageAt k m) rfl]
  cases s.imageAt k m with
  | none => exact h
  | some y =>
    cases h.among
    exact h.congr rfl rfl rfl

theorem Twins.readPlace (h : Twins c p l s t) (q : Place) (a : Dword) (n : Nat) :
    BothFind c p l (s.readPlace q a n) (t.readPlace q a n) := by
  have there (k m : Nat) (q : Place) : BothFind c p l
      (if (s.imageAt k m).isSome = true then
        ((s.swapImage k m).readNear q a n).map (fun r => (r.1, r.2.1, r.2.2.swapImage k m)) else .ok (freeBytes s n))
      (if (s.imageAt k m).isSome = true then
        ((t.swapImage k m).readNear q a n).map (fun r => (r.1, r.2.1, r.2.2.swapImage k m)) else .ok (freeBytes t n)) := by
    refine Both.ite ?_ (h.free_bytes n)
    obtain ⟨e, hx, hy⟩ | ⟨⟨bs, bad⟩, u, v, hx, hy, hu⟩ := (h.swapImage (k := k) (m := m)).readNear q a n
    · rw [hx, hy]
      exact .error e
    · rw [hx, hy]
      exact hu.swapImage.finds _ _
  unfold State.readPlace
  simp only [h.read (f := fun s => s.imageAt _ _) rfl]
  cases q with
  | image k m => exact there k m (.tile m)
  | imageStore k m => exact there k m (.store m)
  | global | crew | tile | store | window => exact h.readNear _ a n

theorem Twins.unitWrites (h : Twins c p l s t) (x : Copy) (n : Nat) : t.unitWrites x n = s.unitWrites x n := by
  have index (q : Place) (a : Dword) (r : Nat) : (t.listIndex q a r).map Prod.fst = (s.listIndex q a r).map Prod.fst := by
    unfold State.listIndex
    obtain ⟨e, hx, hy⟩ | ⟨⟨bs, bad⟩, u, v, hx, hy, _⟩ := h.readPlace q (a + BitVec.ofNat 64 (4 * r)) 4
    · rw [hx, hy]
    · rw [hx, hy]
      rfl
  unfold State.unitWrites
  split
  · next row q first _ =>
    have hi := index q first (n / (row / 16))
    cases hx : s.listIndex q first (n / (row / 16)) <;> cases hy : t.listIndex q first (n / (row / 16)) <;>
      simp_all [Except.map]
  · rfl

theorem Twins.landedAt (h : Twins c p l s t) (q : Place) (a : Nat) : t.landedAt q a = s.landedAt q a := by
  simp only [State.landedAt, h.unitWrites, h.read (f := fun s => s.scratchAt _ _) rfl, h.read (f := fun s => s.copies) rfl]

theorem Twins.setScratchByte {k a : Nat} {v : Byte} (h : Twins c p l s t) :
    Twins c p l (s.setScratchByte k a v) (t.setScratchByte k a v) := by
  unfold State.setScratchByte
  rw [h.read (f := fun s => s.crews) rfl]
  cases Tbl.find? s.crews k with
  | none => exact h
  | some x =>
    cases h.among
    exact h.congr rfl rfl rfl

theorem Twins.writeScratch {k a n v : Nat} (h : Twins c p l s t) :
    Twins c p l (s.writeScratch k a n v) (t.writeScratch k a n v) := by
  induction n generalizing s t a v with
  | zero => exact h
  | succ n ih => exact ih h.setScratchByte

theorem Twins.storeScratch {k a n v : Nat} (h : Twins c p l s t) :
    Twins c p l (s.storeScratch k a n v) (t.storeScratch k a n v) := by
  unfold State.storeScratch
  rw [h.read (f := fun s => s.lineInFlight (.crew k) (a / 128)) rfl]
  refine Twins.ite ?_ h.writeScratch
  simp only [h.landedAt]
  exact h.foldl fun _ _ _ hu => hu.ite hu.setScratchByte

theorem Twins.scratchLE (h : Twins c p l s t) (k a n : Nat) : t.scratchLE k a n = s.scratchLE k a n := by
  induction n generalizing a with
  | zero => rfl
  | succ n ih => rw [State.scratchLE, State.scratchLE, ih, h.read (f := fun s => s.scratchByte k a) rfl]

theorem Twins.scratchAccess (h : Twins c p l s t) (i : Nat) (addr : Dword) (n : Nat) :
    t.scratchAccess (t.crewId i) addr n = s.scratchAccess (s.crewId i) addr n :=
  h.read (f := fun s => s.scratchAccess (s.crewId i) addr n) rfl

theorem Twins.scratchLoad (h : Twins c p l s t) (i : Nat) (addr : Dword) (n w : Nat) :
    BothGive c p l (s.scratchLoad i addr n w) (t.scratchLoad i addr n w) := by
  unfold State.scratchLoad
  rw [h.scratchAccess]
  cases s.scratchAccess (s.crewId i) addr n with
  | error e => exact .error e
  | ok r =>
    obtain ⟨k, x, above⟩ := r
    simp only [h.scratchLE, h.read (f := fun s => s.crewLineAbsent k x) rfl, h.read (f := fun s => s.crewMarked k x n) rfl]
    exact (Both.error _).ite (Both.give h.loaded)

theorem Twins.scratchStore (h : Twins c p l s t) (i : Nat) (addr : Dword) (n v : Nat) :
    BothEnd c p l (s.scratchStore i addr n v) (t.scratchStore i addr n v) := by
  unfold State.scratchStore
  rw [h.scratchAccess]
  cases s.scratchAccess (s.crewId i) addr n with
  | error e => exact .error e
  | ok r => exact (h.ite h.storeScratch).ends

/-! ### What one strand reads before it acts (04 R94, R101) -/

theorem Twins.laneBase (h : Twins c p l s t) (i : Nat) (a : BitVec 6) (lb : Bool) : t.laneBase i a lb = s.laneBase i a lb :=
  h.read (f := fun s => s.laneBase i a lb) rfl

theorem Twins.laneAddr {w : Nat} (h : Twins c p l s t) (i : Nat) (a : BitVec 6) (lb : Bool) (off : BitVec w) :
    t.laneAddr i a lb off = s.laneAddr i a lb off :=
  h.read (f := fun s => s.laneAddr i a lb off) rfl

theorem Twins.useV (h : Twins c p l s t) (i r : Nat) : t.useV i r = s.useV i r := h.read (f := fun s => s.useV i r) rfl

theorem Twins.useD (h : Twins c p l s t) (i r : Nat) : t.useD i r = s.useD i r := h.read (f := fun s => s.useD i r) rfl

theorem Both.map {α : Type} {x y : Eff (α × State)} {f : α × State → State} (h : BothGive c p l x y)
    (hf : ∀ a u v, Twins c p l u v → Twins c p l (f (a, u)) (f (a, v))) : BothEnd c p l (x.map f) (y.map f) := by
  obtain ⟨e, rfl, rfl⟩ | ⟨a, u, v, rfl, rfl, k⟩ := h
  · exact .error e
  · exact (hf a u v k).ends

end Twins

/-! ### The accesses of one strand -/

/-- What a strand does takes twins to twins. -/
def Strandwise (f : Nat → State → Eff State) : Prop :=
  ∀ {c p l s t} (i : Nat), Twins c p l s t → BothEnd c p l (f i s) (f i t)

section Strandwise
variable {n : Nat} {d a b : BitVec 6} {lb : Bool} {off : BitVec 31} {o : BitVec 19} {useOld : Bool}

theorem strandwise_load : Strandwise (loadStrand n d a lb off) := by
  intro c p l s t i h
  unfold loadStrand
  rw [h.laneAddr]
  cases s.laneAddr i a lb off with
  | error e => exact .error e
  | ok addr => exact (h.loadGlobal i addr n 32).map fun _ _ _ k => k.setV

theorem strandwise_load64 : Strandwise (load64Strand d a lb off) := by
  intro c p l s t i h
  unfold load64Strand
  rw [h.laneAddr]
  cases s.laneAddr i a lb off with
  | error e => exact .error e
  | ok addr => exact (h.loadGlobal i addr 8 64).map fun _ _ _ k => k.setD2

theorem strandwise_load128 : Strandwise (load128Strand d a lb off) := by
  intro c p l s t i h
  unfold load128Strand
  rw [h.laneAddr]
  cases s.laneAddr i a lb off with
  | error e => exact .error e
  | ok addr => exact (h.loadGlobal i addr 16 128).map fun _ _ _ k => k.setD2.setD2

theorem strandwise_store : Strandwise (storeStrand n d a lb off) := by
  intro c p l s t i h
  unfold storeStrand
  rw [h.laneAddr, h.useV]
  cases s.laneAddr i a lb off with
  | error e => exact .error e
  | ok addr =>
    cases s.useV i d.toNat with
    | error e => exact .error e
    | ok v => exact h.storeGlobal i addr n v.toNat

theorem strandwise_store64 : Strandwise (store64Strand d a lb off) := by
  intro c p l s t i h
  unfold store64Strand
  rw [h.laneAddr, h.useD]
  cases s.laneAddr i a lb off with
  | error e => exact .error e
  | ok addr =>
    cases s.useD i d.toNat with
    | error e => exact .error e
    | ok v => exact h.storeGlobal i addr 8 v.toNat

theorem strandwise_store128 : Strandwise (store128Strand d a lb off) := by
  intro c p l s t i h
  unfold store128Strand
  rw [h.laneAddr, h.useD, h.useD]
  cases s.laneAddr i a lb off with
  | error e => exact .error e
  | ok addr =>
    cases s.useD i d.toNat with
    | error e => exact .error e
    | ok v =>
      cases s.useD i (d.toNat + 1) with
      | error e => exact .error e
      | ok w => exact h.storeGlobal i addr 16 (v.toNat + 2 ^ 64 * w.toNat)

theorem strandwise_ldx : Strandwise (ldxStrand d a lb off) := by
  intro c p l s t i h
  unfold ldxStrand
  rw [h.laneBase, h.read (f := fun s => s.cur.ctx) rfl]
  cases s.laneBase i a lb with
  | error e => exact .error e
  | ok base =>
    obtain ⟨e, hx, hy⟩ | ⟨x, u, v, hx, hy, k⟩ := h.elemAccess s.cur.ctx base off.toInt false
    · simp only [hx, hy]
      exact .error e
    · simp only [hx, hy, State.scaleOf, State.codeAt, State.elemMarked, k.readLE, k.isMarked,
        k.read (f := fun s => s.bookOf i) rfl, k.read (f := fun s => s.fzOf i) rfl, k.loaded.1]
      exact k.loaded.2.setV.raiseOf.touchElem.ends

theorem strandwise_stx : Strandwise (stxStrand d a lb off) := by
  intro c p l s t i h
  unfold stxStrand
  rw [h.laneBase, h.useV, h.read (f := fun s => s.cur.ctx) rfl]
  cases s.laneBase i a lb with
  | error e => exact .error e
  | ok base =>
    cases s.useV i d.toNat with
    | error e => exact .error e
    | ok v =>
      obtain ⟨e, hx, hy⟩ | ⟨x, u, w, hx, hy, k⟩ := h.elemAccess s.cur.ctx base off.toInt true
      · simp only [hx, hy]
        exact .error e
      · simp only [hx, hy, State.scaleOf, k.readLE, k.read (f := fun s => s.bookOf i) rfl,
          k.read (f := fun s => s.modeOf i) rfl, k.read (f := fun s => s.fzOf i) rfl,
          k.read (f := fun s => s.acr (strandBundle i)) rfl]
        exact k.storeMarked.raiseOf.touchElem.ends

theorem strandwise_ldro : Strandwise (ldroStrand d a lb off) := by
  intro c p l s t i h
  unfold ldroStrand
  rw [h.laneAddr]
  cases s.laneAddr i a lb off with
  | error e => exact .error e
  | ok addr =>
    obtain ⟨e, hx, hy⟩ | ⟨⟨pa, q⟩, u, v, hx, hy, k⟩ := h.laneGlobal i addr 4 4 false true
    · simp only [hx, hy]
      exact .error e
    · obtain ⟨hw, k'⟩ := k.readOnlyWord q i pa
      simp only [hx, hy, hw, k'.isMarked, k'.loaded.1]
      exact k'.loaded.2.setV.ends

theorem strandwise_lds : Strandwise (ldsStrand d a lb off) := by
  intro c p l s t i h
  unfold ldsStrand
  rw [h.laneAddr]
  cases s.laneAddr i a lb off with
  | error e => exact .error e
  | ok addr => exact (h.scratchLoad i addr 4 32).map fun _ _ _ k => k.setV

theorem strandwise_sts : Strandwise (stsStrand d a lb off) := by
  intro c p l s t i h
  unfold stsStrand
  rw [h.laneAddr, h.useV]
  cases s.laneAddr i a lb off with
  | error e => exact .error e
  | ok addr =>
    cases s.useV i d.toNat with
    | error e => exact .error e
    | ok v => exact h.scratchStore i addr 4 v.toNat

/-- What LD.S delivers in place of a value: poison, with the condition it met as the origin. -/
theorem Twins.specPoison {c : Issue} {p : Nat → BitVec 8} {l : List Nat} {s t : State} (h : Twins c p l s t)
    {k st : Nat} {cause : BitVec 8} {addr : Dword} :
    (t.specPoison k st cause addr).1 = (s.specPoison k st cause addr).1 ∧
      Twins c p l (s.specPoison k st cause addr).2 (t.specPoison k st cause addr).2 := by
  obtain ⟨hk, hn⟩ := h.newOrigin (o := k) (x := ⟨cause, addr, false, 0, BitVec.ofNat 8 st⟩)
  exact ⟨by rw [State.specPoison, hk]; rfl, hn⟩

theorem strandwise_ldS : Strandwise (ldSStrand d a lb off) := by
  intro c p l s t i h
  unfold ldSStrand
  rw [h.laneAddr]
  cases s.laneAddr i a lb off with
  | error e => exact .error e
  | ok addr =>
    have poison (x : Stopped) (cause : BitVec 8) : BothEnd c p l
        (.ok ((((s.keepBacking false x).specPoison (strandBundle i) (strandIndex i) cause addr).2).setD2 i d.toNat
          ((s.keepBacking false x).specPoison (strandBundle i) (strandIndex i) cause addr).1))
        (.ok ((((t.keepBacking false x).specPoison (strandBundle i) (strandIndex i) cause addr).2).setD2 i d.toNat
          ((t.keepBacking false x).specPoison (strandBundle i) (strandIndex i) cause addr).1)) := by
      have hk : Twins c p l (s.keepBacking false x) (t.keepBacking false x) := h.keepBacking
      rw [hk.specPoison.1]
      exact hk.specPoison.2.setD2.ends
    obtain ⟨e, hx, hy⟩ | ⟨r, u, v, hx, hy, k⟩ := h.loadGlobal i addr 8 64
    · simp only [hx, hy]
      cases e with
      | fault f => exact .error _
      | stopped x =>
        cases x with
        | trap cause y o => exact poison _ cause
        | fatal cause y => exact poison _ cause
        | wait w => exact .error _
    · simp only [hx, hy]
      exact k.setD2.ends

theorem strandwise_tagset : Strandwise (tagsetStrand a lb off) := by
  intro c p l s t i h
  unfold tagsetStrand
  rw [h.laneAddr, h.read (f := fun s => s.cur.ctx) rfl]
  cases s.laneAddr i a lb off with
  | error e => exact .error e
  | ok addr =>
    obtain ⟨e, hx, hy⟩ | ⟨⟨pa, q⟩, u, v, hx, hy, k⟩ := h.globalAccess s.cur.ctx addr 32 32 true false
    · simp only [hx, hy]
      exact .error e
    · simp only [hx, hy]
      exact (Twins.ite (k.map (f := fun u => { u with tags := Tbl.put 0 u.tags (pa / 32) (addrTag addr) }) rfl rfl rfl) k).ends

theorem strandwise_tagget : Strandwise (taggetStrand d a lb off) := by
  intro c p l s t i h
  unfold taggetStrand
  rw [h.laneAddr, h.read (f := fun s => s.cur.ctx) rfl]
  cases s.laneAddr i a lb off with
  | error e => exact .error e
  | ok addr =>
    obtain ⟨e, hx, hy⟩ | ⟨⟨pa, q⟩, u, v, hx, hy, k⟩ := h.globalAccess s.cur.ctx addr 32 32 false false
    · simp only [hx, hy]
      exact .error e
    · simp only [hx, hy, k.read (f := fun s => s.tags) rfl]
      exact k.setV.ends

theorem Twins.outstanding {c : Issue} {p : Nat → BitVec 8} {l : List Nat} {s t : State} (h : Twins c p l s t) {i pa : Nat}
    {addr : Dword} : Twins c p l (s.outstanding i d addr pa) (t.outstanding i d addr pa) := by
  unfold State.outstanding
  rw [h.strand, h.read (f := fun s => s.dieOf (strandBundle i)) rfl]
  exact h.ite (h.setStrand rfl)

theorem strandwise_atom {f : Word → Word → Word → Word} : Strandwise (atomStrand f useOld d a b lb o) := by
  intro c p l s t i h
  unfold atomStrand
  rw [h.laneAddr, h.useV, h.useV]
  cases s.laneAddr i a lb o with
  | error e => exact .error e
  | ok addr =>
    cases s.useV i b.toNat with
    | error e => exact .error e
    | ok y =>
      cases (if useOld = true then s.useV i d.toNat else .ok 0) with
      | error e => exact .error e
      | ok z =>
        obtain ⟨e, hx, hy⟩ | ⟨⟨pa, q⟩, u, v, hx, hy, k⟩ := h.laneGlobal i addr 4 4 true true
        · simp only [hx, hy]
          exact .error e
        · simp only [hx, hy, State.pageLE, k.readLE, k.isMarked, k.storeData.loaded.1]
          exact k.storeData.loaded.2.setV.outstanding.ends

theorem strandwise_atoms {f : Word → Word → Word → Word} : Strandwise (atomsStrand f useOld d a b lb o) := by
  intro c p l s t i h
  unfold atomsStrand
  rw [h.laneAddr, h.useV, h.useV]
  cases s.laneAddr i a lb o with
  | error e => exact .error e
  | ok addr =>
    cases s.useV i b.toNat with
    | error e => exact .error e
    | ok y =>
      cases (if useOld = true then s.useV i d.toNat else .ok 0) with
      | error e => exact .error e
      | ok z =>
        obtain ⟨e, hx, hy⟩ | ⟨old, u, v, hx, hy, k⟩ := h.scratchLoad i addr 4 32
        · simp only [hx, hy]
          exact .error e
        · simp only [hx, hy]
          obtain ⟨e, hx, hy⟩ | ⟨_, u', v', hx, hy, k'⟩ := k.scratchStore i addr 4 (f old.val y z).toNat
          · rw [hx, hy]
            exact .error e
          · rw [hx, hy]
            exact k'.setV.ends

theorem strandwise_atomFadd :
    Strandwise fun i t => atomStrand (fun m x _ => atomFadd (t.fzOf i) m x) false d a b lb o i t := by
  intro c p l s t i h
  dsimp only
  rw [h.read (f := fun s => s.fzOf i) rfl]
  exact strandwise_atom i h

end Strandwise

/-! ### The accesses of a group -/

theorem Twins.foldlM {f : Nat → State → Eff State} (hf : Strandwise f) {c : Issue} {p : Nat → BitVec 8} {l is : List Nat}
    {s t : State} (h : Twins c p l s t) :
    BothEnd c p l (is.foldlM (fun u i => f i u) s) (is.foldlM (fun u i => f i u) t) := by
  induction is generalizing s t with
  | nil => exact h.ends
  | cons i is ih =>
    rw [List.foldlM_cons, List.foldlM_cons]
    obtain ⟨e, hx, hy⟩ | ⟨_, u, v, hx, hy, k⟩ := hf i h
    · rw [hx, hy]
      exact .error e
    · rw [hx, hy]
      exact ih k

/-- An instruction that each guarded strand of a raster group carries out for itself, once the group is not held back: what makes
its outcome of where the strands end leaves a state they end in, and takes a stop otherwise. -/
def PerStrand (instr : Instr) : Prop :=
  ∃ (fin : State → Eff State → Outcome State Fault Refusal) (g : Guard) (f : Nat → State → Eff State), Strandwise f ∧
    (∀ s t, fin s (.ok t) = .next t) ∧ (∀ s e t, fin s (.error e) = .next t → t.last ≠ none) ∧
    ∀ s, s.cur.profile = .raster → s.cur.cleared = true → exec instr s = fin s (forStrands g s f)

/-- A stop is recorded in the state that it leaves. -/
theorem last_of_conclude_error {s t : State} {e : Stop} (h : conclude s (.error e) = .next t) : t.last ≠ none := by
  cases e with
  | fault f => cases h
  | stopped x => cases x <;> cases h <;> exact Option.some_ne_none _

theorem last_of_concludeAccess_error {elem : Bool} {s t : State} {e : Stop} (h : concludeAccess elem s (.error e) = .next t) :
    t.last ≠ none := by
  cases e with
  | fault f => cases h
  | stopped x => exact last_of_conclude_error h

theorem byProfile_raster {g : Guard} {s : State} {f k : Nat → State → Eff State} (h : s.cur.profile = .raster) :
    byProfile g s f k = forStrands g s f := by
  rw [byProfile, h]

theorem PerStrand.of_access {instr : Instr} {elem : Bool} {g : Guard} {f : Nat → State → Eff State} (hf : Strandwise f)
    (h : ∀ s, s.cur.profile = .raster → s.cur.cleared = true → exec instr s = concludeAccess elem s (forStrands g s f)) :
    PerStrand instr :=
  ⟨concludeAccess elem, g, f, hf, fun _ _ => rfl, fun _ _ _ => last_of_concludeAccess_error, h⟩

theorem afterPresence_raster {g : Guard} {a : BitVec 6} {lb : Bool} {w : Nat} {off : BitVec w} {s : State}
    {f k : Nat → State → Eff State} (h : s.cur.profile = .raster) (hc : s.cur.cleared = true) :
    afterPresence g a lb off s f k = concludeAccess false s (forStrands g s f) := by
  rw [afterPresence, if_pos hc, byProfile_raster h]

theorem perStrand_sts {g : Guard} {d a : BitVec 6} {lb : Bool} {off : BitVec 31} : PerStrand (.sts g d a lb off) :=
  ⟨conclude, g, _, strandwise_sts, fun _ _ => rfl, fun _ _ _ => last_of_conclude_error,
    fun s h _ => congrArg (conclude s) (byProfile_raster h)⟩

/-- Strands that act first, then strands that act after them, act as one group. -/
theorem PerStrand.joins {instr : Instr} (h : PerStrand instr) {s u t : State} {is js : List Nat} (hr : s.cur.profile = .raster)
    (ho : s.cur.owners ≠ []) (hc : s.cur.cleared = true) (hs : s.cur.strands = is ++ js)
    (hi : exec instr (s.among is) = .next u) (hu : u.last = none)
    (hj : exec instr { u with cur := { s.cur with strands := js } } = .next t) (ht : t.last = none) :
    exec instr s = .next { t with cur := s.cur } := by
  obtain ⟨fin, g, f, hf, hok, hstop, hex⟩ := h
  have runs {v w : State} (hv : v.cur.profile = .raster) (hvc : v.cur.cleared = true) (hw : exec instr v = .next w)
      (hwl : w.last = none) : forStrands g v f = .ok w := by
    rw [hex v hv hvc] at hw
    cases hx : forStrands g v f with
    | error e => exact absurd hwl (hstop _ _ _ (hx ▸ hw))
    | ok w' =>
      rw [hx, hok] at hw
      cases hw
      rfl
  have first : Twins s.cur (fun i => (s.strand i).p) is s (s.among is) := ⟨rfl, ho, fun _ => rfl, rfl⟩
  have hfi : (is.filter (fun i => s.guardOn g i)).foldlM (fun t i => f i t) (s.among is) = .ok u := runs hr hc hi hu
  obtain ⟨e, -, hy⟩ | ⟨_, v, _, hx, hy, hv⟩ := first.foldlM hf (is := is.filter (fun i => s.guardOn g i))
  · cases hy.symm.trans hfi
  cases hy.symm.trans hfi
  cases hv.among
  have hvj : { v.among is with cur := { s.cur with strands := js } } = v.among js := by
    rw [State.among, State.among, ← hv.cur]
  rw [hvj] at hj
  have second : Twins s.cur (fun i => (s.strand i).p) js v (v.among js) := ⟨hv.cur, ho, hv.preds, rfl⟩
  have guards : (fun i => v.guardOn g i) = fun i => s.guardOn g i := by
    funext i
    simp only [State.guardOn, State.getP, hv.preds]
  have hfj : (js.filter (fun i => v.guardOn g i)).foldlM (fun t i => f i t) (v.among js) = .ok t :=
    runs (by rw [← hr, ← hv.cur]; rfl) (by rw [← hc, ← hv.cur]; rfl) hj ht
  obtain ⟨e, -, hy'⟩ | ⟨_, w, _, hx', hy', hw⟩ := second.foldlM hf (is := js.filter (fun i => v.guardOn g i))
  · cases hy'.symm.trans hfj
  cases hy'.symm.trans hfj
  cases hw.among
  have both : forStrands g s f = .ok w := by
    rw [guards] at hx'
    rw [forStrands, hs, List.filter_append, List.foldlM_append, hx]
    exact hx'
  rw [hex s hr hc, both, hok, ← hw.cur]
  rfl

end Sys2Proof.Machine

namespace Sys2Proof
open Sys2Proof.Machine

/-- Settles O24: each of these instructions is strand-wise, so what its strands do is one fold, cut where `js` begins. -/
theorem groupsActInOrder : Obligations.GroupsActInOrder := by
  intro s u t is js g d a b lb off sc ord o hr ho hc _ hs instr hmem hi hu hj ht
  refine PerStrand.joins ?_ hr ho hc hs hi hu hj ht
  simp only [List.mem_cons, List.not_mem_nil, or_false] at hmem
  rcases hmem with rfl | rfl | rfl | rfl | rfl | rfl | rfl | rfl | rfl | rfl | rfl | rfl | rfl | rfl | rfl | rfl | rfl | rfl | rfl | rfl |
      rfl | rfl | rfl | rfl | rfl | rfl | rfl | rfl | rfl | rfl | rfl | rfl
  exacts [.of_access strandwise_load fun _ _ _ => rfl, .of_access strandwise_load fun _ _ _ => rfl,
    .of_access strandwise_load fun _ _ _ => rfl, .of_access strandwise_load64 fun _ _ _ => rfl,
    .of_access strandwise_load128 fun _ _ _ => rfl, .of_access strandwise_store fun _ _ _ => rfl,
    .of_access strandwise_store fun _ _ _ => rfl, .of_access strandwise_store fun _ _ _ => rfl,
    .of_access strandwise_store64 fun _ _ _ => rfl, .of_access strandwise_store128 fun _ _ _ => rfl,
    .of_access strandwise_ldx fun _ _ _ => rfl, .of_access strandwise_stx fun _ _ _ => rfl,
    .of_access strandwise_ldro fun _ _ _ => rfl, .of_access strandwise_lds fun _ h k => afterPresence_raster h k, perStrand_sts,
    .of_access strandwise_load fun s h _ => congrArg (concludeAccess false s) (byProfile_raster h),
    .of_access strandwise_store fun s h _ => congrArg (concludeAccess false s) (byProfile_raster h),
    .of_access strandwise_ldS fun s h _ => congrArg (concludeAccess false s) (byProfile_raster h),
    .of_access strandwise_tagset fun _ _ _ => rfl, .of_access strandwise_tagget fun _ _ _ => rfl,
    .of_access strandwise_atom fun _ _ _ => rfl, .of_access strandwise_atom fun _ _ _ => rfl,
    .of_access strandwise_atom fun _ _ _ => rfl, .of_access strandwise_atom fun _ _ _ => rfl,
    .of_access strandwise_atom fun _ _ _ => rfl, .of_access strandwise_atom fun _ _ _ => rfl,
    .of_access strandwise_atom fun _ _ _ => rfl, .of_access strandwise_atom fun _ _ _ => rfl,
    .of_access strandwise_atomFadd fun _ _ _ => rfl, .of_access strandwise_atom fun _ _ _ => rfl,
    .of_access strandwise_atoms fun _ h k => afterPresence_raster h k,
    .of_access strandwise_atoms fun _ h k => afterPresence_raster h k]

end Sys2Proof

namespace Sys2Proof.Claims
open Sys2Proof.Machine

/-! ## A barrier of a crew and a strand that has no entry (03 R70, R71)

`State.strand` reads a strand that the table does not list as a fresh one, which is ready, while `State.crewLive` counts the strands that
the table lists. The arrival of an unlisted strand lists it, so it raises the barrier's target together with its count, and the phase
that the statement says is complete is not. -/

/-- A crew of one bundle, number 0. -/
def loneCrew : Crew :=
  { launch := 0, index := 0, grove := none, core := none, saved := false, started := true, ended := false, seq := 0, bundles := [0],
    scratch := [], absent := [], marked := [], heldSignals := [], bars := [], flumes := [], mill := none, records := [],
    meshes := [], stopping := false }

def loneBundle : Bundle :=
  { crew := 0, index := 0, f1 := 0, slot := 0, rot := 0, declared := none, est := 0, touched := [], copyOrd := 0, meshOrd := 0,
    mesh := [], raster := none, rasterRec := none, exited := false }

/-- The crew has one live strand, strand 0 of bundle 0; the group is of strand 1, which has no entry. -/
def unlisted : State :=
  { State.reset with bundles := [(0, loneBundle)], crews := [(0, loneCrew)], strands := [(0, Strand.fresh 0)],
                     cur := { Issue.idle with strands := [1] } }

/-- BAR.CREW of the unlisted strand on barrier 0: one arrival is counted, and the generation stays 0. -/
theorem barCrew_unlisted : ∃ t, exec (.barCrew 0) unlisted = .next t ∧
    ∀ y, Tbl.find? t.crews 0 = some y → Tbl.getD y.bars 0 Barrier.zero = ⟨1, none, 0⟩ := by
  refine ⟨unlisted.barPoint false 0, rfl, fun y hy => ?_⟩
  have h : (Tbl.find? (unlisted.barPoint false 0).crews 0).map (fun y => Tbl.getD y.bars 0 Barrier.zero) = some ⟨1, none, 0⟩ := by
    decide
  rw [hy] at h
  exact Option.some.inj h

theorem not_crewBarrier : ¬ CrewBarrier := by
  intro h
  have arrives (i : Nat) (hi : i ∈ unlisted.cur.strands) : unlisted.crewOf (strandBundle i) = some (0, loneCrew) ∧
      arrivedGen (unlisted.strand i) false 0 = none ∧
      ((unlisted.strand i).stat = .ready ∨ ∃ w, (unlisted.strand i).stat = .parked w) := by
    cases List.mem_singleton.mp hi
    exact ⟨by decide, by decide, .inl (by decide)⟩
  obtain ⟨complete, -⟩ := h unlisted 0 loneCrew 0 rfl (by decide) (by decide) rfl arrives
  obtain ⟨t, y, ht, hy, -, hb, -⟩ := complete (by decide)
  obtain ⟨u, hu, hc⟩ := barCrew_unlisted
  cases ht.symm.trans hu
  exact absurd (hb.symm.trans (hc y hy)) (by decide)

/-- Refutes O12: a group of one ready strand that the strand table does not list meets the count that the crew's live strands call for,
and BAR.CREW neither raises the generation nor returns the count to zero. -/
theorem not_barriersAndWaits : ¬ Obligations.BarriersAndWaits := fun ⟨crew, _⟩ => not_crewBarrier crew

end Sys2Proof.Claims

namespace Sys2Proof.Machine
open Sys2Proof.Claims

/-! ## A step runs the instruction at the program counter (01 R20, R25-R27, 06 R134, 18 R292, R293) -/

section Issue
variable {s t u : State} {a : Dword} {it : Item} {ws : List Word} {p : Profile} {seen : Seen} {i k : Nat} {last next : Dword}

/-! ### Who is in a group (06 R127, R134) -/

theorem insertStrand_perm (s : State) (i : Nat) (is : List Nat) : (s.insertStrand i is).Perm (i :: is) := by
  induction is with
  | nil => exact .refl _
  | cons j rest ih =>
    unfold State.insertStrand
    dsimp only
    split
    · exact .refl _
    · exact (ih.cons j).trans (.swap i j rest)

theorem sortStrands_perm (s : State) (is : List Nat) : (s.sortStrands is).Perm is := by
  induction is with
  | nil => exact .refl _
  | cons i rest ih => exact (insertStrand_perm ..).trans (ih.cons i)

theorem nodup_eraseDups (l : List Nat) : l.eraseDups.Nodup := by
  match l with
  | [] => exact .nil
  | a :: as =>
    rw [List.eraseDups_cons, List.nodup_cons, List.mem_eraseDups, List.mem_filter]
    exact ⟨by simp, nodup_eraseDups _⟩
  termination_by l.length
  decreasing_by exact Nat.lt_succ_of_le (List.length_filter_le ..)

theorem standRaster_group (s : State) {is : List Nat} (h : is.Nodup) :
    (s.standRaster is).cur.strands.Nodup ∧ (s.standRaster is).cur.owners.Nodup ∧
      ∀ i, i ∈ (s.standRaster is).cur.strands ↔ i ∈ is :=
  ⟨(sortStrands_perm s is).nodup_iff.mpr h, nodup_eraseDups _, fun _ => (sortStrands_perm s is).mem_iff⟩

/-! ### Fetch and decode (01 R25-R27) -/

/-- The word that stands as code at an address is fetched, and the fetch leaves the state. -/
theorem fetchWord_of_codeAt {c j cause : Nat} {w : Word} {tag : Dword} (h : CodeAt s c a ws) (hj : ws[j]? = some w) :
    s.fetchWord c (a + BitVec.ofNat 64 (4 * j)) seen cause tag = .ok (w, s) := by
  obtain ⟨hold, q, hwalk, hexec, hex, hmark, hstale, hw⟩ := h j w hj
  simp only [State.fetchWord, State.translate_settled hold, hwalk, hexec, hex, hmark, State.fetchMem, Tbl.getD, hstale, hw,
    Bool.not_true, Bool.false_eq_true, if_false, if_true]
  rfl

/-- Words that stand as code and decode to an instruction are read as it. -/
theorem readItem_of_codeAt (h : CodeAt s s.cur.ctx a ws) (hd : decodeWords p ws = .ok (it, [])) :
    s.readItem p seen a = .ok (⟨a, it, ws⟩, s) := by
  obtain ⟨w, x, ⟨r, hr, hb⟩, hws⟩ := decodeWords_ok_iff.mp hd
  obtain ⟨-, -, -, -, -, -, hl⟩ := decodeBody_ok_iff.mp hb
  have first (v : Word) (hv : ws[0]? = some v) : s.fetchWord s.cur.ctx a seen causeFetchFault a = .ok (v, s) := by
    simpa using fetchWord_of_codeAt (seen := seen) (cause := causeFetchFault) (tag := a) h hv
  split at hws
  · next hlong =>
    subst hws
    have second : s.fetchWord s.cur.ctx (a + 4) seen causeSplitFetch (a + 4) = .ok (x, s) := fetchWord_of_codeAt (j := 1) h rfl
    simp only [State.readItem, first w rfl, hr, hl, hlong, if_true, second, hb]
  · next hshort =>
    obtain ⟨rfl, rfl⟩ := hws
    simp only [State.readItem, first w rfl, hr, hl, hshort, Bool.false_eq_true, if_false, hb]

/-- A group of one instruction is read whole. -/
theorem readGroup_of_codeAt {lasts : List Dword} {before : Nat} (h : CodeAt s s.cur.ctx a ws)
    (hd : decodeWords p ws = .ok (it, [])) (hstop : it.stop = true) (hrules : breaksRules p [] it before (lasts.contains a) = false) :
    s.readGroup p seen lasts before groupFuel a [] = .ok ([⟨a, it, ws⟩], s) := by
  simp only [groupFuel, State.readGroup, readItem_of_codeAt h hd, List.map_nil, List.length_nil, Nat.add_zero, hrules, hstop,
    Bool.false_eq_true, if_false, if_true, List.nil_append]

/-! ### The instruction of a group of one -/

theorem acrFirst_singleton (x : Placed) : acrFirst [x] = [x] := by
  cases h : x.readsAcr <;> simp [acrFirst, h]

/-- An instruction in a group of its own, its conditions met, is carried out in the state it is handed over in. -/
theorem runItems_singleton (x : Placed) :
    (∀ u, exec x.item.instr (handed t x.pc x.item) = .next u → u.last = none →
      { t with cur := { t.cur with cleared := true } }.runItems [x] = .done u) ∧
    (∀ u y, exec x.item.instr (handed t x.pc x.item) = .next u → u.last = some y →
      { t with cur := { t.cur with cleared := true } }.runItems [x] = .stop y x.pc) ∧
    (∀ f, exec x.item.instr (handed t x.pc x.item) = .fault f →
      { t with cur := { t.cur with cleared := true } }.runItems [x] = .fault f) := by
  have runs : { t with cur := { t.cur with cleared := true } }.runItems [x] =
      match exec x.item.instr (handed t x.pc x.item) with
      | .fault f => .fault f
      | .refused r => .refused r
      | .next u => match u.last with
        | some y => .stop y x.pc
        | none => .done u := rfl
  refine ⟨fun u h hl => ?_, fun u y h hl => ?_, fun f h => ?_⟩
  · rw [runs, h]
    dsimp only
    rw [hl]
  · rw [runs, h]
    dsimp only
    rw [hl]
  · rw [runs, h]

theorem runGroup_singleton (x : Placed) :
    t.runGroup none [x] = { t with cur := { t.cur with cleared := true } }.runItems [x] := by
  rw [State.runGroup, acrFirst_singleton]

/-! ### A raster core (06 R134) -/

/-- Where the run's members stand at an instruction `x` that is a group of its own, with no breakpoint on it and its conditions met, the
core carries it out, and completes the group or takes what stops it. -/
theorem issueRaster_of_codeAt {r : Run} {s1 : State} {x : Placed} (hrun : (s.core k).run = some r)
    (hs1 : s1 = (s.standRaster r.members).heardRemote) (hx : x = ⟨s1.cur.gpc, it, ws⟩) (h : CodeAt s1 s1.cur.ctx x.pc ws)
    (hd : decodeWords .raster ws = .ok (it, [])) (hstop : it.stop = true)
    (hrules : breaksRules .raster [] it r.count
      (((s1.cur.strands.map (fun i => (s1.strand i).loops.map (fun (l : Loop) => l.last))).flatten.eraseDups).contains x.pc) = false)
    (hbreak : s1.breakAt x = none) (hconv : convergent it.instr = false) (hne : s1.cur.strands ≠ [])
    (hpts : s1.allPoints [x] = (t, none)) (htne : t.cur.strands ≠ []) :
    (∀ u, exec it.instr (handed t x.pc it) = .next u → u.last = none → s.issueRaster k = .next (u.commitRaster k [x])) ∧
    (∀ u y, exec it.instr (handed t x.pc it) = .next u → u.last = some y →
      s.issueRaster k = .next (t.stopRaster k (elemInstr it.instr) y (s1.stopDetail [x] y x.pc))) ∧
    (∀ f, exec it.instr (handed t x.pc it) = .fault f → s.issueRaster k = .fault f) := by
  subst hx
  have hread : s1.readRaster r.count = .ok ([⟨s1.cur.gpc, it, ws⟩], s1) := readGroup_of_codeAt h hd hstop hrules
  have hbr : State.breakRaster [⟨s1.cur.gpc, it, ws⟩] [⟨s1.cur.gpc, it, ws⟩] s1 = s1 := by
    simp only [State.breakRaster, hbreak]
  have hpoints : s1.rasterPoints [⟨s1.cur.gpc, it, ws⟩] = (t, none) := by
    simp [State.rasterPoints, hconv, hne, hpts]
  obtain ⟨hdone, hstopped, hfault⟩ := runItems_singleton (t := t) ⟨s1.cur.gpc, it, ws⟩
  simp only [State.issueRaster, hrun, ← hs1, hread, hbr, hpoints, List.isEmpty_iff, hne, htne, false_and, if_false,
    runGroup_singleton]
  refine ⟨fun u hu hl => ?_, fun u y hu hl => ?_, fun f hf => ?_⟩
  · rw [hdone u hu hl]
  · simp [hstopped u y hu hl]
  · rw [hfault f hf]

/-! ### What a completed raster group leaves (03 R65-R67) -/

/-- A strand as a completed group leaves it. -/
def Strand.advance (x : Strand) (last next : Dword) : Strand :=
  match x.stat with
  | .dead => x
  | .halted => x
  | .stopped _ => x
  | st =>
    let e := backEdge x.loops last
    let y := if x.moved then x else { x with loops := e.1, pc := e.2.getD next }
    { y with moved := false, bpSkip := none, since := 0, stat := if st = .milled then .milled else .ready }

theorem strand_advanceStrand (s : State) (last next : Dword) (j i : Nat) :
    (s.advanceStrand last next j).strand i = if i = j then (s.strand j).advance last next else s.strand i := by
  have writes {x : Strand} : (s.setStrand j x).strand i = if i = j then x else s.strand i := State.strand_setStrand ..
  have keeps : s.strand i = if i = j then s.strand j else s.strand i := by
    split
    · next h => rw [h]
    · rfl
  unfold State.advanceStrand Strand.advance
  dsimp only
  cases (s.strand j).stat with
  | dead | halted | stopped => exact keeps
  | ready | parked | milled => exact writes

theorem strand_foldl_advanceStrand {is : List Nat} (hn : is.Nodup) (s : State) (last next : Dword) (i : Nat) :
    (is.foldl (fun (t : State) j => t.advanceStrand last next j) s).strand i =
      if i ∈ is then (s.strand i).advance last next else s.strand i := by
  induction is generalizing s with
  | nil => rfl
  | cons j is ih =>
    obtain ⟨hj, hn⟩ := List.nodup_cons.mp hn
    rw [List.foldl_cons, ih hn, strand_advanceStrand]
    by_cases hij : i = j
    · subst hij
      simp [hj]
    · simp [hij]

theorem strand_stopNow (s : State) {i : Nat} (h : (s.strand i).stopDue = false) (j : Nat) : (s.stopNow j).strand i = s.strand i := by
  have stops (w : Option Wait) (hj : (s.strand j).stopDue = true) :
      ((s.setStrand j { s.strand j with stat := .stopped w, stopDue := false }).markStopped (strandBundle j)).strand i =
        s.strand i := by
    have hij : i ≠ j := by
      rintro rfl
      simp [h] at hj
    unfold State.markStopped
    split <;> simp [State.strand_setStrand, hij]
  unfold State.stopNow
  dsimp only
  split
  · next hj =>
    split
    · exact stops _ hj
    · exact stops _ hj
    · rfl
  · rfl

theorem strand_nextRun (s : State) {i : Nat} (h : (s.strand i).stopDue = false) (k n : Nat) (ends : Bool) :
    (s.nextRun k n ends).strand i = s.strand i := by
  unfold State.nextRun
  exact foldl_keeps (fun t : State => t.strand i = s.strand i) _
    (fun t j ht => (strand_stopNow t (ht ▸ h) j).trans ht) _ _ rfl

theorem foldl_settleAcr (os : List Nat) (s : State) :
    (os.foldl State.settleAcr s).strands = s.strands ∧ (os.foldl State.settleAcr s).cur = s.cur :=
  foldl_keeps (fun t : State => t.strands = s.strands ∧ t.cur = s.cur) _
    (fun t o ht => by
      unfold State.settleAcr
      split
      · exact ht
      · exact ht) _ _ ⟨rfl, rfl⟩

theorem stopDue_advance (x : Strand) (last next : Dword) : (x.advance last next).stopDue = x.stopDue := by
  unfold Strand.advance
  cases x.stat <;> cases x.moved <;> rfl

theorem strand_commitRaster (s : State) (k : Nat) (x : Placed) (hn : s.cur.strands.Nodup) (hi : i ∈ s.cur.strands)
    (hdue : (s.strand i).stopDue = false) : (s.commitRaster k [x]).strand i = (s.strand i).advance x.pc x.next := by
  obtain ⟨hstrands, hcur⟩ := foldl_settleAcr s.cur.allOwners s
  have hcommit : s.commitRaster k [x] =
      (((s.cur.allOwners.foldl State.settleAcr s).cur.strands.foldl (fun (t : State) j => t.advanceStrand x.pc x.next j)
        (s.cur.allOwners.foldl State.settleAcr s)).nextRun k 1 x.item.runEnd).leave := rfl
  generalize s.cur.allOwners.foldl State.settleAcr s = w at hstrands hcur hcommit
  have hw : w.strand i = s.strand i := by
    rw [State.strand, hstrands]
    rfl
  have hadv : (w.cur.strands.foldl (fun (t : State) j => t.advanceStrand x.pc x.next j) w).strand i =
      (s.strand i).advance x.pc x.next := by
    rw [strand_foldl_advanceStrand (hcur ▸ hn), if_pos (hcur ▸ hi), hw]
  rw [hcommit]
  exact (strand_nextRun _ (by rw [hadv, stopDue_advance, hdue]) ..).trans hadv

theorem advance_moved {x : Strand} (hr : x.stat = .ready) (hm : x.moved = true) :
    x.advance last next = { x with moved := false, bpSkip := none, since := 0 } := by
  rw [Strand.advance, hr]
  simp [hm]

theorem advance_unmoved {x : Strand} (hr : x.stat = .ready) (hm : x.moved = false) (hl : ∀ l ∈ x.loops, l.last ≠ last) :
    x.advance last next = { x with moved := false, bpSkip := none, since := 0, pc := next } := by
  have hb : backEdge x.loops last = (x.loops, none) := by
    cases hx : x.loops with
    | nil => rfl
    | cons l rest => rw [backEdge, if_neg (hl l (by simp [hx]))]
  rw [Strand.advance, hr]
  simp [hm, hb]

/-! ### A tile (18 R292, R293) -/

/-- Where a stream's head stands at an instruction `x` of the access processor that is a group of its own, with no breakpoint on it and
its conditions met, the access processor carries it out. -/
theorem issueAccess_of_codeAt {n : Nat} {st : Stream} {s1 : State} {x : Placed} (hst : (s.tile n).stream = some st)
    (hfree : st.free = true) (hacq : st.acq = []) (hhead : st.head = some x.pc) (hs1 : s1 = s.standTile n x.pc none)
    (h : CodeAt s1 s1.cur.ctx x.pc x.words) (hd : decodeWords .tile x.words = .ok (x.item, [])) (hstop : x.item.stop = true)
    (hrules : breaksRules .tile [] x.item st.runCount ((st.loops.map (fun (l : Loop) => l.last)).contains x.pc) = false)
    (hbreak : s1.breakIn st.bpSkip [x] = none) (hacc : instrAccess x.item.instr = true) (hpts : s1.allPoints [x] = (t, none))
    (htne : t.cur.owners ≠ []) (hu : exec x.item.instr (handed t x.pc x.item) = .next u) (hl : u.last = none) :
    s.issueAccess n = .next (u.commitAccess s1 n [x] true) := by
  have hpc : s1.cur.gpc = x.pc := by
    rw [hs1]
    rfl
  have hread : s1.readTile st = .ok ([x], s1) := by
    rw [State.readTile, hpc]
    exact readGroup_of_codeAt h hd hstop hrules
  have hexec : s1.executeStop n st x.pc [x] = none := by
    simp [State.executeStop, executeHalf, hacc]
  have hhalf : accessHalf [x] = [x] := by
    simp [accessHalf, hacc]
  obtain ⟨hdone, -⟩ := runItems_singleton (t := t) x
  simp only [State.issueAccess, hst, hfree, hacq, hhead, ← hs1, hread, hbreak, hexec, State.runAccess, hhalf, hpts,
    runGroup_singleton, hdone u hu hl, List.isEmpty_iff, htne, Bool.not_true, Bool.false_eq_true, false_and, if_false]

/-- The execute half of a group of one instruction `x` that the access processor has passed is `x`: it completes, or at a stall leaves
everything as it was. -/
theorem issueExecute_singleton {n : Nat} {st : Stream} {g : PathGroup} {rest : List PathGroup} {x : Placed} {s2 : State}
    (hst : (s.tile n).stream = some st) (hfree : st.free = true) (hexq : st.exq = g :: rest) (hitems : g.items = [x])
    (hexe : instrAccess x.item.instr = false)
    (hs2 : s2 = (((s.beforeNext n).tick n).setStream n (fun (y : Stream) => y.rotate g.rot)).standTile n g.pc g.acr)
    (hu : exec x.item.instr (handed s2 x.pc x.item) = .next u) :
    (u.last = none → s.issueExecute n = .next (u.commitExecute n)) ∧
    (∀ w, u.last = some (.wait w) → s.issueExecute n = .next s) := by
  have hhalf : executeHalf [x] = [x] := by
    simp [executeHalf, hexe]
  obtain ⟨hdone, hstopped, -⟩ := runItems_singleton (t := s2) x
  simp only [State.issueExecute, hst, hfree, hexq, State.tryExecute, hitems, hhalf, ← hs2, Bool.not_true, Bool.false_eq_true, if_false]
  refine ⟨fun hl => ?_, fun w hl => ?_⟩
  · rw [hdone u hu hl]
  · rw [hstopped u _ hu hl]

theorem free_of_going {st : Stream} (hhalt : st.halted = false) (hsaved : st.saved = false) : st.free = true := by
  rw [Stream.free, hhalt, hsaved]
  rfl

/-- With nothing asked for from outside, the step is one group of the agent that has the focus. -/
theorem step_of_focus {g : Agent} (hin : s.inbox = []) (hfoc : s.focus = g) (hg : g ≠ .none) :
    step s = { s with focus := .none }.issueAgent g := by
  subst hfoc
  rw [step, hin]
  cases h : s.focus with
  | none => exact absurd h hg
  | raster | access | execute => rfl

end Issue
end Sys2Proof.Machine

namespace Sys2Proof
open Sys2Proof.Machine Sys2Proof.Claims

/-- Settles O59: the words at the program counter are read as a group of one instruction, which runs in the state it is handed over in. -/
theorem stepRunsDecoded : Obligations.StepRunsDecoded := by
  refine ⟨fun s i rest h => ?_, fun s is h => standRaster_group s h, ?_, ?_, ?_, ?_⟩
  · rw [step, h]
  · intro s t k r it ws hin hfoc hrun s1 a x hcode hd hstop hrules hbreak hconv hne hpts htne
    rw [step_of_focus hin hfoc nofun]
    exact issueRaster_of_codeAt (s := { s with focus := .none }) hrun rfl rfl hcode hd hstop hrules hbreak hconv hne hpts htne
  · intro u k i x hn hi hready hdue
    refine ⟨fun hm => ?_, fun hm hl => ?_⟩
    · rw [strand_commitRaster u k x hn hi hdue, advance_moved hready hm]
    · rw [strand_commitRaster u k x hn hi hdue, advance_unmoved hready hm hl]
      rfl
  · intro s v t st a it ws hin hfoc hst hhalt hsaved hacq hhead s1 x hcode hd hstop hrules hbreak hacc hpts htne u hu hl
    rw [step_of_focus hin hfoc nofun]
    exact issueAccess_of_codeAt (s := { s with focus := .none }) (x := x) hst (free_of_going hhalt hsaved) hacq hhead rfl hcode hd hstop
      hrules hbreak hacc hpts htne hu hl
  · intro s t st p rest x hin hfoc hst hhalt hsaved hexq hitems hexe s1 s2 u hu
    rw [step_of_focus hin hfoc nofun]
    exact issueExecute_singleton (s := { s with focus := .none }) hst (free_of_going hhalt hsaved) hexq hitems hexe rfl hu

end Sys2Proof

namespace Sys2Proof.Machine

/-! ## The state after reset (26 R390)

Its tables list nothing but the six compute dies, so a lookup in it answers the reset value of what is looked up. -/

section Reset

/-- Every register page holds its reset values (25 R375). -/
@[simp] theorem reset_ctx (c : Nat) : State.reset.ctx c = Context.reset := Tbl.getD_nil c _

@[simp] theorem reset_govStream (c n : Nat) : State.reset.govStream c n = GovStream.reset := by
  rw [State.govStream, reset_ctx]
  exact Tbl.getD_nil n _

@[simp] theorem reset_tile (t : Nat) : State.reset.tile t = Tile.reset := Tbl.getD_nil t _

/-- Memory reads as 0: the model's choice (log 1). -/
@[simp] theorem reset_byte (pa : Nat) : State.reset.byte pa = 0 := Tbl.getD_nil pa _

/-- The compute islands of each of the six dies are held in reset (26 R390). -/
theorem reset_die : ∀ d, d < 6 → State.reset.die d = .inReset := by decide

/-- The E2M1 book holds 6 at code 7 and -6 at code 15 (02 R37). -/
theorem resetBook_largest : resetBook.length = 16 ∧ resetBook.getD 7 0 = 0x40C0 ∧ resetBook.getD 15 0 = 0xC0C0 := by decide

end Reset
end Sys2Proof.Machine

namespace Sys2Proof
open Sys2Proof.Machine

/-- Settles O55: each lookup in the state after reset answers its reset value, and its canonical form is `reset_inv`. -/
theorem resetState : Obligations.ResetState := by
  refine ⟨reset_inv, rfl, rfl, reset_die, fun c => ?_, fun t => ?_, rfl, rfl, rfl, reset_byte⟩
  · rw [reset_ctx]
    exact ⟨rfl, rfl, rfl, reset_govStream c⟩
  · obtain ⟨hlen, hpos, hneg⟩ := resetBook_largest
    rw [reset_tile]
    exact ⟨rfl, rfl, rfl, hlen, rfl, hpos, hneg⟩

end Sys2Proof

namespace Sys2Proof.Machine

open Sys2Proof.Claims

/-! ## The values of the scalar instructions (03 R57-R60) -/

/-- A word is the number it stands for. -/
theorem ofNat_toNat_self {w : Nat} (x : BitVec w) : BitVec.ofNat w x.toNat = x := by simp

theorem shiftOf_eq_low6 (y : Dword) : shiftOf y = low6 y := by simp [shiftOf, low6]
theorem fieldLo_eq_low6 (y : Dword) : fieldLo y = low6 y := shiftOf_eq_low6 y
theorem fieldWidth_eq_widthOf (y : Dword) : fieldWidth y = widthOf y := by
  simp [fieldWidth, widthOf, Nat.shiftRight_eq_div_pow]

theorem low6_lt (y : Dword) : low6 y < 64 := Nat.mod_lt _ (by decide)

/-- A word read as signed and as unsigned agrees modulo its range. -/
theorem toInt_emod_two_pow {w : Nat} (x : BitVec w) : x.toInt % ((2 ^ w : Nat) : Int) = x.toNat := by
  rw [BitVec.toInt_eq_toNat_bmod, Int.bmod_emod, ← Int.natCast_emod, Nat.mod_eq_of_lt x.isLt]

/-- The high half of a 128-bit product whose factors are the sign-extended operands. -/
theorem mulHigh_signed (x y : Dword) : mulHigh true x y = BitVec.ofInt 64 (x.toInt * y.toInt / 2 ^ 64) := by
  have hprod : ((x.signExtend 128 * y.signExtend 128).toNat : Int) = (x.toInt * y.toInt) % ((2 ^ 128 : Nat) : Int) := by
    rw [← BitVec.toInt_signExtend_of_le (v := 128) (x := x) (by decide),
      ← BitVec.toInt_signExtend_of_le (v := 128) (x := y) (by decide), Int.mul_emod, toInt_emod_two_pow,
      toInt_emod_two_pow, ← Int.natCast_mul, ← Int.natCast_emod, BitVec.toNat_mul]
  apply BitVec.eq_of_toNat_eq
  rw [mulHigh, if_pos rfl, BitVec.extractLsb'_toNat, BitVec.toNat_ofInt, Nat.shiftRight_eq_div_pow]
  omega

theorem mulHigh_unsigned (x y : Dword) : mulHigh false x y = BitVec.ofNat 64 (x.toNat * y.toNat / 2 ^ 64) := by
  have hlt : x.toNat * y.toNat < 2 ^ 128 := by
    calc x.toNat * y.toNat < 2 ^ 64 * 2 ^ 64 := Nat.mul_lt_mul'' x.isLt y.isLt
      _ = 2 ^ 128 := by norm_num
  apply BitVec.eq_of_toNat_eq
  rw [mulHigh, if_neg (by decide), BitVec.extractLsb'_toNat, BitVec.toNat_mul, BitVec.toNat_setWidth_of_le (by decide),
    BitVec.toNat_setWidth_of_le (by decide), Nat.mod_eq_of_lt hlt, Nat.shiftRight_eq_div_pow, BitVec.toNat_ofNat]

theorem divS_eq (x y : Dword) :
    divS x y = if y = 0 then BitVec.allOnes 64 else BitVec.ofInt 64 (x.toInt.tdiv y.toInt) := by
  unfold divS
  split
  · decide
  · apply BitVec.eq_of_toInt_eq
    rw [BitVec.toInt_sdiv, BitVec.toInt_ofInt]

theorem divU_eq (x y : Dword) : divU x y = if y = 0 then BitVec.allOnes 64 else BitVec.ofNat 64 (x.toNat / y.toNat) := by
  unfold divU
  split
  · decide
  · exact (ofNat_toNat_self _).symm

/-- A remainder by zero is the dividend, as truncated division by zero leaves it. -/
theorem remS_eq (x y : Dword) : remS x y = BitVec.ofInt 64 (x.toInt.tmod y.toInt) := by
  unfold remS
  split
  case isTrue h => subst h; simp
  case isFalse => rw [← BitVec.toInt_srem, BitVec.ofInt_toInt]

theorem remU_eq (x y : Dword) : remU x y = BitVec.ofNat 64 (x.toNat % y.toNat) := by
  unfold remU
  split
  case isTrue h => subst h; simp
  case isFalse => exact (ofNat_toNat_self _).symm

theorem sshiftRight_eq_div {w : Nat} (x : BitVec w) (n : Nat) :
    x.sshiftRight n = BitVec.ofInt w (x.toInt / 2 ^ n) := by
  rw [← BitVec.ofInt_toInt (x := x.sshiftRight n), BitVec.toInt_sshiftRight, Int.shiftRight_eq_div_pow]
  norm_cast

theorem ushiftRight_eq_div {w : Nat} (x : BitVec w) (n : Nat) : x >>> n = BitVec.ofNat w (x.toNat / 2 ^ n) := by
  rw [← ofNat_toNat_self (x >>> n), BitVec.toNat_ushiftRight, Nat.shiftRight_eq_div_pow]

theorem rotateRight_eq_or (x y : Dword) :
    x.rotateRight (low6 y) = (x >>> low6 y) ||| (x <<< (64 - low6 y)) := by
  rw [BitVec.rotateRight_def, Nat.mod_eq_of_lt (low6_lt y)]

theorem abs_eq_natAbs (x : Dword) : (if x.msb then 0 - x else x) = BitVec.ofInt 64 x.toInt.natAbs := by
  cases h : x.msb
  case false => 
    have : 0 ≤ x.toInt := BitVec.toInt_nonneg_of_msb_false h
    rw [if_neg (by decide), Int.natAbs_of_nonneg this, BitVec.ofInt_toInt]
  case true =>
    have : x.toInt < 0 := BitVec.toInt_neg_of_msb_true h
    rw [if_pos rfl, Int.ofNat_natAbs_of_nonpos this.le, BitVec.ofInt_neg, BitVec.ofInt_toInt]
    simp

theorem pickMin_signed {w : Nat} (x y : BitVec w) : pickMin true x y = if x.toInt < y.toInt then x else y := by
  simp [pickMin, BitVec.slt_eq_decide]
theorem pickMin_unsigned {w : Nat} (x y : BitVec w) : pickMin false x y = if x.toNat < y.toNat then x else y := by
  simp [pickMin, BitVec.ult_eq_decide]

/-- The greater of two values whichever way it is asked: neither lies below the other only where they are equal. -/
theorem pickMax_signed {w : Nat} (x y : BitVec w) : pickMax true x y = if y.toInt < x.toInt then x else y := by
  have heq : x.toInt = y.toInt → x = y := BitVec.eq_of_toInt_eq
  simp only [pickMax, if_true, BitVec.slt_eq_decide, decide_eq_true_eq]
  split <;> split
  · omega
  · rfl
  · rfl
  · exact heq (by omega)
theorem pickMax_unsigned {w : Nat} (x y : BitVec w) : pickMax false x y = if y.toNat < x.toNat then x else y := by
  have heq : x.toNat = y.toNat → x = y := BitVec.eq_of_toNat_eq
  simp only [pickMax, Bool.false_eq_true, if_false, BitVec.ult_eq_decide, decide_eq_true_eq]
  split <;> split
  · omega
  · rfl
  · rfl
  · exact heq (by omega)

theorem cmpVal_signed (x y : Dword) :
    cmpVal false x y = if x.toInt < y.toInt then BitVec.allOnes 64 else if x = y then 0 else 1 := by
  unfold cmpVal
  simp only [Bool.false_eq_true, if_false, BitVec.slt_eq_decide, decide_eq_true_eq]
  by_cases h : x = y
  · subst h; simp
  · simp [h]

theorem cmpVal_unsigned (x y : Dword) :
    cmpVal true x y = if x.toNat < y.toNat then BitVec.allOnes 64 else if x = y then 0 else 1 := by
  unfold cmpVal
  simp only [if_true, BitVec.ult_eq_decide, decide_eq_true_eq]
  by_cases h : x = y
  · subst h; simp
  · simp [h]

/-- An address is its tag and top bits above its low 56 bits. -/
theorem append56_toNat (t : BitVec 8) (lo : BitVec 56) : (t ++ lo).toNat = t.toNat * 2 ^ 56 + lo.toNat := by
  rw [BitVec.toNat_append, ← Nat.shiftLeft_add_eq_or_of_lt lo.isLt, Nat.shiftLeft_eq]

theorem leaVal_add (x y : Dword) : leaVal false x y =
    BitVec.ofNat 64 (x.toNat / 2 ^ 56 * 2 ^ 56 + (x.toNat % 2 ^ 56 + y.toNat % 2 ^ 56) % 2 ^ 56) := by
  apply BitVec.eq_of_toNat_eq
  simp only [leaVal, Bool.false_eq_true, if_false]
  rw [append56_toNat, BitVec.toNat_add, BitVec.extractLsb'_toNat, BitVec.extractLsb'_toNat, BitVec.extractLsb'_toNat,
    BitVec.toNat_ofNat, Nat.shiftRight_eq_div_pow, Nat.shiftRight_zero, Nat.shiftRight_zero]
  have := x.isLt
  omega

theorem leaVal_sub (x y : Dword) : leaVal true x y =
    BitVec.ofNat 64 (x.toNat / 2 ^ 56 * 2 ^ 56 + (x.toNat % 2 ^ 56 + 2 ^ 56 - y.toNat % 2 ^ 56) % 2 ^ 56) := by
  apply BitVec.eq_of_toNat_eq
  simp only [leaVal, if_true]
  rw [append56_toNat, BitVec.toNat_sub, BitVec.extractLsb'_toNat, BitVec.extractLsb'_toNat, BitVec.extractLsb'_toNat,
    BitVec.toNat_ofNat, Nat.shiftRight_eq_div_pow, Nat.shiftRight_zero, Nat.shiftRight_zero]
  have := x.isLt
  omega

/-! ### Counting bits -/

theorem popVal_eq_countP {w : Nat} (x : BitVec w) : popVal x = (List.range w).countP (fun i => x.getLsbD i) :=
  List.countP_eq_length_filter.symm

theorem ctzFrom_eq_find {w : Nat} (x : BitVec w) (k i : Nat) :
    ctzFrom x i k = ((List.range' i k).find? (fun j => x.getLsbD j)).getD (i + k) := by
  induction k generalizing i with
  | zero => rfl
  | succ k ih =>
    rw [ctzFrom, List.range'_succ, List.find?_cons, ih]
    cases x.getLsbD i
    · simp [Nat.add_assoc, Nat.add_comm 1 k]
    · rfl

theorem ctzVal_eq_find {w : Nat} (x : BitVec w) :
    ctzVal x = ((List.range w).find? (fun j => x.getLsbD j)).getD w := by
  rw [ctzVal, ctzFrom_eq_find, List.range_eq_range', Nat.zero_add]

/-- Bits above the highest set one are clear. -/
theorem testBit_above_log2 {n j : Nat} (h : Nat.log2 n < j) : n.testBit j = false :=
  Nat.testBit_lt_two_pow (Nat.lt_log2_self.trans_le (Nat.pow_le_pow_right (by decide) h))

theorem clzVal_eq_find {w : Nat} (x : BitVec w) :
    clzVal x = ((List.range w).find? (fun j => x.getMsbD j)).getD w := by
  unfold clzVal
  split
  case isTrue h =>
    subst h
    rw [List.find?_eq_none.2 (by simp)]; rfl
  case isFalse h =>
    have hx : x.toNat ≠ 0 := fun e => h (BitVec.eq_of_toNat_eq (by simpa using e))
    have hlog : Nat.log2 x.toNat < w := (Nat.log2_lt hx).2 x.isLt
    have hfind : (List.range w).find? (fun j => x.getMsbD j) = some (w - 1 - Nat.log2 x.toNat) := by
      refine List.find?_range_eq_some.2 ⟨?_, by simp; omega, fun j hj => ?_⟩
      · have : w - 1 - (w - 1 - Nat.log2 x.toNat) = Nat.log2 x.toNat := by omega
        simp only [BitVec.getMsbD, this, Bool.and_eq_true, decide_eq_true_eq]
        exact ⟨by omega, Nat.testBit_log2 hx⟩
      · have : x.getLsbD (w - 1 - j) = false := testBit_above_log2 (by omega)
        simp [BitVec.getMsbD, this]
    rw [hfind]; rfl

/-! ### Bit fields and confinement -/

theorem bitField_unsigned {w : Nat} (x : BitVec w) (lo width : Nat) :
    bitField false x lo width = BitVec.ofNat w (x.toNat / 2 ^ lo % 2 ^ width) := rfl

/-- The value of a field whose top bit is its sign. -/
theorem bmod_eq_of_testBit (n width : Nat) (h : 0 < width) :
    Int.bmod n (2 ^ width) =
      if (n % 2 ^ width).testBit (width - 1) then ((n % 2 ^ width : Nat) : Int) - (2 ^ width : Nat)
      else ((n % 2 ^ width : Nat) : Int) := by
  obtain ⟨k, rfl⟩ : ∃ k, width = k + 1 := ⟨width - 1, by omega⟩
  have hlt : n % 2 ^ (k + 1) < 2 ^ (k + 1) := Nat.mod_lt _ (Nat.two_pow_pos _)
  have htop : (n % 2 ^ (k + 1)).testBit (k + 1 - 1) = decide (2 ^ k ≤ n % 2 ^ (k + 1)) := by
    rw [Nat.add_sub_cancel, Nat.testBit_eq_decide_div_mod_eq]
    congr 1
    rw [Nat.pow_succ] at hlt ⊢
    have hdiv : n % (2 ^ k * 2) / 2 ^ k < 2 := Nat.div_lt_of_lt_mul hlt
    rw [Nat.mod_eq_of_lt hdiv, eq_iff_iff]
    constructor
    · intro e
      exact (Nat.one_le_div_iff (Nat.two_pow_pos _)).1 e.ge
    · intro e
      have := (Nat.one_le_div_iff (Nat.two_pow_pos _)).2 e
      omega
  rw [htop, Int.bmod, ← Int.natCast_emod, Nat.pow_succ] 
  simp only [decide_eq_true_eq]
  have hsign : ((n % (2 ^ k * 2) : Nat) : Int) < (((2 ^ k * 2 : Nat) : Int) + 1) / 2 ↔ ¬ 2 ^ k ≤ n % (2 ^ k * 2) := by
    omega
  by_cases h : 2 ^ k ≤ n % (2 ^ k * 2)
  · rw [if_pos h, if_neg (fun e => hsign.1 e h)]
  · rw [if_neg h, if_pos (hsign.2 h)]

theorem bitField_signed {w : Nat} (x : BitVec w) (lo width : Nat) (h : 0 < width) :
    bitField true x lo width = BitVec.ofInt w (Int.bmod (x.toNat / 2 ^ lo : Nat) (2 ^ width)) := by
  rw [bmod_eq_of_testBit _ _ h]
  unfold bitField
  simp only [Bool.true_and]
  split
  · rfl
  · rw [BitVec.ofInt_natCast]

/-- The inserted positions are those of the mask. -/
theorem bitInsert_eq_inserted (z x : Dword) (lo width : Nat) : bitInsert z x lo width = inserted z x lo width := by
  apply BitVec.eq_of_getLsbD_eq
  intro i hi
  have hmask : (BitVec.ofNat 64 ((2 ^ width - 1) * 2 ^ lo)).getLsbD i = decide (lo ≤ i ∧ i < lo + width) := by
    rw [BitVec.getLsbD_ofNat, Nat.testBit_mul_two_pow, Nat.testBit_two_pow_sub_one, Bool.eq_iff_iff]
    simp only [Bool.and_eq_true, decide_eq_true_eq]
    omega
  simp only [bitInsert, inserted, BitVec.getLsbD_or, BitVec.getLsbD_and, BitVec.getLsbD_not, BitVec.getLsbD_shiftLeft,
    BitVec.getLsbD_ofFnLE, hmask]
  by_cases h : lo ≤ i ∧ i < lo + width
  · have hge : ¬ i < lo := by omega
    simp [h, hi, hge]
  · simp [h, hi]

theorem clampBits_eq_confined (isSigned : Bool) (x : Int) :
    clampBits isSigned 64 x = confined (intLo isSigned 64) (intHi isSigned 64) x := by
  have hle : intLo isSigned 64 ≤ intHi isSigned 64 := by cases isSigned <;> decide
  unfold clampBits confined clampInt
  congr 1
  split
  · omega
  · split <;> omega

end Sys2Proof.Machine

namespace Sys2Proof.Machine
open Sys2Proof.Claims
open Host (Outcome)

/-! ### Each instruction is its operand form with the rule's value -/

theorem exec_scalarOne (s : State) (d a : BitVec 6) (imm : BitVec 32) :
    ∀ p ∈ scalarOne d a imm, exec p.1 s = .next (scalar1 s d a p.2) := by
  simp only [scalarOne, List.forall_mem_cons, List.not_mem_nil, false_imp_iff, implies_true, and_true]
  refine ⟨rfl, rfl, rfl, rfl, ?_, ?_, rfl, rfl, ?_, ?_, ?_, rfl⟩
  · exact congrArg (fun f => Outcome.next (scalar1 s d a f)) (funext abs_eq_natAbs)
  · exact congrArg (fun f => Outcome.next (scalar1 s d a f)) (funext BitVec.zero_sub)
  · exact congrArg (fun f => Outcome.next (scalar1 s d a f)) (funext fun x => congrArg _ (popVal_eq_countP x))
  · exact congrArg (fun f => Outcome.next (scalar1 s d a f)) (funext fun x => congrArg _ (clzVal_eq_find x))
  · exact congrArg (fun f => Outcome.next (scalar1 s d a f)) (funext fun x => congrArg _ (ctzVal_eq_find x))

/-- Two scalar forms with the same values have the same effect. -/
theorem next_scalar2_congr (s : State) (d a b : BitVec 6) {f g : Dword → Dword → Dword} (h : ∀ x y, f x y = g x y) :
    (Outcome.next (scalar2 s d a b f) : Outcome State Fault Refusal) = .next (scalar2 s d a b g) := by
  rw [funext fun x => funext (h x)]

theorem exec_scalarTwo (s : State) (d a b : BitVec 6) :
    ∀ p ∈ scalarTwo d a b, exec p.1 s = .next (scalar2 s d a b p.2) := by
  simp only [scalarTwo, List.forall_mem_cons, List.not_mem_nil, false_imp_iff, implies_true, and_true]
  refine ⟨rfl, rfl, rfl, ?mulhI, ?mulhN, ?divI, ?divN, ?remI, ?remN, rfl, rfl, rfl, ?shl, ?shrI, ?shrN, ?rot,
    ?minI, ?minN, ?maxI, ?maxN, ?cmpI, ?cmpN, ?leaA, ?leaS, ?bfxI, ?bfxN, ?addsI, ?addsN, ?subsI, ?subsN⟩
  case mulhI => exact next_scalar2_congr s d a b mulHigh_signed
  case mulhN => exact next_scalar2_congr s d a b mulHigh_unsigned
  case divI => exact next_scalar2_congr s d a b divS_eq
  case divN => exact next_scalar2_congr s d a b divU_eq
  case remI => exact next_scalar2_congr s d a b remS_eq
  case remN => exact next_scalar2_congr s d a b remU_eq
  case shl => exact next_scalar2_congr s d a b fun x y => by rw [shiftOf_eq_low6]
  case shrI => exact next_scalar2_congr s d a b fun x y => by rw [shiftOf_eq_low6, sshiftRight_eq_div]
  case shrN => exact next_scalar2_congr s d a b fun x y => by rw [shiftOf_eq_low6, ushiftRight_eq_div]
  case rot => exact next_scalar2_congr s d a b fun x y => by rw [shiftOf_eq_low6, rotateRight_eq_or]
  case minI => exact next_scalar2_congr s d a b pickMin_signed
  case minN => exact next_scalar2_congr s d a b pickMin_unsigned
  case maxI => exact next_scalar2_congr s d a b pickMax_signed
  case maxN => exact next_scalar2_congr s d a b pickMax_unsigned
  case cmpI => exact next_scalar2_congr s d a b cmpVal_signed
  case cmpN => exact next_scalar2_congr s d a b cmpVal_unsigned
  case leaA => exact next_scalar2_congr s d a b leaVal_add
  case leaS => exact next_scalar2_congr s d a b leaVal_sub
  case bfxI => exact next_scalar2_congr s d a b (by
      intro x y
      rw [fieldLo_eq_low6, fieldWidth_eq_widthOf, bitField_signed _ _ (widthOf y) (Nat.succ_pos _)]; rfl)
  case bfxN => exact next_scalar2_congr s d a b fun x y => by rw [fieldLo_eq_low6, fieldWidth_eq_widthOf, bitField_unsigned]
  case addsI => exact next_scalar2_congr s d a b fun x y => clampBits_eq_confined true _
  case addsN => exact next_scalar2_congr s d a b fun x y => clampBits_eq_confined false _
  case subsI => exact next_scalar2_congr s d a b fun x y => clampBits_eq_confined true _
  case subsN => exact next_scalar2_congr s d a b fun x y => clampBits_eq_confined false _

theorem exec_scalarThree (s : State) (d a b : BitVec 6) :
    ∀ p ∈ scalarThree d a b, exec p.1 s = .next (scalar3 s d a b p.2) := by
  simp only [scalarThree, List.forall_mem_cons, List.not_mem_nil, false_imp_iff, implies_true, and_true]
  refine ⟨rfl, ?bfi, rfl⟩
  case bfi =>
    refine congrArg (fun f => Outcome.next (scalar3 s d a b f)) (funext fun x => funext fun y => funext fun z => ?_)
    rw [fieldLo_eq_low6, fieldWidth_eq_widthOf, bitInsert_eq_inserted]

end Sys2Proof.Machine

namespace Sys2Proof
open Sys2Proof.Machine Sys2Proof.Claims

/-- Settles O1: each operand form writes what its instruction's value function gives, and those functions are the rules'. -/
theorem scalarArithmetic : Obligations.ScalarArithmetic := by
  intro s d a b imm hn
  refine ⟨fun p hp => ?none, fun p hp => ?one, fun p hp => ?two, fun p hp => ?three⟩
  case none =>
    obtain rfl : p = _ := List.mem_singleton.1 hp
    exact ⟨_, rfl, scalar0_spec s d _ hn⟩
  case one => exact ⟨_, exec_scalarOne s d a imm p hp, scalar1_spec s d a _ hn⟩
  case two => exact ⟨_, exec_scalarTwo s d a b p hp, scalar2_spec s d a b _ hn⟩
  case three => exact ⟨_, exec_scalarThree s d a b p hp, scalar3_spec s d a b _ hn⟩

end Sys2Proof

namespace Sys2Proof.Machine

open Sys2Proof.Claims
open Host (Outcome)

/-! ## Predicates, and the compares that write them (03 R59, 04 R96) -/

/-- Effects that each succeed with a known state, while a property holds, are those states in turn. -/
theorem foldlM_eq_foldl {α σ ε : Type} {f : σ → α → Except ε σ} {g : σ → α → σ} (I : σ → Prop) (l : List α) (u : σ)
    (hI : I u) (h : ∀ a ∈ l, ∀ v, I v → f v a = .ok (g v a) ∧ I (g v a)) : l.foldlM f u = .ok (l.foldl g u) := by
  induction l generalizing u with
  | nil => rfl
  | cons a l ih =>
    obtain ⟨hf, hg⟩ := h a (by simp) u hI
    rw [List.foldlM_cons, hf]
    exact ih _ hg fun b hb => h b (by simp [hb])

/-! ### One predicate -/

@[simp] theorem State.getV_setP (s : State) (i n : Nat) (v : Bool) (j m : Nat) : (s.setP i n v).getV j m = s.getV j m := by
  unfold State.setP State.getV
  split
  · rfl
  · rw [State.strand_setStrand]
    split
    · subst_vars; rfl
    · rfl

@[simp] theorem State.getS_setP (s : State) (i n : Nat) (v : Bool) (o : Nat) (r : BitVec 6) :
    (s.setP i n v).getS o r = s.getS o r := by unfold State.setP; split <;> rfl

/-- A write of p(n) changes strands alone. -/
theorem State.setP_rest (s : State) (i n : Nat) (v : Bool) : s.setP i n v = { s with strands := (s.setP i n v).strands } := by
  unfold State.setP; split <;> rfl

@[simp] theorem State.owner_setP (s : State) (i n : Nat) (v : Bool) (o : Nat) : (s.setP i n v).owner o = s.owner o := by
  rw [State.setP_rest]; rfl

/-- A written bit of a predicate register reads as written, and the others as before. -/
theorem getLsbD_writeBit (x : BitVec 8) (n m : Nat) (v : Bool) (hm : m < 8) :
    (if v then x ||| 1#8 <<< n else x &&& ~~~(1#8 <<< n)).getLsbD m = if m = n then v else x.getLsbD m := by
  have hone : (1#8 <<< n).getLsbD m = decide (m = n) := by
    rw [BitVec.getLsbD_shiftLeft, BitVec.getLsbD_one, Bool.eq_iff_iff]
    simp [hm]
    omega
  cases v
  · rw [if_neg (by decide), BitVec.getLsbD_and, BitVec.getLsbD_not, hone]
    by_cases h : m = n <;> simp [h, hm]
  · rw [if_pos rfl, BitVec.getLsbD_or, hone]
    by_cases h : m = n <;> simp [h]

/-- p(m) after a write of p(n): p0 stays true. -/
theorem State.getP_setP (s : State) (i n : Nat) (v : Bool) (j m : Nat) (hm : m < 8) :
    (s.setP i n v).getP j m = if j = i ∧ m = n then n == 0 || v else s.getP j m := by
  unfold State.setP State.getP
  by_cases hn : n = 0
  · subst hn
    by_cases h : m = 0 <;> simp [h]
  · rw [if_neg hn, State.strand_setStrand]
    by_cases hj : j = i
    · subst hj
      simp only [if_true, getLsbD_writeBit _ _ _ _ hm, true_and]
      by_cases h : m = n
      · subst h; simp
      · simp [h]
    · simp [hj]

theorem PredFrame.refl (s : State) (is : List Nat) (n : Nat) : PredFrame s s is n :=
  ⟨rfl, fun _ => rfl, fun _ _ _ _ => rfl, fun _ => rfl⟩

theorem PredFrame.trans {s t u : State} {is js ks : List Nat} {n : Nat} (h : PredFrame s t is n) (k : PredFrame t u js n)
    (hi : ∀ i ∈ is, i ∈ ks) (hj : ∀ i ∈ js, i ∈ ks) : PredFrame s u ks n where
  rest := by rw [k.rest, h.rest]
  strand i := by rw [k.strand i, h.strand i]
  pred i m hm hne := by
    rw [k.pred i m hm (fun e => hne ⟨hj i e.1, e.2⟩), h.pred i m hm (fun e => hne ⟨hi i e.1, e.2⟩)]
  byte a := (k.byte a).trans (h.byte a)

theorem State.setP_frame (s : State) (i n : Nat) (v : Bool) : PredFrame s (s.setP i n v) [i] n where
  rest := s.setP_rest i n v
  strand j := by
    unfold State.setP
    split
    · rfl
    · rw [State.strand_setStrand]
      split
      · subst_vars; rfl
      · rfl
  pred j m hm hne := by
    rw [State.getP_setP _ _ _ _ _ _ hm, if_neg (fun e => hne ⟨by simp [e.1], e.2⟩)]
  byte a := by rw [s.setP_rest]; rfl

/-- Each strand of the list receives its own predicate, computed from what the state held before any write. -/
theorem foldl_setP (n : Nat) (hlt : n < 8) (f : Nat → State → Bool)
    (hf : ∀ i j s x, j ≠ i → f i (s.setP j n x) = f i s) (is : List Nat) (hn : is.Nodup) (s : State) :
    let t := is.foldl (fun u i => u.setP i n (f i u)) s
    (∀ i ∈ is, t.getP i n = (n == 0 || f i s)) ∧ PredFrame s t is n := by
  induction is generalizing s with
  | nil => exact ⟨fun o h => by simp at h, PredFrame.refl ..⟩
  | cons i is ih =>
    obtain ⟨hi, hn⟩ := List.nodup_cons.1 hn
    obtain ⟨hv, hr⟩ := ih hn (s.setP i n (f i s))
    refine ⟨fun j hj => ?_, (State.setP_frame s i n _).trans hr (by simp) (by intro j hj; simp [hj])⟩
    rw [List.foldl_cons]
    by_cases h : j = i
    · subst h
      rw [hr.pred j n hlt (fun e => hi e.1), State.getP_setP _ _ _ _ _ _ hlt, if_pos ⟨rfl, rfl⟩]
    · rw [hv j (by simpa [h] using hj), hf j i s _ (Ne.symm h)]

/-! ### Conditions -/

theorem bne_eq_decide_ne {α : Type} [DecidableEq α] (x y : α) : (x != y) = decide (x ≠ y) := by
  rw [bne, beq_eq_decide, decide_not]

theorem toNat_beq_zero {w : Nat} (x : BitVec w) : (x.toNat == 0) = (x == 0) := by
  rw [Bool.eq_iff_iff, beq_iff_eq, beq_iff_eq, ← BitVec.toNat_inj, BitVec.ofNat_eq_ofNat, BitVec.toNat_ofNat, Nat.zero_mod]

/-- The condition of an integer compare, as 03 R59 lists them. -/
theorem condHolds_eq {w : Nat} (cc : BitVec 3) (x y : BitVec w) : condHolds cc x y =
    match cc.toNat with
    | 0 => decide (x = y)
    | 1 => decide (x ≠ y)
    | 2 => decide (x.toInt < y.toInt)
    | 3 => decide (y.toInt ≤ x.toInt)
    | 4 => decide (x.toNat < y.toNat)
    | _ => decide (y.toNat ≤ x.toNat) := by
  have hslt : (!x.slt y) = decide (y.toInt ≤ x.toInt) := by rw [BitVec.slt_eq_decide, ← decide_not]; simp only [not_lt]
  have hult : (!x.ult y) = decide (y.toNat ≤ x.toNat) := by rw [BitVec.ult_eq_decide, ← decide_not]; simp only [not_lt]
  unfold condHolds
  generalize cc.toNat = n
  match n with
  | 0 => exact beq_eq_decide x y
  | 1 => exact bne_eq_decide_ne x y
  | 2 => exact BitVec.slt_eq_decide
  | 3 => exact hslt
  | 4 => exact BitVec.ult_eq_decide
  | _ + 5 => exact hult

/-- The condition of a floating compare, as 04 R96 lists them. -/
theorem fcondHolds_fst (cc : BitVec 3) (x y : FVal) : (fcondHolds cc x y).1 =
    match FVal.cmp x y, cc.toNat with
    | none, n => n == 1 || n == 5
    | some r, 0 => r == .eq
    | some r, 1 => r != .eq
    | some r, 2 => r == .lt
    | some r, 3 => r != .lt
    | some r, 4 => r != .gt
    | some _, _ => false := by
  unfold fcondHolds
  cases FVal.cmp x y with
  | none =>
    have h1 : cc = 1 ↔ cc.toNat = 1 := ⟨fun h => by subst h; rfl, fun h => BitVec.eq_of_toNat_eq h⟩
    have h5 : cc = 5 ↔ cc.toNat = 5 := ⟨fun h => by subst h; rfl, fun h => BitVec.eq_of_toNat_eq h⟩
    simp only [h1, h5, beq_eq_decide]
  | some r => 
    generalize cc.toNat = n
    match n with
    | 0 | 1 | 2 | 3 | 4 | _ + 5 => rfl

/-- A floating compare raises IV or nothing: IV where it is ordered and a source is not a number. -/
theorem fcondHolds_flags (cc : BitVec 3) (x y : FVal) :
    (fcondHolds cc x y).2 = { iv := decide (2 ≤ cc.toNat ∧ cc.toNat ≤ 4 ∧ FVal.cmp x y = none) } := by
  unfold fcondHolds
  cases FVal.cmp x y <;> simp [FFlags.none]

/-! ### ICMP and FCMP.F32 -/

/-- A plain lane register is used as it is. -/
theorem State.useV_plain {s : State} {i r : Nat} (h : (s.getV i r).poison = none) : s.useV i r = .ok (s.getV i r).val := by
  unfold State.useV; rw [h]

/-- ICMP with plain sources is a predicate write in each guarded strand. -/
theorem forStrands_icmp (s : State) (g : Guard) (cc tg : BitVec 3) (a b : BitVec 6)
    (hp : ∀ i ∈ actingStrands s g, (s.laneV i a).poison = none ∧ (s.laneV i b).poison = none) :
    forStrands g s (icmpStrand cc tg a b) = .ok ((actingStrands s g).foldl
      (fun u i => u.setP i tg.toNat (condHolds cc (u.laneV i a).val (u.laneV i b).val)) s) := by
  refine foldlM_eq_foldl (fun u => ∀ i r, u.getV i r = s.getV i r) _ s (fun _ _ => rfl) fun i hi u hu => ⟨?_, ?_⟩
  · obtain ⟨ha, hb⟩ := hp i hi
    have ha' : (u.getV i a.toNat).poison = none := by rw [hu]; exact ha
    have hb' : (u.getV i b.toNat).poison = none := by rw [hu]; exact hb
    simp only [icmpStrand, State.useV_plain ha', State.useV_plain hb', State.laneV]
  · intro j r
    rw [State.getV_setP, hu]

/-- What one floating compare does in a strand: its predicate, and the flags of its bundle. -/
def State.setCompare (s : State) (n i : Nat) (r : Bool × FFlags) : State := (s.setP i n r.1).raiseOf i r.2

/-- Raising flags changes owners alone. -/
theorem State.raiseOf_rest (s : State) (i : Nat) (f : FFlags) : s.raiseOf i f = { s with owners := (s.raiseOf i f).owners } := by
  unfold State.raiseOf State.raise; split <;> rfl

@[simp] theorem State.strand_raiseOf (s : State) (i : Nat) (f : FFlags) (j : Nat) : (s.raiseOf i f).strand j = s.strand j := by
  rw [State.raiseOf_rest]; rfl
@[simp] theorem State.byte_raiseOf (s : State) (i : Nat) (f : FFlags) (a : Nat) : (s.raiseOf i f).byte a = s.byte a := by
  rw [State.raiseOf_rest]; rfl
@[simp] theorem State.getV_raiseOf (s : State) (i : Nat) (f : FFlags) (j n : Nat) : (s.raiseOf i f).getV j n = s.getV j n := by
  simp [State.getV]
@[simp] theorem State.getP_raiseOf (s : State) (i : Nat) (f : FFlags) (j n : Nat) : (s.raiseOf i f).getP j n = s.getP j n := by
  simp [State.getP]

/-- Between s and t at most p(n) of the strands `is` and the flags of their bundles differ (02 R40, 04 R96). -/
structure CompareFrame (s t : State) (is : List Nat) (n : Nat) (fl : Nat → FFlags) : Prop where
  rest : t = { s with strands := t.strands, owners := t.owners }
  strand : ∀ i, t.strand i = { s.strand i with p := (t.strand i).p }
  pred : ∀ i m, m < 8 → ¬(i ∈ is ∧ m = n) → t.getP i m = s.getP i m
  owner : ∀ o, t.owner o = { s.owner o with
    acr := (s.owner o).acr ||| BitVec.ofNat 64 (fl o).toNat,
    acrNext := (s.owner o).acrNext.map (fun x => x ||| BitVec.ofNat 64 (fl o).toNat) }
  byte : ∀ a, t.byte a = s.byte a

theorem State.setCompare_frame (s : State) (n i : Nat) (r : Bool × FFlags) :
    CompareFrame s (s.setCompare n i r) [i] n (fun o => if strandBundle i = o then r.2 else FFlags.none) where
  rest := by
    unfold State.setCompare
    rw [State.raiseOf_rest, s.setP_rest]
  strand j := by
    rw [State.setCompare, State.strand_raiseOf]
    exact (s.setP_frame i n r.1).strand j
  pred j m hm hne := by
    rw [State.setCompare, State.getP_raiseOf]
    exact (s.setP_frame i n r.1).pred j m hm hne
  owner o := by rw [State.setCompare, State.raiseOf, State.owner_raise, State.owner_setP]
  byte a := by
    rw [State.setCompare, State.byte_raiseOf]
    exact (s.setP_frame i n r.1).byte a

theorem CompareFrame.trans {s t u : State} {is js ks : List Nat} {n : Nat} {f g : Nat → FFlags} (h : CompareFrame s t is n f)
    (k : CompareFrame t u js n g) (hi : ∀ i ∈ is, i ∈ ks) (hj : ∀ i ∈ js, i ∈ ks) :
    CompareFrame s u ks n (fun o => (f o).or (g o)) where
  rest := by rw [k.rest, h.rest]
  strand i := by rw [k.strand i, h.strand i]
  pred i m hm hne := by
    rw [k.pred i m hm (fun e => hne ⟨hj i e.1, e.2⟩), h.pred i m hm (fun e => hne ⟨hi i e.1, e.2⟩)]
  owner o := by
    rw [k.owner o, h.owner o]
    simp only [FFlags.toNat_or, ← BitVec.or_assoc, Option.map_map]
    rfl
  byte a := (k.byte a).trans (h.byte a)

theorem CompareFrame.refl (s : State) (is : List Nat) (n : Nat) : CompareFrame s s is n (fun _ => FFlags.none) where
  rest := rfl
  strand _ := rfl
  pred _ _ _ _ := rfl
  owner o := by simp [FFlags.toNat_none]
  byte _ := rfl

/-- Some strand of bundle o, among those that compare, raises IV. -/
def raisesIV (is : List Nat) (iv : Nat → Bool) (o : Nat) : Bool := is.any (fun i => decide (strandBundle i = o) && iv i)

/-- IV is bit 0 of ACR (02 R40). -/
theorem ofNat_iv (v : Bool) : BitVec.ofNat 64 ({ iv := v } : FFlags).toNat = if v then 1 else 0 := by
  cases v <;> rfl

theorem raisesIV_iff (is : List Nat) (iv : Nat → Bool) (o : Nat) :
    raisesIV is iv o = true ↔ ∃ i ∈ is, strandBundle i = o ∧ iv i = true := by
  simp [raisesIV]

/-- Each strand of the list receives its own outcome, and the IV of all joins in their bundles. -/
theorem foldl_setCompare (n : Nat) (hlt : n < 8) (p iv : Nat → Bool) (is : List Nat) (hn : is.Nodup) (s : State) :
    let t := is.foldl (fun u i => u.setCompare n i (p i, { iv := iv i })) s
    (∀ i ∈ is, t.getP i n = (n == 0 || p i)) ∧ CompareFrame s t is n (fun o => { iv := raisesIV is iv o }) := by
  induction is generalizing s with
  | nil => exact ⟨fun o h => by simp at h, CompareFrame.refl ..⟩
  | cons i is ih =>
    obtain ⟨hi, hn⟩ := List.nodup_cons.1 hn
    obtain ⟨hv, hr⟩ := ih hn (s.setCompare n i (p i, { iv := iv i }))
    refine ⟨fun j hj => ?_, ?_⟩
    · rw [List.foldl_cons]
      by_cases h : j = i
      · subst h
        rw [hr.pred j n hlt (fun e => hi e.1), State.setCompare, State.getP_raiseOf, State.getP_setP _ _ _ _ _ _ hlt,
          if_pos ⟨rfl, rfl⟩]
      · exact hv j (by simpa [h] using hj)
    · have hone : ∀ o, (if strandBundle i = o then ({ iv := iv i } : FFlags) else FFlags.none).or { iv := raisesIV is iv o } =
          { iv := raisesIV (i :: is) iv o } := by
        intro o
        by_cases h : strandBundle i = o <;> simp [h, FFlags.or, FFlags.none, raisesIV]
      have hframe := (State.setCompare_frame s n i (p i, { iv := iv i })).trans hr (ks := i :: is) (by simp)
        (by intro j hj; simp [hj])
      rw [funext hone] at hframe
      exact hframe

/-- FCMP.F32 with plain sources: the outcome and the flags of each strand's own values. -/
theorem forStrands_fcmp (s : State) (g : Guard) (cc tg : BitVec 3) (a b : BitVec 6)
    (hp : ∀ i ∈ actingStrands s g, (s.laneV i a).poison = none ∧ (s.laneV i b).poison = none) :
    forStrands g s (fcmpStrand cc tg a b) = .ok ((actingStrands s g).foldl
      (fun u i => u.setCompare tg.toNat i (fcondHolds cc (fsource fmtFP32 (s.fzOf i) (s.laneV i a).val.toNat)
        (fsource fmtFP32 (s.fzOf i) (s.laneV i b).val.toNat))) s) := by
  refine foldlM_eq_foldl (fun u => (∀ i r, u.getV i r = s.getV i r) ∧ ∀ i, u.fzOf i = s.fzOf i) _ s
    ⟨fun _ _ => rfl, fun _ => rfl⟩ fun i hi u hu => ⟨?_, ?_, ?_⟩
  · obtain ⟨ha, hb⟩ := hp i hi
    have ha' : (u.getV i a.toNat).poison = none := by rw [hu.1]; exact ha
    have hb' : (u.getV i b.toNat).poison = none := by rw [hu.1]; exact hb
    simp only [fcmpStrand, State.useV_plain ha', State.useV_plain hb', State.laneV, hu.1, hu.2, State.setCompare]
  · intro j r
    rw [State.setCompare, State.getV_raiseOf, State.getV_setP, hu.1]
  · intro j
    rw [State.setCompare, State.raiseOf, State.fzOf, State.acr, State.owner_raise, (acr_bits_or_flags _ _).2.1,
      State.owner_setP]
    exact hu.2 j

end Sys2Proof.Machine

namespace Sys2Proof
open Sys2Proof.Machine Sys2Proof.Claims

/-- Settles O4: a compare is a predicate write in each guarded strand, and FCMP.F32 raises IV alone. -/
theorem laneCompares : Obligations.LaneCompares := by
  intro s g cc tg a b hn _ hp
  constructor
  · obtain ⟨hv, hframe⟩ := foldl_setP tg.toNat tg.isLt (fun i u => condHolds cc (u.laneV i a).val (u.laneV i b).val)
      (fun i j u x _ => by simp [State.laneV]) _ hn s
    exact ⟨_, congrArg (conclude s) (forStrands_icmp s g cc tg a b hp), fun i hi =>
      (hv i hi).trans (congrArg₂ or (toNat_beq_zero tg) (condHolds_eq cc _ _)), hframe⟩
  · obtain ⟨hv, hframe⟩ := foldl_setCompare tg.toNat tg.isLt
      (fun i => (fcondHolds cc (fsource fmtFP32 (s.fzOf i) (s.laneV i a).val.toNat)
        (fsource fmtFP32 (s.fzOf i) (s.laneV i b).val.toNat)).1)
      (fun i => decide (2 ≤ cc.toNat ∧ cc.toNat ≤ 4 ∧ FVal.cmp (fsource fmtFP32 (s.fzOf i) (s.laneV i a).val.toNat)
        (fsource fmtFP32 (s.fzOf i) (s.laneV i b).val.toNat) = none)) _ hn s
    simp only [← fcondHolds_flags] at hv hframe
    refine ⟨_, congrArg (conclude s) (forStrands_fcmp s g cc tg a b hp), fun i hi =>
      (hv i hi).trans (congrArg₂ or (toNat_beq_zero tg) (fcondHolds_fst cc _ _)), hframe.rest, hframe.strand,
      hframe.pred, fun o => ?_, fun o => ?_, hframe.byte⟩
    · rw [hframe.owner o]
    · rw [hframe.owner o, ofNat_iv]
      simp only [raisesIV_iff, decide_eq_true_eq]
      by_cases h : 2 ≤ cc.toNat ∧ cc.toNat ≤ 4
      · simp only [h.1, h.2, true_and]
      · rw [if_neg (fun ⟨i, _, _, h2, h4, _⟩ => h ⟨h2, h4⟩), if_neg (fun ⟨h2, h4, _⟩ => h ⟨h2, h4⟩)]

end Sys2Proof

namespace Sys2Proof.Machine

open Sys2Proof.Claims
open Host (Outcome)

/-! ## CMPP (03 R59) -/

/-- Effects of distinct elements that each succeed in what an element's own part of the state calls for, and leave the others'
parts, are their states in turn. -/
theorem foldlM_eq_foldl_of_apart {α σ ε : Type} {f : σ → α → Except ε σ} {g : σ → α → σ} (P : α → σ → Prop) (l : List α)
    (hn : l.Nodup) (u : σ) (hP : ∀ a ∈ l, P a u) (hf : ∀ a v, P a v → f v a = .ok (g v a))
    (hg : ∀ a b v, b ≠ a → P b v → P b (g v a)) : l.foldlM f u = .ok (l.foldl g u) := by
  induction l generalizing u with
  | nil => rfl
  | cons a l ih =>
    obtain ⟨ha, hn⟩ := List.nodup_cons.1 hn
    rw [List.foldlM_cons, hf a u (hP a (by simp))]
    exact ih hn _ fun b hb => hg a b u (fun e => ha (e ▸ hb)) (hP b (by simp [hb]))

/-! ### The live strands of a bundle -/

theorem mem_liveStrands {s : State} {b i : Nat} :
    i ∈ s.liveStrands b ↔ strandBundle i = b ∧ ∃ x, Tbl.find? s.strands i = some x ∧ x.live = true := by
  simp only [State.liveStrands, List.mem_filter, List.mem_map, List.mem_range, strandKey, strandBundle]
  have hlive : (match Tbl.find? s.strands i with | some x => x.live | none => false) = true ↔
      ∃ x, Tbl.find? s.strands i = some x ∧ x.live = true := by
    cases Tbl.find? s.strands i <;> simp
  constructor
  · rintro ⟨⟨j, hj, rfl⟩, h⟩
    exact ⟨by omega, hlive.1 h⟩
  · rintro ⟨rfl, h⟩
    exact ⟨⟨i % 64, Nat.mod_lt _ (by decide), by omega⟩, hlive.2 h⟩

theorem liveStrands_nodup (s : State) (b : Nat) : (s.liveStrands b).Nodup :=
  ((List.nodup_range).map (fun i j h => by simpa [strandKey] using h)).filter _

/-- Whether strand i is listed and live. -/
def State.strandIsLive (s : State) (i : Nat) : Bool := (Tbl.find? s.strands i).any Strand.live

theorem liveStrands_congr {s t : State} (b : Nat) (h : ∀ i, strandBundle i = b → t.strandIsLive i = s.strandIsLive i) :
    t.liveStrands b = s.liveStrands b := by
  have hlive : ∀ (u : State), u.liveStrands b = ((List.range 64).map (strandKey b)).filter u.strandIsLive := by
    intro u
    refine List.filter_congr fun i _ => ?_
    rw [State.strandIsLive]
    cases Tbl.find? u.strands i <;> rfl
  rw [hlive, hlive]
  refine List.filter_congr fun i hi => h i ?_
  obtain ⟨j, hj, rfl⟩ := List.mem_map.1 hi
  have := List.mem_range.1 hj
  unfold strandBundle strandKey
  omega

/-- What a listed strand is, a lookup finds. -/
theorem strand_of_find {s : State} {i : Nat} {x : Strand} (h : Tbl.find? s.strands i = some x) : s.strand i = x := by
  rw [State.strand, Tbl.getD, h]
  rfl

/-- Predicate writes in live strands leave liveness. -/
theorem liveStrands_setP (s : State) (i n : Nat) (v : Bool) (hi : i ∈ s.liveStrands (strandBundle i)) (b : Nat) :
    (s.setP i n v).liveStrands b = s.liveStrands b := by
  obtain ⟨-, x, hx, hlive⟩ := mem_liveStrands.1 hi
  refine liveStrands_congr b fun j _ => ?_
  unfold State.setP
  split
  · rfl
  · simp only [State.strandIsLive, State.setStrand, Tbl.find_insert]
    by_cases h : j = i
    · subst h
      rw [if_pos rfl, hx, strand_of_find hx]
      rfl
    · rw [if_neg h]

theorem foldl_setP_liveStrands (n : Nat) (v : Bool) (is : List Nat) (s : State)
    (h : ∀ i ∈ is, i ∈ s.liveStrands (strandBundle i)) (b : Nat) :
    (is.foldl (fun u i => u.setP i n v) s).liveStrands b = s.liveStrands b := by
  induction is generalizing s with
  | nil => rfl
  | cons i is ih =>
    have hi := h i (by simp)
    rw [List.foldl_cons, ih (s.setP i n v) (fun j hj => by rw [liveStrands_setP s i n v hi]; exact h j (by simp [hj])),
      liveStrands_setP s i n v hi]

/-! ### The outcome of one owner -/

/-- Between s and t at most the outcomes of the owners `os` differ: s(tg) of a stream, p(tg) of a bundle's live strands. -/
structure CondFrame (s t : State) (os : List Nat) (tg : BitVec 3) : Prop where
  rest : t = { s with owners := t.owners, strands := t.strands }
  owner : ∀ o, t.owner o = { s.owner o with s := (t.owner o).s }
  reg : ∀ o r, ¬(o ∈ os ∧ o < 288 ∧ r = tg.setWidth 6) → t.getS o r = s.getS o r
  strand : ∀ i, t.strand i = { s.strand i with p := (t.strand i).p }
  pred : ∀ i m, m < 8 → ¬((∃ o ∈ os, 288 ≤ o ∧ i ∈ s.liveStrands o) ∧ m = tg.toNat) → t.getP i m = s.getP i m
  byte : ∀ a, t.byte a = s.byte a
  live : ∀ b, t.liveStrands b = s.liveStrands b

theorem CondFrame.refl (s : State) (os : List Nat) (tg : BitVec 3) : CondFrame s s os tg :=
  ⟨rfl, fun _ => rfl, fun _ _ _ => rfl, fun _ => rfl, fun _ _ _ _ => rfl, fun _ => rfl, fun _ => rfl⟩

theorem CondFrame.trans {s t u : State} {os ps qs : List Nat} {tg : BitVec 3} (h : CondFrame s t os tg)
    (k : CondFrame t u ps tg) (ho : ∀ o ∈ os, o ∈ qs) (hp : ∀ o ∈ ps, o ∈ qs) : CondFrame s u qs tg where
  rest := by rw [k.rest, h.rest]
  owner o := by rw [k.owner o, h.owner o]
  reg o r hne := by
    rw [k.reg o r (fun e => hne ⟨hp o e.1, e.2⟩), h.reg o r (fun e => hne ⟨ho o e.1, e.2⟩)]
  strand i := by rw [k.strand i, h.strand i]
  pred i m hm hne := by
    rw [k.pred i m hm, h.pred i m hm]
    · rintro ⟨⟨o, hos, h288, hi⟩, rfl⟩
      exact hne ⟨⟨o, ho o hos, h288, hi⟩, rfl⟩
    · rintro ⟨⟨o, hps, h288, hi⟩, rfl⟩
      exact hne ⟨⟨o, hp o hps, h288, h.live o ▸ hi⟩, rfl⟩
  byte a := (k.byte a).trans (h.byte a)
  live b := (k.live b).trans (h.live b)

theorem State.setCond_tile (s : State) {o : Nat} (h : o < 288) (tg : BitVec 3) (v : Bool) :
    s.setCond o tg v = s.putS o (tg.setWidth 6) (if v then 1 else 0) := by
  rw [State.setCond, ownerIsTile, if_pos (by simpa using h)]

theorem State.setCond_bundle (s : State) {o : Nat} (h : 288 ≤ o) (tg : BitVec 3) (v : Bool) :
    s.setCond o tg v = (s.liveStrands o).foldl (fun t i => t.setP i tg.toNat v) s := by
  rw [State.setCond, ownerIsTile, if_neg (by simpa using h)]

theorem liveStrands_congr_strands {s t : State} (h : t.strands = s.strands) (b : Nat) : t.liveStrands b = s.liveStrands b := by
  rw [State.liveStrands, h]; rfl

theorem State.setCond_frame (s : State) (o : Nat) (tg : BitVec 3) (v : Bool) : CondFrame s (s.setCond o tg v) [o] tg := by
  rcases Nat.lt_or_ge o 288 with h | h
  · have hframe := s.setS_frame o (tg.setWidth 6) ⟨if v then 1 else 0, none⟩
    have hstrands : (s.putS o (tg.setWidth 6) (if v then 1 else 0)).strands = s.strands := by
      rw [State.putS, hframe.rest]
    rw [s.setCond_tile h]
    refine ⟨?_, hframe.owner, fun p r hne => hframe.reg p r fun e => hne ⟨e.1, ?_, e.2⟩, fun i => ?_, fun i m _ _ => ?_,
      hframe.byte, liveStrands_congr_strands hstrands⟩
    · rw [hstrands]; exact hframe.rest
    · rw [List.mem_singleton.1 e.1]; exact h
    · rw [State.strand, hstrands]; rfl
    · rw [State.getP, State.strand, hstrands]; rfl
  · obtain ⟨-, hframe⟩ := foldl_setP tg.toNat tg.isLt (fun _ _ => v) (fun _ _ _ _ _ => rfl) _ (liveStrands_nodup s o) s
    rw [s.setCond_bundle h]
    have howners := congrArg State.owners hframe.rest
    refine ⟨?_, fun p => ?_, fun p r _ => ?_, hframe.strand, fun i m hm hne => ?_, hframe.byte, ?_⟩
    · rw [howners]; exact hframe.rest
    · rw [State.owner, howners]; rfl
    · rw [State.getS, State.owner, howners]; rfl
    · exact hframe.pred i m hm fun e => hne ⟨⟨o, by simp, h, e.1⟩, e.2⟩
    · refine foldl_setP_liveStrands _ _ _ _ fun i hi => ?_
      rw [(mem_liveStrands.1 hi).1]; exact hi

theorem State.getS_setCond_tile (s : State) {o : Nat} (h : o < 288) (tg : BitVec 3) (v : Bool) :
    (s.setCond o tg v).getS o (tg.setWidth 6) = if tg = 0 then .zero 64 else ⟨if v then 1 else 0, none⟩ := by
  rw [s.setCond_tile h, State.putS, State.getS_setS]
  have htg : tg.setWidth 6 = 0 ↔ tg = 0 := by
    refine ⟨fun e => BitVec.eq_of_toNat_eq ?_, fun e => by subst e; rfl⟩
    have := congrArg BitVec.toNat e
    rwa [BitVec.toNat_setWidth_of_le (by decide)] at this
  by_cases h0 : tg = 0
  · rw [if_neg (fun e => e.2.2 (htg.2 h0)), htg.2 h0, if_pos h0]; rfl
  · rw [if_neg h0, if_pos ⟨rfl, rfl, fun e => h0 (htg.1 e)⟩]

theorem State.getP_setCond_bundle (s : State) {o : Nat} (h : 288 ≤ o) (tg : BitVec 3) (v : Bool) :
    ∀ i ∈ s.liveStrands o, (s.setCond o tg v).getP i tg.toNat = (tg == 0 || v) := by
  intro i hi
  rw [s.setCond_bundle h, ← toNat_beq_zero]
  exact (foldl_setP tg.toNat tg.isLt (fun _ _ => v) (fun _ _ _ _ _ => rfl) _ (liveStrands_nodup s o) s).1 i hi

/-! ### The outcomes of the group -/

/-- The outcome of owner o: the condition of its own s(a) and s(b). -/
def outcomeOf (cc : BitVec 3) (a b : BitVec 6) (o : Nat) (s : State) : Bool := condHolds cc (s.getS o a).val (s.getS o b).val

/-- The outcome of one owner leaves what the others compare. -/
theorem State.getS_setCond_ne (s : State) {o p : Nat} (h : p ≠ o) (tg : BitVec 3) (v : Bool) (r : BitVec 6) :
    (s.setCond o tg v).getS p r = s.getS p r :=
  (s.setCond_frame o tg v).reg p r fun e => h (List.mem_singleton.1 e.1)

theorem foldl_setCond (cc tg : BitVec 3) (a b : BitVec 6) (os : List Nat) (hn : os.Nodup) (s : State) :
    let t := os.foldl (fun u o => u.setCond o tg (outcomeOf cc a b o u)) s
    (∀ o ∈ os, (288 ≤ o → ∀ i ∈ s.liveStrands o, t.getP i tg.toNat = (tg == 0 || outcomeOf cc a b o s)) ∧
      (o < 288 → t.getS o (tg.setWidth 6) = if tg = 0 then .zero 64 else ⟨if outcomeOf cc a b o s then 1 else 0, none⟩)) ∧
    CondFrame s t os tg := by
  induction os generalizing s with
  | nil => exact ⟨fun o h => by simp at h, CondFrame.refl ..⟩
  | cons o os ih =>
    obtain ⟨ho, hn⟩ := List.nodup_cons.1 hn
    have hone := s.setCond_frame o tg (outcomeOf cc a b o s)
    obtain ⟨hv, hr⟩ := ih hn (s.setCond o tg (outcomeOf cc a b o s))
    refine ⟨fun p hp => ?_, hone.trans hr (by simp) (by intro j hj; simp [hj])⟩
    rw [List.foldl_cons]
    by_cases h : p = o
    · subst h
      refine ⟨fun h288 i hi => ?_, fun h288 => ?_⟩
      · rw [hr.pred i _ tg.isLt, State.getP_setCond_bundle s h288 tg _ i hi]
        rintro ⟨⟨q, hq, -, hi'⟩, -⟩
        rw [hone.live, mem_liveStrands] at hi'
        exact ho ((mem_liveStrands.1 hi).1 ▸ hi'.1 ▸ hq)
      · rw [hr.reg p _ (fun e => ho e.1), State.getS_setCond_tile s h288]
    · have hout : outcomeOf cc a b p (s.setCond o tg (outcomeOf cc a b o s)) = outcomeOf cc a b p s := by
        simp only [outcomeOf, State.getS_setCond_ne s h]
      obtain ⟨hb, ht⟩ := hv p (by simpa [h] using hp)
      rw [hout, hone.live] at hb
      rw [hout] at ht
      exact ⟨hb, ht⟩

/-- CMPP with plain sources is the outcome of each owner in turn. -/
theorem forOwners_cmpp (s : State) (cc tg : BitVec 3) (a b : BitVec 6) (hn : s.cur.owners.Nodup)
    (hp : ∀ o ∈ s.cur.owners, (s.getS o a).poison = none ∧ (s.getS o b).poison = none) :
    forOwners s (cmppOwner cc tg a b) = .ok (s.cur.owners.foldl (fun u o => u.setCond o tg (outcomeOf cc a b o u)) s) := by
  refine foldlM_eq_foldl_of_apart (fun o u => (u.getS o a).poison = none ∧ (u.getS o b).poison = none) _ hn s hp
    (fun o u ⟨ha, hb⟩ => ?_) (fun o p u hne hpu => ?_)
  · simp only [cmppOwner, State.scalarRange, State.useS, ha, hb, outcomeOf]
  · rwa [State.getS_setCond_ne u hne, State.getS_setCond_ne u hne]

end Sys2Proof.Machine

namespace Sys2Proof
open Sys2Proof.Machine Sys2Proof.Claims

/-- Settles O5: the outcome of each owner in turn, none of which reaches what another compares. -/
theorem scalarComparePredicate : Obligations.ScalarComparePredicate := by
  intro s cc tg a b hn _ hp
  obtain ⟨hv, hframe⟩ := foldl_setCond cc tg a b _ hn s
  refine ⟨_, congrArg (conclude s) (forOwners_cmpp s cc tg a b hn hp), fun o ho => ?_, hframe.rest, hframe.owner, hframe.reg,
    hframe.strand, hframe.pred, hframe.byte⟩
  have hout (v : Bool) (hv' : v = outcomeOf cc a b o s) : (288 ≤ o → ∀ i ∈ s.liveStrands o,
      (s.cur.owners.foldl (fun u o => u.setCond o tg (outcomeOf cc a b o u)) s).getP i tg.toNat = (tg == 0 || v)) ∧
      (o < 288 → (s.cur.owners.foldl (fun u o => u.setCond o tg (outcomeOf cc a b o u)) s).getS o (tg.setWidth 6) =
        if tg = 0 then .zero 64 else ⟨if v then 1 else 0, none⟩) := hv' ▸ hv o ho
  exact hout _ (condHolds_eq cc _ _).symm

end Sys2Proof

namespace Sys2Proof.Claims

open Sys2Proof.Machine

/-! ### Strands that become what a rule says -/

theorem StrandsBecome.nil (s : State) (f : Nat → Strand) : StrandsBecome s s [] f :=
  ⟨rfl, fun _ h => by simp at h, fun _ _ => rfl, fun _ => rfl⟩

/-- A strand written alone. -/
theorem StrandsBecome.of_setStrand (s : State) (i : Nat) (f : Nat → Strand) : StrandsBecome s (s.setStrand i (f i)) [i] f where
  rest := rfl
  inside j hj := by
    rw [List.mem_singleton.1 hj, State.strand_setStrand, if_pos rfl]
  outside j hj := by
    rw [State.strand_setStrand, if_neg (fun e => hj (by simp [e]))]
  byte _ := rfl

/-- A strand that the rule leaves as it is. -/
theorem StrandsBecome.kept (s : State) {i : Nat} {f : Nat → Strand} (h : f i = s.strand i) : StrandsBecome s s [i] f :=
  ⟨rfl, fun j hj => by rw [List.mem_singleton.1 hj, h], fun _ _ => rfl, fun _ => rfl⟩

theorem StrandsBecome.cons {s t u : State} {i : Nat} {is : List Nat} {f : Nat → Strand}
    (h : StrandsBecome s t [i] f) (k : StrandsBecome t u is f) : StrandsBecome s u (i :: is) f where
  rest := by rw [k.rest, h.rest]
  inside j hj := by
    by_cases e : j ∈ is
    · exact k.inside j e
    · rw [k.outside j e]
      exact h.inside j (by simpa [e] using hj)
  outside j hj := by
    rw [k.outside j (fun e => hj (by simp [e])), h.outside j (fun e => hj (by simp [List.mem_singleton.1 e]))]
  byte a := (k.byte a).trans (h.byte a)

/-! ### One stream -/

/-- An update of a stream that stands on the tile. -/
theorem StreamBecomes.of_setStream {s : State} {k : Nat} {st : Stream} (h : (s.tile k).stream = some st) (f : Stream → Stream) :
    StreamBecomes s (s.setStream k f) k (f st) where
  rest := rfl
  tile := by rw [State.setStream, State.tile_setTile, if_pos rfl, h]; rfl
  others j hj := by rw [State.setStream, State.tile_setTile, if_neg hj]
  byte _ := rfl

theorem StreamBecomes.stream {s t : State} {k : Nat} {st : Stream} (h : StreamBecomes s t k st) : (t.tile k).stream = some st := by
  rw [h.tile]

theorem StreamBecomes.trans {s t u : State} {k : Nat} {st st' : Stream} (h : StreamBecomes s t k st) (j : StreamBecomes t u k st') :
    StreamBecomes s u k st' where
  rest := by rw [j.rest, h.rest]
  tile := by rw [j.tile, h.tile]
  others i hi := by rw [j.others i hi, h.others i hi]
  byte a := (j.byte a).trans (h.byte a)

end Sys2Proof.Claims

namespace Sys2Proof.Machine

open Sys2Proof.Claims
open Host (Outcome)

/-! ## Who a control transfer acts on (03 R54) -/

/-- A state on the way from s: the strands in hand are what f says or what they were, and strand i is what it was. -/
structure OnTheWay (s u : State) (f : Nat → Strand) (i : Nat) : Prop where
  rest : u = { s with strands := u.strands }
  own : u.strand i = s.strand i
  each : ∀ j, u.strand j = s.strand j ∨ u.strand j = f j

/-- Distinct strands that each become what f says, one after another, become it together. -/
theorem foldlM_strandsBecome {s : State} {f : Nat → Strand} {step : State → Nat → Eff State} {is : List Nat} (hn : is.Nodup)
    (h : ∀ i ∈ is, ∀ u, OnTheWay s u f i → ∃ v, step u i = .ok v ∧ StrandsBecome u v [i] f) :
    ∃ t, is.foldlM step s = .ok t ∧ StrandsBecome s t is f := by
  suffices key : ∀ u : State, u = { s with strands := u.strands } → (∀ i ∈ is, u.strand i = s.strand i) →
      (∀ j, u.strand j = s.strand j ∨ u.strand j = f j) → ∃ t, is.foldlM step u = .ok t ∧ StrandsBecome u t is f from
    key s rfl (fun _ _ => rfl) fun _ => .inl rfl
  induction is with
  | nil => exact fun u _ _ _ => ⟨u, rfl, StrandsBecome.nil u f⟩
  | cons i is ih =>
    intro u hrest hown heach
    obtain ⟨hi, hn⟩ := List.nodup_cons.1 hn
    obtain ⟨v, hstep, hv⟩ := h i (by simp) u ⟨hrest, hown i (by simp), heach⟩
    have hownv : ∀ j ∈ is, v.strand j = s.strand j := fun j hj => by
      rw [hv.outside j (fun e => hi (List.mem_singleton.1 e ▸ hj))]
      exact hown j (by simp [hj])
    have heachv : ∀ j, v.strand j = s.strand j ∨ v.strand j = f j := fun j => by
      by_cases e : j = i
      · subst e; exact .inr (hv.inside j (by simp))
      · rw [hv.outside j (by simpa using e)]; exact heach j
    obtain ⟨t, hfold, ht⟩ := ih hn (fun j hj => h j (by simp [hj])) v (by rw [hv.rest, hrest]) hownv heachv
    exact ⟨t, by rw [List.foldlM_cons, hstep]; exact hfold, StrandsBecome.cons hv ht⟩

/-- The same where nothing can stop. -/
theorem foldl_strandsBecome {s : State} {f : Nat → Strand} {step : State → Nat → State} {is : List Nat} (hn : is.Nodup)
    (h : ∀ i ∈ is, ∀ u, OnTheWay s u f i → StrandsBecome u (step u i) [i] f) : StrandsBecome s (is.foldl step s) is f := by
  obtain ⟨t, hfold, ht⟩ := foldlM_strandsBecome (step := fun u i => .ok (step u i)) hn fun i hi u hu => ⟨_, rfl, h i hi u hu⟩
  rw [foldlM_eq_foldl (g := step) (fun _ => True) is s trivial fun _ _ _ _ => ⟨rfl, trivial⟩] at hfold
  rwa [Except.ok.inj hfold]

/-! ### The actors of a group -/

theorem forActors_raster {s : State} (h : s.cur.profile = .raster) (f : Who → State → Eff State) :
    forActors s f = s.cur.strands.foldlM (fun t i => f (.strand i) t) s := by
  rw [forActors, State.actors, h, List.foldlM_map]

theorem forActors_tile {s : State} {k : Nat} {st : Stream} (h : OnTile s k st) (f : Who → State → Eff State) :
    forActors s f = f (.stream k) s := by
  obtain ⟨hprofile, howners, -⟩ := h
  rw [forActors, State.actors, hprofile, howners]
  show (f (.stream k) s >>= fun t => pure t) = _
  exact bind_pure _

/-- An instruction of a raster group completes where each actor in turn becomes what the rule says. -/
theorem conclude_forActors_raster {s : State} (h : OnRaster s) {act : Who → State → Eff State} {f : Nat → Strand}
    (hact : ∀ i ∈ s.cur.strands, ∀ u, OnTheWay s u f i → ∃ v, act (.strand i) u = .ok v ∧ StrandsBecome u v [i] f) :
    ∃ t, conclude s (forActors s act) = .next t ∧ StrandsBecome s t s.cur.strands f := by
  obtain ⟨t, hfold, ht⟩ := foldlM_strandsBecome (step := fun t i => act (.strand i) t) h.2 hact
  exact ⟨t, by rw [forActors_raster h.1, hfold]; rfl, ht⟩

/-! ### Targets, levels and addresses (03 R65-R68) -/

theorem targetOk_iff (a : Dword) : targetOk a = true ↔ GoodTarget a := by
  have hlow : a.extractLsb' 0 2 = 0 ↔ a.toNat % 4 = 0 := by
    rw [← BitVec.toNat_inj, BitVec.extractLsb'_toNat]; rfl
  have htop : a.extractLsb' 56 8 = 0 ↔ a.toNat < 2 ^ 56 := by
    rw [← BitVec.toNat_inj, BitVec.extractLsb'_toNat, Nat.shiftRight_eq_div_pow]
    show _ = 0 ↔ _
    have := a.isLt
    omega
  rw [targetOk, Bool.and_eq_true, beq_iff_eq, beq_iff_eq, hlow, htop, GoodTarget]

theorem branchTarget_eq (s : State) (off : BitVec 32) : s.branchTarget off = wordsOn s off := by
  have h (x : Dword) : x <<< 2 = 4 * x := by
    apply BitVec.eq_of_toNat_eq
    rw [BitVec.toNat_shiftLeft, BitVec.toNat_mul, Nat.shiftLeft_eq, Nat.mul_comm]; rfl
  rw [State.branchTarget, h]; rfl

theorem Loop.holds_iff (l : Loop) (a : Dword) : l.holds a = true ↔ l.start.toNat ≤ a.toNat ∧ a.toNat ≤ l.last.toNat := by
  rw [Loop.holds, Bool.and_eq_true, decide_eq_true_eq, decide_eq_true_eq]

theorem popLoops_eq_levelsAfter (ls : List Loop) (a : Dword) : popLoops ls a = levelsAfter ls a := by
  cases ls with
  | nil => rfl
  | cons l rest =>
    have hfilter : rest.filter (fun x => x.holds a) =
        rest.filter (fun x => decide (x.start.toNat ≤ a.toNat ∧ a.toNat ≤ x.last.toNat)) :=
      List.filter_congr fun x _ => by rw [Bool.eq_iff_iff, Loop.holds_iff, decide_eq_true_eq]
    simp only [popLoops, levelsAfter, Loop.holds_iff, hfilter]

/-! ### Transfers of a strand -/

theorem jump_strand {a : Dword} (h : GoodTarget a) (s : State) (i : Nat) :
    s.jump (.strand i) a = .ok (s.setStrand i { s.strand i with pc := a, moved := true }) := by
  rw [State.jump, if_pos ((targetOk_iff a).2 h)]

/-- A branch sends the strand with the levels it keeps. -/
theorem branch_strand {a : Dword} (h : GoodTarget a) {s u : State} {i : Nat} (hu : u.strand i = s.strand i) {f : Nat → Strand}
    (hf : f i = sent (s.strand i) a (levelsAfter (s.strand i).loops a)) :
    ∃ v, u.branch (.strand i) a = .ok v ∧ StrandsBecome u v [i] f := by
  refine ⟨_, jump_strand h _ i, rfl, fun j hj => ?_, fun j hj => ?_, fun _ => rfl⟩
  · rw [List.mem_singleton.1 hj, State.strand_setStrand, if_pos rfl, hf, State.setLoops, State.strand_setStrand, if_pos rfl,
      State.loopsOf, popLoops_eq_levelsAfter, hu]
    rfl
  · have hne : j ≠ i := by simpa using hj
    rw [State.strand_setStrand, if_neg hne, State.setLoops, State.strand_setStrand, if_neg hne]

/-! ### Transfers of a stream -/

theorem jump_stream {a : Dword} (h : GoodTarget a) (s : State) (k : Nat) :
    s.jump (.stream k) a = .ok (s.setStream k (fun (x : Stream) => { x with target := some a })) := by
  rw [State.jump, if_pos ((targetOk_iff a).2 h)]

theorem loopsOf_stream {s : State} {k : Nat} {st : Stream} (h : (s.tile k).stream = some st) : s.loopsOf (.stream k) = st.loops := by
  rw [State.loopsOf, h]

theorem branch_stream {a : Dword} (h : GoodTarget a) {s : State} {k : Nat} {st : Stream} (hst : (s.tile k).stream = some st) :
    ∃ v, s.branch (.stream k) a = .ok v ∧ StreamBecomes s v k { st with target := some a, loops := levelsAfter st.loops a } := by
  have hloops := StreamBecomes.of_setStream hst (fun (x : Stream) => { x with loops := levelsAfter st.loops a })
  refine ⟨_, jump_stream h _ k, ?_⟩
  rw [loopsOf_stream hst, popLoops_eq_levelsAfter]
  exact hloops.trans (StreamBecomes.of_setStream hloops.stream (fun (x : Stream) => { x with target := some a }))

end Sys2Proof.Machine

namespace Sys2Proof.Machine

open Sys2Proof.Claims
open Host (Outcome)

/-! ## Control transfers of a raster group (03 R64-R68) -/

namespace OnTheWay

variable {s u : State} {f : Nat → Strand} {i : Nat}

theorem cur (h : OnTheWay s u f i) : u.cur = s.cur := by rw [h.rest]
theorem getS (h : OnTheWay s u f i) (o : Nat) (r : BitVec 6) : u.getS o r = s.getS o r := by rw [h.rest]; rfl
theorem getP (h : OnTheWay s u f i) (n : Nat) : u.getP i n = s.getP i n := by rw [State.getP, h.own]; rfl
theorem getV (h : OnTheWay s u f i) (n : Nat) : u.getV i n = s.getV i n := by rw [State.getV, h.own]; rfl
theorem getD2 (h : OnTheWay s u f i) (n : Nat) : u.getD2 i n = s.getD2 i n := by rw [State.getD2, h.getV, h.getV]; rfl
theorem branchTarget (h : OnTheWay s u f i) (off : BitVec 32) : u.branchTarget off = wordsOn s off := by
  rw [branchTarget_eq, wordsOn, h.cur]; rfl
theorem nextPc (h : OnTheWay s u f i) : u.nextPc = after s := by rw [State.nextPc, h.cur]; rfl

end OnTheWay

/-- A plain scalar register and a plain lane pair are used as they are. -/
theorem State.useS_plain {s : State} {o : Nat} {r : BitVec 6} (h : (s.getS o r).poison = none) :
    s.useS o r = .ok (s.getS o r).val := by
  unfold State.useS; rw [h]
theorem State.useD_plain {s : State} {i n : Nat} (h : (s.getD2 i n).poison = none) : s.useD i n = .ok (s.getD2 i n).val := by
  unfold State.useD; rw [h]

/-! ### Branches -/

theorem exec_bra_raster {s : State} (h : OnRaster s) (off : BitVec 32) (hgood : GoodTarget (wordsOn s off)) :
    ∃ t, exec (.bra off) s = .next t ∧ StrandsBecome s t s.cur.strands (fun i =>
      sent (s.strand i) (wordsOn s off) (levelsAfter (s.strand i).loops (wordsOn s off))) := by
  refine conclude_forActors_raster (act := fun w t => t.branch w (s.branchTarget off)) h fun i hi u hu => ?_
  simp only [branchTarget_eq]
  exact branch_strand hgood hu.own rfl

/-- The strands of which a test holds are sent, the others stay. -/
theorem exec_brac_raster {s : State} (h : OnRaster s) (kind : Bool) (c : BitVec 6) (n : Bool) (off : BitVec 32)
    (hgood : GoodTarget (wordsOn s off)) (test : Nat → Bool)
    (htest : ∀ i ∈ s.cur.strands, ∀ (f : Nat → Strand) u, OnTheWay s u f i → u.bracTest (.strand i) kind c = .ok (test i, u)) :
    ∃ t, exec (.brac kind c n off) s = .next t ∧ StrandsBecome s t s.cur.strands (fun i =>
      if test i ≠ n then sent (s.strand i) (wordsOn s off) (levelsAfter (s.strand i).loops (wordsOn s off)) else s.strand i) := by
  refine conclude_forActors_raster (act := bracActor kind c n (s.branchTarget off)) h fun i hi u hu => ?_
  simp only [bracActor, branchTarget_eq, htest i hi _ u hu]
  by_cases hn : test i = n
  · refine ⟨u, by simp [hn], StrandsBecome.kept u ?_⟩
    rw [if_neg (not_not.2 hn), hu.own]
  · obtain ⟨v, hv, hbecome⟩ := branch_strand hgood hu.own (f := fun i => if test i ≠ n then
      sent (s.strand i) (wordsOn s off) (levelsAfter (s.strand i).loops (wordsOn s off)) else s.strand i) (if_pos hn)
    exact ⟨v, by simp [hn, hv], hbecome⟩

/-- BRX sends each strand to the target it reads. -/
theorem exec_brx_raster {s : State} (h : OnRaster s) (a : BitVec 6) (m : Bool) (target : Nat → Dword)
    (hgood : ∀ i ∈ s.cur.strands, GoodTarget (target i))
    (hact : ∀ i ∈ s.cur.strands, ∀ (f : Nat → Strand) u, OnTheWay s u f i →
      brxActor a m (.strand i) u = u.branch (.strand i) (target i)) :
    ∃ t, exec (.brx a m) s = .next t ∧ StrandsBecome s t s.cur.strands (fun i =>
      sent (s.strand i) (target i) (levelsAfter (s.strand i).loops (target i))) := by
  refine conclude_forActors_raster (act := brxActor a m) h fun i hi u hu => ?_
  rw [hact i hi _ u hu]
  exact branch_strand (hgood i hi) hu.own rfl

theorem rasterBranches : RasterBranches := by
  refine ⟨fun s => rfl, fun s off c a n h => ⟨fun hgood => ⟨exec_bra_raster h off hgood, ?pred, fun hp => ?reg⟩, fun ha => ?scalar,
    fun ha => ?pair⟩⟩
  case pred =>
    refine exec_brac_raster h false c n off hgood (fun i => s.getP i c.toNat) fun i _ f u hu => ?_
    simp only [State.bracTest, Bool.false_eq_true, if_false, hu.getP]
  case reg =>
    refine exec_brac_raster h true c n off hgood (fun i => decide ((s.getS (strandBundle i) c).val ≠ 0)) fun i hi f u hu => ?_
    have hplain : (u.getS (strandBundle i) c).poison = none := by rw [hu.getS]; exact hp i hi
    simp only [State.bracTest, if_true, Who.owner, State.useS_plain hplain, hu.getS, bne_eq_decide_ne]
  case scalar =>
    refine exec_brx_raster h a false (fun i => (s.getS (strandBundle i) a).val) (fun i hi => (ha i hi).2) fun i hi f u hu => ?_
    have hplain : (u.getS (strandBundle i) a).poison = none := by rw [hu.getS]; exact (ha i hi).1
    simp only [brxActor, Who.owner, State.useS_plain hplain, hu.getS]
  case pair =>
    refine exec_brx_raster h a true (fun i => (s.getD2 i a.toNat).val) (fun i hi => (ha i hi).2) fun i hi f u hu => ?_
    have hplain : (u.getD2 i a.toNat).poison = none := by rw [hu.getD2]; exact (ha i hi).1
    simp only [brxActor, State.useD_plain hplain, hu.getD2]

/-! ### Calls, returns and loops -/

/-- A strand after CALL: its link in v62 and v63, and its target. -/
def called (x : Strand) (link a : Dword) : Strand :=
  { x with v := Tbl.put (.zero 32) (Tbl.put (.zero 32) x.v 62 ⟨link.extractLsb' 0 32, none⟩) 63 ⟨link.extractLsb' 32 32, none⟩,
           pc := a, moved := true }

theorem getV_of_called {s t : State} {i : Nat} {link a : Dword} (h : t.strand i = called (s.strand i) link a) :
    t.getV i 62 = ⟨link.extractLsb' 0 32, none⟩ ∧ t.getV i 63 = ⟨link.extractLsb' 32 32, none⟩ ∧
      ∀ n, n ≠ 62 → n ≠ 63 → t.getV i n = s.getV i n := by
  simp only [State.getV, h, called, Tbl.getD_put]
  refine ⟨by simp, by simp, fun n h62 h63 => by simp [h62, h63]⟩

theorem exec_call_raster {s : State} (h : OnRaster s) (off : BitVec 32) (hgood : GoodTarget (wordsOn s off)) :
    ∃ t, exec (.call off) s = .next t ∧ StrandsBecome s t s.cur.strands (fun i => called (s.strand i) (after s) (wordsOn s off)) := by
  refine conclude_forActors_raster (act := fun w t => (t.setLink w s.nextPc).jump w (s.branchTarget off)) h fun i hi u hu => ?_
  rw [branchTarget_eq, jump_strand hgood]
  refine ⟨_, rfl, rfl, fun j hj => ?_, fun j hj => ?_, fun _ => rfl⟩
  · rw [List.mem_singleton.1 hj, State.strand_setStrand, if_pos rfl]
    simp only [State.setLink, State.setD2, State.setV, State.strand_setStrand, if_true, hu.own]
    rfl
  · have hne : j ≠ i := by simpa using hj
    simp only [State.strand_setStrand, if_neg hne, State.setLink, State.setD2, State.setV]

theorem exec_ret_raster {s : State} (h : OnRaster s) (a : BitVec 6)
    (ha : ∀ i ∈ s.cur.strands, (s.getD2 i a.toNat).poison = none ∧ GoodTarget (s.getD2 i a.toNat).val) :
    ∃ t, exec (.ret a) s = .next t ∧ StrandsBecome s t s.cur.strands (fun i =>
      { s.strand i with pc := (s.getD2 i a.toNat).val, moved := true }) := by
  refine conclude_forActors_raster (act := retActor a) h fun i hi u hu => ?_
  obtain ⟨hplain, hgood⟩ := ha i hi
  rw [← hu.getD2] at hplain hgood
  simp only [retActor, State.useD_plain hplain, jump_strand hgood]
  rw [hu.getD2, hu.own]
  exact ⟨_, rfl, StrandsBecome.of_setStrand u i (fun i => { s.strand i with pc := (s.getD2 i a.toNat).val, moved := true })⟩

/-- A loop with a count and with room for a level starts one. -/
theorem loopActor_strand {s u : State} {f : Nat → Strand} {i n : Nat} (hu : OnTheWay s u f i) (imm : BitVec 32) (hn : n ≠ 0)
    (hroom : (s.strand i).loops.length < 2) (hf : f i = { s.strand i with loops := ⟨after s, wordsOn s imm, n⟩ :: (s.strand i).loops }) :
    ∃ v, loopActor n imm (.strand i) u = .ok v ∧ StrandsBecome u v [i] f := by
  have hloops : u.loopsOf (.strand i) = (s.strand i).loops := by rw [State.loopsOf, hu.own]
  rw [loopActor, if_neg hn, hloops, if_neg (by omega), hu.branchTarget, hu.nextPc]
  refine ⟨_, rfl, ?_⟩
  have := StrandsBecome.of_setStrand u i f
  rw [hf] at this
  rw [State.setLoops, hu.own]
  exact this

/-- A count of zero sends the strand past the last word of the body. -/
theorem loopActor_zero {s u : State} {f : Nat → Strand} {i : Nat} (hu : OnTheWay s u f i) (imm : BitVec 32) {b : Dword}
    (hgood : GoodTarget b) (hword : u.afterWord (.strand i) (wordsOn s imm) = .ok (b, u))
    (hf : f i = { s.strand i with pc := b, moved := true }) :
    ∃ v, loopActor 0 imm (.strand i) u = .ok v ∧ StrandsBecome u v [i] f := by
  simp only [loopActor, if_true, hu.branchTarget, hword, jump_strand hgood]
  refine ⟨_, rfl, ?_⟩
  have := StrandsBecome.of_setStrand u i f
  rw [hf] at this
  rw [hu.own]
  exact this

/-- LOOP with a plain count is the loop of that count. -/
theorem loopRegActor_plain {s : State} {a : BitVec 6} {w : Who} (hplain : (s.getS w.owner a).poison = none)
    (hlt : (s.getS w.owner a).val.toNat < 2 ^ 32) (imm : BitVec 32) :
    loopRegActor a imm w s = loopActor (s.getS w.owner a).val.toNat imm w s := by
  simp only [loopRegActor, State.useS_plain hplain]
  rw [if_neg (by omega)]

theorem rasterCallsAndLoops : RasterCallsAndLoops := by
  intro s off imm a cnt h
  refine ⟨fun hgood => ?call, exec_ret_raster h a, fun hroom hcnt => ?loopi, fun ha => ?loop, fun b hgood hword => ?zero⟩
  case call =>
    obtain ⟨t, hexec, ht⟩ := exec_call_raster h off hgood
    refine ⟨t, hexec, ht.rest, fun i hi => ⟨?_, getV_of_called (ht.inside i hi)⟩, ht.outside, ht.byte⟩
    rw [ht.inside i hi]; rfl
  case loopi =>
    have hne : cnt.toNat ≠ 0 := fun e => hcnt (BitVec.eq_of_toNat_eq e)
    exact conclude_forActors_raster (act := loopActor cnt.toNat imm) h fun i hi u hu => loopActor_strand hu imm hne (hroom i hi) rfl
  case loop =>
    refine conclude_forActors_raster (act := loopRegActor a imm) h fun i hi u hu => ?_
    obtain ⟨hroom, hplain, hpos, hlt⟩ := ha i hi
    rw [loopRegActor_plain (by rw [hu.getS]; exact hplain) (by rw [hu.getS]; exact hlt), hu.getS]
    exact loopActor_strand hu imm hpos.ne' hroom rfl
  case zero =>
    have hafter : ∀ i ∈ s.cur.strands, ∀ u, OnTheWay s u (fun i => { s.strand i with pc := b, moved := true }) i →
        u.afterWord (.strand i) (wordsOn s imm) = .ok (b, u) := fun i hi u hu => by
      refine hword i hi u (by rw [hu.rest]) fun j => ?_
      rcases hu.each j with e | e <;> rw [e] <;> exact ⟨rfl, rfl⟩
    refine ⟨conclude_forActors_raster (act := loopActor 0 imm) h fun i hi u hu => loopActor_zero hu imm hgood (hafter i hi u hu) rfl,
      fun ha => conclude_forActors_raster (act := loopRegActor a imm) h fun i hi u hu => ?_⟩
    have hzero : u.getS (strandBundle i) a = .zero 64 := by rw [hu.getS]; exact ha i hi
    rw [loopRegActor_plain (by rw [Who.owner, hzero]; rfl) (by rw [Who.owner, hzero]; decide), Who.owner, hzero]
    exact loopActor_zero hu imm hgood (hafter i hi u hu) rfl

end Sys2Proof.Machine

namespace Sys2Proof
open Sys2Proof.Machine Sys2Proof.Claims

/-- Settles O9: each strand of the group in turn becomes what the rule sends it to. -/
theorem rasterControl : Obligations.RasterControl := ⟨rasterBranches, rasterCallsAndLoops⟩

end Sys2Proof

namespace Sys2Proof.Machine

open Sys2Proof.Claims
open Host (Outcome)

/-! ## Control transfers of a tile stream (03 R54, R65-R68) -/

/-- An instruction of a stream completes with what its one actor does. -/
theorem conclude_forActors_tile {s : State} {k : Nat} {st : Stream} (h : OnTile s k st) {act : Who → State → Eff State} {t : State}
    (hact : act (.stream k) s = .ok t) : conclude s (forActors s act) = .next t := by
  rw [forActors_tile h, hact]; rfl

/-- The branch queue's oldest entry, pushed by an earlier group, is popped. -/
theorem popQueue_visible {s : State} {k q e : Nat} {rest : List Nat} {st : Stream} (hst : (s.tile k).stream = some st)
    (hq : Tbl.getD st.queues q [] = e :: rest) (hhidden : Tbl.getD st.hidden q 0 ≤ rest.length) :
    s.popQueue k q = .ok (e, s.setQueue k q rest) := by
  have hqueue : s.queue k q = e :: rest := by rw [State.queue, hst]; exact hq
  have hvisible : ¬ rest.length < s.hiddenIn k q := by
    have : s.hiddenIn k q = Tbl.getD st.hidden q 0 := by rw [State.hiddenIn, hst]
    omega
  simp only [State.popQueue, hqueue, if_neg hvisible]

theorem exec_brac_bq {s : State} {k e : Nat} {rest : List Nat} {st : Stream} (h : OnTile s k st) (c : BitVec 6) (n : Bool)
    (off : BitVec 32) (hgood : GoodTarget (wordsOn s off)) (hq : Tbl.getD st.queues 7 [] = e :: rest)
    (hhidden : Tbl.getD st.hidden 7 0 ≤ rest.length) :
    ∃ t, exec (.brac false c n off) s = .next t ∧
      StreamBecomes s t k (if decide (e ≠ 0) ≠ n then
        { st with queues := Tbl.put [] st.queues 7 rest, target := some (wordsOn s off),
                  loops := levelsAfter st.loops (wordsOn s off) }
        else { st with queues := Tbl.put [] st.queues 7 rest }) := by
  have hpop := StreamBecomes.of_setStream h.2.2 (fun (x : Stream) => { x with queues := Tbl.put [] x.queues 7 rest })
  have htest : s.bracTest (.stream k) false c = .ok (decide (e ≠ 0), s.setQueue k 7 rest) := by
    simp only [State.bracTest, Bool.false_eq_true, if_false, popQueue_visible h.2.2 hq hhidden, bne_eq_decide_ne]
  by_cases hn : decide (e ≠ 0) = n
  · refine ⟨_, conclude_forActors_tile (act := bracActor false c n (s.branchTarget off)) h (t := s.setQueue k 7 rest) ?_, ?_⟩
    · simp only [bracActor, htest, hn, bne_self_eq_false, Bool.false_eq_true, if_false]
    · rw [if_neg (not_not.2 hn)]
      exact hpop
  · obtain ⟨t, hbranch, ht⟩ := branch_stream hgood hpop.stream
    refine ⟨t, conclude_forActors_tile (act := bracActor false c n (s.branchTarget off)) h ?_, ?_⟩
    · have htrue : (decide (e ≠ 0) != n) = true := by simpa using hn
      rw [← hbranch, branchTarget_eq, bracActor, htest]
      simp only [htrue, if_true]
      rfl
    · rw [if_pos hn]
      exact hpop.trans ht

theorem exec_brac_register {s : State} {k : Nat} {st : Stream} (h : OnTile s k st) (c : BitVec 6) (n : Bool) (off : BitVec 32)
    (hgood : GoodTarget (wordsOn s off)) (hp : (s.getS k c).poison = none) :
    ∃ t, exec (.brac true c n off) s = .next t ∧
      (if decide ((s.getS k c).val ≠ 0) ≠ n then
        StreamBecomes s t k { st with target := some (wordsOn s off), loops := levelsAfter st.loops (wordsOn s off) }
      else t = s) := by
  have htest : s.bracTest (.stream k) true c = .ok (decide ((s.getS k c).val ≠ 0), s) := by
    simp only [State.bracTest, if_true, Who.owner, State.useS_plain hp, bne_eq_decide_ne]
  by_cases hn : decide ((s.getS k c).val ≠ 0) = n
  · refine ⟨s, conclude_forActors_tile (act := bracActor true c n (s.branchTarget off)) h ?_, ?_⟩
    · simp only [bracActor, htest, hn, bne_self_eq_false, Bool.false_eq_true, if_false]
    · rw [if_neg (not_not.2 hn)]
  · obtain ⟨t, hbranch, ht⟩ := branch_stream hgood h.2.2
    refine ⟨t, conclude_forActors_tile (act := bracActor true c n (s.branchTarget off)) h ?_, ?_⟩
    · have htrue : (decide ((s.getS k c).val ≠ 0) != n) = true := by simpa using hn
      simp only [bracActor, htest, branchTarget_eq, htrue, if_true, hbranch]
    · rwa [if_pos hn]

/-- CALL of a stream: its link in s63, and its target. -/
theorem exec_call_tile {s : State} {k : Nat} {st : Stream} (h : OnTile s k st) (off : BitVec 32) (hgood : GoodTarget (wordsOn s off)) :
    ∃ t, exec (.call off) s = .next t ∧ t.getS k 63 = ⟨after s, none⟩ ∧
      StreamBecomes { s with owners := t.owners } t k { st with target := some (wordsOn s off) } ∧
      (∀ o, t.owner o = { s.owner o with s := (t.owner o).s }) ∧
      (∀ o r, ¬(o = k ∧ r = 63) → t.getS o r = s.getS o r) := by
  have hlink := s.setS_frame k 63 ⟨after s, none⟩
  have hst : ((s.setS k 63 ⟨after s, none⟩).tile k).stream = some st := by
    rw [State.tile, congrArg State.tiles hlink.rest]; exact h.2.2
  have hjump := StreamBecomes.of_setStream hst (fun (x : Stream) => { x with target := some (wordsOn s off) })
  refine ⟨(s.setS k 63 ⟨after s, none⟩).setStream k (fun (x : Stream) => { x with target := some (wordsOn s off) }),
    conclude_forActors_tile (act := fun w t => (t.setLink w s.nextPc).jump w (s.branchTarget off)) h
      (by rw [branchTarget_eq]; exact jump_stream hgood _ k),
    (State.getS_setS ..).trans (if_pos ⟨rfl, rfl, by decide⟩),
    (congrArg (fun u => StreamBecomes u _ k _) hlink.rest).mp hjump, hlink.owner, fun o r hne => hlink.reg o r ?_⟩
  exact fun e => hne ⟨List.mem_singleton.1 e.1, e.2⟩

/-- A loop with a count and with room for a level starts one in the stream. -/
theorem loopActor_stream {s : State} {k n : Nat} {st : Stream} (h : (s.tile k).stream = some st) (imm : BitVec 32) (hn : n ≠ 0)
    (hroom : st.loops.length < 2) :
    ∃ v, loopActor n imm (.stream k) s = .ok v ∧
      StreamBecomes s v k { st with loops := ⟨after s, wordsOn s imm, n⟩ :: st.loops } := by
  rw [loopActor, if_neg hn, loopsOf_stream h, if_neg (by omega), branchTarget_eq]
  exact ⟨_, rfl, StreamBecomes.of_setStream h (fun (x : Stream) => { x with loops := ⟨after s, wordsOn s imm, n⟩ :: st.loops })⟩

end Sys2Proof.Machine

namespace Sys2Proof
open Sys2Proof.Machine Sys2Proof.Claims

/-- Settles O10: the stream is the one actor, and becomes what the rule says. -/
theorem tileControl : Obligations.TileControl := by
  intro s k st off c a n m cnt h
  refine ⟨fun hgood => ⟨?bra, fun e rest => exec_brac_bq h c n off hgood, exec_brac_register h c n off hgood,
    exec_call_tile h off hgood⟩, fun hp hgood => ⟨?brx, ?ret⟩, fun hroom => ⟨fun hcnt => ?loopi, fun hp hpos hlt => ?loop⟩⟩
  case bra =>
    obtain ⟨t, hbranch, ht⟩ := branch_stream hgood h.2.2
    exact ⟨t, conclude_forActors_tile (act := fun w t => t.branch w (s.branchTarget off)) h (by rw [branchTarget_eq, hbranch]), ht⟩
  case brx =>
    obtain ⟨t, hbranch, ht⟩ := branch_stream hgood h.2.2
    refine ⟨t, conclude_forActors_tile (act := brxActor a m) h ?_, ht⟩
    simp only [brxActor, Who.owner, State.useS_plain hp, hbranch]
  case ret =>
    refine ⟨_, conclude_forActors_tile (act := retActor a) h ?_,
      StreamBecomes.of_setStream h.2.2 (fun (x : Stream) => { x with target := some (s.getS k a).val })⟩
    simp only [retActor, State.useS_plain hp, jump_stream hgood]
  case loopi =>
    have hne : cnt.toNat ≠ 0 := fun e => hcnt (BitVec.eq_of_toNat_eq e)
    obtain ⟨t, hloop, ht⟩ := loopActor_stream h.2.2 off hne hroom
    exact ⟨t, conclude_forActors_tile (act := loopActor cnt.toNat off) h hloop, ht⟩
  case loop =>
    obtain ⟨t, hloop, ht⟩ := loopActor_stream h.2.2 off hpos.ne' hroom
    refine ⟨t, conclude_forActors_tile (act := loopRegActor a off) h ?_, ht⟩
    rw [loopRegActor_plain (w := .stream k) hp hlt]
    exact hloop

end Sys2Proof

namespace Sys2Proof.Machine

open Sys2Proof.Claims
open Host (Outcome)

/-! ## Votes (03 R69) -/

@[simp] theorem State.liveStrands_setS (s : State) (o : Nat) (d : BitVec 6) (x : Tagged 64) (b : Nat) :
    (s.setS o d x).liveStrands b = s.liveStrands b := by unfold State.setS; split <;> rfl

@[simp] theorem State.votes_setS (s : State) (o : Nat) (d : BitVec 6) (x : Tagged 64) (b : Nat) (a : BitVec 3) :
    (s.setS o d x).votes b a = s.votes b a := by unfold State.setS; split <;> rfl

theorem mem_votes {s : State} {o i : Nat} {a : BitVec 3} : i ∈ s.votes o a ↔ i ∈ s.liveStrands o ∧ s.getP i a.toNat = true := by
  rw [State.votes, List.mem_filter]

theorem voteAnyVal_plain (s : State) (o : Nat) (a : BitVec 3) [Decidable (∃ i ∈ s.liveStrands o, s.getP i a.toNat = true)] :
    voteAnyVal s o a false = if ∃ i ∈ s.liveStrands o, s.getP i a.toNat = true then 1 else 0 := by
  have hempty : (s.votes o a).isEmpty = true ↔ ¬∃ i ∈ s.liveStrands o, s.getP i a.toNat = true := by
    rw [List.isEmpty_iff, List.eq_nil_iff_forall_not_mem]
    simp only [mem_votes, not_exists]
  rw [voteAnyVal, if_neg (by decide)]
  by_cases h : ∃ i ∈ s.liveStrands o, s.getP i a.toNat = true
  · rw [if_neg (fun e => hempty.1 e h), if_pos h]
  · rw [if_pos (hempty.2 h), if_neg h]

/-- The mask of a list of strands holds the bits of their indices. -/
theorem getLsbD_ballot (is : List Nat) (x : Dword) (j : Nat) (hj : j < 64) :
    (is.foldl (fun x i => x ||| (1#64 <<< strandIndex i)) x).getLsbD j =
      (x.getLsbD j || is.any (fun i => decide (strandIndex i = j))) := by
  induction is generalizing x with
  | nil => simp
  | cons i is ih =>
    have hbit : (1#64 <<< strandIndex i).getLsbD j = decide (strandIndex i = j) := by
      rw [BitVec.getLsbD_shiftLeft, BitVec.getLsbD_one, Bool.eq_iff_iff]
      simp [hj]
      omega
    rw [List.foldl_cons, ih, BitVec.getLsbD_or, hbit, List.any_cons, Bool.or_assoc]

theorem voteAnyVal_ballot (s : State) (o : Nat) (a : BitVec 3) (j : Nat) (hj : j < 64) :
    (voteAnyVal s o a true).getLsbD j = decide (strandKey o j ∈ s.liveStrands o ∧ s.getP (strandKey o j) a.toNat = true) := by
  rw [voteAnyVal, if_pos rfl, getLsbD_ballot _ _ _ hj, Bool.eq_iff_iff]
  simp only [BitVec.ofNat_eq_ofNat, BitVec.getLsbD_zero, Bool.false_or, List.any_eq_true, mem_votes, decide_eq_true_eq]
  constructor
  · rintro ⟨i, ⟨hi, hp⟩, rfl⟩
    have hkey : strandKey o (strandIndex i) = i := by
      have := (mem_liveStrands.1 hi).1
      unfold strandBundle at this
      unfold strandKey strandIndex
      omega
    rw [hkey]
    exact ⟨hi, hp⟩
  · rintro ⟨hi, hp⟩
    exact ⟨strandKey o j, ⟨hi, hp⟩, by unfold strandIndex strandKey; omega⟩

theorem votes_all_iff (s : State) (o : Nat) (a : BitVec 3) :
    (s.votes o a).length = (s.liveStrands o).length ↔ ∀ i ∈ s.liveStrands o, s.getP i a.toNat = true := by
  rw [State.votes, List.length_filter_eq_length_iff]

/-! ### The words that a vote leaves unused -/

/-- A word whose head is sound, that names an instruction but sets a bit the entry does not use, is an illegal field (01 R25). -/
theorem decodeWords_illegalField {p : Profile} {w : Word} {r : OpRow} {i : Instr} (hhead : decodeHead p w = .ok r)
    (hlong : wordLong w = false) (hbuild : buildInstr (wordClass w) (wordOp w) false w 0 = some i)
    (hzero : wordOperands w &&& r.zero ≠ 0) : decodeWords p [w] = .error .illegalField := by
  have hok : zeroOk r w 0 = false := by
    rw [zeroOk, Bool.and_assoc, beq_eq_false_iff_ne.2 hzero, Bool.false_and]
  simp only [decodeWords, hhead, hlong, Bool.false_eq_true, if_false, decodeBody, hbuild, hok, Bool.false_and]
  rfl

/-- A predicate field above 7 sets a bit that must be zero. -/
theorem operands_of_predicate_above {w : Word} {z : BitVec 19} (hz : z.extractLsb' 10 3 = BitVec.allOnes 3)
    (ha : 8 ≤ (w.extractLsb' 7 6).toNat) : wordOperands w &&& z ≠ 0 := by
  intro h
  have hfield := congrArg BitVec.toNat (operands_field_eq_zero (w := w) h (k := 10) (m := 3) (by decide) hz)
  rw [BitVec.extractLsb'_toNat, Nat.shiftRight_eq_div_pow] at hfield ha
  have : (w.toNat / 2 ^ 10 % 2 ^ 3) = 0 := hfield
  omega

theorem decodeWords_vote {w : Word} (hclass : wordClass w = 0) (hlong : wordLong w = false)
    (h : wordOp w = 0x09 ∧ w.getLsbD 0 = true ∨ (wordOp w = 0x08 ∨ wordOp w = 0x09) ∧ 8 ≤ (w.extractLsb' 7 6).toNat) :
    decodeWords .raster [w] = .error .illegalField := by
  have hany (hop : wordOp w = 0x08) (hzero : wordOperands w &&& 0x1C7E ≠ 0) : decodeWords .raster [w] = .error .illegalField :=
    decodeWords_illegalField (r := ⟨.rasterOnly, .fmtA, 0x1C7E, 0xFFFFFFFF⟩)
      (by rw [decodeHead, hclass, hop, hlong]; rfl) hlong (by rw [hclass, hop]; rfl) hzero
  have hall (hop : wordOp w = 0x09) (hzero : wordOperands w &&& 0x1C7F ≠ 0) : decodeWords .raster [w] = .error .illegalField :=
    decodeWords_illegalField (r := ⟨.rasterOnly, .fmtA, 0x1C7F, 0xFFFFFFFF⟩)
      (by rw [decodeHead, hclass, hop, hlong]; rfl) hlong (by rw [hclass, hop]; rfl) hzero
  rcases h with ⟨hop, hm⟩ | ⟨hop | hop, ha⟩
  · refine hall hop fun e => ?_
    rw [operands_bit_eq_false e (k := 0) (by decide)] at hm
    cases hm
  · exact hany hop (operands_of_predicate_above (by decide) ha)
  · exact hall hop (operands_of_predicate_above (by decide) ha)

end Sys2Proof.Machine

namespace Sys2Proof
open Sys2Proof.Machine Sys2Proof.Claims

/-- Settles O11: the votes of each bundle's live strands, which a register write leaves; and the fields the entries do not use. -/
theorem votes : Obligations.Votes := by
  intro s d a hn
  obtain ⟨hany, hanyFrame⟩ := foldl_setS d (fun o t => ⟨voteAnyVal t o a false, none⟩)
    (fun o j t x _ => by simp [voteAnyVal]) _ hn s
  obtain ⟨hballot, hballotFrame⟩ := foldl_setS d (fun o t => ⟨voteAnyVal t o a true, none⟩)
    (fun o j t x _ => by simp [voteAnyVal]) _ hn s
  obtain ⟨hall, hallFrame⟩ := foldl_setS d
    (fun o t => ⟨if (t.votes o a).length = (t.liveStrands o).length then 1 else 0, none⟩)
    (fun o j t x _ => by simp) _ hn s
  refine ⟨⟨_, rfl, fun o ho => ?_, hanyFrame⟩, ⟨_, rfl, fun o ho hd => ?_, hballotFrame⟩, ⟨_, rfl, fun o ho => ?_, hallFrame⟩,
    fun w hclass hlong h => decodeWords_vote hclass hlong h⟩
  · exact (hany o ho).trans (by rw [voteAnyVal_plain])
  · refine (hballot o ho).symm ▸ ?_
    rw [if_neg hd]
    exact ⟨rfl, fun j hj => voteAnyVal_ballot s o a j hj⟩
  · refine (hall o ho).trans ?_
    simp only [votes_all_iff]

end Sys2Proof

namespace Sys2Proof.Machine

open Sys2Proof.Claims
open Host (Outcome)

/-! ## What ending work leaves (14 R238, R245) -/

theorem Tbl.find_mapVals {α β : Type} (f : α → β) (t : Tbl α) (k : Nat) :
    Tbl.find? (Tbl.mapVals f t) k = (Tbl.find? t k).map f := by
  induction t with
  | nil => rfl
  | cons e rest ih =>
    obtain ⟨j, v⟩ := e
    simp only [Tbl.mapVals, Tbl.find?]
    split
    · rfl
    · exact ih

theorem Tbl.find_modify {α : Type} (t : Tbl α) (k : Nat) (f : α → α) (j : Nat) :
    Tbl.find? (Tbl.modify t k f) j = if j = k then (Tbl.find? t k).map f else Tbl.find? t j := by
  unfold Tbl.modify
  cases h : Tbl.find? t k with
  | none =>
    by_cases e : j = k
    · subst e; rw [if_pos rfl]; exact h
    · rw [if_neg e]
  | some v => rw [Tbl.find_insert]; rfl

/-- A launch later on: still the launch it was, and still aborted where it was. -/
structure SameLaunch (x y : Launch) : Prop where
  origin : y.origin = x.origin
  ctx : y.ctx = x.ctx
  seq : y.seq = x.seq
  aborted : x.phase = .aborted → y.phase = .aborted

/-- What the ending of work leaves: owners, memory where no slot is written (`quiet`), lane registers, the issued group, and the identity of every launch. -/
structure WorkFrame (quiet : Prop) (s t : State) : Prop where
  owners : t.owners = s.owners
  mem : quiet → t.mem = s.mem
  cur : t.cur = s.cur
  lanes : ∀ i, (t.strand i).v = (s.strand i).v
  launches : ∀ l x, Tbl.find? s.launches l = some x → ∃ y, Tbl.find? t.launches l = some y ∧ SameLaunch x y
  unlisted : ∀ l, Tbl.find? s.launches l = none → Tbl.find? t.launches l = none

theorem SameLaunch.refl (x : Launch) : SameLaunch x x := ⟨rfl, rfl, rfl, id⟩

theorem SameLaunch.trans {x y z : Launch} (h : SameLaunch x y) (k : SameLaunch y z) : SameLaunch x z :=
  ⟨k.origin.trans h.origin, k.ctx.trans h.ctx, k.seq.trans h.seq, fun e => k.aborted (h.aborted e)⟩

section
variable {quiet : Prop}

theorem WorkFrame.refl (s : State) : WorkFrame quiet s s := ⟨rfl, fun _ => rfl, rfl, fun _ => rfl, fun _ x h => ⟨x, h, .refl x⟩, fun _ => id⟩

theorem WorkFrame.trans {s t u : State} (h : WorkFrame quiet s t) (k : WorkFrame quiet t u) : WorkFrame quiet s u where
  owners := k.owners.trans h.owners
  mem hq := (k.mem hq).trans (h.mem hq)
  cur := k.cur.trans h.cur
  lanes i := (k.lanes i).trans (h.lanes i)
  launches l x hx := by
    obtain ⟨y, hy, hxy⟩ := h.launches l x hx
    obtain ⟨z, hz, hyz⟩ := k.launches l y hy
    exact ⟨z, hz, hxy.trans hyz⟩
  unlisted l hl := k.unlisted l (h.unlisted l hl)

/-- A change of what this frame does not speak of. -/
theorem WorkFrame.of_eq {s t : State} (ho : t.owners = s.owners) (hm : t.mem = s.mem) (hc : t.cur = s.cur)
    (hs : t.strands = s.strands) (hl : t.launches = s.launches) : WorkFrame quiet s t where
  owners := ho
  mem _ := hm
  cur := hc
  lanes i := by rw [State.strand, hs]; rfl
  launches l x hx := ⟨x, by rw [hl]; exact hx, .refl x⟩
  unlisted l hx := by rw [hl]; exact hx

/-- Steps that each keep the frame keep it together. -/
theorem WorkFrame.foldl {α : Type} {f : State → α → State} (h : ∀ s a, WorkFrame quiet s (f s a)) (l : List α) (s : State) :
    WorkFrame quiet s (l.foldl f s) :=
  foldl_keeps (WorkFrame quiet s) f (fun t a ht => ht.trans (h t a)) l s (.refl s)

theorem WorkFrame.setStrand (s : State) (i : Nat) {x : Strand} (h : x.v = (s.strand i).v) : WorkFrame quiet s (s.setStrand i x) where
  owners := rfl
  mem _ := rfl
  cur := rfl
  lanes j := by
    rw [State.strand_setStrand]
    split
    · subst_vars; exact h
    · rfl
  launches l x hx := ⟨x, hx, .refl x⟩
  unlisted _ := id

theorem WorkFrame.setLaunch {s : State} {l : Nat} {x y : Launch} (hx : Tbl.find? s.launches l = some x) (h : SameLaunch x y) :
    WorkFrame quiet s (s.setLaunch l y) where
  owners := rfl
  mem _ := rfl
  cur := rfl
  lanes _ := rfl
  launches k z hz := by
    rw [State.setLaunch, Tbl.find_insert]
    by_cases e : k = l
    · subst e
      obtain rfl : x = z := Option.some.inj (hx.symm.trans hz)
      exact ⟨y, if_pos rfl, h⟩
    · exact ⟨z, by rw [if_neg e]; exact hz, .refl z⟩
  unlisted k hk := by
    rw [State.setLaunch, Tbl.find_insert, if_neg]
    · exact hk
    · rintro rfl
      rw [hx] at hk
      cases hk

theorem setStream_workFrame (s : State) (t : Nat) (f : Stream → Stream) : WorkFrame quiet s (s.setStream t f) :=
  .of_eq rfl rfl rfl rfl rfl

theorem killStrand_workFrame (s : State) (i : Nat) : WorkFrame quiet s (s.killStrand i) := .setStrand s i rfl

theorem markServed_workFrame (s : State) (o : Nat) : WorkFrame quiet s (s.markServed o) := by
  unfold State.markServed
  split
  · exact setStream_workFrame ..
  · refine .foldl (fun t i => ?_) _ s
    split
    · exact .setStrand t i rfl
    · exact .setStrand t i rfl
    · exact .refl t

theorem serveWaiter_workFrame (s : State) (w : Waiter) : WorkFrame quiet s (s.serveWaiter w) := by
  unfold State.serveWaiter
  split
  · exact markServed_workFrame ..
  · split
    case h_1 x hx =>
      split
      case isTrue hwait => exact .setLaunch hx ⟨rfl, rfl, rfl, fun e => by rw [hwait] at e; cases e⟩
      case isFalse => exact .refl s
    case h_2 => exact .refl s
  · split
    · exact .of_eq rfl rfl rfl rfl rfl
    · exact .refl s

theorem leaveBeads_workFrame (s : State) (gone : Waiter → Bool) : WorkFrame quiet s (s.leaveBeads gone) := by
  unfold State.leaveBeads
  refine WorkFrame.trans ?_ (WorkFrame.foldl serveWaiter_workFrame _ _)
  exact .of_eq rfl rfl rfl rfl rfl

theorem forgetWaits_workFrame (s : State) (o : Nat) : WorkFrame quiet s (s.forgetWaits o) := leaveBeads_workFrame ..

theorem stopCrew_workFrame (s : State) (c : Nat) : WorkFrame quiet s (s.stopCrew c) := by
  unfold State.stopCrew
  split
  · exact .refl s
  case h_2 x hx =>
    have hkill : WorkFrame quiet s (x.bundles.foldl (fun t b => (s.liveStrands b).foldl State.killStrand t) (s.dropMeshes c)) := by
      refine WorkFrame.trans ?_ (WorkFrame.foldl (fun t b => WorkFrame.foldl killStrand_workFrame (s.liveStrands b) t) _ _)
      exact .of_eq rfl rfl rfl rfl rfl
    have hwaits := hkill.trans (.foldl forgetWaits_workFrame x.bundles _)
    cases x.core with
    | none => exact hwaits.trans (.of_eq rfl rfl rfl rfl rfl)
    | some k => exact hwaits.trans (.of_eq rfl rfl rfl rfl rfl)

theorem dropStream_workFrame (s : State) (t : Nat) : WorkFrame quiet s (s.dropStream t) :=
  (leaveBeads_workFrame s _).trans (.of_eq rfl rfl rfl rfl rfl)

theorem freeRecords_workFrame (s : State) (c : Nat) (rs : List Dword) : WorkFrame quiet s (s.freeRecords c rs) :=
  .of_eq rfl rfl rfl rfl rfl

/-! ### Aborting a launch -/

theorem find_setLaunch (s : State) (l : Nat) (x : Launch) (k : Nat) :
    Tbl.find? (s.setLaunch l x).launches k = if k = l then some x else Tbl.find? s.launches k := Tbl.find_insert ..

/-- A launch becomes aborted, where it is listed. -/
def State.markAborted (s : State) (l : Nat) : State :=
  match Tbl.find? s.launches l with
  | some y => s.setLaunch l { y with phase := .aborted, frags := [] }
  | none => s

theorem markAborted_workFrame (s : State) (l : Nat) : WorkFrame quiet s (s.markAborted l) := by
  unfold State.markAborted
  split
  case h_1 y hy => exact .setLaunch hy ⟨rfl, rfl, rfl, fun _ => rfl⟩
  case h_2 => exact .refl s

theorem find_markAborted {s : State} {l : Nat} {x : Launch} (h : Tbl.find? s.launches l = some x) :
    ∃ y, Tbl.find? (s.markAborted l).launches l = some y ∧ y.phase = .aborted := by
  unfold State.markAborted
  rw [h]
  exact ⟨_, (find_setLaunch ..).trans (if_pos rfl), rfl⟩

/-- A launch among those that become aborted is aborted at the end. -/
theorem find_foldl_markAborted {ls : List Nat} {s : State} {l : Nat} {x : Launch} (hl : l ∈ ls)
    (h : Tbl.find? s.launches l = some x) :
    ∃ y, Tbl.find? (ls.foldl State.markAborted s).launches l = some y ∧ y.phase = .aborted := by
  induction ls generalizing s x with
  | nil => simp at hl
  | cons k ls ih =>
    rw [List.foldl_cons]
    by_cases e : l = k
    · subst e
      obtain ⟨y, hy, hphase⟩ := find_markAborted h
      obtain ⟨z, hz, hyz⟩ := (WorkFrame.foldl (quiet := False) markAborted_workFrame ls (s.markAborted l)).launches l y hy
      exact ⟨z, hz, hyz.aborted hphase⟩
    · obtain ⟨y, hy, -⟩ := (markAborted_workFrame (quiet := False) s k).launches l x h
      exact ih (by simpa [e] using hl) hy

/-- The crews and streams of a launch end. -/
def State.endCrews (s : State) (l : Nat) (tiles ids crews : List Nat) : State :=
  let s1 := crews.foldl State.stopCrew (s.leaveBeads (fun w => ids.any (fun k => w == .launch k)))
  tiles.foldl (fun t k => if (t.tile k).stream.any (fun st => st.launch == l) then t.dropStream k else t)
    { s1 with savedTiles := s1.savedTiles.filter (fun y => y.launch != l) }

/-- What an abort does before the slot or the node of the launch learns of it. -/
def State.endWork (s : State) (l : Nat) (tiles ids crews : List Nat) : State :=
  ids.foldl State.markAborted (s.endCrews l tiles ids crews)

theorem endCrews_workFrame (s : State) (l : Nat) (tiles ids crews : List Nat) :
    WorkFrame quiet s (s.endCrews l tiles ids crews) := by
  unfold State.endCrews
  refine WorkFrame.trans ?_ (WorkFrame.foldl (fun t k => ?_) _ _)
  · refine WorkFrame.trans (t := crews.foldl State.stopCrew (s.leaveBeads (fun w => ids.any (fun k => w == .launch k)))) ?_
      (.of_eq rfl rfl rfl rfl rfl)
    exact (leaveBeads_workFrame s _).trans (.foldl stopCrew_workFrame _ _)
  · split
    · exact dropStream_workFrame ..
    · exact .refl t

theorem endWork_workFrame (s : State) (l : Nat) (tiles ids crews : List Nat) :
    WorkFrame quiet s (s.endWork l tiles ids crews) :=
  (endCrews_workFrame ..).trans (.foldl markAborted_workFrame _ _)

/-- An abort ends the work of its launch, and then tells its node or its slot. -/
theorem abortLaunch_eq {s : State} {l : Nat} {x : Launch} (h : Tbl.find? s.launches l = some x) (ev : Nat) :
    ∃ ids crews, l ∈ ids ∧
      ((∃ y rs, s.abortLaunch l ev = ((s.endWork l x.tiles ids crews).setCtx x.ctx y).freeRecords x.ctx rs) ∨
        s.abortLaunch l ev = (s.endWork l x.tiles ids crews).writeSlot x.ctx x.origin 0x90 x.seq ev) := by
  unfold State.abortLaunch
  rw [h]
  dsimp only
  cases x.origin with
  | node n => exact ⟨_, _, List.mem_cons_self, .inl ⟨_, _, rfl⟩⟩
  | hostRing q k => exact ⟨_, _, List.mem_cons_self, .inr rfl⟩
  | deviceRing q => exact ⟨_, _, List.mem_cons_self, .inr rfl⟩
  | pixels p => exact ⟨_, _, List.mem_cons_self, .inr rfl⟩

theorem endWork_aborted {s : State} {l : Nat} {x : Launch} (h : Tbl.find? s.launches l = some x) (tiles crews : List Nat)
    {ids : List Nat} (hl : l ∈ ids) :
    ∃ y, Tbl.find? (s.endWork l tiles ids crews).launches l = some y ∧ y.phase = .aborted := by
  obtain ⟨y, hy, -⟩ := (endCrews_workFrame (quiet := False) s l tiles ids crews).launches l x h
  exact find_foldl_markAborted hl hy

/-- A slot's words are memory alone. -/
theorem hubWrite_rest (s : State) (pa n v : Nat) : s.hubWrite pa n v = { s with mem := (s.hubWrite pa n v).mem } := by
  unfold State.hubWrite
  split
  · exact s.writeLE_rest pa n v
  · rfl

theorem writeSlot_workFrame {s : State} {c : Nat} {o : LaunchFrom} (hq : quiet → ∀ q k, o ≠ .hostRing q k) (status seq ev : Nat) :
    WorkFrame quiet s (s.writeSlot c o status seq ev) := by
  unfold State.writeSlot
  split
  case h_1 q k =>
    rw [hubWrite_rest, hubWrite_rest s]
    exact ⟨rfl, fun h => absurd rfl (hq h q k), rfl, fun _ => rfl, fun _ x hx => ⟨x, hx, .refl x⟩, fun _ => id⟩
  case h_2 => exact .refl s

/-- An abort leaves owners, lane registers and other launches; memory too where the launch has no slot in a host ring. -/
theorem abortLaunch_workFrame {s : State} {l : Nat} (ev : Nat)
    (hq : quiet → ∀ x, Tbl.find? s.launches l = some x → ∀ q k, x.origin ≠ .hostRing q k) :
    WorkFrame quiet s (s.abortLaunch l ev) := by
  cases hx : Tbl.find? s.launches l with
  | none => rw [State.abortLaunch, hx]; exact .refl s
  | some x =>
    obtain ⟨ids, crews, -, ⟨y, rs, e⟩ | e⟩ := abortLaunch_eq hx ev
    · rw [e]
      exact (endWork_workFrame ..).trans (.of_eq rfl rfl rfl rfl rfl)
    · rw [e]
      exact (endWork_workFrame ..).trans (writeSlot_workFrame (fun h => hq h x hx) _ _ _)

theorem abortLaunch_aborted {s : State} {l : Nat} {x : Launch} (h : Tbl.find? s.launches l = some x) (ev : Nat) :
    ∃ y, Tbl.find? (s.abortLaunch l ev).launches l = some y ∧ y.phase = .aborted := by
  obtain ⟨ids, crews, hl, ⟨y, rs, e⟩ | e⟩ := abortLaunch_eq h ev
  · rw [e]
    exact endWork_aborted h x.tiles crews hl
  · obtain ⟨y, hy, hphase⟩ := endWork_aborted h x.tiles crews hl
    obtain ⟨z, hz, hyz⟩ := (writeSlot_workFrame (quiet := False) (s := s.endWork l x.tiles ids crews) (c := x.ctx) (o := x.origin)
      (fun h => h.elim) 0x90 x.seq ev).launches l y hy
    exact ⟨z, e ▸ hz, hyz.aborted hphase⟩

end

end Sys2Proof.Machine

namespace Sys2Proof.Machine

open Sys2Proof.Claims
open Host (Outcome)

/-! ## Posting trap records (14 R238, 25 R379) -/

theorem dropOldest_length (h : List (List Dword)) : (dropOldest h).length ≤ h.length := by
  induction h with
  | nil => exact le_rfl
  | cons e rest ih =>
    rw [dropOldest]
    split
    · simpa using ih
    · simp

/-- Between s and t at most n events have been posted to the rings of contexts: memory differs only from bit 51 up, where host memory
stands, and no ring holds more than n events more. -/
structure PostFrame (n : Nat) (s t : State) : Prop where
  rest : t = { s with mem := t.mem, ctxs := t.ctxs }
  byte : ∀ pa, pa < 2 ^ 51 → t.byte pa = s.byte pa
  held : ∀ c, (t.ctx c).ring.held.length ≤ (s.ctx c).ring.held.length + n

theorem PostFrame.refl (s : State) : PostFrame 0 s s := ⟨rfl, fun _ _ => rfl, fun _ => le_rfl⟩

theorem PostFrame.trans {n m : Nat} {s t u : State} (h : PostFrame n s t) (k : PostFrame m t u) : PostFrame (n + m) s u where
  rest := by rw [k.rest, h.rest]
  byte pa hpa := (k.byte pa hpa).trans (h.byte pa hpa)
  held c := by have := h.held c; have := k.held c; omega

theorem PostFrame.mono {n m : Nat} {s t : State} (h : PostFrame n s t) (hnm : n ≤ m) : PostFrame m s t :=
  ⟨h.rest, h.byte, fun c => (h.held c).trans (by omega)⟩

/-- Each step posts no more than its own number of events. -/
theorem PostFrame.foldl {α : Type} {f : State → α → State} {n : α → Nat} (h : ∀ s a, PostFrame (n a) s (f s a)) (l : List α)
    (s : State) : PostFrame (l.map n).sum s (l.foldl f s) := by
  induction l generalizing s with
  | nil => exact .refl s
  | cons a l ih => exact (h s a).trans (ih (f s a))

theorem byte_hubWrite_below (s : State) (pa n v : Nat) {j : Nat} (h : j < pa) : (s.hubWrite pa n v).byte j = s.byte j := by
  unfold State.hubWrite
  split
  · rw [State.byte_writeLE, if_neg (by omega)]
  · rfl

theorem ringWrite_frame (s : State) (r : EventRing) (ds : List Dword) : PostFrame 0 s (s.ringWrite r ds) := by
  unfold State.ringWrite
  refine foldl_keeps (PostFrame 0 s) _ (fun t i ht => ?_) _ s (.refl s)
  have hrest := hubWrite_rest t (2 ^ 51 + r.base.toNat % 2 ^ 51 + 64 * r.tail + 8 * i) 8 (ds.getD i 0).toNat
  refine ht.trans (m := 0) ⟨?_, fun pa hpa => byte_hubWrite_below _ _ _ _ (by omega), fun c => ?_⟩
  · rw [hrest]
  · rw [hrest]; exact le_rfl

theorem ringPost_frame (s : State) (r : EventRing) (kind : Nat) (ops : List Dword) : PostFrame 0 s (s.ringPost r kind ops).2 := by
  unfold State.ringPost
  dsimp only
  split
  · split
    · exact .refl s
    · exact .refl s
  · exact ringWrite_frame ..

theorem ringPost_held (s : State) (r : EventRing) (kind : Nat) (ops : List Dword) :
    (s.ringPost r kind ops).1.held.length ≤ r.held.length + 1 := by
  unfold State.ringPost
  dsimp only
  split
  · split
    · exact (dropOldest_length _).trans (by simp)
    · simp
  · simp

theorem post_frame (s : State) (ctx kind : Nat) (ops : List Dword) : PostFrame 1 s (s.post ctx kind ops) := by
  have hring := ringPost_frame s (s.ctx ctx).ring kind ops
  unfold State.post
  refine ⟨?_, hring.byte, fun c => ?_⟩
  · dsimp only
    rw [hring.rest]
    rfl
  · rw [State.ctx_setCtx]
    split
    · subst_vars; exact ringPost_held ..
    · exact (hring.held c).trans (by omega)

theorem postRecord_frame (s : State) (ctx crew l : Nat) (os is : List Nat) :
    PostFrame os.length s (s.postRecord ctx crew l os is) := by
  unfold State.postRecord
  split
  case h_1 => exact (PostFrame.refl s).mono (Nat.zero_le _)
  case h_2 x hx =>
    have hposts := PostFrame.foldl (n := fun _ => 1)
      (fun t (o : Nat) => post_frame t ctx 1 (trapRecord t (launchWord x) crew [o] is)) os s
    rwa [List.map_const', List.sum_replicate, smul_eq_mul, Nat.mul_one] at hposts

/-- Elements that stand under at most one of distinct keys are, under all keys together, at most all of them. -/
theorem sum_filter_length_le {α κ : Type} (p : κ → α → Bool) (ks : List κ) (hks : ks.Nodup) (os : List α)
    (hone : ∀ o ∈ os, ∀ k k', p k o = true → p k' o = true → k = k') : (ks.map (fun k => (os.filter (p k)).length)).sum ≤ os.length := by
  induction ks generalizing os with
  | nil => simp
  | cons k ks ih =>
    obtain ⟨hk, hks⟩ := List.nodup_cons.1 hks
    have hrest : ∀ k' ∈ ks, os.filter (p k') = (os.filter (fun o => !p k o)).filter (p k') := fun k' hk' => by
      rw [List.filter_filter]
      refine List.filter_congr fun o ho => ?_
      cases h' : p k' o
      · rfl
      · cases h : p k o
        · rfl
        · exact absurd (hone o ho k k' h h' ▸ hk') hk
    have hsum := ih hks (os.filter (fun o => !p k o)) fun o ho => hone o (List.mem_filter.1 ho).1
    have hsplit := List.length_eq_length_filter_add (l := os) (p k)
    rw [List.map_cons, List.sum_cons, List.map_congr_left (g := fun k' => ((os.filter (fun o => !p k o)).filter (p k')).length)
      fun k' hk' => by rw [hrest k' hk']]
    omega

/-- Duplicates erased, whatever the elements are. -/
theorem nodup_eraseDups_of {α : Type} [BEq α] [LawfulBEq α] (l : List α) : l.eraseDups.Nodup := by
  match l with
  | [] => exact .nil
  | a :: as =>
    rw [List.eraseDups_cons, List.nodup_cons, List.mem_eraseDups, List.mem_filter]
    exact ⟨by simp, nodup_eraseDups_of _⟩
  termination_by l.length
  decreasing_by exact Nat.lt_succ_of_le (List.length_filter_le ..)

theorem postTraps_frame (s : State) (ctx : Nat) (os is : List Nat) : PostFrame os.length s (s.postTraps ctx os is) := by
  unfold State.postTraps
  dsimp only
  refine (PostFrame.foldl (fun t (k : Nat × Nat) => postRecord_frame t ctx k.2 k.1 _ is) _ s).mono ?_
  refine sum_filter_length_le (κ := Nat × Nat) _ _ (nodup_eraseDups_of _) os fun o _ k k' h h' => ?_
  simp only [Bool.and_eq_true, beq_iff_eq] at h h'
  exact Prod.ext (Option.some.inj (h.1.symm.trans h'.1)) (h.2.symm.trans h'.2)

end Sys2Proof.Machine

namespace Sys2Proof.Machine

open Sys2Proof.Claims
open Host (Outcome)

/-! ## The entry of a precise trap (14 R235-R238, R255) -/

/-! ### DBGSTAT's STATE field -/

theorem getLsbD_above_three (x : Dword) (h : x.toNat < 8) (i : Nat) : x.getLsbD (3 + i) = false :=
  Nat.testBit_lt_two_pow (h.trans_le (Nat.pow_le_pow_right (n := 2) (by decide) (Nat.le_add_right 3 i)))

/-- A new STATE leaves the other fields of DBGSTAT. -/
theorem dbgState_high (d st : Dword) (h : st.toNat < 8) : (dbgState d st).extractLsb' 3 61 = d.extractLsb' 3 61 := by
  apply BitVec.eq_of_getLsbD_eq
  intro i hi
  have hmask : (7#64).getLsbD (3 + i) = false := getLsbD_above_three _ (by decide) i
  rw [BitVec.getLsbD_extractLsb', BitVec.getLsbD_extractLsb', dbgState, BitVec.getLsbD_or, BitVec.getLsbD_and,
    BitVec.getLsbD_not, hmask, getLsbD_above_three st h i]
  simp [show 3 + i < 64 by omega]

theorem dbgState_low (d st : Dword) : (dbgState d st).extractLsb' 0 3 = st.extractLsb' 0 3 := by
  apply BitVec.eq_of_getLsbD_eq
  intro i hi
  have hmask : ∀ i, i < 3 → (7#64).getLsbD i = true := by decide
  rw [BitVec.getLsbD_extractLsb', BitVec.getLsbD_extractLsb', dbgState, BitVec.getLsbD_or, BitVec.getLsbD_and,
    BitVec.getLsbD_not, Nat.zero_add, hmask i hi]
  simp

/-! ### All-stop (06 R142) -/

/-- Between s and t at most the strands `is` have been stopped, and DBGSTAT's STATE of bundles that hold no halted strand. -/
structure StopFrame (is : List Nat) (s t : State) : Prop where
  rest : t = { s with owners := t.owners, strands := t.strands }
  owner : ∀ o, t.owner o = { s.owner o with dbgstat := (t.owner o).dbgstat }
  high : ∀ o, (t.owner o).dbgstat.extractLsb' 3 61 = (s.owner o).dbgstat.extractLsb' 3 61
  find : ∀ i, i ∉ is → Tbl.find? t.strands i = Tbl.find? s.strands i
  lanes : ∀ i, (t.strand i).v = (s.strand i).v
  kept : ∀ o, ((∀ i ∈ is, strandBundle i ≠ o) ∨
    ∃ i x, i ∉ is ∧ strandBundle i = o ∧ Tbl.find? s.strands i = some x ∧ x.stat = .halted) → t.owner o = s.owner o

theorem StopFrame.refl (is : List Nat) (s : State) : StopFrame is s s :=
  ⟨rfl, fun _ => rfl, fun _ => rfl, fun _ _ => rfl, fun _ => rfl, fun _ _ => rfl⟩

theorem StopFrame.trans {is : List Nat} {s t u : State} (h : StopFrame is s t) (k : StopFrame is t u) : StopFrame is s u where
  rest := by rw [k.rest, h.rest]
  owner o := by rw [k.owner o, h.owner o]
  high o := (k.high o).trans (h.high o)
  find i hi := (k.find i hi).trans (h.find i hi)
  lanes i := (k.lanes i).trans (h.lanes i)
  kept o ho := by
    rw [k.kept o (ho.imp id fun ⟨i, x, hi, hb, hx, hstat⟩ => ⟨i, x, hi, hb, (h.find i hi).trans hx, hstat⟩), h.kept o ho]

theorem StopFrame.setStrand {is : List Nat} (s : State) {i : Nat} (hi : i ∈ is) {x : Strand} (hv : x.v = (s.strand i).v) :
    StopFrame is s (s.setStrand i x) where
  rest := rfl
  owner _ := rfl
  high _ := rfl
  find j hj := by
    rw [State.setStrand, Tbl.find_insert, if_neg (by rintro rfl; exact hj hi)]
  lanes j := by
    rw [State.strand_setStrand]
    split
    · subst_vars; exact hv
    · rfl
  kept _ _ := rfl

/-- A bundle with a halted strand that no stop reaches keeps its DBGSTAT. -/
theorem markStopped_frame {is : List Nat} (s : State) {i : Nat} (hi : i ∈ is) :
    StopFrame is s (s.markStopped (strandBundle i)) := by
  unfold State.markStopped
  split
  case isTrue => exact .refl is s
  case isFalse hnone =>
    refine ⟨rfl, fun o => ?_, fun o => ?_, fun _ _ => rfl, fun _ => rfl, fun o ho => ?_⟩
    · rw [State.owner_setOwner]
      split
      · subst_vars; rfl
      · rfl
    · rw [State.owner_setOwner]
      split
      · subst_vars; exact dbgState_high _ _ (by decide)
      · rfl
    · rw [State.owner_setOwner, if_neg]
      rintro rfl
      rcases ho with hout | ⟨j, x, -, hb, hx, hstat⟩
      · exact hout i hi rfl
      · refine hnone (List.any_eq_true.2 ⟨j, mem_liveStrands.2 ⟨hb, x, hx, ?_⟩, ?_⟩)
        · rw [Strand.live, hstat]; rfl
        · rw [strand_of_find hx, hstat]; rfl

theorem stopStrand_frame {is : List Nat} (s : State) {i : Nat} (hi : i ∈ is) : StopFrame is s (s.stopStrand i) := by
  unfold State.stopStrand
  dsimp only
  split
  · split
    · exact .setStrand s hi rfl
    · refine StopFrame.trans ?_ (markStopped_frame _ hi)
      exact .setStrand s hi rfl
  · refine StopFrame.trans ?_ (markStopped_frame _ hi)
    exact .setStrand s hi rfl
  · exact .setStrand s hi rfl
  · exact .refl is s

theorem stopStrands_frame (is : List Nat) (s : State) : StopFrame is s (is.foldl State.stopStrand s) :=
  List.foldlRecOn is _ (.refl is s) fun _ ht _ hi => ht.trans (stopStrand_frame _ hi)

/-! ### Halting the group -/

/-- The trap registers of an owner that traps. -/
def Owner.trapped (w : Owner) (cause : BitVec 8) (d : Dword × Option Origin) (pc : Dword) : Owner :=
  { w with tcause := tcauseWord cause d.2, taddr := d.1, tpc := pc, dbgstat := dbgState w.dbgstat 1, acrNext := none }

/-- A strand that a trap halts at its group's first word. -/
def Strand.trapHalted (x : Strand) (c : Issue) (cause : BitVec 8) : Strand :=
  { x with stat := .halted, pc := c.gpc, moved := false, trapCause := cause, stopDue := false,
           bpSkip := if cause.toNat = causeBreakpoint then some c.pc else x.bpSkip }

/-- The group's owners and strands as the trap leaves them, before anything is posted. -/
def State.haltGroup (s : State) (cause : BitVec 8) (detail : Nat → Dword × Option Origin) : State :=
  let c := s.cur
  let os := c.allOwners
  let s1 := os.foldl (fun t o => t.trapOwner cause (detail o).1 (detail o).2 c.gpc o) s
  let s2 := c.strands.foldl (fun t i => t.haltStrand c.gpc cause i) s1
  os.foldl (fun t o => if ownerIsTile o then t.setTile o ((t.tile o).halt cause c.pc) else t) s2

/-- Distinct owners that are each rewritten from what they were. -/
theorem foldl_setOwner (f : Nat → Owner → Owner) (os : List Nat) (hn : os.Nodup) (s : State) :
    let t := os.foldl (fun (t : State) o => t.setOwner o (f o (t.owner o))) s
    t = { s with owners := t.owners } ∧ (∀ o ∈ os, t.owner o = f o (s.owner o)) ∧ ∀ o, o ∉ os → t.owner o = s.owner o := by
  induction os generalizing s with
  | nil => exact ⟨rfl, fun _ h => by simp at h, fun _ _ => rfl⟩
  | cons o os ih =>
    obtain ⟨ho, hn⟩ := List.nodup_cons.1 hn
    obtain ⟨hrest, hin, hout⟩ := ih hn (s.setOwner o (f o (s.owner o)))
    refine ⟨?_, fun p hp => ?_, fun p hp => ?_⟩
    · rw [List.foldl_cons, hrest]; rfl
    · rw [List.foldl_cons]
      by_cases e : p = o
      · subst e
        rw [hout p ho, State.owner_setOwner, if_pos rfl]
      · rw [hin p (by simpa [e] using hp), State.owner_setOwner, if_neg e]
    · obtain ⟨hne, hp⟩ := not_or.1 (List.mem_cons.not.1 hp)
      rw [List.foldl_cons, hout p hp, State.owner_setOwner, if_neg hne]

theorem trapOwners_eq (cause : BitVec 8) (detail : Nat → Dword × Option Origin) (pc : Dword) (os : List Nat) (hn : os.Nodup)
    (s : State) :
    let t := os.foldl (fun t o => t.trapOwner cause (detail o).1 (detail o).2 pc o) s
    t = { s with owners := t.owners } ∧ (∀ o ∈ os, t.owner o = (s.owner o).trapped cause (detail o) pc) ∧
      ∀ o, o ∉ os → t.owner o = s.owner o :=
  foldl_setOwner (fun o w => w.trapped cause (detail o) pc) os hn s

theorem find_haltStrand (s : State) (c : Issue) (cause : BitVec 8) (j i : Nat) :
    Tbl.find? (s.haltStrand c.gpc cause j).strands i = if i = j then
      some { s.strand j with stat := .halted, pc := c.gpc, moved := false, trapCause := cause, stopDue := false,
                             bpSkip := if cause.toNat = causeBreakpoint then some s.cur.pc else (s.strand j).bpSkip }
    else Tbl.find? s.strands i := Tbl.find_insert ..

/-- What is found of a strand after the group's strands have halted. -/
theorem haltStrands_eq (c : Issue) (cause : BitVec 8) (is : List Nat) (s : State) :
    let t := is.foldl (fun t i => t.haltStrand c.gpc cause i) s
    t = { s with strands := t.strands } ∧ (∀ i, (t.strand i).v = (s.strand i).v) ∧
      ∀ i, i ∈ is ∨ (∃ x, Tbl.find? s.strands i = some x ∧ x.stat = .halted ∧ x.pc = c.gpc) →
        ∃ x, Tbl.find? t.strands i = some x ∧ x.stat = .halted ∧ x.pc = c.gpc := by
  induction is generalizing s with
  | nil => exact ⟨rfl, fun _ => rfl, fun i hi => hi.resolve_left (by simp)⟩
  | cons j is ih =>
    obtain ⟨hrest, hv, hhalt⟩ := ih (s.haltStrand c.gpc cause j)
    refine ⟨?_, fun i => ?_, fun i hi => hhalt i ?_⟩
    · rw [List.foldl_cons, hrest]; rfl
    · rw [List.foldl_cons, hv, State.haltStrand, State.strand_setStrand]
      split
      · subst_vars; rfl
      · rfl
    · rw [find_haltStrand]
      by_cases e : i = j
      · subst e
        exact .inr ⟨_, if_pos rfl, rfl, rfl⟩
      · rw [if_neg e]
        exact hi.imp (fun h => by simpa [e] using h) id

/-- A tile's halt leaves all but tiles. -/
theorem haltTiles_rest (c : Issue) (cause : BitVec 8) (os : List Nat) (s : State) :
    let t := os.foldl (fun t o => if ownerIsTile o then t.setTile o ((t.tile o).halt cause c.pc) else t) s
    t = { s with tiles := t.tiles } := by
  refine foldl_keeps (fun t => t = { s with tiles := t.tiles }) _ (fun t o ht => ?_) os s rfl
  split
  · rw [State.setTile, ht]
  · exact ht

/-- What the halted group is: its owners hold the trap, its strands stand halted, and the rest is as it was. -/
structure HaltFrame (s t : State) (cause : BitVec 8) (detail : Nat → Dword × Option Origin) : Prop where
  rest : t = { s with owners := t.owners, strands := t.strands, tiles := t.tiles }
  inside : ∀ o ∈ s.cur.allOwners, t.owner o = (s.owner o).trapped cause (detail o) s.cur.gpc
  outside : ∀ o, o ∉ s.cur.allOwners → t.owner o = s.owner o
  lanes : ∀ i, (t.strand i).v = (s.strand i).v
  halted : ∀ i ∈ s.cur.strands, ∃ x, Tbl.find? t.strands i = some x ∧ x.stat = .halted ∧ x.pc = s.cur.gpc

theorem haltGroup_frame (s : State) (cause : BitVec 8) (detail : Nat → Dword × Option Origin) :
    HaltFrame s (s.haltGroup cause detail) cause detail := by
  dsimp only [State.haltGroup]
  obtain ⟨hrest, hin, hout⟩ := trapOwners_eq cause detail s.cur.gpc s.cur.allOwners (nodup_eraseDups _) s
  generalize s.cur.allOwners.foldl (fun t o => t.trapOwner cause (detail o).1 (detail o).2 s.cur.gpc o) s = s1 at hrest hin hout
  obtain ⟨hrest2, hv, hhalt⟩ := haltStrands_eq s.cur cause s.cur.strands s1
  generalize s.cur.strands.foldl (fun t i => t.haltStrand s.cur.gpc cause i) s1 = s2 at hrest2 hv hhalt
  have hrest3 := haltTiles_rest s.cur cause s.cur.allOwners s2
  generalize s.cur.allOwners.foldl (fun t o => if ownerIsTile o then t.setTile o ((t.tile o).halt cause s.cur.pc) else t) s2
    = s3 at hrest3
  have hstrands : s3.strands = s2.strands := by rw [hrest3]
  have howners : s3.owners = s1.owners := by rw [hrest3, hrest2]
  refine ⟨?_, fun o ho => ?_, fun o ho => ?_, fun i => ?_, fun i hi => ?_⟩
  · rw [hrest3, hrest2, hrest]
  · exact (congrArg (fun x => Tbl.getD x o Owner.fresh) howners).trans (hin o ho)
  · exact (congrArg (fun x => Tbl.getD x o Owner.fresh) howners).trans (hout o ho)
  · rw [State.strand, hstrands]
    refine (hv i).trans ?_
    rw [State.strand, hrest]; rfl
  · obtain ⟨x, hx, hstat, hpc⟩ := hhalt i (.inl hi)
    exact ⟨x, by rw [hstrands]; exact hx, hstat, hpc⟩

end Sys2Proof.Machine

namespace Sys2Proof.Machine

open Sys2Proof.Claims
open Host (Outcome)

/-! ### The records, and what the debugger's absence or presence makes of the launch -/

/-- The launches of the group's owners, once each. -/
def State.trapLaunches (s : State) : List Nat := (s.cur.allOwners.filterMap (fun o => s.launchOf o)).eraseDups

theorem mem_trapLaunches {s : State} {l : Nat} : l ∈ s.trapLaunches ↔ ∃ o ∈ s.cur.allOwners, s.launchOf o = some l := by
  rw [State.trapLaunches, List.mem_eraseDups, List.mem_filterMap]

/-- The launches with the event number of the trap. -/
def noteTrapSeq (ev : Nat) (ls : List Nat) (t : Tbl Launch) : Tbl Launch :=
  ls.foldl (fun t l => Tbl.modify t l (fun (y : Launch) => { y with trapSeq := ev })) t

theorem find_noteTrapSeq (ev : Nat) (ls : List Nat) (t : Tbl Launch) (k : Nat) :
    (∀ x, Tbl.find? t k = some x → ∃ y, Tbl.find? (noteTrapSeq ev ls t) k = some y ∧ SameLaunch x y) ∧
      (Tbl.find? t k = none → Tbl.find? (noteTrapSeq ev ls t) k = none) := by
  induction ls generalizing t with
  | nil => exact ⟨fun x hx => ⟨x, hx, .refl x⟩, id⟩
  | cons l ls ih =>
    obtain ⟨hsome, hnone⟩ := ih (Tbl.modify t l (fun (y : Launch) => { y with trapSeq := ev }))
    rw [Tbl.find_modify] at hsome hnone
    by_cases e : k = l
    · subst e
      rw [if_pos rfl] at hsome hnone
      refine ⟨fun x hx => ?_, fun h => hnone (by rw [h]; rfl)⟩
      obtain ⟨y, hy, hxy⟩ := hsome { x with trapSeq := ev } (by rw [hx]; rfl)
      exact ⟨y, hy, hxy.origin, hxy.ctx, hxy.seq, hxy.aborted⟩
    · rw [if_neg e] at hsome hnone
      exact ⟨hsome, hnone⟩

/-- The state of a trap once its records are posted. -/
def State.recordTraps (s : State) (cause : BitVec 8) (detail : Nat → Dword × Option Origin) : State :=
  let t := (s.haltGroup cause detail).postTraps s.cur.ctx s.cur.allOwners s.cur.strands
  { t with launches := noteTrapSeq (s.ctx s.cur.ctx).ring.seq s.trapLaunches t.launches }

/-- What the posted trap is, beside the halted group: records in host memory, and the same launches. -/
structure RecordFrame (s t : State) (cause : BitVec 8) (detail : Nat → Dword × Option Origin) : Prop where
  rest : t = { s.haltGroup cause detail with mem := t.mem, ctxs := t.ctxs, launches := t.launches }
  byte : ∀ pa, pa < 2 ^ 51 → t.byte pa = s.byte pa
  held : ∀ c, (t.ctx c).ring.held.length ≤ (s.ctx c).ring.held.length + s.cur.allOwners.length
  launches : ∀ l x, Tbl.find? s.launches l = some x → ∃ y, Tbl.find? t.launches l = some y ∧ SameLaunch x y
  unlisted : ∀ l, Tbl.find? s.launches l = none → Tbl.find? t.launches l = none

theorem recordTraps_frame (s : State) (cause : BitVec 8) (detail : Nat → Dword × Option Origin) :
    RecordFrame s (s.recordTraps cause detail) cause detail := by
  have hhalt := (haltGroup_frame s cause detail).rest
  have hpost := postTraps_frame (s.haltGroup cause detail) s.cur.ctx s.cur.allOwners s.cur.strands
  have hctx : ∀ c, (s.haltGroup cause detail).ctx c = s.ctx c := fun c => by rw [hhalt]; rfl
  have hbyte : ∀ pa, (s.haltGroup cause detail).byte pa = s.byte pa := fun pa => by rw [hhalt]; rfl
  have hlaunches : ((s.haltGroup cause detail).postTraps s.cur.ctx s.cur.allOwners s.cur.strands).launches = s.launches := by
    rw [hpost.rest, hhalt]
  unfold State.recordTraps
  refine ⟨?_, fun pa hpa => (hpost.byte pa hpa).trans (hbyte pa), fun c => hctx c ▸ hpost.held c, fun l x hx => ?_, fun l hl => ?_⟩
  · dsimp only
    rw [hpost.rest]
  · exact (find_noteTrapSeq _ _ _ l).1 x (by rw [hlaunches]; exact hx)
  · exact (find_noteTrapSeq _ _ _ l).2 (by rw [hlaunches]; exact hl)

theorem strand_bundle_of_liveStrands {s : State} {crews : List Nat} {i : Nat}
    (h : i ∈ ((s.bundles.filter (fun e => crews.contains e.2.crew)).map (fun e => s.liveStrands e.1)).flatten) :
    ∃ e ∈ s.bundles, strandBundle i = e.1 := by
  obtain ⟨is, his, hi⟩ := List.mem_flatten.1 h
  obtain ⟨e, he, rfl⟩ := List.mem_map.1 his
  exact ⟨e, (List.mem_filter.1 he).1, (mem_liveStrands.1 hi).1⟩

/-- With a debugger attached, other strands of the group's crews are stopped, or none. -/
theorem takeTrapWith_attached {s : State} (cause : BitVec 8) (addr : Dword) (x : Option Origin)
    (detail : Nat → Dword × Option Origin) (h : (s.ctx s.cur.ctx).dbgctl.getLsbD 3 = true) :
    ∃ is : List Nat, s.takeTrapWith cause addr x detail =
        { is.foldl State.stopStrand (s.recordTraps cause detail) with last := some (.trap cause addr x) } ∧
      ∀ i ∈ is, i ∉ s.cur.strands ∧ ∃ e ∈ s.bundles, strandBundle i = e.1 := by
  by_cases h2 : (s.ctx s.cur.ctx).dbgctl.getLsbD 2 = true
  · refine ⟨[], ?_, by simp⟩
    simp only [State.takeTrapWith, h, h2, if_true]
    rfl
  · refine ⟨_, by simp only [State.takeTrapWith, h, h2, if_true, Bool.false_eq_true, if_false]; rfl, fun i hi => ?_⟩
    obtain ⟨hothers, hnot⟩ := List.mem_filter.1 hi
    exact ⟨by simpa using hnot, strand_bundle_of_liveStrands hothers⟩

/-- The abort of a launch whose records can be held. -/
def State.abortIfHeld (s4 : State) (ev : Nat) (t : State) (l : Nat) : State := if s4.recordWaits l then t else t.abortLaunch l ev

/-- Without a debugger, the launches whose records can be held are aborted. -/
theorem takeTrapWith_unattached {s : State} (cause : BitVec 8) (addr : Dword) (x : Option Origin)
    (detail : Nat → Dword × Option Origin) (h : (s.ctx s.cur.ctx).dbgctl.getLsbD 3 = false) :
    s.takeTrapWith cause addr x detail =
      { s.trapLaunches.foldl ((s.recordTraps cause detail).abortIfHeld (s.ctx s.cur.ctx).ring.seq) (s.recordTraps cause detail)
        with last := some (.trap cause addr x) } := by
  simp only [State.takeTrapWith, h, Bool.false_eq_true, if_false]
  rfl

end Sys2Proof.Machine

namespace Sys2Proof.Machine

open Sys2Proof.Claims
open Host (Outcome)

/-! ### What every trap leaves, and what it writes -/

theorem Tbl.find_none_iff {α : Type} (t : Tbl α) (k : Nat) : Tbl.find? t k = none ↔ ∀ e ∈ t, e.1 ≠ k := by
  induction t with
  | nil => simp [Tbl.find?]
  | cons e rest ih =>
    obtain ⟨j, v⟩ := e
    by_cases h : j = k
    · simp [Tbl.find?, h]
    · simp [Tbl.find?, h, ih]

/-- What a trap leaves in every owner but the trapped ones' registers, in lane registers, in memory below the host's, and in
launches. -/
structure TrapFrame (s t : State) (cause : BitVec 8) (detail : Nat → Dword × Option Origin) : Prop where
  inside : ∀ o ∈ s.cur.allOwners, t.owner o =
    { (s.owner o).trapped cause (detail o) s.cur.gpc with dbgstat := (t.owner o).dbgstat }
  high : ∀ o ∈ s.cur.allOwners, (t.owner o).dbgstat.extractLsb' 3 61 = (s.owner o).dbgstat.extractLsb' 3 61
  state : ∀ o ∈ s.cur.allOwners, Tbl.find? s.bundles o = none ∨ (∃ i ∈ s.cur.strands, strandBundle i = o) →
    (t.owner o).dbgstat.extractLsb' 0 3 = 1
  outside : ∀ o, o ∉ s.cur.allOwners → t.owner o = { s.owner o with dbgstat := (t.owner o).dbgstat }
  lanes : ∀ i, (t.strand i).v = (s.strand i).v
  byte : ∀ pa, pa < 2 ^ 51 → (∀ o l z, o ∈ s.cur.allOwners → s.launchOf o = some l → Tbl.find? s.launches l = some z →
    ∀ q k, z.origin ≠ .hostRing q k) → t.byte pa = s.byte pa

/-- Before anything is stopped or aborted, a trapped owner is its trap registers. -/
theorem recordTraps_owner (s : State) (cause : BitVec 8) (detail : Nat → Dword × Option Origin) (o : Nat) :
    (s.recordTraps cause detail).owner o = (s.haltGroup cause detail).owner o := by
  rw [(recordTraps_frame s cause detail).rest]; rfl

theorem recordTraps_strands (s : State) (cause : BitVec 8) (detail : Nat → Dword × Option Origin) :
    (s.recordTraps cause detail).strands = (s.haltGroup cause detail).strands := by
  rw [(recordTraps_frame s cause detail).rest]

theorem recordTraps_lanes (s : State) (cause : BitVec 8) (detail : Nat → Dword × Option Origin) (i : Nat) :
    ((s.recordTraps cause detail).strand i).v = (s.strand i).v := by
  rw [State.strand, recordTraps_strands]
  exact (haltGroup_frame s cause detail).lanes i

theorem trapped_state (w : Owner) (cause : BitVec 8) (d : Dword × Option Origin) (pc : Dword) :
    (w.trapped cause d pc).dbgstat.extractLsb' 0 3 = 1 := by
  rw [Owner.trapped, dbgState_low]; decide

theorem takeTrapWith_frame_attached {s : State} (cause : BitVec 8) (addr : Dword) (x : Option Origin)
    (detail : Nat → Dword × Option Origin) (h : (s.ctx s.cur.ctx).dbgctl.getLsbD 3 = true) :
    TrapFrame s (s.takeTrapWith cause addr x detail) cause detail ∧
      ∀ i ∈ s.cur.strands, ((s.takeTrapWith cause addr x detail).strand i).stat = .halted ∧
        ((s.takeTrapWith cause addr x detail).strand i).pc = s.cur.gpc := by
  obtain ⟨is, heq, his⟩ := takeTrapWith_attached cause addr x detail h
  have hhalt := haltGroup_frame s cause detail
  have hrec := recordTraps_frame s cause detail
  have hstop := stopStrands_frame is (s.recordTraps cause detail)
  have hstands : ∀ i ∈ s.cur.strands, ∃ x, Tbl.find? (s.recordTraps cause detail).strands i = some x ∧ x.stat = .halted ∧
      x.pc = s.cur.gpc := by
    rw [recordTraps_strands]; exact hhalt.halted
  have howner : ∀ o, (is.foldl State.stopStrand (s.recordTraps cause detail)).owner o =
      { (s.haltGroup cause detail).owner o with
        dbgstat := ((is.foldl State.stopStrand (s.recordTraps cause detail)).owner o).dbgstat } := fun o => by
    rw [← recordTraps_owner]; exact hstop.owner o
  rw [heq]
  refine ⟨⟨fun o ho => ?_, fun o ho => ?_, fun o ho hcond => ?_, fun o ho => ?_, fun i => ?_, fun pa hpa _ => ?_⟩, fun i hi => ?_⟩
  · refine (howner o).trans ?_
    rw [hhalt.inside o ho]; rfl
  · refine (hstop.high o).trans ?_
    rw [recordTraps_owner, hhalt.inside o ho]
    exact dbgState_high _ _ (by decide)
  · have hkept : (is.foldl State.stopStrand (s.recordTraps cause detail)).owner o = (s.recordTraps cause detail).owner o := by
      refine hstop.kept o (hcond.imp (fun hnone i hi e => ?_) fun ⟨i, hi, hb⟩ => ?_)
      · obtain ⟨-, b, hb, hbi⟩ := his i hi
        exact (Tbl.find_none_iff _ _).1 hnone b hb (hbi.symm.trans e)
      · obtain ⟨y, hy, hstat, -⟩ := hstands i hi
        exact ⟨i, y, fun e => (his i e).1 hi, hb, hy, hstat⟩
    refine (congrArg (fun (w : Owner) => w.dbgstat.extractLsb' 0 3) hkept).trans ?_
    rw [recordTraps_owner, hhalt.inside o ho, trapped_state]
  · refine (howner o).trans ?_
    rw [hhalt.outside o ho]; rfl
  · exact (hstop.lanes i).trans (recordTraps_lanes s cause detail i)
  · refine Eq.trans ?_ (hrec.byte pa hpa)
    show (is.foldl State.stopStrand (s.recordTraps cause detail)).byte pa = _
    rw [hstop.rest]; rfl
  · obtain ⟨y, hy, hstat, hpc⟩ := hstands i hi
    have hfind := (hstop.find i (fun e => (his i e).1 hi)).trans hy
    show ((is.foldl State.stopStrand (s.recordTraps cause detail)).strand i).stat = _ ∧
      ((is.foldl State.stopStrand (s.recordTraps cause detail)).strand i).pc = _
    rw [strand_of_find hfind]
    exact ⟨hstat, hpc⟩

/-- The aborts of a trap leave what any ending of work leaves. -/
theorem abortsIfHeld_workFrame {quiet : Prop} (s4 : State) (ev : Nat) (ls : List Nat)
    (hq : quiet → ∀ l ∈ ls, ∀ x, Tbl.find? s4.launches l = some x → ∀ q k, x.origin ≠ .hostRing q k) :
    WorkFrame quiet s4 (ls.foldl (s4.abortIfHeld ev) s4) := by
  refine List.foldlRecOn ls _ (WorkFrame.refl s4) fun t ht l hl => ?_
  unfold State.abortIfHeld
  split
  · exact ht
  · refine ht.trans (abortLaunch_workFrame ev fun hquiet y hy => ?_)
    cases hx : Tbl.find? s4.launches l with
    | none => rw [ht.unlisted l hx] at hy; cases hy
    | some x =>
      obtain ⟨z, hz, hxz⟩ := ht.launches l x hx
      obtain rfl : z = y := Option.some.inj (hz.symm.trans hy)
      rw [hxz.origin]
      exact hq hquiet l hl x hx

/-- A launch whose records can be held is aborted among those of the trap. -/
theorem abortsIfHeld_aborted (s4 : State) (ev : Nat) {ls : List Nat} {l : Nat} (hl : l ∈ ls) (hw : s4.recordWaits l = false) (s : State)
    {x : Launch} (hx : Tbl.find? s.launches l = some x) :
    ∃ y, Tbl.find? (ls.foldl (s4.abortIfHeld ev) s).launches l = some y ∧ y.phase = .aborted := by
  have hstep : ∀ (t : State) k, WorkFrame False t (s4.abortIfHeld ev t k) := fun t k => by
    unfold State.abortIfHeld
    split
    · exact .refl t
    · exact abortLaunch_workFrame ev fun h => h.elim
  induction ls generalizing s x with
  | nil => simp at hl
  | cons k ls ih =>
    rw [List.foldl_cons]
    by_cases e : l = k
    · subst e
      obtain ⟨y, hy, hphase⟩ := abortLaunch_aborted hx ev
      obtain ⟨z, hz, hyz⟩ := (WorkFrame.foldl hstep ls (s4.abortIfHeld ev s l)).launches l y (by
        rw [State.abortIfHeld, hw]; exact hy)
      exact ⟨z, hz, hyz.aborted hphase⟩
    · obtain ⟨y, hy, -⟩ := (hstep s k).launches l x hx
      exact ih (by simpa [e] using hl) _ hy

/-- The hub can hold the records of a trap that its ring has room for. -/
theorem recordWaits_of_room {s : State} {cause : BitVec 8} {detail : Nat → Dword × Option Origin} {l : Nat} {z : Launch}
    (hz : Tbl.find? s.launches l = some z) (hroom : (s.ctx z.ctx).ring.held.length + s.cur.allOwners.length ≤ 64) :
    (s.recordTraps cause detail).recordWaits l = false := by
  have hrec := recordTraps_frame s cause detail
  obtain ⟨y, hy, hzy⟩ := hrec.launches l z hz
  have hheld := hrec.held y.ctx
  rw [hzy.ctx] at hheld
  have hnone : ((s.recordTraps cause detail).ctx y.ctx).ring.unheld = [] := by
    rw [EventRing.unheld, List.drop_eq_nil_of_le (by rw [hzy.ctx]; omega)]; rfl
  unfold State.recordWaits
  rw [hy]
  dsimp only
  rw [hnone]; rfl

theorem takeTrapWith_frame_unattached {s : State} (cause : BitVec 8) (addr : Dword) (x : Option Origin)
    (detail : Nat → Dword × Option Origin) (h : (s.ctx s.cur.ctx).dbgctl.getLsbD 3 = false) :
    TrapFrame s (s.takeTrapWith cause addr x detail) cause detail ∧
      ∀ o ∈ s.cur.allOwners, ∀ l z, s.launchOf o = some l → Tbl.find? s.launches l = some z →
        (s.ctx z.ctx).ring.held.length + s.cur.allOwners.length ≤ 64 →
        ∃ w, Tbl.find? (s.takeTrapWith cause addr x detail).launches l = some w ∧ w.phase = .aborted := by
  have heq := takeTrapWith_unattached cause addr x detail h
  have hhalt := haltGroup_frame s cause detail
  have hrec := recordTraps_frame s cause detail
  have hwork := abortsIfHeld_workFrame (quiet := ∀ o l z, o ∈ s.cur.allOwners → s.launchOf o = some l →
    Tbl.find? s.launches l = some z → ∀ q k, z.origin ≠ .hostRing q k) (s.recordTraps cause detail)
    (s.ctx s.cur.ctx).ring.seq s.trapLaunches fun hquiet l hl y hy => by
      obtain ⟨o, ho, hol⟩ := mem_trapLaunches.1 hl
      cases hz : Tbl.find? s.launches l with
      | none => rw [hrec.unlisted l hz] at hy; cases hy
      | some z =>
        obtain ⟨y', hy', hzy⟩ := hrec.launches l z hz
        obtain rfl : y' = y := Option.some.inj (hy'.symm.trans hy)
        rw [hzy.origin]
        exact hquiet o l z ho hol hz
  have howner : ∀ o, (s.takeTrapWith cause addr x detail).owner o = (s.haltGroup cause detail).owner o := fun o => by
    rw [← recordTraps_owner, heq]
    exact congrArg (fun w => Tbl.getD w o Owner.fresh) hwork.owners
  refine ⟨⟨fun o ho => ?_, fun o ho => ?_, fun o ho _ => ?_, fun o ho => ?_, fun i => ?_, fun pa hpa hslot => ?_⟩,
    fun o ho l z hl hz hroom => ?_⟩
  · rw [howner, hhalt.inside o ho]
  · rw [howner, hhalt.inside o ho]
    exact dbgState_high _ _ (by decide)
  · rw [howner, hhalt.inside o ho, trapped_state]
  · rw [howner, hhalt.outside o ho]
  · rw [heq]
    exact (hwork.lanes i).trans (recordTraps_lanes s cause detail i)
  · rw [heq]
    exact (congrArg (fun m => Tbl.getD m pa (0 : Byte)) (hwork.mem hslot)).trans (hrec.byte pa hpa)
  · obtain ⟨y, hy, -⟩ := hrec.launches l z hz
    rw [heq]
    exact abortsIfHeld_aborted _ _ (mem_trapLaunches.2 ⟨o, ho, hl⟩) (recordWaits_of_room hz hroom) _ hy

theorem takeTrapWith_frame (s : State) (cause : BitVec 8) (addr : Dword) (x : Option Origin)
    (detail : Nat → Dword × Option Origin) : TrapFrame s (s.takeTrapWith cause addr x detail) cause detail := by
  cases h : (s.ctx s.cur.ctx).dbgctl.getLsbD 3
  · exact (takeTrapWith_frame_unattached cause addr x detail h).1
  · exact (takeTrapWith_frame_attached cause addr x detail h).1

namespace TrapFrame

variable {s t : State} {cause : BitVec 8} {detail : Nat → Dword × Option Origin}

/-- No trap changes a scalar register or ACR. -/
theorem owner_s_acr (h : TrapFrame s t cause detail) (o : Nat) : (t.owner o).s = (s.owner o).s ∧ (t.owner o).acr = (s.owner o).acr := by
  by_cases ho : o ∈ s.cur.allOwners
  · rw [h.inside o ho]; exact ⟨rfl, rfl⟩
  · rw [h.outside o ho]; exact ⟨rfl, rfl⟩

theorem getS (h : TrapFrame s t cause detail) (o : Nat) (r : BitVec 6) : t.getS o r = s.getS o r := by
  rw [State.getS, (h.owner_s_acr o).1]; rfl

theorem acr (h : TrapFrame s t cause detail) (o : Nat) : t.acr o = s.acr o := (h.owner_s_acr o).2

theorem getV (h : TrapFrame s t cause detail) (i n : Nat) : t.getV i n = s.getV i n := by
  rw [State.getV, h.lanes i]; rfl

end TrapFrame

/-! ### TCAUSE (14 R237) -/

theorem tcauseWord_some (cause : BitVec 8) (y : Origin) :
    (tcauseWord cause (some y)).extractLsb' 0 8 = cause ∧ (tcauseWord cause (some y)).extractLsb' 16 8 = y.ostrand ∧
      (tcauseWord cause (some y)).extractLsb' 24 7 = y.ostage ∧ (tcauseWord cause (some y)).getLsbD 31 = y.omill ∧
      (tcauseWord cause (some y)).extractLsb' 32 8 = y.cause := by
  have h : (tcauseWord cause (some y)).extractLsb' 0 (24 + 8 + 1 + 7 + 8 + 8 + 8) =
      (0 : BitVec 24) ++ y.cause ++ BitVec.ofBool y.omill ++ y.ostage ++ y.ostrand ++ (0 : BitVec 8) ++ cause :=
    BitVec.extractLsb'_eq_self
  simp only [field_eq_append, field_eq_ofBool] at h
  obtain ⟨⟨⟨⟨⟨⟨-, hcause⟩, hmill⟩, hstage⟩, hstrand⟩, -⟩, hlow⟩ := h
  exact ⟨hlow, hstrand, hstage, hmill, hcause⟩

theorem trapEntry : TrapEntry := by
  intro s cause addr x t os
  have hframe := takeTrapWith_frame s cause addr x (fun _ => (addr, x))
  refine ⟨fun o ho => ?_, rfl, tcauseWord_some cause, hframe.outside, hframe.getS, hframe.getV, hframe.acr, hframe.byte,
    fun h => (takeTrapWith_frame_attached cause addr x _ h).2, fun h => (takeTrapWith_frame_unattached cause addr x _ h).2⟩
  have hin := hframe.inside o ho
  refine ⟨?_, ?_, ?_, hframe.high o ho, hframe.state o ho⟩
  · exact (congrArg Owner.tcause hin).trans rfl
  · exact (congrArg Owner.taddr hin).trans rfl
  · exact (congrArg Owner.tpc hin).trans rfl

end Sys2Proof.Machine

namespace Sys2Proof.Machine

open Sys2Proof.Claims
open Host (Outcome)

/-! ## Control transfers and TRAP that trap (03 R66, R67, R78) -/

/-- The first actor that cannot act stops the instruction. -/
theorem forActors_error {s : State} {f : Who → State → Eff State} (hne : s.actors ≠ []) {e : Stop}
    (h : ∀ w ∈ s.actors, f w s = .error e) : forActors s f = .error e := by
  obtain ⟨w, ws, hw⟩ := List.exists_cons_of_ne_nil hne
  rw [forActors, hw, List.foldlM_cons, h w (by rw [hw]; exact List.mem_cons_self)]
  rfl

theorem controlTraps : ControlTraps := by
  refine ⟨fun s off hne hbad => ?bra, fun s imm cnt hne hfull hcnt => ?loopi, fun s imm => ⟨_, rfl, rfl, fun o ho => ?trap, ?_, ?_⟩⟩
  case bra =>
    have htarget : ∀ w ∈ s.actors, s.branch w (s.branchTarget off) = trapWith causeBadTarget 0 := fun w _ => by
      rw [branchTarget_eq]
      exact if_neg (fun h => hbad ((targetOk_iff _).1 h))
    exact congrArg (conclude s) (forActors_error (f := fun w t => t.branch w (s.branchTarget off)) hne htarget)
  case loopi =>
    have hdepth : ∀ w ∈ s.actors, loopActor cnt.toNat imm w s = trapWith causeLoopDepth 0 := fun w hw => by
      have hne : cnt.toNat ≠ 0 := fun e => hcnt (BitVec.eq_of_toNat_eq e)
      rw [loopActor, if_neg hne, if_pos (hfull w hw).ge]
    exact congrArg (conclude s) (forActors_error (f := loopActor cnt.toNat imm) hne hdepth)
  case trap =>
    obtain ⟨hin, -⟩ := trapEntry s 0x0F (imm.signExtend 64) none
    obtain ⟨hcause, haddr, hpc, -, -⟩ := hin o ho
    exact ⟨hcause, haddr, hpc⟩
  · exact (takeTrapWith_frame s _ _ none _).getS
  · exact (takeTrapWith_frame s _ _ none _).getV

/-! ## The conditions of an access (04 R102) -/

section AccessConditions
variable {s : State} {i n : Nat} {a : BitVec 6} {lb write : Bool} {off : BitVec 31} {addr : Dword}

theorem laneAddr_poisoned {k : BitVec 3} (h : (baseOf s i a lb).poison = some k) :
    s.laneAddr i a lb off = poisonTrap s causePoisonUse (strandBundle i) k := by
  unfold baseOf at h
  unfold State.laneAddr State.laneBase
  cases lb
  · simp only [Bool.false_eq_true, if_false] at h ⊢
    rw [State.useS, h]; rfl
  · simp only [if_true] at h ⊢
    rw [State.useD, h]; rfl

theorem top_bits_iff (addr : Dword) : (addr.extractLsb' 60 4 != 0) = true ↔ 2 ^ 60 ≤ addr.toNat := by
  have hzero : addr.extractLsb' 60 4 = 0 ↔ addr.toNat < 2 ^ 60 := by
    rw [← BitVec.toNat_inj, BitVec.extractLsb'_toNat, Nat.shiftRight_eq_div_pow]
    show _ = 0 ↔ _
    have := addr.isLt
    omega
  rw [bne_iff_ne, ne_eq, hzero, not_lt]

theorem laneGlobal_badAddress (h : 2 ^ 60 ≤ addr.toNat) : s.laneGlobal i addr n n write true = trapWith causeBadAddress addr := by
  rw [State.laneGlobal, State.globalAccess, if_pos ((top_bits_iff addr).2 h)]; rfl

theorem laneGlobal_misaligned (h : addr.toNat < 2 ^ 60) (hn : addr.toNat % n ≠ 0) :
    s.laneGlobal i addr n n write true = trapWith causeMisaligned addr := by
  rw [State.laneGlobal, State.globalAccess, if_neg (fun e => absurd ((top_bits_iff addr).1 e) (by omega)),
    if_pos (bne_iff_ne.2 hn)]
  rfl

/-- A stop that has translated nothing leaves no backing behind. -/
theorem concludeAccess_trap {c : BitVec 8} {x : Option Origin} (h : (Stopped.trap c addr x).translated false = none) :
    concludeAccess false s (.error (.stopped (.trap c addr x))) = .next (s.takeTrap c addr x) := by
  rw [concludeAccess, State.keepBacking, h]; rfl

/-- An access of one strand meets its conditions in order: its base, its data where it is a store, then its address. -/
structure AccessShape (s : State) (i n : Nat) (a : BitVec 6) (lb : Bool) (off : BitVec 31) (write : Bool) (held : Option (BitVec 3))
    (r : Eff State) : Prop where
  base : ∀ e, s.laneAddr i a lb off = .error e → r = .error e
  data : ∀ addr k, s.laneAddr i a lb off = .ok addr → held = some k → r = poisonTrap s causePoisonUse (strandBundle i) k
  access : ∀ addr e, s.laneAddr i a lb off = .ok addr → held = none → s.laneGlobal i addr n n write true = .error e → r = .error e

variable {held : Option (BitVec 3)} {r : Eff State}

theorem AccessShape.poisoned (h : AccessShape s i n a lb off write held r) {k : BitVec 3}
    (hk : (baseOf s i a lb).poison.or held = some k) : concludeAccess false s r =
      .next (s.takeTrap 0x08 (s.originAt (strandBundle i) k).addr (some (s.originAt (strandBundle i) k))) := by
  have hr : r = poisonTrap s causePoisonUse (strandBundle i) k := by
    cases hb : (baseOf s i a lb).poison with
    | some k' =>
      rw [hb] at hk
      obtain rfl : k' = k := Option.some.inj hk
      exact h.base _ (laneAddr_poisoned hb)
    | none =>
      rw [hb] at hk
      exact h.data _ k (laneAddr_eq hb) hk
  rw [hr]
  exact concludeAccess_trap rfl

theorem AccessShape.badAddress (h : AccessShape s i n a lb off write held r) (hb : (baseOf s i a lb).poison = none) (hd : held = none)
    (ha : 2 ^ 60 ≤ (addressOf s i a lb off).toNat) :
    concludeAccess false s r = .next (s.takeTrap 0x18 (addressOf s i a lb off) none) := by
  rw [h.access _ _ (laneAddr_eq hb) hd (laneGlobal_badAddress ha)]
  exact concludeAccess_trap rfl

theorem AccessShape.misaligned (h : AccessShape s i n a lb off write held r) (hb : (baseOf s i a lb).poison = none) (hd : held = none)
    (ha : (addressOf s i a lb off).toNat < 2 ^ 60) (hn : (addressOf s i a lb off).toNat % n ≠ 0) :
    concludeAccess false s r = .next (s.takeTrap 0x19 (addressOf s i a lb off) none) := by
  rw [h.access _ _ (laneAddr_eq hb) hd (laneGlobal_misaligned ha hn)]
  exact concludeAccess_trap rfl

theorem loadGlobal_error {w : Nat} {e : Stop} (h : s.laneGlobal i addr n n false true = .error e) :
    s.loadGlobal i addr n w = .error e := by rw [State.loadGlobal, h]

theorem storeGlobal_error {v : Nat} {e : Stop} (h : s.laneGlobal i addr n n true true = .error e) :
    s.storeGlobal i addr n v = .error e := by rw [State.storeGlobal, h]

theorem useV_poisoned {d : BitVec 6} {k : BitVec 3} (h : (s.laneV i d).poison = some k) :
    s.useV i d.toNat = poisonTrap s causePoisonUse (strandBundle i) k := by
  rw [State.laneV] at h
  rw [State.useV, h]

theorem useD_poisoned {m : Nat} {k : BitVec 3} (h : (s.getD2 i m).poison = some k) :
    s.useD i m = poisonTrap s causePoisonUse (strandBundle i) k := by rw [State.useD, h]

variable (s i n a lb off) (d : BitVec 6)

theorem loadStrand_shape : AccessShape s i n a lb off false none (loadStrand n d a lb off i s) where
  base e h := by rw [loadStrand, h]
  data _ _ _ h := nomatch h
  access addr e h _ hg := by
    rw [loadStrand, h]
    dsimp only
    rw [loadGlobal_error hg]; rfl

theorem load64Strand_shape : AccessShape s i 8 a lb off false none (load64Strand d a lb off i s) where
  base e h := by rw [load64Strand, h]
  data _ _ _ h := nomatch h
  access addr e h _ hg := by
    rw [load64Strand, h]
    dsimp only
    rw [loadGlobal_error hg]; rfl

theorem load128Strand_shape : AccessShape s i 16 a lb off false none (load128Strand d a lb off i s) where
  base e h := by rw [load128Strand, h]
  data _ _ _ h := nomatch h
  access addr e h _ hg := by
    rw [load128Strand, h]
    dsimp only
    rw [loadGlobal_error hg]; rfl

theorem storeStrand_shape : AccessShape s i n a lb off true (s.laneV i d).poison (storeStrand n d a lb off i s) where
  base e h := by rw [storeStrand, h]
  data addr k h hk := by simp only [storeStrand, h, useV_poisoned hk]; rfl
  access addr e h hd hg := by simp only [storeStrand, h, useV_eq hd, storeGlobal_error hg]

theorem store64Strand_shape : AccessShape s i 8 a lb off true (s.getD2 i d.toNat).poison (store64Strand d a lb off i s) where
  base e h := by rw [store64Strand, h]
  data addr k h hk := by simp only [store64Strand, h, useD_poisoned hk]; rfl
  access addr e h hd hg := by simp only [store64Strand, h, useD_eq hd, storeGlobal_error hg]

theorem store128Strand_shape : AccessShape s i 16 a lb off true ((s.getD2 i d.toNat).poison.or (s.getD2 i (d.toNat + 1)).poison)
    (store128Strand d a lb off i s) where
  base e h := by rw [store128Strand, h]
  data addr k h hk := by
    cases hlo : (s.getD2 i d.toNat).poison with
    | some k' =>
      rw [hlo] at hk
      obtain rfl : k' = k := Option.some.inj hk
      simp only [store128Strand, h, useD_poisoned hlo]; rfl
    | none =>
      rw [hlo] at hk
      simp only [store128Strand, h, useD_eq hlo, useD_poisoned (show (s.getD2 i (d.toNat + 1)).poison = some k from hk)]; rfl
  access addr e h hd hg := by
    obtain ⟨hlo, hhi⟩ := Option.or_eq_none_iff.1 hd
    simp only [store128Strand, h, useD_eq hlo, useD_eq hhi, storeGlobal_error hg]

end AccessConditions

theorem accessTraps : AccessTraps := by
  intro s g i d a lb off hs
  constructor
  · intro e he
    have hshape : ∃ r, exec e.2 s = concludeAccess false s r ∧ AccessShape s i e.1 a lb off false none r := by
      rcases List.mem_append.1 he with he | he
      · exact ⟨_, exec_wordLoad hs he, loadStrand_shape ..⟩
      · simp only [List.mem_cons, List.not_mem_nil, or_false] at he
        rcases he with rfl | rfl
        · exact ⟨_, congrArg (concludeAccess false s) (hs.forStrands_eq _), load64Strand_shape ..⟩
        · exact ⟨_, congrArg (concludeAccess false s) (hs.forStrands_eq _), load128Strand_shape ..⟩
    obtain ⟨r, hexec, hr⟩ := hshape
    rw [hexec]
    exact ⟨fun k hk => hr.poisoned (by rw [hk]; rfl), fun hb => hr.badAddress hb rfl, fun hb => hr.misaligned hb rfl⟩
  · intro e he
    have hshape : ∃ r, exec e.2.2 s = concludeAccess false s r ∧ AccessShape s i e.1 a lb off true e.2.1 r := by
      rcases List.mem_append.1 he with he | he
      · obtain ⟨x, hx, rfl⟩ := List.mem_map.1 he
        exact ⟨_, exec_wordStore hs hx, storeStrand_shape ..⟩
      · simp only [List.mem_cons, List.not_mem_nil, or_false] at he
        rcases he with rfl | rfl
        · exact ⟨_, congrArg (concludeAccess false s) (hs.forStrands_eq _), store64Strand_shape ..⟩
        · exact ⟨_, congrArg (concludeAccess false s) (hs.forStrands_eq _), store128Strand_shape ..⟩
    obtain ⟨r, hexec, hr⟩ := hshape
    rw [hexec]
    exact ⟨fun k hk => hr.poisoned hk, hr.badAddress, hr.misaligned⟩

end Sys2Proof.Machine

namespace Sys2Proof
open Sys2Proof.Machine Sys2Proof.Claims

/-- Settles O18: every trap goes through one entry, whose frame says what it writes; the instructions reach it by their first stop. -/
theorem trapsTaken : Obligations.TrapsTaken := ⟨controlTraps, accessTraps, trapEntry⟩

end Sys2Proof

namespace Sys2Proof.Machine

open Sys2Proof.Claims
open Host (Outcome)

/-! ## Fences, YIELD, CHK and BKPT (03 R75-R79, R82) -/

theorem exec_fenceI_raster {s : State} (h : OnRaster s) :
    ∃ t, exec .fenceI s = .next t ∧ StrandsBecome s t s.cur.strands (fun i => { s.strand i with fetchEpoch := s.epoch }) := by
  refine ⟨s.cur.strands.foldl (fun t i => t.fenceFetch (.strand i)) s, ?_, foldl_strandsBecome h.2 fun i _ u hu => ?_⟩
  · show Outcome.next (s.actors.foldl State.fenceFetch s) = _
    rw [State.actors, h.1, List.foldl_map]
  · have := StrandsBecome.of_setStrand u i (fun i => { s.strand i with fetchEpoch := s.epoch })
    have hepoch : u.epoch = s.epoch := by rw [hu.rest]
    rwa [State.fenceFetch, hu.own, hepoch]

theorem exec_yield_raster {s : State} (h : OnRaster s) :
    ∃ t, exec .yield s = .next t ∧ StrandsBecome s t s.cur.strands (fun i => { s.strand i with held := true }) := by
  refine ⟨_, rfl, foldl_strandsBecome h.2 fun i _ u hu => ?_⟩
  have := StrandsBecome.of_setStrand u i (fun i => { s.strand i with held := true })
  rwa [hu.own]

theorem exec_fenceI_tile {s : State} {k : Nat} {st : Stream} (h : OnTile s k st) :
    ∃ t, exec .fenceI s = .next t ∧ StreamBecomes s t k { st with fetchEpoch := s.epoch } := by
  obtain ⟨hprofile, howners, hst⟩ := h
  refine ⟨_, ?_, StreamBecomes.of_setStream hst (fun (x : Stream) => { x with fetchEpoch := s.epoch })⟩
  show Outcome.next (s.actors.foldl State.fenceFetch s) = _
  rw [State.actors, hprofile, howners]
  rfl

/-! ### CHK -/

/-- What CHK makes of the registers it looks at. -/
def State.checkResult (s : State) (d a : BitVec 6) : Eff State :=
  match s.checked d a with
  | some (o, k) => poisonTrap s causePoison o k
  | none => .ok s

/-- A check that has nothing to wait for looks at the registers of the state it finds. -/
theorem exec_chk {s : State} {d a : BitVec 6} (h : d ≠ 3 ∨ s.cur.cleared = true) :
    exec (.chk d a) s = conclude s (s.checkResult d a) := by
  have hready : ¬(d = 3 ∧ (!s.cur.cleared) = true) := by
    rintro ⟨hd, hc⟩
    rcases h with h | h
    · exact h hd
    · rw [h] at hc; cases hc
  show conclude s _ = _
  rw [if_neg hready]
  rfl

theorem exec_chk_plain {s : State} {d a : BitVec 6} (h : d ≠ 3 ∨ s.cur.cleared = true) (hc : s.checked d a = none) :
    exec (.chk d a) s = .next s := by
  rw [exec_chk h, State.checkResult, hc]; rfl

theorem exec_chk_poisoned {s : State} {d a : BitVec 6} {o : Nat} {k : BitVec 3} (h : d ≠ 3 ∨ s.cur.cleared = true)
    (hc : s.checked d a = some (o, k)) :
    exec (.chk d a) s = .next (s.takeTrap 0x09 (s.originAt o k).addr (some (s.originAt o k))) := by
  rw [exec_chk h, State.checkResult, hc]; rfl

/-- No element of a list is poisoned. -/
theorem findSome_poison_none {l : List Nat} {f : Nat → Option (BitVec 3)} {g : Nat → Nat} (h : ∀ i ∈ l, f i = none) :
    l.findSome? (fun i => (f i).map (fun k => (g i, k))) = none :=
  List.findSome?_eq_none_iff.2 fun i hi => by rw [h i hi]; rfl

theorem findSome_singleton {i : Nat} {f : Nat → Option (Nat × BitVec 3)} {x : Nat × BitVec 3} (h : f i = some x) :
    [i].findSome? f = some x := by
  rw [List.findSome?_cons, h]

/-- The vector register that CHK names on a stream. -/
theorem checked_vector {s : State} {t : Nat} {st : Stream} (h : OnTile s t st) (a : BitVec 6) :
    s.checked 3 a = ((Tbl.getD st.w (st.phys a.toNat) (.zero 2048)).poison).map (fun k => (t, k)) := by
  obtain ⟨-, howners, hst⟩ := h
  show s.cur.owners.findSome? _ = _
  rw [howners, List.findSome?_cons, List.findSome?_nil, hst]
  dsimp only
  cases (Tbl.getD st.w (st.phys a.toNat) (.zero 2048)).poison <;> rfl

/-! ### BKPT -/

/-- A breakpoint's DBGSTAT: the code of BKPT above, BPN 15 where no address breakpoint matched (14 R255). -/
theorem dbgBreak_fields (d : Dword) (imm : BitVec 32) :
    (dbgBreak d (some imm) 15).extractLsb' 32 32 = imm ∧ (dbgBreak d (some imm) 15).extractLsb' 8 4 = 15 := by
  have hcode : (dbgBreak d (some imm) 15) = imm ++ ((d &&& ~~~0xF00#64) ||| BitVec.ofNat 64 (15 % 16 * 256)).extractLsb' 0 32 := rfl
  obtain ⟨hhigh, hlow⟩ := (eq_append (n := 32) (m := 32)).1 hcode
  refine ⟨hhigh, ?_⟩
  have hfield := field_of_field (u := dbgBreak d (some imm) 15) (k := 0) (m := 32) (j := 8) (n := 4) (by decide)
  rw [Nat.zero_add] at hfield
  rw [← hfield, hlow, field_of_field (by decide)]
  have hbpn : ∀ i, i < 4 → (BitVec.ofNat 64 (15 % 16 * 256)).getLsbD (8 + i) = true := by decide
  apply BitVec.eq_of_getLsbD_eq
  intro i hi
  have hones : ∀ i, i < 4 → (15#4).getLsbD i = true := by decide
  rw [BitVec.getLsbD_extractLsb', Nat.zero_add, BitVec.getLsbD_or, hbpn i hi, Bool.or_true, Bool.and_true, decide_eq_true hi]
  exact (hones i hi).symm

/-- A field of DBGSTAT above STATE, which a trap leaves. -/
theorem field_above_state {x y : Dword} (h : x.extractLsb' 3 61 = y.extractLsb' 3 61) {k n : Nat} (hk : 3 ≤ k) (hn : k + n ≤ 64) :
    x.extractLsb' k n = y.extractLsb' k n := by
  obtain ⟨j, rfl⟩ := Nat.exists_eq_add_of_le hk
  rw [← field_of_field (u := x) (k := 3) (m := 61) (by omega), h, field_of_field (by omega)]

theorem exec_bkpt_taken {s : State} (imm : BitVec 32) (hen : (s.ctx s.cur.ctx).dbgctl.getLsbD 1 = true)
    (hskip : ∃ w ∈ s.actors, s.skipOf w = none) : exec (.bkpt imm) s = .next (s.breakTrap (some imm) 15) := by
  obtain ⟨w, hw, hnone⟩ := hskip
  have hany : s.actors.any s.testsBreak = true :=
    List.any_eq_true.2 ⟨w, hw, by rw [State.testsBreak, hnone]; rfl⟩
  show (if _ then _ else _) = _
  rw [hen, hany]
  rfl

theorem breakTrap_owner (s : State) (imm : BitVec 32) (o : Nat) (ho : o ∈ s.cur.allOwners) :
    let t := s.breakTrap (some imm) 15
    (t.owner o).tcause = 0x10 ∧ (t.owner o).taddr = 0 ∧ (t.owner o).tpc = s.cur.gpc ∧
      (t.owner o).dbgstat.extractLsb' 32 32 = imm ∧ (t.owner o).dbgstat.extractLsb' 8 4 = 15 := by
  obtain ⟨hrest, hin, -⟩ := foldl_setOwner (fun _ w => { w with dbgstat := dbgBreak w.dbgstat (some imm) 15 }) s.cur.allOwners
    (nodup_eraseDups _) s
  unfold State.breakTrap
  generalize s.cur.allOwners.foldl
    (fun (t : State) o => t.setOwner o { t.owner o with dbgstat := dbgBreak (t.owner o).dbgstat (some imm) 15 }) s = s1 at hrest hin
  have hcur : s1.cur = s.cur := by rw [hrest]
  have hframe := takeTrapWith_frame s1 (BitVec.ofNat 8 causeBreakpoint) 0 none (fun _ => (0, none))
  have ho1 : o ∈ s1.cur.allOwners := by rw [hcur]; exact ho
  have htrap := hframe.inside o ho1
  have hhigh := hframe.high o ho1
  obtain ⟨hcode, hbpn⟩ := dbgBreak_fields (s.owner o).dbgstat imm
  rw [hin o ho] at hhigh
  refine ⟨(congrArg Owner.tcause htrap).trans rfl, (congrArg Owner.taddr htrap).trans rfl, ?_, ?_, ?_⟩
  · rw [← hcur]
    exact (congrArg Owner.tpc htrap).trans rfl
  · exact (field_above_state hhigh (by decide) (by decide)).trans hcode
  · exact (field_above_state hhigh (by decide) (by decide)).trans hbpn

end Sys2Proof.Machine

namespace Sys2Proof
open Sys2Proof.Machine Sys2Proof.Claims

/-- Settles O13: fences and YIELD act on each strand or stream, CHK on what it finds poisoned, BKPT through the one trap entry. -/
theorem fencesAndChecks : Obligations.FencesAndChecks := by
  refine ⟨fun _ _ => ⟨rfl, rfl⟩, fun s h => ⟨exec_fenceI_raster h, exec_yield_raster h⟩, fun s k st h => exec_fenceI_tile h,
    fun s a => ⟨fun h => ?s, fun h => ?v, fun h => ?d⟩, fun s k st a h hw hc => ?w, fun s a k => ⟨?ps, ?pv, ?pd, ?pw⟩,
    fun s imm => ⟨fun h => ?off, fun hen hskip => ⟨_, exec_bkpt_taken imm hen hskip, breakTrap_owner s imm⟩⟩⟩
  case s => exact exec_chk_plain (.inl (by decide)) (findSome_poison_none h)
  case v => exact exec_chk_plain (.inl (by decide)) (findSome_poison_none h)
  case d => exact exec_chk_plain (.inl (by decide)) (findSome_poison_none h)
  case w => exact exec_chk_plain (.inr hc) (by rw [checked_vector h, hw]; rfl)
  case ps =>
    intro o ho hk
    exact exec_chk_poisoned (.inl (by decide)) (by
      show s.cur.owners.findSome? _ = _
      rw [ho]
      exact findSome_singleton (by rw [hk]; rfl))
  case pv =>
    intro i hi hk
    exact exec_chk_poisoned (.inl (by decide)) (by
      show s.cur.strands.findSome? _ = _
      rw [hi]
      exact findSome_singleton (by rw [hk]; rfl))
  case pd =>
    intro i hi hk
    exact exec_chk_poisoned (.inl (by decide)) (by
      show s.cur.strands.findSome? _ = _
      rw [hi]
      exact findSome_singleton (by rw [hk]; rfl))
  case pw =>
    intro t st h hc hk
    exact exec_chk_poisoned (.inr hc) (by rw [checked_vector h, hk]; rfl)
  case off =>
    show (if _ then _ else _) = _
    rw [h]
    rfl

end Sys2Proof

namespace Sys2Proof.Machine

open Sys2Proof.Claims
open Host (Outcome)

/-! ## REGION and EXIT on a tile (03 R80, R81, 14 R242, 18 R302) -/

/-- What waits for the drain is over, so the stream's part of the instruction runs. -/
theorem conclude_eachOwner_tile {s : State} {k : Nat} {st : Stream} (h : OnTile s k st) (hc : s.cur.cleared = true)
    (f : Nat → State → State) :
    conclude s ((if s.cur.cleared then .ok s else s.commitPoint).map (fun (t : State) => eachOwner t f)) = .next (f k s) := by
  rw [if_pos hc]
  show Outcome.next (s.cur.owners.foldl (fun t o => f o t) s) = _
  rw [h.2.1]
  rfl

theorem exec_region_tile {s : State} {k : Nat} {st : Stream} (h : OnTile s k st) (hc : s.cur.cleared = true) (off : BitVec 32) :
    ∃ t, exec (.region off) s = .next t ∧ StreamBecomes s t k
      { st with check := ⟨wordsOn s off, st.loops, st.rotDue.repeat rotateShape st.shape, (s.owner k).acr, st.pairIssued, st.pos⟩,
                restarts := if st.anew then st.restarts else 0 } := by
  refine ⟨_, conclude_eachOwner_tile h hc (fun o u => u.checkpoint o (s.branchTarget off)), ?_⟩
  rw [branchTarget_eq]
  exact StreamBecomes.of_setStream h.2.2 (fun (x : Stream) =>
    { x with check := ⟨wordsOn s off, x.loops, x.rotDue.repeat rotateShape x.shape, s.acr k, x.pairIssued, x.pos⟩,
             restarts := if x.anew then x.restarts else 0 })

/-- Where the task sequencer goes on after a part (18 R302). -/
def SeqPos.afterPart : SeqPos → SeqPos
  | .plain => .plain
  | .chain r rec p n => if p = 0 then .chain r rec 1 0 else if p = 1 then .chain r rec 1 (n + 1) else .chain r rec 3 0

/-- A stream after the end of a part. -/
def Stream.partEnded (st : Stream) : Stream :=
  { st with running := false, head := none, loops := [], target := none, paired := none, pairIssued := false,
            pos := st.pos.afterPart }

/-- Every tile as the release of a leader's pair leaves it. -/
theorem tile_unslave (s : State) (k j : Nat) :
    ({ s with tiles := Tbl.mapVals (Tile.unslave k) s.tiles } : State).tile j = (s.tile j).unslave k := by
  show (Tbl.find? (Tbl.mapVals (Tile.unslave k) s.tiles) j).getD Tile.reset = _
  rw [Tbl.find_mapVals, State.tile, Tbl.getD]
  cases Tbl.find? s.tiles j <;> rfl

theorem tile_setStream (s : State) (k : Nat) (f : Stream → Stream) (j : Nat) :
    (s.setStream k f).tile j = if j = k then { s.tile k with stream := (s.tile k).stream.map f } else s.tile j :=
  State.tile_setTile ..

/-- The tiles after the end of a part: the stream's own, and every tile it led without its leader. -/
theorem tile_exitPart {s : State} {k : Nat} {st : Stream} (h : (s.tile k).stream = some st) (j : Nat) :
    (s.exitPart k).tile j =
      if j = k then { (s.tile k).unslave k with stream := some st.partEnded } else (s.tile j).unslave k := by
  have hmap : ∀ (f : Stream → Stream) (x : Tile), { x with stream := x.stream.map f }.unslave k =
      { x.unslave k with stream := x.stream.map f } := fun f x => by
    unfold Tile.unslave
    split <;> rfl
  rw [State.exitPart, tile_setStream, State.releasePair, tile_unslave, tile_unslave, tile_setStream, tile_setStream, if_pos rfl, hmap]
  by_cases e : j = k
  · rw [if_pos e, if_pos e, h]
    rfl
  · rw [if_neg e, if_neg e, if_neg e]

theorem exec_exit_tile {s : State} {k : Nat} {st : Stream} (h : OnTile s k st) (hc : s.cur.cleared = true) :
    exec .exit s = .next (s.exitPart k) := by
  show execExit s = _
  rw [execExit, h.1]
  exact conclude_eachOwner_tile h hc (fun o u => u.exitPart o)

theorem slavedTo_unslave (x : Tile) (k : Nat) : (x.unslave k).slavedTo = if x.slavedTo = some k then none else x.slavedTo := by
  unfold Tile.unslave
  split <;> rfl

theorem unslave_eq (x : Tile) (k : Nat) : x.unslave k = { x with slavedTo := (x.unslave k).slavedTo } := by
  unfold Tile.unslave
  split <;> rfl

theorem tileRegionAndExit : TileRegionAndExit := by
  intro s k st off h hc
  refine ⟨exec_region_tile h hc off, s.exitPart k, st.partEnded, exec_exit_tile h hc, ?_, fun j => ?_, fun j hj => ?_, rfl,
    fun hp => ?_, fun r ds p n hp => ?_, rfl⟩
  · rw [tile_exitPart h.2.2, if_pos rfl]
    exact congrArg (fun x => { x with stream := some st.partEnded }) (unslave_eq (s.tile k) k)
  · rw [tile_exitPart h.2.2, ← slavedTo_unslave]
    by_cases e : j = k
    · subst e
      rw [if_pos rfl]
    · rw [if_neg e]
  · rw [tile_exitPart h.2.2, if_neg hj]
    exact unslave_eq (s.tile j) k
  · rw [Stream.partEnded, hp]; rfl
  · rw [Stream.partEnded, hp]; rfl

/-! ## EXIT of a strand (03 R81) -/

theorem exitFrame_refl (s : State) : ExitFrame s s := ⟨rfl, fun _ => rfl, fun _ => rfl⟩

theorem exitFrame_trans {s t u : State} (h : ExitFrame s t) (k : ExitFrame t u) : ExitFrame s u where
  rest := by rw [k.rest, h.rest]
  ctxs c := by rw [k.ctxs c, h.ctxs c]
  cores c := by rw [k.cores c, h.cores c]

/-- What the end of a strand makes of its crew, its grove and its core, the strand and its bundle being ended already. -/
structure SettleFrame (s t : State) : Prop where
  exit : ExitFrame s t
  strands : t.strands = s.strands
  bundles : t.bundles = s.bundles

theorem SettleFrame.refl (s : State) : SettleFrame s s := ⟨exitFrame_refl s, rfl, rfl⟩

theorem SettleFrame.trans {s t u : State} (h : SettleFrame s t) (k : SettleFrame t u) : SettleFrame s u :=
  ⟨exitFrame_trans h.exit k.exit, k.strands.trans h.strands, k.bundles.trans h.bundles⟩

theorem SettleFrame.setCrew (s : State) (c : Nat) (x : Crew) : SettleFrame s (s.setCrew c x) :=
  ⟨⟨rfl, fun _ => rfl, fun _ => rfl⟩, rfl, rfl⟩

theorem settleCrewBar_frame (s : State) (c n : Nat) : SettleFrame s (s.settleCrewBar c n) := by
  unfold State.settleCrewBar
  split
  · dsimp only
    split
    · exact .refl s
    · exact .setCrew ..
  · exact .refl s

theorem settleGroveBar_frame (s : State) (g n : Nat) (second : Bool) : SettleFrame s (s.settleGroveBar g n second) := by
  unfold State.settleGroveBar
  split
  · exact .refl s
  · exact ⟨⟨rfl, fun _ => rfl, fun _ => rfl⟩, rfl, rfl⟩

theorem freeRecords_frame (s : State) (c : Nat) (rs : List Dword) : SettleFrame s (s.freeRecords c rs) := by
  refine ⟨⟨rfl, fun k => ?_, fun _ => rfl⟩, rfl, rfl⟩
  rw [State.freeRecords, State.ctx_setCtx]
  split
  · subst_vars; rfl
  · rfl

theorem endRecords_frame (s : State) (c : Nat) : SettleFrame s (s.endRecords c) := by
  unfold State.endRecords
  split
  · exact .refl s
  · split
    · exact (freeRecords_frame ..).trans (.setCrew ..)
    · exact .refl s

theorem startSplit_frame (s : State) (o : Nat) : SettleFrame s (s.startSplit o) := by
  unfold State.startSplit
  split
  case h_1 =>
    dsimp only
    split
    case h_1 =>
      split
      · refine ⟨⟨rfl, fun _ => rfl, fun k => ?_⟩, rfl, rfl⟩
        rw [State.core_setCore]
        split
        · subst_vars; rfl
        · rfl
      · exact .refl s
    case h_2 => exact .refl s
  case h_2 => exact .refl s

/-- A strand that has ended. -/
def Strand.ended (x : Strand) : Strand := { x with stat := .dead, loops := [], moved := true }

/-- A strand ends, and its bundle with the last live one. -/
def State.endStrand (s : State) (i : Nat) (x : Strand) : State :=
  let s1 := s.setStrand i x.ended
  if (s1.liveStrands (strandBundle i)).isEmpty then
    { s1 with bundles := Tbl.modify s1.bundles (strandBundle i) (fun (y : Bundle) => { y with exited := true }) }
  else s1

/-- The barriers, records and drains that the end of a strand of bundle b settles. -/
def State.settleExit (s : State) (b : Nat) : State :=
  match s.crewOf b with
  | none => s
  | some (c, x) =>
    let s3 := (List.range 8).foldl (fun t n => t.settleCrewBar c n) (s.endRecords c)
    let s4 := match x.grove with
      | none => s3
      | some g => (List.range 4).foldl (fun t n => t.settleGroveBar g n (s3.groveSecond x)) s3
    s4.startSplit b

theorem exitStrand_eq (s : State) (i : Nat) :
    s.exitStrand i = ((s.retirePixel i).endStrand i (s.strand i)).settleExit (strandBundle i) := rfl

theorem settleExit_frame (s : State) (b : Nat) : SettleFrame s (s.settleExit b) := by
  unfold State.settleExit
  split
  · exact .refl s
  case h_2 c x _ =>
    have hcrew := (endRecords_frame s c).trans (foldl_keeps (SettleFrame _) (fun t n => t.settleCrewBar c n)
      (fun t n ht => ht.trans (settleCrewBar_frame t c n)) (List.range 8) _ (.refl _))
    generalize (List.range 8).foldl (fun t n => t.settleCrewBar c n) (s.endRecords c) = s3 at hcrew
    refine SettleFrame.trans ?_ (startSplit_frame _ b)
    cases x.grove with
    | none => exact hcrew
    | some g =>
      exact hcrew.trans (foldl_keeps (SettleFrame s3) _ (fun t n ht => ht.trans (settleGroveBar_frame t g n _)) _ _ (.refl s3))

theorem endStrand_strand (s : State) (i : Nat) (x : Strand) (j : Nat) :
    (s.endStrand i x).strand j = if j = i then x.ended else s.strand j := by
  unfold State.endStrand
  dsimp only
  split <;> exact State.strand_setStrand ..

theorem endStrand_frame (s : State) (i : Nat) (x : Strand) : ExitFrame s (s.endStrand i x) := by
  unfold State.endStrand
  dsimp only
  split <;> exact ⟨rfl, fun _ => rfl, fun _ => rfl⟩

/-- The bundle's live strands without the one that ends are none exactly where it was the last. -/
theorem liveStrands_ended_isEmpty (s : State) (i : Nat) (x : Strand) :
    ((s.setStrand i x.ended).liveStrands (strandBundle i)).isEmpty = true ↔ ∀ j ∈ s.liveStrands (strandBundle i), j = i := by
  rw [List.isEmpty_iff, List.eq_nil_iff_forall_not_mem]
  refine forall_congr' fun j => ?_
  rw [mem_liveStrands, mem_liveStrands, State.setStrand, Tbl.find_insert]
  by_cases e : j = i
  · subst e
    simp only [if_true, implies_true, iff_true]
    rintro ⟨-, y, hy, hlive⟩
    obtain rfl : x.ended = y := Option.some.inj hy
    cases hlive
  · rw [if_neg e]
    simp only [e, imp_false]

theorem endStrand_bundles (s : State) (i : Nat) (x : Strand) (b : Nat) {y : Bundle} (hy : Tbl.find? s.bundles b = some y) :
    Tbl.find? (s.endStrand i x).bundles b =
      some (if b = strandBundle i ∧ (∀ j ∈ s.liveStrands b, j = i) then { y with exited := true } else y) := by
  unfold State.endStrand
  dsimp only
  by_cases hlast : ∀ j ∈ s.liveStrands (strandBundle i), j = i
  · rw [if_pos ((liveStrands_ended_isEmpty s i x).2 hlast)]
    show Tbl.find? (Tbl.modify s.bundles _ _) b = _
    rw [Tbl.find_modify]
    by_cases e : b = strandBundle i
    · subst e
      rw [if_pos rfl, hy, if_pos ⟨rfl, hlast⟩]; rfl
    · rw [if_neg e, hy, if_neg (fun h => e h.1)]
  · rw [if_neg (fun h => hlast ((liveStrands_ended_isEmpty s i x).1 h)), if_neg (by rintro ⟨rfl, h⟩; exact hlast h)]
    exact hy

theorem exec_exit_raster {s : State} {i : Nat} (hprofile : s.cur.profile = .raster) (hi : s.cur.strands = [i]) :
    exec .exit s = .next (s.exitStrand i) := by
  show execExit s = _
  rw [execExit, hprofile, hi]
  rfl

theorem rasterExit : RasterExit := by
  refine ⟨fun s i l p x hprofile hi hpixel hl hx => ⟨_, exec_exit_raster hprofile hi, ?_⟩,
    fun s i hprofile hi hpixel => ⟨_, exec_exit_raster hprofile hi, ?_⟩⟩
  · subst hl
    have hretire : s.retirePixel i = s.setLaunch p.launch { x with frags := x.frags ++ [⟨p.key, p, (s.strand i).out, s.fzOf i⟩] } := by
      simp only [State.retirePixel, hpixel, hx]
    have hend := endStrand_frame (s.retirePixel i) i (s.strand i)
    have hsettle := settleExit_frame ((s.retirePixel i).endStrand i (s.strand i)) (strandBundle i)
    have hlaunches : (s.exitStrand i).launches = (s.retirePixel i).launches := by
      rw [exitStrand_eq, hsettle.exit.rest, hend.rest]
    refine ⟨?_, ?_, ?_⟩
    · rw [exitStrand_eq, State.strand, hsettle.strands]
      exact (endStrand_strand (s.retirePixel i) i (s.strand i) i).trans (if_pos rfl)
    · rw [hlaunches, hretire, find_setLaunch, if_pos rfl]
    · have hstart : ({ s with launches := (s.exitStrand i).launches } : State) = s.retirePixel i := by
        rw [hlaunches, hretire]; rfl
      rw [hstart, exitStrand_eq]
      exact exitFrame_trans hend hsettle.exit
  · have hretire : s.retirePixel i = s := by simp only [State.retirePixel, hpixel]
    have hsettle := settleExit_frame (s.endStrand i (s.strand i)) (strandBundle i)
    rw [exitStrand_eq, hretire]
    refine ⟨?_, fun j hj => ?_, fun b y hy => ?_, exitFrame_trans (endStrand_frame ..) hsettle.exit⟩
    · rw [State.strand, hsettle.strands]
      exact (endStrand_strand s i (s.strand i) i).trans (if_pos rfl)
    · rw [State.strand, hsettle.strands]
      exact (endStrand_strand s i (s.strand i) j).trans (if_neg hj)
    · rw [hsettle.bundles]
      exact endStrand_bundles s i _ b hy

end Sys2Proof.Machine

namespace Sys2Proof
open Sys2Proof.Machine Sys2Proof.Claims

/-- Settles O14: the stream's checkpoint or the end of its part, and the end of a strand with what it settles. -/
theorem regionAndExit : Obligations.RegionAndExit := ⟨tileRegionAndExit, rasterExit⟩

end Sys2Proof

namespace Sys2Proof.Machine

open Sys2Proof.Claims
open Host (Outcome)

/-! ## One owner: its group, its result and what is delivered to it -/

theorem forOwners_single {s : State} {o : Nat} (h : s.cur.owners = [o]) (f : Nat → State → Eff State) : forOwners s f = f o s := by
  rw [forOwners, h]
  exact bind_pure (f o s)

theorem eachOwner_single {s : State} {o : Nat} (h : s.cur.owners = [o]) (f : Nat → State → State) : eachOwner s f = f o s := by
  rw [eachOwner, h]
  rfl

/-- A group of one owner goes on with what its owner makes of the state. -/
theorem conclude_forOwners_single {s t : State} {o : Nat} {f : Nat → State → Eff State} (h : s.cur.owners = [o])
    (ht : f o s = .ok t) : conclude s (forOwners s f) = .next t := by
  rw [forOwners_single h, ht]
  rfl

theorem State.getS_putS (s : State) (o : Nat) (d : BitVec 6) (x : Dword) :
    (s.putS o d x).getS o d = if d = 0 then .zero 64 else ⟨x, none⟩ := by
  rw [State.putS, State.getS_setS]
  by_cases hd : d = 0
  · subst hd
    rw [if_neg (by simp), if_pos rfl]
    rfl
  · rw [if_pos ⟨rfl, rfl, hd⟩, if_neg hd]

theorem State.putS_frame (s : State) (o : Nat) (d : BitVec 6) (x : Dword) : ScalarFrame s (s.putS o d x) [o] d :=
  State.setS_frame s o d ⟨x, none⟩

@[simp] theorem State.putS_launches (s : State) (o : Nat) (d : BitVec 6) (x : Dword) : (s.putS o d x).launches = s.launches := by
  rw [(s.putS_frame o d x).rest]
@[simp] theorem State.putS_bundles (s : State) (o : Nat) (d : BitVec 6) (x : Dword) : (s.putS o d x).bundles = s.bundles := by
  rw [(s.putS_frame o d x).rest]
@[simp] theorem State.putS_ctxs (s : State) (o : Nat) (d : BitVec 6) (x : Dword) : (s.putS o d x).ctxs = s.ctxs := by
  rw [(s.putS_frame o d x).rest]
@[simp] theorem State.putS_cores (s : State) (o : Nat) (d : BitVec 6) (x : Dword) : (s.putS o d x).cores = s.cores := by
  rw [(s.putS_frame o d x).rest]
@[simp] theorem State.putS_mem (s : State) (o : Nat) (d : BitVec 6) (x : Dword) : (s.putS o d x).mem = s.mem := by
  rw [(s.putS_frame o d x).rest]

@[simp] theorem State.putS_ctx (s : State) (o : Nat) (d : BitVec 6) (x : Dword) (c : Nat) : (s.putS o d x).ctx c = s.ctx c := by
  rw [State.ctx, State.putS_ctxs, State.ctx]

/-- A delivery that is live hands over its value and counts it in its launch (08 R184, R185). -/
theorem deliver_live {s : State} {o : Nat} (h : LiveDelivery s o) (st kind : Nat) (v : Dword) :
    ∃ ls, s.deliver o st kind v = (v, { s with launches := ls }) := by
  rcases h with h | ⟨l, x, hl, hx, hreplay, hcapture⟩
  · exact ⟨s.launches, by rw [State.deliver, State.deliverWith, h]⟩
  · have hquiet (u : State) (hu : u.ctxs = s.ctxs) (idx ord : Nat) : u.captureValue x.ctx x.seq idx st ord kind v = u := by
      have hc : (u.ctx x.ctx).capture = none := by
        rw [State.ctx, hu]
        exact hcapture
      simp only [State.captureValue, hc]
    simp only [State.deliver, State.deliverWith, hl, hx, hreplay, Bool.false_eq_true, if_false]
    exact ⟨_, congrArg (Prod.mk v) (hquiet (s.setLaunch l _) rfl _ _)⟩

/-- Whether a delivery is live rests on the owner's launch and its context's capture buffer alone. -/
theorem liveDelivery_congr {s t : State} {o : Nat} (h : LiveDelivery s o) (hl : t.launchOf o = s.launchOf o)
    (hx : t.launches = s.launches) (hc : ∀ c, (t.ctx c).capture = (s.ctx c).capture) : LiveDelivery t o := by
  unfold LiveDelivery
  simp only [hl, hx, hc]
  exact h

/-! ## Records of work graphs (03 R86, 07 R161) -/

theorem State.ctx_setRecord (s : State) (c : Nat) (r : Dword) (x : RecordStat) (e : Nat) :
    (s.setRecord c r x).ctx e =
      if e = c then { s.ctx c with records := Tbl.insert (s.ctx c).records r.toNat x } else s.ctx e :=
  State.ctx_setCtx ..

theorem State.ctx_returnRecord (s : State) (c : Nat) (r : Dword) (e : Nat) :
    (s.returnRecord c r).ctx e =
      if e = c then { s.ctx c with records := Tbl.erase (s.ctx c).records r.toNat } else s.ctx e :=
  State.ctx_setCtx ..

/-- A choice of an entry by an index taken modulo the length is an entry. -/
theorem getD_mod_mem {α : Type} (a : α) (as : List α) (n : Nat) : (a :: as).getD (n % (a :: as).length) a ∈ a :: as := by
  have hlt : n % (a :: as).length < (a :: as).length := Nat.mod_lt _ (by simp)
  rw [List.getD_eq_getElem _ _ hlt]
  exact List.getElem_mem hlt

theorem recaOwner_free {s : State} {o : Nat} {a d : BitVec 6} (hplain : (s.getS o a).poison = none)
    (hnode : s.isNode s.cur.ctx (s.getS o a).val.toNat = true) (hfree : (s.ctx s.cur.ctx).freeSlots ≠ []) :
    ∃ r ∈ (s.ctx s.cur.ctx).freeSlots, recaOwner d a o s =
      .ok ((s.free.2.setRecord s.cur.ctx r (.committable (s.getS o a).val.toNat)).putS o d r) := by
  have hn : s.nodeFor o a = .ok (s.getS o a).val.toNat := by
    rw [State.nodeFor, State.useS_plain hplain]
    exact if_pos hnode
  cases hslots : (s.ctx s.cur.ctx).freeSlots with
  | nil => exact absurd hslots hfree
  | cons r rest =>
    refine ⟨(r :: rest).getD (s.free.1.toNat % (r :: rest).length) r, getD_mod_mem .., ?_⟩
    simp only [recaOwner, hn, hslots]

theorem exec_reca_cleared {s : State} {d a : BitVec 6} (hc : s.cur.cleared = true) :
    exec (.reca d a) s = conclude s (forOwners s (recaOwner d a)) := by
  show execReca d a s = _
  rw [execReca, if_pos hc]

theorem remitOwner_pending {s : State} {o n : Nat} {a : BitVec 6} {nd : Node} (hplain : (s.getS o a).poison = none)
    (hrecord : Tbl.find? (s.ctx s.cur.ctx).records (s.getS o a).val.toNat = some (.committable n))
    (hnode : Tbl.find? (s.ctx s.cur.ctx).nodes n = some nd) (hlive : nd.aborted = false)
    (hroom : nd.pending.length + 1 < hdrBatch nd.hdr) :
    remitOwner a o s =
      let s1 := s.readTime.2.setRecord s.cur.ctx (s.getS o a).val (.pending n)
      let nd1 : Node := { nd with pending := nd.pending ++ [((s.getS o a).val, s.readTime.1)], active := true }
      .ok (s1.setCtx s.cur.ctx { s1.ctx s.cur.ctx with nodes := Tbl.insert (s1.ctx s.cur.ctx).nodes n nd1 }) := by
  have hnd : Tbl.getD (s.ctx s.cur.ctx).nodes n ⟨[], [], false, false⟩ = nd := by rw [Tbl.getD, hnode]; rfl
  have hbelow : ¬ hdrBatch nd.hdr ≤ (nd.pending ++ [((s.getS o a).val, s.readTime.1)]).length := by
    rw [List.length_append]
    exact Nat.not_le.2 hroom
  simp only [remitOwner, State.useS_plain hplain, hrecord, hnd, hlive, Bool.false_eq_true, if_false, if_neg hbelow]

theorem rdoneOwner_committable {s : State} {o n : Nat} {a : BitVec 6} (hplain : (s.getS o a).poison = none)
    (hrecord : Tbl.find? (s.ctx s.cur.ctx).records (s.getS o a).val.toNat = some (.committable n)) :
    rdoneOwner a o s = .ok (s.returnRecord s.cur.ctx (s.getS o a).val) := by
  have hreturn : s.returnable s.cur.ctx (s.getS o a).val = true := by rw [State.returnable, hrecord]
  rw [rdoneOwner, State.useS_plain hplain]
  exact if_pos hreturn

end Sys2Proof.Machine

namespace Sys2Proof

open Sys2Proof.Machine Sys2Proof.Claims

/-- Settles O28: RECA takes some free slot and binds it to the node, REMIT appends the record to a node whose batch it does not
yet fill, and RDONE erases a committable record. -/
theorem records : Obligations.Records := by
  refine ⟨fun s o d a ho hc hplain hnode hfree => ?_, fun s o n a nd ho hplain hrecord hnode hlive hroom => ?_,
    fun s o n a ho hplain hrecord => ?_⟩
  · obtain ⟨r, hr, heq⟩ := recaOwner_free (d := d) hplain hnode hfree
    refine ⟨_, r, (exec_reca_cleared hc).trans (conclude_forOwners_single ho heq), hr, State.getS_putS .., fun k => ?_,
      fun c => ?_, ?_⟩
    · rw [State.putS_ctx, State.ctx_setRecord, if_pos rfl]
      exact Tbl.find_insert ..
    · rw [State.putS_ctx, State.ctx_setRecord]
      split
      case isTrue h => rw [h]; rfl
      case isFalse => rfl
    · rw [State.putS_ctxs]
      exact State.putS_frame ..
  · refine ⟨_, s.readTime.1, conclude_forOwners_single ho (remitOwner_pending hplain hrecord hnode hlive hroom),
      Nat.le_add_right .., ?_, ?_, rfl⟩
    · rw [State.ctx_setCtx, if_pos rfl, State.ctx_setRecord, if_pos rfl]
      exact Tbl.find_insert_self ..
    · rw [State.ctx_setCtx, if_pos rfl]
      exact Tbl.find_insert_self ..
  · refine ⟨_, conclude_forOwners_single ho (rdoneOwner_committable hplain hrecord), fun k => ?_, fun c => ?_, rfl⟩
    · rw [State.ctx_returnRecord, if_pos rfl]
      exact Tbl.find_erase ..
    · rw [State.ctx_returnRecord]
      split
      case isTrue h => rw [h]
      case isFalse => rfl

end Sys2Proof

namespace Sys2Proof.Machine

open Sys2Proof.Claims
open Host (Outcome)

/-! ## LEASE (03 R83) -/

theorem leaseOwner_eq {s : State} {o : Nat} {x : Bundle} {d a : BitVec 6} {imm : BitVec 32} (hplain : (s.getS o a).poison = none)
    (hx : Tbl.find? s.bundles o = some x) (hlive : LiveDelivery s o) :
    ∃ ls, leaseOwner d a imm o s = .ok ((({ s with launches := ls } : State).setBundle o
      (if ((s.getS o a).val + simm imm).toNat = 0 then { x with declared := none, est := 64 }
       else { x with declared := some (min ((s.getS o a).val + simm imm).toNat (s.leaseMax s.cur.ctx)) })).putS o d
        (BitVec.ofNat 64 x.lease)) := by
  rw [leaseOwner, State.useS_plain hplain]
  simp only [hx]
  cases x.declared with
  | some l => exact ⟨s.launches, rfl⟩
  | none =>
    obtain ⟨ls, hdeliver⟩ := deliver_live hlive 0 6 (BitVec.ofNat 64 x.lease)
    exact ⟨ls, by rw [hdeliver]; rfl⟩

/-! ## SPLIT (03 R84) -/

theorem exec_split_cleared {s : State} {d : BitVec 6} {imm : BitVec 32} (hc : s.cur.cleared = true) :
    exec (.split d imm) s = .next (eachOwner s (fun o u =>
      let v := u.deliver o 0 6 (BitVec.ofNat 64 (u.core ((u.coreOf o).getD 0)).drain)
      v.2.putS o d v.1)) := by
  show execSplit d imm s = _
  rw [execSplit, if_pos hc]
  rfl

/-- What the end of a drain leaves once the core is set: registers, memory and every core. -/
structure DrainFrame (s t : State) : Prop where
  owners : t.owners = s.owners
  mem : t.mem = s.mem
  cores : t.cores = s.cores
  lanes : ∀ i, (t.strand i).v = (s.strand i).v

theorem DrainFrame.refl (s : State) : DrainFrame s s := ⟨rfl, rfl, rfl, fun _ => rfl⟩

theorem DrainFrame.trans {s t u : State} (h : DrainFrame s t) (k : DrainFrame t u) : DrainFrame s u :=
  ⟨k.owners.trans h.owners, k.mem.trans h.mem, k.cores.trans h.cores, fun i => (k.lanes i).trans (h.lanes i)⟩

theorem DrainFrame.foldl {α : Type} {f : State → α → State} (h : ∀ s a, DrainFrame s (f s a)) (l : List α) (s : State) :
    DrainFrame s (l.foldl f s) :=
  foldl_keeps (DrainFrame s) f (fun t a ht => ht.trans (h t a)) l s (.refl s)

theorem DrainFrame.setStat (s : State) (i : Nat) (w : StrandStat) :
    DrainFrame s (s.setStrand i { s.strand i with stat := w }) where
  owners := rfl
  mem := rfl
  cores := rfl
  lanes j := by
    rw [State.strand_setStrand]
    split
    · subst_vars; rfl
    · rfl

/-- The granules a drain's end gives a core: those of the plans of the launches it hosts. -/
def State.plannedGranules (s : State) (c k : Nat) : Nat :=
  ((s.crews.filter (fun e => e.2.core == some c && !e.2.ended)).findSome? (fun e =>
    (Tbl.find? s.launches e.2.launch).map (fun (x : Launch) => x.plan.getD k 0))).getD (s.core c).granules

theorem splitDone_frame {s : State} {c k n : Nat} (h : (s.core c).splitting = some (k, n)) :
    DrainFrame (s.setCore c { s.core c with splitting := none, granules := s.plannedGranules c k, phase := k, drain := n, victims := [] })
      (s.splitDone c) := by
  rw [State.splitDone]
  simp only [h]
  refine DrainFrame.trans (DrainFrame.trans ?crews (.foldl (fun t e => .foldl (fun u b => .foldl (fun v i => ?wake) _ u) _ t) _ _))
    ⟨rfl, rfl, rfl, fun _ => rfl⟩
  case crews =>
    refine .foldl (fun t e => ?_) _ _
    exact ⟨rfl, rfl, rfl, fun _ => rfl⟩
  case wake =>
    split
    · exact .setStat ..
    · exact .setStat ..
    · exact .refl v

/-- Where every crew of a core is of one launch, the plan taken is that launch's. -/
theorem plannedGranules_of_one {s : State} {c k l : Nat} {x : Launch} {e : Nat × Crew}
    (hone : ∀ f ∈ s.crews, f.2.core = some c → f.2.ended = false → f.2.launch = l) (he : e ∈ s.crews) (hcore : e.2.core = some c)
    (hended : e.2.ended = false) (hx : Tbl.find? s.launches l = some x) : s.plannedGranules c k = x.plan.getD k 0 := by
  have hmem : e ∈ s.crews.filter (fun e => e.2.core == some c && !e.2.ended) :=
    List.mem_filter.2 ⟨he, by rw [hcore, hended]; simp⟩
  have hall : ∀ f ∈ s.crews.filter (fun e => e.2.core == some c && !e.2.ended), f.2.launch = l := by
    intro f hf
    obtain ⟨hf, hon⟩ := List.mem_filter.1 hf
    simp only [Bool.and_eq_true, beq_iff_eq, Bool.not_eq_true'] at hon
    exact hone f hf hon.1 hon.2
  rw [State.plannedGranules]
  cases hhere : s.crews.filter (fun e => e.2.core == some c && !e.2.ended) with
  | nil => rw [hhere] at hmem; cases hmem
  | cons f rest =>
    have hf : f.2.launch = l := hall f (by rw [hhere]; exact List.mem_cons_self)
    rw [List.findSome?_cons, hf, hx]
    rfl

end Sys2Proof.Machine

namespace Sys2Proof

open Sys2Proof.Machine Sys2Proof.Claims

/-- Settles O26: LEASE and SPLIT deliver to their one owner, and the end of a drain sets the core, then touches crews, stays and
what strands wait for alone. -/
theorem leaseAndSplit : Obligations.LeaseAndSplit := by
  refine ⟨fun s o x d a imm ho hplain hx hlive => ?_, fun s o c d imm ho hc hlive hcore => ?_, fun s c k n h => ?_⟩
  · obtain ⟨ls, heq⟩ := leaseOwner_eq (d := d) (imm := imm) hplain hx hlive
    refine ⟨_, conclude_forOwners_single ho heq, ?_, ?_, fun k hk => ?_, ?_⟩
    · rw [State.getS_putS, Bundle.lease]
      cases x.declared <;> rfl
    · rw [State.putS_bundles]
      exact Tbl.find_insert_self ..
    · rw [State.putS_bundles]
      exact Tbl.find_insert_ne _ _ hk
    · rw [State.putS_bundles, State.putS_launches]
      exact State.putS_frame ..
  · obtain ⟨ls, hdeliver⟩ := deliver_live hlive 0 6 (BitVec.ofNat 64 (s.core c).drain)
    refine ⟨_, exec_split_cleared hc, ?_⟩
    rw [eachOwner_single ho, hcore, Option.getD_some, hdeliver, State.putS_launches]
    exact ⟨State.getS_putS .., State.putS_frame ..⟩
  · have hframe := splitDone_frame h
    have hcores (j : Nat) : (s.splitDone c).core j = if j = c then
        { s.core c with splitting := none, granules := s.plannedGranules c k, phase := k, drain := n, victims := [] } else s.core j :=
      (congrArg (fun cs => Tbl.getD cs j CoreState.idle) hframe.cores).trans (State.core_setCore ..)
    have hcore := (hcores c).trans (if_pos rfl)
    refine ⟨_, rfl, ?_, fun l x e hone he hec hended hx => ?_, fun j hj => (hcores j).trans (if_neg hj), fun pa => ?_,
      fun o r => ?_, fun i r => ?_⟩
    · rw [hcore]
    · rw [hcore]
      exact plannedGranules_of_one hone he hec hended hx
    · rw [State.byte, hframe.mem]
      rfl
    · rw [State.getS, State.owner, hframe.owners]
      rfl
    · rw [State.getV, hframe.lanes]
      rfl

end Sys2Proof

namespace Sys2Proof.Machine

open Sys2Proof.Claims
open Host (Outcome)

/-! ## LAUNCH (03 R85, 25 R376) -/

/-- The first m dwords of a list, written by the hub from an address on. -/
def State.hubWriteDwords (s : State) (at0 : Nat) (h : List Dword) (m : Nat) : State :=
  (List.range m).foldl (fun (t : State) i => t.hubWrite (at0 + 8 * i) 8 (h.getD i 0).toNat) s

theorem hubWriteDwords_succ (s : State) (at0 : Nat) (h : List Dword) (m : Nat) :
    s.hubWriteDwords at0 h (m + 1) = (s.hubWriteDwords at0 h m).hubWrite (at0 + 8 * m) 8 (h.getD m 0).toNat := by
  simp only [State.hubWriteDwords, List.range_succ, List.foldl_append, List.foldl_cons, List.foldl_nil]

theorem hubWriteDwords_rest (s : State) (at0 : Nat) (h : List Dword) (m : Nat) :
    s.hubWriteDwords at0 h m = { s with mem := (s.hubWriteDwords at0 h m).mem } := by
  induction m with
  | zero => rfl
  | succ m ih => rw [hubWriteDwords_succ, hubWrite_rest, ih]

theorem byte_hubWrite (s : State) (pa n v j : Nat) :
    (s.hubWrite pa n v).byte j =
      if paExists pa = true ∧ pa ≤ j ∧ j < pa + n then BitVec.ofNat 8 (v / 256 ^ (j - pa)) else s.byte j := by
  unfold State.hubWrite
  by_cases hpa : paExists pa = true
  · simp only [hpa, if_true, true_and, State.byte_writeLE]
  · rw [if_neg hpa, if_neg (fun e => hpa e.1)]

theorem byte_hubWriteDwords_outside (s : State) (at0 : Nat) (h : List Dword) (m : Nat) {y : Nat}
    (hy : ¬(at0 ≤ y ∧ y < at0 + 8 * m)) : (s.hubWriteDwords at0 h m).byte y = s.byte y := by
  induction m with
  | zero => rfl
  | succ m ih => rw [hubWriteDwords_succ, byte_hubWrite, if_neg (by omega), ih (by omega)]

theorem byte_hubWriteDwords_inside (s : State) (at0 : Nat) (h : List Dword) (m : Nat) {i k : Nat} (hi : i < m) (hk : k < 8)
    (hpa : paExists (at0 + 8 * i) = true) :
    (s.hubWriteDwords at0 h m).byte (at0 + 8 * i + k) = BitVec.ofNat 8 ((h.getD i 0).toNat / 256 ^ k) := by
  induction m with
  | zero => exact absurd hi (Nat.not_lt_zero i)
  | succ m ih =>
    rw [hubWriteDwords_succ, byte_hubWrite]
    by_cases him : i = m
    · subst him
      rw [if_pos ⟨hpa, by omega, by omega⟩, Nat.add_sub_cancel_left]
    · rw [if_neg (by omega), ih (by omega)]

/-- The entry that a header published in a queue leaves, and the context that has published it. -/
def LaunchQueue.published (x : LaunchQueue) (seq : Nat) : LaunchQueue :=
  { x with devTail := (x.devTail + 1) % x.size, entries := x.entries ++ [⟨false, x.devTail, seq⟩] }

def Context.published (c : Context) (q : Nat) (x : LaunchQueue) : Context :=
  { c with queues := Tbl.insert c.queues q (x.published c.nextSeq), nextSeq := c.nextSeq + 1 }

/-- A queue of a context takes one more entry, under the context's next sequence number. -/
def State.publish (s : State) (c q : Nat) (x : LaunchQueue) : State :=
  let s1 := s.setLaunchQueue c q (x.published (s.ctx c).nextSeq)
  s1.setCtx c { s1.ctx c with nextSeq := (s.ctx c).nextSeq + 1 }

theorem ctx_publish (s : State) (c q : Nat) (x : LaunchQueue) (e : Nat) :
    (s.publish c q x).ctx e = if e = c then (s.ctx c).published q x else s.ctx e := by
  rw [State.publish, State.ctx_setCtx]
  by_cases he : e = c
  · rw [if_pos he, if_pos he, State.setLaunchQueue, State.ctx_setCtx, if_pos rfl]
    rfl
  · rw [if_neg he, if_neg he, State.setLaunchQueue, State.ctx_setCtx, if_neg he]

/-- Where the device ring's next entry stands. -/
def LaunchQueue.entryAt (x : LaunchQueue) : Nat := x.qbase.toNat + 80 * x.size + 64 * x.devTail

/-- A queue takes no header: it is disabled, its context has ended, or its device ring is full. -/
def LaunchQueue.closed (x : LaunchQueue) (live : Bool) : Prop :=
  x.size = 0 ∨ live = false ∨ (x.devTail + 1) % x.size = x.devHead

theorem submit_closed {s : State} {c : Nat} {h : List Dword} (hclosed : (s.launchQueue c (hdrPrio h)).closed (s.ctx c).live) :
    s.submit c h = (0, s) := if_pos hclosed

theorem ctx_hubWriteDwords (s : State) (at0 : Nat) (h : List Dword) (m e : Nat) : (s.hubWriteDwords at0 h m).ctx e = s.ctx e := by
  rw [State.ctx, hubWriteDwords_rest, State.ctx]

/-- The state after a header has been taken by its queue. -/
def State.submitted (s : State) (c : Nat) (h : List Dword) : State :=
  (s.hubWriteDwords (s.launchQueue c (hdrPrio h)).entryAt h 8).publish c (hdrPrio h) (s.launchQueue c (hdrPrio h))

theorem submitted_rest (s : State) (c : Nat) (h : List Dword) :
    s.submitted c h = { s with
      mem := (s.hubWriteDwords (s.launchQueue c (hdrPrio h)).entryAt h 8).mem, ctxs := (s.submitted c h).ctxs } := by
  rw [State.submitted, hubWriteDwords_rest]
  rfl

theorem ctx_submitted (s : State) (c : Nat) (h : List Dword) (e : Nat) :
    (s.submitted c h).ctx e = if e = c then (s.ctx c).published (hdrPrio h) (s.launchQueue c (hdrPrio h)) else s.ctx e := by
  rw [State.submitted, ctx_publish, ctx_hubWriteDwords, ctx_hubWriteDwords]

theorem submit_open {s : State} {c : Nat} {h : List Dword} (hopen : ¬(s.launchQueue c (hdrPrio h)).closed (s.ctx c).live) :
    s.submit c h = ((s.ctx c).nextSeq, s.submitted c h) := by
  rw [← ctx_hubWriteDwords s (s.launchQueue c (hdrPrio h)).entryAt h 8 c]
  exact if_neg hopen

theorem liveDelivery_submitted {s : State} {o : Nat} (hlive : LiveDelivery s o) (c : Nat) (h : List Dword) :
    LiveDelivery (s.submitted c h) o := by
  refine liveDelivery_congr hlive ?_ ?_ (fun e => ?_)
  · rw [submitted_rest]; rfl
  · rw [submitted_rest]
  · rw [ctx_submitted]
    split
    · subst_vars; rfl
    · rfl

/-- LAUNCH of a readable header publishes it and delivers what the hub answers. -/
theorem launchOwner_eq {s : State} {o pa : Nat} {p : PageInfo} {d a : BitVec 6} (hplain : (s.getS o a).poison = none)
    (halign : (s.getS o a).val.toNat % 64 = 0) (hreach : Reach s (s.getS o a).val 64 64 false true pa p) :
    launchOwner d a o s =
      let r := s.submit s.cur.ctx (s.headerAt pa)
      let w := r.2.deliver o 0 4 (BitVec.ofNat 64 r.1)
      .ok (w.2.putS o d w.1) := by
  rw [launchOwner, State.useS_plain hplain]
  simp only [hreach.globalAccess_eq (by decide : 0 < 64), halign, ne_eq, not_true_eq_false, if_false]

theorem launchOwner_closed {s : State} {o pa : Nat} {p : PageInfo} {d a : BitVec 6} (hplain : (s.getS o a).poison = none)
    (halign : (s.getS o a).val.toNat % 64 = 0) (hreach : Reach s (s.getS o a).val 64 64 false true pa p) (hlive : LiveDelivery s o)
    (hclosed : (s.launchQueue s.cur.ctx (hdrPrio (s.headerAt pa))).closed (s.ctx s.cur.ctx).live) :
    ∃ ls, launchOwner d a o s = .ok (({ s with launches := ls } : State).putS o d 0) := by
  obtain ⟨ls, hdeliver⟩ := deliver_live hlive 0 4 0
  refine ⟨ls, (launchOwner_eq hplain halign hreach).trans ?_⟩
  rw [submit_closed hclosed]
  exact congrArg (fun w : Dword × State => Except.ok (w.2.putS o d w.1)) hdeliver

theorem launchOwner_open {s : State} {o pa : Nat} {p : PageInfo} {d a : BitVec 6} (hplain : (s.getS o a).poison = none)
    (halign : (s.getS o a).val.toNat % 64 = 0) (hreach : Reach s (s.getS o a).val 64 64 false true pa p) (hlive : LiveDelivery s o)
    (hopen : ¬(s.launchQueue s.cur.ctx (hdrPrio (s.headerAt pa))).closed (s.ctx s.cur.ctx).live) :
    ∃ ls, launchOwner d a o s = .ok (({ s.submitted s.cur.ctx (s.headerAt pa) with launches := ls } : State).putS o d
      (BitVec.ofNat 64 (s.ctx s.cur.ctx).nextSeq)) := by
  obtain ⟨ls, hdeliver⟩ := deliver_live (liveDelivery_submitted hlive s.cur.ctx (s.headerAt pa)) 0 4
    (BitVec.ofNat 64 (s.ctx s.cur.ctx).nextSeq)
  refine ⟨ls, (launchOwner_eq hplain halign hreach).trans ?_⟩
  rw [submit_open hopen]
  exact congrArg (fun w : Dword × State => Except.ok (w.2.putS o d w.1)) hdeliver

end Sys2Proof.Machine

namespace Sys2Proof

open Sys2Proof.Machine Sys2Proof.Claims

/-- Settles O27: LAUNCH of a readable header is what the hub makes of it, which in a closed queue is 0 and in an open one the
entry, the header's eight dwords and the next sequence number. -/
theorem launchPublishes : Obligations.LaunchPublishes := by
  intro s o pa p d a ho hplain hlive halign hreach
  refine ⟨fun hclosed => ?_, fun hsize hctx hroom => ?_⟩
  · obtain ⟨ls, heq⟩ := launchOwner_closed (d := d) hplain halign hreach hlive hclosed
    refine ⟨_, conclude_forOwners_single ho heq, ?_, ?_⟩
    · rw [State.getS_putS]
      exact ite_self _
    · rw [State.putS_launches]
      exact State.putS_frame ..
  · have hopen : ¬(s.launchQueue s.cur.ctx (hdrPrio (s.headerAt pa))).closed (s.ctx s.cur.ctx).live := by
      rintro (h | h | h)
      · exact hsize h
      · rw [hctx] at h; cases h
      · exact hroom h
    obtain ⟨ls, heq⟩ := launchOwner_open (d := d) hplain halign hreach hlive hopen
    have hrest := submitted_rest s s.cur.ctx (s.headerAt pa)
    have hctxs := ctx_submitted s s.cur.ctx (s.headerAt pa)
    generalize s.submitted s.cur.ctx (s.headerAt pa) = u at heq hrest hctxs
    have hown := (hctxs s.cur.ctx).trans (if_pos rfl)
    have hkeep (e : Nat) : (({ u with launches := ls } : State).putS o d (BitVec.ofNat 64 (s.ctx s.cur.ctx).nextSeq)).ctx e = u.ctx e :=
      State.putS_ctx ..
    refine ⟨_, conclude_forOwners_single ho heq, State.getS_putS .., ?_, ?_, ?_, fun r hr => ?_, fun e he => ?_,
      ⟨fun i hi hpa k hk => ?_, fun y hy => ?_⟩, ?_⟩
    · rw [hkeep, hown]; rfl
    · rw [State.launchQueue, hkeep, hown]
      exact (Tbl.getD_insert ..).trans (if_pos rfl)
    · rw [hkeep, hown]; rfl
    · rw [State.launchQueue, hkeep, hown]
      exact (Tbl.getD_insert ..).trans (if_neg hr)
    · rw [hkeep, hctxs, if_neg he]
    · rw [State.byte, State.putS_mem, hrest]
      exact byte_hubWriteDwords_inside s _ _ 8 hi hk hpa
    · rw [State.byte, State.putS_mem, hrest]
      exact byte_hubWriteDwords_outside s _ _ 8 hy
    · rw [State.putS_ctxs, State.putS_mem, State.putS_launches]
      have hbase : ({ u with launches := ls } : State) = { s with ctxs := u.ctxs, mem := u.mem, launches := ls } := by
        rw [hrest]
      exact hbase ▸ State.putS_frame ..

end Sys2Proof

namespace Sys2Proof.Machine

open Sys2Proof.Claims
open Host (Outcome)

/-! ## Flumes (03 R88, 12 R229) -/

/-! ### The step of a flume -/

theorem Flume.pop_depth (y : Flume) : y.pop.depth = y.depth := by
  unfold Flume.pop
  split
  · rfl
  · rfl

theorem Flume.pushOne_depth (y : Flume) : y.pushOne.depth = y.depth := by
  unfold Flume.pushOne
  split
  · rfl
  · dsimp only
    split
    · rfl
    · split
      · rfl
      · rfl

section
variable {y : Flume} {p : FlumeOp}

theorem Flume.step_idle (h : y.presented = []) : y.pop.pushOne = y := by
  have hpop : y.pop = y := by simp only [Flume.pop, h, List.find?_nil]
  rw [hpop]
  simp only [Flume.pushOne, h, List.find?_nil]

/-- Without a pop presented a step is its push. -/
theorem Flume.pop_of_push (h : y.presented = [p]) (hp : p.push = true) : y.pop = y := by
  simp only [Flume.pop, h, List.find?_singleton, hp, Bool.not_true, Bool.false_eq_true, if_false]

theorem Flume.step_pop_empty (h : y.presented = [p]) (hp : p.push = false) (he : y.entries = []) : y.pop.pushOne = y := by
  have hpop : y.pop = y := by simp only [Flume.pop, h, List.find?_singleton, hp, Bool.not_false, if_true, he]
  rw [hpop]
  simp only [Flume.pushOne, h, List.find?_singleton, hp, Bool.false_eq_true, if_false]

theorem Flume.step_pop {e : Tbl Word} {rest : List (Tbl Word)} (h : y.presented = [p]) (hp : p.push = false) (he : y.entries = e :: rest) :
    y.pop.pushOne = { y with entries := rest, presented := [], results := Tbl.insert y.results p.bundle (true, e) } := by
  have hpop : y.pop = { y with entries := rest, presented := [], results := Tbl.insert y.results p.bundle (true, e) } := by
    simp only [Flume.pop, h, List.find?_singleton, hp, Bool.not_false, if_true, he, List.filter_cons, List.filter_nil, bne_self_eq_false,
      Bool.or_self, Bool.false_eq_true, if_false]
  rw [hpop]
  rfl

theorem Flume.step_push (h : y.presented = [p]) (hp : p.push = true) : y.pop.pushOne =
    if y.entries.length < y.depth then
      { y with entries := y.entries ++ [p.entry], presented := [], results := Tbl.insert y.results p.bundle (true, []) }
    else if p.nonBlocking then { y with presented := [], results := Tbl.insert y.results p.bundle (false, []) }
    else y := by
  rw [Flume.pop_of_push h hp]
  simp only [Flume.pushOne, h, List.find?_singleton, hp, if_true, List.filter_cons, List.filter_nil, bne_self_eq_false, Bool.not_true,
    Bool.or_self, Bool.false_eq_true, if_false]

end

theorem exec_flumeStep {s : State} {c f : Nat} {x : Crew} {y : Flume} (hx : Tbl.find? s.crews c = some x) (hcore : x.core ≠ none)
    (hy : Tbl.find? x.flumes f = some y) :
    exec (.flumeStep c f) s = .next (s.setCrew c { x with flumes := Tbl.insert x.flumes f y.pop.pushOne }) := by
  obtain ⟨k, hk⟩ := Option.ne_none_iff_exists'.1 hcore
  show execFlumeStep c f s = _
  simp only [execFlumeStep, hx, hk, hy, State.setFlume]

/-! ### The instructions -/

/-- A bundle's crew is a listed one. -/
theorem find_of_crewOf {s : State} {b c : Nat} {x : Crew} (h : s.crewOf b = some (c, x)) : Tbl.find? s.crews c = some x := by
  unfold State.crewOf at h
  split at h
  case h_1 => cases h
  case h_2 w hw =>
    obtain ⟨y, hy, he⟩ := Option.map_eq_some_iff.1 h
    cases he
    exact hy

/-- A change of a crew that keeps its launch keeps the launch of every owner. -/
theorem launchOf_setCrew {s : State} {c : Nat} {x z : Crew} (hx : Tbl.find? s.crews c = some x) (hz : z.launch = x.launch) (o : Nat) :
    (s.setCrew c z).launchOf o = s.launchOf o := by
  unfold State.launchOf
  split
  · rfl
  · unfold State.crewOf State.setCrew
    dsimp only
    split
    · rfl
    · rename_i w hw
      rw [Tbl.find_insert]
      split
      case isTrue he => rw [he, hx]; exact congrArg some hz
      case isFalse => rfl

/-- The crew of an owner whose result has been taken from a flume. -/
def Crew.taken (x : Crew) (o f : Nat) (y : Flume) : Crew :=
  { x with flumes := Tbl.insert x.flumes f { y with results := Tbl.erase y.results o } }

theorem flumeOwner_result {s : State} {o c f : Nat} {x : Crew} {y : Flume} {r : Bool × Tbl Word}
    (act : Nat → Bool × Tbl Word → State → State) (hcrew : s.crewOf o = some (c, x)) (hy : Tbl.find? x.flumes f = some y)
    (hr : Tbl.find? y.results o = some r) : flumeOwner f act o s = .ok (act o r (s.setCrew c (x.taken o f y))) := by
  simp only [flumeOwner, hcrew, hy, hr, State.setFlume, find_of_crewOf hcrew, Crew.taken]

theorem flumeOwner_unbound {s : State} {o c f : Nat} {x : Crew} (act : Nat → Bool × Tbl Word → State → State)
    (hcrew : s.crewOf o = some (c, x)) (hy : Tbl.find? x.flumes f = none) :
    flumeOwner f act o s = trapWith causeFlumeUnbound 0 := by
  simp only [flumeOwner, hcrew, hy]

theorem flumeFor_unbound {s : State} {o c f : Nat} {x : Crew} (push : Bool) (hcrew : s.crewOf o = some (c, x))
    (hy : Tbl.find? x.flumes f = none) : s.flumeFor o f push = trapWith causeFlumeUnbound 0 := by
  unfold State.flumeFor
  rw [hcrew]
  cases Tbl.find? s.bundles o with
  | none => rfl
  | some w => simp only [hy]

theorem flumeFor_wrongEnd {s : State} {o c f : Nat} {x : Crew} {w : Bundle} {y : Flume} {push : Bool}
    (hcrew : s.crewOf o = some (c, x)) (hw : Tbl.find? s.bundles o = some w) (hy : Tbl.find? x.flumes f = some y)
    (hend : (if push then y.prod else y.cons) ≠ w.f1) : s.flumeFor o f push = trapWith causeFlumeUnbound 0 := by
  simp only [State.flumeFor, hcrew, hw, hy, if_neg hend]

theorem flumePoint_unbound {s : State} {o f : Nat} {push nb : Bool} {a : BitVec 6} (ho : s.cur.owners = [o])
    (h : s.flumeFor o f push = trapWith causeFlumeUnbound 0) : s.flumePoint f push nb a = trapWith causeFlumeUnbound 0 := by
  have hpresent : s.present f push nb a o = trapWith causeFlumeUnbound 0 := by
    rw [State.present, h]
    rfl
  have hfold : s.cur.owners.foldlM (fun t o => State.present t f push nb a o) s = trapWith causeFlumeUnbound 0 := by
    rw [ho, List.foldlM_cons, hpresent]
    rfl
  rw [State.flumePoint, hfold]
  rfl

section
variable {s : State} {f : BitVec 4} {a d : BitVec 6} {b : BitVec 3}

theorem exec_fsend_cleared (hc : s.cur.cleared = true) :
    exec (.fsend f a) s = conclude s (forOwners s (flumeOwner f.toNat (fun _ _ u => u))) := by
  show execFsend f a s = _
  rw [execFsend, if_pos hc]

theorem exec_fsendNb_cleared (hc : s.cur.cleared = true) :
    exec (.fsendNb f a b) s = conclude s (forOwners s (flumeOwner f.toNat (setEvery b))) := by
  show execFsendNb f a b s = _
  rw [execFsendNb, if_pos hc]

theorem exec_ftake_cleared (hc : s.cur.cleared = true) :
    exec (.ftake d f) s = conclude s (forOwners s (flumeOwner f.toNat (takeEntry d))) := by
  show execFtake d f s = _
  rw [execFtake, if_pos hc]

theorem exec_fsend_unbound (hc : ¬s.cur.cleared = true) (h : s.flumePoint f.toNat true false a = trapWith causeFlumeUnbound 0) :
    exec (.fsend f a) s = .next (s.takeTrap 0x16 0 none) := by
  show execFsend f a s = _
  rw [execFsend, if_neg hc, h]
  rfl

theorem exec_fsendNb_unbound (hc : ¬s.cur.cleared = true) (h : s.flumePoint f.toNat true true a = trapWith causeFlumeUnbound 0) :
    exec (.fsendNb f a b) s = .next (s.takeTrap 0x16 0 none) := by
  show execFsendNb f a b s = _
  rw [execFsendNb, if_neg hc, h]
  rfl

theorem exec_ftake_unbound (hc : ¬s.cur.cleared = true) (h : s.flumePoint f.toNat false false 0 = trapWith causeFlumeUnbound 0) :
    exec (.ftake d f) s = .next (s.takeTrap 0x16 0 none) := by
  show execFtake d f s = _
  rw [execFtake, if_neg hc, h]
  rfl

end

theorem conclude_flumeOwner_unbound {s : State} {o c f : Nat} {x : Crew} (act : Nat → Bool × Tbl Word → State → State)
    (ho : s.cur.owners = [o]) (hcrew : s.crewOf o = some (c, x)) (hy : Tbl.find? x.flumes f = none) :
    conclude s (forOwners s (flumeOwner f act)) = .next (s.takeTrap 0x16 0 none) := by
  rw [forOwners_single ho, flumeOwner_unbound act hcrew hy]
  rfl

/-- FSEND.NB delivers its success to every live strand's predicate. -/
theorem setEvery_spec {s : State} {o : Nat} (b : BitVec 3) (ok : Bool) (e : Tbl Word) (hlive : LiveDelivery s o) :
    (∀ i ∈ s.liveStrands o, (setEvery b o (ok, e) s).getP i b.toNat = (b == 0 || ok)) ∧
      PredFrame { s with launches := (setEvery b o (ok, e) s).launches } (setEvery b o (ok, e) s) (s.liveStrands o) b.toNat := by
  obtain ⟨ls, hdeliver⟩ := deliver_live hlive 0 3 (if ok then 1 else 0)
  have heq : setEvery b o (ok, e) s =
      (s.liveStrands o).foldl (fun (t : State) i => t.setP i b.toNat ok) { s with launches := ls } := by
    rw [setEvery]
    dsimp only
    rw [hdeliver]
    cases ok <;> rfl
  obtain ⟨hval, hframe⟩ := foldl_setP b.toNat b.isLt (fun _ _ => ok) (fun _ _ _ _ _ => rfl) (s.liveStrands o) (liveStrands_nodup s o)
    { s with launches := ls }
  rw [heq]
  refine ⟨fun i hi => (hval i hi).trans (congrArg (· || ok) (toNat_beq_zero b)), ?_⟩
  have hls : ((s.liveStrands o).foldl (fun (t : State) i => t.setP i b.toNat ok) { s with launches := ls }).launches = ls := by
    rw [hframe.rest]
  rw [hls]
  exact hframe

theorem takeEntry_spec (s : State) (d : BitVec 6) (o : Nat) (ok : Bool) (e : Tbl Word) :
    (∀ i ∈ s.liveStrands o, (takeEntry d o (ok, e) s).getV i d.toNat = ⟨Tbl.getD e (i % 64) 0, none⟩) ∧
      LaneFrame s (takeEntry d o (ok, e) s) (s.liveStrands o) (fun n => n = d.toNat) :=
  foldl_setV d.toNat (fun i _ => ⟨Tbl.getD e (strandIndex i) 0, none⟩) (fun _ _ _ _ _ => rfl) _ (liveStrands_nodup s o) s

end Sys2Proof.Machine

namespace Sys2Proof

open Sys2Proof.Machine Sys2Proof.Claims

/-- Settles O42: a step is its pop and then its push, a completed operation's result is taken by its bundle, and a flume that is not
bound, or whose end the bundle is not, traps at the owner or at the park point. -/
theorem flumes : Obligations.Flumes := by
  refine ⟨fun s c f x y hx hcore hy => ?_, fun s o c x y ok e f d a b ho hc _ hcrew hy hr => ⟨?_, fun hlive => ?_, ?_⟩,
    fun s o c x f d a b ho hcrew hy i hi => ?_, fun s o c x w y f d a b ho hc hcrew hw hy => ⟨fun hend i hi => ?_, fun hend => ?_⟩⟩
  · refine ⟨_, y.pop.pushOne, exec_flumeStep hx hcore hy, Tbl.find_insert_self .., rfl, ?_, Flume.step_idle, fun p hp hpush => ?_,
      fun p hp hpush => ?_⟩
    · rw [Flume.pushOne_depth, Flume.pop_depth]
    · refine ⟨Flume.step_pop_empty hp hpush, fun e rest he => ?_⟩
      rw [Flume.step_pop hp hpush he]
      exact ⟨rfl, rfl, Tbl.find_insert_self ..⟩
    · rw [Flume.step_push hp hpush]
      refine ⟨fun hroom => ?_, fun hfull hblock => ?_, fun hfull hblock => ?_⟩
      · rw [if_pos hroom]
        exact ⟨rfl, rfl, Tbl.find_insert_self ..⟩
      · rw [if_neg (Nat.not_lt.2 hfull), if_neg (by rw [hblock]; decide)]
      · rw [if_neg (Nat.not_lt.2 hfull), if_pos hblock]
        exact ⟨rfl, rfl, Tbl.find_insert_self ..⟩
  · exact (exec_fsend_cleared hc).trans (conclude_forOwners_single ho (flumeOwner_result _ hcrew hy hr))
  · have hlive' : LiveDelivery (s.setCrew c (x.taken o f.toNat y)) o :=
      liveDelivery_congr hlive (launchOf_setCrew (z := x.taken o f.toNat y) (find_of_crewOf hcrew) rfl o) rfl (fun _ => rfl)
    exact ⟨_, (exec_fsendNb_cleared hc).trans (conclude_forOwners_single ho (flumeOwner_result _ hcrew hy hr)),
      setEvery_spec b ok e hlive'⟩
  · exact ⟨_, (exec_ftake_cleared hc).trans (conclude_forOwners_single ho (flumeOwner_result _ hcrew hy hr)),
      takeEntry_spec (s.setCrew c (x.taken o f.toNat y)) d o ok e⟩
  · have hpoint (push nb : Bool) (a : BitVec 6) := flumePoint_unbound (nb := nb) (a := a) ho (flumeFor_unbound push hcrew hy)
    by_cases hc : s.cur.cleared = true
    · simp only [List.mem_cons, List.not_mem_nil, or_false] at hi
      rcases hi with rfl | rfl | rfl
      · exact (exec_fsend_cleared hc).trans (conclude_flumeOwner_unbound _ ho hcrew hy)
      · exact (exec_fsendNb_cleared hc).trans (conclude_flumeOwner_unbound _ ho hcrew hy)
      · exact (exec_ftake_cleared hc).trans (conclude_flumeOwner_unbound _ ho hcrew hy)
    · simp only [List.mem_cons, List.not_mem_nil, or_false] at hi
      rcases hi with rfl | rfl | rfl
      · exact exec_fsend_unbound hc (hpoint true false a)
      · exact exec_fsendNb_unbound hc (hpoint true true a)
      · exact exec_ftake_unbound hc (hpoint false false 0)
  · have hpoint (nb : Bool) (a : BitVec 6) := flumePoint_unbound (nb := nb) (a := a) ho
      (flumeFor_wrongEnd (push := true) hcrew hw hy hend)
    have hc' : ¬s.cur.cleared = true := by rw [hc]; decide
    simp only [List.mem_cons, List.not_mem_nil, or_false] at hi
    rcases hi with rfl | rfl
    · exact exec_fsend_unbound hc' (hpoint false a)
    · exact exec_fsendNb_unbound hc' (hpoint true a)
  · exact exec_ftake_unbound (by rw [hc]; decide) (flumePoint_unbound ho (flumeFor_wrongEnd (push := false) hcrew hw hy hend))

end Sys2Proof

namespace Sys2Proof.Machine

open Sys2Proof.Claims
open Host (Outcome)

/-! ## What finding a page may change (15 R260, R263) -/

/-- Between s and t pages may have been backed: memory and what is kept with it, the pools of frames, the ring that hears of a low
pool, and the count of free values. -/
def PageFrame (s t : State) : Prop :=
  t = { s with mem := t.mem, tags := t.tags, marked := t.marked, stale := t.stale, freeCtr := t.freeCtr, smallPool := t.smallPool,
               largePool := t.largePool, globalRing := t.globalRing }

theorem PageFrame.refl (s : State) : PageFrame s s := rfl

theorem PageFrame.trans {s t u : State} (h : PageFrame s t) (k : PageFrame t u) : PageFrame s u := by
  rw [PageFrame, k, h]

theorem hubWrite_pageFrame (s : State) (pa n v : Nat) : PageFrame s (s.hubWrite pa n v) := by
  rw [PageFrame, hubWrite_rest]

theorem writeLE_pageFrame (s : State) (pa n v : Nat) : PageFrame s (s.writeLE pa n v) := by
  rw [PageFrame, State.writeLE_rest]

theorem ringPost_pageFrame (s : State) (r : EventRing) (kind : Nat) (ops : List Dword) : PageFrame s (s.ringPost r kind ops).2 := by
  have hwrite (ds : List Dword) : PageFrame s (s.ringWrite r ds) :=
    foldl_keeps (PageFrame s) _ (fun t i ht => ht.trans (hubWrite_pageFrame ..)) _ s (.refl s)
  unfold State.ringPost
  dsimp only
  split
  · split
    · exact .refl s
    · exact .refl s
  · exact hwrite _

theorem postGlobal_pageFrame (s : State) (kind : Nat) (ops : List Dword) : PageFrame s (s.postGlobal kind ops) :=
  (ringPost_pageFrame s s.globalRing kind ops).trans rfl

theorem takeFrame_pageFrame {s u : State} {large : Bool} {f : Nat} (h : s.takeFrame large = some (f, u)) : PageFrame s u := by
  have hpost (s1 : State) (low : Bool) (ops : List Dword) : PageFrame s1 (if low then s1.postGlobal 3 ops else s1) := by
    cases low
    · exact .refl s1
    · exact postGlobal_pageFrame ..
  cases hframes : (if large then s.largePool else s.smallPool).frames with
  | nil =>
    simp only [State.takeFrame, hframes] at h
    cases h
  | cons f' rest =>
    simp only [State.takeFrame, hframes] at h
    cases h
    refine PageFrame.trans ?_ (hpost _ _ _)
    cases large <;> rfl

theorem noteFrame_pageFrame (s : State) (ws : List Nat) : PageFrame s (s.noteFrame ws) := by
  rw [PageFrame, State.noteFrame_eq]

theorem zeroMem_pageFrame (s : State) (pa n : Nat) : PageFrame s (s.zeroMem pa n) := by
  have hnote := PageFrame.trans (s := s) (t := s.hideOlds pa n) rfl
    (noteFrame_pageFrame _ (wordsOf (s.mem.filter (fun e => decide (pa ≤ e.1) && decide (e.1 < pa + n)))))
  exact hnote.trans rfl

theorem backPage_pageFrame {s u : State} {entry : Nat} {e0 e1 : Dword} {large : Bool} (h : s.backPage entry e0 e1 large = some u) :
    PageFrame s u := by
  unfold State.backPage at h
  split at h
  case h_1 => cases h
  case h_2 f s1 htake =>
    have h2 := (takeFrame_pageFrame htake).trans (zeroMem_pageFrame s1 (f * 65536) (if large then 2 ^ 25 else 65536))
    dsimp only at h
    split at h
    case isTrue =>
      split at h
      case h_1 => cases h
      case h_2 g s3 htake2 =>
        cases h
        exact ((h2.trans (takeFrame_pageFrame htake2)).trans (zeroMem_pageFrame ..)).trans
          ((writeLE_pageFrame ..).trans (writeLE_pageFrame ..))
    case isFalse =>
      cases h
      exact h2.trans (writeLE_pageFrame ..)

theorem translate_pageFrame (s : State) (ctx va : Nat) : PageFrame s (s.translate ctx va).2 := by
  unfold State.translate
  split
  · exact .refl s
  · rfl

theorem pageFor_pageFrame {s u : State} {ctx : Nat} {addr : Dword} {write : Bool} {p : PageInfo}
    (h : s.pageFor ctx addr write = .ok (p, u)) : PageFrame s u := by
  have ht := translate_pageFrame s ctx addr.toNat
  have hallow {q : PageInfo} {t : State} (hst : PageFrame s t)
      (e : (if (if write then q.canWrite else q.canRead) then .ok (q, t) else fatalWith causePermission addr) = Except.ok (p, u)) :
      PageFrame s u := by
    generalize (if write then q.canWrite else q.canRead) = c at e
    cases c
    · cases e
    · cases e
      exact hst
  unfold State.pageFor at h
  dsimp only at h
  split at h
  case h_1 => exact hallow ht h
  case h_2 =>
    split at h
    case h_1 => cases h
    case h_2 hback =>
      split at h
      · exact hallow (ht.trans (backPage_pageFrame hback)) h
      · cases h
  case h_3 => cases h
  case h_4 => cases h

theorem globalAccess_pageFrame {s u : State} {ctx n align pa : Nat} {addr : Dword} {write tag : Bool} {p : PageInfo}
    (h : s.globalAccess ctx addr n align write tag = .ok (pa, p, u)) : PageFrame s u := by
  unfold State.globalAccess at h
  split at h
  case isTrue => cases h
  case isFalse =>
    split at h
    case isTrue => cases h
    case isFalse =>
      split at h
      case h_1 => cases h
      case h_2 hpage =>
        dsimp only at h
        split at h
        case isTrue => cases h
        case isFalse =>
          split at h
          case isTrue =>
            cases h
            exact pageFor_pageFrame hpage
          case isFalse => cases h

/-! ## Reading a mill's image (12 R217) -/

theorem readUnits_pageFrame {n : Nat} {s u : State} {a : Dword} {ds : List Dword} (h : s.readUnits a n = .ok (ds, u)) :
    PageFrame s u := by
  induction n generalizing s a ds with
  | zero =>
    cases h
    exact .refl _
  | succ n ih =>
    rw [State.readUnits] at h
    split at h
    case h_1 => cases h
    case h_2 pa p t haccess =>
      cases hrest : t.readUnits (a + 64) n with
      | error e => rw [hrest] at h; cases h
      | ok r =>
        rw [hrest] at h
        cases h
        exact (globalAccess_pageFrame haccess).trans (ih hrest)

theorem readImage_pageFrame {s u : State} {o : Nat} {a : Dword} {again : Bool} {x : MillImage}
    (h : s.readImage o a again = .ok (x, u)) : PageFrame s u := by
  unfold State.readImage at h
  split at h
  case h_1 => cases h
  case h_2 m t hheader =>
    split at h
    case h_1 => cases h
    case h_2 ds v hall =>
      dsimp only at h
      split at h
      case isTrue =>
        cases h
        exact (readUnits_pageFrame hheader).trans (readUnits_pageFrame hall)
      case isFalse => cases h

end Sys2Proof.Machine

namespace Sys2Proof.Machine

open Sys2Proof.Claims
open Host (Outcome)

/-! ## Mills (03 R87, 12 R217-R228) -/

@[simp] theorem State.putS_crews (s : State) (o : Nat) (d : BitVec 6) (x : Dword) : (s.putS o d x).crews = s.crews := by
  rw [(s.putS_frame o d x).rest]
@[simp] theorem State.putS_strands (s : State) (o : Nat) (d : BitVec 6) (x : Dword) : (s.putS o d x).strands = s.strands := by
  rw [(s.putS_frame o d x).rest]
@[simp] theorem State.putS_core (s : State) (o : Nat) (d : BitVec 6) (x : Dword) (k : Nat) : (s.putS o d x).core k = s.core k := by
  rw [State.core, State.putS_cores, State.core]

/-! ### A crew's saved mill and its flumes -/

theorem crewOf_setCrew {s : State} {b c : Nat} {x : Crew} (h : s.crewOf b = some (c, x)) (z : Crew) :
    (s.setCrew c z).crewOf b = some (c, z) := by
  unfold State.crewOf at h ⊢
  show (match Tbl.find? s.bundles b with
    | none => none
    | some w => (Tbl.find? (Tbl.insert s.crews c z) w.crew).map (fun y => (w.crew, y))) = _
  cases hw : Tbl.find? s.bundles b with
  | none => rw [hw] at h; cases h
  | some w =>
    rw [hw] at h
    obtain ⟨y, -, he⟩ := Option.map_eq_some_iff.1 h
    cases he
    exact congrArg (Option.map _) (Tbl.find_insert_self ..)

/-- What giving up a saved mill leaves of the crew. -/
structure MillDropped (s t : State) (o c : Nat) (y z : Crew) : Prop where
  rest : t = { s with crews := t.crews }
  crew : t.crewOf o = some (c, z)
  flumes : z.flumes = y.flumes
  mill : z.mill.any (fun m => m.holder == o) = false
  launch : ∀ p, t.launchOf p = s.launchOf p

theorem dropSavedMill_spec {s : State} {o c : Nat} {y : Crew} (h : s.crewOf o = some (c, y)) :
    ∃ z, MillDropped s (s.dropSavedMill o) o c y z := by
  by_cases hmill : y.mill.any (fun m => m.holder == o) = true
  · have heq : s.dropSavedMill o = s.setCrew c { y with mill := none } := by simp only [State.dropSavedMill, h, hmill, if_true]
    rw [heq]
    exact ⟨{ y with mill := none }, rfl, crewOf_setCrew h _, rfl, rfl,
      launchOf_setCrew (z := { y with mill := none }) (find_of_crewOf h) rfl⟩
  · have heq : s.dropSavedMill o = s := by simp only [State.dropSavedMill, h, if_neg hmill]
    rw [heq]
    exact ⟨y, rfl, h, rfl, by simpa using hmill, fun _ => rfl⟩

theorem savedMill_dropped {s t : State} {o c : Nat} {y z : Crew} (h : MillDropped s t o c y z) : t.savedMill o = none := by
  have hmill := h.mill
  simp only [State.savedMill, h.crew]
  cases hz : z.mill with
  | none => rfl
  | some m =>
    rw [hz] at hmill
    exact if_neg (by simpa using hmill)

/-- A table of flumes with those of an image's entries bound, each empty. -/
def boundFlumes (es : List Dword) (t : Tbl Flume) : Tbl Flume :=
  es.foldl (fun (t : Tbl Flume) e => Tbl.insert t (flumeNum e) ⟨flumeDepth e, flumeProd e, flumeCons e, [], [], []⟩) t

theorem find_boundFlumes {es : List Dword} {n : Nat} {t : Tbl Flume}
    (h : (∃ e ∈ es, flumeNum e = n) ∨ ∃ f, Tbl.find? t n = some f ∧ f.entries = []) :
    ∃ f, Tbl.find? (boundFlumes es t) n = some f ∧ f.entries = [] := by
  induction es generalizing t with
  | nil =>
    rcases h with ⟨e, he, -⟩ | h
    · cases he
    · exact h
  | cons e es ih =>
    refine ih (t := Tbl.insert t (flumeNum e) ⟨flumeDepth e, flumeProd e, flumeCons e, [], [], []⟩) ?_
    by_cases hn : n = flumeNum e
    · subst hn
      exact .inr ⟨_, Tbl.find_insert_self .., rfl⟩
    · rcases h with ⟨e', he', hn'⟩ | ⟨f, hf, hempty⟩
      · rcases List.mem_cons.1 he' with rfl | he'
        · exact absurd hn'.symm hn
        · exact .inl ⟨e', he', hn'⟩
      · exact .inr ⟨f, (Tbl.find_insert_ne _ _ hn).trans hf, hempty⟩

theorem bindFlumes_of_crew {s : State} {o c : Nat} {y : Crew} (h : s.crewOf o = some (c, y)) (es : List Dword) :
    s.bindFlumes o es = s.setCrew c { y with flumes := boundFlumes es y.flumes } := by
  simp only [State.bindFlumes, h, boundFlumes]

/-! ### MILL.CFG (12 R217) -/

/-- The state that an accepted or refused image leaves before its answer is delivered. -/
def State.configured (s : State) (o : Nat) (a : Dword) (x : MillImage) : State :=
  if x.stages.length != 0 && s.millHeld o then s
  else if x.stages.length = 0 then s.bindFlumes o x.flumes
  else ((s.dropSavedMill o).bindFlumes o x.flumes).setMill ((s.coreOf o).getD 0) (some (Mill.fresh o a x))

theorem millCfgOwner_eq {s u : State} {o : Nat} {d a : BitVec 6} {x : MillImage} (hplain : (s.getS o a).poison = none)
    (himage : s.readImage o (s.getS o a).val false = .ok (x, u)) :
    millCfgOwner d a o s =
      let r := (u.configured o (s.getS o a).val x).deliver o 0 5 (if x.stages.length != 0 && u.millHeld o then 1 else 0)
      .ok (r.2.putS o d r.1) := by
  rw [millCfgOwner, State.useS_plain hplain]
  simp only [himage]
  rfl

/-- Configuring changes crews and cores alone, and no owner's launch. -/
structure ConfigFrame (s t : State) : Prop where
  rest : t = { s with crews := t.crews, cores := t.cores }
  launch : ∀ p, t.launchOf p = s.launchOf p

section
variable {s : State} {o c : Nat} {y : Crew} {a : Dword} {x : MillImage}

theorem configured_refused (hstages : x.stages ≠ []) (hheld : s.millHeld o = true) : s.configured o a x = s := by
  rw [State.configured, hheld]
  exact if_pos (by simpa using hstages)

theorem configured_empty (hstages : x.stages = []) : s.configured o a x = s.bindFlumes o x.flumes := by
  simp [State.configured, hstages]

theorem configured_loaded (hstages : x.stages ≠ []) (hheld : s.millHeld o = false) : s.configured o a x =
    ((s.dropSavedMill o).bindFlumes o x.flumes).setMill ((s.coreOf o).getD 0) (some (Mill.fresh o a x)) := by
  simp [State.configured, hstages, hheld]

theorem bindFlumes_spec (h : s.crewOf o = some (c, y)) (es : List Dword) :
    ConfigFrame s (s.bindFlumes o es) ∧ (s.bindFlumes o es).cores = s.cores ∧
      ∀ e ∈ es, ∃ z f, Tbl.find? (s.bindFlumes o es).crews c = some z ∧ Tbl.find? z.flumes (flumeNum e) = some f ∧ f.entries = [] := by
  rw [bindFlumes_of_crew h]
  refine ⟨⟨rfl, launchOf_setCrew (z := { y with flumes := boundFlumes es y.flumes }) (find_of_crewOf h) rfl⟩, rfl, fun e he => ?_⟩
  obtain ⟨f, hf, hempty⟩ := find_boundFlumes (t := y.flumes) (.inl ⟨e, he, rfl⟩)
  exact ⟨_, f, Tbl.find_insert_self .., hf, hempty⟩

theorem loaded_spec (h : s.crewOf o = some (c, y)) (k : Nat) (m : Option Mill) (es : List Dword) :
    ConfigFrame s (((s.dropSavedMill o).bindFlumes o es).setMill k m) ∧
      ((((s.dropSavedMill o).bindFlumes o es).setMill k m).core k).mill = m ∧
      ∀ e ∈ es, ∃ z f, Tbl.find? (((s.dropSavedMill o).bindFlumes o es).setMill k m).crews c = some z ∧
        Tbl.find? z.flumes (flumeNum e) = some f ∧ f.entries = [] := by
  obtain ⟨z, hdrop⟩ := dropSavedMill_spec h
  obtain ⟨hframe, -, hflumes⟩ := bindFlumes_spec hdrop.crew es
  refine ⟨⟨?_, fun p => (hframe.launch p).trans (hdrop.launch p)⟩, ?_, hflumes⟩
  · have hrest := hframe.rest
    rw [hdrop.rest] at hrest
    rw [State.setMill, State.setCore, hdrop.rest, hrest]
  · rw [State.setMill, State.core_setCore, if_pos rfl]

end

end Sys2Proof.Machine

namespace Sys2Proof.Machine

open Sys2Proof.Claims
open Host (Outcome)

section
variable {s u : State} {o c k : Nat} {y : Crew} {d a : BitVec 6} {x : MillImage}

/-- MILL.CFG completes with the configured state and its answer. -/
theorem exec_millCfg (ho : s.cur.owners = [o]) (hplain : (s.getS o a).poison = none)
    (himage : s.readImage o (s.getS o a).val false = .ok (x, u)) (hlive : LiveDelivery s o)
    (hconf : ConfigFrame u (u.configured o (s.getS o a).val x)) :
    ∃ ls, exec (.millCfg d a) s = .next (({ u.configured o (s.getS o a).val x with launches := ls } : State).putS o d
      (if x.stages.length != 0 && u.millHeld o then 1 else 0)) := by
  have hpage := readImage_pageFrame himage
  have hlive' : LiveDelivery (u.configured o (s.getS o a).val x) o := by
    refine liveDelivery_congr hlive ?_ ?_ (fun e => ?_)
    · rw [hconf.launch, hpage]; rfl
    · rw [hconf.rest, hpage]
    · rw [State.ctx, hconf.rest, hpage]; rfl
  obtain ⟨ls, hdeliver⟩ := deliver_live hlive' 0 5 (if x.stages.length != 0 && u.millHeld o then 1 else 0)
  refine ⟨ls, conclude_forOwners_single ho ((millCfgOwner_eq hplain himage).trans ?_)⟩
  exact congrArg (fun w : Dword × State => Except.ok (w.2.putS o d w.1)) hdeliver

/-- Reading the image leaves the bundle's crew, its core and what holds the core's mill. -/
theorem readImage_keeps_mill {v : Dword} (himage : s.readImage o v false = .ok (x, u)) :
    u.crewOf o = s.crewOf o ∧ u.coreOf o = s.coreOf o ∧ u.millHeld o = s.millHeld o ∧ u.cores = s.cores ∧ u.crews = s.crews ∧
      u.strands = s.strands ∧ u.owners = s.owners := by
  have hpage := readImage_pageFrame himage
  refine ⟨?_, ?_, ?_, ?_, ?_, ?_, ?_⟩ <;> rw [hpage] <;> rfl

/-- An image with stages loads, where no other bundle holds the mill. -/
theorem exec_millCfg_loaded (ho : s.cur.owners = [o]) (hcore : s.coreOf o = some k) (hplain : (s.getS o a).poison = none)
    (himage : s.readImage o (s.getS o a).val false = .ok (x, u)) (hlive : LiveDelivery s o) (hcrew : s.crewOf o = some (c, y))
    (hstages : x.stages ≠ []) (hheld : s.millHeld o = false) :
    ∃ t, exec (.millCfg d a) s = .next t ∧ t.getS o d = .zero 64 ∧ (t.core k).mill = some (Mill.fresh o (s.getS o a).val x) ∧
      (∀ e ∈ x.flumes, ∃ z f, Tbl.find? t.crews c = some z ∧ Tbl.find? z.flumes (flumeNum e) = some f ∧ f.entries = []) ∧
      (∀ n r, ¬(n = o ∧ r = d) → t.getS n r = s.getS n r) ∧ t.strands = s.strands ∧ ∀ pa, t.byte pa = u.byte pa := by
  obtain ⟨hucrew, hucore, huheld, -, -, hustrands, huowners⟩ := readImage_keeps_mill himage
  obtain ⟨hconf, hmill, hflumes⟩ := loaded_spec (hucrew.trans hcrew) ((u.coreOf o).getD 0)
    (some (Mill.fresh o (s.getS o a).val x)) x.flumes
  have heq := configured_loaded (a := (s.getS o a).val) hstages (huheld.trans hheld)
  rw [← heq] at hconf hmill hflumes
  obtain ⟨ls, hexec⟩ := exec_millCfg (d := d) ho hplain himage hlive hconf
  have hcore' : (u.coreOf o).getD 0 = k := by rw [hucore, hcore]; rfl
  refine ⟨_, hexec, ?_, ?_, ?_, fun n r hnr => ?_, ?_, fun pa => ?_⟩
  · rw [State.getS_putS, huheld, hheld, Bool.and_false]
    exact ite_self _
  · rw [State.putS_core]
    exact hcore' ▸ hmill
  · rw [State.putS_crews]
    exact hflumes
  · refine ((State.putS_frame ..).reg n r (fun e => hnr ⟨List.mem_singleton.1 e.1, e.2⟩)).trans ?_
    rw [State.getS, State.owner, hconf.rest, huowners]
    rfl
  · rw [State.putS_strands, hconf.rest]
    exact hustrands
  · rw [State.byte, State.putS_mem, hconf.rest]
    rfl

/-- An image without stages binds its flumes alone. -/
theorem exec_millCfg_empty (ho : s.cur.owners = [o]) (hplain : (s.getS o a).poison = none)
    (himage : s.readImage o (s.getS o a).val false = .ok (x, u)) (hlive : LiveDelivery s o) (hcrew : s.crewOf o = some (c, y))
    (hstages : x.stages = []) :
    ∃ t, exec (.millCfg d a) s = .next t ∧ t.getS o d = .zero 64 ∧ (t.core k).mill = (s.core k).mill ∧
      ∀ e ∈ x.flumes, ∃ z f, Tbl.find? t.crews c = some z ∧ Tbl.find? z.flumes (flumeNum e) = some f ∧ f.entries = [] := by
  obtain ⟨hucrew, -, -, hucores, -⟩ := readImage_keeps_mill himage
  obtain ⟨hconf, hcores, hflumes⟩ := bindFlumes_spec (hucrew.trans hcrew) x.flumes
  rw [← configured_empty (a := (s.getS o a).val) hstages] at hconf hcores hflumes
  obtain ⟨ls, hexec⟩ := exec_millCfg (d := d) ho hplain himage hlive hconf
  refine ⟨_, hexec, ?_, ?_, ?_⟩
  · rw [State.getS_putS, hstages]
    exact ite_self _
  · rw [State.putS_core]
    show (Tbl.getD (u.configured o (s.getS o a).val x).cores k CoreState.idle).mill = _
    rw [hcores, hucores]
    rfl
  · rw [State.putS_crews]
    exact hflumes

/-- A mill that another bundle holds is refused. -/
theorem exec_millCfg_refused (ho : s.cur.owners = [o]) (hplain : (s.getS o a).poison = none)
    (himage : s.readImage o (s.getS o a).val false = .ok (x, u)) (hlive : LiveDelivery s o) (hstages : x.stages ≠ [])
    (hheld : s.millHeld o = true) :
    ∃ t, exec (.millCfg d a) s = .next t ∧ t.getS o d = (if d = 0 then .zero 64 else ⟨1, none⟩) ∧
      (t.core k).mill = (s.core k).mill ∧ t.crews = s.crews := by
  obtain ⟨-, -, huheld, hucores, hucrews, -⟩ := readImage_keeps_mill himage
  have heq := configured_refused (a := (s.getS o a).val) hstages (huheld.trans hheld)
  have hconf : ConfigFrame u (u.configured o (s.getS o a).val x) := by
    rw [heq]
    exact ⟨rfl, fun _ => rfl⟩
  obtain ⟨ls, hexec⟩ := exec_millCfg (d := d) ho hplain himage hlive hconf
  refine ⟨_, hexec, ?_, ?_, ?_⟩
  · rw [State.getS_putS, huheld, hheld, Bool.and_true]
    have : (x.stages.length != 0) = true := by simpa using hstages
    rw [this]
    rfl
  · rw [State.putS_core, heq]
    show (Tbl.getD u.cores k CoreState.idle).mill = _
    rw [hucores]
    rfl
  · rw [State.putS_crews, heq]
    exact hucrews

/-! ### MILL.ENTER and MILL.EXIT (03 R87) -/

theorem core_setMill (s : State) (k : Nat) (m : Option Mill) : ((s.setMill k m).core k).mill = m := by
  rw [State.setMill, State.core_setCore, if_pos rfl]

theorem coreMill_of_core (hcore : s.coreOf o = some k) : s.coreMill o = (s.core k).mill := by
  rw [State.coreMill, hcore, Option.getD_some]

theorem exec_millEnter_held {m : Mill} (ho : s.cur.owners = [o]) (hcore : s.coreOf o = some k) (hm : (s.core k).mill = some m)
    (hholder : m.holder = o) : exec .millEnter s = .next (s.startMill o m) := by
  refine conclude_forOwners_single ho ?_
  simp only [millEnterOwner, coreMill_of_core hcore, hm, hholder, if_true]

theorem exec_millExit_held {m : Mill} (ho : s.cur.owners = [o]) (hcore : s.coreOf o = some k) (hm : (s.core k).mill = some m)
    (hholder : m.holder = o) : exec (.millExit d) s = .next ((s.setMill k none).putS o d m.status) := by
  refine conclude_forOwners_single ho ?_
  simp only [millExitOwner, coreMill_of_core hcore, hm, hholder, if_true, hcore, Option.getD_some]

theorem exec_millExit_saved {m : Mill} (ho : s.cur.owners = [o]) (hcore : s.coreOf o = some k) (hm : (s.core k).mill = none)
    (hsaved : s.savedMill o = some m) : exec (.millExit d) s = .next ((s.dropSavedMill o).putS o d m.status) := by
  refine conclude_forOwners_single ho ?_
  simp only [millExitOwner, coreMill_of_core hcore, hm, hsaved]

theorem exec_millEnter_none (ho : s.cur.owners = [o]) (hcore : s.coreOf o = some k) (hm : (s.core k).mill = none)
    (hsaved : s.savedMill o = none) : exec .millEnter s = .next (s.takeTrap 0x15 0 none) := by
  have h : millEnterOwner o s = trapWith causeMillState 0 := by simp only [millEnterOwner, coreMill_of_core hcore, hm, hsaved]
  show conclude s (forOwners s millEnterOwner) = _
  rw [forOwners_single ho, h]
  rfl

theorem exec_millExit_none (ho : s.cur.owners = [o]) (hcore : s.coreOf o = some k) (hm : (s.core k).mill = none)
    (hsaved : s.savedMill o = none) : exec (.millExit d) s = .next (s.takeTrap 0x15 0 none) := by
  have h : millExitOwner d o s = trapWith causeMillState 0 := by simp only [millExitOwner, coreMill_of_core hcore, hm, hsaved]
  show conclude s (forOwners s (millExitOwner d)) = _
  rw [forOwners_single ho, h]
  rfl

/-- Of the strands in hand, each stands in the mill. -/
theorem foldl_milled (s : State) (b : Nat) :
    StrandsBecome s ((s.liveStrands b).foldl (fun (t : State) i => t.setStrand i { t.strand i with stat := .milled }) s) (s.liveStrands b)
      (fun i => { s.strand i with stat := .milled }) := by
  refine foldl_strandsBecome (liveStrands_nodup s b) fun i _ u hu => ?_
  rw [hu.own]
  exact StrandsBecome.of_setStrand u i (fun i => { s.strand i with stat := .milled })

/-- A mill that starts. -/
def State.startedMill (s : State) (o : Nat) (m : Mill) : Mill :=
  { m with running := true, toAdmit := (s.liveStrands o).map strandIndex, grain := 0, base := (s.owner o).s,
           baseOrigins := (s.owner o).origins, enterPc := s.cur.gpc }

theorem startMill_spec (hcore : s.coreOf o = some k) (m : Mill) :
    StrandsBecome (s.setMill k (some (s.startedMill o m))) (s.startMill o m) (s.liveStrands o)
      (fun i => { s.strand i with stat := .milled }) := by
  rw [State.startMill, hcore]
  exact foldl_milled (s.setMill k (some (s.startedMill o m))) o

end

end Sys2Proof.Machine

namespace Sys2Proof.Machine

open Sys2Proof.Claims
open Host (Outcome)

/-! ### The mill step (12 R223, R224) -/

section
variable {s : State} {k : Nat} {m : Mill}

theorem exec_millStep_of_ok {t : State} (h : s.millStep k = .ok t) : exec (.millStep k) s = .next t := by
  show execMillStep k s = _
  rw [execMillStep, h]

/-- A step of a running mill in which every token in flight has acted: tokens move, stages act, and the mill may end. -/
theorem millStep_moving {m1 m2 : Mill} {s1 s2 : State} (hm : (s.core k).mill = some m) (hrun : m.running = true)
    (hacted : m.inFlight = []) (hmove : s.moveMill m = (m1, s1)) (hact : s1.actStages m1 m1.stages.length = .ok (m2, s2)) :
    s.millStep k = .ok ((s2.endMill m2).2.setMill k (some (s2.endMill m2).1)) := by
  simp only [State.millStep, hm, hrun, hacted, List.any_nil, Bool.not_true, Bool.false_eq_true, if_false, hmove, hact]

/-- With nothing in flight the stages have nothing to act on. -/
theorem actStages_nil (h : m.inFlight = []) (n : Nat) : s.actStages m n = .ok (m, s) := by
  induction n with
  | zero => rfl
  | succ n ih =>
    rw [State.actStages, h]
    exact ih

theorem moveMill_idle (hadmit : m.toAdmit = []) (hflight : m.inFlight = []) (haside : m.aside = []) : s.moveMill m = (m, s) := by
  obtain ⟨holder, image, hdr, stages, base, baseOrigins, enterPc, running, toAdmit, inFlight, reorder, aside, grain, draining,
    npois, first⟩ := m
  cases hadmit
  cases hflight
  cases haside
  cases draining <;> rfl

theorem stopNow_of_not_due {i : Nat} (h : (s.strand i).stopDue = false) : s.stopNow i = s := by
  simp only [State.stopNow, h, Bool.false_eq_true, if_false]

/-- A strand that leaves the mill goes on. -/
def Strand.released (x : Strand) : Strand := if x.stat = .milled then { x with stat := .ready } else x

/-- A mill with no token left stops running, and its strands go on. -/
theorem endMill_over (hrun : m.running = true) (hadmit : m.toAdmit = []) (hflight : m.inFlight = []) (horder : m.reorder = [])
    (haside : m.aside = []) (harr : millArr m.m = false) (hdue : ∀ i ∈ s.liveStrands m.holder, (s.strand i).stopDue = false) :
    (s.endMill m).1 = { m with running := false, grain := 0 } ∧
      StrandsBecome s (s.endMill m).2 (s.liveStrands m.holder) (fun i => (s.strand i).released) := by
  have hover : (m.running && m.toAdmit.isEmpty && m.inFlight.isEmpty && m.reorder.isEmpty && m.aside.isEmpty) = true := by
    rw [hrun, hadmit, hflight, horder, haside]
    rfl
  have hgrain : ¬(millArr m.m && decide (m.grain ≠ 0)) = true := by
    rw [harr, Bool.false_and]
    decide
  rw [State.endMill, if_pos hover, if_neg hgrain]
  refine ⟨rfl, foldl_strandsBecome (liveStrands_nodup s m.holder) fun i hi u hu => ?_⟩
  dsimp only
  rw [hu.own]
  split
  case h_1 hmilled =>
    have hreleased : (s.strand i).released = { s.strand i with stat := .ready } := if_pos hmilled
    rw [stopNow_of_not_due, ← hreleased]
    · exact StrandsBecome.of_setStrand u i (fun i => (s.strand i).released)
    · rw [State.strand_setStrand, if_pos rfl]
      exact hdue i hi
  case h_2 hother =>
    exact StrandsBecome.kept u ((if_neg hother).trans hu.own.symm)

/-- The mill with its first token admitted, and that token after a stage whose guard is false. -/
def Mill.admitted (m : Mill) (rest : List Nat) (t : Token) : Mill := { m with toAdmit := rest, inFlight := [(0, t)] }

theorem moveMill_admit {j : Nat} {rest : List Nat} (hadmit : m.toAdmit = j :: rest) (hflight : m.inFlight = [])
    (haside : m.aside = []) (hdrain : m.draining = false) :
    s.moveMill m = (m.admitted rest (s.admitToken m j), s) := by
  obtain ⟨holder, image, hdr, stages, base, baseOrigins, enterPc, running, toAdmit, inFlight, reorder, aside, grain, draining,
    npois, first⟩ := m
  cases hadmit
  cases hflight
  cases haside
  cases hdrain
  rfl

/-- A stage whose guard is false leaves its token as it is. -/
theorem actStage_unguarded {w : Word × Word} {rs : List (Word × Word)} {t : Token} (hstages : m.stages = w :: rs)
    (hguard : t.pred (guardOf (wordLong w.1) w.2).pg.toNat = (guardOf (wordLong w.1) w.2).neg) :
    s.actStage m 0 t = .ok (some ({ t with acted := true }, s)) := by
  have hget : m.stages.getD 0 (0, 0) = w := by rw [hstages]; rfl
  have hskip : (t.origin.isSome || t.pred (guardOf (wordLong w.1) w.2).pg.toNat == (guardOf (wordLong w.1) w.2).neg) = true := by
    rw [hguard, beq_self_eq_true, Bool.or_true]
  rw [State.actStage]
  dsimp only
  rw [hget]
  exact if_pos hskip

theorem actStages_first {t t1 : Token} (rest : List Nat) (hacted : t.acted = false) (n : Nat)
    (hact : s.actStage (m.admitted rest t) 0 t = .ok (some (t1, s))) :
    s.actStages (m.admitted rest t) (n + 1) = .ok (m.admitted rest t1, s) := by
  induction n with
  | zero =>
    rw [State.actStages]
    simp only [Mill.admitted, Tbl.find?, if_true, hacted, Bool.false_eq_true, if_false] at hact ⊢
    rw [hact]
    rfl
  | succ n ih =>
    rw [State.actStages]
    exact ih

theorem endMill_busy {t : Token} (rest : List Nat) : s.endMill (m.admitted rest t) = (m.admitted rest t, s) := by
  simp only [State.endMill, Mill.admitted, List.isEmpty_cons, Bool.and_false, Bool.false_and, Bool.false_eq_true, if_false]

end

/-! ### Drain and reload (12 R228, 14 R251) -/

theorem execMillDrainTimeLimit_saved {s : State} {k c : Nat} {m : Mill} {x : Crew} (hm : (s.core k).mill = some m)
    (hdrain : m.draining = true) (hcrew : s.crewOf m.holder = some (c, x)) :
    ∃ order, exec (.millDrainTimeLimit k) s =
      .next ((s.setMill k none).setCrew c { x with mill := some { m with draining := false, aside := order } }) := by
  refine ⟨(List.range 64).filterMap (fun j => m.aside.find? (fun t => t.strand == j)), ?_⟩
  show execMillDrainTimeLimit k s = _
  simp only [execMillDrainTimeLimit, hm, hdrain, if_true, State.stowMill, hcrew]

section
variable {s : State} {k b c : Nat} {m : Mill} {y : Crew}

theorem execMillReload_stopping (hsaved : s.savedMill b = some m) (hcrew : s.crewOf b = some (c, y)) (hstop : y.stopping = true) :
    exec (.millReload k b) s = .next s := by
  show execMillReload k b s = _
  simp [execMillReload, hsaved, hcrew, hstop]

theorem execMillReload_open (hsaved : s.savedMill b = some m) (hcore : s.coreOf b = some k) (hfree : (s.core k).mill = none)
    (hrun : m.running = true) (hcrew : s.crewOf b = some (c, y)) (hinside : ∃ i ∈ s.liveStrands b, (s.strand i).stat = .milled)
    (hstop : y.stopping = false) {t : State} (ht : (s.atEnter b m).reloadMill b m = .ok t) :
    exec (.millReload k b) s = .next t := by
  have hany : ((s.liveStrands b).any (fun i => (s.strand i).stat == .milled)) = true := by
    simpa using hinside
  show execMillReload k b s = _
  simp [execMillReload, hsaved, hcore, hfree, hrun, hcrew, hstop, hany, ht, conclude]

theorem reloadMill_ok {u : State} {x : MillImage} (himage : s.readImage b m.image true = .ok (x, u)) (hstages : x.stages ≠ [])
    (hinside : ∀ e ∈ m.inFlight, e.1 < x.stages.length) :
    s.reloadMill b m = .ok ((u.dropSavedMill b).setMill ((u.coreOf b).getD 0)
      (some { m with m := x.m, stages := x.stages, draining := false })) := by
  have hok : (m.inFlight.all (fun e => decide (e.1 < x.stages.length)) && !x.stages.isEmpty) = true := by
    simpa [hstages] using hinside
  rw [State.reloadMill, himage]
  exact if_pos hok

end

end Sys2Proof.Machine

namespace Sys2Proof

open Sys2Proof.Machine Sys2Proof.Claims

/-- A step of a running mill with no token left, or that admits one. -/
theorem millStep_cases (s : State) (k : Nat) (m : Mill) (hm : (s.core k).mill = some m) (hrun : m.running = true) :
    (m.toAdmit = [] → m.inFlight = [] → m.reorder = [] → m.aside = [] → millArr m.m = false →
      (∀ i ∈ s.liveStrands m.holder, (s.strand i).stopDue = false) →
      ∃ t, exec (.millStep k) s = .next t ∧ (t.core k).mill = some { m with running := false, grain := 0 } ∧
        (∀ i ∈ s.liveStrands m.holder, (s.strand i).stat = .milled → t.strand i = { s.strand i with stat := .ready }) ∧
        t = { s with strands := t.strands, cores := t.cores }) ∧
    (∀ j rest w rs, m.toAdmit = j :: rest → m.inFlight = [] → m.aside = [] → m.draining = false → m.stages = w :: rs →
      (let x := s.admitToken m j
       let g := guardOf (wordLong w.1) w.2
       x.pred g.pg.toNat = g.neg →
         ∃ t, exec (.millStep k) s = .next t ∧
           (t.core k).mill = some { m with toAdmit := rest, inFlight := [(0, { x with acted := true })] } ∧
           t = { s with cores := t.cores })) ∧
    (∀ t, s.millStep k = .ok t → exec (.millStep k) s = .next t) := by
  refine ⟨fun hadmit hflight horder haside harr hdue => ?_, fun j rest w rs hadmit hflight haside hdrain hstages hguard => ?_,
    fun t => exec_millStep_of_ok⟩
  · have hstep := millStep_moving hm hrun hflight (moveMill_idle hadmit hflight haside) (actStages_nil hflight _)
    obtain ⟨hmill, hreleased⟩ := endMill_over hrun hadmit hflight horder haside harr hdue
    rw [hmill] at hstep
    refine ⟨_, exec_millStep_of_ok hstep, core_setMill .., fun i hi hmilled => ?_, ?_⟩
    · exact (hreleased.inside i hi).trans (if_pos hmilled)
    · rw [State.setMill, State.setCore, hreleased.rest]
  · have hstep := millStep_moving hm hrun hflight (moveMill_admit hadmit hflight haside hdrain)
      (s2 := s) (m2 := m.admitted rest { s.admitToken m j with acted := true }) ?_
    · rw [endMill_busy] at hstep
      exact ⟨_, exec_millStep_of_ok hstep, core_setMill .., rfl⟩
    · show s.actStages (m.admitted rest (s.admitToken m j)) m.stages.length = _
      rw [hstages]
      exact actStages_first rest rfl rs.length (actStage_unguarded (m := m.admitted rest _) hstages hguard)

/-- Settles O41: MILL.CFG in its three answers, MILL.ENTER and MILL.EXIT of a held or saved mill and their trap, the two mill steps,
the drain at its time limit, and the reload. -/
theorem mills : Obligations.Mills := by
  refine ⟨fun s o k d a ho hcore => ⟨fun x u c y hplain himage hlive hcrew _ =>
      ⟨exec_millCfg_loaded ho hcore hplain himage hlive hcrew, exec_millCfg_empty ho hplain himage hlive hcrew,
        exec_millCfg_refused ho hplain himage hlive⟩,
      fun m hm hholder => ⟨?_, ?_⟩, fun m hm hsaved => ?_,
      fun hm hsaved => ⟨exec_millEnter_none ho hcore hm hsaved, exec_millExit_none ho hcore hm hsaved⟩⟩,
    millStep_cases, fun s k c m x hm hdrain hcrew => ?_, fun s u k b c m y x hsaved hcore hfree hrun hcrew hinside => ?_⟩
  · have hstart := startMill_spec hcore m
    refine ⟨_, exec_millEnter_held ho hcore hm hholder, ?_, hstart.inside, hstart.outside, ?_⟩
    · rw [State.core, hstart.rest]
      exact core_setMill s k _
    · rw [hstart.rest]
      rfl
  · refine ⟨_, exec_millExit_held ho hcore hm hholder, ?_, State.getS_putS .., fun hfirst _ => ?_, ?_⟩
    · rw [State.putS_core]
      exact core_setMill ..
    · rw [Mill.status, hfirst]
    · rw [State.putS_cores]
      exact State.putS_frame ..
  · have hcrew : ∃ c y, s.crewOf o = some (c, y) := by
      cases hc : s.crewOf o with
      | none => simp only [State.savedMill, hc] at hsaved; cases hsaved
      | some e => exact ⟨e.1, e.2, rfl⟩
    obtain ⟨c, y, hcrew⟩ := hcrew
    obtain ⟨z, hdrop⟩ := dropSavedMill_spec hcrew
    refine ⟨_, exec_millExit_saved ho hcore hm hsaved, ?_, ?_, State.getS_putS .., ?_⟩
    · rw [← savedMill_dropped hdrop, (State.putS_frame ..).rest]
      rfl
    · rw [State.putS_core, State.core, hdrop.rest]
      exact hm
    · rw [State.putS_crews, ← hdrop.rest]
      exact State.putS_frame ..
  · obtain ⟨order, hexec⟩ := execMillDrainTimeLimit_saved hm hdrain hcrew
    exact ⟨_, _, hexec, core_setMill s k none, Tbl.find_insert_self .., rfl, rfl, rfl, rfl, rfl⟩
  · refine ⟨execMillReload_stopping hsaved hcrew, fun hstop himage hstages hbelow => ?_⟩
    have hpage := readImage_pageFrame himage
    have hucrew : u.crewOf b = some (c, y) := by
      rw [← hcrew, hpage]
      rfl
    have hucore : (u.coreOf b).getD 0 = k := by
      rw [← Option.getD_some (a := k) (b := 0), ← hcore, hpage]
      rfl
    obtain ⟨z, hdrop⟩ := dropSavedMill_spec hucrew
    refine ⟨_, execMillReload_open hsaved hcore hfree hrun hcrew hinside hstop (reloadMill_ok himage hstages hbelow), ?_, ?_, ?_, ?_,
      fun pa => ?_⟩
    · show (u.dropSavedMill b).savedMill b = none
      exact savedMill_dropped hdrop
    · rw [hucore]
      exact core_setMill ..
    · show (u.dropSavedMill b).strands = s.strands
      rw [hdrop.rest, hpage]
      rfl
    · show (u.dropSavedMill b).owners = s.owners
      rw [hdrop.rest, hpage]
      rfl
    · show (u.dropSavedMill b).byte pa = u.byte pa
      rw [hdrop.rest]
      rfl

end Sys2Proof

namespace Sys2Proof.Machine

open Sys2Proof.Claims
open Host (Outcome)

/-! ## What a core runs (07 R152-R160, 03 R82) -/

/-! ### Sorting by rank -/

/-- The order of ranks is the lexicographic one. -/
theorem rankLess_iff_lt (a b : List Nat) : rankLess a b = true ↔ a < b := by
  induction a generalizing b with
  | nil => cases b <;> simp [rankLess]
  | cons x a ih =>
    cases b with
    | nil => simp [rankLess]
    | cons y b => simp [rankLess, ih, List.cons_lt_cons_iff]

section
variable {α : Type} (rank : α → List Nat)

theorem mem_rankInsert {x y : α} {l : List α} : y ∈ rankInsert rank x l ↔ y = x ∨ y ∈ l := by
  induction l with
  | nil => simp [rankInsert]
  | cons z l ih =>
    rw [rankInsert]
    split
    · simp
    · rw [List.mem_cons, ih, List.mem_cons]
      exact or_left_comm

/-- Nothing of a list ranks below its head. -/
def HeadLeast (l : List α) : Prop := ∀ x ∈ l.head?, ∀ y ∈ l, ¬ rank y < rank x

theorem headLeast_rankInsert {l : List α} (x : α) (h : HeadLeast rank l) : HeadLeast rank (rankInsert rank x l) := by
  cases l with
  | nil =>
    intro z hz y hy
    cases List.mem_singleton.1 (Option.mem_toList.2 hz)
    cases List.mem_singleton.1 hy
    exact lt_irrefl _
  | cons w l =>
    have hw : ∀ y ∈ w :: l, ¬ rank y < rank w := h w rfl
    rw [rankInsert]
    by_cases hless : rankLess (rank x) (rank w) = true
    · rw [if_pos hless]
      have hlt := (rankLess_iff_lt ..).1 hless
      rintro z ⟨⟩ y hy
      rcases List.mem_cons.1 hy with rfl | hy
      · exact lt_irrefl _
      · exact fun e => hw y hy (e.trans hlt)
    · rw [if_neg hless]
      rintro z ⟨⟩ y hy
      rcases List.mem_cons.1 hy with rfl | hy
      · exact lt_irrefl _
      · rcases (mem_rankInsert rank).1 hy with rfl | hy
        · exact fun e => hless ((rankLess_iff_lt ..).2 e)
        · exact hw y (List.mem_cons_of_mem _ hy)

theorem rankSort_spec (l : List α) : (∀ y, y ∈ rankSort rank l ↔ y ∈ l) ∧ HeadLeast rank (rankSort rank l) := by
  suffices key : ∀ acc : List α, HeadLeast rank acc →
      (∀ y, y ∈ l.foldl (fun acc x => rankInsert rank x acc) acc ↔ y ∈ l ∨ y ∈ acc) ∧
        HeadLeast rank (l.foldl (fun acc x => rankInsert rank x acc) acc) by
    have hnil : HeadLeast rank ([] : List α) := fun x hx => by cases hx
    obtain ⟨hmem, hleast⟩ := key [] hnil
    exact ⟨fun y => (hmem y).trans (by simp), hleast⟩
  induction l with
  | nil => exact fun acc h => ⟨fun y => by simp, h⟩
  | cons x l ih =>
    intro acc h
    obtain ⟨hmem, hleast⟩ := ih (rankInsert rank x acc) (headLeast_rankInsert rank x h)
    refine ⟨fun y => (hmem y).trans ?_, hleast⟩
    rw [mem_rankInsert, List.mem_cons, or_left_comm, or_assoc]

theorem mem_rankSort {l : List α} {y : α} : y ∈ rankSort rank l ↔ y ∈ l := (rankSort_spec rank l).1 y

end

/-! ### The active set (07 R153) -/

theorem mem_of_mem_admitCrews {s : State} {room sum c : Nat} {es : List (Nat × Crew)} (h : c ∈ s.admitCrews room sum es) :
    ∃ x, (c, x) ∈ es := by
  induction es generalizing sum with
  | nil => cases h
  | cons e es ih =>
    rw [State.admitCrews] at h
    split at h
    · cases h
    · rcases List.mem_cons.1 h with rfl | h
      · exact ⟨e.2, by simp⟩
      · obtain ⟨x, hx⟩ := ih h
        exact ⟨x, List.mem_cons_of_mem _ hx⟩

theorem mem_activeSet_of_lowest {s : State} {k : Nat} {e : Nat × Crew} (he : e ∈ s.resident k) (hstop : e.2.stopping = false)
    (hawake : s.crewDormant e.2 = false) (hlow : s.isLowest e.2 = true) : e.1 ∈ s.activeSet k := by
  refine List.mem_append_left _ (List.mem_map.2 ⟨e, List.mem_filter.2 ⟨(mem_rankSort _).2 (List.mem_filter.2 ⟨he, ?_⟩), hlow⟩, rfl⟩)
  rw [hstop, hawake]
  rfl

theorem awake_of_mem_activeSet {s : State} {k c : Nat} (h : c ∈ s.activeSet k) :
    ∃ x, (c, x) ∈ s.resident k ∧ x.stopping = false ∧ s.crewDormant x = false := by
  have hawake : ∃ x, (c, x) ∈ rankSort s.crewRank ((s.resident k).filter (fun e => !e.2.stopping && !s.crewDormant e.2)) := by
    rcases List.mem_append.1 h with h | h
    · obtain ⟨e, he, rfl⟩ := List.mem_map.1 h
      exact ⟨e.2, (List.mem_filter.1 he).1⟩
    · obtain ⟨x, hx⟩ := mem_of_mem_admitCrews h
      exact ⟨x, (List.mem_filter.1 hx).1⟩
  obtain ⟨x, hx⟩ := hawake
  obtain ⟨hres, hok⟩ := List.mem_filter.1 ((mem_rankSort _).1 hx)
  simp only [Bool.and_eq_true, Bool.not_eq_true'] at hok
  exact ⟨x, hres, hok.1, hok.2⟩

theorem core_recompute (s : State) (k j : Nat) :
    (s.recompute k).core j = if j = k then { s.core k with active := s.activeSet k } else s.core j := State.core_setCore ..

/-! ### Windows (07 R152) -/

theorem endWindow_declared {x : Bundle} {l : Nat} (h : x.declared = some l) (m : Nat) : x.endWindow m = { x with declared := some l, touched := [] } := by
  cases x
  cases h
  rfl

/-- The estimate after a window: up to the lines touched, or down by a quarter of the difference, between 1 and LEASEMAX. -/
def Bundle.remeasured (x : Bundle) (m : Nat) : Nat :=
  min (max (if x.est ≤ x.touched.length then x.touched.length else x.est - (x.est - x.touched.length) / 4) 1) m

theorem endWindow_measured {x : Bundle} (h : x.declared = none) (m : Nat) :
    x.endWindow m = { x with declared := none, touched := [], est := x.remeasured m } := by
  cases x
  cases h
  rfl

/-! ### What arbitration keeps with strands (07 R160, 03 R82) -/

/-- Between s and t only what arbitration keeps with strands differs. -/
structure GrantFrame (s t : State) : Prop where
  strand : ∀ i, t.strand i = { s.strand i with waitCount := (t.strand i).waitCount, stamp := (t.strand i).stamp, held := (t.strand i).held,
                                               since := (t.strand i).since }
  rest : t = { s with strands := t.strands }

theorem GrantFrame.refl (s : State) : GrantFrame s s := ⟨fun _ => rfl, rfl⟩

theorem GrantFrame.trans {s t u : State} (h : GrantFrame s t) (k : GrantFrame t u) : GrantFrame s u where
  strand i := by rw [k.strand i, h.strand i]
  rest := by rw [k.rest, h.rest]

theorem GrantFrame.foldl {α : Type} {f : State → α → State} (h : ∀ s a, GrantFrame s (f s a)) (l : List α) (s : State) :
    GrantFrame s (l.foldl f s) :=
  foldl_keeps (GrantFrame s) f (fun t a ht => ht.trans (h t a)) l s (.refl s)

theorem GrantFrame.setStrand (s : State) (i : Nat) (n : Nat) (stamp : Option Nat) (held : Bool) (since : Nat) :
    GrantFrame s (s.setStrand i { s.strand i with waitCount := n, stamp := stamp, held := held, since := since }) where
  strand j := by
    rw [State.strand_setStrand]
    split
    · subst_vars; rfl
    · rfl
  rest := rfl

theorem passOver_frame (s : State) (arb : Nat) (c : Cohort) : GrantFrame s (s.passOver arb c) :=
  .foldl (fun t i => .setStrand t i _ _ (t.strand i).held _) c.strands s

theorem grantStrand_frame (s : State) (i : Nat) : GrantFrame s (s.grantStrand i) := .setStrand ..

theorem letGo_frame (s : State) (i : Nat) : GrantFrame s (s.setStrand i { s.strand i with held := false }) :=
  .setStrand s i (s.strand i).waitCount (s.strand i).stamp false (s.strand i).since

theorem unhold_frame (s : State) (k : Nat) (granted : List Nat) : GrantFrame s (s.unhold k granted) := .foldl letGo_frame _ s

/-- A strand that has been granted the slot. -/
def Strand.granted (x : Strand) : Prop := x.waitCount = 0 ∧ x.stamp = none ∧ x.held = false

theorem foldl_grantStrand (is : List Nat) (s : State) (i : Nat) (h : i ∈ is ∨ (s.strand i).granted) :
    ((is.foldl State.grantStrand s).strand i).granted := by
  induction is generalizing s with
  | nil => exact h.resolve_left (by simp)
  | cons j is ih =>
    refine ih (s.grantStrand j) ?_
    by_cases hij : i = j
    · refine .inr ?_
      rw [State.grantStrand, State.strand_setStrand, if_pos hij]
      exact ⟨rfl, rfl, rfl⟩
    · refine h.imp (fun hi => (List.mem_cons.1 hi).resolve_left hij) fun hg => ?_
      rw [State.grantStrand, State.strand_setStrand, if_neg hij]
      exact hg

/-- Letting strands go sets their hold alone. -/
theorem foldl_letGo (is : List Nat) (s : State) (i : Nat) :
    (is.foldl (fun (t : State) i => t.setStrand i { t.strand i with held := false }) s).strand i =
      if i ∈ is then { s.strand i with held := false } else s.strand i := by
  induction is generalizing s with
  | nil => rfl
  | cons j is ih =>
    rw [List.foldl_cons, ih, State.strand_setStrand]
    by_cases hij : i = j
    · subst hij
      simp
    · simp [hij]

theorem unhold_strand (s : State) (k : Nat) (i : Nat) :
    (s.unhold k []).strand i = { s.strand i with held := (s.strand i).held && !decide (∃ c ∈ s.cohorts k, i ∈ c.strands) } := by
  rw [State.unhold, foldl_letGo]
  have hmem : i ∈ (((s.cohorts k).map (fun c => c.strands)).flatten.filter (fun i => !([] : List Nat).contains i && (s.strand i).held)) ↔
      (∃ c ∈ s.cohorts k, i ∈ c.strands) ∧ (s.strand i).held = true := by
    simp only [List.mem_filter, List.mem_flatten, List.mem_map, List.contains_nil, Bool.not_false, Bool.true_and,
      exists_exists_and_eq_and]
  by_cases hheld : (s.strand i).held = true
  · by_cases hc : ∃ c ∈ s.cohorts k, i ∈ c.strands
    · rw [if_pos (hmem.2 ⟨hc, hheld⟩)]
      simp [hc]
    · rw [if_neg (fun e => hc (hmem.1 e).1)]
      simp [hc]
  · rw [if_neg (fun e => hheld (hmem.1 e).2)]
    have hfalse : (s.strand i).held = false := by simpa using hheld
    rw [hfalse, Bool.false_and, ← hfalse]

end Sys2Proof.Machine

namespace Sys2Proof.Machine

open Sys2Proof.Claims
open Host (Outcome)

/-! ### The choice of a cohort (07 R159, R160) -/

theorem cohortRank_eq (s : State) (promoted : Bool) (c : Cohort) : ∃ rest, s.cohortRank promoted c =
    (if promoted then s.cohortStamp c else 0) :: (7 - cohortPrio s c) :: rest := by
  unfold State.cohortRank cohortPrio
  cases Tbl.find? s.crews (s.cohortCrew c) with
  | none => exact ⟨_, rfl⟩
  | some x => exact ⟨_, rfl⟩

theorem cohortPrio_le (s : State) (c : Cohort) : cohortPrio s c ≤ 7 := by
  have : cohortPrio s c < 8 := Nat.mod_lt _ (by decide)
  omega

/-- Of two cohorts that are not promoted the one of the higher PRIO ranks first. -/
theorem cohortPrio_le_of_not_rank_lt {s : State} {c e : Cohort} (h : ¬ s.cohortRank false e < s.cohortRank false c) :
    cohortPrio s e ≤ cohortPrio s c := by
  obtain ⟨re, he⟩ := cohortRank_eq s false e
  obtain ⟨rc, hc⟩ := cohortRank_eq s false c
  rw [he, hc] at h
  simp only [Bool.false_eq_true, if_false, List.cons_lt_cons_iff, lt_irrefl, false_or, true_and, not_or] at h
  have := h.1
  have := cohortPrio_le s e
  have := cohortPrio_le s c
  omega

theorem choose_nil (s : State) : s.choose [] = none := rfl

/-- The cohort that is chosen is eligible: a promoted one where there is one, and else one of the highest PRIO. -/
theorem choose_spec {s : State} {elig : List Cohort} (h : elig ≠ []) :
    ∃ c ∈ elig, s.choose elig = some c ∧ ((∃ e ∈ elig, 64 ≤ s.cohortWait e) → 64 ≤ s.cohortWait c) ∧
      ((∀ e ∈ elig, s.cohortWait e < 64) → ∀ e ∈ elig, cohortPrio s e ≤ cohortPrio s c) := by
  have hhead {rank : Cohort → List Nat} {l : List Cohort} (hl : l ≠ []) :
      ∃ c ∈ l, (rankSort rank l).head? = some c ∧ ∀ e ∈ l, ¬ rank e < rank c := by
    obtain ⟨hmem, hleast⟩ := rankSort_spec rank l
    cases hs : rankSort rank l with
    | nil =>
      obtain ⟨e, he⟩ := List.exists_mem_of_ne_nil l hl
      have := (hmem e).2 he
      rw [hs] at this
      cases this
    | cons c rest =>
      rw [hs] at hmem hleast
      exact ⟨c, (hmem c).1 (by simp), rfl, fun e he => hleast c rfl e ((hmem e).2 he)⟩
  by_cases hprom : elig.filter (fun c => decide (64 ≤ s.cohortWait c)) = []
  · obtain ⟨c, hc, hfirst, hleast⟩ := hhead (rank := s.cohortRank false) h
    refine ⟨c, hc, ?_, fun ⟨e, he, hwait⟩ => ?_, fun _ e he => cohortPrio_le_of_not_rank_lt (hleast e he)⟩
    · simp only [State.choose, hprom, List.isEmpty_nil, if_true, hfirst]
    · have hin : e ∈ elig.filter (fun c => decide (64 ≤ s.cohortWait c)) := List.mem_filter.2 ⟨he, decide_eq_true hwait⟩
      rw [hprom] at hin
      cases hin
  · obtain ⟨c, hc, hfirst, -⟩ := hhead (rank := s.cohortRank true) hprom
    obtain ⟨hc, hwait⟩ := List.mem_filter.1 hc
    have hwait := of_decide_eq_true hwait
    have hempty : (elig.filter (fun c => decide (64 ≤ s.cohortWait c))).isEmpty = false := by simpa using hprom
    refine ⟨c, hc, ?_, fun _ => hwait, fun hnone => absurd hwait (Nat.not_le.2 (hnone c hc))⟩
    simp only [State.choose, hempty, Bool.false_eq_true, if_false, hfirst]

/-! ### The group that is granted (06 R132, 07 R160) -/

theorem mem_mergeCohorts_of_group {s : State} {group rest : List Cohort} {x : Cohort} (h : x ∈ group) :
    x ∈ s.mergeCohorts group rest := by
  induction rest generalizing group with
  | nil => exact h
  | cons y rest ih =>
    rw [State.mergeCohorts]
    split
    · exact ih (List.mem_append_left _ h)
    · exact ih h

theorem mem_of_mem_mergeCohorts {s : State} {group rest : List Cohort} {x : Cohort} (h : x ∈ s.mergeCohorts group rest) :
    x ∈ group ∨ x ∈ rest := by
  induction rest generalizing group with
  | nil => exact .inl h
  | cons y rest ih =>
    rw [State.mergeCohorts] at h
    split at h
    · rcases ih h with h | h
      · rcases List.mem_append.1 h with h | h
        · exact .inl h
        · exact .inr (List.mem_cons.2 (.inl (List.mem_singleton.1 h)))
      · exact .inr (List.mem_cons_of_mem _ h)
    · exact (ih h).imp_right (List.mem_cons_of_mem _)

section
variable {s : State} {tags : Tbl Dword} {elig : List Cohort} {c x : Cohort}

theorem mem_formGroup_self : c ∈ s.formGroup tags elig c := by
  unfold State.formGroup
  dsimp only
  split
  · exact mem_mergeCohorts_of_group (by simp)
  · simp

theorem of_mem_formGroup (hc : c ∈ elig) (h : x ∈ s.formGroup tags elig c) : x ∈ elig ∧ x.pc = c.pc := by
  have hone : x ∈ [c] → x ∈ elig ∧ x.pc = c.pc := fun e => by
    rw [List.mem_singleton.1 e]
    exact ⟨hc, rfl⟩
  unfold State.formGroup at h
  dsimp only at h
  split at h
  · rcases mem_of_mem_mergeCohorts h with h | h
    · exact hone h
    · obtain ⟨helig, hok⟩ := List.mem_filter.1 h
      simp only [Bool.and_eq_true, beq_iff_eq] at hok
      exact ⟨helig, hok.1.2⟩
  · exact hone h

end

/-! ### Arbitration (07 R160) -/

/-- The members of the group that a cohort is granted with. -/
def State.grantMembers (s : State) (k : Nat) (c : Cohort) : List Nat :=
  ((s.formGroup (s.retag k) (s.eligible k) c).map (fun x => x.strands)).flatten

/-- The strands after an arbitration: cohorts passed over wait on, held ones are let go, and the members are granted. -/
def State.grantSlot (s : State) (k : Nat) (c : Cohort) : State :=
  (s.grantMembers k c).foldl State.grantStrand
    ((((s.eligible k).filter (fun x => !(s.formGroup (s.retag k) (s.eligible k) c).contains x)).foldl
      (fun (t : State) x => t.passOver (s.core k).arb x) s).unhold k (s.grantMembers k c))

theorem grantSlot_frame (s : State) (k : Nat) (c : Cohort) : GrantFrame s (s.grantSlot k c) :=
  ((GrantFrame.foldl (fun t x => passOver_frame t (s.core k).arb x) _ s).trans (unhold_frame ..)).trans (.foldl grantStrand_frame _ _)

section
variable {s : State} {k : Nat}

theorem arbitrate_busy (h : (s.core k).run ≠ none ∨ (s.core k).splitting ≠ none) : s.arbitrate k = s := by
  have hbusy : (((s.recompute k).core k).run.isSome || ((s.recompute k).core k).splitting.isSome) = true := by
    rw [core_recompute, if_pos rfl, Bool.or_eq_true, Option.isSome_iff_ne_none, Option.isSome_iff_ne_none]
    exact h
  rw [State.arbitrate]
  exact if_pos hbusy

variable (hrun : (s.core k).run = none) (hsplit : (s.core k).splitting = none)
include hrun hsplit

theorem recompute_slot_free :
    (((s.recompute k).core k).run.isSome || ((s.recompute k).core k).splitting.isSome) = false := by
  rw [core_recompute, if_pos rfl, hrun, hsplit]
  rfl

theorem arbitrate_none (h : (s.recompute k).choose ((s.recompute k).eligible k) = none) :
    s.arbitrate k = (s.recompute k).setCore k { (s.recompute k).core k with pcTags := (s.recompute k).retag k } := by
  simp only [State.arbitrate, recompute_slot_free hrun hsplit, Bool.false_eq_true, if_false, h]

theorem arbitrate_some {c : Cohort} (h : (s.recompute k).choose ((s.recompute k).eligible k) = some c) :
    s.arbitrate k = ((s.recompute k).grantSlot k c).setCore k { ((s.recompute k).grantSlot k c).core k with
      run := some ⟨(s.recompute k).grantMembers k c, c.pc, 0⟩, arb := ((s.recompute k).core k).arb + 1,
      pcTags := (s.recompute k).retag k } := by
  simp only [State.arbitrate, recompute_slot_free hrun hsplit, Bool.false_eq_true, if_false, h]
  rfl

end

theorem cohortWait_recompute (s : State) (k : Nat) (c : Cohort) : (s.recompute k).cohortWait c = s.cohortWait c := rfl
theorem cohortPrio_recompute (s : State) (k : Nat) (c : Cohort) : cohortPrio (s.recompute k) c = cohortPrio s c := rfl

/-- What an arbitration grants: the members of the chosen cohort's group, all of eligible cohorts at its pc. -/
theorem members_spec {s : State} {k : Nat} {c : Cohort} (hc : c ∈ s.eligible k) :
    (∀ i ∈ c.strands, i ∈ s.grantMembers k c) ∧
      ∀ i ∈ s.grantMembers k c, ∃ e ∈ s.eligible k, i ∈ e.strands ∧ e.pc = c.pc := by
  refine ⟨fun i hi => List.mem_flatten.2 ⟨c.strands, List.mem_map.2 ⟨c, mem_formGroup_self, rfl⟩, hi⟩, fun i hi => ?_⟩
  obtain ⟨is, his, hi⟩ := List.mem_flatten.1 hi
  obtain ⟨e, he, rfl⟩ := List.mem_map.1 his
  obtain ⟨hein, hpc⟩ := of_mem_formGroup hc he
  exact ⟨e, hein, hi, hpc⟩

/-- A member of the granted group waits no longer, whatever the core keeps. -/
theorem setCore_granted {t : State} {i : Nat} (h : (t.strand i).granted) (k : Nat) (x : CoreState) :
    ((t.setCore k x).strand i).granted := h

theorem grantSlot_granted {s : State} {k i : Nat} {c : Cohort} (h : i ∈ s.grantMembers k c) : ((s.grantSlot k c).strand i).granted :=
  foldl_grantStrand _ _ i (.inl h)

/-- Granting changes cores and what arbitration keeps with strands. -/
theorem onlyArbitration_setCore {s t : State} {k : Nat} (h : GrantFrame (s.recompute k) t) (x : CoreState) :
    OnlyArbitration s (t.setCore k x) :=
  ⟨h.strand, by rw [State.setCore, h.rest]; rfl⟩

theorem core_granted {s t : State} {k j : Nat} (h : GrantFrame (s.recompute k) t) (hj : j ≠ k) (x : CoreState) :
    (t.setCore k x).core j = s.core j := by
  rw [State.core_setCore, if_neg hj, State.core, h.rest]
  exact (core_recompute s k j).trans (if_neg hj)

theorem exec_runArbitration_eq {s t : State} {k : Nat} (h : s.arbitrate k = t) : exec (.runArbitration k) s = .next t :=
  congrArg Host.Outcome.next h

theorem coresChoose : CoresChoose := by
  refine ⟨fun s k => ?_, fun s b c k x y hx hcrew hcore => ?_, fun s k => ⟨fun hbusy => ?_, fun hrun hsplit => ⟨fun helig => ?_,
    fun helig => ?_⟩⟩, fun s k => ?_⟩
  · have hcore := (core_recompute s k k).trans (if_pos rfl)
    refine ⟨_, rfl, rfl, by rw [hcore], fun j hj => (core_recompute s k j).trans (if_neg hj), fun e he hstop hawake hlow => ?_,
      fun c hc => ?_⟩
    · rw [hcore]
      exact mem_activeSet_of_lowest he hstop hawake hlow
    · rw [hcore] at hc
      exact awake_of_mem_activeSet hc
  · have hexec : exec (.leaseWindowEnd b) s = .next (if (s.activeSet k).contains c then
        (s.setBundle b (x.endWindow (s.leaseMax (s.launchCtx y.launch)))).recompute k else s) := by
      show execLeaseWindowEnd b s = _
      simp only [execLeaseWindowEnd, hx, hcrew, hcore]
    refine ⟨fun hout => ?_, fun hin => ?_⟩
    · rw [hexec, if_neg (by simpa using hout)]
    · rw [if_pos (by simpa using hin)] at hexec
      refine ⟨_, hexec, rfl, ?_, fun j hj => Tbl.find_insert_ne _ _ hj⟩
      refine (Tbl.find_insert_self ..).trans (congrArg some ?_)
      cases hdecl : x.declared with
      | some l => exact endWindow_declared hdecl _
      | none => exact endWindow_measured hdecl _
  · exact exec_runArbitration_eq (arbitrate_busy hbusy)
  · refine ⟨_, exec_runArbitration_eq (arbitrate_none hrun hsplit (by rw [helig]; rfl)), ?_, rfl⟩
    rw [State.core_setCore, if_pos rfl, core_recompute, if_pos rfl]
    exact hrun
  · obtain ⟨c, hc, hchoose, hprom, hprio⟩ := choose_spec (s := s.recompute k) helig
    simp only [cohortWait_recompute, cohortPrio_recompute] at hprom hprio
    obtain ⟨hown, hmembers⟩ := members_spec hc
    have hframe := grantSlot_frame (s.recompute k) k c
    exact ⟨_, c, ⟨(s.recompute k).grantMembers k c, c.pc, 0⟩, exec_runArbitration_eq (arbitrate_some hrun hsplit hchoose), hc,
      by rw [State.core_setCore, if_pos rfl], rfl, rfl, hown, hmembers, fun i hi => setCore_granted (grantSlot_granted hi) k _, hprom,
      hprio, fun j hj => core_granted hframe hj _, onlyArbitration_setCore hframe _⟩
  · refine ⟨_, rfl, fun c hc i hi => ?_, fun i => ?_, (unhold_frame s k []).rest⟩
    · rw [unhold_strand]
      have : ∃ c ∈ s.cohorts k, i ∈ c.strands := ⟨c, hc, hi⟩
      simp [this]
    · rw [unhold_strand]

end Sys2Proof.Machine

namespace Sys2Proof.Machine

open Sys2Proof.Claims
open Host (Outcome)

/-! ## The pages that are backed and migrated (15 R260, R261) -/

/-- A key that a table finds is that of one of its entries. -/
theorem Tbl.mem_of_find {α : Type} {t : Tbl α} {k : Nat} {v : α} (h : Tbl.find? t k = some v) : (k, v) ∈ t := by
  induction t with
  | nil => cases h
  | cons e rest ih =>
    obtain ⟨j, w⟩ := e
    rw [Tbl.find?] at h
    split at h
    case isTrue hj =>
      cases h
      rw [hj]
      exact List.mem_cons_self
    case isFalse => exact List.mem_cons_of_mem _ (ih h)

/-- Where keys rise every entry is found by its key. -/
theorem Tbl.find_of_mem_rising {α : Type} {t : Tbl α} {lo : Nat} (ht : Tbl.risingFrom lo t = true) {e : Nat × α} (he : e ∈ t) :
    lo ≤ e.1 ∧ Tbl.find? t e.1 = some e.2 := by
  induction t generalizing lo with
  | nil => cases he
  | cons x rest ih =>
    obtain ⟨j, w⟩ := x
    simp only [Tbl.risingFrom, Bool.and_eq_true, decide_eq_true_eq] at ht
    obtain ⟨hlo, hrest⟩ := ht
    rw [Tbl.find?]
    rcases List.mem_cons.1 he with rfl | he
    · exact ⟨hlo, if_pos rfl⟩
    · obtain ⟨hj, hfind⟩ := ih hrest he
      exact ⟨by omega, (if_neg (by omega)).trans hfind⟩

/-- In the canonical form an entry of memory is the byte at its address. -/
theorem byte_of_mem {s : State} (h : Memory.wf s.mem) {e : Nat × Byte} (he : e ∈ s.mem) : s.byte e.1 = e.2 := by
  have hrising := (Bool.and_eq_true_iff.1 h).1
  rw [State.byte, Tbl.getD, (Tbl.find_of_mem_rising hrising he).2]
  rfl

/-- Bytes written one after another, each what F says of its address. -/
theorem byte_foldl_setByte {F : Nat → Byte} {l : List (Nat × Byte)} (h : ∀ e ∈ l, e.2 = F e.1) (s : State) (j : Nat) :
    (l.foldl (fun (t : State) (e : Nat × Byte) => t.setByte e.1 e.2) s).byte j =
      if ∃ e ∈ l, e.1 = j then F j else s.byte j := by
  induction l generalizing s with
  | nil => simp
  | cons e l ih =>
    rw [List.foldl_cons, ih (fun x hx => h x (List.mem_cons_of_mem _ hx)), State.byte_setByte]
    by_cases hl : ∃ x ∈ l, x.1 = j
    · rw [if_pos hl, if_pos (by obtain ⟨x, hx, hj⟩ := hl; exact ⟨x, List.mem_cons_of_mem _ hx, hj⟩)]
    · rw [if_neg hl]
      by_cases he : j = e.1
      · rw [if_pos he, if_pos ⟨e, by simp, he.symm⟩, he]
        exact h e (by simp)
      · rw [if_neg he, if_neg]
        rintro ⟨x, hx, hj⟩
        rcases List.mem_cons.1 hx with rfl | hx
        · exact he hj.symm
        · exact hl ⟨x, hx, hj⟩

theorem byte_eraseRange (s : State) (lo hi j : Nat) :
    ({ s with mem := Tbl.eraseRange s.mem lo hi } : State).byte j = if lo ≤ j ∧ j < hi then 0 else s.byte j := by
  rw [State.byte, Tbl.getD, Tbl.find_eraseRange]
  split
  · rfl
  · rfl

/-- A copy puts the bytes of one range at another, as they stood (15 R261). -/
theorem byte_copyMem {s : State} (h : Memory.wf s.mem) (dst src n j : Nat) :
    (s.copyMem dst src n).byte j = if dst ≤ j ∧ j < dst + n then s.byte (src + (j - dst)) else s.byte j := by
  have hentry {e : Nat × Byte} (he : e ∈ s.mem.filter (fun e => decide (src ≤ e.1) && decide (e.1 < src + n))) :
      e ∈ s.mem ∧ src ≤ e.1 ∧ e.1 < src + n := by
    obtain ⟨hmem, hin⟩ := List.mem_filter.1 he
    simpa [hmem] using hin
  have hbase (ws : List Nat) (j : Nat) : ({ s.noteFrame ws with mem := Tbl.eraseRange s.mem dst (dst + n) } : State).byte j =
      if dst ≤ j ∧ j < dst + n then 0 else s.byte j := byte_eraseRange s dst (dst + n) j
  rw [State.copyMem]
  dsimp only
  rw [byte_foldl_setByte (F := fun j => s.byte (src + (j - dst)))]
  case h =>
    intro e he
    obtain ⟨x, hx, rfl⟩ := List.mem_map.1 he
    obtain ⟨hmem, hlo, -⟩ := hentry hx
    show x.2 = s.byte (src + (dst + (x.1 - src) - dst))
    rw [show src + (dst + (x.1 - src) - dst) = x.1 by omega, byte_of_mem h hmem]
  rw [hbase]
  by_cases hin : dst ≤ j ∧ j < dst + n
  · rw [if_pos hin, if_pos hin]
    split
    · rfl
    · rename_i hnone
      cases hfind : Tbl.find? s.mem (src + (j - dst)) with
      | none => rw [State.byte, Tbl.getD, hfind]; rfl
      | some v =>
        refine absurd ⟨(dst + (src + (j - dst) - src), v), List.mem_map.2 ⟨_, List.mem_filter.2 ⟨Tbl.mem_of_find hfind, ?_⟩, rfl⟩, ?_⟩ hnone
        · simp only [Bool.and_eq_true, decide_eq_true_eq]
          omega
        · show dst + (src + (j - dst) - src) = j
          omega
  · rw [if_neg hin, if_neg, if_neg hin]
    rintro ⟨e, he, rfl⟩
    obtain ⟨x, hx, rfl⟩ := List.mem_map.1 he
    obtain ⟨-, hlo, hhi⟩ := hentry hx
    exact hin ⟨by show dst ≤ dst + (x.1 - src); omega, by show dst + (x.1 - src) < dst + n; omega⟩

theorem byte_zeroMem (s : State) (pa n j : Nat) : (s.zeroMem pa n).byte j = if pa ≤ j ∧ j < pa + n then 0 else s.byte j :=
  byte_eraseRange s pa (pa + n) j

theorem zeroMem_wf {s : State} (h : Memory.wf s.mem) (pa n : Nat) : Memory.wf (s.zeroMem pa n).mem := by
  show Tbl.canonical (0 : Byte) (Tbl.eraseRange s.mem pa (pa + n)) = true
  rw [Tbl.eraseRange_eq_filter]
  exact Tbl.canonical_filter _ h

theorem zeroMem_smallPool (s : State) (pa n : Nat) : (s.zeroMem pa n).smallPool = s.smallPool := by
  rw [State.zeroMem]
  dsimp only
  rw [State.noteFrame_eq]
  rfl

theorem copyMem_smallPool (s : State) (dst src n : Nat) : (s.copyMem dst src n).smallPool = s.smallPool := by
  refine foldl_keeps (fun t : State => t.smallPool = s.smallPool) _ (fun t e ht => ?_) _ _ ?_
  · exact ht
  · show (s.noteFrame _).smallPool = s.smallPool
    rw [State.noteFrame_eq]

theorem writeLE_smallPool (s : State) (pa n v : Nat) : (s.writeLE pa n v).smallPool = s.smallPool := by rw [State.writeLE_rest]

section
variable {s : State} {f : Nat} {rest : List Nat}

/-- The small pool after its first frame is taken. -/
def State.frameTaken (s : State) (rest : List Nat) : State := { s with smallPool := { s.smallPool with frames := rest } }

/-- A frame taken while the pool stays at its threshold posts nothing. -/
theorem takeFrame_small (hframes : s.smallPool.frames = f :: rest) (hlow : s.smallPool.threshold ≤ rest.length) :
    s.takeFrame false = some (f, s.frameTaken rest) := by
  have hnot : decide (rest.length < s.smallPool.threshold) = false := decide_eq_false (Nat.not_lt.2 hlow)
  simp only [State.takeFrame, Bool.false_eq_true, if_false, hframes, hnot, Bool.false_and]
  rfl

theorem backPage_small {entry : Nat} {e0 e1 : Dword} (hframes : s.smallPool.frames = f :: rest)
    (hlow : s.smallPool.threshold ≤ rest.length) (hcfn : e0.getLsbD 56 = false) :
    s.backPage entry e0 e1 false =
      some (((s.frameTaken rest).zeroMem (f * 65536) 65536).writeLE entry 8 (backedE0 e0 f).toNat) := by
  simp only [State.backPage, takeFrame_small hframes hlow, hcfn, Bool.false_eq_true, if_false]

theorem migratePage_small {entry : Nat} {e0 e1 : Dword} (hframes : s.smallPool.frames = f :: rest)
    (hlow : s.smallPool.threshold ≤ rest.length) (hcfn : e0.getLsbD 56 = false) :
    s.migratePage entry e0 e1 false = some ((((s.frameTaken rest).zeroMem (f * 65536) 65536).copyMem (f * 65536) (heldAt e0) 65536).writeLE
      entry 8 (backedE0 e0 f).toNat) := by
  simp only [State.migratePage, takeFrame_small hframes hlow, hcfn, Bool.false_eq_true, if_false]

/-- A page's place with the host begins at a multiple of its size, so two that differ lie apart. -/
theorem heldAt_apart {e0 : Dword} (h : heldAt e0 ≠ f * 65536) {i : Nat} (hi : i < 65536) :
    ¬(f * 65536 ≤ heldAt e0 + i ∧ heldAt e0 + i < f * 65536 + 65536) := by
  unfold heldAt at h ⊢
  omega

end

theorem pageBacking_reserved {s u : State} {c e : Nat} {va : BitVec 64} {a b : Dword} {l : Bool}
    (hwalk : s.walk c va.toNat = .reserved e a b l) (hback : s.backPage e a b l = some u) :
    exec (.pageBacking c va) s = .next u := by
  show execPageBacking c va s = _
  simp only [execPageBacking, hwalk, hback, Option.getD_some]

theorem pageMigration_held {s u : State} {c e : Nat} {va : BitVec 64} {a b : Dword} {l : Bool}
    (hwalk : s.walk c va.toNat = .inHost e a b l) (htag : a.getLsbD 7 = false) (hmove : s.migratePage e a b l = some u) :
    exec (.pageMigration c va) s = .next u := by
  show execPageMigration c va s = _
  simp only [execPageMigration, hwalk, htag, hmove, Bool.false_eq_true, if_false, Option.getD_some]

theorem pageMigration_tagged {s : State} {c e : Nat} {va : BitVec 64} {a b : Dword} {l : Bool}
    (hwalk : s.walk c va.toNat = .inHost e a b l) (htag : a.getLsbD 7 = true) : exec (.pageMigration c va) s = .next s := by
  show execPageMigration c va s = _
  simp only [execPageMigration, hwalk, htag, if_true]

theorem pageBacking_other {s : State} {c : Nat} {va : BitVec 64} (h : ∀ e a b l, s.walk c va.toNat ≠ .reserved e a b l) :
    exec (.pageBacking c va) s = .next s := by
  show execPageBacking c va s = _
  rw [execPageBacking]
  split
  case h_1 hwalk => exact absurd hwalk (h _ _ _ _)
  case h_2 => rfl

theorem pageMigration_other {s : State} {c : Nat} {va : BitVec 64} (h : ∀ e a b l, s.walk c va.toNat ≠ .inHost e a b l) :
    exec (.pageMigration c va) s = .next s := by
  show execPageMigration c va s = _
  rw [execPageMigration]
  split
  case h_1 hwalk => exact absurd hwalk (h _ _ _ _)
  case h_2 => rfl

end Sys2Proof.Machine

namespace Sys2Proof.Machine

open Sys2Proof.Claims
open Host (Outcome)

/-! ## Deadlines and grove barriers (03 R74, 06 R140) -/

theorem waittDeadline_strand {s : State} {o st v : Nat} (ho : 288 ≤ o) (h : (s.strand (strandKey o st)).stat = .parked (.deadline v)) :
    exec (.waittDeadline o st) s = .next ((s.timeReaches v).setStrand (strandKey o st) { (s.timeReaches v).strand (strandKey o st) with
      since := ((s.timeReaches v).core (((s.timeReaches v).coreOf o).getD 0)).arb + 1 }) := by
  have htile : ownerIsTile o = false := decide_eq_false (Nat.not_lt.2 ho)
  show execWaittDeadline o st s = _
  simp only [execWaittDeadline, htile, Bool.false_eq_true, if_false, h]

theorem waittDeadline_stream {s : State} {o st v : Nat} {x : Stream} (ho : o < 288) (hx : (s.tile o).stream = some x)
    (h : x.wait = some (.deadline v)) : exec (.waittDeadline o st) s = .next (s.timeReaches v) := by
  have htile : ownerIsTile o = true := decide_eq_true ho
  show execWaittDeadline o st s = _
  simp only [execWaittDeadline, htile, if_true, hx, h]

theorem bar_setBar (x : Grove) (second : Bool) (n : Nat) (b : GroveBar) (side : Bool) (m : Nat) :
    (x.setBar second n b).bar side m = if side = second ∧ m = n then b else x.bar side m := by
  cases second <;> cases side <;> simp [Grove.setBar, Grove.bar, Tbl.getD_insert]

/-- A phase that has heard of the other die, once its own arrivals are compared with the live strands. -/
def GroveBar.settled (b : GroveBar) (live : Nat) : GroveBar :=
  if b.done = true ∨ b.arrivals = live then ⟨0, false, false, (b.gen + 1) % 2 ^ 32⟩ else { b with heard := true }

theorem settleGroveBar_heard {s : State} {g n : Nat} {second : Bool} {x : Grove} {b : GroveBar}
    (hx : Tbl.find? s.groves g = some (x.setBar second n { b with heard := true })) :
    s.settleGroveBar g n second = { s with groves := Tbl.insert s.groves g ((x.setBar second n { b with heard := true }).setBar second n
      (b.settled (s.groveLive g second))) } := by
  have hbar : (x.setBar second n { b with heard := true }).bar second n = { b with heard := true } := by
    rw [bar_setBar, if_pos ⟨rfl, rfl⟩]
  simp only [State.settleGroveBar, hx, hbar, GroveBar.settled, or_true, and_true]
  by_cases harr : b.arrivals = s.groveLive g second
  · simp [harr]
  · simp [harr]

theorem groveBarrierDone_due {s : State} {g n : Nat} {second : Bool} {x : Grove} (hx : Tbl.find? s.groves g = some x)
    (hdue : s.doneDue g n second = true) :
    ∃ t y, exec (.groveBarrierDoneMessage g n second) s = .next t ∧ Tbl.find? t.groves g = some y ∧ t = { s with groves := t.groves } ∧
      ∀ side m, y.bar side m = if side = second ∧ m = n then (x.bar second n).settled (s.groveLive g second) else x.bar side m := by
  have hexec : exec (.groveBarrierDoneMessage g n second) s = .next (State.settleGroveBar
      { s with groves := Tbl.insert s.groves g (x.setBar second n { x.bar second n with heard := true }) } g n second) := by
    show execGroveBarrierDoneMessage g n second s = _
    simp only [execGroveBarrierDoneMessage, hdue, if_true, hx]
  rw [settleGroveBar_heard (Tbl.find_insert_self ..)] at hexec
  refine ⟨_, _, hexec, Tbl.find_insert_self .., rfl, fun side m => ?_⟩
  rw [bar_setBar, bar_setBar]
  split
  · rfl
  · rfl

theorem groveBarrierDone_idle {s : State} {g n : Nat} {second : Bool} (h : s.doneDue g n second = false) :
    exec (.groveBarrierDoneMessage g n second) s = .next s := by
  show execGroveBarrierDoneMessage g n second s = _
  rw [execGroveBarrierDoneMessage, h]
  rfl

/-! ## Late errors of atomics (04 R120) -/

theorem remoteAtomicError_idle {s : State} {b st : Nat} {d : BitVec 6} {addr : BitVec 64}
    (h : s.strandLive b st = false ∨ (d.toNat, addr) ∉ (s.strand (strandKey b st)).remote) :
    exec (.remoteAtomicErrorResponse b st d addr) s = .next s := by
  have hidle : ¬(s.strandLive b st && (s.strand (strandKey b st)).remote.contains (d.toNat, addr)) = true := by
    rw [Bool.and_eq_true, List.contains_iff_mem]
    rintro ⟨hlive, hin⟩
    rcases h with h | h
    · rw [h] at hlive; cases hlive
    · exact h hin
  show execRemoteAtomicErrorResponse b st d addr s = _
  rw [execRemoteAtomicErrorResponse, if_neg hidle]

/-- The poison that a late error leaves, and the requests that still await a response. -/
def State.poisonLate (s : State) (b st : Nat) (d : BitVec 6) (addr : BitVec 64) : BitVec 3 × State :=
  let i := strandKey b st
  let r := s.newOrigin b ⟨BitVec.ofNat 8 causeRemoteAtomic, addr, false, 0, BitVec.ofNat 8 st⟩
  let t := r.2.setV i d.toNat ⟨0, some r.1⟩
  (r.1, t.setStrand i { t.strand i with remote := (t.strand i).remote.filter (fun e => e.1 != d.toNat) })

theorem remoteAtomicError_due {s : State} {b st : Nat} {d : BitVec 6} {addr : BitVec 64} (hlive : s.strandLive b st = true)
    (hin : (d.toNat, addr) ∈ (s.strand (strandKey b st)).remote) :
    exec (.remoteAtomicErrorResponse b st d addr) s =
      .next ((s.poisonLate b st d addr).2.log ⟨s.time, addr.toNat, 5, s.dieOf b, s.unitOf b, s.ownerCtx b⟩) := by
  have hdue : (s.strandLive b st && (s.strand (strandKey b st)).remote.contains (d.toNat, addr)) = true := by
    rw [hlive, List.contains_iff_mem.2 hin]
    rfl
  show execRemoteAtomicErrorResponse b st d addr s = _
  rw [execRemoteAtomicErrorResponse, if_pos hdue]
  rfl

theorem getV_poisonLate (s : State) (b st : Nat) (d : BitVec 6) (addr : BitVec 64) (i n : Nat) :
    (s.poisonLate b st d addr).2.getV i n =
      if i = strandKey b st ∧ n = d.toNat then ⟨0, some (s.poisonLate b st d addr).1⟩ else s.getV i n := by
  have hkeep (t : State) (j : Nat) (rs : List (Nat × Dword)) : (t.setStrand j { t.strand j with remote := rs }).getV i n = t.getV i n := by
    rw [State.getV, State.strand_setStrand]
    split
    · subst_vars; rfl
    · rfl
  refine (hkeep ..).trans ?_
  rw [State.getV_setV]
  rfl

theorem originAt_poisonLate (s : State) (b st : Nat) (d : BitVec 6) (addr : BitVec 64) :
    (s.poisonLate b st d addr).2.originAt b (s.poisonLate b st d addr).1 = ⟨0x39, addr, false, 0, BitVec.ofNat 8 st⟩ := by
  have howner : (s.poisonLate b st d addr).2.owner b = (s.newOrigin b ⟨0x39, addr, false, 0, BitVec.ofNat 8 st⟩).2.owner b := rfl
  rw [State.originAt, howner, State.newOrigin]
  dsimp only
  rw [State.owner_setOwner, if_pos rfl, Tbl.getD_insert]
  exact if_pos rfl

theorem log_getLast (s : State) (e : LogEvent) : ∃ x, (s.log e).errLog.getLast? = some x ∧ x.event = e :=
  ⟨_, List.getLast?_concat, rfl⟩

theorem getV_log (s : State) (e : LogEvent) (i n : Nat) : (s.log e).getV i n = s.getV i n := rfl
theorem originAt_log (s : State) (e : LogEvent) (b : Nat) (k : BitVec 3) : (s.log e).originAt b k = s.originAt b k := rfl
theorem byte_log (s : State) (e : LogEvent) (pa : Nat) : (s.log e).byte pa = s.byte pa := rfl
theorem byte_poisonLate (s : State) (b st : Nat) (d : BitVec 6) (addr : BitVec 64) (pa : Nat) :
    (s.poisonLate b st d addr).2.byte pa = s.byte pa := rfl

theorem waitsAndPages : WaitsAndPages := by
  refine ⟨fun s o st v => ⟨fun ho h => ?_, fun x ho hx h => waittDeadline_stream ho hx h⟩,
    fun s g n second x hx => ⟨groveBarrierDone_idle, fun hdue => ?_⟩,
    fun s c va => ⟨pageBacking_other, pageMigration_other, fun e a b hwalk => pageMigration_tagged hwalk,
      fun e a b f rest hframes hlow hcfn => ⟨fun hwalk => ?_, fun hwalk htag happart => ?_⟩⟩,
    fun s b st d addr => ⟨remoteAtomicError_idle, fun hlive hin => ?_⟩⟩
  · refine ⟨_, waittDeadline_strand ho h, rfl, ?_, ?_, fun i hi => ?_, rfl⟩
    · rw [State.strand_setStrand, if_pos rfl]
      exact Nat.succ_ne_zero _
    · rw [State.strand_setStrand, if_pos rfl]
      rfl
    · rw [State.strand_setStrand, if_neg hi]
      rfl
  · obtain ⟨t, y, hexec, hy, ht, hbar⟩ := groveBarrierDone_due hx hdue
    refine ⟨t, y, hexec, hy, ht, ?_, fun m hm => ?_, fun m => ?_⟩
    · exact (hbar second n).trans (if_pos ⟨rfl, rfl⟩)
    · exact (hbar second m).trans (if_neg fun e => hm e.2)
    · exact (hbar (!second) m).trans (if_neg fun e => by cases second <;> cases e.1)
  · refine ⟨_, pageBacking_reserved hwalk (backPage_small hframes hlow hcfn), ?_, fun pa => ?_⟩
    · rw [writeLE_smallPool, zeroMem_smallPool]
      rfl
    · rw [State.byte_writeLE, byte_zeroMem]
      rfl
  · refine ⟨_, pageMigration_held hwalk htag (migratePage_small hframes hlow hcfn), ?_, fun hwf pa => ?_⟩
    · rw [writeLE_smallPool, copyMem_smallPool, zeroMem_smallPool]
      rfl
    · have hwf' : Memory.wf (s.frameTaken rest).mem := hwf
      rw [State.byte_writeLE, byte_copyMem (zeroMem_wf hwf' ..), byte_zeroMem, byte_zeroMem]
      by_cases hentry : e ≤ pa ∧ pa < e + 8
      · rw [if_pos hentry, if_pos hentry]
      · rw [if_neg hentry, if_neg hentry]
        by_cases hin : f * 65536 ≤ pa ∧ pa < f * 65536 + 65536
        · rw [if_pos hin, if_pos hin, if_neg (heldAt_apart happart (by omega))]
          rfl
        · rw [if_neg hin, if_neg hin, if_neg hin]
          rfl
  · obtain ⟨x, hx, hevent⟩ := log_getLast (s.poisonLate b st d addr).2 ⟨s.time, addr.toNat, 5, s.dieOf b, s.unitOf b, s.ownerCtx b⟩
    refine ⟨_, (s.poisonLate b st d addr).1, remoteAtomicError_due hlive hin, ?_, ?_, fun i n hin => ?_, ⟨x, hx, ?_, ?_⟩, fun pa => ?_⟩
    · rw [getV_log, getV_poisonLate, if_pos ⟨rfl, rfl⟩]
    · rw [originAt_log, originAt_poisonLate]
    · rw [getV_log, getV_poisonLate, if_neg hin]
    · rw [hevent]
    · rw [hevent]
    · rw [byte_log, byte_poisonLate]

end Sys2Proof.Machine

namespace Sys2Proof

open Sys2Proof.Machine Sys2Proof.Claims

/-- Settles O47: what a core chooses to run, and what deadlines, pages and late errors leave. -/
theorem schedulingAndPages : Obligations.SchedulingAndPages := ⟨coresChoose, waitsAndPages⟩

end Sys2Proof

namespace Sys2Proof.Machine

open Sys2Proof.Claims
open Host (Outcome)

/-! ## The values of the integer lane instructions (04 R95) -/

theorem laneShift_eq_low5 (y : Word) : laneShift y = low5 y := by simp [laneShift, low5]
theorem laneFieldLo_eq_low5 (y : Word) : laneFieldLo y = low5 y := laneShift_eq_low5 y
theorem laneFieldWidth_eq (y : Word) : laneFieldWidth y = laneWidthOf y := by
  simp [laneFieldWidth, laneWidthOf, Nat.shiftRight_eq_div_pow]

theorem clampBits_eq_laneConfined (isSigned : Bool) (x : Int) :
    clampBits isSigned 32 x = laneConfined (intLo isSigned 32) (intHi isSigned 32) x := by
  have hle : intLo isSigned 32 ≤ intHi isSigned 32 := by cases isSigned <;> decide
  unfold clampBits laneConfined clampInt
  congr 1
  split
  · omega
  · split <;> omega

/-- The high half of a 64-bit product whose factors are the sign-extended operands. -/
theorem laneMulHigh_signed (x y : Word) : laneMulHigh true x y = BitVec.ofInt 32 (x.toInt * y.toInt / 2 ^ 32) := by
  have hprod : ((x.signExtend 64 * y.signExtend 64).toNat : Int) = (x.toInt * y.toInt) % ((2 ^ 64 : Nat) : Int) := by
    rw [← toInt_emod_two_pow, BitVec.toInt_mul, Int.bmod_emod, BitVec.toInt_signExtend_of_le (by decide),
      BitVec.toInt_signExtend_of_le (by decide)]
  apply BitVec.eq_of_toNat_eq
  rw [laneMulHigh, if_pos rfl, BitVec.extractLsb'_toNat, BitVec.toNat_ofInt, Nat.shiftRight_eq_div_pow]
  omega

theorem laneMulHigh_unsigned (x y : Word) : laneMulHigh false x y = BitVec.ofNat 32 (x.toNat * y.toNat / 2 ^ 32) := by
  have hlt : x.toNat * y.toNat < 2 ^ 64 := by
    calc x.toNat * y.toNat < 2 ^ 32 * 2 ^ 32 := Nat.mul_lt_mul'' x.isLt y.isLt
      _ = 2 ^ 64 := by norm_num
  apply BitVec.eq_of_toNat_eq
  rw [laneMulHigh, if_neg (by decide), BitVec.extractLsb'_toNat, BitVec.toNat_mul, BitVec.toNat_setWidth_of_le (by decide),
    BitVec.toNat_setWidth_of_le (by decide), Nat.mod_eq_of_lt hlt, Nat.shiftRight_eq_div_pow, BitVec.toNat_ofNat]

/-- An insertion replaces the positions of its mask, at any width. -/
theorem getLsbD_bitInsert {w : Nat} (z x : BitVec w) (lo width i : Nat) (hi : i < w) :
    (bitInsert z x lo width).getLsbD i = if lo ≤ i ∧ i < lo + width then x.getLsbD (i - lo) else z.getLsbD i := by
  have hmask : (BitVec.ofNat w ((2 ^ width - 1) * 2 ^ lo)).getLsbD i = decide (lo ≤ i ∧ i < lo + width) := by
    rw [BitVec.getLsbD_ofNat, Nat.testBit_mul_two_pow, Nat.testBit_two_pow_sub_one, Bool.eq_iff_iff]
    simp only [Bool.and_eq_true, decide_eq_true_eq]
    omega
  rw [bitInsert, BitVec.getLsbD_or, BitVec.getLsbD_and, BitVec.getLsbD_and, BitVec.getLsbD_not, BitVec.getLsbD_shiftLeft, hmask]
  by_cases h : lo ≤ i ∧ i < lo + width
  · have hge : ¬ i < lo := by omega
    simp [h, hi, hge]
  · simp [h, hi]

theorem bitInsert_eq_laneInserted (z x : Word) (lo width : Nat) : bitInsert z x lo width = laneInserted z x lo width :=
  BitVec.eq_of_getLsbD_eq fun i hi => by
    rw [getLsbD_bitInsert z x lo width i hi, laneInserted, BitVec.getLsbD_ofFnLE]
    simp [hi]

/-- The four products of IDOT4 in the order of their bytes. -/
theorem sum_range_four (f : Nat → Int) : ((List.range 4).map f).sum = (f 0 + f 1) + (f 2 + f 3) := by
  simp [List.range_succ]
  omega

theorem laneDot4_signed (sat : Bool) (x y z : Word) : laneDot4 true sat x y z =
    if sat then clampBits true 32 (z.toInt + dotSigned x y) else BitVec.ofInt 32 (z.toInt + dotSigned x y) := by
  unfold laneDot4
  rw [sum_range_four]
  rfl

theorem laneDot4_unsigned (sat : Bool) (x y z : Word) : laneDot4 false sat x y z =
    if sat then clampBits false 32 (z.toNat + dotUnsigned x y : Nat) else BitVec.ofNat 32 (z.toNat + dotUnsigned x y) := by
  unfold laneDot4
  rw [sum_range_four, ← BitVec.ofInt_natCast]
  rfl

/-! ### Each instruction is its operand form with the rule's value -/

theorem exec_laneOne (s : State) (g : Guard) (d a : BitVec 6) (imm : BitVec 32) :
    ∀ p ∈ laneOne g d a imm, exec p.1 s = .next (lane1 g s d a p.2) := by
  simp only [laneOne, List.forall_mem_cons, List.not_mem_nil, false_imp_iff, implies_true, and_true]
  refine ⟨rfl, ?ipopc, ?iclz, rfl⟩
  case ipopc => exact congrArg (fun f => Outcome.next (lane1 g s d a f)) (funext fun x => congrArg _ (popVal_eq_countP x))
  case iclz => exact congrArg (fun f => Outcome.next (lane1 g s d a f)) (funext fun x => congrArg _ (clzVal_eq_find x))

/-- Two lane forms with the same values have the same effect. -/
theorem next_lane2_congr (s : State) (g : Guard) (d a b : BitVec 6) {f k : Word → Word → Word} (h : ∀ x y, f x y = k x y) :
    (Outcome.next (lane2 g s d a b f) : Outcome State Fault Refusal) = .next (lane2 g s d a b k) := by
  rw [funext fun x => funext (h x)]

theorem exec_laneTwo (s : State) (g : Guard) (d a b : BitVec 6) :
    ∀ p ∈ laneTwo g d a b, exec p.1 s = .next (lane2 g s d a b p.2) := by
  simp only [laneTwo, List.forall_mem_cons, List.not_mem_nil, false_imp_iff, implies_true, and_true]
  refine ⟨rfl, ?iaddS, rfl, ?isubS, rfl, ?imulhI, ?imulhN, ?iminI, ?iminN, ?imaxI, ?imaxN, rfl, rfl, rfl, ?ishl, ?ishrI, ?ishrN,
    ?ibfxI, ?ibfxN⟩
  case iaddS => exact next_lane2_congr s g d a b fun x y => clampBits_eq_laneConfined true _
  case isubS => exact next_lane2_congr s g d a b fun x y => clampBits_eq_laneConfined true _
  case imulhI => exact next_lane2_congr s g d a b laneMulHigh_signed
  case imulhN => exact next_lane2_congr s g d a b laneMulHigh_unsigned
  case iminI => exact next_lane2_congr s g d a b pickMin_signed
  case iminN => exact next_lane2_congr s g d a b pickMin_unsigned
  case imaxI => exact next_lane2_congr s g d a b pickMax_signed
  case imaxN => exact next_lane2_congr s g d a b pickMax_unsigned
  case ishl => exact next_lane2_congr s g d a b fun x y => by rw [laneShift_eq_low5]
  case ishrI => exact next_lane2_congr s g d a b fun x y => by rw [laneShift_eq_low5, sshiftRight_eq_div]
  case ishrN => exact next_lane2_congr s g d a b fun x y => by rw [laneShift_eq_low5, ushiftRight_eq_div]
  case ibfxI => exact next_lane2_congr s g d a b (by
      intro x y
      rw [laneFieldLo_eq_low5, laneFieldWidth_eq, bitField_signed _ _ (laneWidthOf y) (Nat.succ_pos _)]; rfl)
  case ibfxN => exact next_lane2_congr s g d a b fun x y => by rw [laneFieldLo_eq_low5, laneFieldWidth_eq, bitField_unsigned]

/-- Two lane forms that read v(d) as well, with the same values, have the same effect. -/
theorem next_lane3_congr (s : State) (g : Guard) (d a b : BitVec 6) {f k : Word → Word → Word → Word}
    (h : ∀ x y z, f x y z = k x y z) :
    (Outcome.next (lane3 g s d a b f) : Outcome State Fault Refusal) = .next (lane3 g s d a b k) := by
  rw [funext fun x => funext fun y => funext (h x y)]

theorem exec_laneThree (s : State) (g : Guard) (d a b : BitVec 6) :
    ∀ p ∈ laneThree g d a b, exec p.1 s = .next (lane3 g s d a b p.2) := by
  simp only [laneThree, List.forall_mem_cons, List.not_mem_nil, false_imp_iff, implies_true, and_true]
  refine ⟨rfl, ?ibfi, rfl, ?dotI, ?dotIS, ?dotN, ?dotNS⟩
  case ibfi => exact next_lane3_congr s g d a b fun x y z => by rw [laneFieldLo_eq_low5, laneFieldWidth_eq, bitInsert_eq_laneInserted]
  case dotI => exact next_lane3_congr s g d a b (laneDot4_signed false)
  case dotIS => exact next_lane3_congr s g d a b fun x y z => (laneDot4_signed true x y z).trans (clampBits_eq_laneConfined true _)
  case dotN => exact next_lane3_congr s g d a b (laneDot4_unsigned false)
  case dotNS => exact next_lane3_congr s g d a b fun x y z => (laneDot4_unsigned true x y z).trans (clampBits_eq_laneConfined false _)

end Sys2Proof.Machine

namespace Sys2Proof
open Sys2Proof.Machine Sys2Proof.Claims

/-- Settles O2: each operand form writes what its instruction's value function gives, and those functions are the rules'. -/
theorem laneIntegers : Obligations.LaneIntegers := by
  intro s g d a b imm hn
  refine ⟨⟨_, rfl, lane0_spec g s d imm hn⟩, fun p hp => ?one, fun p hp => ?two, fun p hp => ?three⟩
  case one => exact ⟨_, exec_laneOne s g d a imm p hp, lane1_spec g s d a _ hn⟩
  case two => exact ⟨_, exec_laneTwo s g d a b p hp, lane2_spec g s d a b _ hn⟩
  case three => exact ⟨_, exec_laneThree s g d a b p hp, lane3_spec g s d a b _ hn⟩

end Sys2Proof

namespace Sys2Proof.Machine

open Sys2Proof.Claims
open Host (Outcome)

/-! ## One floating result: a lane register and the flags of its bundle (02 R40, 04 R94) -/

/-- A floating result is its tagged value in the register and its flags in the bundle's ACR. -/
theorem State.setFloat_eq (s : State) (i : Nat) (d : BitVec 6) (p : Option (BitVec 3)) (r : FResult) :
    s.setFloat i d p r = (s.setV i d.toNat (floatValue p r)).raiseOf i (floatFlags p r) := by
  cases p <;> rfl

theorem State.getV_setFloat (s : State) (i : Nat) (d : BitVec 6) (p : Option (BitVec 3)) (r : FResult) (j n : Nat) :
    (s.setFloat i d p r).getV j n = if j = i ∧ n = d.toNat then floatValue p r else s.getV j n := by
  rw [State.setFloat_eq, State.getV_raiseOf, State.getV_setV]

/-- A floating result leaves the controls that a strand computes under (02 R40). -/
theorem State.setFloat_controls (s : State) (i : Nat) (d : BitVec 6) (p : Option (BitVec 3)) (r : FResult) (j : Nat) :
    (s.setFloat i d p r).modeOf j = s.modeOf j ∧ (s.setFloat i d p r).fzOf j = s.fzOf j ∧
      acrOfs ((s.setFloat i d p r).acr (strandBundle j)) = acrOfs (s.acr (strandBundle j)) := by
  have hacr : ∃ f : FFlags, (s.setFloat i d p r).acr (strandBundle j) = s.acr (strandBundle j) ||| BitVec.ofNat 64 f.toNat :=
    ⟨_, by rw [State.setFloat_eq, State.raiseOf, State.acr, State.owner_raise]; rfl⟩
  obtain ⟨f, hf⟩ := hacr
  rw [State.modeOf, State.fzOf, hf]
  exact acr_bits_or_flags _ f

theorem FFlags.or_assoc (x y z : FFlags) : (x.or y).or z = x.or (y.or z) := by
  simp [FFlags.or, Bool.or_assoc]
theorem FFlags.none_or (x : FFlags) : FFlags.none.or x = x := by
  simp [FFlags.or, FFlags.none]
theorem FFlags.or_none (x : FFlags) : x.or FFlags.none = x := by
  simp [FFlags.or, FFlags.none]

theorem foldl_flags_start (is : List Nat) (f : Nat → FFlags) (o : Nat) (x : FFlags) :
    is.foldl (fun x i => if strandBundle i = o then x.or (f i) else x) x = x.or (flagsOf is f o) := by
  induction is generalizing x with
  | nil => exact (FFlags.or_none x).symm
  | cons i is ih =>
    have hcons : flagsOf (i :: is) f o = (if strandBundle i = o then FFlags.none.or (f i) else FFlags.none).or (flagsOf is f o) := ih _
    rw [hcons, List.foldl_cons, ih]
    split
    · rw [FFlags.none_or, FFlags.or_assoc]
    · rw [FFlags.none_or]

/-- The flags of a bundle are those of the first strand, where it is of the bundle, with those of the others. -/
theorem flagsOf_cons (i : Nat) (is : List Nat) (f : Nat → FFlags) (o : Nat) :
    flagsOf (i :: is) f o = (if strandBundle i = o then f i else FFlags.none).or (flagsOf is f o) := by
  rw [flagsOf, List.foldl_cons, foldl_flags_start, FFlags.none_or]

theorem flagsOf_single (i : Nat) (f : Nat → FFlags) (o : Nat) :
    flagsOf [i] f o = if strandBundle i = o then f i else FFlags.none := by
  rw [flagsOf_cons]
  exact FFlags.or_none _

theorem flagsOf_congr {is : List Nat} {f k : Nat → FFlags} (h : ∀ i ∈ is, f i = k i) : flagsOf is f = flagsOf is k := by
  funext o
  exact List.foldl_ext _ _ _ fun x i hi => by rw [h i hi]

/-! ### Frames -/

theorem FloatFrame.refl (s : State) (d : Nat) (f : Nat → FFlags) : FloatFrame s s [] d (flagsOf [] f) where
  rest := rfl
  strand _ := rfl
  reg _ _ _ := rfl
  owner o := by simp [flagsOf, FFlags.toNat_none]
  byte _ := rfl

theorem FloatFrame.trans {s t u : State} {is js ks : List Nat} {d : Nat} {f k l : Nat → FFlags} (h : FloatFrame s t is d f)
    (h' : FloatFrame t u js d k) (hi : ∀ i ∈ is, i ∈ ks) (hj : ∀ i ∈ js, i ∈ ks) (hl : ∀ o, l o = (f o).or (k o)) :
    FloatFrame s u ks d l where
  rest := by rw [h'.rest, h.rest]
  strand i := by rw [h'.strand i, h.strand i]
  reg i n hne := by
    rw [h'.reg i n (fun e => hne ⟨hj i e.1, e.2⟩), h.reg i n (fun e => hne ⟨hi i e.1, e.2⟩)]
  owner o := by
    rw [h'.owner o, h.owner o]
    simp only [hl, FFlags.toNat_or, ← BitVec.or_assoc, Option.map_map]
    rfl
  byte a := (h'.byte a).trans (h.byte a)

theorem setV_raiseOf_frame (s : State) (i n : Nat) (x : Tagged 32) (f : FFlags) :
    FloatFrame s ((s.setV i n x).raiseOf i f) [i] n (flagsOf [i] fun _ => f) where
  rest := by rw [State.raiseOf_rest]; rfl
  strand j := by
    rw [State.strand_raiseOf]
    exact (s.setV_frame i n x).strand j
  reg j m hne := by
    rw [State.getV_raiseOf]
    exact (s.setV_frame i n x).reg j m hne
  owner o := by
    rw [flagsOf_single, State.raiseOf, State.owner_raise]
    rfl
  byte a := by rw [State.byte_raiseOf]; rfl

theorem State.setFloat_frame (s : State) (i : Nat) (d : BitVec 6) (p : Option (BitVec 3)) (r : FResult) :
    FloatFrame s (s.setFloat i d p r) [i] d.toNat (flagsOf [i] fun _ => floatFlags p r) := by
  rw [State.setFloat_eq]
  exact setV_raiseOf_frame ..

/-! ## A floating result in each guarded strand -/

/-- Each strand receives its own result, computed from what the state held before any write, and the flags of all join in their
bundles. -/
theorem foldl_setFloat (d : BitVec 6) (p : Nat → State → Option (BitVec 3)) (r : Nat → State → FResult)
    (hf : ∀ i j s q x, j ≠ i → p i (s.setFloat j d q x) = p i s ∧ r i (s.setFloat j d q x) = r i s) (is : List Nat)
    (hn : is.Nodup) (s : State) :
    let t := is.foldl (fun u i => u.setFloat i d (p i u) (r i u)) s
    (∀ i ∈ is, t.laneV i d = floatValue (p i s) (r i s)) ∧
      FloatFrame s t is d.toNat (flagsOf is fun i => floatFlags (p i s) (r i s)) := by
  induction is generalizing s with
  | nil => exact ⟨fun o h => by simp at h, FloatFrame.refl ..⟩
  | cons i is ih =>
    obtain ⟨hi, hn⟩ := List.nodup_cons.1 hn
    obtain ⟨hv, hr⟩ := ih hn (s.setFloat i d (p i s) (r i s))
    have hsame : ∀ j ∈ is, p j (s.setFloat i d (p i s) (r i s)) = p j s ∧ r j (s.setFloat i d (p i s) (r i s)) = r j s :=
      fun j hj => hf j i s _ _ fun e => hi (e ▸ hj)
    refine ⟨fun j hj => ?_, (s.setFloat_frame i d _ _).trans hr (by simp) (fun j hj => by simp [hj]) fun o => ?_⟩
    · rw [List.foldl_cons]
      rcases List.mem_cons.1 hj with rfl | hj
      · exact (hr.reg j d.toNat (fun e => hi e.1)).trans ((State.getV_setFloat ..).trans (if_pos ⟨rfl, rfl⟩))
      · rw [hv j hj, (hsame j hj).1, (hsame j hj).2]
    · rw [flagsOf_cons, flagsOf_single]
      congr 1
      exact congrFun (flagsOf_congr fun j hj => by rw [(hsame j hj).1, (hsame j hj).2]) o

/-- What a floating form writes and leaves: each strand's result, of its own sources and its bundle's controls. -/
def FloatSpec (s t : State) (g : Guard) (d : BitVec 6) (p : Nat → Option (BitVec 3)) (r : Nat → FResult) : Prop :=
  (∀ i ∈ actingStrands s g, t.laneV i d = floatValue (p i) (r i)) ∧
    FloatFrame s t (actingStrands s g) d.toNat (flagsOf (actingStrands s g) fun i => floatFlags (p i) (r i))

theorem State.laneV_setFloat_ne (s : State) {i j : Nat} (h : j ≠ i) (d e : BitVec 6) (p : Option (BitVec 3)) (r : FResult) :
    (s.setFloat j d p r).laneV i e = s.laneV i e :=
  (State.getV_setFloat ..).trans (if_neg fun k => h k.1.symm)

section
variable (s : State) (g : Guard) (d a b : BitVec 6) (hn : (actingStrands s g).Nodup)
include hn

/-- What `laneF1` writes and leaves. -/
theorem laneF1_spec (f : FMode → Bool → Nat → FResult) : FloatSpec s (laneF1 g s d a f) g d (fun i => (s.laneV i a).poison)
    fun i => f (s.modeOf i) (s.fzOf i) (s.laneV i a).val.toNat :=
  foldl_setFloat d (fun i u => (u.laneV i a).poison) (fun i u => f (u.modeOf i) (u.fzOf i) (u.laneV i a).val.toNat)
    (fun i j u q x h => by
      obtain ⟨hm, hz, _⟩ := u.setFloat_controls j d q x i
      rw [hm, hz, u.laneV_setFloat_ne h]
      exact ⟨rfl, rfl⟩) _ hn s

/-- What `laneF2` writes and leaves. -/
theorem laneF2_spec (f : FMode → Bool → Nat → Nat → FResult) : FloatSpec s (laneF2 g s d a b f) g d
    (fun i => (s.laneV i a).poison.or (s.laneV i b).poison)
    fun i => f (s.modeOf i) (s.fzOf i) (s.laneV i a).val.toNat (s.laneV i b).val.toNat :=
  foldl_setFloat d (fun i u => (u.laneV i a).poison.or (u.laneV i b).poison)
    (fun i u => f (u.modeOf i) (u.fzOf i) (u.laneV i a).val.toNat (u.laneV i b).val.toNat)
    (fun i j u q x h => by
      obtain ⟨hm, hz, _⟩ := u.setFloat_controls j d q x i
      rw [hm, hz, u.laneV_setFloat_ne h, u.laneV_setFloat_ne h]
      exact ⟨rfl, rfl⟩) _ hn s

/-- What `laneF3` writes and leaves. -/
theorem laneF3_spec (f : FMode → Bool → Nat → Nat → Nat → FResult) : FloatSpec s (laneF3 g s d a b f) g d
    (fun i => ((s.laneV i a).poison.or (s.laneV i b).poison).or (s.laneV i d).poison)
    fun i => f (s.modeOf i) (s.fzOf i) (s.laneV i a).val.toNat (s.laneV i b).val.toNat (s.laneV i d).val.toNat :=
  foldl_setFloat d (fun i u => ((u.laneV i a).poison.or (u.laneV i b).poison).or (u.laneV i d).poison)
    (fun i u => f (u.modeOf i) (u.fzOf i) (u.laneV i a).val.toNat (u.laneV i b).val.toNat (u.laneV i d).val.toNat)
    (fun i j u q x h => by
      obtain ⟨hm, hz, _⟩ := u.setFloat_controls j d q x i
      rw [hm, hz, u.laneV_setFloat_ne h, u.laneV_setFloat_ne h, u.laneV_setFloat_ne h]
      exact ⟨rfl, rfl⟩) _ hn s

/-- What `laneNarrow` writes and leaves. -/
theorem laneNarrow_spec (f : FFmt) (k : Nat) : FloatSpec s (laneNarrow g s d a f k) g d
    (fun i => (s.laneV i a).poison.or (s.laneV i d).poison)
    fun i => narrow8 f k (s.fzOf i) (acrOfs (s.acr (strandBundle i))) (s.laneV i a).val.toNat (s.laneV i d).val.toNat :=
  foldl_setFloat d (fun i u => (u.laneV i a).poison.or (u.laneV i d).poison)
    (fun i u => narrow8 f k (u.fzOf i) (acrOfs (u.acr (strandBundle i))) (u.laneV i a).val.toNat (u.laneV i d).val.toNat)
    (fun i j u q x h => by
      obtain ⟨_, hz, ho⟩ := u.setFloat_controls j d q x i
      rw [hz, ho, u.laneV_setFloat_ne h, u.laneV_setFloat_ne h]
      exact ⟨rfl, rfl⟩) _ hn s

end

/-- Forms with the same poison and results in the acting strands write and leave the same. -/
theorem FloatSpec.congr {s t : State} {g : Guard} {d : BitVec 6} {p : Nat → Option (BitVec 3)} {r r' : Nat → FResult}
    (h : FloatSpec s t g d p r) (hr : ∀ i ∈ actingStrands s g, r i = r' i) : FloatSpec s t g d p r' := by
  obtain ⟨hv, hframe⟩ := h
  refine ⟨fun i hi => by rw [hv i hi, hr i hi], ?_⟩
  rw [flagsOf_congr (k := fun i => floatFlags (p i) (r' i)) fun i hi => by rw [hr i hi]] at hframe
  exact hframe

/-! ## The values of the floating lane instructions (04 R97-R99) -/

theorem modeOperand_eq (b : BitVec 3) (r : FMode) : modeOperand b.toNat r = if b = 4 then r else modeOfNat b.toNat := by
  have hfour : b.toNat = 4 ↔ b = 4 := ⟨fun h => BitVec.eq_of_toNat_eq h, fun h => by subst h; rfl⟩
  simp only [modeOperand, hfour]

theorem intVal_signed (x : Nat) : intVal true 32 x = (BitVec.ofNat 32 x).toInt := by
  rw [BitVec.toInt_eq_toNat_cond, BitVec.toNat_ofNat, intVal]
  simp only [Bool.true_and, decide_eq_true_eq]
  split <;> split <;> omega

theorem intCode_eq (x : Int) : intCode 32 x = (BitVec.ofInt 32 x).toNat := (BitVec.toNat_ofInt x).symm

theorem pairHigh_eq_elem {x : Nat} (hx : x < 2 ^ 32) : pairHigh x = elem 1 x := by
  rw [pairHigh, elem]
  omega
theorem pairLow_eq_elem (x : Nat) : pairLow x = elem 0 x := by simp [pairLow, elem]

/-- The element that a widening reads, chosen by its bit. -/
theorem pairElem_eq {x : Nat} (hi : Bool) (hx : x < 2 ^ 32) : (if hi then pairHigh x else pairLow x) = elem hi.toNat x := by
  cases hi
  · exact pairLow_eq_elem x
  · exact pairHigh_eq_elem hx

theorem pair2_eq (f : Nat → Nat → FResult) {x y : Nat} (hx : x < 2 ^ 32) (hy : y < 2 ^ 32) :
    pair2 f x y = joined (f (elem 0 x) (elem 0 y)) (f (elem 1 x) (elem 1 y)) := by
  rw [pair2, pairLow_eq_elem, pairLow_eq_elem, pairHigh_eq_elem hx, pairHigh_eq_elem hy]; rfl

theorem pair3_eq (f : Nat → Nat → Nat → FResult) {x y z : Nat} (hx : x < 2 ^ 32) (hy : y < 2 ^ 32) (hz : z < 2 ^ 32) :
    pair3 f x y z = joined (f (elem 0 x) (elem 0 y) (elem 0 z)) (f (elem 1 x) (elem 1 y) (elem 1 z)) := by
  rw [pair3, pairLow_eq_elem, pairLow_eq_elem, pairLow_eq_elem, pairHigh_eq_elem hx, pairHigh_eq_elem hy, pairHigh_eq_elem hz]; rfl

/-! ### Each instruction is a form whose values are the rule's, on the words that registers hold -/

theorem exec_floatOne (s : State) (g : Guard) (d a : BitVec 6) (b : BitVec 3) (k : BitVec 2) (hi : Bool) :
    ∀ p ∈ floatOne g d a b k hi, ∃ f, exec p.1 s = .next (laneF1 g s d a f) ∧ ∀ md fz x, x < 2 ^ 32 → f md fz x = p.2 md fz x := by
  simp only [floatOne, List.forall_mem_cons, List.not_mem_nil, false_imp_iff, implies_true, and_true]
  refine ⟨⟨_, rfl, fun md fz x _ => ?frnd⟩, ⟨_, rfl, fun _ _ _ _ => rfl⟩, ⟨_, rfl, fun _ _ _ _ => rfl⟩, ⟨_, rfl, fun _ _ _ _ => rfl⟩,
    ⟨_, rfl, fun _ _ _ _ => rfl⟩, ⟨_, rfl, fun _ _ _ _ => rfl⟩, ⟨_, rfl, fun _ _ _ _ => rfl⟩, ⟨_, rfl, fun _ _ _ _ => rfl⟩,
    ⟨_, rfl, fun md fz x _ => ?ofI32⟩, ⟨_, rfl, fun _ _ _ _ => rfl⟩, ⟨_, rfl, fun md fz x _ => ?toI32⟩,
    ⟨_, rfl, fun md fz x _ => ?toN32⟩, ⟨_, rfl, fun md fz x hx => ?ofH2⟩, ⟨_, rfl, fun md fz x hx => ?ofB2⟩,
    ⟨_, rfl, fun _ _ _ _ => rfl⟩, ⟨_, rfl, fun _ _ _ _ => rfl⟩⟩
  case frnd => rw [modeOperand_eq]
  case ofI32 => rw [intToF32, intVal_signed]
  case toI32 => simp only [f32ToInt, modeOperand_eq, intCode_eq]
  case toN32 => simp only [f32ToInt, modeOperand_eq, intCode_eq]
  case ofH2 => rw [widen16, pairElem_eq hi hx]
  case ofB2 => rw [widen16, pairElem_eq hi hx]

theorem exec_floatTwo (s : State) (g : Guard) (d a b : BitVec 6) (m : Bool) :
    ∀ p ∈ floatTwo g d a b m, ∃ f, exec p.1 s = .next (laneF2 g s d a b f) ∧
      ∀ md fz x y, x < 2 ^ 32 → y < 2 ^ 32 → f md fz x y = p.2 md fz x y := by
  simp only [floatTwo, List.forall_mem_cons, List.not_mem_nil, false_imp_iff, implies_true, and_true]
  exact ⟨⟨_, rfl, fun _ _ _ _ _ _ => rfl⟩, ⟨_, rfl, fun _ _ _ _ _ _ => rfl⟩, ⟨_, rfl, fun _ _ _ _ _ _ => rfl⟩,
    ⟨_, rfl, fun _ _ _ _ _ _ => rfl⟩, ⟨_, rfl, fun _ _ _ _ => pair2_eq _⟩, ⟨_, rfl, fun _ _ _ _ => pair2_eq _⟩,
    ⟨_, rfl, fun _ _ _ _ => pair2_eq _⟩, ⟨_, rfl, fun _ _ _ _ => pair2_eq _⟩, ⟨_, rfl, fun _ _ _ _ _ _ => rfl⟩,
    ⟨_, rfl, fun _ _ _ _ _ _ => rfl⟩⟩

theorem exec_floatThree (s : State) (g : Guard) (d a b : BitVec 6) :
    ∀ p ∈ floatThree g d a b, ∃ f, exec p.1 s = .next (laneF3 g s d a b f) ∧
      ∀ md fz x y z, x < 2 ^ 32 → y < 2 ^ 32 → z < 2 ^ 32 → f md fz x y z = p.2 md fz x y z := by
  simp only [floatThree, List.forall_mem_cons, List.not_mem_nil, false_imp_iff, implies_true, and_true]
  exact ⟨⟨_, rfl, fun _ _ _ _ _ _ _ _ => rfl⟩, ⟨_, rfl, fun _ _ _ _ _ => pair3_eq _⟩, ⟨_, rfl, fun _ _ _ _ _ => pair3_eq _⟩⟩

theorem exec_floatByte (s : State) (g : Guard) (d a : BitVec 6) (k : BitVec 2) :
    ∀ p ∈ floatByte g d a k, exec p.1 s = .next (laneNarrow g s d a p.2 k.toNat) := by
  simp only [floatByte, List.forall_mem_cons, List.not_mem_nil, false_imp_iff, implies_true, and_true]
  exact ⟨rfl, rfl⟩

/-! ### One byte replaced (04 R99) -/

/-- Byte j of a word in which byte k is replaced. -/
theorem setByteOf_byte {x k j : Nat} (hk : k < 4) (hj : j < 4) (v : Nat) :
    setByteOf x k v / 2 ^ (8 * j) % 256 = if j = k then v % 256 else x / 2 ^ (8 * j) % 256 := by
  unfold setByteOf
  interval_cases k <;> interval_cases j <;> simp <;> omega

theorem setByteOf_lane {x k j : Nat} (hk : k < 4) (hj : j < 4) (v : Nat) : (BitVec.ofNat 32 (setByteOf x k v)).extractLsb' (8 * j) 8 =
    if j = k then BitVec.ofNat 8 v else BitVec.ofNat 8 (x / 2 ^ (8 * j)) := by
  rw [extractLsb'_ofNat _ (by omega)]
  apply BitVec.eq_of_toNat_eq
  rw [BitVec.toNat_ofNat, setByteOf_byte hk hj]
  split <;> rfl

theorem floatValue_poison (p : Option (BitVec 3)) (r : FResult) : (floatValue p r).poison = p := by
  cases p <;> rfl

end Sys2Proof.Machine

namespace Sys2Proof
open Sys2Proof.Machine Sys2Proof.Claims

/-- Settles O3: each instruction is a floating form, whose values on words are the rule's; a narrow conversion replaces one byte. -/
theorem laneFloats : Obligations.LaneFloats := by
  intro s g d a b c k m hn
  refine ⟨fun p hp => ?one, fun p hp => ?two, fun p hp => ?three, fun p hp => ?narrow⟩
  case one =>
    obtain ⟨f, hexec, hf⟩ := exec_floatOne s g d a c k m p hp
    exact ⟨_, hexec, (laneF1_spec s g d a hn f).congr fun i _ => hf _ _ _ (BitVec.isLt _)⟩
  case two =>
    obtain ⟨f, hexec, hf⟩ := exec_floatTwo s g d a b m p hp
    exact ⟨_, hexec, (laneF2_spec s g d a b hn f).congr fun i _ => hf _ _ _ _ (BitVec.isLt _) (BitVec.isLt _)⟩
  case three =>
    obtain ⟨f, hexec, hf⟩ := exec_floatThree s g d a b p hp
    exact ⟨_, hexec, (laneF3_spec s g d a b hn f).congr fun i _ => hf _ _ _ _ _ (BitVec.isLt _) (BitVec.isLt _) (BitVec.isLt _)⟩
  case narrow =>
    obtain ⟨hv, hframe⟩ := laneNarrow_spec s g d a hn p.2 k.toNat
    refine ⟨_, exec_floatByte s g d a k p hp, fun i hi => ?_, hframe⟩
    rw [hv i hi, floatValue_poison]
    refine ⟨rfl, fun hplain => ?_⟩
    rw [hplain]
    refine ⟨(setByteOf_lane k.isLt k.isLt _).trans (if_pos rfl), fun j hj hne => ?_⟩
    refine (setByteOf_lane k.isLt hj _).trans ((if_neg hne).trans ?_)
    rw [← extractLsb'_ofNat _ (by omega : 8 * j + 8 ≤ 32), BitVec.ofNat_toNat, BitVec.setWidth_eq]

end Sys2Proof

namespace Sys2Proof.Machine

open Sys2Proof.Claims
open Host (Outcome)

/-! ## Between strands, and between strands and scalars (04 R100) -/

/-- Values that were read before any write stand where they are written, however often a strand is named. -/
theorem foldl_setV_read (n : Nat) (f : Nat → Tagged 32) (is : List Nat) (s : State) :
    let t := is.foldl (fun u i => u.setV i n (f i)) s
    (∀ i ∈ is, t.getV i n = f i) ∧ LaneFrame s t is (fun m => m = n) := by
  induction is generalizing s with
  | nil => exact ⟨fun o h => by simp at h, LaneFrame.refl ..⟩
  | cons i is ih =>
    obtain ⟨hv, hr⟩ := ih (s.setV i n (f i))
    refine ⟨fun j hj => ?_, (State.setV_frame s i n _).trans hr (by simp) (fun j hj => by simp [hj])⟩
    by_cases h : j ∈ is
    · exact hv j h
    · obtain rfl : j = i := (List.mem_cons.1 hj).resolve_right h
      exact (hr.reg j n (fun e => h e.1)).trans ((State.getV_setV ..).trans (if_pos ⟨rfl, rfl⟩))

/-- The strands that receive a value of their bundle. -/
def State.shuffleTargets (s : State) (g : Guard) : List Nat := s.cur.owners.flatMap (s.bundleActing g)

theorem mem_shuffleTargets {s : State} {g : Guard} {i : Nat} :
    i ∈ s.shuffleTargets g ↔ ∃ o ∈ s.cur.owners, i ∈ s.liveStrands o ∧ s.guardOn g i = true := by
  simp only [State.shuffleTargets, State.bundleActing, List.mem_flatMap, List.mem_filter]

/-- A strand's own bundle is the one whose live strand it is. -/
theorem shuffle_eq (g : Guard) (s : State) (d : BitVec 6) (f : Nat → Nat → Tagged 32) :
    shuffle g s d f = (s.shuffleTargets g).foldl (fun u i => u.setV i d.toNat (f (strandBundle i) i)) s := by
  rw [shuffle, eachOwner, State.shuffleTargets, List.foldl_flatMap]
  refine List.foldl_ext _ _ _ fun t o _ => List.foldl_ext _ _ _ fun u i hi => ?_
  rw [(mem_liveStrands.1 (List.mem_of_mem_filter hi)).1]

/-- What a shuffle writes and leaves. -/
def Shuffled (s t : State) (g : Guard) (d : BitVec 6) (f : Nat → Tagged 32) : Prop :=
  let receives (i : Nat) : Prop := ∃ o ∈ s.cur.owners, i ∈ s.liveStrands o ∧ s.guardOn g i = true
  (∀ i, receives i → t.laneV i d = f i) ∧ t = { s with strands := t.strands } ∧
    (∀ i, t.strand i = { s.strand i with v := (t.strand i).v }) ∧
    (∀ i n, ¬(receives i ∧ n = d.toNat) → t.getV i n = s.getV i n) ∧ ∀ pa, t.byte pa = s.byte pa

theorem shuffle_spec (g : Guard) (s : State) (d : BitVec 6) (f : Nat → Nat → Tagged 32) :
    Shuffled s (shuffle g s d f) g d fun i => f (strandBundle i) i := by
  rw [shuffle_eq]
  obtain ⟨hv, hframe⟩ := foldl_setV_read d.toNat (fun i => f (strandBundle i) i) (s.shuffleTargets g) s
  exact ⟨fun i hi => hv i (mem_shuffleTargets.2 hi), hframe.rest, hframe.strand,
    fun i n h => hframe.reg i n fun e => h ⟨mem_shuffleTargets.1 e.1, e.2⟩, hframe.byte⟩

theorem strandLive_iff {s : State} {o j : Nat} : s.strandLive o j = true ↔ strandKey o j ∈ s.liveStrands o :=
  List.contains_iff_mem

theorem shuffled_eq (s : State) (o j : Nat) (a : BitVec 6) :
    s.shuffled o j a = if strandKey o j ∈ s.liveStrands o then s.laneV (strandKey o j) a else .zero 32 := by
  rw [State.shuffled]
  simp only [strandLive_iff]

/-- The strand that SHFL.IDX names. -/
theorem shflIdxVal_eq (s : State) (a b : BitVec 6) (i : Nat) : shflIdxVal s (strandBundle i) a b i =
    match (s.laneV i b).poison with
    | some k => ⟨0, some k⟩
    | none =>
      if strandKey (strandBundle i) ((s.laneV i b).val.toNat % 64) ∈ s.liveStrands (strandBundle i) then
        s.laneV (strandKey (strandBundle i) ((s.laneV i b).val.toNat % 64)) a
      else .zero 32 := by
  rw [shflIdxVal, BitVec.extractLsb'_toNat, shuffled_eq]
  rfl

theorem scalarHalf_eq (m : Bool) (x : Tagged 64) : scalarHalf m x =
    match x.poison with
    | some k => ⟨0, some k⟩
    | none => ⟨x.val.extractLsb' (if m then 32 else 0) 32, none⟩ := by
  cases m <;> rfl

end Sys2Proof.Machine

namespace Sys2Proof
open Sys2Proof.Machine Sys2Proof.Claims

/-- Settles O7: a shuffle writes values that it reads in the state it found, each of the strand's own bundle. -/
theorem shuffles : Obligations.Shuffles := by
  intro s g d a b m _
  refine ⟨?idx, ?xor, ?s2v⟩
  case idx =>
    obtain ⟨hv, hframe⟩ := shuffle_spec g s d fun o i => shflIdxVal s o a b i
    exact ⟨_, rfl, fun i hi => (hv i hi).trans (shflIdxVal_eq ..), hframe⟩
  case xor =>
    obtain ⟨hv, hframe⟩ := shuffle_spec g s d fun o i => s.shuffled o (strandIndex i ^^^ b.toNat) a
    exact ⟨_, rfl, fun i hi => (hv i hi).trans (shuffled_eq ..), hframe⟩
  case s2v =>
    obtain ⟨hv, hframe⟩ := shuffle_spec g s d fun o _ => scalarHalf m (s.getS o a)
    exact ⟨_, rfl, fun i hi => (hv i hi).trans (scalarHalf_eq ..), hframe⟩

end Sys2Proof

namespace Sys2Proof.Machine
open Sys2Proof.Claims
open Host (Outcome)

/-! ### V2S -/

/-- What V2S delivers to a bundle, where it delivers anything. -/
def State.v2sValue (s : State) (g : Guard) (a b : BitVec 6) (m : Bool) (o : Nat) : Option (Tagged 64) :=
  if s.strandLive o b.toNat then
    if s.guardOn g (strandKey o b.toNat) then
      some (if m then s.getD2 (strandKey o b.toNat) a.toNat else (s.laneV (strandKey o b.toNat) a).map1 fun v => v.setWidth 64)
    else none
  else if g.pg = 0 ∧ g.neg = false then some (.zero 64)
  else none

/-- A delivery that may leave s(d) as it is. -/
def State.setSOr (s : State) (o : Nat) (d : BitVec 6) (x : Option (Tagged 64)) : State := x.elim s (s.setS o d)

theorem v2sOwner_eq (s : State) (g : Guard) (d a b : BitVec 6) (m : Bool) (o : Nat) :
    v2sOwner g d a b m o s = s.setSOr o d (s.v2sValue g a b m o) := by
  unfold v2sOwner State.v2sValue
  dsimp only
  split
  · split <;> rfl
  · split <;> rfl

/-- What V2S delivers rests on strands alone, which no delivery changes. -/
theorem v2sValue_setSOr (s : State) (p : Nat) (d : BitVec 6) (x : Option (Tagged 64)) (g : Guard) (a b : BitVec 6) (m : Bool) :
    (s.setSOr p d x).v2sValue g a b m = s.v2sValue g a b m := by
  cases x with
  | none => rfl
  | some x => rw [State.setSOr, Option.elim, State.setS]; split <;> rfl

theorem setSOr_frame (s : State) (o : Nat) (d : BitVec 6) (x : Option (Tagged 64)) : ScalarFrame s (s.setSOr o d x) [o] d := by
  cases x
  · exact ScalarFrame.refl ..
  · exact s.setS_frame ..

/-- s0 reads as zero whatever is delivered to it (03 R56). -/
theorem getS_zero (s : State) (o : Nat) : s.getS o 0 = .zero 64 := if_pos rfl

theorem getS_setSOr (s : State) (o : Nat) (d : BitVec 6) (x : Option (Tagged 64)) :
    (s.setSOr o d x).getS o d = if d = 0 then .zero 64 else x.getD (s.getS o d) := by
  by_cases hd : d = 0
  · subst hd
    exact getS_zero ..
  · rw [if_neg hd]
    cases x
    · rfl
    · exact (State.getS_setS ..).trans (if_pos ⟨rfl, rfl, hd⟩)

/-- Each owner of the list receives its own value, where it receives one. -/
theorem foldl_setSOr (d : BitVec 6) (f : Nat → Option (Tagged 64)) (os : List Nat) (hn : os.Nodup) (s : State) :
    let t := os.foldl (fun u o => u.setSOr o d (f o)) s
    (∀ o ∈ os, t.getS o d = if d = 0 then .zero 64 else (f o).getD (s.getS o d)) ∧ ScalarFrame s t os d := by
  induction os generalizing s with
  | nil => exact ⟨fun o h => by simp at h, ScalarFrame.refl ..⟩
  | cons o os ih =>
    obtain ⟨ho, hn⟩ := List.nodup_cons.1 hn
    obtain ⟨hv, hr⟩ := ih hn (s.setSOr o d (f o))
    have hone := setSOr_frame s o d (f o)
    refine ⟨fun j hj => ?_, hone.trans hr (by simp) (fun j hj => by simp [hj])⟩
    rw [List.foldl_cons]
    rcases List.mem_cons.1 hj with rfl | hj
    · rw [hr.reg j d (fun e => ho e.1), getS_setSOr]
    · rw [hv j hj, hone.reg j d (fun e => ho (List.mem_singleton.1 e.1 ▸ hj))]

theorem exec_v2s (s : State) (g : Guard) (d a b : BitVec 6) (m : Bool) :
    exec (.v2s g d a b m) s = .next (s.cur.owners.foldl (fun u o => u.setSOr o d (s.v2sValue g a b m o)) s) := by
  have hfold : ∀ (os : List Nat) (t : State), t.v2sValue g a b m = s.v2sValue g a b m →
      os.foldl (fun u o => v2sOwner g d a b m o u) t = os.foldl (fun u o => u.setSOr o d (s.v2sValue g a b m o)) t := by
    intro os
    induction os with
    | nil => exact fun _ _ => rfl
    | cons o os ih =>
      intro t ht
      rw [List.foldl_cons, List.foldl_cons, v2sOwner_eq, ht]
      exact ih _ ((v2sValue_setSOr ..).trans ht)
  exact congrArg Outcome.next (hfold s.cur.owners s rfl)

end Sys2Proof.Machine

namespace Sys2Proof
open Sys2Proof.Machine Sys2Proof.Claims

/-- Settles O8: what V2S delivers rests on the strands as it found them, and each bundle takes its own. -/
theorem strandToScalar : Obligations.StrandToScalar := by
  intro s g d a b m hn
  obtain ⟨hv, hframe⟩ := foldl_setSOr d (s.v2sValue g a b m) s.cur.owners hn s
  refine ⟨_, exec_v2s s g d a b m, fun o ho => ?_, hframe⟩
  rw [hv o ho, State.v2sValue]
  simp only [strandLive_iff]
  split
  · rfl
  · split
    · split
      · cases m <;> rfl
      · rfl
    · split <;> rfl

end Sys2Proof

namespace Sys2Proof.Machine

open Sys2Proof.Claims
open Host (Outcome)

/-! ## What the trace of an access leaves as it was (07 R152, R154) -/

/-- A bundle whose filter alone changes keeps its crew. -/
theorem crewOf_setBundle {s : State} {b e : Nat} {x : Bundle} {l : List Nat} (hx : Tbl.find? s.bundles b = some x) (o : Nat) :
    (s.setBundle b { x with touched := l, est := e }).crewOf o = s.crewOf o := by
  unfold State.crewOf
  rw [State.setBundle, Tbl.find_insert]
  by_cases h : o = b
  · subst h
    rw [if_pos rfl, hx]
  · rw [if_neg h]

section Touch
variable (s : State) (b pa : Nat)

@[simp] theorem State.touch_owners : (s.touch b pa).owners = s.owners := by rw [State.touch_rest]
@[simp] theorem State.touch_strands : (s.touch b pa).strands = s.strands := by rw [State.touch_rest]
@[simp] theorem State.touch_crews : (s.touch b pa).crews = s.crews := by rw [State.touch_rest]
@[simp] theorem State.touch_launches : (s.touch b pa).launches = s.launches := by rw [State.touch_rest]
@[simp] theorem State.touch_stale : (s.touch b pa).stale = s.stale := by rw [State.touch_rest]
@[simp] theorem State.touch_roSeen : (s.touch b pa).roSeen = s.roSeen := by rw [State.touch_rest]

@[simp] theorem State.crewOf_touch (o : Nat) : (s.touch b pa).crewOf o = s.crewOf o := by
  unfold State.touch
  split
  · rfl
  next x hx =>
    dsimp only
    split
    · exact crewOf_setBundle hx o
    next k _ =>
      split
      · split
        · exact crewOf_setBundle (s := s.setCore k _) hx o
        · exact crewOf_setBundle (s := s.setCore k _) hx o
      · exact crewOf_setBundle hx o

@[simp] theorem State.coreOf_touch (o : Nat) : (s.touch b pa).coreOf o = s.coreOf o := by
  rw [State.coreOf, State.crewOf_touch]; rfl

@[simp] theorem State.dieOf_touch (o : Nat) : (s.touch b pa).dieOf o = s.dieOf o := by
  rw [State.dieOf, State.coreOf_touch]; rfl

@[simp] theorem State.tile_touch (k : Nat) : (s.touch b pa).tile k = s.tile k := by rw [State.touch_rest]; rfl

@[simp] theorem State.launchOf_touch (o : Nat) : (s.touch b pa).launchOf o = s.launchOf o := by
  rw [State.launchOf, State.crewOf_touch, State.tile_touch]; rfl

@[simp] theorem State.bookOf_touch (i : Nat) : (s.touch b pa).bookOf i = s.bookOf i := by
  rw [State.bookOf, State.launchOf_touch, State.touch_launches]; rfl

/-- INV.RO's mark is not a victim tag. -/
theorem State.core_ro_touch (k : Nat) : ((s.touch b pa).core k).ro = (s.core k).ro := by
  rw [(leaseTrace_touch s b pa).cores k]

@[simp] theorem State.roFloor_touch (i q : Nat) : (s.touch b pa).roFloor i q = s.roFloor i q := by
  simp only [State.roFloor, State.launchOf_touch, State.coreOf_touch, State.touch_launches, State.touch_roSeen, State.core_ro_touch]

@[simp] theorem State.owner_touch (o : Nat) : (s.touch b pa).owner o = s.owner o := by rw [State.owner, State.touch_owners]; rfl
@[simp] theorem State.strand_touch (i : Nat) : (s.touch b pa).strand i = s.strand i := by rw [State.strand, State.touch_strands]; rfl
@[simp] theorem State.getV_touch (i n : Nat) : (s.touch b pa).getV i n = s.getV i n := by rw [State.getV, State.strand_touch]; rfl

end Touch


/-! ### The trace of an element and its scale (04 R106) -/

end Sys2Proof.Machine

namespace Sys2Proof.Claims
open Sys2Proof.Machine

theorem LeaseTrace.trans {s t u : State} {b : Nat} (h : LeaseTrace s t b) (k : LeaseTrace t u b) : LeaseTrace s u b where
  others j hj := (k.others j hj).trans (h.others j hj)
  own x hx := by
    obtain ⟨l, e, ht⟩ := h.own x hx
    obtain ⟨l', e', hu⟩ := k.own _ ht
    exact ⟨l', e', hu⟩
  cores j := by rw [k.cores j, h.cores j]

/-- A trace is seen alike from any state with the same bundles and cores. -/
theorem LeaseTrace.seenFrom {s t u : State} {b : Nat} (h : LeaseTrace s t b) (hb : s.bundles = u.bundles) (hc : s.cores = u.cores) :
    LeaseTrace u t b where
  others := hb ▸ h.others
  own := hb ▸ h.own
  cores k := by
    have hk : u.core k = s.core k := by rw [State.core, ← hc]; rfl
    rw [hk]
    exact h.cores k

theorem leaseTrace_touchElem (s : State) (b : Nat) (x : ElemAt) : LeaseTrace s (s.touchElem b x) b := by
  unfold State.touchElem
  split
  · exact (leaseTrace_touch ..).trans (leaseTrace_touch ..)
  · exact leaseTrace_touch ..

end Sys2Proof.Claims

namespace Sys2Proof.Machine
open Sys2Proof.Claims

/-- What holds across every trace holds across that of an element. -/
theorem touchElem_eq {α : Type} (f : State → α) (h : ∀ (s : State) (b pa : Nat), f (s.touch b pa) = f s) (s : State) (b : Nat)
    (x : ElemAt) : f (s.touchElem b x) = f s := by
  unfold State.touchElem
  dsimp only
  split
  · rw [h, h]
  · rw [h]

theorem State.touchElem_rest (s : State) (b : Nat) (x : ElemAt) :
    s.touchElem b x = { s with bundles := (s.touchElem b x).bundles, cores := (s.touchElem b x).cores } := by
  unfold State.touchElem
  dsimp only
  split
  · rw [State.touch_rest, State.touch_rest]
  · exact State.touch_rest ..

@[simp] theorem State.byte_touchElem (s : State) (b : Nat) (x : ElemAt) (pa : Nat) : (s.touchElem b x).byte pa = s.byte pa :=
  touchElem_eq (fun t => t.byte pa) (fun t b q => t.byte_touch b q pa) s b x

@[simp] theorem State.owner_touchElem (s : State) (b : Nat) (x : ElemAt) (o : Nat) : (s.touchElem b x).owner o = s.owner o :=
  touchElem_eq (fun t => t.owner o) (fun t b q => t.owner_touch b q o) s b x

@[simp] theorem State.strand_touchElem (s : State) (b : Nat) (x : ElemAt) (i : Nat) : (s.touchElem b x).strand i = s.strand i :=
  touchElem_eq (fun t => t.strand i) (fun t b q => t.strand_touch b q i) s b x

@[simp] theorem State.getV_touchElem (s : State) (b : Nat) (x : ElemAt) (i n : Nat) : (s.touchElem b x).getV i n = s.getV i n := by
  rw [State.getV, State.strand_touchElem]; rfl

/-! ### Stores of an element -/

theorem stored_storeMarked (s : State) (pa n v : Nat) : Stored s (s.storeMarked pa n v) pa n v := by
  intro x
  refine (State.byte_writeLE ..).trans ?_
  rw [State.byte, (s.noteWords_keeps pa n 0).1]
  rfl

theorem State.owner_storeMarked (s : State) (pa n v o : Nat) : (s.storeMarked pa n v).owner o = s.owner o := by
  rw [State.owner, State.storeMarked_rest]; rfl

/-- A floating frame is seen alike from before a trace. -/
theorem FloatFrame.withTrace {s t : State} {is : List Nat} {d : Nat} {fl : Nat → FFlags} (h : FloatFrame s t is d fl) (x : Tbl Bundle)
    (y : Tbl CoreState) : FloatFrame { s with bundles := x, cores := y } { t with bundles := x, cores := y } is d fl where
  rest := by rw [h.rest]
  strand := h.strand
  reg := h.reg
  owner := h.owner
  byte := h.byte

/-! ### One element read, and one stored (04 R106, R107) -/

/-- An element's value in a register, its flags, and the trace of its access. -/
def State.loadElem (s : State) (i n : Nat) (x : ElemAt) (r : FResult) : State :=
  ((s.setV i n ⟨BitVec.ofNat 32 r.1, none⟩).raiseOf i r.2).touchElem (strandBundle i) x

/-- An element's code in its own bits, its flags, and the trace of its access. -/
def State.storeElem (s : State) (i : Nat) (x : ElemAt) (r : FResult) : State :=
  ((s.storeMarked x.pa (elemBytes x.page.fmt x.e)
    (elemInto x.page.fmt x.e (s.readLE x.pa (elemBytes x.page.fmt x.e)) r.1)).raiseOf i r.2).touchElem (strandBundle i) x

section
variable (s : State) (i n : Nat) (x : ElemAt) (r : FResult)

theorem getV_loadElem (j m : Nat) : (s.loadElem i n x r).getV j m =
    if j = i ∧ m = n then ⟨BitVec.ofNat 32 r.1, none⟩ else s.getV j m := by
  rw [State.loadElem, State.getV_touchElem, State.getV_raiseOf, State.getV_setV]

theorem loadElem_frame : FloatFrame { s with bundles := (s.loadElem i n x r).bundles, cores := (s.loadElem i n x r).cores }
    (s.loadElem i n x r) [i] n (flagsOf [i] fun _ => r.2) := by
  have h := (setV_raiseOf_frame s i n ⟨BitVec.ofNat 32 r.1, none⟩ r.2).withTrace (s.loadElem i n x r).bundles
    (s.loadElem i n x r).cores
  rwa [State.loadElem, ← State.touchElem_rest] at h

theorem loadElem_trace : LeaseTrace s (s.loadElem i n x r) (strandBundle i) :=
  (leaseTrace_touchElem ..).seenFrom (by rw [State.raiseOf_rest]; rfl) (by rw [State.raiseOf_rest]; rfl)

theorem stored_storeElem : Stored s (s.storeElem i x r) x.pa (elemBytes x.page.fmt x.e)
    (elemInto x.page.fmt x.e (s.readLE x.pa (elemBytes x.page.fmt x.e)) r.1) := by
  intro pa
  rw [State.storeElem, State.byte_touchElem, State.byte_raiseOf]
  exact stored_storeMarked s _ _ _ pa

theorem storeElem_rest : s.storeElem i x r = { s with
    mem := (s.storeElem i x r).mem, stale := (s.storeElem i x r).stale, writes := (s.storeElem i x r).writes,
    oldMaps := (s.storeElem i x r).oldMaps, marked := (s.storeElem i x r).marked, owners := (s.storeElem i x r).owners,
    bundles := (s.storeElem i x r).bundles, cores := (s.storeElem i x r).cores } := by
  unfold State.storeElem
  rw [State.touchElem_rest, State.raiseOf_rest, State.storeMarked_rest]

theorem owner_storeElem (o : Nat) : (s.storeElem i x r).owner o = { s.owner o with
    acr := (s.owner o).acr ||| BitVec.ofNat 64 (if strandBundle i = o then r.2 else FFlags.none).toNat,
    acrNext := (s.owner o).acrNext.map fun y => y ||| BitVec.ofNat 64 (if strandBundle i = o then r.2 else FFlags.none).toNat } := by
  rw [State.storeElem, State.owner_touchElem, State.raiseOf, State.owner_raise, State.owner_storeMarked]

theorem storeElem_trace : LeaseTrace s (s.storeElem i x r) (strandBundle i) :=
  (leaseTrace_touchElem ..).seenFrom (by rw [State.raiseOf_rest, State.storeMarked_rest]) (by rw [State.raiseOf_rest, State.storeMarked_rest])

end

end Sys2Proof.Machine

namespace Sys2Proof.Claims
open Sys2Proof.Machine
open Host (Outcome)

section Elements
variable {s : State} {g : Guard} {i : Nat} {d a : BitVec 6} {lb : Bool} {off : BitVec 31}

/-! ## Elements of pages, and the read-only path (04 R106-R108) -/

theorem laneBase_eq (h : (baseOf s i a lb).poison = none) : s.laneBase i a lb = .ok (baseOf s i a lb).val := by
  unfold baseOf at h ⊢
  unfold State.laneBase
  cases lb
  · exact State.useS_plain h
  · exact useD_eq h

/-- A value that is not marked arrives as it is. -/
theorem loaded_plain {w : Nat} (s : State) (o st : Nat) (addr : Dword) (pa : Nat) (v : BitVec w) :
    s.loaded o st addr pa false v = (⟨v, none⟩, s) := rfl

theorem exec_ldx (hs : OneStrand s g i) (hb : (baseOf s i a lb).poison = none) {x : ElemAt}
    (hx : s.elemAccess s.cur.ctx (baseOf s i a lb).val off.toInt false = .ok (x, s)) (hm : s.elemMarked x = false) :
    exec (.ldx g d a lb off) s = .next
      (s.loadElem i d.toNat x (ldxValue x.page.fmt (s.bookOf i) (s.fzOf i) (s.scaleOf x) (s.codeAt x))) := by
  refine (congrArg (concludeAccess true s) (hs.forStrands_eq _)).trans ?_
  simp only [ldxStrand, laneBase_eq hb, hx, hm, loaded_plain]
  rfl

theorem exec_stx (hs : OneStrand s g i) (hb : (baseOf s i a lb).poison = none) (hd : (s.laneV i d).poison = none) {x : ElemAt}
    (hx : s.elemAccess s.cur.ctx (baseOf s i a lb).val off.toInt true = .ok (x, s)) :
    exec (.stx g d a lb off) s = .next (s.storeElem i x (stxCode x.page.fmt (s.bookOf i) (s.modeOf i) (s.fzOf i)
      (acrOfs (s.acr (strandBundle i))) (s.scaleOf x) (s.laneV i d).val.toNat)) := by
  refine (congrArg (concludeAccess true s) (hs.forStrands_eq _)).trans ?_
  simp only [stxStrand, laneBase_eq hb, useV_eq hd, hx]
  rfl

/-! ### LDRO -/

/-- The replaced words that the read-only path may still give (08 R181). -/
def openWords (s : State) (i pa : Nat) : List OldWord := (Tbl.getD s.stale pa []).filter (fun x => decide (s.roFloor i pa < x.gone))

theorem openWords_touch (s : State) (b q i pa : Nat) : openWords (s.touch b q) i pa = openWords s i pa := by
  rw [openWords, State.touch_stale]
  simp only [State.roFloor_touch]
  rfl

theorem ofNat_mod_word (w : Word) : BitVec.ofNat 32 (w.toNat % 256 ^ 4) = w := by
  rw [Nat.mod_eq_of_lt (by exact w.isLt), ofNat_toNat_self]

theorem readOnlyWord_memory {p : PageInfo} {pa : Nat} (hp : p.room pa 4 = 4) (h : openWords s i pa = []) :
    s.readOnlyWord p i pa = (BitVec.ofNat 32 (s.readLE pa 4), s) := by
  have h' : (Tbl.getD s.stale pa []).filter (fun x => decide (s.roFloor i pa < x.gone)) = [] := h
  rw [State.readOnlyWord, h', hp]
  exact congrArg (·, s) (ofNat_mod_word _)

/-- A word through the read-only path is memory's or one that may still be given, and the read is noted with the strand alone. -/
structure ReadOnlyGives (s u : State) (i pa : Nat) (v : Word) : Prop where
  word : v = BitVec.ofNat 32 (s.readLE pa 4) ∨ ∃ x ∈ openWords s i pa, v = x.word
  rest : u = { s with roSeen := u.roSeen, freeCtr := u.freeCtr }
  seen : ∀ k, k ≠ roKey i pa → Tbl.find? u.roSeen k = Tbl.find? s.roSeen k

theorem readOnlyWord_spec (s : State) (i : Nat) {p : PageInfo} {pa : Nat} (hp : p.room pa 4 = 4) :
    ∃ v u, s.readOnlyWord p i pa = (v, u) ∧ ReadOnlyGives s u i pa v := by
  refine ⟨(s.readOnlyWord p i pa).1, (s.readOnlyWord p i pa).2, rfl, ?_⟩
  by_cases h : openWords s i pa = []
  · rw [readOnlyWord_memory hp h]
    exact ⟨.inl rfl, rfl, fun _ _ => rfl⟩
  · obtain ⟨w, ws, hw⟩ := List.exists_cons_of_ne_nil h
    have hw' : (Tbl.getD s.stale pa []).filter (fun x => decide (s.roFloor i pa < x.gone)) = w :: ws := hw
    rw [State.readOnlyWord, hw', hp]
    dsimp only
    cases hget : (w :: ws)[s.free.1.toNat % ((w :: ws).length + 1)]? with
    | none => exact ⟨.inl (ofNat_mod_word _), rfl, fun k hk => Tbl.find_insert_ne _ _ hk⟩
    | some x => exact ⟨.inr ⟨x, hw ▸ List.mem_of_getElem? hget, ofNat_mod_word _⟩, rfl, fun k hk => Tbl.find_insert_ne _ _ hk⟩

/-- The read, seen from before the trace of its access. -/
theorem ReadOnlyGives.beforeTrace {u : State} {b q pa : Nat} {v : Word} (h : ReadOnlyGives (s.touch b q) u i pa v) :
    (v = BitVec.ofNat 32 (s.readLE pa 4) ∨ ∃ x ∈ openWords s i pa, v = x.word) ∧
      u = { s with bundles := u.bundles, cores := u.cores, roSeen := u.roSeen, freeCtr := u.freeCtr } ∧ LeaseTrace s u b ∧
      ∀ k, k ≠ roKey i pa → Tbl.find? u.roSeen k = Tbl.find? s.roSeen k := by
  obtain ⟨hword, hrest, hseen⟩ := h
  have hb : u.bundles = (s.touch b q).bundles := by rw [hrest]
  have hc : u.cores = (s.touch b q).cores := by rw [hrest]
  rw [openWords_touch, State.readLE_congr fun x _ _ => s.byte_touch b q x] at hword
  refine ⟨hword, ?_, (leaseTrace_touch s b q).congr hb hc, fun k hk => (hseen k hk).trans (by rw [State.touch_roSeen])⟩
  rw [hb, hc]
  exact hrest.trans (congrArg (fun t : State => { t with roSeen := u.roSeen, freeCtr := u.freeCtr }) (State.touch_rest s b q))

theorem exec_ldro {pa : Nat} {p : PageInfo} (hs : OneStrand s g i) (hb : (baseOf s i a lb).poison = none)
    (hr : Reach s (addressOf s i a lb off) 4 4 false true pa p) (hm : s.isMarked pa 4 = false) {v : Word} {u : State}
    (hu : (s.touch (strandBundle i) pa).readOnlyWord p i pa = (v, u)) (hk : u.marked = s.marked) :
    exec (.ldro g d a lb off) s = .next (u.setV i d.toNat ⟨v, none⟩) := by
  have hmu : u.isMarked pa 4 = false := by rw [State.isMarked, hk]; exact hm
  refine (congrArg (concludeAccess false s) (hs.forStrands_eq _)).trans ?_
  simp only [ldroStrand, laneAddr_eq hb, hr.laneGlobal_eq (by decide : 0 < 4), hu, hmu, loaded_plain]
  rfl

end Elements

end Sys2Proof.Claims

namespace Sys2Proof
open Sys2Proof.Machine Sys2Proof.Claims

/-- Settles O19: an element is read or stored at its own place with its trace after it, and LDRO's word is what the read-only path gives. -/
theorem formatAccesses : Obligations.FormatAccesses := by
  intro s g i d a lb off hs hb
  refine ⟨fun x hx hm => ⟨_, exec_ldx hs hb hx hm, (getV_loadElem ..).trans (if_pos ⟨rfl, rfl⟩), loadElem_frame .., loadElem_trace ..⟩,
    fun x hd hx => ⟨_, exec_stx hs hb hd hx, stored_storeElem s i x _, storeElem_rest .., fun o => ?_, fun o => ?_, storeElem_trace ..⟩,
    fun pa p hr hm hp => ⟨fun hopen => ?_, ?_⟩⟩
  · rw [owner_storeElem]
  · rw [owner_storeElem]
    by_cases h : o = strandBundle i
    · rw [if_pos h, if_pos h.symm]
      rfl
    · rw [if_neg h, if_neg fun e => h e.symm]
      rfl
  · have hword := readOnlyWord_memory (s := s.touch (strandBundle i) pa) (i := i) hp
      ((openWords_touch ..).trans hopen)
    refine ⟨_, exec_ldro hs hb hr hm hword (State.touch_marked ..), ?_, frame_of_touch (State.setV_frame ..)⟩
    rw [State.laneV, State.getV_setV, if_pos ⟨rfl, rfl⟩, State.readLE_congr fun x _ _ => s.byte_touch (strandBundle i) pa x]
  · obtain ⟨v, u, hread, hgives⟩ := readOnlyWord_spec (s.touch (strandBundle i) pa) i (pa := pa) hp
    have hmarked : u.marked = s.marked := by rw [hgives.rest, State.touch_marked]
    obtain ⟨hword, hrest, htrace, hseen⟩ := hgives.beforeTrace
    refine ⟨_, v, exec_ldro hs hb hr hm hread hmarked, ?_, hword, ?_, hseen, htrace.congr rfl rfl⟩
    · rw [State.laneV, State.getV_setV, if_pos ⟨rfl, rfl⟩]
    · show LaneFrame { s with bundles := u.bundles, cores := u.cores, roSeen := u.roSeen, freeCtr := u.freeCtr } _ _ _
      rw [← hrest]
      exact u.setV_frame ..

end Sys2Proof

namespace Sys2Proof.Claims
open Sys2Proof.Machine
open Host (Outcome)

/-! ## Speculative loads (04 R115) -/

section Speculative
variable {s : State} {g : Guard} {i : Nat} {d a : BitVec 6} {lb : Bool} {off : BitVec 31} {addr : Dword} {cause : BitVec 8}

theorem ldS_good {pa : Nat} {p : PageInfo} (hs : OneStrand s g i) (hb : (baseOf s i a lb).poison = none)
    (hr : Reach s (addressOf s i a lb off) 8 8 false true pa p) (hm : s.isMarked pa 8 = false) :
    exec (.ldS g d a lb off) s =
      .next ((s.touch (strandBundle i) pa).setD2 i d.toNat ⟨BitVec.ofNat 64 (s.pageLE p pa 8), none⟩) := by
  refine (congrArg (concludeAccess false s) (hs.byProfile_eq _ _)).trans ?_
  simp only [ldSStrand, laneAddr_eq hb, hr.loadGlobal_eq (by decide : 0 < 8) hm]
  rfl

/-! ### The conditions that LD.S turns into poison -/

theorem pageFor_absent {ctx : Nat} {write : Bool} (hsettled : s.oldWalks ctx addr.toNat = []) (hwalk : s.walk ctx addr.toNat = .absent) :
    s.pageFor ctx addr write = fatalWith causeNotResident addr := by
  rw [State.pageFor, State.translate_settled hsettled, hwalk]

theorem pageFor_page {ctx : Nat} {write : Bool} {p : PageInfo} (hsettled : s.oldWalks ctx addr.toNat = [])
    (hwalk : s.walk ctx addr.toNat = .page p) :
    s.pageFor ctx addr write = if (if write then p.canWrite else p.canRead) = true then .ok (p, s) else fatalWith causePermission addr := by
  rw [State.pageFor, State.translate_settled hsettled, hwalk]

theorem laneGlobal_pageError {n : Nat} {write : Bool} {e : Stop} (htop : addr.toNat < 2 ^ 60) (halign : addr.toNat % n = 0)
    (hpage : s.pageFor s.cur.ctx addr write = .error e) : s.laneGlobal i addr n n write true = .error e := by
  rw [State.laneGlobal, State.globalAccess, if_neg (fun h => absurd ((top_bits_iff addr).1 h) (by omega)),
    if_neg (fun h => absurd halign (bne_iff_ne.1 h)), hpage]
  rfl

theorem laneGlobal_tagMismatch {n : Nat} {write : Bool} {p : PageInfo} (htop : addr.toNat < 2 ^ 60) (halign : addr.toNat % n = 0)
    (hpage : s.pageFor s.cur.ctx addr write = .ok (p, s)) (htagged : p.tagged = true)
    (htag : s.tagsMatch (p.pa addr.toNat) n (addrTag addr) = false) :
    s.laneGlobal i addr n n write true = trapWith causeTagMismatch addr := by
  rw [State.laneGlobal, State.globalAccess, if_neg (fun h => absurd ((top_bits_iff addr).1 h) (by omega)),
    if_neg (fun h => absurd halign (bne_iff_ne.1 h)), hpage]
  simp only [htagged, htag, Bool.not_false, Bool.and_self, if_true]
  rfl

/-- One granule that carries another tag is enough. -/
theorem tagsMatch_false {pa n : Nat} {tag : BitVec 4} (h : Tbl.getD s.tags (pa / 32) 0 ≠ tag) : s.tagsMatch pa n tag = false := by
  rw [State.tagsMatch, List.all_eq_false]
  exact ⟨0, List.mem_range.2 (Nat.succ_pos _), by simpa using h⟩

/-- The access stops on a cause at an address, and no page is backed for it. -/
def StopsAt (s : State) (r : Eff (Nat × PageInfo × State)) (cause : BitVec 8) (addr : Dword) : Prop :=
  ∃ x, r = .error (.stopped x) ∧ (x = .trap cause addr none ∨ x = .fatal cause addr) ∧ s.keepBacking false x = s

/-- A page that stands is not backed again. -/
theorem keepBacking_of_page {x : Stopped} {p : PageInfo} (hx : x.translated false = some addr)
    (hwalk : s.walk s.cur.ctx addr.toNat = .page p) : s.keepBacking false x = s := by
  rw [State.keepBacking, hx]
  dsimp only
  rw [State.backIfReserved, hwalk]

/-- Conditions 2 to 6 of R102, in their order. -/
def SpeculativeFault (s : State) (addr : Dword) (cause : BitVec 8) : Prop :=
  cause = 0x18 ∧ 2 ^ 60 ≤ addr.toNat ∨
    cause = 0x19 ∧ addr.toNat < 2 ^ 60 ∧ addr.toNat % 8 ≠ 0 ∨
    cause = 0x40 ∧ addr.toNat < 2 ^ 60 ∧ addr.toNat % 8 = 0 ∧ s.walk s.cur.ctx addr.toNat = .absent ∧
      s.oldWalks s.cur.ctx addr.toNat = [] ∨
    addr.toNat < 2 ^ 60 ∧ addr.toNat % 8 = 0 ∧ s.oldWalks s.cur.ctx addr.toNat = [] ∧
      ∃ p, s.walk s.cur.ctx addr.toNat = .page p ∧
        (cause = 0x41 ∧ p.canRead = false ∨
         cause = 0x1D ∧ p.canRead = true ∧ p.tagged = true ∧
           Tbl.getD s.tags ((p.base + addr.toNat % p.size) / 32) 0 ≠ addr.extractLsb' 56 4)

theorem stopsAt_of_fault (h : SpeculativeFault s addr cause) : StopsAt s (s.laneGlobal i addr 8 8 false true) cause addr := by
  rcases h with ⟨rfl, htop⟩ | ⟨rfl, htop, halign⟩ | ⟨rfl, htop, halign, hwalk, hsettled⟩ | ⟨htop, halign, hsettled, p, hwalk, hpage⟩
  · exact ⟨_, laneGlobal_badAddress htop, .inl rfl, rfl⟩
  · exact ⟨_, laneGlobal_misaligned htop halign, .inl rfl, rfl⟩
  · exact ⟨_, laneGlobal_pageError htop halign (pageFor_absent hsettled hwalk), .inr rfl, rfl⟩
  · have hfor := pageFor_page (write := false) hsettled hwalk
    rcases hpage with ⟨rfl, hread⟩ | ⟨rfl, hread, htagged, htag⟩
    · rw [hread] at hfor
      exact ⟨_, laneGlobal_pageError htop halign hfor, .inr rfl, keepBacking_of_page rfl hwalk⟩
    · rw [hread] at hfor
      exact ⟨_, laneGlobal_tagMismatch htop halign hfor htagged (tagsMatch_false htag), .inl rfl, keepBacking_of_page rfl hwalk⟩

/-! ### The poison (04 R115) -/

/-- The pair d(n) of a strand poisoned with a new origin. -/
def specPair (s : State) (i n : Nat) (cause : BitVec 8) (addr : Dword) : State :=
  let p := s.specPoison (strandBundle i) (strandIndex i) cause addr
  p.2.setD2 i n p.1

theorem ldS_poison (hs : OneStrand s g i) (hb : (baseOf s i a lb).poison = none)
    (hstop : StopsAt s (s.laneGlobal i (addressOf s i a lb off) 8 8 false true) cause (addressOf s i a lb off)) :
    exec (.ldS g d a lb off) s = .next (specPair s i d.toNat cause (addressOf s i a lb off)) := by
  obtain ⟨x, herror, hx, hkeep⟩ := hstop
  refine (congrArg (concludeAccess false s) (hs.byProfile_eq _ _)).trans ?_
  rcases hx with rfl | rfl
  · simp only [ldSStrand, laneAddr_eq hb, loadGlobal_error herror, hkeep]
    rfl
  · simp only [ldSStrand, laneAddr_eq hb, loadGlobal_error herror, hkeep]
    rfl

theorem getV_specPair (s : State) (i n : Nat) (cause : BitVec 8) (addr : Dword) :
    ∃ k, (∀ j : Nat, j < 2 → (specPair s i n cause addr).getV i (2 * n + j) = ⟨0, some k⟩) ∧
      (specPair s i n cause addr).originAt (strandBundle i) k = ⟨cause, addr, false, 0, BitVec.ofNat 8 (i % 64)⟩ := by
  refine ⟨_, fun j hj => ?_, s.originAt_newOrigin (strandBundle i) ⟨cause, addr, false, 0, BitVec.ofNat 8 (i % 64)⟩⟩
  rw [specPair, State.getV_setD2, if_pos ⟨rfl, by omega⟩]
  exact congrArg (Tagged.mk · _) BitVec.extractLsb'_zero

end Speculative

/-! ### LD.S of a stream -/

theorem originAt_setS (s : State) (o : Nat) (d : BitVec 6) (x : Tagged 64) (p : Nat) (k : BitVec 3) :
    (s.setS o d x).originAt p k = s.originAt p k := by
  rw [State.originAt, (s.setS_frame o d x).owner p]
  rfl

theorem getS_newOrigin (s : State) (o : Nat) (x : Origin) (p : Nat) (r : BitVec 6) : (s.newOrigin o x).2.getS p r = s.getS p r := by
  have howner : ((s.newOrigin o x).2.owner p).s = (s.owner p).s := by
    rw [State.newOrigin, State.owner_setOwner]
    split
    · subst_vars; rfl
    · rfl
  rw [State.getS, howner]
  rfl

theorem owner_setS_ne (s : State) {o p : Nat} (h : p ≠ o) (d : BitVec 6) (x : Tagged 64) : (s.setS o d x).owner p = s.owner p := by
  unfold State.setS
  split
  · rfl
  · rw [State.owner_setOwner, if_neg h]

theorem tileAccess_misaligned {addr : Dword} {n align : Nat} (h : addr.toNat % align ≠ 0) :
    tileAccess addr n align = trapWith causeMisaligned addr := if_pos (bne_iff_ne.2 h)

theorem tileAccess_range {addr : Dword} {n align : Nat} (h : addr.toNat % align = 0) (hr : 524288 < addr.toNat + n) :
    tileAccess addr n align = trapWith causeScratchRange addr :=
  (if_neg fun e => absurd h (bne_iff_ne.1 e)).trans (if_neg (by omega))

section Stream
variable {s : State} {k : Nat} {st : Stream} {g : Guard} {d a : BitVec 6} {w : Nat} {cause : BitVec 8}

theorem byProfile_tile (h : OnTile s k st) (f t : Nat → State → Eff State) : byProfile g s f t = t k s := by
  rw [byProfile, h.1]
  exact forOwners_single h.2.1 t

theorem tileAddr_eq {off : BitVec w} (h : (s.getS k a).poison = none) :
    s.tileAddr k a off = .ok ((s.getS k a).val + off.signExtend 64) := by
  rw [State.tileAddr, State.useS_plain h]
  rfl

theorem ldS_tile_poison {off : BitVec 31} (h : OnTile s k st) (hplain : (s.getS k a).poison = none)
    (hstop : tileAccess ((s.getS k a).val + off.signExtend 64) 8 8 =
      .error (.stopped (.trap cause ((s.getS k a).val + off.signExtend 64) none)))
    (hkeep : (Stopped.trap cause ((s.getS k a).val + off.signExtend 64) none).translated false = none) :
    exec (.ldS g d a false off) s = .next
      ((s.specPoison k 0 cause ((s.getS k a).val + off.signExtend 64)).2.setS k d
        (s.specPoison k 0 cause ((s.getS k a).val + off.signExtend 64)).1) := by
  refine (congrArg (concludeAccess false s) (byProfile_tile h _ _)).trans ?_
  simp only [ldSTile, tileAddr_eq hplain, State.tileLoad, hstop, State.keepBacking, hkeep]
  rfl

/-- What LD.S leaves of a stream whose address may not be read: s(d) poisoned with a new origin. -/
theorem specPoison_setS (s : State) (k : Nat) (d : BitVec 6) (cause : BitVec 8) (addr : Dword) :
    let t := (s.specPoison k 0 cause addr).2.setS k d (s.specPoison k 0 cause addr).1
    ∃ j, t.getS k d = (if d = 0 then .zero 64 else ⟨0, some j⟩) ∧ t.originAt k j = ⟨cause, addr, false, 0, 0⟩ ∧
      t = { s with owners := t.owners } ∧ (∀ o, o ≠ k → t.owner o = s.owner o) ∧ ∀ q, q ≠ d → t.getS k q = s.getS k q := by
  intro t
  refine ⟨_, getS_setSOr _ k d (some _), ?_, ?_, fun o ho => ?_, fun q hq => ?_⟩
  · exact (originAt_setS ..).trans (s.originAt_newOrigin k ⟨cause, addr, false, 0, 0⟩)
  · exact (State.setS_frame ..).rest
  · rw [owner_setS_ne _ ho]
    exact (State.owner_setOwner ..).trans (if_neg ho)
  · rw [State.getS_setS, if_neg fun e => hq e.2.1]
    exact getS_newOrigin ..

end Stream

end Sys2Proof.Claims

namespace Sys2Proof
open Sys2Proof.Machine Sys2Proof.Claims

/-- Settles O21: each condition stops the access before it has backed a page, and LD.S makes of the stop a poison with a new origin. -/
theorem speculativeLoads : Obligations.SpeculativeLoads := by
  intro s g i d a lb off
  refine ⟨fun hs hb pa p hr hm => ⟨_, ldS_good hs hb hr hm, fun j hj => ?_, (frame_of_touch (State.setD2_frame ..)).1⟩,
    fun hs hb cause hfault => ?_, fun k st h hplain => ?_⟩
  · rw [State.getV_setD2, if_pos ⟨rfl, by omega⟩, extractLsb'_ofNat _ (by omega), show (2 * d.toNat + j) % 2 = j by omega]
  · obtain ⟨k, hv, horigin⟩ := getV_specPair s i d.toNat cause (addressOf s i a lb off)
    exact ⟨_, k, ldS_poison hs hb (stopsAt_of_fault hfault), hv, horigin, rfl⟩
  · intro addr cause hcause
    obtain ⟨j, hspec⟩ := specPoison_setS s k d cause addr
    refine ⟨_, j, ldS_tile_poison h hplain ?_ ?_, hspec⟩
    · rcases hcause with ⟨rfl, halign⟩ | ⟨rfl, halign, hrange⟩
      · exact tileAccess_misaligned halign
      · exact tileAccess_range halign hrange
    · rcases hcause with ⟨rfl, -⟩ | ⟨rfl, -⟩ <;> rfl

end Sys2Proof

namespace Sys2Proof.Machine

/-- A lookup in a table whose entries have each been changed by their key and value. -/
theorem Tbl.find_mapEntries {α β : Type} (f : Nat → α → β) (t : Tbl α) (k : Nat) :
    Tbl.find? (t.map fun e => (e.1, f e.1 e.2)) k = (Tbl.find? t k).map (f k) := by
  induction t with
  | nil => rfl
  | cons e rest ih =>
    obtain ⟨j, v⟩ := e
    simp only [List.map_cons, Tbl.find?]
    split
    · subst_vars; rfl
    · exact ih

end Sys2Proof.Machine

namespace Sys2Proof.Claims
open Sys2Proof.Machine
open Host (Outcome)

/-! ## Maintenance of caches, and the tags of granules (04 R117-R119, 08 R181, R182) -/

section Maintenance
variable {s : State} {g : Guard} {i : Nat} {a b : BitVec 6} {m : Bool}

theorem OneStrand.eachStrand_eq (h : OneStrand s g i) (f : Nat → State → State) : eachStrand g s f = f i s := by
  rw [eachStrand, h.2]
  rfl

theorem exec_invRo {k : Nat} (hs : OneStrand s g i) (hk : s.coreOf (strandBundle i) = some k) :
    exec (.invRo g) s = .next (s.setCore k { s.core k with ro := s.writes }) := by
  refine (congrArg Outcome.next (hs.eachStrand_eq _)).trans ?_
  simp only [hk]

/-! ### The range of a maintenance instruction (04 R101) -/

/-- The base and the length that a maintenance instruction reads: of the bundle, or with m the strand's own. -/
def rangeBase (s : State) (i : Nat) (a : BitVec 6) (m : Bool) : Tagged 64 := if m then s.getD2 i a.toNat else s.getS (strandBundle i) a
def rangeLength (s : State) (i : Nat) (b : BitVec 6) (m : Bool) : Nat :=
  if m then (s.getV i b.toNat).val.toNat else (s.getS (strandBundle i) b).val.toNat
def rangeLengthPoison (s : State) (i : Nat) (b : BitVec 6) (m : Bool) : Option (BitVec 3) :=
  if m then (s.getV i b.toNat).poison else (s.getS (strandBundle i) b).poison

theorem laneRange_eq (ha : (s.getD2 i a.toNat).poison = none) (hb : (s.getV i b.toNat).poison = none) :
    s.laneRange i a b = .ok ((s.getD2 i a.toNat).val, (s.getV i b.toNat).val.setWidth 64) := by
  rw [State.laneRange, State.useD_plain ha, State.useV_plain hb]

theorem scalarRange_eq {o : Nat} (ha : (s.getS o a).poison = none) (hb : (s.getS o b).poison = none) :
    s.scalarRange o a b = .ok ((s.getS o a).val, (s.getS o b).val) := by
  rw [State.scalarRange, State.useS_plain ha, State.useS_plain hb]

/-- One strand names one range. -/
theorem rangeList_eq (hs : OneStrand s g i) (ha : (rangeBase s i a m).poison = none) (hb : rangeLengthPoison s i b m = none)
    (htop : (rangeBase s i a m).val.toNat < 2 ^ 60) :
    s.rangeList g a b m = [.ok ((rangeBase s i a m).val, rangeLength s i b m)] := by
  have hlow : ¬((rangeBase s i a m).val.extractLsb' 60 4 != 0) = true := fun h => absurd ((top_bits_iff _).1 h) (by omega)
  unfold State.rangeList
  rw [hs.1, hs.2]
  cases m with
  | true =>
    have hrange := laneRange_eq (s := s) (i := i) ha hb
    simp only [if_true, List.map_cons, List.map_nil, hrange]
    refine congrArg (fun x => [x]) ((if_neg hlow).trans ?_)
    rw [BitVec.toNat_setWidth_of_le (by decide)]
    rfl
  | false =>
    have hrange := scalarRange_eq (s := s) ha hb
    have hone : [strandBundle i].eraseDups = [strandBundle i] := rfl
    simp only [Bool.false_eq_true, if_false, List.map_cons, List.map_nil, hone, hrange]
    exact congrArg (fun x => [x]) (if_neg hlow)

theorem ranges_eq {x : Dword × Nat} (h : s.rangeList g a b m = [.ok x]) : s.ranges g a b m = .ok [x] := by
  rw [State.ranges, h]
  rfl

/-! ### The words under a range -/

theorem find_mapStale (ctx : Nat) (x : Dword × Nat) (f : OldWord → OldWord) {w : Nat} {ws : List OldWord}
    (hw : Tbl.find? s.stale w = some ws) : Tbl.find? (s.mapStale ctx [x] f).stale w =
      some (if ∃ q ∈ s.residentParts ctx x, q.1 ≤ w ∧ w < q.1 + q.2 then ws.map f else ws) := by
  have hinside : ∀ k : Nat, ([x].map (s.residentParts ctx)).flatten.any (fun p => decide (p.1 ≤ k) && decide (k < p.1 + p.2)) = true ↔
      ∃ q ∈ s.residentParts ctx x, q.1 ≤ k ∧ k < q.1 + q.2 := by
    intro k
    simp
  have hmap := Tbl.find_mapEntries
    (fun k (y : List OldWord) => if ∃ q ∈ s.residentParts ctx x, q.1 ≤ k ∧ k < q.1 + q.2 then y.map f else y) s.stale w
  rw [hw] at hmap
  refine Eq.trans (congrArg (Tbl.find? · w) ?_) hmap
  refine List.map_congr_left fun e _ => ?_
  simp only [hinside]
  split <;> rfl

/-- A change made under a range to the words that call for it. -/
theorem map_where {P : Prop} [Decidable P] (Q : OldWord → Prop) [DecidablePred Q] (f : OldWord → OldWord) (ws : List OldWord) :
    (if P then ws.map (fun y => if Q y then f y else y) else ws) = ws.map (fun y => if P ∧ Q y then f y else y) := by
  by_cases h : P <;> simp [h]

theorem exec_maintenance {x : Dword × Nat} (h : s.rangeList g a b m = [.ok x]) :
    (∀ instr ∈ [Instr.cwb g a b m, Instr.cinv g a b m],
      exec instr s = .next (s.mapStale s.cur.ctx [x] (writtenBack ((s.coreOf s.firstOwner).getD 0)))) ∧
    exec (.icinv g a b m) s = .next { s.mapStale s.cur.ctx [x] (invalidated (s.epoch + 1)) with epoch := s.epoch + 1 } := by
  have hclean : conclude s (s.cleanRanges g a b m) =
      .next (s.mapStale s.cur.ctx [x] (writtenBack ((s.coreOf s.firstOwner).getD 0))) := by
    rw [State.cleanRanges, ranges_eq h]
    rfl
  refine ⟨?_, ?_⟩
  · simp only [List.forall_mem_cons, List.not_mem_nil, false_imp_iff, implies_true, and_true]
    exact ⟨hclean, hclean⟩
  · show conclude s ((s.ranges g a b m).map _) = _
    rw [ranges_eq h]
    rfl

/-! ### PROBE of pages that are resident -/

theorem probePages_resident {ctx : Nat} (n q : Nat) (hpages : ∀ j, q ≤ j → j < q + n → ∃ p, s.walk ctx (65536 * j) = .page p)
    (hlow : 65536 * (q + n) ≤ 2 ^ 64) : s.probePages ctx (BitVec.ofNat 64 (65536 * q)) n = (s, none) := by
  induction n generalizing q with
  | zero => rfl
  | succ n ih =>
    obtain ⟨p, hp⟩ := hpages q le_rfl (by omega)
    have haddr : (BitVec.ofNat 64 (65536 * q)).toNat = 65536 * q := Nat.mod_eq_of_lt (by omega)
    have hnext : BitVec.ofNat 64 (65536 * q) + 65536 = BitVec.ofNat 64 (65536 * (q + 1)) := by
      rw [Nat.mul_succ, BitVec.ofNat_add]
      rfl
    rw [State.probePages, State.makeResident, haddr, hp]
    dsimp only
    rw [hnext]
    exact ih (q + 1) (fun j h1 h2 => hpages j (by omega) (by omega)) (by omega)

theorem probeRange_resident {ctx n : Nat} {x : Dword} (hn : n ≤ 2 ^ 30)
    (hpages : ∀ j : Nat, x.toNat % 2 ^ 56 / 65536 ≤ j → 65536 * j < x.toNat % 2 ^ 56 + n → ∃ p, s.walk ctx (65536 * j) = .page p) :
    s.probeRange ctx (x, n) = (s, none) := by
  unfold State.probeRange
  dsimp only
  split
  · rfl
  next h =>
    have hx : x.toNat % 2 ^ 56 < 2 ^ 56 := Nat.mod_lt _ (by decide)
    refine probePages_resident _ _ (fun j h1 h2 => hpages j h1 (by omega)) (by omega)

/-- On a raster core PROBE waits for nothing. -/
theorem drainPoint_raster (h : ∀ o ∈ s.cur.owners, 288 ≤ o) (mats : Bool) : s.drainPoint mats = .ok s := by
  refine if_pos (List.all_eq_true.2 fun o ho => ?_)
  have hbundle : ownerIsTile o = false := decide_eq_false (by have := h o ho; omega)
  rw [hbundle]
  rfl

theorem exec_probe_resident {x : Dword × Nat} (h : s.rangeList g a b m = [.ok x]) (howners : ∀ o ∈ s.cur.owners, 288 ≤ o)
    (hlen : x.2 ≤ 2 ^ 30) (hrange : s.probeRange s.cur.ctx x = (s, none)) : exec (.probe g a b m) s = .next s := by
  have hwork : s.probeWork g a b m = (s, none) := by
    rw [State.probeWork, drainPoint_raster howners]
    dsimp only
    rw [h, State.probeAll, if_neg (by omega), hrange]
    rfl
  show execProbe g a b m s = _
  rw [execProbe, hwork]

end Maintenance

/-! ### Tags -/

section Tags
variable {s : State} {g : Guard} {i : Nat} {d a : BitVec 6} {lb : Bool} {off : BitVec 31} {pa : Nat} {p : PageInfo}

theorem exec_tagset (hs : OneStrand s g i) (hb : (baseOf s i a lb).poison = none)
    (hr : Reach s (addressOf s i a lb off) 32 32 true false pa p) : exec (.tagset g a lb off) s =
      .next (if p.tagged then { s with tags := Tbl.put 0 s.tags (pa / 32) (addrTag (addressOf s i a lb off)) } else s) := by
  refine (congrArg (concludeAccess false s) (hs.forStrands_eq _)).trans ?_
  simp only [tagsetStrand, laneAddr_eq hb, hr.globalAccess_eq (by decide : 0 < 32)]
  rfl

theorem exec_tagget (hs : OneStrand s g i) (hb : (baseOf s i a lb).poison = none)
    (hr : Reach s (addressOf s i a lb off) 32 32 false false pa p) : exec (.tagget g d a lb off) s =
      .next (s.setV i d.toNat ⟨if p.tagged then (Tbl.getD s.tags (pa / 32) 0).setWidth 32 else 0, none⟩) := by
  refine (congrArg (concludeAccess false s) (hs.forStrands_eq _)).trans ?_
  simp only [taggetStrand, laneAddr_eq hb, hr.globalAccess_eq (by decide : 0 < 32)]
  rfl

end Tags

end Sys2Proof.Claims

namespace Sys2Proof
open Sys2Proof.Machine Sys2Proof.Claims

/-- Settles O22: a maintenance instruction of one strand names one range, and changes the words held under it or nothing. -/
theorem cacheAndTags : Obligations.CacheAndTags := by
  refine ⟨fun s g i k hs hk => ⟨_, exec_invRo hs hk, rfl, ?_, fun j hj => ?_⟩, fun s g i a b m hs => ?_,
    fun s g i pa p d a lb off hs hb => ⟨fun hr => ⟨_, exec_tagset hs hb hr, ?_, fun k => ?_⟩, fun hr => ⟨_, exec_tagget hs hb hr, ?_, ?_⟩⟩⟩
  · exact (State.core_setCore ..).trans (if_pos rfl)
  · exact (State.core_setCore ..).trans (if_neg hj)
  · intro base len hbase hlen htop parts inside
    have hlist := rangeList_eq (a := a) (b := b) hs hbase hlen htop
    obtain ⟨hclean, hicinv⟩ := exec_maintenance hlist
    refine ⟨fun instr hinstr => ⟨_, hclean instr hinstr, rfl, fun w x hx => ?_⟩, ⟨_, hicinv, rfl, fun w x hx => ?_⟩,
      fun hshort howners hpages => exec_probe_resident hlist howners hshort (probeRange_resident hshort hpages)⟩
    · exact (find_mapStale _ _ _ hx).trans (congrArg some (map_where _ _ _))
    · exact (find_mapStale _ _ _ hx).trans (congrArg some (map_where _ _ _))
  · cases p.tagged <;> rfl
  · cases p.tagged with
    | false => rfl
    | true =>
      refine (Tbl.getD_put ..).trans ?_
      simp only [true_and]
      rfl
  · exact (State.getV_setV ..).trans (if_pos ⟨rfl, rfl⟩)
  · exact State.setV_frame ..

end Sys2Proof

namespace Sys2Proof.Machine
open Sys2Proof.Claims

/-! ## Atomics (04 R111-R113, R120) -/

theorem State.readLE_lt (s : State) (pa n : Nat) : s.readLE pa n < 256 ^ n := by
  induction n generalizing pa with
  | zero => exact Nat.one_pos
  | succ n ih =>
    have hbyte := (s.byte pa).isLt
    have hrest := ih (pa + 1)
    rw [State.readLE, Nat.pow_succ]
    omega

theorem State.pageLE_lt (s : State) (p : PageInfo) (pa n : Nat) : s.pageLE p pa n < 256 ^ n :=
  (s.readLE_lt ..).trans_le (Nat.pow_le_pow_right (by decide) (PageInfo.room_le ..))

/-! ### The word an atomic writes, and the response it may wait for -/

theorem State.storeData_rest (s : State) (pa n v : Nat) : s.storeData pa n v = { s with
    mem := (s.storeData pa n v).mem, stale := (s.storeData pa n v).stale, writes := (s.storeData pa n v).writes,
    oldMaps := (s.storeData pa n v).oldMaps } := by
  unfold State.storeData
  rw [State.writeLE_rest]
  unfold State.noteWords
  rw [State.noteEntries_eq, State.noteStore_eq]

theorem stored_storeData (s : State) (pa n v : Nat) : Stored s (s.storeData pa n v) pa n v := by
  intro x
  refine (State.byte_writeLE ..).trans ?_
  rw [State.byte, (s.noteWords_keeps pa n 0).1]
  rfl

theorem State.dieOf_storeData (s : State) (pa n v o : Nat) : (s.storeData pa n v).dieOf o = s.dieOf o := by
  rw [State.storeData_rest]; rfl
theorem State.strand_storeData (s : State) (pa n v i : Nat) : (s.storeData pa n v).strand i = s.strand i := by
  rw [State.storeData_rest]; rfl

/-- Of a word's value only the bytes below 2^32 are stored in four bytes. -/
theorem ofNat_byte_word (v : Nat) {k : Nat} (hk : k < 4) :
    BitVec.ofNat 8 ((BitVec.ofNat 32 v).toNat / 256 ^ k) = BitVec.ofNat 8 (v / 256 ^ k) := by
  refine BitVec.eq_of_toNat_eq ?_
  simp only [BitVec.toNat_ofNat]
  interval_cases k <;> omega

theorem stored_of_word {s t : State} {pa n v : Nat} (h : Stored s t pa n (BitVec.ofNat 32 v).toNat) (hn : n ≤ 4) :
    Stored s t pa n v := by
  intro x
  rw [h x]
  split
  · exact ofNat_byte_word v (by omega)
  · rfl

theorem State.outstanding_rest (s : State) (i : Nat) (d : BitVec 6) (addr : Dword) (pa : Nat) :
    s.outstanding i d addr pa = { s with strands := (s.outstanding i d addr pa).strands } := by
  unfold State.outstanding
  split <;> rfl

theorem State.strand_outstanding (s : State) (i : Nat) (d : BitVec 6) (addr : Dword) (pa j : Nat) :
    (s.outstanding i d addr pa).strand j = if j = i then { s.strand i with
      remote := (if dieOfAddr pa = s.dieOf (strandBundle i) then [] else [(d.toNat, addr)]) ++ (s.strand i).remote } else s.strand j := by
  unfold State.outstanding
  by_cases hdie : dieOfAddr pa = s.dieOf (strandBundle i)
  · rw [if_pos hdie, if_pos hdie]
    split
    · subst_vars; rfl
    · rfl
  · rw [if_neg hdie, if_neg hdie]
    exact State.strand_setStrand ..

theorem State.getV_outstanding (s : State) (i : Nat) (d : BitVec 6) (addr : Dword) (pa j n : Nat) :
    (s.outstanding i d addr pa).getV j n = s.getV j n := by
  rw [State.getV, State.strand_outstanding]
  split
  · subst_vars; rfl
  · rfl

/-- A strand's old word delivered, with the response that another die may still owe it. -/
def State.deliverOld (s : State) (i : Nat) (d : BitVec 6) (addr : Dword) (pa : Nat) (old : Word) : State :=
  (s.setV i d.toNat ⟨old, none⟩).outstanding i d addr pa

section
variable (s : State) (i : Nat) (d : BitVec 6) (addr : Dword) (pa : Nat) (old : Word)

theorem deliverOld_rest : s.deliverOld i d addr pa old = { s with strands := (s.deliverOld i d addr pa old).strands } :=
  State.outstanding_rest ..

theorem getV_deliverOld (j m : Nat) :
    (s.deliverOld i d addr pa old).getV j m = if j = i ∧ m = d.toNat then ⟨old, none⟩ else s.getV j m :=
  (State.getV_outstanding ..).trans (State.getV_setV ..)

theorem strand_deliverOld (j : Nat) : (s.deliverOld i d addr pa old).strand j = if j = i then { s.strand i with
    v := ((s.deliverOld i d addr pa old).strand i).v,
    remote := (if dieOfAddr pa = s.dieOf (strandBundle i) then [] else [(d.toNat, addr)]) ++ (s.strand i).remote } else s.strand j := by
  have hframe := State.setV_frame s i d.toNat ⟨old, none⟩
  have hdie : (s.setV i d.toNat ⟨old, none⟩).dieOf (strandBundle i) = s.dieOf (strandBundle i) := rfl
  unfold State.deliverOld
  rw [State.strand_outstanding, State.strand_outstanding, hdie]
  by_cases h : j = i
  · rw [if_pos h, if_pos h, if_pos rfl, hframe.strand i]
  · rw [if_neg h, if_neg h, State.setV, State.strand_setStrand, if_neg h]

end

/-- What a global atomic of strand i leaves where its word stood at pa. -/
def State.atomDone (s : State) (i : Nat) (d : BitVec 6) (addr : Dword) (pa n : Nat) (old w : Word) : State :=
  ((s.touch (strandBundle i) pa).storeData pa n w.toNat).deliverOld i d addr pa old

section
variable (s : State) (i : Nat) (d : BitVec 6) (addr : Dword) (pa n : Nat) (old w : Word)

theorem getV_atomDone (j m : Nat) :
    (s.atomDone i d addr pa n old w).getV j m = if j = i ∧ m = d.toNat then ⟨old, none⟩ else s.getV j m := by
  rw [State.atomDone, getV_deliverOld, State.getV, State.strand_storeData, State.strand_touch]
  rfl

theorem stored_atomDone : Stored s (s.atomDone i d addr pa n old w) pa n w.toNat := by
  intro x
  rw [State.atomDone, deliverOld_rest]
  refine (stored_storeData (s.touch (strandBundle i) pa) pa n w.toNat x).trans ?_
  rw [State.byte_touch]

theorem strand_atomDone (j : Nat) : (s.atomDone i d addr pa n old w).strand j = if j = i then { s.strand i with
    v := ((s.atomDone i d addr pa n old w).strand i).v,
    remote := (if dieOfAddr pa = s.dieOf (strandBundle i) then [] else [(d.toNat, addr)]) ++ (s.strand i).remote } else s.strand j := by
  refine (strand_deliverOld ..).trans ?_
  rw [State.strand_storeData, State.strand_storeData, State.strand_touch, State.strand_touch, State.dieOf_storeData, State.dieOf_touch]
  rfl

theorem atomDone_rest : s.atomDone i d addr pa n old w = { s with
    mem := (s.atomDone i d addr pa n old w).mem, stale := (s.atomDone i d addr pa n old w).stale,
    writes := (s.atomDone i d addr pa n old w).writes, oldMaps := (s.atomDone i d addr pa n old w).oldMaps,
    bundles := (s.atomDone i d addr pa n old w).bundles, cores := (s.atomDone i d addr pa n old w).cores,
    strands := (s.atomDone i d addr pa n old w).strands } := by
  unfold State.atomDone
  rw [deliverOld_rest, State.storeData_rest, State.touch_rest]

theorem atomDone_frame : AtomicFrame s (s.atomDone i d addr pa n old w) i d addr pa where
  rest := atomDone_rest ..
  own := (strand_atomDone ..).trans (if_pos rfl)
  others j hj := (strand_atomDone ..).trans (if_neg hj)
  reg m hm := (getV_atomDone ..).trans (if_neg fun h => hm h.2)
  lease := (leaseTrace_touch s (strandBundle i) pa).congr
    (by rw [State.atomDone, deliverOld_rest, State.storeData_rest]) (by rw [State.atomDone, deliverOld_rest, State.storeData_rest])

end

end Sys2Proof.Machine

namespace Sys2Proof.Claims
open Sys2Proof.Machine
open Host (Outcome)

section GlobalAtomic
variable {s : State} {g : Guard} {i : Nat} {d a b : BitVec 6} {lb : Bool} {sc : BitVec 3} {ord : BitVec 2} {off : BitVec 19}
  {pa : Nat} {p : PageInfo}

/-- The address of an access of any format (04 R101). -/
theorem laneAddress_eq {w : Nat} {off : BitVec w} (h : (baseOf s i a lb).poison = none) :
    s.laneAddr i a lb off = .ok (addressOf s i a lb off) := by
  rw [State.laneAddr, laneBase_eq h]
  rfl

/-- The old v(d) is a source of ATOM.CAS alone. -/
theorem oldSource_eq {useOld : Bool} (hd : useOld = true → (s.laneV i d).poison = none) :
    (if useOld then s.useV i d.toNat else .ok 0) = .ok (if useOld then (s.laneV i d).val else 0) := by
  cases useOld with
  | false => rfl
  | true => exact useV_eq (hd rfl)

theorem atomStrand_eq (f : Word → Word → Word → Word) {useOld : Bool} (hb : (baseOf s i a lb).poison = none)
    (hv : (s.laneV i b).poison = none) (hd : useOld = true → (s.laneV i d).poison = none)
    (hr : Reach s (addressOf s i a lb off) 4 4 true true pa p) (hm : s.isMarked pa 4 = false) :
    atomStrand f useOld d a b lb off i s = .ok (s.atomDone i d (addressOf s i a lb off) pa (p.room pa 4)
      (BitVec.ofNat 32 (s.pageLE p pa 4))
      (f (BitVec.ofNat 32 (s.pageLE p pa 4)) (s.laneV i b).val (if useOld then (s.laneV i d).val else 0))) := by
  simp only [atomStrand, laneAddress_eq hb, useV_eq hv, oldSource_eq hd, hr.laneGlobal_eq (by decide : 0 < 4),
    State.isMarked_touch, hm, State.pageLE_touch, loaded_plain]
  rfl

/-- What every global atomic leaves: v(d), the word, and nothing else of the machine but the trace. -/
def AtomEnds (s t : State) (i : Nat) (d : BitVec 6) (addr : Dword) (pa : Nat) (p : PageInfo) (w : Word) : Prop :=
  t.laneV i d = ⟨BitVec.ofNat 32 (s.pageLE p pa 4), none⟩ ∧ Stored s t pa (p.room pa 4) w.toNat ∧ AtomicFrame s t i d addr pa

theorem atomDone_ends (s : State) (i : Nat) (d : BitVec 6) (addr : Dword) (pa : Nat) (p : PageInfo) (w : Word) :
    AtomEnds s (s.atomDone i d addr pa (p.room pa 4) (BitVec.ofNat 32 (s.pageLE p pa 4)) w) i d addr pa p w :=
  ⟨(getV_atomDone ..).trans (if_pos ⟨rfl, rfl⟩), fun x => stored_atomDone s i d addr pa _ _ w x, atomDone_frame ..⟩

/-- A global atomic is the atomic of its group by a function that agrees with the rule's where v(d) counts. -/
theorem exec_globalAtomic {e : Instr × (Word → Word → Word → Word)} (he : e ∈ globalAtomics g d a b lb sc ord off) :
    ∃ f useOld, exec e.1 s = atomGroup f useOld g d a b lb off s ∧
      (useOld = true → e.1 = .atomCas g d a b lb sc ord false off) ∧ ∀ m x z, f m x (if useOld then z else 0) = e.2 m x z := by
  simp only [globalAtomics, List.mem_cons, List.not_mem_nil, or_false] at he
  rcases he with rfl | rfl | rfl | rfl | rfl | rfl | rfl | rfl | rfl | rfl | rfl
  · exact ⟨_, _, rfl, nofun, fun _ _ _ => rfl⟩
  · exact ⟨_, _, rfl, nofun, fun m x _ => pickMin_signed m x⟩
  · exact ⟨_, _, rfl, nofun, fun m x _ => pickMin_unsigned m x⟩
  · exact ⟨_, _, rfl, nofun, fun m x _ => pickMax_signed m x⟩
  · exact ⟨_, _, rfl, nofun, fun m x _ => pickMax_unsigned m x⟩
  · exact ⟨_, _, rfl, nofun, fun _ _ _ => rfl⟩
  · exact ⟨_, _, rfl, nofun, fun _ _ _ => rfl⟩
  · exact ⟨_, _, rfl, nofun, fun _ _ _ => rfl⟩
  · exact ⟨_, _, rfl, nofun, fun _ _ _ => rfl⟩
  · exact ⟨_, _, rfl, fun _ => rfl, fun _ _ _ => rfl⟩
  · refine ⟨_, _, rfl, nofun, fun m x _ => if_congr ?_ rfl rfl⟩
    rw [BitVec.ule_eq_decide, decide_eq_true_iff]

theorem globalAtomic_ends {e : Instr × (Word → Word → Word → Word)} (he : e ∈ globalAtomics g d a b lb sc ord off)
    (hs : OneStrand s g i) (hb : (baseOf s i a lb).poison = none) (hv : (s.laneV i b).poison = none)
    (hd : e.1 = .atomCas g d a b lb sc ord false off → (s.laneV i d).poison = none)
    (hr : Reach s (addressOf s i a lb off) 4 4 true true pa p) (hm : s.isMarked pa 4 = false) :
    ∃ t, exec e.1 s = .next t ∧ AtomEnds s t i d (addressOf s i a lb off) pa p
      (e.2 (BitVec.ofNat 32 (s.pageLE p pa 4)) (s.laneV i b).val (s.laneV i d).val) := by
  obtain ⟨f, useOld, hexec, hcas, hf⟩ := exec_globalAtomic (s := s) he
  refine ⟨_, ?_, atomDone_ends ..⟩
  rw [hexec, atomGroup, hs.forStrands_eq, atomStrand_eq f hb hv (fun h => hd (hcas h)) hr hm, hf]
  rfl

theorem atomFadd_eq (fz : Bool) {m : Nat} (hm : m < 2 ^ 32) (x : Word) :
    atomFadd fz (BitVec.ofNat 32 m) x = BitVec.ofNat 32 (addOf fmtFP32 .rne fz m x.toNat).1 := by
  rw [atomFadd, BitVec.toNat_ofNat, Nat.mod_eq_of_lt hm]
  rfl

theorem atomFadd_ends (hs : OneStrand s g i) (hb : (baseOf s i a lb).poison = none) (hv : (s.laneV i b).poison = none)
    (hr : Reach s (addressOf s i a lb off) 4 4 true true pa p) (hm : s.isMarked pa 4 = false) :
    ∃ t, exec (.atomFadd g d a b lb sc ord false off) s = .next t ∧ AtomEnds s t i d (addressOf s i a lb off) pa p
      (BitVec.ofNat 32 (addOf fmtFP32 .rne (s.fzOf i) (s.pageLE p pa 4) (s.laneV i b).val.toNat).1) := by
  refine ⟨_, ?_, atomDone_ends ..⟩
  refine (congrArg (concludeAccess false s) (hs.forStrands_eq _)).trans ?_
  rw [atomStrand_eq (useOld := false) _ hb hv nofun hr hm, atomFadd_eq _ (s.pageLE_lt p pa 4)]
  rfl

theorem globalAtomics_hold : GlobalAtomics := by
  intro s g i d a b lb sc ord off pa p hs hb hv hr hm
  refine ⟨fun e he hd => globalAtomic_ends he hs hb hv hd hr hm, ?_⟩
  obtain ⟨t, ht, hold, hstored, hframe⟩ := atomFadd_ends (sc := sc) (ord := ord) hs hb hv hr hm
  exact ⟨t, ht, hold, stored_of_word hstored (PageInfo.room_le ..), hframe⟩

end GlobalAtomic

end Sys2Proof.Claims

namespace Sys2Proof.Machine
open Sys2Proof.Claims

/-! ### Bytes of the scratchpads (04 R109) -/

/-- A little-endian write's first byte and the rest of it are the write. -/
theorem leByte_succ (a n v k : Nat) (x : Byte) :
    (if a + 1 ≤ k ∧ k < a + 1 + n then BitVec.ofNat 8 (v / 256 / 256 ^ (k - (a + 1))) else if k = a then BitVec.ofNat 8 v else x) =
      if a ≤ k ∧ k < a + (n + 1) then BitVec.ofNat 8 (v / 256 ^ (k - a)) else x := by
  by_cases hrest : a + 1 ≤ k ∧ k < a + 1 + n
  · rw [if_pos hrest, if_pos (by omega), show k - a = k - (a + 1) + 1 by omega, Nat.pow_succ', Nat.div_div_eq_div_mul]
  · rw [if_neg hrest]
    by_cases hfirst : k = a
    · rw [if_pos hfirst, if_pos (by omega), hfirst, Nat.sub_self, pow_zero, Nat.div_one]
    · rw [if_neg hfirst, if_neg (by omega)]

/-- Between s and t at most the scratchpad of crew c differs. -/
structure ScratchFrame (s t : State) (c : Nat) : Prop where
  rest : t = { s with crews := t.crews }
  others : ∀ k, k ≠ c → Tbl.find? t.crews k = Tbl.find? s.crews k
  own : ∀ y, Tbl.find? s.crews c = some y → ∃ z, Tbl.find? t.crews c = some z ∧ z = { y with scratch := z.scratch }

theorem ScratchFrame.refl (s : State) (c : Nat) : ScratchFrame s s c := ⟨rfl, fun _ _ => rfl, fun y hy => ⟨y, hy, rfl⟩⟩

theorem ScratchFrame.trans {s t u : State} {c : Nat} (h : ScratchFrame s t c) (k : ScratchFrame t u c) : ScratchFrame s u c where
  rest := by rw [k.rest, h.rest]
  others j hj := (k.others j hj).trans (h.others j hj)
  own y hy := by
    obtain ⟨z, hz, hzy⟩ := h.own y hy
    obtain ⟨z', hz', hzz⟩ := k.own z hz
    exact ⟨z', hz', by rw [hzz, hzy]⟩

theorem setScratchByte_frame (s : State) (c a : Nat) (v : Byte) : ScratchFrame s (s.setScratchByte c a v) c := by
  unfold State.setScratchByte
  split
  next y hy =>
    refine ⟨rfl, fun k hk => Tbl.find_insert_ne _ _ hk, fun y' hy' => ⟨_, Tbl.find_insert_self .., ?_⟩⟩
    rw [hy] at hy'
    cases hy'
    rfl
  · exact .refl s c

theorem scratchByte_setScratchByte {s : State} {c : Nat} {y : Crew} (hy : Tbl.find? s.crews c = some y) (a : Nat) (v : Byte) (k : Nat) :
    (s.setScratchByte c a v).scratchByte c k = if k = a then v else s.scratchByte c k := by
  have hset : s.setScratchByte c a v = s.setCrew c { y with scratch := Tbl.put 0 y.scratch a v } := by
    rw [State.setScratchByte, hy]
  have hfind : Tbl.find? (s.setCrew c { y with scratch := Tbl.put 0 y.scratch a v }).crews c =
      some { y with scratch := Tbl.put 0 y.scratch a v } := Tbl.find_insert_self ..
  rw [hset, State.scratchByte, State.scratchByte, hfind, hy]
  exact Tbl.getD_put ..

theorem writeScratch_frame (s : State) (c a n v : Nat) : ScratchFrame s (s.writeScratch c a n v) c := by
  induction n generalizing s a v with
  | zero => exact .refl s c
  | succ n ih => exact (setScratchByte_frame ..).trans (ih ..)

theorem scratchByte_writeScratch {s : State} {c : Nat} {y : Crew} (hy : Tbl.find? s.crews c = some y) (a n v k : Nat) :
    (s.writeScratch c a n v).scratchByte c k =
      if a ≤ k ∧ k < a + n then BitVec.ofNat 8 (v / 256 ^ (k - a)) else s.scratchByte c k := by
  induction n generalizing s y a v with
  | zero => exact (if_neg (by omega)).symm
  | succ n ih =>
    obtain ⟨z, hz, -⟩ := (setScratchByte_frame s c a (BitVec.ofNat 8 v)).own y hy
    rw [State.writeScratch, ih hz, scratchByte_setScratchByte hy, leByte_succ]

/-- The crew whose scratchpad an address names is there. -/
theorem crew_of_scratchAt {s : State} {k c x : Nat} {addr : Dword} {above : Bool} (h : s.scratchAt k addr = some (c, x, above)) :
    ∃ y, Tbl.find? s.crews c = some y := by
  unfold State.scratchAt at h
  split at h
  · cases h
  next y hy =>
    cases hg : y.grove with
    | none =>
      simp only [hg, Option.ite_none_right_eq_some] at h
      cases h.2
      exact ⟨y, hy⟩
    | some g =>
      simp only [hg, Option.ite_none_right_eq_some] at h
      obtain ⟨-, -, h⟩ := h
      generalize he : List.find? _ s.crews = e at h
      cases e with
      | none => cases h
      | some e =>
        simp only [Option.ite_none_left_eq_some] at h
        cases h.2
        refine Option.ne_none_iff_exists'.1 fun hnone => ?_
        exact (Tbl.find_none_iff ..).1 hnone e (List.mem_of_find?_eq_some he) rfl

/-! ### Bytes of a tile's scratchpad (15 R265, R266) -/

theorem Tile.byte_setByte (x : Tile) (a : Nat) (v : Byte) (k : Nat) : (x.setByte a v).byte k = if k = a then v else x.byte k := by
  unfold Tile.setByte
  dsimp only
  split
  · exact Tbl.getD_put ..
  · exact Tbl.getD_put ..

theorem Tile.setByte_rest (x : Tile) (a : Nat) (v : Byte) :
    x.setByte a v = { x with scratch := (x.setByte a v).scratch, dirty := (x.setByte a v).dirty, written := (x.setByte a v).written } := by
  unfold Tile.setByte
  dsimp only
  split <;> rfl

theorem Tile.byte_writeLE (x : Tile) (a n v k : Nat) :
    (x.writeLE a n v).byte k = if a ≤ k ∧ k < a + n then BitVec.ofNat 8 (v / 256 ^ (k - a)) else x.byte k := by
  induction n generalizing x a v with
  | zero => exact (if_neg (by omega)).symm
  | succ n ih => rw [Tile.writeLE, ih, Tile.byte_setByte, leByte_succ]

theorem Tile.writeLE_rest (x : Tile) (a n v : Nat) : x.writeLE a n v =
    { x with scratch := (x.writeLE a n v).scratch, dirty := (x.writeLE a n v).dirty, written := (x.writeLE a n v).written } := by
  induction n generalizing x a v with
  | zero => rfl
  | succ n ih => rw [Tile.writeLE, ih, Tile.setByte_rest]

/-- An aligned word lies in one line. -/
theorem linesOf_word {a : Nat} (h : a % 4 = 0) : linesOf a 4 = [a / 128] := by
  have hlines : (a + 4 - 1) / 128 - a / 128 + 1 = 1 := by omega
  rw [linesOf, if_neg (by decide), hlines]
  rfl

theorem storeTile_word {s : State} {k a : Nat} (v : Nat) (halign : a % 4 = 0) (hflight : s.lineInFlight (.tile k) (a / 128) = false) :
    s.storeTile k a 4 v = s.setTile k ((s.tile k).writeLE a 4 v) := by
  rw [State.storeTile, linesOf_word halign, List.any_cons, hflight]
  rfl

end Sys2Proof.Machine

namespace Sys2Proof.Claims
open Sys2Proof.Machine
open Host (Outcome)

section ScratchAtomic
variable {s : State} {g : Guard} {i c x k : Nat} {d a b : BitVec 6} {lb : Bool} {sc : BitVec 3} {ord : BitVec 2} {off : BitVec 19}
  {st : Stream}

/-! ### The scratchpad atomics (04 R113) -/

theorem scratchAccess_eq {n : Nat} {addr : Dword} {above : Bool} (halign : addr.toNat % n = 0)
    (hat : s.scratchAt k addr = some (c, x, above)) : s.scratchAccess k addr n = .ok (c, x, above) := by
  rw [State.scratchAccess, if_neg (fun h => absurd halign (bne_iff_ne.1 h)), hat]

/-- What a scratchpad atomic of a strand leaves: the new word in its crew's scratchpad, and the old one in v(d). -/
def scratchAtomDone (s : State) (i : Nat) (d : BitVec 6) (c x : Nat) (w : Word) : State :=
  (s.writeScratch c x 4 w.toNat).setV i d.toNat ⟨BitVec.ofNat 32 (s.scratchLE c x 4), none⟩

theorem atomsStrand_eq (f : Word → Word → Word → Word) {useOld : Bool} (hb : (baseOf s i a lb).poison = none)
    (hv : (s.laneV i b).poison = none) (hd : useOld = true → (s.laneV i d).poison = none)
    (halign : (addressOf s i a lb off).toNat % 4 = 0) (hat : s.scratchAt (s.crewId i) (addressOf s i a lb off) = some (c, x, false))
    (habsent : s.crewLineAbsent c x = false) (hm : s.crewMarked c x 4 = false)
    (hflight : s.lineInFlight (.crew c) (x / 128) = false) :
    atomsStrand f useOld d a b lb off i s = .ok (scratchAtomDone s i d c x
      (f (BitVec.ofNat 32 (s.scratchLE c x 4)) (s.laneV i b).val (if useOld then (s.laneV i d).val else 0))) := by
  have hload : s.scratchLoad i (addressOf s i a lb off) 4 32 = .ok (⟨BitVec.ofNat 32 (s.scratchLE c x 4), none⟩, s) := by
    simp only [State.scratchLoad, scratchAccess_eq halign hat, habsent, hm, loaded_plain]
    rfl
  have hstore (v : Nat) : s.scratchStore i (addressOf s i a lb off) 4 v = .ok (s.writeScratch c x 4 v) := by
    simp only [State.scratchStore, scratchAccess_eq halign hat, State.storeScratch, hflight]
    rfl
  simp only [atomsStrand, laneAddress_eq hb, useV_eq hv, oldSource_eq hd, hload, hstore]
  rfl

theorem afterPresence_cleared (f t : Nat → State → Eff State) (hcleared : s.cur.cleared = true) :
    afterPresence g a lb off s f t = concludeAccess false s (byProfile g s f t) := by
  rw [afterPresence, if_pos hcleared]

theorem scratchAtomDone_spec {y : Crew} (hy : Tbl.find? s.crews c = some y) (i : Nat) (d : BitVec 6) (x : Nat) (w : Word) :
    let t := scratchAtomDone s i d c x w
    t.laneV i d = ⟨BitVec.ofNat 32 (s.scratchLE c x 4), none⟩ ∧
      (∀ k, t.scratchByte c k = if x ≤ k ∧ k < x + 4 then BitVec.ofNat 8 (w.toNat / 256 ^ (k - x)) else s.scratchByte c k) ∧
      (∀ k, k ≠ c → Tbl.find? t.crews k = Tbl.find? s.crews k) ∧
      (∀ y, Tbl.find? s.crews c = some y → ∃ z, Tbl.find? t.crews c = some z ∧ z = { y with scratch := z.scratch }) ∧
      LaneFrame { s with crews := t.crews } t [i] (fun n => n = d.toNat) := by
  intro t
  obtain ⟨hrest, hothers, hown⟩ := writeScratch_frame s c x 4 w.toNat
  refine ⟨(State.getV_setV ..).trans (if_pos ⟨rfl, rfl⟩), scratchByte_writeScratch hy x 4 w.toNat, hothers, hown, ?_⟩
  show LaneFrame { s with crews := (s.writeScratch c x 4 w.toNat).crews } _ _ _
  rw [← hrest]
  exact State.setV_frame ..

/-! ### Atomics of a stream -/

theorem tileLoad_word {addr : Dword} (halign : addr.toNat % 4 = 0) (hrange : addr.toNat + 4 ≤ 524288)
    (habsent : addr.toNat / 128 ∉ (s.tile k).absent) (hm : (s.tile k).isMarked addr.toNat 4 = false) :
    s.tileLoad k addr 4 32 = .ok (⟨BitVec.ofNat 32 ((s.tile k).readLE addr.toNat 4), none⟩, s) := by
  have hline : s.needLine k (addr.toNat / 128) = .ok s := by
    rw [State.needLine]
    exact if_pos (by simpa using habsent)
  have haccess : tileAccess addr 4 4 = .ok addr.toNat :=
    (if_neg fun h => absurd halign (bne_iff_ne.1 h)).trans (if_pos hrange)
  simp only [State.tileLoad, haccess, hline, hm, loaded_plain]

theorem tileStore_word {addr : Dword} (v : Nat) (halign : addr.toNat % 4 = 0) (hrange : addr.toNat + 4 ≤ 524288)
    (hflight : s.lineInFlight (.tile k) (addr.toNat / 128) = false) :
    s.tileStore k addr 4 v = .ok (s.setTile k ((s.tile k).writeLE addr.toNat 4 v)) := by
  have haccess : tileAccess addr 4 4 = .ok addr.toNat :=
    (if_neg fun h => absurd halign (bne_iff_ne.1 h)).trans (if_pos hrange)
  simp only [State.tileStore, haccess, storeTile_word v halign hflight]

/-- What a scratchpad atomic of tile k leaves: the new word in its scratchpad, and the old one in s(d). -/
def tileAtomDone (s : State) (k : Nat) (d : BitVec 6) (x : Nat) (w : Word) : State :=
  (s.setTile k ((s.tile k).writeLE x 4 w.toNat)).setS k d ⟨(BitVec.ofNat 32 ((s.tile k).readLE x 4)).setWidth 64, none⟩

theorem oldScalar_eq {useOld : Bool} (hd : (s.getS k d).poison = none) :
    (if useOld then s.useS k d else .ok 0) = .ok (if useOld then (s.getS k d).val else 0) := by
  cases useOld with
  | false => rfl
  | true => exact State.useS_plain hd

theorem atomsTile_eq (f : Word → Word → Word → Word) (useOld : Bool) {addr : Dword} (haddr : addr = (s.getS k a).val + off.signExtend 64)
    (ha : (s.getS k a).poison = none) (hb : (s.getS k b).poison = none) (hd : (s.getS k d).poison = none)
    (halign : addr.toNat % 4 = 0) (hrange : addr.toNat + 4 ≤ 524288) (habsent : addr.toNat / 128 ∉ (s.tile k).absent)
    (hm : (s.tile k).isMarked addr.toNat 4 = false) (hflight : s.lineInFlight (.tile k) (addr.toNat / 128) = false) :
    atomsTile f useOld d a b off k s = .ok (tileAtomDone s k d addr.toNat (f (BitVec.ofNat 32 ((s.tile k).readLE addr.toNat 4))
      ((s.getS k b).val.setWidth 32) ((if useOld then (s.getS k d).val else 0).setWidth 32))) := by
  subst haddr
  simp only [atomsTile, tileAddr_eq ha, State.useS_plain hb, oldScalar_eq hd, tileLoad_word halign hrange habsent hm,
    tileStore_word _ halign hrange hflight]
  rfl

theorem tileAtomDone_spec (s : State) (k : Nat) (d : BitVec 6) (x : Nat) (w : Word) :
    let t := tileAtomDone s k d x w
    t.getS k d = (if d = 0 then .zero 64 else ⟨(BitVec.ofNat 32 ((s.tile k).readLE x 4)).setWidth 64, none⟩) ∧
      (∀ j, (t.tile k).byte j = if x ≤ j ∧ j < x + 4 then BitVec.ofNat 8 (w.toNat / 256 ^ (j - x)) else (s.tile k).byte j) ∧
      (∀ j, j ≠ k → t.tile j = s.tile j) ∧
      t.tile k = { s.tile k with scratch := (t.tile k).scratch, dirty := (t.tile k).dirty, written := (t.tile k).written } ∧
      ScalarFrame { s with tiles := t.tiles } t [k] d := by
  intro t
  have hframe : ScalarFrame (s.setTile k ((s.tile k).writeLE x 4 w.toNat)) t [k] d := State.setS_frame ..
  have htiles : t.tiles = (s.setTile k ((s.tile k).writeLE x 4 w.toNat)).tiles := by rw [hframe.rest]
  have htile (j : Nat) : t.tile j = if j = k then (s.tile k).writeLE x 4 w.toNat else s.tile j := by
    rw [State.tile, htiles]
    exact State.tile_setTile ..
  have hown : t.tile k = (s.tile k).writeLE x 4 w.toNat := (htile k).trans (if_pos rfl)
  refine ⟨getS_setSOr _ k d (some _), fun j => ?_, fun j hj => (htile j).trans (if_neg hj), ?_, ?_⟩
  · rw [hown, Tile.byte_writeLE]
  · rw [hown]
    exact Tile.writeLE_rest ..
  · rw [htiles]
    exact hframe

theorem scratchpadAtomics_hold : ScratchpadAtomics := by
  refine ⟨fun s g i c x d a b lb sc ord off hs hcleared hb hv hd halign hat habsent hm hflight => ?_,
    fun s k st g d a b sc ord off h hcleared ha hb hd => ?_, fun s b st d addr hlive hin => ?_⟩
  · intro old
    obtain ⟨y, hy⟩ := crew_of_scratchAt hat
    have hexec (f : Word → Word → Word → Word) (useOld : Bool) :
        afterPresence g a lb off s (atomsStrand f useOld d a b lb off) (atomsTile f useOld d a b off) =
          .next (scratchAtomDone s i d c x (f old (s.laneV i b).val (if useOld then (s.laneV i d).val else 0))) := by
      rw [afterPresence_cleared _ _ hcleared, hs.byProfile_eq, atomsStrand_eq f hb hv (fun _ => hd) halign hat habsent hm hflight]
      rfl
    rw [List.forall_mem_cons, List.forall_mem_singleton]
    exact ⟨⟨_, hexec (fun m x _ => m + x) false, scratchAtomDone_spec hy ..⟩, ⟨_, hexec casWord true, scratchAtomDone_spec hy ..⟩⟩
  · intro addr halign hrange habsent hm hflight old
    have hexec (f : Word → Word → Word → Word) (useOld : Bool) :
        afterPresence g a false off s (atomsStrand f useOld d a b false off) (atomsTile f useOld d a b off) =
          .next (tileAtomDone s k d addr.toNat
            (f old ((s.getS k b).val.setWidth 32) ((if useOld then (s.getS k d).val else 0).setWidth 32))) := by
      rw [afterPresence_cleared _ _ hcleared, byProfile_tile h,
        atomsTile_eq f useOld rfl ha hb hd halign hrange habsent hm hflight]
      rfl
    rw [List.forall_mem_cons, List.forall_mem_singleton]
    exact ⟨⟨_, hexec (fun m x _ => m + x) false, tileAtomDone_spec ..⟩, ⟨_, hexec casWord true, tileAtomDone_spec ..⟩⟩
  · obtain ⟨x, hx, hevent⟩ := log_getLast (s.poisonLate b st d addr).2 ⟨s.time, addr.toNat, 5, s.dieOf b, s.unitOf b, s.ownerCtx b⟩
    refine ⟨_, (s.poisonLate b st d addr).1, remoteAtomicError_due (strandLive_iff.2 hlive) hin, ?_, ?_, ?_, fun i n hne => ?_, fun pa => ?_⟩
    · rw [State.laneV, getV_log, getV_poisonLate, if_pos ⟨rfl, rfl⟩]
    · rw [originAt_log, originAt_poisonLate]
    · rw [hx, Option.map_some, hevent]
    · rw [getV_log, getV_poisonLate, if_neg hne]
    · rw [byte_log, byte_poisonLate]

end ScratchAtomic

end Sys2Proof.Claims

namespace Sys2Proof
open Sys2Proof.Machine Sys2Proof.Claims

/-- Settles O23: an atomic reads its word and writes what the rule makes of it in one step, and a late error poisons its destination. -/
theorem atomics : Obligations.Atomics := ⟨globalAtomics_hold, scratchpadAtomics_hold⟩

end Sys2Proof

namespace Sys2Proof.Machine
open Sys2Proof.Claims

/-! ## Images and quads (09 R193, R198) -/

/-! ### What an element leaves that the next element of its texel is read or stored by -/

/-- A strand computes under the same book, mode, flush and saturation. -/
structure SameControls (s t : State) (i : Nat) : Prop where
  book : t.bookOf i = s.bookOf i
  mode : t.modeOf i = s.modeOf i
  fz : t.fzOf i = s.fzOf i
  ofs : acrOfs (t.acr (strandBundle i)) = acrOfs (s.acr (strandBundle i))

theorem SameControls.refl (s : State) (i : Nat) : SameControls s s i := ⟨rfl, rfl, rfl, rfl⟩

theorem SameControls.trans {s t u : State} {i : Nat} (h : SameControls s t i) (k : SameControls t u i) : SameControls s u i :=
  ⟨k.book.trans h.book, k.mode.trans h.mode, k.fz.trans h.fz, k.ofs.trans h.ofs⟩

theorem sameControls_of_flags {s t : State} {i : Nat} {f : FFlags} (hbook : t.bookOf i = s.bookOf i)
    (hacr : t.acr (strandBundle i) = s.acr (strandBundle i) ||| BitVec.ofNat 64 f.toNat) : SameControls s t i := by
  obtain ⟨hmode, hfz, hofs⟩ := acr_bits_or_flags (s.acr (strandBundle i)) f
  refine ⟨hbook, ?_, ?_, ?_⟩
  · rw [State.modeOf, hacr, hmode]; rfl
  · rw [State.fzOf, hacr, hfz]; rfl
  · rw [hacr, hofs]

theorem State.bookOf_touchElem (s : State) (b : Nat) (x : ElemAt) (i : Nat) : (s.touchElem b x).bookOf i = s.bookOf i :=
  touchElem_eq (fun t => t.bookOf i) (fun t b q => t.bookOf_touch b q i) s b x

theorem State.bookOf_raiseOf (s : State) (j : Nat) (f : FFlags) (i : Nat) : (s.raiseOf j f).bookOf i = s.bookOf i := by
  rw [State.raiseOf_rest]; rfl

/-- A scale is read from memory alone. -/
theorem scaleOf_congr {s t : State} (h : ∀ pa, t.byte pa = s.byte pa) (x : ElemAt) : t.scaleOf x = s.scaleOf x := by
  rw [State.scaleOf, State.scaleOf, State.readLE_congr fun pa _ _ => h pa]

theorem codeAt_congr {s t : State} (h : ∀ pa, t.byte pa = s.byte pa) (x : ElemAt) : t.codeAt x = s.codeAt x := by
  rw [State.codeAt, State.codeAt, State.readLE_congr fun pa _ _ => h pa]

section
variable (s : State) (i n : Nat) (x : ElemAt) (r : FResult)

theorem owner_loadElem (o : Nat) : (s.loadElem i n x r).owner o = { s.owner o with
    acr := (s.owner o).acr ||| BitVec.ofNat 64 (if strandBundle i = o then r.2 else FFlags.none).toNat,
    acrNext := (s.owner o).acrNext.map fun y => y ||| BitVec.ofNat 64 (if strandBundle i = o then r.2 else FFlags.none).toNat } := by
  rw [(loadElem_frame s i n x r).owner o, flagsOf_single]
  rfl

theorem byte_loadElem (pa : Nat) : (s.loadElem i n x r).byte pa = s.byte pa := (loadElem_frame s i n x r).byte pa

theorem marked_loadElem : (s.loadElem i n x r).marked = s.marked := by rw [(loadElem_frame s i n x r).rest]

theorem loadElem_controls : SameControls s (s.loadElem i n x r) i := by
  refine sameControls_of_flags (f := r.2) ?_ ?_
  · rw [State.loadElem, State.bookOf_touchElem, State.bookOf_raiseOf]
    rfl
  · rw [State.acr, owner_loadElem, if_pos rfl]
    rfl

theorem storeElem_controls : SameControls s (s.storeElem i x r) i := by
  refine sameControls_of_flags (f := r.2) ?_ ?_
  · rw [State.storeElem, State.bookOf_touchElem, State.bookOf_raiseOf, State.storeMarked_rest]
    rfl
  · rw [State.acr, owner_storeElem, if_pos rfl]
    rfl

theorem getS_storeElem (o : Nat) (q : BitVec 6) : (s.storeElem i x r).getS o q = s.getS o q := by
  rw [State.getS, owner_storeElem]
  rfl

theorem strands_storeElem : (s.storeElem i x r).strands = s.strands := by rw [storeElem_rest]

end

/-! ### The four elements of an IMG.LD -/

/-- Elements read one after another into consecutive registers. -/
def State.loadElems (s : State) (i n : Nat) : List (ElemAt × FResult) → State
  | [] => s
  | x :: xs => (s.loadElem i n x.1 x.2).loadElems i (n + 1) xs

/-- The flags of the results together. -/
def elemFlags (xs : List (ElemAt × FResult)) : FFlags := xs.foldr (fun x f => x.2.2.or f) FFlags.none

/-- What elements read into registers n, n+1, … of strand i leave. -/
structure ElemsLoaded (s t : State) (i n : Nat) (xs : List (ElemAt × FResult)) : Prop where
  value : ∀ (k : Nat) (h : k < xs.length), t.getV i (n + k) = ⟨BitVec.ofNat 32 xs[k].2.1, none⟩
  strand : ∀ j, t.strand j = { s.strand j with v := (t.strand j).v }
  reg : ∀ j m, ¬(j = i ∧ n ≤ m ∧ m < n + xs.length) → t.getV j m = s.getV j m
  owner : ∀ o, t.owner o = { s.owner o with acr := (t.owner o).acr, acrNext := (t.owner o).acrNext }
  flags : (t.owner (strandBundle i)).acr = (s.owner (strandBundle i)).acr ||| BitVec.ofNat 64 (elemFlags xs).toNat
  byte : ∀ pa, t.byte pa = s.byte pa

theorem loadElems_loaded (s : State) (i n : Nat) (xs : List (ElemAt × FResult)) : ElemsLoaded s (s.loadElems i n xs) i n xs := by
  induction xs generalizing s n with
  | nil => exact ⟨nofun, fun _ => rfl, fun _ _ _ => rfl, fun _ => rfl, (BitVec.or_zero ..).symm, fun _ => rfl⟩
  | cons x xs ih =>
    obtain ⟨hvalue, hstrand, hreg, howner, hflags, hbyte⟩ := ih (s.loadElem i n x.1 x.2) (n + 1)
    refine ⟨fun k hk => ?_, fun j => ?_, fun j m hne => ?_, fun o => ?_, ?_, fun pa => (hbyte pa).trans (byte_loadElem ..)⟩
    · cases k with
      | zero => exact (hreg i n (by omega)).trans ((getV_loadElem ..).trans (if_pos ⟨rfl, rfl⟩))
      | succ k =>
        have hk' := hvalue k (Nat.lt_of_succ_lt_succ hk)
        rwa [Nat.add_right_comm] at hk'
    · exact (hstrand j).trans (by rw [(loadElem_frame s i n x.1 x.2).strand j]; rfl)
    · rw [List.length_cons] at hne
      exact (hreg j m (by omega)).trans ((getV_loadElem ..).trans (if_neg (by omega)))
    · exact (howner o).trans (by rw [owner_loadElem]; rfl)
    · refine hflags.trans ?_
      rw [owner_loadElem, if_pos rfl, BitVec.or_assoc, ← FFlags.toNat_or]
      rfl

/-- What an element is read by is as it was. -/
structure ReadAlike (s u : State) (i : Nat) : Prop where
  controls : SameControls s u i
  byte : ∀ pa, u.byte pa = s.byte pa
  marked : u.marked = s.marked

theorem ReadAlike.loadElem {s u : State} {i : Nat} (h : ReadAlike s u i) (n : Nat) (x : ElemAt) (r : FResult) :
    ReadAlike s (u.loadElem i n x r) i :=
  ⟨h.controls.trans (loadElem_controls ..), fun pa => (byte_loadElem ..).trans (h.byte pa), (marked_loadElem ..).trans h.marked⟩

/-- What LDX makes of an element for strand i (04 R106). -/
def State.elemValue (s : State) (i : Nat) (x : ElemAt) : FResult :=
  ldxValue x.page.fmt (s.bookOf i) (s.fzOf i) (s.scaleOf x) (s.codeAt x)

/-- IMG.LD's step for one element and its register. -/
def imgLoad (base : Dword) (i n : Nat) (u : State) (e : ElemAt × Nat) : State :=
  let bad := u.elemMarked e.1
  let v := u.loaded (strandBundle i) (strandIndex i) base e.1.pa bad (BitVec.ofNat 32 (u.elemValue i e.1).1)
  ((v.2.setV i (n + e.2) v.1).raiseOf i (if bad then FFlags.none else (u.elemValue i e.1).2)).touchElem (strandBundle i) e.1

theorem imgLoad_eq {s u : State} {i : Nat} (h : ReadAlike s u i) {e : ElemAt} (hm : s.elemMarked e = false) (base : Dword) (n k : Nat) :
    imgLoad base i n u (e, k) = u.loadElem i (n + k) e (s.elemValue i e) := by
  have hmarked : u.elemMarked e = false := by
    rw [State.elemMarked, State.isMarked, State.isMarked, h.marked]
    exact hm
  have hvalue : u.elemValue i e = s.elemValue i e := by
    rw [State.elemValue, h.controls.book, h.controls.fz, scaleOf_congr h.byte, codeAt_congr h.byte]
    rfl
  simp only [imgLoad, hmarked, hvalue, loaded_plain]
  rfl

theorem foldl_imgLoad {s : State} {i : Nat} (base : Dword) (n : Nat) (es : List ElemAt) (hm : ∀ e ∈ es, s.elemMarked e = false)
    {u : State} (h : ReadAlike s u i) (k : Nat) : (es.zipIdx k).foldl (imgLoad base i n) u =
      u.loadElems i (n + k) (es.map fun e => (e, s.elemValue i e)) := by
  induction es generalizing u k with
  | nil => rfl
  | cons e es ih =>
    rw [List.forall_mem_cons] at hm
    rw [List.zipIdx_cons, List.foldl_cons, imgLoad_eq h hm.1, ih hm.2 (h.loadElem ..)]
    rfl

/-! ### The four elements of an IMG.ST -/

/-- IMG.ST's step for one element and its register. -/
def imgStore (i n : Nat) (u : State) (e : ElemAt × Nat) : State :=
  u.storeElem i e.1 (stxCode e.1.page.fmt (u.bookOf i) (u.modeOf i) (u.fzOf i) (acrOfs (u.acr (strandBundle i))) (u.scaleOf e.1)
    (u.getV i (n + e.2)).val.toNat)

/-- The code that STX stores for a register of strand i as s holds it, by the scale that u holds. -/
def elemCode (s : State) (i n : Nat) (u : State) (e : ElemAt) (k : Nat) : Nat :=
  (stxCode e.page.fmt (s.bookOf i) (s.modeOf i) (s.fzOf i) ((s.acr (strandBundle i)).getLsbD 8) (u.scaleOf e)
    (s.getV i (n + k)).val.toNat).1

/-- The element's bytes with its code among them. -/
def elemPut (s : State) (i n : Nat) (u : State) (e : ElemAt) (k : Nat) : State :=
  u.writeLE e.pa (elemBytes e.page.fmt e.e)
    (elemInto e.page.fmt e.e (u.readLE e.pa (elemBytes e.page.fmt e.e)) (elemCode s i n u e k))

/-- Between s and u memory alone has changed as p says, beside what an element is not stored by. -/
structure StoredAlike (s u p : State) (i : Nat) : Prop where
  controls : SameControls s u i
  byte : ∀ pa, u.byte pa = p.byte pa
  strands : u.strands = s.strands
  scalars : ∀ o r, u.getS o r = s.getS o r

theorem StoredAlike.refl (s : State) (i : Nat) : StoredAlike s s s i := ⟨.refl s i, fun _ => rfl, rfl, fun _ _ => rfl⟩

theorem StoredAlike.imgStore {s u p : State} {i : Nat} (h : StoredAlike s u p i) (n : Nat) (e : ElemAt) (k : Nat) :
    StoredAlike s (imgStore i n u (e, k)) (elemPut s i n p e k) i where
  controls := h.controls.trans (storeElem_controls ..)
  byte pa := by
    have hgetV : u.getV i (n + k) = s.getV i (n + k) := by
      rw [State.getV, State.strand, h.strands]
      rfl
    refine (stored_storeElem u i e _ pa).trans ?_
    rw [elemPut, State.byte_writeLE, h.byte, State.readLE_congr fun pa _ _ => h.byte pa, h.controls.book, h.controls.mode, h.controls.fz,
      h.controls.ofs, scaleOf_congr h.byte, hgetV]
    rfl
  strands := (strands_storeElem ..).trans h.strands
  scalars o r := (getS_storeElem ..).trans (h.scalars o r)

end Sys2Proof.Machine

namespace Sys2Proof.Claims
open Sys2Proof.Machine
open Host (Outcome)

section Images
variable {s : State} {g : Guard} {i : Nat} {d a : BitVec 6} {lb : Bool} {off : BitVec 31} {es : List ElemAt}

theorem exec_imgLd (hs : OneStrand s g i) (hb : (baseOf s i a lb).poison = none)
    (hes : s.imgElems (baseOf s i a lb).val off.toInt false = .ok (es, s)) (hm : ∀ e ∈ es, s.elemMarked e = false) :
    exec (.imgLd g d a lb off) s = .next (s.loadElems i d.toNat (es.map fun e => (e, s.elemValue i e))) := by
  have hfold := foldl_imgLoad (baseOf s i a lb).val d.toNat es hm ⟨.refl s i, fun _ => rfl, rfl⟩ 0
  refine (congrArg (concludeAccess true s) (hs.forStrands_eq _)).trans ?_
  simp only [imgLdStrand, laneBase_eq hb, hes]
  exact congrArg Outcome.next hfold

theorem exec_imgSt (hs : OneStrand s g i) (hb : (baseOf s i a lb).poison = none) (hd : s.blockPoison i d.toNat 4 = none)
    (hes : s.imgElems (baseOf s i a lb).val off.toInt true = .ok (es, s)) :
    exec (.imgSt g d a lb off) s = .next (es.zipIdx.foldl (imgStore i d.toNat) s) := by
  refine (congrArg (concludeAccess true s) (hs.forStrands_eq _)).trans ?_
  simp only [imgStStrand, laneBase_eq hb, hd, hes]
  rfl

end Images

/-! ### Quads -/

theorem quadDeriv_group (s : State) (g : Guard) (d a : BitVec 6) (k : Nat) (hn : (actingStrands s g).Nodup) :
    FloatSpec s (eachStrand g s (quadDerivStrand s d a k)) g d (fun i => (s.quadDeriv i a.toNat k).1)
      fun i => (s.quadDeriv i a.toNat k).2 :=
  foldl_setFloat d (fun i _ => (s.quadDeriv i a.toNat k).1) (fun i _ => (s.quadDeriv i a.toNat k).2)
    (fun _ _ _ _ _ _ => ⟨rfl, rfl⟩) _ hn s

end Sys2Proof.Claims

namespace Sys2Proof
open Sys2Proof.Machine Sys2Proof.Claims

/-- Settles O32: the elements of a texel are read or stored one after another as LDX and STX would, and a quad operation writes what it
reads in the state it found. -/
theorem imagesAndQuads : Obligations.ImagesAndQuads := by
  refine ⟨fun s g i d a lb off e0 e1 e2 e3 hs hb => ⟨fun hes hm => ?_, fun hd hes => ?_⟩,
    fun s g d a imm hn => ⟨?_, ?_⟩⟩
  · intro r
    obtain ⟨hvalue, hstrand, hreg, howner, hflags, hbyte⟩ :=
      loadElems_loaded s i d.toNat ([e0, e1, e2, e3].map fun e => (e, s.elemValue i e))
    refine ⟨_, exec_imgLd hs hb hes hm, hvalue 0 (by simp), hvalue 1 (by simp), hvalue 2 (by simp), hvalue 3 (by simp),
      hstrand, hreg, howner, hflags.trans ?_, hbyte⟩
    simp only [elemFlags, List.map, List.foldr, FFlags.or_none, FFlags.or_assoc]
    rfl
  · intro code put
    have hend : StoredAlike s _ (put (put (put (put s e0 0) e1 1) e2 2) e3 3) i :=
      ((((StoredAlike.refl s i).imgStore d.toNat e0 0).imgStore d.toNat e1 1).imgStore d.toNat e2 2).imgStore d.toNat e3 3
    exact ⟨_, exec_imgSt hs hb hd hes, hend.byte, hend.strands, hend.scalars⟩
  · exact ⟨_, rfl, foldl_setV_read d.toNat (fun i => s.quadV i a.toNat (imm.toNat / 4 ^ (i % 4) % 4)) (actingStrands s g) s⟩
  · exact ⟨_, rfl, quadDeriv_group s g d a imm.toNat hn⟩

end Sys2Proof
